-- ==== Sys2Proof/Word.lean ====
section
/-! DEFINITION. The word types of the part: bytes, 32-bit register words, and the 36-bit tagged words of the cores. -/

namespace Sys2Proof

/-- One byte. -/
abbrev Byte := BitVec 8

/-- One register word, or the payload of a core word. -/
abbrev Word := BitVec 32

/-- A tagged word of a core or of house SRAM: tag in the top four bits, payload below (R301). -/
abbrev Tagged := BitVec 36

end Sys2Proof
end

