-- ==== Sys2Proof/Types.lean ====
section
/-! DEFINITION. The named kinds that commands and state both speak of: variants, dies, bridge sources, port classes. -/

namespace Sys2Proof

/-- The three variants of R1. -/
inductive Variant where
  | zw8460
  | zw8440
  | zw8420
deriving DecidableEq, Repr

/-- The two dies (R28). -/
inductive Die where
  | house
  | scan
deriving DecidableEq, Repr

/-- The bridge sources of R40. A message of the drawer engine's SCENE traffic names its queue too, because the scan die
counts scene writes separately for each scene queue (R176). -/
inductive Src where
  | core (n : Fin 4)
  | dresser
  | hutch
  | scene (qid : BitVec 14)
  | video
  | beam
  | events
  | dma (n : Fin 32)
deriving DecidableEq, Repr

/-- The port classes of the object dictionary (R5, R497). -/
inductive PortClass where
  | bench
  | house
  | ctrl
  | peer
  | service
deriving DecidableEq, Repr

/-- The causes of a bridge retraining other than a command (R49). -/
inductive BridgeFault where
  | crcErrors
  | laneLoss
  | repeatedNak
deriving DecidableEq, Repr

/-- A weave packet: its 16-byte header and its payload (R404). -/
structure Packet where
  dkind : BitVec 2
  dest : BitVec 14
  sport : BitVec 2
  smid : BitVec 14
  vc : BitVec 2
  qid : BitVec 14
  seq : BitVec 16
  rsel : Bool
  egr : Bool
  cls : BitVec 3
  hoplim : BitVec 10
  /-- Bits [13:8] of a multicast DEST are part of `dest`; bit 15 of header bytes 8-9 is reserved. -/
  kind : BitVec 4
  len : BitVec 12
  ctx : Word
  payload : List Byte
deriving DecidableEq, Repr

/-- A hello (R409). -/
structure Hello where
  controller : Bool
  serial : BitVec 64
  port : BitVec 3
  col : BitVec 14
  row : BitVec 14
  side : Bool
  posv : Bool
  mid : BitVec 14
  midv : Bool
  gepoch : Word
  dist : Byte
  parentMe : Bool
deriving DecidableEq, Repr

/-- An edge on a wake source: its number, and whether it rises (R364, R538, R555). -/
structure WakeEdge where
  source : Fin 32
  rising : Bool
deriving DecidableEq, Repr

/-- What a link frame returns to the port that receives it: the cumulative acknowledgement, and the credit returns, a byte for each
virtual channel (R402; log entry 115). -/
structure LinkReturns where
  ack : BitVec 12
  credits : Word
deriving DecidableEq, Repr

/-- An unlock token as it is written, and the alarm source whose condition comes while it is verified, if one does (R529). -/
structure TokenWrite where
  token : List Byte
  during : Option (Fin 6)
deriving DecidableEq, Repr

/-- Events of the service bus that move its error counts and its state (R508). -/
inductive BusEvent where
  /-- A frame that the module sends meets an error. -/
  | sendError
  /-- A receiver's error. -/
  | receiveError
  /-- A dominant bit follows the receiver's own error flag. -/
  | dominantAfterFlag
  /-- A frame has been sent. -/
  | sent
  /-- A frame has been received. -/
  | received
  /-- Bus-off recovery has run its course. -/
  | recovered
deriving DecidableEq, Repr

/-- The causes of a weave port's retraining other than a command (R403). -/
inductive PortFault where
  | crcErrors
  | laneLoss
  | repeatedNak
deriving DecidableEq, Repr

/-- Who waits for a read (R42, R46, R51). -/
inductive Reader where
  | core (n : Fin 4)
  | dma (ch : Fin 32)
  | other (src : Src)
deriving DecidableEq, Repr

/-- How a command that a register and a dictionary entry both give comes: through the one or the other. -/
inductive Via where
  | register (src : Src)
  | entry (cls : PortClass) (egr : Bool)
deriving DecidableEq, Repr

/-- A core's registers as the bench port names them (R528): the 16 words by number, Q0 and Q1, and the special registers. -/
inductive CoreReg where
  | word (r : BitVec 4)
  | acc (q : Bool)
  | pc
  | sr
  | rc
  | bk
  | vtab
  | slim
  | tcause
  | taddr
deriving DecidableEq, Repr

/-- What COREDBG asks of a core (R528). -/
inductive CoreDebug where
  | halt
  | resume
  | step
  | setBreak (a : BitVec 24)
  | clearBreak (a : BitVec 24)
  | read (r : CoreReg)
  | write (r : CoreReg) (v : BitVec 72)
deriving DecidableEq, Repr

end Sys2Proof
end

