-- ==== Sys2Proof/Syntax.lean ====
section
/-! DEFINITION. The commands: one constructor per row of the opcode table, those with operands first, each
group in the table's order. A command that is a write or a
read of one register carries its source and, for a write, the word; the bits that make it the command are set by its
meaning. A command that an outside event gives carries what the event brings. Core instructions carry the issuing core and
their decoded fields. -/

namespace Sys2Proof

/-- The commands of the part. -/
inductive Instr where
  /-- REGISTER_WRITE (R12). -/
  | registerWrite (src : Src) (addr : BitVec 24) (val : Word)
  /-- BRIDGE_FLIT_RECEIVE (R47). -/
  | bridgeFlitReceive (dest : Die) (seq : BitVec 10) (crcOk : Bool)
  /-- BRIDGE_NAK_RECEIVE (R47). -/
  | bridgeNakReceive (dest : Die) (seq : BitVec 10)
  /-- BRIDGE_ACK_RECEIVE (R48). -/
  | bridgeAckReceive (dest : Die) (seq : BitVec 10)
  /-- BRIDGE_LINK_FAULT (R49). -/
  | bridgeLinkFault (cause : BridgeFault)
  /-- BRIDGE_RETRAIN (R53). -/
  | bridgeRetrain (src : Src) (val : Word)
  /-- BRIDGE_TRAINING_DONE (R50). -/
  | bridgeTrainingDone (ok : Bool) (lanesHs lanesSh : BitVec 8)
  /-- PW_APPLY (R41). -/
  | pwApply (dest : Die)
  /-- READ_TIMEOUT (R51). -/
  | readTimeout (reader : Reader)
  /-- FRAME_PULSE (R61). -/
  | framePulse (period : Word)
  /-- FRAME_COUNT_SET (R63). -/
  | frameCountSet (cls : PortClass) (egr : Bool) (count : Word)
  /-- BEACON_SEND (R66). -/
  | beaconSend (corr : BitVec 32)
  /-- BEACON_RECEIVE (R69). -/
  | beaconReceive (residence : BitVec 32)
  /-- WATERMARK_FIRE (R93). -/
  | watermarkFire (n : Fin 4)
  /-- BEAM_ENABLE (R94). -/
  | beamEnable (src : Src) (val : Word)
  /-- REACQ (R94). -/
  | reacq (src : Src) (val : Word)
  /-- BEAM_FORMAT_WRITE (R95). -/
  | beamFormatWrite (src : Src) (per : Bool) (val : Word)
  /-- BEAMPOS_LO_READ (R96). -/
  | beamposLoRead (src : Src)
  /-- COMPOSE_START (R82). -/
  | composeStart (frame : Word) (feed : BitVec 2)
  /-- CLUSTER_LINE_COMPOSE (R150). -/
  | clusterLineCompose (region : BitVec 2) (line : BitVec 9) (calLate : Bool)
  /-- LINE_FLIP (R90). -/
  | lineFlip (frame : Word) (line : BitVec 9)
  /-- GLOBAL_FLIP (R91). -/
  | globalFlip (frame : Word)
  /-- FEED_FLIP (R269). -/
  | feedFlip (frame : Word) (feed : BitVec 2)
  /-- DRAM_WRITE_APPLY (R106). -/
  | dramWriteApply (src : Src) (addr : Word) (data : List Byte)
  /-- OBJECT_TABLE_WRITE (R131). -/
  | objectTableWrite (src : Src) (ctl : Bool) (val : Word)
  /-- CMGO (R178). -/
  | cmgo (src : Src) (val : Word)
  /-- ADMISSION (R184). -/
  | admission (src : Src)
  /-- COMMIT_DEADLINE (R179). -/
  | commitDeadline (src : Src)
  /-- COMMIT_ACCEPT (R179). -/
  | commitAccept (src : Src)
  /-- FENCEQ_READ (R198). -/
  | fenceqRead (src : Src)
  /-- EGRESS_SAMPLE (R556). -/
  | egressSample (code : BitVec 10)
  /-- EGRESS_COMMAND (R173). -/
  | egressCommand (cls : PortClass) (egr : Bool) (val : Byte)
  /-- EGRESS_LIBRARY_WRITE (R175). -/
  | egressLibraryWrite (cls : PortClass) (egr : Bool) (data : List Byte)
  /-- EGCTL_LOCK (R199). -/
  | egctlLock (src : Src) (val : Word)
  /-- TRESTLE_WALK (R211). -/
  | trestleWalk (stream : BitVec 2) (frame : Word)
  /-- REFRESH_CYCLE_START (R236). -/
  | refreshCycleStart (frame : Word) (cycle : BitVec 6)
  /-- ROW_SLOT_START (R237). -/
  | rowSlotStart (row : BitVec 6)
  /-- PLANE_SLOT_START (R238). -/
  | planeSlotStart (n : BitVec 5)
  /-- RUN_START (R249). -/
  | runStart (src : Src) (region : Fin 4) (val : Word)
  /-- RUN_STOP (R249). -/
  | runStop (src : Src) (region : Fin 4) (val : Word)
  /-- CLAIM (R253). -/
  | claim (src : Src) (val : Word)
  /-- OWN_B_CHANGE (R253). -/
  | ownBChange (high : Bool)
  /-- COPY_GO (R282). -/
  | copyGo (src : Src) (val : Word)
  /-- COPY_ABORT (R294). -/
  | copyAbort (src : Src) (val : Word)
  /-- NOP (R336). -/
  | nop (core : Fin 4)
  /-- WAIT (R344). -/
  | wait (core : Fin 4)
  /-- WAIT_WAKE (R344). -/
  | waitWake (core : Fin 4)
  /-- SYNC (R344). -/
  | sync (core : Fin 4)
  /-- SYNC_DONE (R344). -/
  | syncDone (core : Fin 4)
  /-- TRAP (R336). -/
  | trap (core : Fin 4) (k : BitVec 4)
  /-- RETI (R325). -/
  | reti (core : Fin 4)
  /-- MFC (R317). -/
  | mfc (core : Fin 4) (rd cr : BitVec 4)
  /-- MTC (R317). -/
  | mtc (core : Fin 4) (ra cr : BitVec 4)
  /-- REP (R347). -/
  | rep (core : Fin 4) (op : BitVec 8)
  /-- MOV (R336). -/
  | mov (core : Fin 4) (rd ra : BitVec 4)
  /-- MOVR (R336). -/
  | movr (core : Fin 4) (rd ra : BitVec 4)
  /-- LDI (R336). -/
  | ldi (core : Fin 4) (rd : BitVec 4) (imm : BitVec 20)
  /-- LDC (R336). -/
  | ldc (core : Fin 4) (rd tag : BitVec 4) (ext : Word)
  /-- RETAG (R336). -/
  | retag (core : Fin 4) (rd ra tag : BitVec 4)
  /-- GETTAG (R336). -/
  | gettag (core : Fin 4) (rd ra : BitVec 4)
  /-- MFRC (R336). -/
  | mfrc (core : Fin 4) (rd : BitVec 4)
  /-- MTRC (R349). -/
  | mtrc (core : Fin 4) (ra : BitVec 4)
  /-- MFBK (R336). -/
  | mfbk (core : Fin 4) (rd : BitVec 4) (k : BitVec 2)
  /-- MTBK (R336). -/
  | mtbk (core : Fin 4) (ra : BitVec 4) (k : BitVec 2)
  /-- LD (R303). -/
  | ld (core : Fin 4) (r : BitVec 4) (bank : BitVec 2) (short : BitVec 16)
  /-- ST (R301). -/
  | st (core : Fin 4) (r : BitVec 4) (bank : BitVec 2) (short : BitVec 16)
  /-- LDR (R301). -/
  | ldr (core : Fin 4) (r : BitVec 4) (bank : BitVec 2) (short : BitVec 16)
  /-- STR (R336). -/
  | str (core : Fin 4) (r : BitVec 4) (bank : BitVec 2) (short : BitVec 16)
  /-- LDX (R334). -/
  | ldx (core : Fin 4) (r base : BitVec 4) (mode : BitVec 2) (off : BitVec 18)
  /-- STX (R334). -/
  | stx (core : Fin 4) (r base : BitVec 4) (mode : BitVec 2) (off : BitVec 18)
  /-- LDRX (R334). -/
  | ldrx (core : Fin 4) (r base : BitVec 4) (mode : BitVec 2) (off : BitVec 18)
  /-- STRX (R334). -/
  | strx (core : Fin 4) (r base : BitVec 4) (mode : BitVec 2) (off : BitVec 18)
  /-- LEA (R339). -/
  | lea (core : Fin 4) (r base : BitVec 4) (mode : BitVec 2) (off : BitVec 18)
  /-- XCHG (R345). -/
  | xchg (core : Fin 4) (r base : BitVec 4) (mode : BitVec 2) (off : BitVec 18)
  /-- CAS (R345). -/
  | cas (core : Fin 4) (rd ra rb : BitVec 4)
  /-- MOVM (R345). -/
  | movm (core : Fin 4) (rd ra : BitVec 4)
  /-- PUSH (R336). -/
  | push (core : Fin 4) (ra : BitVec 4)
  /-- POP (R336). -/
  | pop (core : Fin 4) (rd : BitVec 4)
  /-- LOAD_RETURN (R313). -/
  | loadReturn (core : Fin 4)
  /-- ADD (R338). -/
  | add (core : Fin 4) (rd ra rb : BitVec 4)
  /-- SUB (R338). -/
  | sub (core : Fin 4) (rd ra rb : BitVec 4)
  /-- AND (R336). -/
  | and (core : Fin 4) (rd ra rb : BitVec 4)
  /-- OR (R336). -/
  | or (core : Fin 4) (rd ra rb : BitVec 4)
  /-- XOR (R336). -/
  | xor (core : Fin 4) (rd ra rb : BitVec 4)
  /-- SHL (R338). -/
  | shl (core : Fin 4) (rd ra rb : BitVec 4)
  /-- SHR (R338). -/
  | shr (core : Fin 4) (rd ra rb : BitVec 4)
  /-- SAR (R338). -/
  | sar (core : Fin 4) (rd ra rb : BitVec 4)
  /-- MUL (R338). -/
  | mul (core : Fin 4) (rd ra rb : BitVec 4)
  /-- DIVS (R338). -/
  | divs (core : Fin 4) (rd ra rb : BitVec 4)
  /-- DIVU (R338). -/
  | divu (core : Fin 4) (rd ra rb : BitVec 4)
  /-- CMP (R337). -/
  | cmp (core : Fin 4) (ra rb : BitVec 4)
  /-- NEG (R336). -/
  | neg (core : Fin 4) (rd ra : BitVec 4)
  /-- ADDI (R339). -/
  | addi (core : Fin 4) (rd ra : BitVec 4) (imm : BitVec 20)
  /-- ANDI (R336). -/
  | andi (core : Fin 4) (rd ra : BitVec 4) (imm : BitVec 20)
  /-- ORI (R336). -/
  | ori (core : Fin 4) (rd ra : BitVec 4) (imm : BitVec 20)
  /-- XORI (R336). -/
  | xori (core : Fin 4) (rd ra : BitVec 4) (imm : BitVec 20)
  /-- SHLI (R338). -/
  | shli (core : Fin 4) (rd ra : BitVec 4) (imm : BitVec 20)
  /-- SHRI (R338). -/
  | shri (core : Fin 4) (rd ra : BitVec 4) (imm : BitVec 20)
  /-- SARI (R338). -/
  | sari (core : Fin 4) (rd ra : BitVec 4) (imm : BitVec 20)
  /-- CMPI (R337). -/
  | cmpi (core : Fin 4) (ra : BitVec 4) (imm : BitVec 20)
  /-- ADDA (R339). -/
  | adda (core : Fin 4) (rd ra rb : BitVec 4)
  /-- SUBA (R339). -/
  | suba (core : Fin 4) (rd ra rb : BitVec 4)
  /-- CMPEQ (R336). -/
  | cmpeq (core : Fin 4) (ra rb : BitVec 4)
  /-- FADD (R340). -/
  | fadd (core : Fin 4) (rd ra rb : BitVec 4)
  /-- FSUB (R340). -/
  | fsub (core : Fin 4) (rd ra rb : BitVec 4)
  /-- FMUL (R340). -/
  | fmul (core : Fin 4) (rd ra rb : BitVec 4)
  /-- FDIV (R340). -/
  | fdiv (core : Fin 4) (rd ra rb : BitVec 4)
  /-- FCMP (R337). -/
  | fcmp (core : Fin 4) (ra rb : BitVec 4)
  /-- ITOF (R340). -/
  | itof (core : Fin 4) (rd ra : BitVec 4)
  /-- FTOI (R336). -/
  | ftoi (core : Fin 4) (rd ra : BitVec 4)
  /-- PADD (R341). -/
  | padd (core : Fin 4) (rd ra rb : BitVec 4)
  /-- PMUL (R341). -/
  | pmul (core : Fin 4) (rd ra rb : BitVec 4)
  /-- POVER (R341). -/
  | pover (core : Fin 4) (rd ra rb : BitVec 4)
  /-- PEXT (R341). -/
  | pext (core : Fin 4) (rd ra : BitVec 4) (ch : BitVec 2)
  /-- PINS (R341). -/
  | pins (core : Fin 4) (rd ra rb : BitVec 4) (ch : BitVec 2)
  /-- BCMP (R342). -/
  | bcmp (core : Fin 4) (ra rb : BitVec 4)
  /-- BDIFF (R342). -/
  | bdiff (core : Fin 4) (rd ra rb : BitVec 4)
  /-- BADD (R342). -/
  | badd (core : Fin 4) (rd ra rb : BitVec 4)
  /-- BNOW (R342). -/
  | bnow (core : Fin 4) (rd : BitVec 4)
  /-- MAC (R343). -/
  | mac (core : Fin 4) (ra rb : BitVec 4) (q : Bool)
  /-- FMAC (R343). -/
  | fmac (core : Fin 4) (ra rb : BitVec 4) (q : Bool)
  /-- MTQ (R343). -/
  | mtq (core : Fin 4) (ra : BitVec 4) (q : Bool)
  /-- MFQ (R343). -/
  | mfq (core : Fin 4) (rd : BitVec 4) (q : Bool) (shift : BitVec 5) (t : Bool)
  /-- CLRQ (R336). -/
  | clrq (core : Fin 4) (q : Bool)
  /-- BR (R346). -/
  | br (core : Fin 4) (cond : BitVec 4) (disp : BitVec 24)
  /-- JMP (R336). -/
  | jmp (core : Fin 4) (ext : Word)
  /-- JMPR (R336). -/
  | jmpr (core : Fin 4) (ra : BitVec 4)
  /-- CALL (R350). -/
  | call (core : Fin 4) (mask : BitVec 16) (ext : Word)
  /-- CALLR (R350). -/
  | callr (core : Fin 4) (rt : BitVec 4) (mask : BitVec 16)
  /-- RET (R351). -/
  | ret (core : Fin 4)
  /-- TRCLR (R218). -/
  | trclr (core : Fin 4)
  /-- TRPUT (R218). -/
  | trput (core : Fin 4) (ra : BitVec 4)
  /-- TRGET (R218). -/
  | trget (core : Fin 4) (rd ra : BitVec 4) (tgt : BitVec 3) (unit : BitVec 4) (stream : BitVec 2)
  /-- TRWALK (R218). -/
  | trwalk (core : Fin 4) (rd : BitVec 4)
  /-- UNDEFINED_OPCODE (R335). -/
  | undefinedOpcode (core : Fin 4) (op : BitVec 8)
  /-- INTERRUPT_ENTRY (R322). -/
  | interruptEntry (core : Fin 4)
  /-- CORE_RESET (R329). -/
  | coreReset (src : Src) (core : Fin 4) (val : Word)
  /-- CORE_RUN (R329). -/
  | coreRun (src : Src) (core : Fin 4) (run : Bool) (val : Word)
  /-- HIC_SOURCE_EDGE (R357). -/
  | hicSourceEdge (n : BitVec 8)
  /-- COALESCE_TIMEOUT (R362). -/
  | coalesceTimeout (n : BitVec 8)
  /-- HIC_FORCE (R366). -/
  | hicForce (src : Src) (word : Fin 8) (val : Word)
  /-- WAKE_LATCH (R364). -/
  | wakeLatch (w : WakeEdge)
  /-- TIMER_ENABLE (R367). -/
  | timerEnable (src : Src) (n : Fin 8) (val : Word)
  /-- TIMER_EXPIRY (R367). -/
  | timerExpiry (n : Fin 8)
  /-- DMA_START (R377). -/
  | dmaStart (src : Src) (n : Fin 32) (val : Word)
  /-- DMA_COMPLETE (R374). -/
  | dmaComplete (n : Fin 32)
  /-- DMA_ABORT (R375). -/
  | dmaAbort (src : Src) (n : Fin 32) (val : Word)
  /-- MEMINIT (R388). -/
  | meminit (src : Src) (val : Word)
  /-- WMAP_SET (R386). -/
  | wmapSet (src : Src) (i : Fin 16) (val : Word)
  /-- LINK_SIGNAL_DETECT (R401). -/
  | linkSignalDetect (port : Fin 7)
  /-- LINK_TRAINING_DONE (R401). -/
  | linkTrainingDone (port : Fin 7) (ok : Bool)
  /-- LINK_TRAINING_RETRY (R401). -/
  | linkTrainingRetry (port : Fin 7)
  /-- LINK_DELAY_MEASURED (R70). -/
  | linkDelayMeasured (port : Fin 7) (delay : Word)
  /-- HELLO_SEND (R409). -/
  | helloSend (port : Fin 7)
  /-- HELLO_RECEIVE (R410). -/
  | helloReceive (port : Fin 7) (hello : Hello)
  /-- HELLO_TIMEOUT (R401). -/
  | helloTimeout (port : Fin 7)
  /-- LINK_FRAME_RECEIVE (R402). -/
  | linkFrameReceive (port : Fin 7) (seq : BitVec 12) (ack : LinkReturns) (crcOk : Bool) (packet : Packet)
  /-- LINK_NAK_RECEIVE (R402). -/
  | linkNakReceive (port : Fin 7) (seq : BitVec 12)
  /-- PORT_RETRAIN (R403). -/
  | portRetrain (port : Fin 7) (cause : PortFault)
  /-- PORT_RETRAIN_CMD (R437). -/
  | portRetrainCmd (src : Src) (port : Fin 7) (val : Word)
  /-- PORT_RETRAIN_DONE (R401). -/
  | portRetrainDone (port : Fin 7) (ok : Bool)
  /-- PACKET_RECEIVE (R416). -/
  | packetReceive (port : Fin 7)
  /-- LINKHOLD_EXPIRY (R419). -/
  | linkholdExpiry (port : Fin 7)
  /-- VIDLOAD_MEASURE (R434). -/
  | vidloadMeasure (port : Fin 7) (load : BitVec 7)
  /-- POSITION_WRITE (R411). -/
  | positionWrite (via : Via) (val : Word)
  /-- ROUTE_ENTRY_WRITE (R436). -/
  | routeEntryWrite (src : Src) (val : Word)
  /-- GAP_TIMEOUT (R427). -/
  | gapTimeout (qid : BitVec 14)
  /-- DRAWER_ENABLE (R438). -/
  | drawerEnable (src : Src) (val : Word)
  /-- DRAWER_DISABLE (R438). -/
  | drawerDisable (src : Src) (val : Word)
  /-- DRAWER_HEAD_WRITE (R428). -/
  | drawerHeadWrite (src : Src) (val : Word)
  /-- OUT_ITEM_SEND (R425). -/
  | outItemSend (qid : BitVec 14)
  /-- SLICE_DECODE (R433). -/
  | sliceDecode (qid : BitVec 14)
  /-- SELF_CHECK_DONE (R454). -/
  | selfCheckDone (pass : Bool)
  /-- TAKE (R459). -/
  | take (via : Via) (val : Word)
  /-- YIELD (R459). -/
  | yield (via : Via) (val : Word)
  /-- PATCH_TIMEOUT (R461). -/
  | patchTimeout (qid : BitVec 14)
  /-- VOICE_FETCH (R472). -/
  | voiceFetch (voice : BitVec 8) (k : Word)
  /-- CODEC_FRAME (R480). -/
  | codecFrame (left right : BitVec 24) (near : Bool)
  /-- AUDIO_EVENT_PUSH (R476). -/
  | audioEventPush (src : Src) (val : Word)
  /-- VOICE_START (R470). -/
  | voiceStart (src : Src) (voice : BitVec 8) (val : Word)
  /-- VOICE_STOP (R470). -/
  | voiceStop (src : Src) (voice : BitVec 8) (val : Word)
  /-- STREAM_SIZE_WRITE (R492). -/
  | streamSizeWrite (src : Src) (n : Fin 8) (val : Word)
  /-- DICTIONARY_READ (R501). -/
  | dictionaryRead (cls : PortClass) (egr : Bool) (index : BitVec 16) (sub : Byte)
  /-- DICTIONARY_WRITE (R503). -/
  | dictionaryWrite (cls : PortClass) (egr : Bool) (index : BitVec 16) (sub : Byte) (data : List Byte)
  /-- DESCRIBE (R500). -/
  | describe (cls : PortClass) (egr : Bool) (index : BitVec 16) (sub : Byte)
  /-- FIRMWARE_ANSWER (R501). -/
  | firmwareAnswer (src : Src) (val : Word)
  /-- HOUSE_REQUEST_GO (R502). -/
  | houseRequestGo (src : Src) (val : Word)
  /-- STORE_VOID (R505). -/
  | storeVoid (cls : PortClass) (egr : Bool)
  /-- RESULT_TRIGGER (R506). -/
  | resultTrigger (cls : PortClass) (egr sealing : Bool) (val : Byte)
  /-- RESULT_READY (R506). -/
  | resultReady (sealing : Bool)
  /-- RESULT_TAKE (R506). -/
  | resultTake (cls : PortClass) (egr sealing : Bool)
  /-- SERVICE_REQUEST (R510). -/
  | serviceRequest (id : BitVec 29) (data : List Byte)
  /-- SEGMENT (R511). -/
  | segment (id : BitVec 29) (data : List Byte)
  /-- SERVICE_ACK (R511). -/
  | serviceAck (id : BitVec 29) (data : List Byte)
  /-- SERVICE_ABORT (R510). -/
  | serviceAbort (id : BitVec 29) (data : List Byte)
  /-- BUS_OFF (R515). -/
  | busOff (event : BusEvent)
  /-- STAGING_TIMEOUT (R514). -/
  | stagingTimeout (slot : Fin 4)
  /-- DRESSER_COMMIT (R517). -/
  | dresserCommit (cls : PortClass) (egr : Bool) (epoch : Word)
  /-- KEY_AGREEMENT (R519). -/
  | keyAgreement (cls : PortClass) (egr : Bool) (point : List Byte)
  /-- CONTENT_KEY_WRITE (R520). -/
  | contentKeyWrite (cls : PortClass) (egr : Bool) (slot : Fin 32) (wrapped : List Byte)
  /-- SEAL_KEY_WRITE (R520). -/
  | sealKeyWrite (cls : PortClass) (egr : Bool) (wrapped : List Byte)
  /-- ALARM (R524). -/
  | alarm (source : Fin 6)
  /-- GUARD_CLEAR (R526). -/
  | guardClear (via : Via) (val : Word)
  /-- SEAL_CLEAR (R526). -/
  | sealClear (cls : PortClass) (egr : Bool)
  /-- ALARM_CONFIG_LOCK (R542). -/
  | alarmConfigLock (src : Src) (val : Word)
  /-- NONCE_READ (R529). -/
  | nonceRead (cls : PortClass) (egr : Bool)
  /-- UNLOCK_TOKEN (R529). -/
  | unlockToken (cls : PortClass) (egr : Bool) (token : TokenWrite)
  /-- DEBUG_CLOSE (R531). -/
  | debugClose (cls : PortClass) (egr : Bool)
  /-- BYPASS (R528). -/
  | bypass (data : List Byte)
  /-- SAMPLE_PRELOAD (R528). -/
  | samplePreload (data : List Byte)
  /-- BCHREQ (R528). -/
  | bchreq (cmd : Byte) (index : BitVec 16) (sub : Byte) (data : List Byte)
  /-- EXTEST (R533). -/
  | extest (data : List Byte)
  /-- INJECT (R532). -/
  | inject (packet : Packet)
  /-- MEMAP (R528). -/
  | memap (view : Fin 4) (direct write : Bool) (addr : BitVec 24) (val : Tagged)
  /-- COREDBG (R528). -/
  | coredbg (core : Fin 4) (op : CoreDebug)
  /-- POWER_REQUEST (R535). -/
  | powerRequest (via : Via) (req : BitVec 2)
  /-- WAKE (R538). -/
  | wake (w : WakeEdge)
  /-- PAD_LOCK_KEY (R553). -/
  | padLockKey (src : Src) (val : Word)
  /-- PAD_LOCK (R553). -/
  | padLock (src : Src) (word : Fin 16) (val : Word)
  /-- HOLD_RELEASE (R554). -/
  | holdRelease (src : Src) (val : Word)
  /-- ADC_CONVERT (R548). -/
  | adcConvert (src : Src) (val : Word)
  /-- ADC_DONE (R548). -/
  | adcDone (code : BitVec 10)
  /-- BANK_VIO_WRITE (R547). -/
  | bankVioWrite (src : Src) (bank : Fin 4) (val : Word)
  /-- UART_RECEIVE (R550). -/
  | uartReceive (byte : Byte)
  /-- UART_READ (R567). -/
  | uartRead (src : Src)
  /-- UART_TRANSMIT (R567). -/
  | uartTransmit (src : Src) (val : Word)
  /-- VIN_RISE (R563). -/
  | vinRise (slot : BitVec 6)
  /-- INPUT_LOSS_WARNING (R562). -/
  | inputLossWarning (vin : BitVec 16)
  /-- INPUT_RECOVERY (R562). -/
  | inputRecovery (vin : BitVec 16)
  /-- THERMAL_THRESHOLD (R565). -/
  | thermalThreshold (tscan thouse : BitVec 8)
  /-- RECORD_WRITE (R575). -/
  | recordWrite (stored : Bool)
  /-- RECORD_SELECT (R580). -/
  | recordSelect (src : Src) (val : Word)
  /-- RECORD_NEXT (R580). -/
  | recordNext (src : Src) (val : Word)
  /-- RECTOTL_READ (R588). -/
  | rectotlRead (src : Src)
  /-- RECORDER_CLEAR (R582). -/
  | recorderClear (cls : PortClass) (egr : Bool) (val : Byte)
  /-- RECORD_PUT (R585). -/
  | recordPut (src : Src) (val : Word)
  /-- CALENDAR_SET (R571). -/
  | calendarSet (cls : PortClass) (egr : Bool) (val : BitVec 64)
  /-- PERF_CLEAR (R587). -/
  | perfClear (src : Src) (n : Fin 4) (val : Word)
  /-- PERF_LO_READ (R587). -/
  | perfLoRead (src : Src) (n : Fin 4)
  /-- IMAGE_WRITE (R593). -/
  | imageWrite (cls : PortClass) (egr : Bool) (image : List Byte)
  /-- HOUSE_RESET_REQUEST (R593). -/
  | houseResetRequest (cls : PortClass) (egr : Bool)
  /-- ALARM_SOURCE_INACTIVE (R542). -/
  | alarmSourceInactive (source : Fin 6)
  /-- BANK_RAIL_SLEW_END (R547). -/
  | bankRailSlewEnd (bank : Fin 4)
  /-- PAD_FUNCTION_HOLD_END (R551). -/
  | padFunctionHoldEnd (pad : Fin 512)
  /-- RSVWR_CLEAR (R15). -/
  | rsvwrClear
  /-- POWER_ON_RESET (R31). -/
  | powerOnReset
  /-- HOUSE_DIE_RESET (R31). -/
  | houseDieReset
  /-- SCAN_DIE_RESET (R31). -/
  | scanDieReset
  /-- FRAME_STORE_CLEAR_DONE (R226). -/
  | frameStoreClearDone
  /-- BRIDGE_CNTCLR (R53). -/
  | bridgeCntclr
  /-- RD_REQUEST (R42). -/
  | rdRequest
  /-- LINE_CLOCK_EDGE (R61). -/
  | lineClockEdge
  /-- HOLDOVER_ENTRY (R74). -/
  | holdoverEntry
  /-- FREE_ENTRY (R78). -/
  | freeEntry
  /-- ANCHOR_CHANGE (R72). -/
  | anchorChange
  /-- FRAME_START (R57). -/
  | frameStart
  /-- BEACNT_CLEAR (R94). -/
  | beacntClear
  /-- COMPOSE_END (R385). -/
  | composeEnd
  /-- OBJECT_EVALUATE (R127). -/
  | objectEvaluate
  /-- RESCAN_DONE (R131). -/
  | rescanDone
  /-- PATTERN_CACHE_INVALIDATE (R136). -/
  | patternCacheInvalidate
  /-- PATTERN_CACHE_CNTCLR (R141). -/
  | patternCacheCntclr
  /-- CM_ARRIVAL (R179). -/
  | cmArrival
  /-- CMCNT_CLEAR (R197). -/
  | cmcntClear
  /-- EGRESS_LIBRARY_VERIFY (R172). -/
  | egressLibraryVerify
  /-- WALK_DONE (R212). -/
  | walkDone
  /-- TRESTLE_CNTCLR (R221). -/
  | trestleCntclr
  /-- PG_CNTCLR (R258). -/
  | pgCntclr
  /-- CAL_CNTCLR (R260). -/
  | calCntclr
  /-- TARB_EXPIRY (R253). -/
  | tarbExpiry
  /-- FEED_CNTCLR (R279). -/
  | feedCntclr
  /-- COPY_ROW_RELEASE (R291). -/
  | copyRowRelease
  /-- COPY_SEGMENT (R286). -/
  | copySegment
  /-- COPY_ROW_DONE (R290). -/
  | copyRowDone
  /-- COPY_CNTCLR (R296). -/
  | copyCntclr
  /-- HIC_CNTCLR (R366). -/
  | hicCntclr
  /-- DMA_BURST (R372). -/
  | dmaBurst
  /-- HOUSE_SCRUB_READ (R391). -/
  | houseScrubRead
  /-- DRAM_SCRUB_READ (R392). -/
  | dramScrubRead
  /-- MRAM_SCRUB_READ (R392). -/
  | mramScrubRead
  /-- MEMINIT_DONE (R388). -/
  | meminitDone
  /-- MEM_CNTCLR (R397). -/
  | memCntclr
  /-- ECC_CNTCLR (R398). -/
  | eccCntclr
  /-- GEOMETRY_ITEM (R414). -/
  | geometryItem
  /-- GEOMETRY_ACTIVATE (R414). -/
  | geometryActivate
  /-- GEOMETRY_ACTIVATION_DONE (R415). -/
  | geometryActivationDone
  /-- ROUTE_PLAN_ITEM (R420). -/
  | routePlanItem
  /-- WEAVE_CNTCLR (R436). -/
  | weaveCntclr
  /-- DRAWER_ITEM (R426). -/
  | drawerItem
  /-- HEARTBEAT_SEND (R449). -/
  | heartbeatSend
  /-- HEARTBEAT_RECEIVE (R449). -/
  | heartbeatReceive
  /-- HEARTBEAT_MISS (R450). -/
  | heartbeatMiss
  /-- LINE_SIGNATURE_RECEIVE (R453). -/
  | lineSignatureReceive
  /-- SIGNATURE_EXPIRY (R453). -/
  | signatureExpiry
  /-- SELF_CHECK_RESULT (R454). -/
  | selfCheckResult
  /-- SELF_CHECK_TIMEOUT (R454). -/
  | selfCheckTimeout
  /-- BRIDGE_OUTAGE_TIMEOUT (R455). -/
  | bridgeOutageTimeout
  /-- TAKE_REQUEST (R459). -/
  | takeRequest
  /-- PATCH_REQUEST (R461). -/
  | patchRequest
  /-- PATCH_DATA (R462). -/
  | patchData
  /-- TWIN_CNTCLR (R464). -/
  | twinCntclr
  /-- AUDIO_SAMPLE (R470). -/
  | audioSample
  /-- D48_SAMPLE (R479). -/
  | d48Sample
  /-- AUDIO_EVENT_DUE (R477). -/
  | audioEventDue
  /-- AUDIO_CNTCLR (R488). -/
  | audioCntclr
  /-- FIRMWARE_ANSWER_TIMEOUT (R501). -/
  | firmwareAnswerTimeout
  /-- DRESSER_CNTCLR (R516). -/
  | dresserCntclr
  /-- TRANSFER_TIMEOUT (R512). -/
  | transferTimeout
  /-- FABRIC_REQUEST (R513). -/
  | fabricRequest
  /-- NONCE_EXPIRY (R529). -/
  | nonceExpiry
  /-- LEASE_EXPIRY (R531). -/
  | leaseExpiry
  /-- IDCODE (R528). -/
  | idcode
  /-- CLAMP (R533). -/
  | clamp
  /-- HIGHZ (R533). -/
  | highz
  /-- SCANTEST (R528). -/
  | scantest
  /-- POWER_TRANSITION_DONE (R535). -/
  | powerTransitionDone
  /-- ISLAND_TIMER_EXPIRY (R538). -/
  | islandTimerExpiry
  /-- PAD_CNTCLR (R567). -/
  | padCntclr
  /-- RESET_PIN (R557). -/
  | resetPin
  /-- CONVERTER_START (R563). -/
  | converterStart
  /-- SOFT_START_DONE (R590). -/
  | softStartDone
  /-- INPUT_SHUTDOWN (R562). -/
  | inputShutdown
  /-- TOKEN_REFILL (R579). -/
  | tokenRefill
  /-- CONTROL_SLOT_WRITE (R573). -/
  | controlSlotWrite
  /-- RECORDER_CNTCLR (R588). -/
  | recorderCntclr
  /-- BOOT_COMPLETE (R592). -/
  | bootComplete
  /-- ISLAND_POWER_LOSS (R527). -/
  | islandPowerLoss
  /-- UART_BYTE_TRANSMITTED (R550). -/
  | uartByteTransmitted
deriving DecidableEq, Repr

end Sys2Proof
end

