-- ==== Sys2Proof/WellFormed.lean ====
section
/-! DEFINITION. Which commands are well formed: packets, posted writes, service frames and opcodes keep the bounds that the spec
gives them. A command's meaning does not need its well-formedness; an ill-formed one is no event that the part can see. -/

namespace Sys2Proof

/-- A packet's LEN is the length of its payload, at most 2,048 bytes (R404). -/
def Packet.wf (p : Packet) : Bool := p.payload.length = p.len.toNat && p.len.toNat ≤ 2048

/-- A PW of DRAM carries 4 to 256 bytes (R38). -/
def dramLength (data : List Byte) : Bool := 4 ≤ data.length && data.length ≤ 256

/-- A service frame carries a CAN FD data length of at least 8 bytes (R510). -/
def serviceLength (data : List Byte) : Bool := [8, 12, 16, 20, 24, 32, 48, 64].contains data.length

/-- The primary opcodes of core instructions (R336 to R352). -/
def isOpcode (op : BitVec 8) : Bool :=
  op.toNat ≤ 0x07 || (0x10 ≤ op.toNat && op.toNat ≤ 0x19) || (0x20 ≤ op.toNat && op.toNat ≤ 0x2D) ||
    (0x40 ≤ op.toNat && op.toNat ≤ 0x4C) || (0x50 ≤ op.toNat && op.toNat ≤ 0x5A) || (0x60 ≤ op.toNat && op.toNat ≤ 0x66) ||
    (0x68 ≤ op.toNat && op.toNat ≤ 0x6C) || (0x70 ≤ op.toNat && op.toNat ≤ 0x73) || (0x78 ≤ op.toNat && op.toNat ≤ 0x7C) ||
    (0x80 ≤ op.toNat && op.toNat ≤ 0x85)

/-- Well-formed commands. -/
def Instr.wf : Instr → Bool
  | .registerWrite _ _ _ => true
  | .rsvwrClear => true
  | .powerOnReset => true
  | .houseDieReset => true
  | .scanDieReset => true
  | .frameStoreClearDone => true
  | .bridgeFlitReceive _ _ _ => true
  | .bridgeNakReceive _ _ => true
  | .bridgeAckReceive _ _ => true
  | .bridgeLinkFault _ => true
  | .bridgeRetrain _ _ => true
  | .bridgeCntclr => true
  | .bridgeTrainingDone _ _ _ => true
  | .pwApply _ => true
  | .rdRequest => true
  | .readTimeout _ => true
  | .framePulse _ => true
  | .lineClockEdge => true
  | .frameCountSet _ _ _ => true
  | .beaconSend _ => true
  | .beaconReceive _ => true
  | .holdoverEntry => true
  | .freeEntry => true
  | .anchorChange => true
  | .frameStart => true
  | .watermarkFire _ => true
  | .beamEnable _ _ => true
  | .reacq _ _ => true
  | .beacntClear => true
  | .beamFormatWrite _ _ _ => true
  | .beamposLoRead _ => true
  | .composeStart _ _ => true
  | .clusterLineCompose _ _ _ => true
  | .composeEnd => true
  | .lineFlip _ _ => true
  | .globalFlip _ => true
  | .feedFlip _ _ => true
  | .dramWriteApply _ _ data => dramLength data
  | .objectEvaluate => true
  | .objectTableWrite _ _ _ => true
  | .rescanDone => true
  | .patternCacheInvalidate => true
  | .patternCacheCntclr => true
  | .cmgo _ _ => true
  | .cmArrival => true
  | .admission _ => true
  | .commitDeadline _ => true
  | .commitAccept _ => true
  | .fenceqRead _ => true
  | .cmcntClear => true
  | .egressSample _ => true
  | .egressCommand _ _ _ => true
  | .egressLibraryWrite _ _ _ => true
  | .egressLibraryVerify => true
  | .egctlLock _ _ => true
  | .trestleWalk _ _ => true
  | .walkDone => true
  | .trestleCntclr => true
  | .refreshCycleStart _ _ => true
  | .rowSlotStart _ => true
  | .planeSlotStart _ => true
  | .runStart _ _ _ => true
  | .runStop _ _ _ => true
  | .pgCntclr => true
  | .calCntclr => true
  | .claim _ _ => true
  | .ownBChange _ => true
  | .tarbExpiry => true
  | .feedCntclr => true
  | .copyGo _ _ => true
  | .copyRowRelease => true
  | .copySegment => true
  | .copyRowDone => true
  | .copyAbort _ _ => true
  | .copyCntclr => true
  | .nop _ => true
  | .wait _ => true
  | .waitWake _ => true
  | .sync _ => true
  | .syncDone _ => true
  | .trap _ _ => true
  | .reti _ => true
  | .mfc _ _ _ => true
  | .mtc _ _ _ => true
  | .rep _ _ => true
  | .mov _ _ _ => true
  | .movr _ _ _ => true
  | .ldi _ _ _ => true
  | .ldc _ _ _ _ => true
  | .retag _ _ _ _ => true
  | .gettag _ _ _ => true
  | .mfrc _ _ => true
  | .mtrc _ _ => true
  | .mfbk _ _ _ => true
  | .mtbk _ _ _ => true
  | .ld _ _ _ _ => true
  | .st _ _ _ _ => true
  | .ldr _ _ _ _ => true
  | .str _ _ _ _ => true
  | .ldx _ _ _ _ _ => true
  | .stx _ _ _ _ _ => true
  | .ldrx _ _ _ _ _ => true
  | .strx _ _ _ _ _ => true
  | .lea _ _ _ _ _ => true
  | .xchg _ _ _ _ _ => true
  | .cas _ _ _ _ => true
  | .movm _ _ _ => true
  | .push _ _ => true
  | .pop _ _ => true
  | .loadReturn _ => true
  | .add _ _ _ _ => true
  | .sub _ _ _ _ => true
  | .and _ _ _ _ => true
  | .or _ _ _ _ => true
  | .xor _ _ _ _ => true
  | .shl _ _ _ _ => true
  | .shr _ _ _ _ => true
  | .sar _ _ _ _ => true
  | .mul _ _ _ _ => true
  | .divs _ _ _ _ => true
  | .divu _ _ _ _ => true
  | .cmp _ _ _ => true
  | .neg _ _ _ => true
  | .addi _ _ _ _ => true
  | .andi _ _ _ _ => true
  | .ori _ _ _ _ => true
  | .xori _ _ _ _ => true
  | .shli _ _ _ _ => true
  | .shri _ _ _ _ => true
  | .sari _ _ _ _ => true
  | .cmpi _ _ _ => true
  | .adda _ _ _ _ => true
  | .suba _ _ _ _ => true
  | .cmpeq _ _ _ => true
  | .fadd _ _ _ _ => true
  | .fsub _ _ _ _ => true
  | .fmul _ _ _ _ => true
  | .fdiv _ _ _ _ => true
  | .fcmp _ _ _ => true
  | .itof _ _ _ => true
  | .ftoi _ _ _ => true
  | .padd _ _ _ _ => true
  | .pmul _ _ _ _ => true
  | .pover _ _ _ _ => true
  | .pext _ _ _ _ => true
  | .pins _ _ _ _ _ => true
  | .bcmp _ _ _ => true
  | .bdiff _ _ _ _ => true
  | .badd _ _ _ _ => true
  | .bnow _ _ => true
  | .mac _ _ _ _ => true
  | .fmac _ _ _ _ => true
  | .mtq _ _ _ => true
  | .mfq _ _ _ _ _ => true
  | .clrq _ _ => true
  | .br _ _ _ => true
  | .jmp _ _ => true
  | .jmpr _ _ => true
  | .call _ _ _ => true
  | .callr _ _ _ => true
  | .ret _ => true
  | .trclr _ => true
  | .trput _ _ => true
  | .trget _ _ _ _ _ _ => true
  | .trwalk _ _ => true
  | .undefinedOpcode _ op => !isOpcode op
  | .interruptEntry _ => true
  | .coreReset _ _ _ => true
  | .coreRun _ _ _ _ => true
  | .hicSourceEdge _ => true
  | .coalesceTimeout _ => true
  | .hicForce _ _ _ => true
  | .hicCntclr => true
  | .wakeLatch _ => true
  | .timerEnable _ _ _ => true
  | .timerExpiry _ => true
  | .dmaStart _ _ _ => true
  | .dmaBurst => true
  | .dmaComplete _ => true
  | .dmaAbort _ _ _ => true
  | .houseScrubRead => true
  | .dramScrubRead => true
  | .mramScrubRead => true
  | .meminit _ _ => true
  | .meminitDone => true
  | .wmapSet _ _ _ => true
  | .memCntclr => true
  | .eccCntclr => true
  | .linkSignalDetect _ => true
  | .linkTrainingDone _ _ => true
  | .linkTrainingRetry _ => true
  | .linkDelayMeasured _ _ => true
  | .helloSend _ => true
  | .helloReceive _ _ => true
  | .helloTimeout _ => true
  | .linkFrameReceive _ _ _ _ packet => packet.wf
  | .linkNakReceive _ _ => true
  | .portRetrain _ _ => true
  | .portRetrainCmd _ _ _ => true
  | .portRetrainDone _ _ => true
  | .packetReceive _ => true
  | .linkholdExpiry _ => true
  | .vidloadMeasure _ _ => true
  | .positionWrite _ _ => true
  | .geometryItem => true
  | .geometryActivate => true
  | .geometryActivationDone => true
  | .routePlanItem => true
  | .routeEntryWrite _ _ => true
  | .weaveCntclr => true
  | .drawerItem => true
  | .gapTimeout _ => true
  | .drawerEnable _ _ => true
  | .drawerDisable _ _ => true
  | .drawerHeadWrite _ _ => true
  | .outItemSend _ => true
  | .sliceDecode _ => true
  | .heartbeatSend => true
  | .heartbeatReceive => true
  | .heartbeatMiss => true
  | .lineSignatureReceive => true
  | .signatureExpiry => true
  | .selfCheckDone _ => true
  | .selfCheckResult => true
  | .selfCheckTimeout => true
  | .bridgeOutageTimeout => true
  | .take _ _ => true
  | .yield _ _ => true
  | .takeRequest => true
  | .patchRequest => true
  | .patchData => true
  | .patchTimeout _ => true
  | .twinCntclr => true
  | .audioSample => true
  | .voiceFetch _ _ => true
  | .d48Sample => true
  | .codecFrame _ _ _ => true
  | .audioEventPush _ _ => true
  | .audioEventDue => true
  | .voiceStart _ _ _ => true
  | .voiceStop _ _ _ => true
  | .streamSizeWrite _ _ _ => true
  | .audioCntclr => true
  | .dictionaryRead _ _ _ _ => true
  | .dictionaryWrite _ _ _ _ _ => true
  | .describe _ _ _ _ => true
  | .firmwareAnswer _ _ => true
  | .firmwareAnswerTimeout => true
  | .houseRequestGo _ _ => true
  | .dresserCntclr => true
  | .storeVoid _ _ => true
  | .resultTrigger _ _ _ _ => true
  | .resultReady _ => true
  | .resultTake _ _ _ => true
  | .serviceRequest _ data => serviceLength data
  | .segment _ data => serviceLength data
  | .serviceAck _ data => serviceLength data
  | .serviceAbort _ data => serviceLength data
  | .transferTimeout => true
  | .busOff _ => true
  | .fabricRequest => true
  | .stagingTimeout _ => true
  | .dresserCommit _ _ _ => true
  | .keyAgreement _ _ _ => true
  | .contentKeyWrite _ _ _ _ => true
  | .sealKeyWrite _ _ _ => true
  | .alarm _ => true
  | .guardClear _ _ => true
  | .sealClear _ _ => true
  | .alarmConfigLock _ _ => true
  | .nonceRead _ _ => true
  | .nonceExpiry => true
  | .unlockToken _ _ _ => true
  | .debugClose _ _ => true
  | .leaseExpiry => true
  | .bypass _ => true
  | .idcode => true
  | .samplePreload _ => true
  | .bchreq _ _ _ _ => true
  | .extest _ => true
  | .clamp => true
  | .highz => true
  | .inject packet => packet.wf
  | .memap _ _ _ _ _ => true
  | .coredbg _ _ => true
  | .scantest => true
  | .powerRequest _ _ => true
  | .powerTransitionDone => true
  | .wake _ => true
  | .islandTimerExpiry => true
  | .padLockKey _ _ => true
  | .padLock _ _ _ => true
  | .holdRelease _ _ => true
  | .padCntclr => true
  | .adcConvert _ _ => true
  | .adcDone _ => true
  | .bankVioWrite _ _ _ => true
  | .uartReceive _ => true
  | .uartRead _ => true
  | .uartTransmit _ _ => true
  | .resetPin => true
  | .vinRise _ => true
  | .converterStart => true
  | .softStartDone => true
  | .inputLossWarning _ => true
  | .inputRecovery _ => true
  | .inputShutdown => true
  | .thermalThreshold _ _ => true
  | .recordWrite _ => true
  | .tokenRefill => true
  | .controlSlotWrite => true
  | .recordSelect _ _ => true
  | .recordNext _ _ => true
  | .rectotlRead _ => true
  | .recorderClear _ _ _ => true
  | .recordPut _ _ => true
  | .recorderCntclr => true
  | .calendarSet _ _ _ => true
  | .perfClear _ _ _ => true
  | .perfLoRead _ _ => true
  | .bootComplete => true
  | .imageWrite _ _ _ => true
  | .houseResetRequest _ _ => true
  | .alarmSourceInactive _ => true
  | .islandPowerLoss => true
  | .bankRailSlewEnd _ => true
  | .padFunctionHoldEnd _ => true
  | .uartByteTransmitted => true

end Sys2Proof
end

