-- ==== Sys2Proof/Decode.lean ====
section
/-! DEFINITION. The command that a word of the opcode table spells, of which there is none, since the part is driven by commands and
the table gives no row any bits; and the command of a core that an instruction word in its memory spells (R332, R333, R335,
R336, R352). -/

namespace Sys2Proof

/-- The command that `nbits` bits `w` spell: the table gives no row bits, so none. -/
def decodeTableWord (_nbits _w : Nat) : Option Instr := none

/-- The row of R336 that a primary opcode names, with its fields taken from an instruction word as its form places them (R333,
R335, R352); `ext` is bits [31:0] of the word after it, which the forms with an extension use. An opcode that no row lists is
undefined. REP carries the opcode of the instruction that it prefixes, which is in that next word. -/
def decodeCore (core : Fin 4) (w : BitVec 36) (ext : BitVec 36) : Instr :=
  match (w.extractLsb' 28 8).toNat with
  | 0x00 => .nop core
  | 0x01 => .wait core
  | 0x02 => .sync core
  | 0x03 => .trap core (w.extractLsb' 0 4)
  | 0x04 => .reti core
  | 0x05 => .mfc core (w.extractLsb' 24 4) (w.extractLsb' 16 4)
  | 0x06 => .mtc core (w.extractLsb' 20 4) (w.extractLsb' 16 4)
  | 0x07 => .rep core (ext.extractLsb' 28 8)
  | 0x10 => .mov core (w.extractLsb' 24 4) (w.extractLsb' 20 4)
  | 0x11 => .movr core (w.extractLsb' 24 4) (w.extractLsb' 20 4)
  | 0x12 => .ldi core (w.extractLsb' 24 4) (w.extractLsb' 0 20)
  | 0x13 => .ldc core (w.extractLsb' 24 4) (w.extractLsb' 16 4) (ext.extractLsb' 0 32)
  | 0x14 => .retag core (w.extractLsb' 24 4) (w.extractLsb' 20 4) (w.extractLsb' 16 4)
  | 0x15 => .gettag core (w.extractLsb' 24 4) (w.extractLsb' 20 4)
  | 0x16 => .mfrc core (w.extractLsb' 24 4)
  | 0x17 => .mtrc core (w.extractLsb' 20 4)
  | 0x18 => .mfbk core (w.extractLsb' 24 4) (w.extractLsb' 16 2)
  | 0x19 => .mtbk core (w.extractLsb' 20 4) (w.extractLsb' 16 2)
  | 0x20 => .ld core (w.extractLsb' 24 4) (w.extractLsb' 22 2) (w.extractLsb' 0 16)
  | 0x21 => .st core (w.extractLsb' 24 4) (w.extractLsb' 22 2) (w.extractLsb' 0 16)
  | 0x22 => .ldr core (w.extractLsb' 24 4) (w.extractLsb' 22 2) (w.extractLsb' 0 16)
  | 0x23 => .str core (w.extractLsb' 24 4) (w.extractLsb' 22 2) (w.extractLsb' 0 16)
  | 0x24 => .ldx core (w.extractLsb' 24 4) (w.extractLsb' 20 4) (w.extractLsb' 18 2) (w.extractLsb' 0 18)
  | 0x25 => .stx core (w.extractLsb' 24 4) (w.extractLsb' 20 4) (w.extractLsb' 18 2) (w.extractLsb' 0 18)
  | 0x26 => .ldrx core (w.extractLsb' 24 4) (w.extractLsb' 20 4) (w.extractLsb' 18 2) (w.extractLsb' 0 18)
  | 0x27 => .strx core (w.extractLsb' 24 4) (w.extractLsb' 20 4) (w.extractLsb' 18 2) (w.extractLsb' 0 18)
  | 0x28 => .lea core (w.extractLsb' 24 4) (w.extractLsb' 20 4) (w.extractLsb' 18 2) (w.extractLsb' 0 18)
  | 0x29 => .xchg core (w.extractLsb' 24 4) (w.extractLsb' 20 4) (w.extractLsb' 18 2) (w.extractLsb' 0 18)
  | 0x2A => .cas core (w.extractLsb' 24 4) (w.extractLsb' 20 4) (w.extractLsb' 16 4)
  | 0x2B => .movm core (w.extractLsb' 24 4) (w.extractLsb' 20 4)
  | 0x2C => .push core (w.extractLsb' 20 4)
  | 0x2D => .pop core (w.extractLsb' 24 4)
  | 0x40 => .add core (w.extractLsb' 24 4) (w.extractLsb' 20 4) (w.extractLsb' 16 4)
  | 0x41 => .sub core (w.extractLsb' 24 4) (w.extractLsb' 20 4) (w.extractLsb' 16 4)
  | 0x42 => .and core (w.extractLsb' 24 4) (w.extractLsb' 20 4) (w.extractLsb' 16 4)
  | 0x43 => .or core (w.extractLsb' 24 4) (w.extractLsb' 20 4) (w.extractLsb' 16 4)
  | 0x44 => .xor core (w.extractLsb' 24 4) (w.extractLsb' 20 4) (w.extractLsb' 16 4)
  | 0x45 => .shl core (w.extractLsb' 24 4) (w.extractLsb' 20 4) (w.extractLsb' 16 4)
  | 0x46 => .shr core (w.extractLsb' 24 4) (w.extractLsb' 20 4) (w.extractLsb' 16 4)
  | 0x47 => .sar core (w.extractLsb' 24 4) (w.extractLsb' 20 4) (w.extractLsb' 16 4)
  | 0x48 => .mul core (w.extractLsb' 24 4) (w.extractLsb' 20 4) (w.extractLsb' 16 4)
  | 0x49 => .divs core (w.extractLsb' 24 4) (w.extractLsb' 20 4) (w.extractLsb' 16 4)
  | 0x4A => .divu core (w.extractLsb' 24 4) (w.extractLsb' 20 4) (w.extractLsb' 16 4)
  | 0x4B => .cmp core (w.extractLsb' 20 4) (w.extractLsb' 16 4)
  | 0x4C => .neg core (w.extractLsb' 24 4) (w.extractLsb' 20 4)
  | 0x50 => .addi core (w.extractLsb' 24 4) (w.extractLsb' 20 4) (w.extractLsb' 0 20)
  | 0x51 => .andi core (w.extractLsb' 24 4) (w.extractLsb' 20 4) (w.extractLsb' 0 20)
  | 0x52 => .ori core (w.extractLsb' 24 4) (w.extractLsb' 20 4) (w.extractLsb' 0 20)
  | 0x53 => .xori core (w.extractLsb' 24 4) (w.extractLsb' 20 4) (w.extractLsb' 0 20)
  | 0x54 => .shli core (w.extractLsb' 24 4) (w.extractLsb' 20 4) (w.extractLsb' 0 20)
  | 0x55 => .shri core (w.extractLsb' 24 4) (w.extractLsb' 20 4) (w.extractLsb' 0 20)
  | 0x56 => .sari core (w.extractLsb' 24 4) (w.extractLsb' 20 4) (w.extractLsb' 0 20)
  | 0x57 => .cmpi core (w.extractLsb' 20 4) (w.extractLsb' 0 20)
  | 0x58 => .adda core (w.extractLsb' 24 4) (w.extractLsb' 20 4) (w.extractLsb' 16 4)
  | 0x59 => .suba core (w.extractLsb' 24 4) (w.extractLsb' 20 4) (w.extractLsb' 16 4)
  | 0x5A => .cmpeq core (w.extractLsb' 20 4) (w.extractLsb' 16 4)
  | 0x60 => .fadd core (w.extractLsb' 24 4) (w.extractLsb' 20 4) (w.extractLsb' 16 4)
  | 0x61 => .fsub core (w.extractLsb' 24 4) (w.extractLsb' 20 4) (w.extractLsb' 16 4)
  | 0x62 => .fmul core (w.extractLsb' 24 4) (w.extractLsb' 20 4) (w.extractLsb' 16 4)
  | 0x63 => .fdiv core (w.extractLsb' 24 4) (w.extractLsb' 20 4) (w.extractLsb' 16 4)
  | 0x64 => .fcmp core (w.extractLsb' 20 4) (w.extractLsb' 16 4)
  | 0x65 => .itof core (w.extractLsb' 24 4) (w.extractLsb' 20 4)
  | 0x66 => .ftoi core (w.extractLsb' 24 4) (w.extractLsb' 20 4)
  | 0x68 => .padd core (w.extractLsb' 24 4) (w.extractLsb' 20 4) (w.extractLsb' 16 4)
  | 0x69 => .pmul core (w.extractLsb' 24 4) (w.extractLsb' 20 4) (w.extractLsb' 16 4)
  | 0x6A => .pover core (w.extractLsb' 24 4) (w.extractLsb' 20 4) (w.extractLsb' 16 4)
  | 0x6B => .pext core (w.extractLsb' 24 4) (w.extractLsb' 20 4) (w.extractLsb' 0 2)
  | 0x6C => .pins core (w.extractLsb' 24 4) (w.extractLsb' 20 4) (w.extractLsb' 16 4) (w.extractLsb' 0 2)
  | 0x70 => .bcmp core (w.extractLsb' 20 4) (w.extractLsb' 16 4)
  | 0x71 => .bdiff core (w.extractLsb' 24 4) (w.extractLsb' 20 4) (w.extractLsb' 16 4)
  | 0x72 => .badd core (w.extractLsb' 24 4) (w.extractLsb' 20 4) (w.extractLsb' 16 4)
  | 0x73 => .bnow core (w.extractLsb' 24 4)
  | 0x78 => .mac core (w.extractLsb' 20 4) (w.extractLsb' 16 4) (w.getLsbD 0)
  | 0x79 => .fmac core (w.extractLsb' 20 4) (w.extractLsb' 16 4) (w.getLsbD 0)
  | 0x7A => .mtq core (w.extractLsb' 20 4) (w.getLsbD 0)
  | 0x7B => .mfq core (w.extractLsb' 24 4) (w.getLsbD 0) (w.extractLsb' 1 5) (w.getLsbD 6)
  | 0x7C => .clrq core (w.getLsbD 0)
  | 0x80 => .br core (w.extractLsb' 24 4) (w.extractLsb' 0 24)
  | 0x81 => .jmp core (ext.extractLsb' 0 32)
  | 0x82 => .jmpr core (w.extractLsb' 20 4)
  | 0x83 => .call core (w.extractLsb' 0 16) (ext.extractLsb' 0 32)
  | 0x84 => .callr core (w.extractLsb' 24 4) (w.extractLsb' 0 16)
  | 0x85 => .ret core
  | 0xE0 => .trclr core
  | 0xE1 => .trput core (w.extractLsb' 20 4)
  | 0xE2 => .trget core (w.extractLsb' 24 4) (w.extractLsb' 20 4) (w.extractLsb' 0 3) (w.extractLsb' 3 4) (w.extractLsb' 7 2)
  | 0xE3 => .trwalk core (w.extractLsb' 24 4)
  | _ => .undefinedOpcode core (w.extractLsb' 28 8)

/-- The words that an instruction occupies: two where its form carries an extension, and with REP the prefix and the instruction
(R332, R333). -/
def coreWords (w : BitVec 36) : Nat :=
  match (w.extractLsb' 28 8).toNat with
  | 0x07 | 0x13 | 0x81 | 0x83 => 2
  | _ => 1

end Sys2Proof
end

