-- ==== Sys2Proof/Config.lean ====
section
/-! DEFINITION. The free values: what the spec leaves open. Each is opaque, so nothing can be proved of its value. -/

namespace Sys2Proof.Config

/-- The byte a never-written DRAM unit holds, where its check bits happen to agree (R390). -/
opaque dramFill : Nat → BitVec 8

/-- Whether a never-written DRAM unit reads as uncorrectable (R390: almost always). -/
opaque dramUnwrittenFails : Nat → Bool

/-- The input transfer functions of R153 (1 sRGB, 2 PQ, 3 HLG) for one channel (0 R, 1 G, 2 B) of a pixel whose code values
are scaled to 65,535, given SDRWHITE, PEAKNITS, SYSGAMMA and the primaries; in linear light scaled to 65,535. The spec bounds
the error and does not give the bits (R154): the model holds the value within that bound where the function is defined. -/
opaque transfer : (kind channel : Nat) → (rgb : Int × Int × Int) → (whitePeakGamma : Nat × Nat × Nat) → (prim : Bool) → Int

/-- Whether an inexact colour conversion is rounded up: the spec gives the conversions of R153 and no rounding for them. -/
opaque roundUp : (num : Int) → (den : Nat) → Bool

/-- Byte offset of a protected unit of scan-die SRAM within its macro: the spec numbers the macros and does not lay them out
(R393, R398). For the frame store, modulo 4, also which of the region's four macros holds it. -/
opaque scanPlace : (macroNo key : Nat) → Nat

/-- What a requester is delivered for a byte address that DRAM does not open to it, 0xF800_0000 and above: the spec says that it
cannot be read, and no value (R102). -/
opaque closedByte : Nat → BitVec 8

/-- The macro number that SC_UESRC names for the trestle's line tables, which R393 does not number. -/
opaque tableMacro : BitVec 8

/-- The calibration record used for a module column whose line buffer word is itself uncorrectable. -/
opaque lostRecord : (column : Nat) → BitVec 112

/-- A share of a beam slew: whether the counter takes one step of correction now (R75 bounds the rate only). -/
opaque slewNow : Nat → Bool

/-- The 6-bit code of a bridge flit, by its number and the number its sender expects of the other direction (R37: the spec
gives its width and not its values). -/
opaque linkCode : (seq expect : BitVec 10) → BitVec 6

/-- The CRC of a bridge flit, by its number and the bytes its pieces take (R37: the spec gives neither the polynomial nor the
form of a message in a flit). -/
opaque linkCrc : (seq : BitVec 10) → (sizes : List Nat) → BitVec 16

/-- Bytes that a message takes in a flit beside its data, less one, by its class (0 PW, 1 CM, 2 RD): the spec gives no
layout. -/
opaque messageHeader : Nat → Nat

/-- Receive buffers of a class in a direction (0 to the scan die, 1 to the house die), less one (R39 gives no number). -/
opaque bridgeBuffers : (direction cls : Nat) → Nat

/-- Receive buffers of a virtual channel at the far end of a link, less one, by port and channel (R407 gives no number). -/
opaque linkBuffers : (port vc : Nat) → Nat

/-- The payload of the report that names a reset of the house die and its cause (R442 gives no layout). -/
opaque resetReport : (reset cause : Nat) → List (BitVec 8)

/-- Words of the boot ROM (R309): the spec names its uses and not its contents. -/
opaque bootRom : Nat → BitVec 36

/-- The word that a never-written house SRAM word holds in a marked page (R390), by memory and address. -/
opaque sramFill : Nat → BitVec 36

/-- How its check bits judge it (R390): 0 good, 1 one bit wrong, otherwise uncorrectable. -/
opaque sramFate : Nat → Nat

/-- The row of an SRAM macro that holds a word (R396), by macro and word offset. -/
opaque sramRow : (macroNo offset : Nat) → Nat

/-- Bytes of the MRAM areas whose layout the spec leaves open (control slots, island block, dictionary store), as found by
the n-th read. -/
opaque mramByte : (n addr : Nat) → BitVec 8

/-- The factory serial number (R517). -/
opaque serialNumber : BitVec 64

/-- What a DSC 1.2a decoder makes of a slice under a picture parameter set (R432): components Y, Cb, Cr of a pixel. -/
opaque dscDecode : (pps slice : List (BitVec 8)) → (x y : Nat) → Nat × Nat × Nat

/-- A coefficient of the D48-to-D96 converter, in 1/2²³, by its distance in D96 samples from the middle (R469: the spec gives the
passband that they make and the delay, not the coefficients). -/
opaque converterTap : (distance : Nat) → Int

/-- The converter's delay beyond 24 D96 samples where it tracks a codec's LRCK: 0 to 2 (R469). -/
opaque converterLag : Nat

/-- The fuse root: 256 bits of the one-time fuses (R518). -/
opaque fuseRoot : BitVec 256

/-- Salt and info with which the key-agreement key is derived from the fuse root (R519: the spec gives neither). -/
opaque agreementSalt : List (BitVec 8)
opaque agreementInfo : List (BitVec 8)

/-- Bytes of the hutch's random bit generator (R529), by draw and index. -/
opaque randomByte : (n i : Nat) → BitVec 8

/-- The firmware verification key hash of the fuses (R518). -/
opaque firmwareHash : List (BitVec 8)

/-- The factory debug key hash of the fuses (R518). -/
opaque factoryHash : List (BitVec 8)

/-- Rows and columns of an SRAM macro (R395): the spec gives the spares and not the sizes. -/
opaque macroSize : (macroNo kind : Nat) → Nat

/-- Spares of a macro that the factory fuse map has used, and whether it has replaced a row or column (R393). -/
opaque fusedSpares : (macroNo kind : Nat) → Nat

/-- Whether the factory fuse map has replaced a row or column of a macro (R393). -/
opaque fusedIndex : (macroNo kind index : Nat) → Bool

/-- A level at a land that the spec does not give, by place and draw: a pad's input below 512, the boundary cell of a pad from 512,
a peripheral's output within its slot from 1,024. -/
opaque padLevel : (pad n : Nat) → Bool

/-- The bytes of a scan-die state image as it stands in DRAM (R537: its layout is not given), by save and index. -/
opaque imageByte : (n i : Nat) → BitVec 8

/-- Where a record slot of a persistent entry lies in the dictionary store, in 32-byte blocks (R504 gives the store and no layout). -/
opaque storePlace : (index sub : Nat) → (second : Bool) → Nat

/-- Whether the n-th store of a persistent value fails (R504). -/
opaque storeFails : Nat → Bool

/-- What a byte of a blank fuse entry reads as. -/
opaque blankFuse : Nat → BitVec 8

/-- A number drawn from nothing the spec states, by its count. -/
opaque freeNat : Nat → Nat

end Sys2Proof.Config
end

