-- ==== Sys2Proof/Machine/Bits.lean ====
section
/-! DEFINITION. Bit fields, saturating counts, signed readings and byte order. -/

namespace Sys2Proof.Machine

/-- The ones of bits `hi` to `lo`. -/
def fieldMask (hi lo : Nat) : Word := (BitVec.ofNat 32 (2 ^ (hi + 1 - lo) - 1)) <<< lo

/-- Field `[hi:lo]` of a register word. -/
def bitsOf (w : Word) (hi lo : Nat) : Nat := ((w &&& fieldMask hi lo) >>> lo).toNat

/-- A register word with field `[hi:lo]` replaced; a value wider than the field loses its upper bits. -/
def putBits (w : Word) (hi lo v : Nat) : Word :=
  (w &&& ~~~ fieldMask hi lo) ||| ((BitVec.ofNat 32 v <<< lo) &&& fieldMask hi lo)

/-- `n + d`, held at `2 ^ width - 1`. -/
def satAdd (width n d : Nat) : Nat := min (n + d) (2 ^ width - 1)

/-- Bits `[hi:lo]` of a natural number. -/
def natBits (n hi lo : Nat) : Nat := (n >>> lo) % 2 ^ (hi + 1 - lo)

/-- The two's complement reading of the low `width` bits of `n`. -/
def signedOf (width n : Nat) : Int :=
  if n % 2 ^ width < 2 ^ (width - 1) then (n % 2 ^ width : Nat) else (n % 2 ^ width : Nat) - (2 ^ width : Nat)

/-- The low `width` bits of the two's complement form of `i`. -/
def unsignedOf (width : Nat) (i : Int) : Nat := (i % (2 ^ width : Nat)).toNat

/-- `i` held within `lo` to `hi`. -/
def clampInt (lo hi i : Int) : Int := max lo (min hi i)

/-- Division rounded up. -/
def ceilDiv (a b : Nat) : Nat := (a + b - 1) / b

/-- The nearest integer to `n / d`, ties upward, for `d > 0` (R152, R155, R159). -/
def roundDiv (n : Int) (d : Nat) : Int := (2 * n + d) / (2 * d : Nat)

/-- A natural number as `len` bytes, least significant first. -/
def leBytes (len n : Nat) : List Byte := (List.range len).map fun i => BitVec.ofNat 8 (n >>> (8 * i))

/-- The number that bytes spell, least significant first. -/
def leNat : List Byte → Nat
  | [] => 0
  | b :: bs => b.toNat + 256 * leNat bs

/-- The number that bytes spell, most significant first. -/
def beNat (bs : List Byte) : Nat := leNat bs.reverse

/-- The natural number in bytes `off` to `off + len - 1` of a byte string, least significant first; bytes past its end
read 0. -/
def leAt (bs : List Byte) (off len : Nat) : Nat := leNat ((bs.drop off).take len)

/-- Bit `i` of a natural number. -/
def bitAt (n i : Nat) : Bool := n.testBit i

/-- One for true, zero for false. -/
def b2n (b : Bool) : Nat := if b then 1 else 0

/-- One step of the reflected CRC-32 register on one bit. -/
def crc32Bit (c : BitVec 32) : BitVec 32 :=
  if c.getLsbD 0 then (c >>> 1) ^^^ 0xEDB88320#32 else c >>> 1

/-- CRC-32 register after one byte. -/
def crc32Byte (c : BitVec 32) (b : Byte) : BitVec 32 :=
  crc32Bit (crc32Bit (crc32Bit (crc32Bit (crc32Bit (crc32Bit (crc32Bit (crc32Bit (c ^^^ b.setWidth 32))))))))

/-- CRC-32 with the IEEE 802.3 polynomial (R67). -/
def crc32 (bs : List Byte) : BitVec 32 := ~~~ (bs.foldl crc32Byte 0xFFFFFFFF#32)

end Sys2Proof.Machine
end

