-- ==== Sys2Proof/Machine/SMap.lean ====
section
/-! DEFINITION. Sparse stores: lists of (key, value) pairs in one canonical form, keys strictly rising and no entry equal
to what an unlisted key reads as. Registers, memories and frame stores are held in this form. -/

namespace Sys2Proof.Machine

/-- A sparse store. -/
abbrev SMap (α : Type) := List (Nat × α)

/-- The entry listed at a key. -/
def sfind {α : Type} : SMap α → Nat → Option α
  | [], _ => none
  | (k, v) :: m, a => if a = k then some v else sfind m a

/-- The value at a key, `d` where none is listed. -/
def sget {α : Type} (m : SMap α) (d : α) (a : Nat) : α := (sfind m a).getD d

/-- The store without a key. -/
def serase {α : Type} (m : SMap α) (a : Nat) : SMap α := m.filter fun e => e.1 != a

/-- The store with a key listed at a value. -/
def sinsert {α : Type} (m : SMap α) (a : Nat) (x : α) : SMap α :=
  (m.filter fun e => e.1 < a) ++ (a, x) :: m.filter fun e => a < e.1

/-- Writes a value at a key whose unlisted value is `d`: writing `d` removes the entry. -/
def sput {α : Type} [DecidableEq α] (m : SMap α) (d : α) (a : Nat) (x : α) : SMap α :=
  if x = d then serase m a else sinsert m a x

/-- The canonical form: keys strictly rising, no entry equal to what its key reads as unlisted. -/
abbrev swf {α : Type} [DecidableEq α] (d : Nat → α) (m : SMap α) : Prop :=
  (m.Pairwise fun e f => e.1 < f.1) ∧ ∀ e ∈ m, e.2 ≠ d e.1

end Sys2Proof.Machine
end

