-- ==== Sys2Proof/Machine/RegSpec.lean ====
section
/-! DEFINITION. What a row of the register tables says: address, copies, presence, fields with access codes, reset values
and accepted values; and the name of the effect a write or a read of the register has beyond its fields. -/

namespace Sys2Proof.Machine

/-- A register field: the key of its register in the register file, and its bits. -/
structure Fld where
  addr : Nat
  hi : Nat
  lo : Nat
deriving DecidableEq, Repr

/-- The access codes of R12; bits that no field names are RSV. -/
inductive Access where
  | rw
  | ro
  | w1c
  | w1s
  | wo
  | rwl
deriving DecidableEq, Repr

/-- The values a field accepts; another value leaves the field unchanged and is counted (R14). -/
inductive Allow where
  | any
  | range (lo hi : Nat)
  | nonzero
  | audioSel
  | bondedPad
deriving DecidableEq, Repr

/-- One row of a field table. -/
structure FieldSpec where
  name : String
  hi : Nat
  lo : Nat
  access : Access
  reset : Nat
  allow : Allow
deriving DecidableEq, Repr

/-- When a register, or one register of an array, is present (R6). -/
inductive Presence where
  | always
  | audio
  | twin
  | port
  | stream
  | region
  | drivePort
  | cluster
  | rcop
  | pad
  | padWord
deriving DecidableEq, Repr

/-- Whether a register is kept once, once per reading core, or once per bridge source. -/
inductive Copies where
  | one
  | core
  | source
deriving DecidableEq, Repr

/-- Where a register's reset value comes from, beyond its fields' own. -/
inductive ResetKind where
  | fields
  | capability
  | identityMatrix
  | bilinearH
  | bilinearV
  | lutRamp
deriving DecidableEq, Repr

/-- The effect that a write, or a read, of a register has beyond its fields. -/
inductive Hook where
  | none
  | hsId
  | hsRsvwr
  | brCtl
  | coreCtl
  | coreStat
  | hicSrccfg
  | hicForce
  | hicPend
  | hicHeld
  | hicCore
  | hicCtl
  | dmaCtl
  | dmaStat
  | dmaRem
  | wvCtl
  | wvPos
  | wvRtdata
  | wvPortcfg
  | wvDrcmd
  | wvDrptr
  | wvDrstat
  | wvDrcnt
  | wvTwctl
  | wvTwstat
  | auCtl
  | auEvcmd
  | auStrs
  | auVctl
  | secAlmcfg
  | secCmd
  | recCtl
  | recCurl
  | recTotl
  | recPut
  | padSetup
  | padOther
  | padGpoe
  | padGpin
  | padLock
  | padCtl
  | padMuxen
  | padAsel
  | padBank
  | padUart
  | odCtl
  | odFwans
  | pwrCtl
  | pwrStat
  | islTmr
  | memCtl
  | memInit
  | perfSel
  | perfLo
  | beamCtl
  | beamFormat
  | beamPosLo
  | beamStat
  | leadStat
  | lda
  | sbCtl
  | sbStat
  | cmGo
  | cmEv
  | fenceQ
  | fenceMap
  | egCtl
  | objTable
  | palApplied
  | pcCtl
  | trCtl
  | cpyCtl
  | pgCtl
  | pgLocked
  | pgSlot
  | calCtl
  | ownCtl
  | dpCfg
  | lane
  | feedCtl
  | feedStat
  | feedCyc
  | eccCtl
  | cpyOperand
  | cpyStat
  | feedFlip
  | ldw
  | tmrCtl
  | cmCmd
  | coreCopy
deriving DecidableEq, Repr

/-- One row of the register tables: `dims` gives the counts and strides of an array. -/
structure RegSpec where
  name : String
  addr : Nat
  dims : List (Nat × Nat)
  presence : Presence
  copies : Copies
  resetKind : ResetKind
  hook : Hook
  fields : List FieldSpec
deriving DecidableEq, Repr

/-- Key of a core's own copy of a register. -/
def coreKey (core a : Nat) : Nat := a + 0x1000000 * (1 + core)

/-- Key of a bridge source's own copy of a register. -/
def sourceKey (src a : Nat) : Nat := a + 0x1000000 * (1 + src)

/-- The index of an address in an array with the given counts and strides, outermost first; none where it falls in no
register of the array. -/
def arrayIndex : List (Nat × Nat) → Nat → Option (List Nat)
  | [], off => if off = 0 then some [] else Option.none
  | (count, stride) :: ds, off =>
    if off < count * stride then (arrayIndex ds (off % stride)).map (off / stride :: ·) else Option.none

end Sys2Proof.Machine
end

