-- ==== Sys2Proof/Machine/Fields.lean ====
section
/-! DEFINITION. One name per register and per register field, as the spec names them: `<REGISTER>` is the house word
address (a function of the index for an array of registers) and `<REGISTER>_<FIELD>` the field in it. -/

namespace Sys2Proof.Machine

/-- Address of register HS_ID (R3). -/
abbrev HS_ID : Nat := 0x100000
/-- HS_ID.ID, bits [27:0] (R3). -/
def HS_ID_ID : Fld := ⟨HS_ID, 27, 0⟩
/-- Address of register HS_RSVWR (R15). -/
abbrev HS_RSVWR : Nat := 0x100001
/-- HS_RSVWR.CLEAR, bits [31:31] (R15). -/
def HS_RSVWR_CLEAR : Fld := ⟨HS_RSVWR, 31, 31⟩
/-- HS_RSVWR.SAT, bits [24:24] (R15). -/
def HS_RSVWR_SAT : Fld := ⟨HS_RSVWR, 24, 24⟩
/-- HS_RSVWR.COUNT, bits [23:0] (R15). -/
def HS_RSVWR_COUNT : Fld := ⟨HS_RSVWR, 23, 0⟩
/-- Address of register HS_BRCTL (R53). -/
abbrev HS_BRCTL : Nat := 0x100002
/-- HS_BRCTL.ERRTHR, bits [11:8] (R53). -/
def HS_BRCTL_ERRTHR : Fld := ⟨HS_BRCTL, 11, 8⟩
/-- HS_BRCTL.CNTCLR, bits [2:2] (R53). -/
def HS_BRCTL_CNTCLR : Fld := ⟨HS_BRCTL, 2, 2⟩
/-- HS_BRCTL.ALLOW4, bits [1:1] (R53). -/
def HS_BRCTL_ALLOW4 : Fld := ⟨HS_BRCTL, 1, 1⟩
/-- HS_BRCTL.RETRAIN, bits [0:0] (R53). -/
def HS_BRCTL_RETRAIN : Fld := ⟨HS_BRCTL, 0, 0⟩
/-- Address of register HS_BRSTAT (R54). -/
abbrev HS_BRSTAT : Nat := 0x100003
/-- HS_BRSTAT.LANES_SH, bits [31:24] (R54). -/
def HS_BRSTAT_LANES_SH : Fld := ⟨HS_BRSTAT, 31, 24⟩
/-- HS_BRSTAT.LANES_HS, bits [23:16] (R54). -/
def HS_BRSTAT_LANES_HS : Fld := ⟨HS_BRSTAT, 23, 16⟩
/-- HS_BRSTAT.DOWNEV, bits [11:11] (R54). -/
def HS_BRSTAT_DOWNEV : Fld := ⟨HS_BRSTAT, 11, 11⟩
/-- HS_BRSTAT.NARROWED, bits [10:10] (R54). -/
def HS_BRSTAT_NARROWED : Fld := ⟨HS_BRSTAT, 10, 10⟩
/-- HS_BRSTAT.RETRAINED, bits [9:9] (R54). -/
def HS_BRSTAT_RETRAINED : Fld := ⟨HS_BRSTAT, 9, 9⟩
/-- HS_BRSTAT.REPLAYED, bits [8:8] (R54). -/
def HS_BRSTAT_REPLAYED : Fld := ⟨HS_BRSTAT, 8, 8⟩
/-- HS_BRSTAT.STATE, bits [2:0] (R54). -/
def HS_BRSTAT_STATE : Fld := ⟨HS_BRSTAT, 2, 0⟩
/-- Address of register HS_BRERR (R55). -/
abbrev HS_BRERR : Nat := 0x100004
/-- HS_BRERR.DROPPED, bits [31:24] (R55). -/
def HS_BRERR_DROPPED : Fld := ⟨HS_BRERR, 31, 24⟩
/-- HS_BRERR.REPLAYS, bits [23:12] (R55). -/
def HS_BRERR_REPLAYS : Fld := ⟨HS_BRERR, 23, 12⟩
/-- HS_BRERR.CRCERR, bits [11:0] (R55). -/
def HS_BRERR_CRCERR : Fld := ⟨HS_BRERR, 11, 0⟩
/-- Address of register HS_CORECTL (R329). -/
abbrev HS_CORECTL : Nat := 0x100008
/-- HS_CORECTL.RESET, bits [11:8] (R329). -/
def HS_CORECTL_RESET : Fld := ⟨HS_CORECTL, 11, 8⟩
/-- HS_CORECTL.RUN, bits [3:0] (R329). -/
def HS_CORECTL_RUN : Fld := ⟨HS_CORECTL, 3, 0⟩
/-- Address of register HS_CORESTAT (R329). -/
abbrev HS_CORESTAT : Nat := 0x100009
/-- HS_CORESTAT.LOCKEV, bits [11:8] (R329). -/
def HS_CORESTAT_LOCKEV : Fld := ⟨HS_CORESTAT, 11, 8⟩
/-- HS_CORESTAT.HALTED, bits [7:4] (R329). -/
def HS_CORESTAT_HALTED : Fld := ⟨HS_CORESTAT, 7, 4⟩
/-- HS_CORESTAT.LOCKED, bits [3:0] (R329). -/
def HS_CORESTAT_LOCKED : Fld := ⟨HS_CORESTAT, 3, 0⟩
/-- Address of register HS_CORESTART (R329). -/
abbrev HS_CORESTART (i : Nat) : Nat := 0x10000C + i
/-- HS_CORESTART.START, bits [23:0] (R329). -/
def HS_CORESTART_START (i : Nat) : Fld := ⟨HS_CORESTART i, 23, 0⟩
/-- Address of register HS_MRBANK (R330). -/
abbrev HS_MRBANK : Nat := 0x100010
/-- HS_MRBANK.BANK, bits [1:0] (R330). -/
def HS_MRBANK_BANK (core : Nat) : Fld := ⟨coreKey core (HS_MRBANK), 1, 0⟩
/-- Address of register HS_DWIN (R330). -/
abbrev HS_DWIN (i : Nat) : Nat := 0x100011 + i
/-- HS_DWIN.BASE, bits [31:22] (R330). -/
def HS_DWIN_BASE (i : Nat) (core : Nat) : Fld := ⟨coreKey core (HS_DWIN i), 31, 22⟩
/-- HS_DWIN.EN, bits [0:0] (R330). -/
def HS_DWIN_EN (i : Nat) (core : Nat) : Fld := ⟨coreKey core (HS_DWIN i), 0, 0⟩
/-- Address of register HIC_SRCCFG (R365). -/
abbrev HIC_SRCCFG (i : Nat) : Nat := 0x101000 + i
/-- HIC_SRCCFG.CUNIT, bits [28:28] (R365). -/
def HIC_SRCCFG_CUNIT (i : Nat) : Fld := ⟨HIC_SRCCFG i, 28, 28⟩
/-- HIC_SRCCFG.CTIME, bits [27:16] (R365). -/
def HIC_SRCCFG_CTIME (i : Nat) : Fld := ⟨HIC_SRCCFG i, 27, 16⟩
/-- HIC_SRCCFG.CCOUNT, bits [15:8] (R365). -/
def HIC_SRCCFG_CCOUNT (i : Nat) : Fld := ⟨HIC_SRCCFG i, 15, 8⟩
/-- HIC_SRCCFG.TARGETS, bits [7:4] (R365). -/
def HIC_SRCCFG_TARGETS (i : Nat) : Fld := ⟨HIC_SRCCFG i, 7, 4⟩
/-- HIC_SRCCFG.LEVEL, bits [3:0] (R365). -/
def HIC_SRCCFG_LEVEL (i : Nat) : Fld := ⟨HIC_SRCCFG i, 3, 0⟩
/-- Address of register HIC_PEND (R366). -/
abbrev HIC_PEND (i : Nat) : Nat := 0x101100 + i
/-- HIC_PEND.PEND, bits [31:0] (R366). -/
def HIC_PEND_PEND (i : Nat) : Fld := ⟨HIC_PEND i, 31, 0⟩
/-- Address of register HIC_FORCE (R366). -/
abbrev HIC_FORCE (i : Nat) : Nat := 0x101108 + i
/-- HIC_FORCE.FORCE, bits [31:0] (R366). -/
def HIC_FORCE_FORCE (i : Nat) : Fld := ⟨HIC_FORCE i, 31, 0⟩
/-- Address of register HIC_HELD (R366). -/
abbrev HIC_HELD (i : Nat) : Nat := 0x101110 + i
/-- HIC_HELD.HELD, bits [31:0] (R366). -/
def HIC_HELD_HELD (i : Nat) : Fld := ⟨HIC_HELD i, 31, 0⟩
/-- Address of register HIC_CORE (R366). -/
abbrev HIC_CORE (i : Nat) : Nat := 0x101120 + i
/-- HIC_CORE.OFFER, bits [31:31] (R366). -/
def HIC_CORE_OFFER (i : Nat) : Fld := ⟨HIC_CORE i, 31, 31⟩
/-- HIC_CORE.SOURCE, bits [23:16] (R366). -/
def HIC_CORE_SOURCE (i : Nat) : Fld := ⟨HIC_CORE i, 23, 16⟩
/-- HIC_CORE.LEVEL, bits [3:0] (R366). -/
def HIC_CORE_LEVEL (i : Nat) : Fld := ⟨HIC_CORE i, 3, 0⟩
/-- Address of register HIC_WAKEEN (R366). -/
abbrev HIC_WAKEEN : Nat := 0x101130
/-- HIC_WAKEEN.EN, bits [31:0] (R366). -/
def HIC_WAKEEN_EN : Fld := ⟨HIC_WAKEEN, 31, 0⟩
/-- Address of register HIC_WAKELAT (R366). -/
abbrev HIC_WAKELAT : Nat := 0x101131
/-- HIC_WAKELAT.LAT, bits [31:0] (R366). -/
def HIC_WAKELAT_LAT : Fld := ⟨HIC_WAKELAT, 31, 0⟩
/-- Address of register HIC_CTL (R366). -/
abbrev HIC_CTL : Nat := 0x101140
/-- HIC_CTL.CNTCLR, bits [0:0] (R366). -/
def HIC_CTL_CNTCLR : Fld := ⟨HIC_CTL, 0, 0⟩
/-- Address of register HIC_STAT (R366). -/
abbrev HIC_STAT : Nat := 0x101141
/-- HIC_STAT.MERGED, bits [31:16] (R366). -/
def HIC_STAT_MERGED : Fld := ⟨HIC_STAT, 31, 16⟩
/-- HIC_STAT.LASTMERGE, bits [7:0] (R366). -/
def HIC_STAT_LASTMERGE : Fld := ⟨HIC_STAT, 7, 0⟩
/-- Address of register DMA_CHCTL (R377). -/
abbrev DMA_CHCTL (i : Nat) : Nat := 0x102000 + 0x8 * i
/-- DMA_CHCTL.NSPACE, bits [8:8] (R377). -/
def DMA_CHCTL_NSPACE (i : Nat) : Fld := ⟨DMA_CHCTL i, 8, 8⟩
/-- DMA_CHCTL.PRIO, bits [5:4] (R377). -/
def DMA_CHCTL_PRIO (i : Nat) : Fld := ⟨DMA_CHCTL i, 5, 4⟩
/-- DMA_CHCTL.ABORT, bits [1:1] (R377). -/
def DMA_CHCTL_ABORT (i : Nat) : Fld := ⟨DMA_CHCTL i, 1, 1⟩
/-- DMA_CHCTL.START, bits [0:0] (R377). -/
def DMA_CHCTL_START (i : Nat) : Fld := ⟨DMA_CHCTL i, 0, 0⟩
/-- Address of register DMA_CHDESC (R377). -/
abbrev DMA_CHDESC (i : Nat) : Nat := 0x102001 + 0x8 * i
/-- DMA_CHDESC.ADDR, bits [31:0] (R377). -/
def DMA_CHDESC_ADDR (i : Nat) : Fld := ⟨DMA_CHDESC i, 31, 0⟩
/-- Address of register DMA_CHSTAT (R377). -/
abbrev DMA_CHSTAT (i : Nat) : Nat := 0x102002 + 0x8 * i
/-- DMA_CHSTAT.BUSY, bits [31:31] (R377). -/
def DMA_CHSTAT_BUSY (i : Nat) : Fld := ⟨DMA_CHSTAT i, 31, 31⟩
/-- DMA_CHSTAT.WAITPACE, bits [30:30] (R377). -/
def DMA_CHSTAT_WAITPACE (i : Nat) : Fld := ⟨DMA_CHSTAT i, 30, 30⟩
/-- DMA_CHSTAT.WBFAIL, bits [29:29] (R377). -/
def DMA_CHSTAT_WBFAIL (i : Nat) : Fld := ⟨DMA_CHSTAT i, 29, 29⟩
/-- DMA_CHSTAT.HALTEV, bits [28:28] (R377). -/
def DMA_CHSTAT_HALTEV (i : Nat) : Fld := ⟨DMA_CHSTAT i, 28, 28⟩
/-- DMA_CHSTAT.CAUSE, bits [27:24] (R377). -/
def DMA_CHSTAT_CAUSE (i : Nat) : Fld := ⟨DMA_CHSTAT i, 27, 24⟩
/-- DMA_CHSTAT.LOSTTRIG, bits [23:16] (R377). -/
def DMA_CHSTAT_LOSTTRIG (i : Nat) : Fld := ⟨DMA_CHSTAT i, 23, 16⟩
/-- DMA_CHSTAT.DONES, bits [15:0] (R377). -/
def DMA_CHSTAT_DONES (i : Nat) : Fld := ⟨DMA_CHSTAT i, 15, 0⟩
/-- Address of register DMA_CHREM (R377). -/
abbrev DMA_CHREM (i : Nat) : Nat := 0x102003 + 0x8 * i
/-- DMA_CHREM.REM, bits [23:0] (R377). -/
def DMA_CHREM_REM (i : Nat) : Fld := ⟨DMA_CHREM i, 23, 0⟩
/-- Address of register DMA_CHCUR (R377). -/
abbrev DMA_CHCUR (i : Nat) : Nat := 0x102004 + 0x8 * i
/-- DMA_CHCUR.ADDR, bits [31:0] (R377). -/
def DMA_CHCUR_ADDR (i : Nat) : Fld := ⟨DMA_CHCUR i, 31, 0⟩
/-- Address of register DMA_CHERRADDR (R377). -/
abbrev DMA_CHERRADDR (i : Nat) : Nat := 0x102005 + 0x8 * i
/-- DMA_CHERRADDR.ADDR, bits [31:0] (R377). -/
def DMA_CHERRADDR_ADDR (i : Nat) : Fld := ⟨DMA_CHERRADDR i, 31, 0⟩
/-- Address of register HS_TMRCTL (R367). -/
abbrev HS_TMRCTL (i : Nat) : Nat := 0x103000 + 0x2 * i
/-- HS_TMRCTL.ONESHOT, bits [1:1] (R367). -/
def HS_TMRCTL_ONESHOT (i : Nat) : Fld := ⟨HS_TMRCTL i, 1, 1⟩
/-- HS_TMRCTL.EN, bits [0:0] (R367). -/
def HS_TMRCTL_EN (i : Nat) : Fld := ⟨HS_TMRCTL i, 0, 0⟩
/-- Address of register HS_TMRPER (R367). -/
abbrev HS_TMRPER (i : Nat) : Nat := 0x103001 + 0x2 * i
/-- HS_TMRPER.PER, bits [31:0] (R367). -/
def HS_TMRPER_PER (i : Nat) : Fld := ⟨HS_TMRPER i, 31, 0⟩
/-- Address of register WV_CTL (R436). -/
abbrev WV_CTL : Nat := 0x104000
/-- WV_CTL.CNTCLR, bits [31:31] (R436). -/
def WV_CTL_CNTCLR : Fld := ⟨WV_CTL, 31, 31⟩
/-- WV_CTL.HOPLIM, bits [25:16] (R436). -/
def WV_CTL_HOPLIM : Fld := ⟨WV_CTL, 25, 16⟩
/-- WV_CTL.VIW, bits [15:12] (R436). -/
def WV_CTL_VIW : Fld := ⟨WV_CTL, 15, 12⟩
/-- WV_CTL.SCW, bits [11:8] (R436). -/
def WV_CTL_SCW : Fld := ⟨WV_CTL, 11, 8⟩
/-- WV_CTL.LINKHOLD, bits [7:0] (R436). -/
def WV_CTL_LINKHOLD : Fld := ⟨WV_CTL, 7, 0⟩
/-- Address of register WV_POS (R436). -/
abbrev WV_POS : Nat := 0x104001
/-- WV_POS.POSV, bits [31:31] (R436). -/
def WV_POS_POSV : Fld := ⟨WV_POS, 31, 31⟩
/-- WV_POS.SIDE, bits [30:30] (R436). -/
def WV_POS_SIDE : Fld := ⟨WV_POS, 30, 30⟩
/-- WV_POS.ROW, bits [29:16] (R436). -/
def WV_POS_ROW : Fld := ⟨WV_POS, 29, 16⟩
/-- WV_POS.COL, bits [13:0] (R436). -/
def WV_POS_COL : Fld := ⟨WV_POS, 13, 0⟩
/-- Address of register WV_ID (R436). -/
abbrev WV_ID : Nat := 0x104002
/-- WV_ID.MIDV, bits [31:31] (R436). -/
def WV_ID_MIDV : Fld := ⟨WV_ID, 31, 31⟩
/-- WV_ID.MID, bits [13:0] (R436). -/
def WV_ID_MID : Fld := ⟨WV_ID, 13, 0⟩
/-- Address of register WV_GEOBASE (R436). -/
abbrev WV_GEOBASE : Nat := 0x104003
/-- WV_GEOBASE.BASE, bits [31:19] (R436). -/
def WV_GEOBASE_BASE : Fld := ⟨WV_GEOBASE, 31, 19⟩
/-- Address of register WV_GEPOCH (R436). -/
abbrev WV_GEPOCH : Nat := 0x104004
/-- WV_GEPOCH.GEPOCH, bits [31:0] (R436). -/
def WV_GEPOCH_GEPOCH : Fld := ⟨WV_GEPOCH, 31, 0⟩
/-- Address of register WV_STAT (R436). -/
abbrev WV_STAT : Nat := 0x104005
/-- WV_STAT.GEOREFEV, bits [5:5] (R436). -/
def WV_STAT_GEOREFEV : Fld := ⟨WV_STAT, 5, 5⟩
/-- WV_STAT.GEOEV, bits [4:4] (R436). -/
def WV_STAT_GEOEV : Fld := ⟨WV_STAT, 4, 4⟩
/-- WV_STAT.CONFEV, bits [3:3] (R436). -/
def WV_STAT_CONFEV : Fld := ⟨WV_STAT, 3, 3⟩
/-- WV_STAT.POSEV, bits [2:2] (R436). -/
def WV_STAT_POSEV : Fld := ⟨WV_STAT, 2, 2⟩
/-- WV_STAT.LOSSEV, bits [1:1] (R436). -/
def WV_STAT_LOSSEV : Fld := ⟨WV_STAT, 1, 1⟩
/-- WV_STAT.FULLEV, bits [0:0] (R436). -/
def WV_STAT_FULLEV : Fld := ⟨WV_STAT, 0, 0⟩
/-- Address of register WV_FWDCNT (R436). -/
abbrev WV_FWDCNT : Nat := 0x104006
/-- WV_FWDCNT.NOROUTE, bits [31:24] (R436). -/
def WV_FWDCNT_NOROUTE : Fld := ⟨WV_FWDCNT, 31, 24⟩
/-- WV_FWDCNT.MCIN, bits [23:16] (R436). -/
def WV_FWDCNT_MCIN : Fld := ⟨WV_FWDCNT, 23, 16⟩
/-- WV_FWDCNT.HOPX, bits [15:8] (R436). -/
def WV_FWDCNT_HOPX : Fld := ⟨WV_FWDCNT, 15, 8⟩
/-- WV_FWDCNT.MCDROP, bits [7:0] (R436). -/
def WV_FWDCNT_MCDROP : Fld := ⟨WV_FWDCNT, 7, 0⟩
/-- Address of register WV_ENGCNT (R436). -/
abbrev WV_ENGCNT : Nat := 0x104007
/-- WV_ENGCNT.BADHDR, bits [31:24] (R436). -/
def WV_ENGCNT_BADHDR : Fld := ⟨WV_ENGCNT, 31, 24⟩
/-- WV_ENGCNT.BADQ, bits [23:16] (R436). -/
def WV_ENGCNT_BADQ : Fld := ⟨WV_ENGCNT, 23, 16⟩
/-- WV_ENGCNT.VIDDROP, bits [15:8] (R436). -/
def WV_ENGCNT_VIDDROP : Fld := ⟨WV_ENGCNT, 15, 8⟩
/-- WV_ENGCNT.AUTHFAIL, bits [7:0] (R436). -/
def WV_ENGCNT_AUTHFAIL : Fld := ⟨WV_ENGCNT, 7, 0⟩
/-- Address of register WV_RTSEL (R436). -/
abbrev WV_RTSEL : Nat := 0x104008
/-- WV_RTSEL.MID, bits [13:0] (R436). -/
def WV_RTSEL_MID : Fld := ⟨WV_RTSEL, 13, 0⟩
/-- Address of register WV_RTDATA (R436). -/
abbrev WV_RTDATA : Nat := 0x104009
/-- WV_RTDATA.ENTRY, bits [15:0] (R436). -/
def WV_RTDATA_ENTRY : Fld := ⟨WV_RTDATA, 15, 0⟩
/-- Address of register WV_PORTCFG (R437). -/
abbrev WV_PORTCFG (i : Nat) : Nat := 0x104010 + 0x4 * i
/-- WV_PORTCFG.RETRAIN, bits [8:8] (R437). -/
def WV_PORTCFG_RETRAIN (i : Nat) : Fld := ⟨WV_PORTCFG i, 8, 8⟩
/-- WV_PORTCFG.ERRTHR, bits [7:4] (R437). -/
def WV_PORTCFG_ERRTHR (i : Nat) : Fld := ⟨WV_PORTCFG i, 7, 4⟩
/-- WV_PORTCFG.EGR, bits [2:2] (R437). -/
def WV_PORTCFG_EGR (i : Nat) : Fld := ⟨WV_PORTCFG i, 2, 2⟩
/-- WV_PORTCFG.ALLOW1, bits [1:1] (R437). -/
def WV_PORTCFG_ALLOW1 (i : Nat) : Fld := ⟨WV_PORTCFG i, 1, 1⟩
/-- WV_PORTCFG.EN, bits [0:0] (R437). -/
def WV_PORTCFG_EN (i : Nat) : Fld := ⟨WV_PORTCFG i, 0, 0⟩
/-- Address of register WV_PORTSTAT (R437). -/
abbrev WV_PORTSTAT (i : Nat) : Nat := 0x104011 + 0x4 * i
/-- WV_PORTSTAT.NDIST, bits [31:24] (R437). -/
def WV_PORTSTAT_NDIST (i : Nat) : Fld := ⟨WV_PORTSTAT i, 31, 24⟩
/-- WV_PORTSTAT.VIDLOAD, bits [22:16] (R437). -/
def WV_PORTSTAT_VIDLOAD (i : Nat) : Fld := ⟨WV_PORTSTAT i, 22, 16⟩
/-- WV_PORTSTAT.VIDOVEV, bits [15:15] (R437). -/
def WV_PORTSTAT_VIDOVEV (i : Nat) : Fld := ⟨WV_PORTSTAT i, 15, 15⟩
/-- WV_PORTSTAT.FENCEEV, bits [14:14] (R437). -/
def WV_PORTSTAT_FENCEEV (i : Nat) : Fld := ⟨WV_PORTSTAT i, 14, 14⟩
/-- WV_PORTSTAT.DOWNEV, bits [13:13] (R437). -/
def WV_PORTSTAT_DOWNEV (i : Nat) : Fld := ⟨WV_PORTSTAT i, 13, 13⟩
/-- WV_PORTSTAT.UPEV, bits [12:12] (R437). -/
def WV_PORTSTAT_UPEV (i : Nat) : Fld := ⟨WV_PORTSTAT i, 12, 12⟩
/-- WV_PORTSTAT.FENCE, bits [11:8] (R437). -/
def WV_PORTSTAT_FENCE (i : Nat) : Fld := ⟨WV_PORTSTAT i, 11, 8⟩
/-- WV_PORTSTAT.PARENT, bits [7:7] (R437). -/
def WV_PORTSTAT_PARENT (i : Nat) : Fld := ⟨WV_PORTSTAT i, 7, 7⟩
/-- WV_PORTSTAT.CHILD, bits [6:6] (R437). -/
def WV_PORTSTAT_CHILD (i : Nat) : Fld := ⟨WV_PORTSTAT i, 6, 6⟩
/-- WV_PORTSTAT.DLYV, bits [5:5] (R437). -/
def WV_PORTSTAT_DLYV (i : Nat) : Fld := ⟨WV_PORTSTAT i, 5, 5⟩
/-- WV_PORTSTAT.LANES, bits [4:3] (R437). -/
def WV_PORTSTAT_LANES (i : Nat) : Fld := ⟨WV_PORTSTAT i, 4, 3⟩
/-- WV_PORTSTAT.STATE, bits [2:0] (R437). -/
def WV_PORTSTAT_STATE (i : Nat) : Fld := ⟨WV_PORTSTAT i, 2, 0⟩
/-- Address of register WV_PORTDLY (R437). -/
abbrev WV_PORTDLY (i : Nat) : Nat := 0x104012 + 0x4 * i
/-- WV_PORTDLY.DELAY, bits [23:0] (R437). -/
def WV_PORTDLY_DELAY (i : Nat) : Fld := ⟨WV_PORTDLY i, 23, 0⟩
/-- Address of register WV_PORTERR (R437). -/
abbrev WV_PORTERR (i : Nat) : Nat := 0x104013 + 0x4 * i
/-- WV_PORTERR.CRCERR, bits [31:20] (R437). -/
def WV_PORTERR_CRCERR (i : Nat) : Fld := ⟨WV_PORTERR i, 31, 20⟩
/-- WV_PORTERR.REPLAYS, bits [19:8] (R437). -/
def WV_PORTERR_REPLAYS (i : Nat) : Fld := ⟨WV_PORTERR i, 19, 8⟩
/-- WV_PORTERR.RETRAINS, bits [7:0] (R437). -/
def WV_PORTERR_RETRAINS (i : Nat) : Fld := ⟨WV_PORTERR i, 7, 0⟩
/-- Address of register WV_DRDT (R438). -/
abbrev WV_DRDT : Nat := 0x104100
/-- WV_DRDT.BASE, bits [31:12] (R438). -/
def WV_DRDT_BASE : Fld := ⟨WV_DRDT, 31, 12⟩
/-- Address of register WV_DRSEL (R438). -/
abbrev WV_DRSEL : Nat := 0x104101
/-- WV_DRSEL.QID, bits [13:0] (R438). -/
def WV_DRSEL_QID : Fld := ⟨WV_DRSEL, 13, 0⟩
/-- Address of register WV_DRCMD (R438). -/
abbrev WV_DRCMD : Nat := 0x104102
/-- WV_DRCMD.CMD, bits [1:0] (R438). -/
def WV_DRCMD_CMD : Fld := ⟨WV_DRCMD, 1, 0⟩
/-- Address of register WV_DRPTR (R438). -/
abbrev WV_DRPTR : Nat := 0x104103
/-- WV_DRPTR.TAIL, bits [31:16] (R438). -/
def WV_DRPTR_TAIL : Fld := ⟨WV_DRPTR, 31, 16⟩
/-- WV_DRPTR.HEAD, bits [15:0] (R438). -/
def WV_DRPTR_HEAD : Fld := ⟨WV_DRPTR, 15, 0⟩
/-- Address of register WV_DRSTAT (R438). -/
abbrev WV_DRSTAT : Nat := 0x104104
/-- WV_DRSTAT.NEXT, bits [31:16] (R438). -/
def WV_DRSTAT_NEXT : Fld := ⟨WV_DRSTAT, 31, 16⟩
/-- WV_DRSTAT.EN, bits [15:15] (R438). -/
def WV_DRSTAT_EN : Fld := ⟨WV_DRSTAT, 15, 15⟩
/-- WV_DRSTAT.DAMAGED, bits [14:14] (R438). -/
def WV_DRSTAT_DAMAGED : Fld := ⟨WV_DRSTAT, 14, 14⟩
/-- WV_DRSTAT.FULL, bits [13:13] (R438). -/
def WV_DRSTAT_FULL : Fld := ⟨WV_DRSTAT, 13, 13⟩
/-- WV_DRSTAT.HELD, bits [5:0] (R438). -/
def WV_DRSTAT_HELD : Fld := ⟨WV_DRSTAT, 5, 0⟩
/-- Address of register WV_DRCNT (R438). -/
abbrev WV_DRCNT : Nat := 0x104105
/-- WV_DRCNT.LOST, bits [31:16] (R438). -/
def WV_DRCNT_LOST : Fld := ⟨WV_DRCNT, 31, 16⟩
/-- WV_DRCNT.DUP, bits [15:0] (R438). -/
def WV_DRCNT_DUP : Fld := ⟨WV_DRCNT, 15, 0⟩
/-- Address of register WV_TWCTL (R464). -/
abbrev WV_TWCTL : Nat := 0x104200
/-- WV_TWCTL.PATCHTIME, bits [31:24] (R464). -/
def WV_TWCTL_PATCHTIME : Fld := ⟨WV_TWCTL, 31, 24⟩
/-- WV_TWCTL.MMFRAMES, bits [19:16] (R464). -/
def WV_TWCTL_MMFRAMES : Fld := ⟨WV_TWCTL, 19, 16⟩
/-- WV_TWCTL.CNTCLR, bits [3:3] (R464). -/
def WV_TWCTL_CNTCLR : Fld := ⟨WV_TWCTL, 3, 3⟩
/-- WV_TWCTL.TAKE, bits [2:2] (R464). -/
def WV_TWCTL_TAKE : Fld := ⟨WV_TWCTL, 2, 2⟩
/-- WV_TWCTL.YIELD, bits [1:1] (R464). -/
def WV_TWCTL_YIELD : Fld := ⟨WV_TWCTL, 1, 1⟩
/-- WV_TWCTL.EN, bits [0:0] (R464). -/
def WV_TWCTL_EN : Fld := ⟨WV_TWCTL, 0, 0⟩
/-- Address of register WV_TWSTAT (R464). -/
abbrev WV_TWSTAT : Nat := 0x104201
/-- WV_TWSTAT.PMID, bits [31:18] (R464). -/
def WV_TWSTAT_PMID : Fld := ⟨WV_TWSTAT, 31, 18⟩
/-- WV_TWSTAT.TAKEOVEREV, bits [15:15] (R464). -/
def WV_TWSTAT_TAKEOVEREV : Fld := ⟨WV_TWSTAT, 15, 15⟩
/-- WV_TWSTAT.SILENTEV, bits [14:14] (R464). -/
def WV_TWSTAT_SILENTEV : Fld := ⟨WV_TWSTAT, 14, 14⟩
/-- WV_TWSTAT.DIVEV, bits [13:13] (R464). -/
def WV_TWSTAT_DIVEV : Fld := ⟨WV_TWSTAT, 13, 13⟩
/-- WV_TWSTAT.CHKEV, bits [12:12] (R464). -/
def WV_TWSTAT_CHKEV : Fld := ⟨WV_TWSTAT, 12, 12⟩
/-- WV_TWSTAT.CMDREFEV, bits [11:11] (R464). -/
def WV_TWSTAT_CMDREFEV : Fld := ⟨WV_TWSTAT, 11, 11⟩
/-- WV_TWSTAT.CHK, bits [10:8] (R464). -/
def WV_TWSTAT_CHK : Fld := ⟨WV_TWSTAT, 10, 8⟩
/-- WV_TWSTAT.EPDIFF, bits [7:7] (R464). -/
def WV_TWSTAT_EPDIFF : Fld := ⟨WV_TWSTAT, 7, 7⟩
/-- WV_TWSTAT.SILENT, bits [6:6] (R464). -/
def WV_TWSTAT_SILENT : Fld := ⟨WV_TWSTAT, 6, 6⟩
/-- WV_TWSTAT.PAIRED, bits [5:5] (R464). -/
def WV_TWSTAT_PAIRED : Fld := ⟨WV_TWSTAT, 5, 5⟩
/-- WV_TWSTAT.ROLE, bits [1:0] (R464). -/
def WV_TWSTAT_ROLE : Fld := ⟨WV_TWSTAT, 1, 0⟩
/-- Address of register WV_TWCNT (R464). -/
abbrev WV_TWCNT : Nat := 0x104202
/-- WV_TWCNT.MMFR, bits [31:24] (R464). -/
def WV_TWCNT_MMFR : Fld := ⟨WV_TWCNT, 31, 24⟩
/-- WV_TWCNT.PATCHED, bits [23:16] (R464). -/
def WV_TWCNT_PATCHED : Fld := ⟨WV_TWCNT, 23, 16⟩
/-- WV_TWCNT.PATCHMISS, bits [15:8] (R464). -/
def WV_TWCNT_PATCHMISS : Fld := ⟨WV_TWCNT, 15, 8⟩
/-- WV_TWCNT.HBMISS, bits [7:0] (R464). -/
def WV_TWCNT_HBMISS : Fld := ⟨WV_TWCNT, 7, 0⟩
/-- Address of register WV_TWPLOG (R464). -/
abbrev WV_TWPLOG : Nat := 0x104203
/-- WV_TWPLOG.PAGES, bits [31:24] (R464). -/
def WV_TWPLOG_PAGES : Fld := ⟨WV_TWPLOG, 31, 24⟩
/-- WV_TWPLOG.FIRST, bits [8:0] (R464). -/
def WV_TWPLOG_FIRST : Fld := ⟨WV_TWPLOG, 8, 0⟩
/-- Address of register WV_MC (R438). -/
abbrev WV_MC (i : Nat) : Nat := 0x104400 + i
/-- WV_MC.VALID, bits [11:11] (R438). -/
def WV_MC_VALID (i : Nat) : Fld := ⟨WV_MC i, 11, 11⟩
/-- WV_MC.IN, bits [10:8] (R438). -/
def WV_MC_IN (i : Nat) : Fld := ⟨WV_MC i, 10, 8⟩
/-- WV_MC.OUT, bits [7:0] (R438). -/
def WV_MC_OUT (i : Nat) : Fld := ⟨WV_MC i, 7, 0⟩
/-- Address of register AU_CTL (R488). -/
abbrev AU_CTL : Nat := 0x106000
/-- AU_CTL.CNTCLR, bits [31:31] (R488). -/
def AU_CTL_CNTCLR : Fld := ⟨AU_CTL, 31, 31⟩
/-- AU_CTL.I2SEN, bits [5:5] (R488). -/
def AU_CTL_I2SEN : Fld := ⟨AU_CTL, 5, 5⟩
/-- AU_CTL.TDMEN, bits [4:4] (R488). -/
def AU_CTL_TDMEN : Fld := ⟨AU_CTL, 4, 4⟩
/-- AU_CTL.D96SRC, bits [3:3] (R488). -/
def AU_CTL_D96SRC : Fld := ⟨AU_CTL, 3, 3⟩
/-- AU_CTL.CODECM, bits [2:2] (R488). -/
def AU_CTL_CODECM : Fld := ⟨AU_CTL, 2, 2⟩
/-- AU_CTL.EN, bits [0:0] (R488). -/
def AU_CTL_EN : Fld := ⟨AU_CTL, 0, 0⟩
/-- Address of register AU_D96NS (R488). -/
abbrev AU_D96NS : Nat := 0x106001
/-- AU_D96NS.NS, bits [15:0] (R488). -/
def AU_D96NS_NS : Fld := ⟨AU_D96NS, 15, 0⟩
/-- Address of register AU_STAT (R489). -/
abbrev AU_STAT : Nat := 0x106002
/-- AU_STAT.EVDEPTH, bits [25:16] (R489). -/
def AU_STAT_EVDEPTH : Fld := ⟨AU_STAT, 25, 16⟩
/-- AU_STAT.D96LOCK, bits [9:9] (R489). -/
def AU_STAT_D96LOCK : Fld := ⟨AU_STAT, 9, 9⟩
/-- AU_STAT.BRLOCK, bits [8:8] (R489). -/
def AU_STAT_BRLOCK : Fld := ⟨AU_STAT, 8, 8⟩
/-- AU_STAT.STARVEEV, bits [7:7] (R489). -/
def AU_STAT_STARVEEV : Fld := ⟨AU_STAT, 7, 7⟩
/-- AU_STAT.CLKEV, bits [6:6] (R489). -/
def AU_STAT_CLKEV : Fld := ⟨AU_STAT, 6, 6⟩
/-- AU_STAT.UNLOCKEV, bits [5:5] (R489). -/
def AU_STAT_UNLOCKEV : Fld := ⟨AU_STAT, 5, 5⟩
/-- AU_STAT.UNDEREV, bits [4:4] (R489). -/
def AU_STAT_UNDEREV : Fld := ⟨AU_STAT, 4, 4⟩
/-- AU_STAT.BADEVEV, bits [3:3] (R489). -/
def AU_STAT_BADEVEV : Fld := ⟨AU_STAT, 3, 3⟩
/-- AU_STAT.EVLATEEV, bits [2:2] (R489). -/
def AU_STAT_EVLATEEV : Fld := ⟨AU_STAT, 2, 2⟩
/-- AU_STAT.EVFULL, bits [1:1] (R489). -/
def AU_STAT_EVFULL : Fld := ⟨AU_STAT, 1, 1⟩
/-- AU_STAT.VENDEV, bits [0:0] (R489). -/
def AU_STAT_VENDEV : Fld := ⟨AU_STAT, 0, 0⟩
/-- Address of register AU_CNT (R489). -/
abbrev AU_CNT : Nat := 0x106003
/-- AU_CNT.STARVE, bits [31:24] (R489). -/
def AU_CNT_STARVE : Fld := ⟨AU_CNT, 31, 24⟩
/-- AU_CNT.UNDER, bits [23:16] (R489). -/
def AU_CNT_UNDER : Fld := ⟨AU_CNT, 23, 16⟩
/-- AU_CNT.EVLATE, bits [15:8] (R489). -/
def AU_CNT_EVLATE : Fld := ⟨AU_CNT, 15, 8⟩
/-- AU_CNT.BADEV, bits [7:0] (R489). -/
def AU_CNT_BADEV : Fld := ⟨AU_CNT, 7, 0⟩
/-- Address of register AU_EVPOS (R490). -/
abbrev AU_EVPOS : Nat := 0x106004
/-- AU_EVPOS.FRAME, bits [31:24] (R490). -/
def AU_EVPOS_FRAME : Fld := ⟨AU_EVPOS, 31, 24⟩
/-- AU_EVPOS.LINE, bits [16:0] (R490). -/
def AU_EVPOS_LINE : Fld := ⟨AU_EVPOS, 16, 0⟩
/-- Address of register AU_EVVAL (R490). -/
abbrev AU_EVVAL : Nat := 0x106005
/-- AU_EVVAL.VALUE, bits [31:0] (R490). -/
def AU_EVVAL_VALUE : Fld := ⟨AU_EVVAL, 31, 0⟩
/-- Address of register AU_EVCMD (R490). -/
abbrev AU_EVCMD : Nat := 0x106006
/-- AU_EVCMD.OP, bits [11:8] (R490). -/
def AU_EVCMD_OP : Fld := ⟨AU_EVCMD, 11, 8⟩
/-- AU_EVCMD.VOICE, bits [7:0] (R490). -/
def AU_EVCMD_VOICE : Fld := ⟨AU_EVCMD, 7, 0⟩
/-- Address of register AU_DIST (R488). -/
abbrev AU_DIST : Nat := 0x106007
/-- AU_DIST.DSHIFT, bits [3:0] (R488). -/
def AU_DIST_DSHIFT : Fld := ⟨AU_DIST, 3, 0⟩
/-- Address of register AU_VEND (R490). -/
abbrev AU_VEND (i : Nat) : Nat := 0x106008 + i
/-- AU_VEND.END, bits [31:0] (R490). -/
def AU_VEND_END (i : Nat) : Fld := ⟨AU_VEND i, 31, 0⟩
/-- Address of register AU_OUT (R491). -/
abbrev AU_OUT (i : Nat) : Nat := 0x106010 + 0x2 * i
/-- AU_OUT.MUTE, bits [18:18] (R491). -/
def AU_OUT_MUTE (i : Nat) : Fld := ⟨AU_OUT i, 18, 18⟩
/-- AU_OUT.STOOL, bits [17:16] (R491). -/
def AU_OUT_STOOL (i : Nat) : Fld := ⟨AU_OUT i, 17, 16⟩
/-- AU_OUT.SELB, bits [12:8] (R491). -/
def AU_OUT_SELB (i : Nat) : Fld := ⟨AU_OUT i, 12, 8⟩
/-- AU_OUT.SELA, bits [4:0] (R491). -/
def AU_OUT_SELA (i : Nat) : Fld := ⟨AU_OUT i, 4, 0⟩
/-- Address of register AU_OUTG (R491). -/
abbrev AU_OUTG (i : Nat) : Nat := 0x106011 + 0x2 * i
/-- AU_OUTG.GAINB, bits [31:16] (R491). -/
def AU_OUTG_GAINB (i : Nat) : Fld := ⟨AU_OUTG i, 31, 16⟩
/-- AU_OUTG.GAINA, bits [15:0] (R491). -/
def AU_OUTG_GAINA (i : Nat) : Fld := ⟨AU_OUTG i, 15, 0⟩
/-- Address of register AU_STRB (R492). -/
abbrev AU_STRB (i : Nat) : Nat := 0x106020 + 0x4 * i
/-- AU_STRB.BASE, bits [23:0] (R492). -/
def AU_STRB_BASE (i : Nat) : Fld := ⟨AU_STRB i, 23, 0⟩
/-- Address of register AU_STRS (R492). -/
abbrev AU_STRS (i : Nat) : Nat := 0x106021 + 0x4 * i
/-- AU_STRS.SIZE, bits [15:0] (R492). -/
def AU_STRS_SIZE (i : Nat) : Fld := ⟨AU_STRS i, 15, 0⟩
/-- Address of register AU_STRW (R492). -/
abbrev AU_STRW (i : Nat) : Nat := 0x106022 + 0x4 * i
/-- AU_STRW.WP, bits [15:0] (R492). -/
def AU_STRW_WP (i : Nat) : Fld := ⟨AU_STRW i, 15, 0⟩
/-- Address of register AU_STRP (R492). -/
abbrev AU_STRP (i : Nat) : Nat := 0x106023 + 0x4 * i
/-- AU_STRP.RP, bits [15:0] (R492). -/
def AU_STRP_RP (i : Nat) : Fld := ⟨AU_STRP i, 15, 0⟩
/-- Address of register AU_DLAW (R492). -/
abbrev AU_DLAW (i : Nat) : Nat := 0x106100 + i
/-- AU_DLAW.LEVEL, bits [15:0] (R492). -/
def AU_DLAW_LEVEL (i : Nat) : Fld := ⟨AU_DLAW i, 15, 0⟩
/-- Address of register AU_VCTL (R493). -/
abbrev AU_VCTL (i : Nat) : Nat := 0x106800 + 0x8 * i
/-- AU_VCTL.FMT, bits [6:5] (R493). -/
def AU_VCTL_FMT (i : Nat) : Fld := ⟨AU_VCTL i, 6, 5⟩
/-- AU_VCTL.BUS, bits [4:3] (R493). -/
def AU_VCTL_BUS (i : Nat) : Fld := ⟨AU_VCTL i, 4, 3⟩
/-- AU_VCTL.BIND, bits [2:2] (R493). -/
def AU_VCTL_BIND (i : Nat) : Fld := ⟨AU_VCTL i, 2, 2⟩
/-- AU_VCTL.LOOP, bits [1:1] (R493). -/
def AU_VCTL_LOOP (i : Nat) : Fld := ⟨AU_VCTL i, 1, 1⟩
/-- AU_VCTL.RUN, bits [0:0] (R493). -/
def AU_VCTL_RUN (i : Nat) : Fld := ⟨AU_VCTL i, 0, 0⟩
/-- Address of register AU_VSTART (R493). -/
abbrev AU_VSTART (i : Nat) : Nat := 0x106801 + 0x8 * i
/-- AU_VSTART.START, bits [31:0] (R493). -/
def AU_VSTART_START (i : Nat) : Fld := ⟨AU_VSTART i, 31, 0⟩
/-- Address of register AU_VLEN (R493). -/
abbrev AU_VLEN (i : Nat) : Nat := 0x106802 + 0x8 * i
/-- AU_VLEN.LEN, bits [23:0] (R493). -/
def AU_VLEN_LEN (i : Nat) : Fld := ⟨AU_VLEN i, 23, 0⟩
/-- Address of register AU_VLOOP (R493). -/
abbrev AU_VLOOP (i : Nat) : Nat := 0x106803 + 0x8 * i
/-- AU_VLOOP.LOOPST, bits [23:0] (R493). -/
def AU_VLOOP_LOOPST (i : Nat) : Fld := ⟨AU_VLOOP i, 23, 0⟩
/-- Address of register AU_VSTEP (R493). -/
abbrev AU_VSTEP (i : Nat) : Nat := 0x106804 + 0x8 * i
/-- AU_VSTEP.STEP, bits [23:0] (R493). -/
def AU_VSTEP_STEP (i : Nat) : Fld := ⟨AU_VSTEP i, 23, 0⟩
/-- Address of register AU_VGAIN (R493). -/
abbrev AU_VGAIN (i : Nat) : Nat := 0x106805 + 0x8 * i
/-- AU_VGAIN.VGAIN, bits [15:0] (R493). -/
def AU_VGAIN_VGAIN (i : Nat) : Fld := ⟨AU_VGAIN i, 15, 0⟩
/-- Address of register AU_VPOS (R493). -/
abbrev AU_VPOS (i : Nat) : Nat := 0x106806 + 0x8 * i
/-- AU_VPOS.POS, bits [23:0] (R493). -/
def AU_VPOS_POS (i : Nat) : Fld := ⟨AU_VPOS i, 23, 0⟩
/-- Address of register AU_VDG (R493). -/
abbrev AU_VDG (i : Nat) : Nat := 0x106807 + 0x8 * i
/-- AU_VDG.DGAIN, bits [15:0] (R493). -/
def AU_VDG_DGAIN (i : Nat) : Fld := ⟨AU_VDG i, 15, 0⟩
/-- Address of register SEC_STAT (R542). -/
abbrev SEC_STAT : Nat := 0x107000
/-- SEC_STAT.LATCHED, bits [21:16] (R542). -/
def SEC_STAT_LATCHED : Fld := ⟨SEC_STAT, 21, 16⟩
/-- SEC_STAT.ACTIVE, bits [13:8] (R542). -/
def SEC_STAT_ACTIVE : Fld := ⟨SEC_STAT, 13, 8⟩
/-- SEC_STAT.ALMEV, bits [7:7] (R542). -/
def SEC_STAT_ALMEV : Fld := ⟨SEC_STAT, 7, 7⟩
/-- SEC_STAT.DBGEV, bits [6:6] (R542). -/
def SEC_STAT_DBGEV : Fld := ⟨SEC_STAT, 6, 6⟩
/-- SEC_STAT.DEBUG, bits [3:2] (R542). -/
def SEC_STAT_DEBUG : Fld := ⟨SEC_STAT, 3, 2⟩
/-- SEC_STAT.STATE, bits [1:0] (R542). -/
def SEC_STAT_STATE : Fld := ⟨SEC_STAT, 1, 0⟩
/-- Address of register SEC_ALMCFG (R542). -/
abbrev SEC_ALMCFG : Nat := 0x107001
/-- SEC_ALMCFG.LOCK, bits [31:31] (R542). -/
def SEC_ALMCFG_LOCK : Fld := ⟨SEC_ALMCFG, 31, 31⟩
/-- SEC_ALMCFG.LEVEL, bits [11:0] (R542). -/
def SEC_ALMCFG_LEVEL : Fld := ⟨SEC_ALMCFG, 11, 0⟩
/-- Address of register SEC_CMD (R542). -/
abbrev SEC_CMD : Nat := 0x107002
/-- SEC_CMD.GUARDCLR, bits [0:0] (R542). -/
def SEC_CMD_GUARDCLR : Fld := ⟨SEC_CMD, 0, 0⟩
/-- Address of register SEC_UNLK (R542). -/
abbrev SEC_UNLK : Nat := 0x107003
/-- SEC_UNLK.LEASE, bits [31:24] (R542). -/
def SEC_UNLK_LEASE : Fld := ⟨SEC_UNLK, 31, 24⟩
/-- SEC_UNLK.LIMIT, bits [7:4] (R542). -/
def SEC_UNLK_LIMIT : Fld := ⟨SEC_UNLK, 7, 4⟩
/-- SEC_UNLK.FAILS, bits [3:0] (R542). -/
def SEC_UNLK_FAILS : Fld := ⟨SEC_UNLK, 3, 0⟩
/-- Address of register SEC_KEYST (R542). -/
abbrev SEC_KEYST : Nat := 0x107004
/-- SEC_KEYST.LOADED, bits [31:0] (R542). -/
def SEC_KEYST_LOADED : Fld := ⟨SEC_KEYST, 31, 0⟩
/-- Address of register HS_RECCTL (R588). -/
abbrev HS_RECCTL : Nat := 0x108000
/-- HS_RECCTL.CNTCLR, bits [31:31] (R588). -/
def HS_RECCTL_CNTCLR : Fld := ⟨HS_RECCTL, 31, 31⟩
/-- HS_RECCTL.IRQMASK, bits [13:8] (R588). -/
def HS_RECCTL_IRQMASK : Fld := ⟨HS_RECCTL, 13, 8⟩
/-- HS_RECCTL.TMODE, bits [1:1] (R588). -/
def HS_RECCTL_TMODE : Fld := ⟨HS_RECCTL, 1, 1⟩
/-- HS_RECCTL.NEXT, bits [0:0] (R588). -/
def HS_RECCTL_NEXT : Fld := ⟨HS_RECCTL, 0, 0⟩
/-- Address of register HS_RECSTAT (R588). -/
abbrev HS_RECSTAT : Nat := 0x108001
/-- HS_RECSTAT.CALV, bits [31:31] (R588). -/
def HS_RECSTAT_CALV : Fld := ⟨HS_RECSTAT, 31, 31⟩
/-- HS_RECSTAT.PINFULL, bits [30:30] (R588). -/
def HS_RECSTAT_PINFULL : Fld := ⟨HS_RECSTAT, 30, 30⟩
/-- HS_RECSTAT.PINCNT, bits [25:16] (R588). -/
def HS_RECSTAT_PINCNT : Fld := ⟨HS_RECSTAT, 25, 16⟩
/-- HS_RECSTAT.RECEV, bits [7:7] (R588). -/
def HS_RECSTAT_RECEV : Fld := ⟨HS_RECSTAT, 7, 7⟩
/-- HS_RECSTAT.PINEV, bits [6:6] (R588). -/
def HS_RECSTAT_PINEV : Fld := ⟨HS_RECSTAT, 6, 6⟩
/-- HS_RECSTAT.DROPEV, bits [5:5] (R588). -/
def HS_RECSTAT_DROPEV : Fld := ⟨HS_RECSTAT, 5, 5⟩
/-- HS_RECSTAT.STOREEV, bits [4:4] (R588). -/
def HS_RECSTAT_STOREEV : Fld := ⟨HS_RECSTAT, 4, 4⟩
/-- HS_RECSTAT.CURST, bits [2:0] (R588). -/
def HS_RECSTAT_CURST : Fld := ⟨HS_RECSTAT, 2, 0⟩
/-- Address of register HS_RECTOTL (R588). -/
abbrev HS_RECTOTL : Nat := 0x108002
/-- HS_RECTOTL.TOTAL, bits [31:0] (R588). -/
def HS_RECTOTL_TOTAL : Fld := ⟨HS_RECTOTL, 31, 0⟩
/-- Address of register HS_RECTOTH (R588). -/
abbrev HS_RECTOTH : Nat := 0x108003
/-- HS_RECTOTH.TOTAL, bits [15:0] (R588). -/
def HS_RECTOTH_TOTAL : Fld := ⟨HS_RECTOTH, 15, 0⟩
/-- Address of register HS_RECCURH (R588). -/
abbrev HS_RECCURH : Nat := 0x108004
/-- HS_RECCURH.VIEW, bits [31:31] (R588). -/
def HS_RECCURH_VIEW : Fld := ⟨HS_RECCURH, 31, 31⟩
/-- HS_RECCURH.NUMH, bits [15:0] (R588). -/
def HS_RECCURH_NUMH : Fld := ⟨HS_RECCURH, 15, 0⟩
/-- Address of register HS_RECCURL (R588). -/
abbrev HS_RECCURL : Nat := 0x108005
/-- HS_RECCURL.NUML, bits [31:0] (R588). -/
def HS_RECCURL_NUML : Fld := ⟨HS_RECCURL, 31, 0⟩
/-- Address of register HS_RECCNT (R588). -/
abbrev HS_RECCNT : Nat := 0x108006
/-- HS_RECCNT.DROPPED, bits [31:16] (R588). -/
def HS_RECCNT_DROPPED : Fld := ⟨HS_RECCNT, 31, 16⟩
/-- HS_RECCNT.PUTREF, bits [15:8] (R588). -/
def HS_RECCNT_PUTREF : Fld := ⟨HS_RECCNT, 15, 8⟩
/-- HS_RECCNT.STOREFAIL, bits [7:0] (R588). -/
def HS_RECCNT_STOREFAIL : Fld := ⟨HS_RECCNT, 7, 0⟩
/-- Address of register HS_RECWIN (R588). -/
abbrev HS_RECWIN (i : Nat) : Nat := 0x108008 + i
/-- HS_RECWIN.WORD, bits [31:0] (R588). -/
def HS_RECWIN_WORD (i : Nat) : Fld := ⟨HS_RECWIN i, 31, 0⟩
/-- Address of register HS_RECPUT0 (R588). -/
abbrev HS_RECPUT0 : Nat := 0x108010
/-- HS_RECPUT0.CLASS, bits [31:28] (R588). -/
def HS_RECPUT0_CLASS : Fld := ⟨HS_RECPUT0, 31, 28⟩
/-- HS_RECPUT0.CODE, bits [15:0] (R588). -/
def HS_RECPUT0_CODE : Fld := ⟨HS_RECPUT0, 15, 0⟩
/-- Address of register HS_RECPUT (R588). -/
abbrev HS_RECPUT (i : Nat) : Nat := 0x108011 + i
/-- HS_RECPUT.P, bits [31:0] (R588). -/
def HS_RECPUT_P (i : Nat) : Fld := ⟨HS_RECPUT i, 31, 0⟩
/-- Address of register PAD_CFG (R567). -/
abbrev PAD_CFG (i : Nat) : Nat := 0x109000 + i
/-- PAD_CFG.LOCKED, bits [31:31] (R567). -/
def PAD_CFG_LOCKED (i : Nat) : Fld := ⟨PAD_CFG i, 31, 31⟩
/-- PAD_CFG.HOLD, bits [15:15] (R567). -/
def PAD_CFG_HOLD (i : Nat) : Fld := ⟨PAD_CFG i, 15, 15⟩
/-- PAD_CFG.AMODE, bits [14:14] (R567). -/
def PAD_CFG_AMODE (i : Nat) : Fld := ⟨PAD_CFG i, 14, 14⟩
/-- PAD_CFG.PULL, bits [13:12] (R567). -/
def PAD_CFG_PULL (i : Nat) : Fld := ⟨PAD_CFG i, 13, 12⟩
/-- PAD_CFG.DRIVE, bits [11:10] (R567). -/
def PAD_CFG_DRIVE (i : Nat) : Fld := ⟨PAD_CFG i, 11, 10⟩
/-- PAD_CFG.SLEW, bits [9:9] (R567). -/
def PAD_CFG_SLEW (i : Nat) : Fld := ⟨PAD_CFG i, 9, 9⟩
/-- PAD_CFG.HYST, bits [8:8] (R567). -/
def PAD_CFG_HYST (i : Nat) : Fld := ⟨PAD_CFG i, 8, 8⟩
/-- PAD_CFG.VTH, bits [7:6] (R567). -/
def PAD_CFG_VTH (i : Nat) : Fld := ⟨PAD_CFG i, 7, 6⟩
/-- PAD_CFG.INEN, bits [5:5] (R567). -/
def PAD_CFG_INEN (i : Nat) : Fld := ⟨PAD_CFG i, 5, 5⟩
/-- Address of register PAD_GPOUT (R567). -/
abbrev PAD_GPOUT (i : Nat) : Nat := 0x109200 + i
/-- PAD_GPOUT.OUT, bits [31:0] (R567). -/
def PAD_GPOUT_OUT (i : Nat) : Fld := ⟨PAD_GPOUT i, 31, 0⟩
/-- Address of register PAD_GPOE (R567). -/
abbrev PAD_GPOE (i : Nat) : Nat := 0x109210 + i
/-- PAD_GPOE.OE, bits [31:0] (R567). -/
def PAD_GPOE_OE (i : Nat) : Fld := ⟨PAD_GPOE i, 31, 0⟩
/-- Address of register PAD_GPIN (R567). -/
abbrev PAD_GPIN (i : Nat) : Nat := 0x109220 + i
/-- PAD_GPIN.IN, bits [31:0] (R567). -/
def PAD_GPIN_IN (i : Nat) : Fld := ⟨PAD_GPIN i, 31, 0⟩
/-- Address of register PAD_LOCK (R567). -/
abbrev PAD_LOCK (i : Nat) : Nat := 0x109230 + i
/-- PAD_LOCK.LOCK, bits [31:0] (R567). -/
def PAD_LOCK_LOCK (i : Nat) : Fld := ⟨PAD_LOCK i, 31, 0⟩
/-- Address of register PAD_CTL (R567). -/
abbrev PAD_CTL : Nat := 0x109240
/-- PAD_CTL.CNTCLR, bits [31:31] (R567). -/
def PAD_CTL_CNTCLR : Fld := ⟨PAD_CTL, 31, 31⟩
/-- PAD_CTL.HOLDREL, bits [8:8] (R567). -/
def PAD_CTL_HOLDREL : Fld := ⟨PAD_CTL, 8, 8⟩
/-- PAD_CTL.LOCKKEY, bits [7:0] (R567). -/
def PAD_CTL_LOCKKEY : Fld := ⟨PAD_CTL, 7, 0⟩
/-- Address of register PAD_MUXEN (R567). -/
abbrev PAD_MUXEN : Nat := 0x109241
/-- PAD_MUXEN.UARTLOC, bits [3:3] (R567). -/
def PAD_MUXEN_UARTLOC : Fld := ⟨PAD_MUXEN, 3, 3⟩
/-- PAD_MUXEN.UARTEN, bits [2:2] (R567). -/
def PAD_MUXEN_UARTEN : Fld := ⟨PAD_MUXEN, 2, 2⟩
/-- PAD_MUXEN.RSALOC, bits [1:1] (R567). -/
def PAD_MUXEN_RSALOC : Fld := ⟨PAD_MUXEN, 1, 1⟩
/-- PAD_MUXEN.RSAEN, bits [0:0] (R567). -/
def PAD_MUXEN_RSAEN : Fld := ⟨PAD_MUXEN, 0, 0⟩
/-- Address of register PAD_EGSEL (R567). -/
abbrev PAD_EGSEL : Nat := 0x109242
/-- PAD_EGSEL.BIAS, bits [24:24] (R567). -/
def PAD_EGSEL_BIAS : Fld := ⟨PAD_EGSEL, 24, 24⟩
/-- PAD_EGSEL.PAD, bits [8:0] (R567). -/
def PAD_EGSEL_PAD : Fld := ⟨PAD_EGSEL, 8, 0⟩
/-- Address of register PAD_EGSTAT (R567). -/
abbrev PAD_EGSTAT : Nat := 0x109243
/-- PAD_EGSTAT.CODE, bits [9:0] (R567). -/
def PAD_EGSTAT_CODE : Fld := ⟨PAD_EGSTAT, 9, 0⟩
/-- Address of register PAD_STAT (R567). -/
abbrev PAD_STAT : Nat := 0x109244
/-- PAD_STAT.HELD, bits [31:31] (R567). -/
def PAD_STAT_HELD : Fld := ⟨PAD_STAT, 31, 31⟩
/-- PAD_STAT.LOCKDROP, bits [15:0] (R567). -/
def PAD_STAT_LOCKDROP : Fld := ⟨PAD_STAT, 15, 0⟩
/-- Address of register PAD_ASEL (R567). -/
abbrev PAD_ASEL : Nat := 0x109245
/-- PAD_ASEL.PAD, bits [8:0] (R567). -/
def PAD_ASEL_PAD : Fld := ⟨PAD_ASEL, 8, 0⟩
/-- Address of register PAD_AVAL (R567). -/
abbrev PAD_AVAL : Nat := 0x109246
/-- PAD_AVAL.VALID, bits [31:31] (R567). -/
def PAD_AVAL_VALID : Fld := ⟨PAD_AVAL, 31, 31⟩
/-- PAD_AVAL.CODE, bits [9:0] (R567). -/
def PAD_AVAL_CODE : Fld := ⟨PAD_AVAL, 9, 0⟩
/-- Address of register PAD_WAKE (R567). -/
abbrev PAD_WAKE (i : Nat) : Nat := 0x109248 + i
/-- PAD_WAKE.EN, bits [31:31] (R567). -/
def PAD_WAKE_EN (i : Nat) : Fld := ⟨PAD_WAKE i, 31, 31⟩
/-- PAD_WAKE.EDGE, bits [17:16] (R567). -/
def PAD_WAKE_EDGE (i : Nat) : Fld := ⟨PAD_WAKE i, 17, 16⟩
/-- PAD_WAKE.PAD, bits [8:0] (R567). -/
def PAD_WAKE_PAD (i : Nat) : Fld := ⟨PAD_WAKE i, 8, 0⟩
/-- Address of register PAD_BANK (R567). -/
abbrev PAD_BANK (i : Nat) : Nat := 0x109250 + i
/-- PAD_BANK.VIO, bits [0:0] (R567). -/
def PAD_BANK_VIO (i : Nat) : Fld := ⟨PAD_BANK i, 0, 0⟩
/-- Address of register PAD_UART (R567). -/
abbrev PAD_UART : Nat := 0x109260
/-- PAD_UART.RXV, bits [31:31] (R567). -/
def PAD_UART_RXV : Fld := ⟨PAD_UART, 31, 31⟩
/-- PAD_UART.TXF, bits [30:30] (R567). -/
def PAD_UART_TXF : Fld := ⟨PAD_UART, 30, 30⟩
/-- PAD_UART.BAUD, bits [19:16] (R567). -/
def PAD_UART_BAUD : Fld := ⟨PAD_UART, 19, 16⟩
/-- PAD_UART.DATA, bits [7:0] (R567). -/
def PAD_UART_DATA : Fld := ⟨PAD_UART, 7, 0⟩
/-- Address of register HS_ODCTL (R516). -/
abbrev HS_ODCTL : Nat := 0x10A000
/-- HS_ODCTL.CNTCLR, bits [31:31] (R516). -/
def HS_ODCTL_CNTCLR : Fld := ⟨HS_ODCTL, 31, 31⟩
/-- HS_ODCTL.FWTIME, bits [15:8] (R516). -/
def HS_ODCTL_FWTIME : Fld := ⟨HS_ODCTL, 15, 8⟩
/-- HS_ODCTL.FWEN, bits [1:1] (R516). -/
def HS_ODCTL_FWEN : Fld := ⟨HS_ODCTL, 1, 1⟩
/-- HS_ODCTL.GO, bits [0:0] (R516). -/
def HS_ODCTL_GO : Fld := ⟨HS_ODCTL, 0, 0⟩
/-- Address of register HS_ODREQ (R516). -/
abbrev HS_ODREQ : Nat := 0x10A001
/-- HS_ODREQ.CMD, bits [31:24] (R516). -/
def HS_ODREQ_CMD : Fld := ⟨HS_ODREQ, 31, 24⟩
/-- HS_ODREQ.SUB, bits [23:16] (R516). -/
def HS_ODREQ_SUB : Fld := ⟨HS_ODREQ, 23, 16⟩
/-- HS_ODREQ.INDEX, bits [15:0] (R516). -/
def HS_ODREQ_INDEX : Fld := ⟨HS_ODREQ, 15, 0⟩
/-- Address of register HS_ODBUF (R516). -/
abbrev HS_ODBUF : Nat := 0x10A002
/-- HS_ODBUF.BUF, bits [23:0] (R516). -/
def HS_ODBUF_BUF : Fld := ⟨HS_ODBUF, 23, 0⟩
/-- Address of register HS_ODLEN (R516). -/
abbrev HS_ODLEN : Nat := 0x10A003
/-- HS_ODLEN.LEN, bits [20:0] (R516). -/
def HS_ODLEN_LEN : Fld := ⟨HS_ODLEN, 20, 0⟩
/-- Address of register HS_ODSTAT (R516). -/
abbrev HS_ODSTAT : Nat := 0x10A004
/-- HS_ODSTAT.BUSY, bits [31:31] (R516). -/
def HS_ODSTAT_BUSY : Fld := ⟨HS_ODSTAT, 31, 31⟩
/-- HS_ODSTAT.BUSOFFEV, bits [3:3] (R516). -/
def HS_ODSTAT_BUSOFFEV : Fld := ⟨HS_ODSTAT, 3, 3⟩
/-- HS_ODSTAT.STOREEV, bits [2:2] (R516). -/
def HS_ODSTAT_STOREEV : Fld := ⟨HS_ODSTAT, 2, 2⟩
/-- HS_ODSTAT.FWEV, bits [1:1] (R516). -/
def HS_ODSTAT_FWEV : Fld := ⟨HS_ODSTAT, 1, 1⟩
/-- HS_ODSTAT.DONEEV, bits [0:0] (R516). -/
def HS_ODSTAT_DONEEV : Fld := ⟨HS_ODSTAT, 0, 0⟩
/-- Address of register HS_ODRES (R516). -/
abbrev HS_ODRES : Nat := 0x10A005
/-- HS_ODRES.STATUS, bits [31:0] (R516). -/
def HS_ODRES_STATUS : Fld := ⟨HS_ODRES, 31, 0⟩
/-- Address of register HS_ODFW0 (R516). -/
abbrev HS_ODFW0 : Nat := 0x10A008
/-- HS_ODFW0.CMD, bits [31:24] (R516). -/
def HS_ODFW0_CMD : Fld := ⟨HS_ODFW0, 31, 24⟩
/-- HS_ODFW0.SUB, bits [23:16] (R516). -/
def HS_ODFW0_SUB : Fld := ⟨HS_ODFW0, 23, 16⟩
/-- HS_ODFW0.INDEX, bits [15:0] (R516). -/
def HS_ODFW0_INDEX : Fld := ⟨HS_ODFW0, 15, 0⟩
/-- Address of register HS_ODFW1 (R516). -/
abbrev HS_ODFW1 : Nat := 0x10A009
/-- HS_ODFW1.VALID, bits [31:31] (R516). -/
def HS_ODFW1_VALID : Fld := ⟨HS_ODFW1, 31, 31⟩
/-- HS_ODFW1.CLASS, bits [30:28] (R516). -/
def HS_ODFW1_CLASS : Fld := ⟨HS_ODFW1, 30, 28⟩
/-- HS_ODFW1.EGR, bits [27:27] (R516). -/
def HS_ODFW1_EGR : Fld := ⟨HS_ODFW1, 27, 27⟩
/-- HS_ODFW1.LEN, bits [20:0] (R516). -/
def HS_ODFW1_LEN : Fld := ⟨HS_ODFW1, 20, 0⟩
/-- Address of register HS_ODSTG (R516). -/
abbrev HS_ODSTG : Nat := 0x10A00A
/-- HS_ODSTG.PAGES, bits [24:16] (R516). -/
def HS_ODSTG_PAGES : Fld := ⟨HS_ODSTG, 24, 16⟩
/-- HS_ODSTG.FIRST, bits [8:0] (R516). -/
def HS_ODSTG_FIRST : Fld := ⟨HS_ODSTG, 8, 0⟩
/-- Address of register HS_ODFWANS (R516). -/
abbrev HS_ODFWANS : Nat := 0x10A00B
/-- HS_ODFWANS.STATUS, bits [31:0] (R516). -/
def HS_ODFWANS_STATUS : Fld := ⟨HS_ODFWANS, 31, 0⟩
/-- Address of register HS_ODCNT (R516). -/
abbrev HS_ODCNT : Nat := 0x10A00C
/-- HS_ODCNT.REFUSED, bits [31:16] (R516). -/
def HS_ODCNT_REFUSED : Fld := ⟨HS_ODCNT, 31, 16⟩
/-- HS_ODCNT.SERVED, bits [15:0] (R516). -/
def HS_ODCNT_SERVED : Fld := ⟨HS_ODCNT, 15, 0⟩
/-- Address of register HS_SVCCTL (R516). -/
abbrev HS_SVCCTL : Nat := 0x10A010
/-- HS_SVCCTL.EN, bits [8:8] (R516). -/
def HS_SVCCTL_EN : Fld := ⟨HS_SVCCTL, 8, 8⟩
/-- HS_SVCCTL.DBR, bits [5:4] (R516). -/
def HS_SVCCTL_DBR : Fld := ⟨HS_SVCCTL, 5, 4⟩
/-- HS_SVCCTL.NBR, bits [1:0] (R516). -/
def HS_SVCCTL_NBR : Fld := ⟨HS_SVCCTL, 1, 0⟩
/-- Address of register HS_SVCSTAT (R516). -/
abbrev HS_SVCSTAT : Nat := 0x10A011
/-- HS_SVCSTAT.TEC, bits [31:24] (R516). -/
def HS_SVCSTAT_TEC : Fld := ⟨HS_SVCSTAT, 31, 24⟩
/-- HS_SVCSTAT.REC, bits [23:16] (R516). -/
def HS_SVCSTAT_REC : Fld := ⟨HS_SVCSTAT, 23, 16⟩
/-- HS_SVCSTAT.BSTATE, bits [1:0] (R516). -/
def HS_SVCSTAT_BSTATE : Fld := ⟨HS_SVCSTAT, 1, 0⟩
/-- Address of register HS_PWRCTL (R543). -/
abbrev HS_PWRCTL : Nat := 0x10B000
/-- HS_PWRCTL.REQ, bits [1:0] (R543). -/
def HS_PWRCTL_REQ : Fld := ⟨HS_PWRCTL, 1, 0⟩
/-- Address of register HS_PWRSTAT (R543). -/
abbrev HS_PWRSTAT : Nat := 0x10B001
/-- HS_PWRSTAT.LASTWAKE, bits [15:11] (R543). -/
def HS_PWRSTAT_LASTWAKE : Fld := ⟨HS_PWRSTAT, 15, 11⟩
/-- HS_PWRSTAT.BUSY, bits [10:10] (R543). -/
def HS_PWRSTAT_BUSY : Fld := ⟨HS_PWRSTAT, 10, 10⟩
/-- HS_PWRSTAT.EGRUN, bits [9:9] (R543). -/
def HS_PWRSTAT_EGRUN : Fld := ⟨HS_PWRSTAT, 9, 9⟩
/-- HS_PWRSTAT.FREEDARK, bits [8:8] (R543). -/
def HS_PWRSTAT_FREEDARK : Fld := ⟨HS_PWRSTAT, 8, 8⟩
/-- HS_PWRSTAT.REFEV, bits [7:7] (R543). -/
def HS_PWRSTAT_REFEV : Fld := ⟨HS_PWRSTAT, 7, 7⟩
/-- HS_PWRSTAT.WAKEEV, bits [6:6] (R543). -/
def HS_PWRSTAT_WAKEEV : Fld := ⟨HS_PWRSTAT, 6, 6⟩
/-- HS_PWRSTAT.STATE, bits [1:0] (R543). -/
def HS_PWRSTAT_STATE : Fld := ⟨HS_PWRSTAT, 1, 0⟩
/-- Address of register HS_PWRIMG (R543). -/
abbrev HS_PWRIMG : Nat := 0x10B002
/-- HS_PWRIMG.BASE, bits [31:16] (R543). -/
def HS_PWRIMG_BASE : Fld := ⟨HS_PWRIMG, 31, 16⟩
/-- Address of register HS_ISLTMR (R543). -/
abbrev HS_ISLTMR : Nat := 0x10B003
/-- HS_ISLTMR.SECONDS, bits [19:0] (R543). -/
def HS_ISLTMR_SECONDS : Fld := ⟨HS_ISLTMR, 19, 0⟩
/-- Address of register HS_SUPPLY (R568). -/
abbrev HS_SUPPLY : Nat := 0x10B004
/-- HS_SUPPLY.WARN, bits [31:31] (R568). -/
def HS_SUPPLY_WARN : Fld := ⟨HS_SUPPLY, 31, 31⟩
/-- HS_SUPPLY.WARNEV, bits [30:30] (R568). -/
def HS_SUPPLY_WARNEV : Fld := ⟨HS_SUPPLY, 30, 30⟩
/-- HS_SUPPLY.RECOVEV, bits [29:29] (R568). -/
def HS_SUPPLY_RECOVEV : Fld := ⟨HS_SUPPLY, 29, 29⟩
/-- HS_SUPPLY.SLOT, bits [21:16] (R568). -/
def HS_SUPPLY_SLOT : Fld := ⟨HS_SUPPLY, 21, 16⟩
/-- HS_SUPPLY.VIN, bits [15:0] (R568). -/
def HS_SUPPLY_VIN : Fld := ⟨HS_SUPPLY, 15, 0⟩
/-- Address of register HS_THERM (R568). -/
abbrev HS_THERM : Nat := 0x10B005
/-- HS_THERM.TDARK, bits [31:31] (R568). -/
def HS_THERM_TDARK : Fld := ⟨HS_THERM, 31, 31⟩
/-- HS_THERM.TWARNEV, bits [30:30] (R568). -/
def HS_THERM_TWARNEV : Fld := ⟨HS_THERM, 30, 30⟩
/-- HS_THERM.TDARKEV, bits [29:29] (R568). -/
def HS_THERM_TDARKEV : Fld := ⟨HS_THERM, 29, 29⟩
/-- HS_THERM.TSCAN, bits [23:16] (R568). -/
def HS_THERM_TSCAN : Fld := ⟨HS_THERM, 23, 16⟩
/-- HS_THERM.THOUSE, bits [15:8] (R568). -/
def HS_THERM_THOUSE : Fld := ⟨HS_THERM, 15, 8⟩
/-- Address of register HS_MEMCTL (R397). -/
abbrev HS_MEMCTL : Nat := 0x10C000
/-- HS_MEMCTL.CNTCLR, bits [31:31] (R397). -/
def HS_MEMCTL_CNTCLR : Fld := ⟨HS_MEMCTL, 31, 31⟩
/-- HS_MEMCTL.SCRUBDIV, bits [15:8] (R397). -/
def HS_MEMCTL_SCRUBDIV : Fld := ⟨HS_MEMCTL, 15, 8⟩
/-- HS_MEMCTL.SCRUBEN, bits [0:0] (R397). -/
def HS_MEMCTL_SCRUBEN : Fld := ⟨HS_MEMCTL, 0, 0⟩
/-- Address of register HS_MEMSTAT (R397). -/
abbrev HS_MEMSTAT : Nat := 0x10C001
/-- HS_MEMSTAT.MRREF, bits [31:24] (R397). -/
def HS_MEMSTAT_MRREF : Fld := ⟨HS_MEMSTAT, 31, 24⟩
/-- HS_MEMSTAT.INITBUSY, bits [4:4] (R397). -/
def HS_MEMSTAT_INITBUSY : Fld := ⟨HS_MEMSTAT, 4, 4⟩
/-- HS_MEMSTAT.REPEV, bits [3:3] (R397). -/
def HS_MEMSTAT_REPEV : Fld := ⟨HS_MEMSTAT, 3, 3⟩
/-- HS_MEMSTAT.PASSEV, bits [2:2] (R397). -/
def HS_MEMSTAT_PASSEV : Fld := ⟨HS_MEMSTAT, 2, 2⟩
/-- HS_MEMSTAT.UEEV, bits [1:1] (R397). -/
def HS_MEMSTAT_UEEV : Fld := ⟨HS_MEMSTAT, 1, 1⟩
/-- HS_MEMSTAT.CEEV, bits [0:0] (R397). -/
def HS_MEMSTAT_CEEV : Fld := ⟨HS_MEMSTAT, 0, 0⟩
/-- Address of register HS_CECNT (R397). -/
abbrev HS_CECNT : Nat := 0x10C002
/-- HS_CECNT.UE, bits [31:16] (R397). -/
def HS_CECNT_UE : Fld := ⟨HS_CECNT, 31, 16⟩
/-- HS_CECNT.CE, bits [15:0] (R397). -/
def HS_CECNT_CE : Fld := ⟨HS_CECNT, 15, 0⟩
/-- Address of register HS_UEADDR (R397). -/
abbrev HS_UEADDR : Nat := 0x10C003
/-- HS_UEADDR.MEM, bits [31:28] (R397). -/
def HS_UEADDR_MEM : Fld := ⟨HS_UEADDR, 31, 28⟩
/-- HS_UEADDR.ADDR, bits [23:0] (R397). -/
def HS_UEADDR_ADDR : Fld := ⟨HS_UEADDR, 23, 0⟩
/-- Address of register HS_CEADDR (R397). -/
abbrev HS_CEADDR : Nat := 0x10C004
/-- HS_CEADDR.MEM, bits [31:28] (R397). -/
def HS_CEADDR_MEM : Fld := ⟨HS_CEADDR, 31, 28⟩
/-- HS_CEADDR.ADDR, bits [23:0] (R397). -/
def HS_CEADDR_ADDR : Fld := ⟨HS_CEADDR, 23, 0⟩
/-- Address of register HS_MEMINIT (R397). -/
abbrev HS_MEMINIT : Nat := 0x10C005
/-- HS_MEMINIT.GO, bits [24:24] (R397). -/
def HS_MEMINIT_GO : Fld := ⟨HS_MEMINIT, 24, 24⟩
/-- HS_MEMINIT.LAST, bits [17:9] (R397). -/
def HS_MEMINIT_LAST : Fld := ⟨HS_MEMINIT, 17, 9⟩
/-- HS_MEMINIT.FIRST, bits [8:0] (R397). -/
def HS_MEMINIT_FIRST : Fld := ⟨HS_MEMINIT, 8, 0⟩
/-- Address of register HS_REPSTAT (R397). -/
abbrev HS_REPSTAT : Nat := 0x10C006
/-- HS_REPSTAT.SKIPPED, bits [7:0] (R397). -/
def HS_REPSTAT_SKIPPED : Fld := ⟨HS_REPSTAT, 7, 0⟩
/-- Address of register HS_WMAP (R397). -/
abbrev HS_WMAP (i : Nat) : Nat := 0x10C010 + i
/-- HS_WMAP.MAP, bits [31:0] (R397). -/
def HS_WMAP_MAP (i : Nat) : Fld := ⟨HS_WMAP i, 31, 0⟩
/-- Address of register SC_PERFSEL (R587). -/
abbrev SC_PERFSEL (i : Nat) : Nat := 0x200100 + 0x4 * i
/-- SC_PERFSEL.EN, bits [31:31] (R587). -/
def SC_PERFSEL_EN (i : Nat) : Fld := ⟨SC_PERFSEL i, 31, 31⟩
/-- SC_PERFSEL.CLR, bits [30:30] (R587). -/
def SC_PERFSEL_CLR (i : Nat) : Fld := ⟨SC_PERFSEL i, 30, 30⟩
/-- SC_PERFSEL.OVF, bits [8:8] (R587). -/
def SC_PERFSEL_OVF (i : Nat) : Fld := ⟨SC_PERFSEL i, 8, 8⟩
/-- SC_PERFSEL.EVENT, bits [7:0] (R587). -/
def SC_PERFSEL_EVENT (i : Nat) : Fld := ⟨SC_PERFSEL i, 7, 0⟩
/-- Address of register SC_PERFLO (R587). -/
abbrev SC_PERFLO (i : Nat) : Nat := 0x200101 + 0x4 * i
/-- SC_PERFLO.COUNT, bits [31:0] (R587). -/
def SC_PERFLO_COUNT (i : Nat) : Fld := ⟨SC_PERFLO i, 31, 0⟩
/-- Address of register SC_PERFHI (R587). -/
abbrev SC_PERFHI (i : Nat) : Nat := 0x200102 + 0x4 * i
/-- SC_PERFHI.COUNT, bits [15:0] (R587). -/
def SC_PERFHI_COUNT (i : Nat) : Fld := ⟨SC_PERFHI i, 15, 0⟩
/-- Address of register SC_BEAMCTL (R94). -/
abbrev SC_BEAMCTL : Nat := 0x210000
/-- SC_BEAMCTL.LDIV, bits [23:16] (R94). -/
def SC_BEAMCTL_LDIV : Fld := ⟨SC_BEAMCTL, 23, 16⟩
/-- SC_BEAMCTL.STEPTHR, bits [15:12] (R94). -/
def SC_BEAMCTL_STEPTHR : Fld := ⟨SC_BEAMCTL, 15, 12⟩
/-- SC_BEAMCTL.FREEACT, bits [11:10] (R94). -/
def SC_BEAMCTL_FREEACT : Fld := ⟨SC_BEAMCTL, 11, 10⟩
/-- SC_BEAMCTL.ROLE, bits [9:8] (R94). -/
def SC_BEAMCTL_ROLE : Fld := ⟨SC_BEAMCTL, 9, 8⟩
/-- SC_BEAMCTL.REFLC, bits [7:7] (R94). -/
def SC_BEAMCTL_REFLC : Fld := ⟨SC_BEAMCTL, 7, 7⟩
/-- SC_BEAMCTL.REFCMOS, bits [6:6] (R94). -/
def SC_BEAMCTL_REFCMOS : Fld := ⟨SC_BEAMCTL, 6, 6⟩
/-- SC_BEAMCTL.REFEDGE, bits [5:5] (R94). -/
def SC_BEAMCTL_REFEDGE : Fld := ⟨SC_BEAMCTL, 5, 5⟩
/-- SC_BEAMCTL.CNTCLR, bits [3:3] (R94). -/
def SC_BEAMCTL_CNTCLR : Fld := ⟨SC_BEAMCTL, 3, 3⟩
/-- SC_BEAMCTL.REACQ, bits [1:1] (R94). -/
def SC_BEAMCTL_REACQ : Fld := ⟨SC_BEAMCTL, 1, 1⟩
/-- SC_BEAMCTL.EN, bits [0:0] (R94). -/
def SC_BEAMCTL_EN : Fld := ⟨SC_BEAMCTL, 0, 0⟩
/-- Address of register SC_BEAMFMT (R95). -/
abbrev SC_BEAMFMT : Nat := 0x210001
/-- SC_BEAMFMT.BLANK, bits [28:16] (R95). -/
def SC_BEAMFMT_BLANK : Fld := ⟨SC_BEAMFMT, 28, 16⟩
/-- SC_BEAMFMT.ACTIVE, bits [15:0] (R95). -/
def SC_BEAMFMT_ACTIVE : Fld := ⟨SC_BEAMFMT, 15, 0⟩
/-- Address of register SC_BEAMPER (R95). -/
abbrev SC_BEAMPER : Nat := 0x210002
/-- SC_BEAMPER.TICKS, bits [31:8] (R95). -/
def SC_BEAMPER_TICKS : Fld := ⟨SC_BEAMPER, 31, 8⟩
/-- SC_BEAMPER.TFRAC, bits [7:0] (R95). -/
def SC_BEAMPER_TFRAC : Fld := ⟨SC_BEAMPER, 7, 0⟩
/-- Address of register SC_BEAMPOS_LO (R96). -/
abbrev SC_BEAMPOS_LO : Nat := 0x210003
/-- SC_BEAMPOS_LO.POS, bits [31:0] (R96). -/
def SC_BEAMPOS_LO_POS : Fld := ⟨SC_BEAMPOS_LO, 31, 0⟩
/-- Address of register SC_BEAMPOS_HI (R96). -/
abbrev SC_BEAMPOS_HI : Nat := 0x210004
/-- SC_BEAMPOS_HI.FRAME, bits [31:0] (R96). -/
def SC_BEAMPOS_HI_FRAME : Fld := ⟨SC_BEAMPOS_HI, 31, 0⟩
/-- Address of register SC_BEAMSTAT (R97). -/
abbrev SC_BEAMSTAT : Nat := 0x210005
/-- SC_BEAMSTAT.HOPS, bits [31:24] (R97). -/
def SC_BEAMSTAT_HOPS : Fld := ⟨SC_BEAMSTAT, 31, 24⟩
/-- SC_BEAMSTAT.LINEX, bits [23:23] (R97). -/
def SC_BEAMSTAT_LINEX : Fld := ⟨SC_BEAMSTAT, 23, 23⟩
/-- SC_BEAMSTAT.VBL, bits [22:22] (R97). -/
def SC_BEAMSTAT_VBL : Fld := ⟨SC_BEAMSTAT, 22, 22⟩
/-- SC_BEAMSTAT.SRCALT, bits [21:21] (R97). -/
def SC_BEAMSTAT_SRCALT : Fld := ⟨SC_BEAMSTAT, 21, 21⟩
/-- SC_BEAMSTAT.SRCSTATE, bits [20:19] (R97). -/
def SC_BEAMSTAT_SRCSTATE : Fld := ⟨SC_BEAMSTAT, 20, 19⟩
/-- SC_BEAMSTAT.FARHOP, bits [18:18] (R97). -/
def SC_BEAMSTAT_FARHOP : Fld := ⟨SC_BEAMSTAT, 18, 18⟩
/-- SC_BEAMSTAT.FREEEV, bits [15:15] (R97). -/
def SC_BEAMSTAT_FREEEV : Fld := ⟨SC_BEAMSTAT, 15, 15⟩
/-- SC_BEAMSTAT.HOLDEV, bits [14:14] (R97). -/
def SC_BEAMSTAT_HOLDEV : Fld := ⟨SC_BEAMSTAT, 14, 14⟩
/-- SC_BEAMSTAT.STEPEV, bits [13:13] (R97). -/
def SC_BEAMSTAT_STEPEV : Fld := ⟨SC_BEAMSTAT, 13, 13⟩
/-- SC_BEAMSTAT.LOCKEV, bits [12:12] (R97). -/
def SC_BEAMSTAT_LOCKEV : Fld := ⟨SC_BEAMSTAT, 12, 12⟩
/-- SC_BEAMSTAT.LATELINE, bits [11:11] (R97). -/
def SC_BEAMSTAT_LATELINE : Fld := ⟨SC_BEAMSTAT, 11, 11⟩
/-- SC_BEAMSTAT.REFMIS, bits [10:10] (R97). -/
def SC_BEAMSTAT_REFMIS : Fld := ⟨SC_BEAMSTAT, 10, 10⟩
/-- SC_BEAMSTAT.STATE, bits [2:0] (R97). -/
def SC_BEAMSTAT_STATE : Fld := ⟨SC_BEAMSTAT, 2, 0⟩
/-- Address of register SC_BEACNT (R98). -/
abbrev SC_BEACNT : Nat := 0x210006
/-- SC_BEACNT.DISCARD, bits [31:24] (R98). -/
def SC_BEACNT_DISCARD : Fld := ⟨SC_BEACNT, 31, 24⟩
/-- SC_BEACNT.OUTLIER, bits [23:16] (R98). -/
def SC_BEACNT_OUTLIER : Fld := ⟨SC_BEACNT, 23, 16⟩
/-- SC_BEACNT.ACCEPT, bits [15:0] (R98). -/
def SC_BEACNT_ACCEPT : Fld := ⟨SC_BEACNT, 15, 0⟩
/-- Address of register SC_BEAMERR (R98). -/
abbrev SC_BEAMERR : Nat := 0x210007
/-- SC_BEAMERR.PHERR, bits [31:0] (R98). -/
def SC_BEAMERR_PHERR : Fld := ⟨SC_BEAMERR, 31, 0⟩
/-- Address of register SC_PRESENT (R99). -/
abbrev SC_PRESENT : Nat := 0x210008
/-- SC_PRESENT.MODE, bits [31:31] (R99). -/
def SC_PRESENT_MODE : Fld := ⟨SC_PRESENT, 31, 31⟩
/-- SC_PRESENT.FLIPADV, bits [28:16] (R99). -/
def SC_PRESENT_FLIPADV : Fld := ⟨SC_PRESENT, 28, 16⟩
/-- SC_PRESENT.LEAD, bits [15:0] (R99). -/
def SC_PRESENT_LEAD : Fld := ⟨SC_PRESENT, 15, 0⟩
/-- Address of register SC_LEADMAX (R99). -/
abbrev SC_LEADMAX : Nat := 0x210009
/-- SC_LEADMAX.MARGIN, bits [31:16] (R99). -/
def SC_LEADMAX_MARGIN : Fld := ⟨SC_LEADMAX, 31, 16⟩
/-- SC_LEADMAX.LEADMAX, bits [15:0] (R99). -/
def SC_LEADMAX_LEADMAX : Fld := ⟨SC_LEADMAX, 15, 0⟩
/-- Address of register SC_REFDLY (R98). -/
abbrev SC_REFDLY : Nat := 0x21000A
/-- SC_REFDLY.REFDLY, bits [15:0] (R98). -/
def SC_REFDLY_REFDLY : Fld := ⟨SC_REFDLY, 15, 0⟩
/-- Address of register SC_LEADSTAT (R99). -/
abbrev SC_LEADSTAT : Nat := 0x21000B
/-- SC_LEADSTAT.OVER, bits [31:31] (R99). -/
def SC_LEADSTAT_OVER : Fld := ⟨SC_LEADSTAT, 31, 31⟩
/-- SC_LEADSTAT.RAISED, bits [30:30] (R99). -/
def SC_LEADSTAT_RAISED : Fld := ⟨SC_LEADSTAT, 30, 30⟩
/-- SC_LEADSTAT.AMODE, bits [29:29] (R99). -/
def SC_LEADSTAT_AMODE : Fld := ⟨SC_LEADSTAT, 29, 29⟩
/-- SC_LEADSTAT.AFLIPADV, bits [28:16] (R99). -/
def SC_LEADSTAT_AFLIPADV : Fld := ⟨SC_LEADSTAT, 28, 16⟩
/-- SC_LEADSTAT.LEADMIN, bits [15:0] (R99). -/
def SC_LEADSTAT_LEADMIN : Fld := ⟨SC_LEADSTAT, 15, 0⟩
/-- Address of register SC_BEAMWM (R100). -/
abbrev SC_BEAMWM (i : Nat) : Nat := 0x210010 + i
/-- SC_BEAMWM.EN, bits [31:31] (R100). -/
def SC_BEAMWM_EN (i : Nat) : Fld := ⟨SC_BEAMWM i, 31, 31⟩
/-- SC_BEAMWM.ONCE, bits [30:30] (R100). -/
def SC_BEAMWM_ONCE (i : Nat) : Fld := ⟨SC_BEAMWM i, 30, 30⟩
/-- SC_BEAMWM.LINE, bits [24:8] (R100). -/
def SC_BEAMWM_LINE (i : Nat) : Fld := ⟨SC_BEAMWM i, 24, 8⟩
/-- SC_BEAMWM.FRAC, bits [7:0] (R100). -/
def SC_BEAMWM_FRAC (i : Nat) : Fld := ⟨SC_BEAMWM i, 7, 0⟩
/-- Address of register SC_LDW0 (R145). -/
abbrev SC_LDW0 (i : Nat) (j : Nat) : Nat := 0x220000 + 0x100 * i + 0x10 * j
/-- SC_LDW0.EN, bits [0:0] (R145). -/
def SC_LDW0_EN (i : Nat) (j : Nat) : Fld := ⟨SC_LDW0 i j, 0, 0⟩
/-- SC_LDW0.KIND, bits [3:1] (R145). -/
def SC_LDW0_KIND (i : Nat) (j : Nat) : Fld := ⟨SC_LDW0 i j, 3, 1⟩
/-- SC_LDW0.BLEND, bits [6:4] (R145). -/
def SC_LDW0_BLEND (i : Nat) (j : Nat) : Fld := ⟨SC_LDW0 i j, 6, 4⟩
/-- SC_LDW0.ORDER, bits [10:7] (R145). -/
def SC_LDW0_ORDER (i : Nat) (j : Nat) : Fld := ⟨SC_LDW0 i j, 10, 7⟩
/-- SC_LDW0.XFER, bits [13:11] (R145). -/
def SC_LDW0_XFER (i : Nat) (j : Nat) : Fld := ⟨SC_LDW0 i j, 13, 11⟩
/-- SC_LDW0.PRIM, bits [14:14] (R145). -/
def SC_LDW0_PRIM (i : Nat) (j : Nat) : Fld := ⟨SC_LDW0 i j, 14, 14⟩
/-- SC_LDW0.PBANK, bits [16:15] (R145). -/
def SC_LDW0_PBANK (i : Nat) (j : Nat) : Fld := ⟨SC_LDW0 i j, 16, 15⟩
/-- SC_LDW0.YCCMAT, bits [17:17] (R145). -/
def SC_LDW0_YCCMAT (i : Nat) (j : Nat) : Fld := ⟨SC_LDW0 i j, 17, 17⟩
/-- SC_LDW0.NARROW, bits [18:18] (R145). -/
def SC_LDW0_NARROW (i : Nat) (j : Nat) : Fld := ⟨SC_LDW0 i j, 18, 18⟩
/-- Address of register SC_LDW1 (R145). -/
abbrev SC_LDW1 (i : Nat) (j : Nat) : Nat := 0x220001 + 0x100 * i + 0x10 * j
/-- SC_LDW1.CALPHA, bits [15:0] (R145). -/
def SC_LDW1_CALPHA (i : Nat) (j : Nat) : Fld := ⟨SC_LDW1 i j, 15, 0⟩
/-- Address of register SC_LDW2 (R145). -/
abbrev SC_LDW2 (i : Nat) (j : Nat) : Nat := 0x220002 + 0x100 * i + 0x10 * j
/-- SC_LDW2.DX, bits [17:0] (R145). -/
def SC_LDW2_DX (i : Nat) (j : Nat) : Fld := ⟨SC_LDW2 i j, 17, 0⟩
/-- Address of register SC_LDW3 (R145). -/
abbrev SC_LDW3 (i : Nat) (j : Nat) : Nat := 0x220003 + 0x100 * i + 0x10 * j
/-- SC_LDW3.DY, bits [15:0] (R145). -/
def SC_LDW3_DY (i : Nat) (j : Nat) : Fld := ⟨SC_LDW3 i j, 15, 0⟩
/-- Address of register SC_LDW4 (R145). -/
abbrev SC_LDW4 (i : Nat) (j : Nat) : Nat := 0x220004 + 0x100 * i + 0x10 * j
/-- SC_LDW4.DWM1, bits [17:0] (R145). -/
def SC_LDW4_DWM1 (i : Nat) (j : Nat) : Fld := ⟨SC_LDW4 i j, 17, 0⟩
/-- Address of register SC_LDW5 (R145). -/
abbrev SC_LDW5 (i : Nat) (j : Nat) : Nat := 0x220005 + 0x100 * i + 0x10 * j
/-- SC_LDW5.DHM1, bits [15:0] (R145). -/
def SC_LDW5_DHM1 (i : Nat) (j : Nat) : Fld := ⟨SC_LDW5 i j, 15, 0⟩
/-- Address of register SC_LDW6 (R145). -/
abbrev SC_LDW6 (i : Nat) (j : Nat) : Nat := 0x220006 + 0x100 * i + 0x10 * j
/-- SC_LDW6.SRC, bits [31:0] (R145). -/
def SC_LDW6_SRC (i : Nat) (j : Nat) : Fld := ⟨SC_LDW6 i j, 31, 0⟩
/-- Address of register SC_LDW7 (R145). -/
abbrev SC_LDW7 (i : Nat) (j : Nat) : Nat := 0x220007 + 0x100 * i + 0x10 * j
/-- SC_LDW7.SX, bits [19:0] (R145). -/
def SC_LDW7_SX (i : Nat) (j : Nat) : Fld := ⟨SC_LDW7 i j, 19, 0⟩
/-- Address of register SC_LDW8 (R145). -/
abbrev SC_LDW8 (i : Nat) (j : Nat) : Nat := 0x220008 + 0x100 * i + 0x10 * j
/-- SC_LDW8.SY, bits [17:0] (R145). -/
def SC_LDW8_SY (i : Nat) (j : Nat) : Fld := ⟨SC_LDW8 i j, 17, 0⟩
/-- Address of register SC_LDW9 (R145). -/
abbrev SC_LDW9 (i : Nat) (j : Nat) : Nat := 0x220009 + 0x100 * i + 0x10 * j
/-- SC_LDW9.VHM1, bits [29:16] (R145). -/
def SC_LDW9_VHM1 (i : Nat) (j : Nat) : Fld := ⟨SC_LDW9 i j, 29, 16⟩
/-- SC_LDW9.VWM1, bits [13:0] (R145). -/
def SC_LDW9_VWM1 (i : Nat) (j : Nat) : Fld := ⟨SC_LDW9 i j, 13, 0⟩
/-- Address of register SC_LDW10 (R145). -/
abbrev SC_LDW10 (i : Nat) (j : Nat) : Nat := 0x22000A + 0x100 * i + 0x10 * j
/-- SC_LDW10.VPITCH, bits [31:0] (R145). -/
def SC_LDW10_VPITCH (i : Nat) (j : Nat) : Fld := ⟨SC_LDW10 i j, 31, 0⟩
/-- Address of register SC_LDW11 (R145). -/
abbrev SC_LDW11 (i : Nat) (j : Nat) : Nat := 0x22000B + 0x100 * i + 0x10 * j
/-- SC_LDW11.VFMT, bits [1:0] (R145). -/
def SC_LDW11_VFMT (i : Nat) (j : Nat) : Fld := ⟨SC_LDW11 i j, 1, 0⟩
/-- Address of register SC_LDW12 (R145). -/
abbrev SC_LDW12 (i : Nat) (j : Nat) : Nat := 0x22000C + 0x100 * i + 0x10 * j
/-- SC_LDW12.HSTEP, bits [19:0] (R145). -/
def SC_LDW12_HSTEP (i : Nat) (j : Nat) : Fld := ⟨SC_LDW12 i j, 19, 0⟩
/-- Address of register SC_LDW13 (R145). -/
abbrev SC_LDW13 (i : Nat) (j : Nat) : Nat := 0x22000D + 0x100 * i + 0x10 * j
/-- SC_LDW13.VSTEP, bits [19:0] (R145). -/
def SC_LDW13_VSTEP (i : Nat) (j : Nat) : Fld := ⟨SC_LDW13 i j, 19, 0⟩
/-- Address of register SC_LDW14 (R145). -/
abbrev SC_LDW14 (i : Nat) (j : Nat) : Nat := 0x22000E + 0x100 * i + 0x10 * j
/-- SC_LDW14.VPHASE0, bits [31:16] (R145). -/
def SC_LDW14_VPHASE0 (i : Nat) (j : Nat) : Fld := ⟨SC_LDW14 i j, 31, 16⟩
/-- SC_LDW14.HPHASE0, bits [15:0] (R145). -/
def SC_LDW14_HPHASE0 (i : Nat) (j : Nat) : Fld := ⟨SC_LDW14 i j, 15, 0⟩
/-- Address of register SC_LDW15 (R145). -/
abbrev SC_LDW15 (i : Nat) (j : Nat) : Nat := 0x22000F + 0x100 * i + 0x10 * j
/-- SC_LDW15.FENCE, bits [7:0] (R145). -/
def SC_LDW15_FENCE (i : Nat) (j : Nat) : Fld := ⟨SC_LDW15 i j, 7, 0⟩
/-- Address of register SC_LDA (R143). -/
abbrev SC_LDA (i : Nat) (j : Nat) (k : Nat) : Nat := 0x228000 + 0x100 * i + 0x10 * j + k
/-- SC_LDA.WORD, bits [31:0] (R143). -/
def SC_LDA_WORD (i : Nat) (j : Nat) (k : Nat) : Fld := ⟨SC_LDA i j k, 31, 0⟩
/-- Address of register SC_SBW0 (R166). -/
abbrev SC_SBW0 (i : Nat) : Nat := 0x220400 + 0x10 * i
/-- SC_SBW0.EN, bits [0:0] (R166). -/
def SC_SBW0_EN (i : Nat) : Fld := ⟨SC_SBW0 i, 0, 0⟩
/-- SC_SBW0.KIND, bits [3:1] (R166). -/
def SC_SBW0_KIND (i : Nat) : Fld := ⟨SC_SBW0 i, 3, 1⟩
/-- SC_SBW0.BLEND, bits [6:4] (R166). -/
def SC_SBW0_BLEND (i : Nat) : Fld := ⟨SC_SBW0 i, 6, 4⟩
/-- SC_SBW0.ORDER, bits [10:7] (R166). -/
def SC_SBW0_ORDER (i : Nat) : Fld := ⟨SC_SBW0 i, 10, 7⟩
/-- SC_SBW0.XFER, bits [13:11] (R166). -/
def SC_SBW0_XFER (i : Nat) : Fld := ⟨SC_SBW0 i, 13, 11⟩
/-- SC_SBW0.PRIM, bits [14:14] (R166). -/
def SC_SBW0_PRIM (i : Nat) : Fld := ⟨SC_SBW0 i, 14, 14⟩
/-- SC_SBW0.PBANK, bits [16:15] (R166). -/
def SC_SBW0_PBANK (i : Nat) : Fld := ⟨SC_SBW0 i, 16, 15⟩
/-- SC_SBW0.YCCMAT, bits [17:17] (R166). -/
def SC_SBW0_YCCMAT (i : Nat) : Fld := ⟨SC_SBW0 i, 17, 17⟩
/-- SC_SBW0.NARROW, bits [18:18] (R166). -/
def SC_SBW0_NARROW (i : Nat) : Fld := ⟨SC_SBW0 i, 18, 18⟩
/-- Address of register SC_SBW1 (R166). -/
abbrev SC_SBW1 (i : Nat) : Nat := 0x220401 + 0x10 * i
/-- SC_SBW1.CALPHA, bits [15:0] (R166). -/
def SC_SBW1_CALPHA (i : Nat) : Fld := ⟨SC_SBW1 i, 15, 0⟩
/-- Address of register SC_SBW2 (R166). -/
abbrev SC_SBW2 (i : Nat) : Nat := 0x220402 + 0x10 * i
/-- SC_SBW2.DX, bits [17:0] (R166). -/
def SC_SBW2_DX (i : Nat) : Fld := ⟨SC_SBW2 i, 17, 0⟩
/-- Address of register SC_SBW3 (R166). -/
abbrev SC_SBW3 (i : Nat) : Nat := 0x220403 + 0x10 * i
/-- SC_SBW3.DY, bits [15:0] (R166). -/
def SC_SBW3_DY (i : Nat) : Fld := ⟨SC_SBW3 i, 15, 0⟩
/-- Address of register SC_SBW4 (R166). -/
abbrev SC_SBW4 (i : Nat) : Nat := 0x220404 + 0x10 * i
/-- SC_SBW4.DWM1, bits [17:0] (R166). -/
def SC_SBW4_DWM1 (i : Nat) : Fld := ⟨SC_SBW4 i, 17, 0⟩
/-- Address of register SC_SBW5 (R166). -/
abbrev SC_SBW5 (i : Nat) : Nat := 0x220405 + 0x10 * i
/-- SC_SBW5.DHM1, bits [15:0] (R166). -/
def SC_SBW5_DHM1 (i : Nat) : Fld := ⟨SC_SBW5 i, 15, 0⟩
/-- Address of register SC_SBW6 (R166). -/
abbrev SC_SBW6 (i : Nat) : Nat := 0x220406 + 0x10 * i
/-- SC_SBW6.SRC, bits [31:0] (R166). -/
def SC_SBW6_SRC (i : Nat) : Fld := ⟨SC_SBW6 i, 31, 0⟩
/-- Address of register SC_SBW7 (R166). -/
abbrev SC_SBW7 (i : Nat) : Nat := 0x220407 + 0x10 * i
/-- SC_SBW7.SX, bits [19:0] (R166). -/
def SC_SBW7_SX (i : Nat) : Fld := ⟨SC_SBW7 i, 19, 0⟩
/-- Address of register SC_SBW8 (R166). -/
abbrev SC_SBW8 (i : Nat) : Nat := 0x220408 + 0x10 * i
/-- SC_SBW8.SY, bits [17:0] (R166). -/
def SC_SBW8_SY (i : Nat) : Fld := ⟨SC_SBW8 i, 17, 0⟩
/-- Address of register SC_SBW9 (R166). -/
abbrev SC_SBW9 (i : Nat) : Nat := 0x220409 + 0x10 * i
/-- SC_SBW9.VHM1, bits [29:16] (R166). -/
def SC_SBW9_VHM1 (i : Nat) : Fld := ⟨SC_SBW9 i, 29, 16⟩
/-- SC_SBW9.VWM1, bits [13:0] (R166). -/
def SC_SBW9_VWM1 (i : Nat) : Fld := ⟨SC_SBW9 i, 13, 0⟩
/-- Address of register SC_SBW10 (R166). -/
abbrev SC_SBW10 (i : Nat) : Nat := 0x22040A + 0x10 * i
/-- SC_SBW10.VPITCH, bits [31:0] (R166). -/
def SC_SBW10_VPITCH (i : Nat) : Fld := ⟨SC_SBW10 i, 31, 0⟩
/-- Address of register SC_SBW11 (R166). -/
abbrev SC_SBW11 (i : Nat) : Nat := 0x22040B + 0x10 * i
/-- SC_SBW11.VFMT, bits [1:0] (R166). -/
def SC_SBW11_VFMT (i : Nat) : Fld := ⟨SC_SBW11 i, 1, 0⟩
/-- Address of register SC_SBW12 (R166). -/
abbrev SC_SBW12 (i : Nat) : Nat := 0x22040C + 0x10 * i
/-- SC_SBW12.HSTEP, bits [19:0] (R166). -/
def SC_SBW12_HSTEP (i : Nat) : Fld := ⟨SC_SBW12 i, 19, 0⟩
/-- Address of register SC_SBW13 (R166). -/
abbrev SC_SBW13 (i : Nat) : Nat := 0x22040D + 0x10 * i
/-- SC_SBW13.VSTEP, bits [19:0] (R166). -/
def SC_SBW13_VSTEP (i : Nat) : Fld := ⟨SC_SBW13 i, 19, 0⟩
/-- Address of register SC_SBW14 (R166). -/
abbrev SC_SBW14 (i : Nat) : Nat := 0x22040E + 0x10 * i
/-- SC_SBW14.VPHASE0, bits [31:16] (R166). -/
def SC_SBW14_VPHASE0 (i : Nat) : Fld := ⟨SC_SBW14 i, 31, 16⟩
/-- SC_SBW14.HPHASE0, bits [15:0] (R166). -/
def SC_SBW14_HPHASE0 (i : Nat) : Fld := ⟨SC_SBW14 i, 15, 0⟩
/-- Address of register SC_SBW15 (R166). -/
abbrev SC_SBW15 (i : Nat) : Nat := 0x22040F + 0x10 * i
/-- SC_SBW15.FENCE, bits [7:0] (R166). -/
def SC_SBW15_FENCE (i : Nat) : Fld := ⟨SC_SBW15 i, 7, 0⟩
/-- Address of register SC_SBCTL (R194). -/
abbrev SC_SBCTL : Nat := 0x220440
/-- SC_SBCTL.INVAL, bits [4:4] (R194). -/
def SC_SBCTL_INVAL : Fld := ⟨SC_SBCTL, 4, 4⟩
/-- SC_SBCTL.MEMBERS, bits [3:0] (R194). -/
def SC_SBCTL_MEMBERS : Fld := ⟨SC_SBCTL, 3, 0⟩
/-- Address of register SC_SBBASE (R194). -/
abbrev SC_SBBASE : Nat := 0x220441
/-- SC_SBBASE.BASE, bits [31:12] (R194). -/
def SC_SBBASE_BASE : Fld := ⟨SC_SBBASE, 31, 12⟩
/-- Address of register SC_SBSTAT (R194). -/
abbrev SC_SBSTAT : Nat := 0x220442
/-- SC_SBSTAT.VALID, bits [15:15] (R194). -/
def SC_SBSTAT_VALID : Fld := ⟨SC_SBSTAT, 15, 15⟩
/-- SC_SBSTAT.LIVE, bits [14:14] (R194). -/
def SC_SBSTAT_LIVE : Fld := ⟨SC_SBSTAT, 14, 14⟩
/-- SC_SBSTAT.SHORT, bits [13:13] (R194). -/
def SC_SBSTAT_SHORT : Fld := ⟨SC_SBSTAT, 13, 13⟩
/-- SC_SBSTAT.INVEV, bits [12:12] (R194). -/
def SC_SBSTAT_INVEV : Fld := ⟨SC_SBSTAT, 12, 12⟩
/-- SC_SBSTAT.VALEV, bits [11:11] (R194). -/
def SC_SBSTAT_VALEV : Fld := ⟨SC_SBSTAT, 11, 11⟩
/-- Address of register SC_CURW0 (R162). -/
abbrev SC_CURW0 (i : Nat) (j : Nat) : Nat := 0x220500 + 0x20 * i + 0x4 * j
/-- SC_CURW0.HOTY, bits [16:11] (R162). -/
def SC_CURW0_HOTY (i : Nat) (j : Nat) : Fld := ⟨SC_CURW0 i j, 16, 11⟩
/-- SC_CURW0.HOTX, bits [10:5] (R162). -/
def SC_CURW0_HOTX (i : Nat) (j : Nat) : Fld := ⟨SC_CURW0 i j, 10, 5⟩
/-- SC_CURW0.PRIO, bits [4:1] (R162). -/
def SC_CURW0_PRIO (i : Nat) (j : Nat) : Fld := ⟨SC_CURW0 i j, 4, 1⟩
/-- SC_CURW0.EN, bits [0:0] (R162). -/
def SC_CURW0_EN (i : Nat) (j : Nat) : Fld := ⟨SC_CURW0 i j, 0, 0⟩
/-- Address of register SC_CURW1 (R162). -/
abbrev SC_CURW1 (i : Nat) (j : Nat) : Nat := 0x220501 + 0x20 * i + 0x4 * j
/-- SC_CURW1.X, bits [18:0] (R162). -/
def SC_CURW1_X (i : Nat) (j : Nat) : Fld := ⟨SC_CURW1 i j, 18, 0⟩
/-- Address of register SC_CURW2 (R162). -/
abbrev SC_CURW2 (i : Nat) (j : Nat) : Nat := 0x220502 + 0x20 * i + 0x4 * j
/-- SC_CURW2.Y, bits [16:0] (R162). -/
def SC_CURW2_Y (i : Nat) (j : Nat) : Fld := ⟨SC_CURW2 i j, 16, 0⟩
/-- Address of register SC_CURW3 (R162). -/
abbrev SC_CURW3 (i : Nat) (j : Nat) : Nat := 0x220503 + 0x20 * i + 0x4 * j
/-- SC_CURW3.IMG, bits [31:0] (R162). -/
def SC_CURW3_IMG (i : Nat) (j : Nat) : Fld := ⟨SC_CURW3 i j, 31, 0⟩
/-- Address of register SC_CPCTL (R195). -/
abbrev SC_CPCTL : Nat := 0x220600
/-- SC_CPCTL.MATEN, bits [2:2] (R195). -/
def SC_CPCTL_MATEN : Fld := ⟨SC_CPCTL, 2, 2⟩
/-- SC_CPCTL.LUTEN, bits [1:1] (R195). -/
def SC_CPCTL_LUTEN : Fld := ⟨SC_CPCTL, 1, 1⟩
/-- SC_CPCTL.LUTSEL, bits [0:0] (R195). -/
def SC_CPCTL_LUTSEL : Fld := ⟨SC_CPCTL, 0, 0⟩
/-- Address of register SC_PEAK (R195). -/
abbrev SC_PEAK : Nat := 0x220601
/-- SC_PEAK.SDRWHITE, bits [31:16] (R195). -/
def SC_PEAK_SDRWHITE : Fld := ⟨SC_PEAK, 31, 16⟩
/-- SC_PEAK.PEAKNITS, bits [15:0] (R195). -/
def SC_PEAK_PEAKNITS : Fld := ⟨SC_PEAK, 15, 0⟩
/-- Address of register SC_HLG (R195). -/
abbrev SC_HLG : Nat := 0x220602
/-- SC_HLG.SYSGAMMA, bits [9:0] (R195). -/
def SC_HLG_SYSGAMMA : Fld := ⟨SC_HLG, 9, 0⟩
/-- Address of register SC_BGCOLOUR0 (R195). -/
abbrev SC_BGCOLOUR0 : Nat := 0x220603
/-- SC_BGCOLOUR0.G, bits [31:16] (R195). -/
def SC_BGCOLOUR0_G : Fld := ⟨SC_BGCOLOUR0, 31, 16⟩
/-- SC_BGCOLOUR0.R, bits [15:0] (R195). -/
def SC_BGCOLOUR0_R : Fld := ⟨SC_BGCOLOUR0, 15, 0⟩
/-- Address of register SC_BGCOLOUR1 (R195). -/
abbrev SC_BGCOLOUR1 : Nat := 0x220604
/-- SC_BGCOLOUR1.B, bits [15:0] (R195). -/
def SC_BGCOLOUR1_B : Fld := ⟨SC_BGCOLOUR1, 15, 0⟩
/-- Address of register SC_CPMAT (R195). -/
abbrev SC_CPMAT (i : Nat) : Nat := 0x220608 + i
/-- SC_CPMAT.COEF, bits [15:0] (R195). -/
def SC_CPMAT_COEF (i : Nat) : Fld := ⟨SC_CPMAT i, 15, 0⟩
/-- Address of register SC_CMCMD0 (R197). -/
abbrev SC_CMCMD0 : Nat := 0x220700
/-- SC_CMCMD0.EPOCH, bits [31:0] (R197). -/
def SC_CMCMD0_EPOCH (src : Nat) : Fld := ⟨sourceKey src (SC_CMCMD0), 31, 0⟩
/-- Address of register SC_CMCMD1 (R197). -/
abbrev SC_CMCMD1 : Nat := 0x220701
/-- SC_CMCMD1.STREAM, bits [17:16] (R197). -/
def SC_CMCMD1_STREAM (src : Nat) : Fld := ⟨sourceKey src (SC_CMCMD1), 17, 16⟩
/-- SC_CMCMD1.TFRAME, bits [15:0] (R197). -/
def SC_CMCMD1_TFRAME (src : Nat) : Fld := ⟨sourceKey src (SC_CMCMD1), 15, 0⟩
/-- Address of register SC_CMGO (R197). -/
abbrev SC_CMGO : Nat := 0x220702
/-- SC_CMGO.WCOUNT, bits [23:0] (R197). -/
def SC_CMGO_WCOUNT : Fld := ⟨SC_CMGO, 23, 0⟩
/-- Address of register SC_CMCNT (R197). -/
abbrev SC_CMCNT : Nat := 0x220708
/-- SC_CMCNT.REFUSED, bits [31:16] (R197). -/
def SC_CMCNT_REFUSED : Fld := ⟨SC_CMCNT, 31, 16⟩
/-- SC_CMCNT.ACCEPTED, bits [15:0] (R197). -/
def SC_CMCNT_ACCEPTED : Fld := ⟨SC_CMCNT, 15, 0⟩
/-- Address of register SC_CMEV (R197). -/
abbrev SC_CMEV : Nat := 0x220709
/-- SC_CMEV.CNTCLR, bits [31:31] (R197). -/
def SC_CMEV_CNTCLR : Fld := ⟨SC_CMEV, 31, 31⟩
/-- SC_CMEV.REFEV, bits [7:4] (R197). -/
def SC_CMEV_REFEV : Fld := ⟨SC_CMEV, 7, 4⟩
/-- SC_CMEV.ACCEV, bits [3:0] (R197). -/
def SC_CMEV_ACCEV : Fld := ⟨SC_CMEV, 3, 0⟩
/-- Address of register SC_CMRES (R197). -/
abbrev SC_CMRES (i : Nat) : Nat := 0x220710 + 0x4 * i
/-- SC_CMRES.REASON, bits [31:24] (R197). -/
def SC_CMRES_REASON (i : Nat) : Fld := ⟨SC_CMRES i, 31, 24⟩
/-- SC_CMRES.SOURCE, bits [21:16] (R197). -/
def SC_CMRES_SOURCE (i : Nat) : Fld := ⟨SC_CMRES i, 21, 16⟩
/-- SC_CMRES.TFRAME, bits [15:0] (R197). -/
def SC_CMRES_TFRAME (i : Nat) : Fld := ⟨SC_CMRES i, 15, 0⟩
/-- Address of register SC_CMEPA (R197). -/
abbrev SC_CMEPA (i : Nat) : Nat := 0x220711 + 0x4 * i
/-- SC_CMEPA.EPOCH, bits [31:0] (R197). -/
def SC_CMEPA_EPOCH (i : Nat) : Fld := ⟨SC_CMEPA i, 31, 0⟩
/-- Address of register SC_CMEPR (R197). -/
abbrev SC_CMEPR (i : Nat) : Nat := 0x220712 + 0x4 * i
/-- SC_CMEPR.EPOCH, bits [31:0] (R197). -/
def SC_CMEPR_EPOCH (i : Nat) : Fld := ⟨SC_CMEPR i, 31, 0⟩
/-- Address of register SC_CMFAIL (R197). -/
abbrev SC_CMFAIL (i : Nat) : Nat := 0x220713 + 0x4 * i
/-- SC_CMFAIL.REGION, bits [31:30] (R197). -/
def SC_CMFAIL_REGION (i : Nat) : Fld := ⟨SC_CMFAIL i, 31, 30⟩
/-- SC_CMFAIL.CLUSTER, bits [29:29] (R197). -/
def SC_CMFAIL_CLUSTER (i : Nat) : Fld := ⟨SC_CMFAIL i, 29, 29⟩
/-- SC_CMFAIL.CLINE, bits [28:20] (R197). -/
def SC_CMFAIL_CLINE (i : Nat) : Fld := ⟨SC_CMFAIL i, 28, 20⟩
/-- SC_CMFAIL.COST, bits [19:8] (R197). -/
def SC_CMFAIL_COST (i : Nat) : Fld := ⟨SC_CMFAIL i, 19, 8⟩
/-- SC_CMFAIL.UNIT, bits [7:4] (R197). -/
def SC_CMFAIL_UNIT (i : Nat) : Fld := ⟨SC_CMFAIL i, 7, 4⟩
/-- Address of register SC_FENCEQ (R198). -/
abbrev SC_FENCEQ : Nat := 0x220800
/-- SC_FENCEQ.VALID, bits [31:31] (R198). -/
def SC_FENCEQ_VALID : Fld := ⟨SC_FENCEQ, 31, 31⟩
/-- SC_FENCEQ.FENCE, bits [23:16] (R198). -/
def SC_FENCEQ_FENCE : Fld := ⟨SC_FENCEQ, 23, 16⟩
/-- SC_FENCEQ.FRAME, bits [15:0] (R198). -/
def SC_FENCEQ_FRAME : Fld := ⟨SC_FENCEQ, 15, 0⟩
/-- Address of register SC_FENCESTAT (R198). -/
abbrev SC_FENCESTAT : Nat := 0x220801
/-- SC_FENCESTAT.OVF, bits [8:8] (R198). -/
def SC_FENCESTAT_OVF : Fld := ⟨SC_FENCESTAT, 8, 8⟩
/-- SC_FENCESTAT.RETEV, bits [7:7] (R198). -/
def SC_FENCESTAT_RETEV : Fld := ⟨SC_FENCESTAT, 7, 7⟩
/-- SC_FENCESTAT.DEPTH, bits [6:0] (R198). -/
def SC_FENCESTAT_DEPTH : Fld := ⟨SC_FENCESTAT, 6, 0⟩
/-- Address of register SC_FENCEMAP (R198). -/
abbrev SC_FENCEMAP (i : Nat) : Nat := 0x220808 + i
/-- SC_FENCEMAP.INUSE, bits [31:0] (R198). -/
def SC_FENCEMAP_INUSE (i : Nat) : Fld := ⟨SC_FENCEMAP i, 31, 0⟩
/-- Address of register SC_GUARDSTAT (R198). -/
abbrev SC_GUARDSTAT : Nat := 0x220810
/-- SC_GUARDSTAT.VIOL, bits [31:16] (R198). -/
def SC_GUARDSTAT_VIOL : Fld := ⟨SC_GUARDSTAT, 31, 16⟩
/-- SC_GUARDSTAT.VIOLEV, bits [11:11] (R198). -/
def SC_GUARDSTAT_VIOLEV : Fld := ⟨SC_GUARDSTAT, 11, 11⟩
/-- SC_GUARDSTAT.WRITER, bits [10:4] (R198). -/
def SC_GUARDSTAT_WRITER : Fld := ⟨SC_GUARDSTAT, 10, 4⟩
/-- SC_GUARDSTAT.WINDOW, bits [3:0] (R198). -/
def SC_GUARDSTAT_WINDOW : Fld := ⟨SC_GUARDSTAT, 3, 0⟩
/-- Address of register SC_GUARDADDR (R198). -/
abbrev SC_GUARDADDR : Nat := 0x220811
/-- SC_GUARDADDR.ADDR, bits [31:0] (R198). -/
def SC_GUARDADDR_ADDR : Fld := ⟨SC_GUARDADDR, 31, 0⟩
/-- Address of register SC_GUARDBASE (R198). -/
abbrev SC_GUARDBASE (i : Nat) : Nat := 0x220820 + 0x4 * i
/-- SC_GUARDBASE.BASE, bits [31:6] (R198). -/
def SC_GUARDBASE_BASE (i : Nat) : Fld := ⟨SC_GUARDBASE i, 31, 6⟩
/-- Address of register SC_GUARDLIMIT (R198). -/
abbrev SC_GUARDLIMIT (i : Nat) : Nat := 0x220821 + 0x4 * i
/-- SC_GUARDLIMIT.LIMIT, bits [31:6] (R198). -/
def SC_GUARDLIMIT_LIMIT (i : Nat) : Fld := ⟨SC_GUARDLIMIT i, 31, 6⟩
/-- Address of register SC_GUARDCTL (R198). -/
abbrev SC_GUARDCTL (i : Nat) : Nat := 0x220822 + 0x4 * i
/-- SC_GUARDCTL.FENCE, bits [8:1] (R198). -/
def SC_GUARDCTL_FENCE (i : Nat) : Fld := ⟨SC_GUARDCTL i, 8, 1⟩
/-- SC_GUARDCTL.EN, bits [0:0] (R198). -/
def SC_GUARDCTL_EN (i : Nat) : Fld := ⟨SC_GUARDCTL i, 0, 0⟩
/-- Address of register SC_EGCTL (R199). -/
abbrev SC_EGCTL : Nat := 0x220900
/-- SC_EGCTL.LOCK, bits [31:31] (R199). -/
def SC_EGCTL_LOCK : Fld := ⟨SC_EGCTL, 31, 31⟩
/-- SC_EGCTL.FAULTACT, bits [7:7] (R199). -/
def SC_EGCTL_FAULTACT : Fld := ⟨SC_EGCTL, 7, 7⟩
/-- SC_EGCTL.INENTRY, bits [6:2] (R199). -/
def SC_EGCTL_INENTRY : Fld := ⟨SC_EGCTL, 6, 2⟩
/-- SC_EGCTL.INEN, bits [0:0] (R199). -/
def SC_EGCTL_INEN : Fld := ⟨SC_EGCTL, 0, 0⟩
/-- Address of register SC_EGBASE (R199). -/
abbrev SC_EGBASE : Nat := 0x220901
/-- SC_EGBASE.BASE, bits [31:20] (R199). -/
def SC_EGBASE_BASE : Fld := ⟨SC_EGBASE, 31, 20⟩
/-- Address of register SC_EGSTAT (R199). -/
abbrev SC_EGSTAT : Nat := 0x220902
/-- SC_EGSTAT.WPDROP, bits [31:16] (R199). -/
def SC_EGSTAT_WPDROP : Fld := ⟨SC_EGSTAT, 31, 16⟩
/-- SC_EGSTAT.LOOPEV, bits [13:13] (R199). -/
def SC_EGSTAT_LOOPEV : Fld := ⟨SC_EGSTAT, 13, 13⟩
/-- SC_EGSTAT.ACTEV, bits [12:12] (R199). -/
def SC_EGSTAT_ACTEV : Fld := ⟨SC_EGSTAT, 12, 12⟩
/-- SC_EGSTAT.NOLIB, bits [11:11] (R199). -/
def SC_EGSTAT_NOLIB : Fld := ⟨SC_EGSTAT, 11, 11⟩
/-- SC_EGSTAT.LOOP, bits [10:9] (R199). -/
def SC_EGSTAT_LOOP : Fld := ⟨SC_EGSTAT, 10, 9⟩
/-- SC_EGSTAT.ENTRY, bits [8:4] (R199). -/
def SC_EGSTAT_ENTRY : Fld := ⟨SC_EGSTAT, 8, 4⟩
/-- SC_EGSTAT.BYCMD, bits [2:2] (R199). -/
def SC_EGSTAT_BYCMD : Fld := ⟨SC_EGSTAT, 2, 2⟩
/-- SC_EGSTAT.BYINPUT, bits [1:1] (R199). -/
def SC_EGSTAT_BYINPUT : Fld := ⟨SC_EGSTAT, 1, 1⟩
/-- SC_EGSTAT.ACTIVE, bits [0:0] (R199). -/
def SC_EGSTAT_ACTIVE : Fld := ⟨SC_EGSTAT, 0, 0⟩
/-- Address of register SC_VCOEFH (R196). -/
abbrev SC_VCOEFH (i : Nat) (j : Nat) : Nat := 0x220A00 + 0x8 * i + j
/-- SC_VCOEFH.COEF, bits [11:0] (R196). -/
def SC_VCOEFH_COEF (i : Nat) (j : Nat) : Fld := ⟨SC_VCOEFH i j, 11, 0⟩
/-- Address of register SC_VCOEFV (R196). -/
abbrev SC_VCOEFV (i : Nat) (j : Nat) : Nat := 0x220C00 + 0x8 * i + j
/-- SC_VCOEFV.COEF, bits [11:0] (R196). -/
def SC_VCOEFV_COEF (i : Nat) (j : Nat) : Fld := ⟨SC_VCOEFV i j, 11, 0⟩
/-- Address of register SC_LUT (R196). -/
abbrev SC_LUT (i : Nat) (j : Nat) (k : Nat) : Nat := 0x221000 + 0x3000 * i + 0x1000 * j + k
/-- SC_LUT.ENTRY, bits [15:0] (R196). -/
def SC_LUT_ENTRY (i : Nat) (j : Nat) (k : Nat) : Fld := ⟨SC_LUT i j k, 15, 0⟩
/-- Address of register SC_OBJBASE (R138). -/
abbrev SC_OBJBASE : Nat := 0x22F000
/-- SC_OBJBASE.BASE, bits [31:12] (R138). -/
def SC_OBJBASE_BASE : Fld := ⟨SC_OBJBASE, 31, 12⟩
/-- Address of register SC_OBJCTL (R138). -/
abbrev SC_OBJCTL : Nat := 0x22F001
/-- SC_OBJCTL.MARGIN, bits [31:24] (R138). -/
def SC_OBJCTL_MARGIN : Fld := ⟨SC_OBJCTL, 31, 24⟩
/-- SC_OBJCTL.COUNT, bits [16:0] (R138). -/
def SC_OBJCTL_COUNT : Fld := ⟨SC_OBJCTL, 16, 0⟩
/-- Address of register SC_OBJSTAT (R139). -/
abbrev SC_OBJSTAT : Nat := 0x22F002
/-- SC_OBJSTAT.SCAN, bits [31:31] (R139). -/
def SC_OBJSTAT_SCAN : Fld := ⟨SC_OBJSTAT, 31, 31⟩
/-- SC_OBJSTAT.OVERFLOW, bits [30:30] (R139). -/
def SC_OBJSTAT_OVERFLOW : Fld := ⟨SC_OBJSTAT, 30, 30⟩
/-- SC_OBJSTAT.BADEV, bits [29:29] (R139). -/
def SC_OBJSTAT_BADEV : Fld := ⟨SC_OBJSTAT, 29, 29⟩
/-- SC_OBJSTAT.ARES, bits [28:16] (R139). -/
def SC_OBJSTAT_ARES : Fld := ⟨SC_OBJSTAT, 28, 16⟩
/-- SC_OBJSTAT.SRES, bits [12:0] (R139). -/
def SC_OBJSTAT_SRES : Fld := ⟨SC_OBJSTAT, 12, 0⟩
/-- Address of register SC_OBJEVQ (R139). -/
abbrev SC_OBJEVQ : Nat := 0x22F003
/-- SC_OBJEVQ.BADENT, bits [31:16] (R139). -/
def SC_OBJEVQ_BADENT : Fld := ⟨SC_OBJEVQ, 31, 16⟩
/-- SC_OBJEVQ.QDEPTH, bits [10:0] (R139). -/
def SC_OBJEVQ_QDEPTH : Fld := ⟨SC_OBJEVQ, 10, 0⟩
/-- Address of register SC_PALBANK (R140). -/
abbrev SC_PALBANK (i : Nat) : Nat := 0x22F008 + i
/-- SC_PALBANK.BASE, bits [31:19] (R140). -/
def SC_PALBANK_BASE (i : Nat) : Fld := ⟨SC_PALBANK i, 31, 19⟩
/-- Address of register SC_PALAPPLIED (R140). -/
abbrev SC_PALAPPLIED (i : Nat) : Nat := 0x22F00C + i
/-- SC_PALAPPLIED.BASE, bits [31:19] (R140). -/
def SC_PALAPPLIED_BASE (i : Nat) : Fld := ⟨SC_PALAPPLIED i, 31, 19⟩
/-- Address of register SC_PCCTL (R141). -/
abbrev SC_PCCTL : Nat := 0x22F010
/-- SC_PCCTL.CNTCLR, bits [1:1] (R141). -/
def SC_PCCTL_CNTCLR : Fld := ⟨SC_PCCTL, 1, 1⟩
/-- SC_PCCTL.INVAL, bits [0:0] (R141). -/
def SC_PCCTL_INVAL : Fld := ⟨SC_PCCTL, 0, 0⟩
/-- Address of register SC_SCENECNT (R141). -/
abbrev SC_SCENECNT : Nat := 0x22F011
/-- SC_SCENECNT.BADADDR, bits [15:0] (R141). -/
def SC_SCENECNT_BADADDR : Fld := ⟨SC_SCENECNT, 15, 0⟩
/-- Address of register SC_PCSTAT (R141). -/
abbrev SC_PCSTAT (i : Nat) : Nat := 0x22F018 + i
/-- SC_PCSTAT.FILL, bits [31:16] (R141). -/
def SC_PCSTAT_FILL (i : Nat) : Fld := ⟨SC_PCSTAT i, 31, 16⟩
/-- SC_PCSTAT.REFETCH, bits [15:0] (R141). -/
def SC_PCSTAT_REFETCH (i : Nat) : Fld := ⟨SC_PCSTAT i, 15, 0⟩
/-- Address of register SC_TRCTL (R221). -/
abbrev SC_TRCTL : Nat := 0x230000
/-- SC_TRCTL.CNTCLR, bits [1:1] (R221). -/
def SC_TRCTL_CNTCLR : Fld := ⟨SC_TRCTL, 1, 1⟩
/-- SC_TRCTL.EN, bits [0:0] (R221). -/
def SC_TRCTL_EN : Fld := ⟨SC_TRCTL, 0, 0⟩
/-- Address of register SC_TRLISTB (R221). -/
abbrev SC_TRLISTB (i : Nat) : Nat := 0x230010 + 0x2 * i
/-- SC_TRLISTB.BASE, bits [31:6] (R221). -/
def SC_TRLISTB_BASE (i : Nat) : Fld := ⟨SC_TRLISTB i, 31, 6⟩
/-- Address of register SC_TRLISTC (R221). -/
abbrev SC_TRLISTC (i : Nat) : Nat := 0x230011 + 0x2 * i
/-- SC_TRLISTC.STREAMS, bits [19:16] (R221). -/
def SC_TRLISTC_STREAMS (i : Nat) : Fld := ⟨SC_TRLISTC i, 19, 16⟩
/-- SC_TRLISTC.COUNT, bits [13:0] (R221). -/
def SC_TRLISTC_COUNT (i : Nat) : Fld := ⟨SC_TRLISTC i, 13, 0⟩
/-- Address of register SC_TRIMMCTL (R221). -/
abbrev SC_TRIMMCTL : Nat := 0x230018
/-- SC_TRIMMCTL.ACOUNT, bits [25:17] (R221). -/
def SC_TRIMMCTL_ACOUNT : Fld := ⟨SC_TRIMMCTL, 25, 17⟩
/-- SC_TRIMMCTL.SCOUNT, bits [16:8] (R221). -/
def SC_TRIMMCTL_SCOUNT : Fld := ⟨SC_TRIMMCTL, 16, 8⟩
/-- SC_TRIMMCTL.STREAMS, bits [3:0] (R221). -/
def SC_TRIMMCTL_STREAMS : Fld := ⟨SC_TRIMMCTL, 3, 0⟩
/-- Address of register SC_TRSTAT (R221). -/
abbrev SC_TRSTAT : Nat := 0x230020
/-- SC_TRSTAT.BADOP, bits [31:24] (R221). -/
def SC_TRSTAT_BADOP : Fld := ⟨SC_TRSTAT, 31, 24⟩
/-- SC_TRSTAT.ORDERERR, bits [23:16] (R221). -/
def SC_TRSTAT_ORDERERR : Fld := ⟨SC_TRSTAT, 23, 16⟩
/-- SC_TRSTAT.TGTERR, bits [15:8] (R221). -/
def SC_TRSTAT_TGTERR : Fld := ⟨SC_TRSTAT, 15, 8⟩
/-- SC_TRSTAT.WALKLATE, bits [7:7] (R221). -/
def SC_TRSTAT_WALKLATE : Fld := ⟨SC_TRSTAT, 7, 7⟩
/-- SC_TRSTAT.IMMFULL, bits [6:6] (R221). -/
def SC_TRSTAT_IMMFULL : Fld := ⟨SC_TRSTAT, 6, 6⟩
/-- SC_TRSTAT.ECCEV, bits [5:5] (R221). -/
def SC_TRSTAT_ECCEV : Fld := ⟨SC_TRSTAT, 5, 5⟩
/-- Address of register SC_TRWALK (R221). -/
abbrev SC_TRWALK : Nat := 0x230021
/-- SC_TRWALK.FRAME, bits [31:16] (R221). -/
def SC_TRWALK_FRAME : Fld := ⟨SC_TRWALK, 31, 16⟩
/-- SC_TRWALK.ENTRIES, bits [15:0] (R221). -/
def SC_TRWALK_ENTRIES : Fld := ⟨SC_TRWALK, 15, 0⟩
/-- Address of register CPY_CTL (R296). -/
abbrev CPY_CTL : Nat := 0x240000
/-- CPY_CTL.CNTCLR, bits [31:31] (R296). -/
def CPY_CTL_CNTCLR : Fld := ⟨CPY_CTL, 31, 31⟩
/-- CPY_CTL.PACE, bits [11:11] (R296). -/
def CPY_CTL_PACE : Fld := ⟨CPY_CTL, 11, 11⟩
/-- CPY_CTL.YDIR, bits [10:10] (R296). -/
def CPY_CTL_YDIR : Fld := ⟨CPY_CTL, 10, 10⟩
/-- CPY_CTL.XDIR, bits [9:9] (R296). -/
def CPY_CTL_XDIR : Fld := ⟨CPY_CTL, 9, 9⟩
/-- CPY_CTL.BPP, bits [8:7] (R296). -/
def CPY_CTL_BPP : Fld := ⟨CPY_CTL, 8, 7⟩
/-- CPY_CTL.OP, bits [6:4] (R296). -/
def CPY_CTL_OP : Fld := ⟨CPY_CTL, 6, 4⟩
/-- CPY_CTL.ABORT, bits [1:1] (R296). -/
def CPY_CTL_ABORT : Fld := ⟨CPY_CTL, 1, 1⟩
/-- CPY_CTL.GO, bits [0:0] (R296). -/
def CPY_CTL_GO : Fld := ⟨CPY_CTL, 0, 0⟩
/-- Address of register CPY_SRCBASE (R297). -/
abbrev CPY_SRCBASE : Nat := 0x240001
/-- CPY_SRCBASE.BASE, bits [31:6] (R297). -/
def CPY_SRCBASE_BASE : Fld := ⟨CPY_SRCBASE, 31, 6⟩
/-- Address of register CPY_SRCPITCH (R297). -/
abbrev CPY_SRCPITCH : Nat := 0x240002
/-- CPY_SRCPITCH.PITCH, bits [31:6] (R297). -/
def CPY_SRCPITCH_PITCH : Fld := ⟨CPY_SRCPITCH, 31, 6⟩
/-- Address of register CPY_DSTBASE (R297). -/
abbrev CPY_DSTBASE : Nat := 0x240003
/-- CPY_DSTBASE.BASE, bits [31:6] (R297). -/
def CPY_DSTBASE_BASE : Fld := ⟨CPY_DSTBASE, 31, 6⟩
/-- Address of register CPY_DSTPITCH (R297). -/
abbrev CPY_DSTPITCH : Nat := 0x240004
/-- CPY_DSTPITCH.PITCH, bits [31:6] (R297). -/
def CPY_DSTPITCH_PITCH : Fld := ⟨CPY_DSTPITCH, 31, 6⟩
/-- Address of register CPY_SRCXY (R297). -/
abbrev CPY_SRCXY : Nat := 0x240005
/-- CPY_SRCXY.Y, bits [29:16] (R297). -/
def CPY_SRCXY_Y : Fld := ⟨CPY_SRCXY, 29, 16⟩
/-- CPY_SRCXY.X, bits [13:0] (R297). -/
def CPY_SRCXY_X : Fld := ⟨CPY_SRCXY, 13, 0⟩
/-- Address of register CPY_DSTXY (R297). -/
abbrev CPY_DSTXY : Nat := 0x240006
/-- CPY_DSTXY.Y, bits [29:16] (R297). -/
def CPY_DSTXY_Y : Fld := ⟨CPY_DSTXY, 29, 16⟩
/-- CPY_DSTXY.X, bits [13:0] (R297). -/
def CPY_DSTXY_X : Fld := ⟨CPY_DSTXY, 13, 0⟩
/-- Address of register CPY_SIZE (R297). -/
abbrev CPY_SIZE : Nat := 0x240007
/-- CPY_SIZE.HM1, bits [29:16] (R297). -/
def CPY_SIZE_HM1 : Fld := ⟨CPY_SIZE, 29, 16⟩
/-- CPY_SIZE.WM1, bits [13:0] (R297). -/
def CPY_SIZE_WM1 : Fld := ⟨CPY_SIZE, 13, 0⟩
/-- Address of register CPY_FILL (R297). -/
abbrev CPY_FILL : Nat := 0x240008
/-- CPY_FILL.VALUE, bits [31:0] (R297). -/
def CPY_FILL_VALUE : Fld := ⟨CPY_FILL, 31, 0⟩
/-- Address of register CPY_KEY (R297). -/
abbrev CPY_KEY : Nat := 0x240009
/-- CPY_KEY.KEY, bits [31:0] (R297). -/
def CPY_KEY_KEY : Fld := ⟨CPY_KEY, 31, 0⟩
/-- Address of register CPY_KEYMASK (R297). -/
abbrev CPY_KEYMASK : Nat := 0x24000A
/-- CPY_KEYMASK.MASK, bits [31:0] (R297). -/
def CPY_KEYMASK_MASK : Fld := ⟨CPY_KEYMASK, 31, 0⟩
/-- Address of register CPY_PACE0 (R297). -/
abbrev CPY_PACE0 : Nat := 0x24000B
/-- CPY_PACE0.LINE0, bits [16:0] (R297). -/
def CPY_PACE0_LINE0 : Fld := ⟨CPY_PACE0, 16, 0⟩
/-- Address of register CPY_PACE1 (R297). -/
abbrev CPY_PACE1 : Nat := 0x24000C
/-- CPY_PACE1.STEP, bits [15:0] (R297). -/
def CPY_PACE1_STEP : Fld := ⟨CPY_PACE1, 15, 0⟩
/-- Address of register CPY_WMARK (R297). -/
abbrev CPY_WMARK : Nat := 0x24000D
/-- CPY_WMARK.ROW, bits [14:0] (R297). -/
def CPY_WMARK_ROW : Fld := ⟨CPY_WMARK, 14, 0⟩
/-- Address of register CPY_STAT (R298). -/
abbrev CPY_STAT : Nat := 0x24000E
/-- CPY_STAT.BUSY, bits [31:31] (R298). -/
def CPY_STAT_BUSY : Fld := ⟨CPY_STAT, 31, 31⟩
/-- CPY_STAT.WAITBEAM, bits [30:30] (R298). -/
def CPY_STAT_WAITBEAM : Fld := ⟨CPY_STAT, 30, 30⟩
/-- CPY_STAT.ERREV, bits [26:26] (R298). -/
def CPY_STAT_ERREV : Fld := ⟨CPY_STAT, 26, 26⟩
/-- CPY_STAT.WMEV, bits [25:25] (R298). -/
def CPY_STAT_WMEV : Fld := ⟨CPY_STAT, 25, 25⟩
/-- CPY_STAT.DONEEV, bits [24:24] (R298). -/
def CPY_STAT_DONEEV : Fld := ⟨CPY_STAT, 24, 24⟩
/-- CPY_STAT.ERR, bits [23:20] (R298). -/
def CPY_STAT_ERR : Fld := ⟨CPY_STAT, 23, 20⟩
/-- CPY_STAT.ROWSDONE, bits [14:0] (R298). -/
def CPY_STAT_ROWSDONE : Fld := ⟨CPY_STAT, 14, 0⟩
/-- Address of register CPY_ERRADDR (R298). -/
abbrev CPY_ERRADDR : Nat := 0x24000F
/-- CPY_ERRADDR.ADDR, bits [31:0] (R298). -/
def CPY_ERRADDR_ADDR : Fld := ⟨CPY_ERRADDR, 31, 0⟩
/-- Address of register CPY_CNT (R298). -/
abbrev CPY_CNT : Nat := 0x240010
/-- CPY_CNT.OPS, bits [31:16] (R298). -/
def CPY_CNT_OPS : Fld := ⟨CPY_CNT, 31, 16⟩
/-- CPY_CNT.BUSYWR, bits [15:8] (R298). -/
def CPY_CNT_BUSYWR : Fld := ⟨CPY_CNT, 15, 8⟩
/-- CPY_CNT.ERRS, bits [7:0] (R298). -/
def CPY_CNT_ERRS : Fld := ⟨CPY_CNT, 7, 0⟩
/-- Address of register SC_PGCTL (R258). -/
abbrev SC_PGCTL : Nat := 0x250000
/-- SC_PGCTL.RUN, bits [11:8] (R258). -/
def SC_PGCTL_RUN : Fld := ⟨SC_PGCTL, 11, 8⟩
/-- SC_PGCTL.ROWMODE, bits [2:2] (R258). -/
def SC_PGCTL_ROWMODE : Fld := ⟨SC_PGCTL, 2, 2⟩
/-- SC_PGCTL.CH4, bits [1:1] (R258). -/
def SC_PGCTL_CH4 : Fld := ⟨SC_PGCTL, 1, 1⟩
/-- SC_PGCTL.CNTCLR, bits [0:0] (R258). -/
def SC_PGCTL_CNTCLR : Fld := ⟨SC_PGCTL, 0, 0⟩
/-- Address of register SC_PGCFG (R258). -/
abbrev SC_PGCFG : Nat := 0x250001
/-- SC_PGCFG.NREF, bits [22:16] (R258). -/
def SC_PGCFG_NREF : Fld := ⟨SC_PGCFG, 22, 16⟩
/-- SC_PGCFG.PM1, bits [11:8] (R258). -/
def SC_PGCFG_PM1 : Fld := ⟨SC_PGCFG, 11, 8⟩
/-- SC_PGCFG.MUXM1, bits [5:0] (R258). -/
def SC_PGCFG_MUXM1 : Fld := ⟨SC_PGCFG, 5, 0⟩
/-- Address of register SC_PGTIME (R258). -/
abbrev SC_PGTIME : Nat := 0x250002
/-- SC_PGTIME.RDEAD, bits [31:16] (R258). -/
def SC_PGTIME_RDEAD : Fld := ⟨SC_PGTIME, 31, 16⟩
/-- SC_PGTIME.LIT, bits [15:0] (R258). -/
def SC_PGTIME_LIT : Fld := ⟨SC_PGTIME, 15, 0⟩
/-- Address of register SC_PGGAIN (R258). -/
abbrev SC_PGGAIN : Nat := 0x250003
/-- SC_PGGAIN.DBITS, bits [18:16] (R258). -/
def SC_PGGAIN_DBITS : Fld := ⟨SC_PGGAIN, 18, 16⟩
/-- SC_PGGAIN.GAIN, bits [15:0] (R258). -/
def SC_PGGAIN_GAIN : Fld := ⟨SC_PGGAIN, 15, 0⟩
/-- Address of register SC_PGSTAT (R259). -/
abbrev SC_PGSTAT : Nat := 0x250004
/-- SC_PGSTAT.FAILPORT, bits [24:16] (R259). -/
def SC_PGSTAT_FAILPORT : Fld := ⟨SC_PGSTAT, 24, 16⟩
/-- SC_PGSTAT.FAILEV, bits [15:15] (R259). -/
def SC_PGSTAT_FAILEV : Fld := ⟨SC_PGSTAT, 15, 15⟩
/-- SC_PGSTAT.FAIL, bits [14:12] (R259). -/
def SC_PGSTAT_FAIL : Fld := ⟨SC_PGSTAT, 14, 12⟩
/-- SC_PGSTAT.ACTIVE, bits [11:8] (R259). -/
def SC_PGSTAT_ACTIVE : Fld := ⟨SC_PGSTAT, 11, 8⟩
/-- Address of register SC_PGSLOT (R259). -/
abbrev SC_PGSLOT : Nat := 0x250005
/-- SC_PGSLOT.TP, bits [23:0] (R259). -/
def SC_PGSLOT_TP : Fld := ⟨SC_PGSLOT, 23, 0⟩
/-- Address of register SC_PGCNT (R259). -/
abbrev SC_PGCNT : Nat := 0x250006
/-- SC_PGCNT.CFGDROP, bits [15:0] (R259). -/
def SC_PGCNT_CFGDROP : Fld := ⟨SC_PGCNT, 15, 0⟩
/-- Address of register SC_CALCTL (R260). -/
abbrev SC_CALCTL : Nat := 0x250010
/-- SC_CALCTL.CNTCLR, bits [1:1] (R260). -/
def SC_CALCTL_CNTCLR : Fld := ⟨SC_CALCTL, 1, 1⟩
/-- SC_CALCTL.EN, bits [0:0] (R260). -/
def SC_CALCTL_EN : Fld := ⟨SC_CALCTL, 0, 0⟩
/-- Address of register SC_CALSTAT (R260). -/
abbrev SC_CALSTAT : Nat := 0x250011
/-- SC_CALSTAT.LATE, bits [31:16] (R260). -/
def SC_CALSTAT_LATE : Fld := ⟨SC_CALSTAT, 31, 16⟩
/-- SC_CALSTAT.LATEEV, bits [15:15] (R260). -/
def SC_CALSTAT_LATEEV : Fld := ⟨SC_CALSTAT, 15, 15⟩
/-- SC_CALSTAT.ECCEV, bits [14:14] (R260). -/
def SC_CALSTAT_ECCEV : Fld := ⟨SC_CALSTAT, 14, 14⟩
/-- SC_CALSTAT.LATEREG, bits [3:0] (R260). -/
def SC_CALSTAT_LATEREG : Fld := ⟨SC_CALSTAT, 3, 0⟩
/-- Address of register SC_CALBASE (R260). -/
abbrev SC_CALBASE (i : Nat) (j : Nat) : Nat := 0x250020 + 0x4 * i + j
/-- SC_CALBASE.BASE, bits [31:12] (R260). -/
def SC_CALBASE_BASE (i : Nat) (j : Nat) : Fld := ⟨SC_CALBASE i j, 31, 12⟩
/-- Address of register SC_CALPITCH (R260). -/
abbrev SC_CALPITCH (i : Nat) : Nat := 0x250030 + i
/-- SC_CALPITCH.PITCH, bits [17:6] (R260). -/
def SC_CALPITCH_PITCH (i : Nat) : Fld := ⟨SC_CALPITCH i, 17, 6⟩
/-- Address of register SC_CALOFFA (R260). -/
abbrev SC_CALOFFA (i : Nat) (j : Nat) : Nat := 0x250040 + 0x20 * i + 0x2 * j
/-- SC_CALOFFA.OG, bits [31:16] (R260). -/
def SC_CALOFFA_OG (i : Nat) (j : Nat) : Fld := ⟨SC_CALOFFA i j, 31, 16⟩
/-- SC_CALOFFA.OR, bits [15:0] (R260). -/
def SC_CALOFFA_OR (i : Nat) (j : Nat) : Fld := ⟨SC_CALOFFA i j, 15, 0⟩
/-- Address of register SC_CALOFFB (R260). -/
abbrev SC_CALOFFB (i : Nat) (j : Nat) : Nat := 0x250041 + 0x20 * i + 0x2 * j
/-- SC_CALOFFB.OB, bits [15:0] (R260). -/
def SC_CALOFFB_OB (i : Nat) (j : Nat) : Fld := ⟨SC_CALOFFB i j, 15, 0⟩
/-- Address of register SC_WEXT0 (R260). -/
abbrev SC_WEXT0 : Nat := 0x2500C0
/-- SC_WEXT0.SR, bits [31:16] (R260). -/
def SC_WEXT0_SR : Fld := ⟨SC_WEXT0, 31, 16⟩
/-- SC_WEXT0.WK, bits [15:0] (R260). -/
def SC_WEXT0_WK : Fld := ⟨SC_WEXT0, 15, 0⟩
/-- Address of register SC_WEXT1 (R260). -/
abbrev SC_WEXT1 : Nat := 0x2500C1
/-- SC_WEXT1.SB, bits [31:16] (R260). -/
def SC_WEXT1_SB : Fld := ⟨SC_WEXT1, 31, 16⟩
/-- SC_WEXT1.SG, bits [15:0] (R260). -/
def SC_WEXT1_SG : Fld := ⟨SC_WEXT1, 15, 0⟩
/-- Address of register SC_OWNCTL (R263). -/
abbrev SC_OWNCTL : Nat := 0x250100
/-- SC_OWNCTL.TIEWIN, bits [1:1] (R263). -/
def SC_OWNCTL_TIEWIN : Fld := ⟨SC_OWNCTL, 1, 1⟩
/-- SC_OWNCTL.CLAIM, bits [0:0] (R263). -/
def SC_OWNCTL_CLAIM : Fld := ⟨SC_OWNCTL, 0, 0⟩
/-- Address of register SC_OWNSTAT (R263). -/
abbrev SC_OWNSTAT : Nat := 0x250101
/-- SC_OWNSTAT.TAKEEV, bits [7:7] (R263). -/
def SC_OWNSTAT_TAKEEV : Fld := ⟨SC_OWNSTAT, 7, 7⟩
/-- SC_OWNSTAT.TIEEV, bits [6:6] (R263). -/
def SC_OWNSTAT_TIEEV : Fld := ⟨SC_OWNSTAT, 6, 6⟩
/-- SC_OWNSTAT.DUALEV, bits [5:5] (R263). -/
def SC_OWNSTAT_DUALEV : Fld := ⟨SC_OWNSTAT, 5, 5⟩
/-- SC_OWNSTAT.DRIVING, bits [4:4] (R263). -/
def SC_OWNSTAT_DRIVING : Fld := ⟨SC_OWNSTAT, 4, 4⟩
/-- SC_OWNSTAT.PARTNER, bits [3:3] (R263). -/
def SC_OWNSTAT_PARTNER : Fld := ⟨SC_OWNSTAT, 3, 3⟩
/-- SC_OWNSTAT.STATE, bits [2:0] (R263). -/
def SC_OWNSTAT_STATE : Fld := ⟨SC_OWNSTAT, 2, 0⟩
/-- Address of register SC_TWREL (R465). -/
abbrev SC_TWREL : Nat := 0x250102
/-- SC_TWREL.FAULT, bits [20:16] (R465). -/
def SC_TWREL_FAULT : Fld := ⟨SC_TWREL, 20, 16⟩
/-- SC_TWREL.FAULTEV, bits [15:15] (R465). -/
def SC_TWREL_FAULTEV : Fld := ⟨SC_TWREL, 15, 15⟩
/-- SC_TWREL.FATREL, bits [4:0] (R465). -/
def SC_TWREL_FATREL : Fld := ⟨SC_TWREL, 4, 0⟩
/-- Address of register SC_DPCFG (R261). -/
abbrev SC_DPCFG (i : Nat) : Nat := 0x251000 + i
/-- SC_DPCFG.ROWSEL, bits [12:7] (R261). -/
def SC_DPCFG_ROWSEL (i : Nat) : Fld := ⟨SC_DPCFG i, 12, 7⟩
/-- SC_DPCFG.INV, bits [6:6] (R261). -/
def SC_DPCFG_INV (i : Nat) : Fld := ⟨SC_DPCFG i, 6, 6⟩
/-- SC_DPCFG.GROUP, bits [5:3] (R261). -/
def SC_DPCFG_GROUP (i : Nat) : Fld := ⟨SC_DPCFG i, 5, 3⟩
/-- SC_DPCFG.FUNC, bits [2:0] (R261). -/
def SC_DPCFG_FUNC (i : Nat) : Fld := ⟨SC_DPCFG i, 2, 0⟩
/-- Address of register SC_LANEA (R262). -/
abbrev SC_LANEA (i : Nat) : Nat := 0x252000 + 0x2 * i
/-- SC_LANEA.CHREV, bits [31:31] (R262). -/
def SC_LANEA_CHREV (i : Nat) : Fld := ⟨SC_LANEA i, 31, 31⟩
/-- SC_LANEA.XREV, bits [30:30] (R262). -/
def SC_LANEA_XREV (i : Nat) : Fld := ⟨SC_LANEA i, 30, 30⟩
/-- SC_LANEA.SERP, bits [29:29] (R262). -/
def SC_LANEA_SERP (i : Nat) : Fld := ⟨SC_LANEA i, 29, 29⟩
/-- SC_LANEA.CHMASK, bits [28:25] (R262). -/
def SC_LANEA_CHMASK (i : Nat) : Fld := ⟨SC_LANEA i, 28, 25⟩
/-- SC_LANEA.LY0, bits [24:16] (R262). -/
def SC_LANEA_LY0 (i : Nat) : Fld := ⟨SC_LANEA i, 24, 16⟩
/-- SC_LANEA.LWM1, bits [15:8] (R262). -/
def SC_LANEA_LWM1 (i : Nat) : Fld := ⟨SC_LANEA i, 15, 8⟩
/-- SC_LANEA.LX0, bits [7:0] (R262). -/
def SC_LANEA_LX0 (i : Nat) : Fld := ⟨SC_LANEA i, 7, 0⟩
/-- Address of register SC_LANEB (R262). -/
abbrev SC_LANEB (i : Nat) : Nat := 0x252001 + 0x2 * i
/-- SC_LANEB.SKIP, bits [11:6] (R262). -/
def SC_LANEB_SKIP (i : Nat) : Fld := ⟨SC_LANEB i, 11, 6⟩
/-- SC_LANEB.LBLKM1, bits [5:0] (R262). -/
def SC_LANEB_LBLKM1 (i : Nat) : Fld := ⟨SC_LANEB i, 5, 0⟩
/-- Address of register SC_FEEDCTL (R279). -/
abbrev SC_FEEDCTL : Nat := 0x260000
/-- SC_FEEDCTL.CNTCLR, bits [7:7] (R279). -/
def SC_FEEDCTL_CNTCLR : Fld := ⟨SC_FEEDCTL, 7, 7⟩
/-- SC_FEEDCTL.WINEN, bits [4:4] (R279). -/
def SC_FEEDCTL_WINEN : Fld := ⟨SC_FEEDCTL, 4, 4⟩
/-- SC_FEEDCTL.NFEED, bits [1:0] (R279). -/
def SC_FEEDCTL_NFEED : Fld := ⟨SC_FEEDCTL, 1, 0⟩
/-- Address of register SC_FEEDSTAT (R279). -/
abbrev SC_FEEDSTAT : Nat := 0x260001
/-- SC_FEEDSTAT.LATEPASS, bits [31:16] (R279). -/
def SC_FEEDSTAT_LATEPASS : Fld := ⟨SC_FEEDSTAT, 31, 16⟩
/-- SC_FEEDSTAT.LATEEV, bits [15:15] (R279). -/
def SC_FEEDSTAT_LATEEV : Fld := ⟨SC_FEEDSTAT, 15, 15⟩
/-- SC_FEEDSTAT.CURFEED, bits [9:8] (R279). -/
def SC_FEEDSTAT_CURFEED : Fld := ⟨SC_FEEDSTAT, 9, 8⟩
/-- SC_FEEDSTAT.ANFEED, bits [7:6] (R279). -/
def SC_FEEDSTAT_ANFEED : Fld := ⟨SC_FEEDSTAT, 7, 6⟩
/-- SC_FEEDSTAT.AWINEN, bits [5:5] (R279). -/
def SC_FEEDSTAT_AWINEN : Fld := ⟨SC_FEEDSTAT, 5, 5⟩
/-- Address of register SC_FEEDSTART (R280). -/
abbrev SC_FEEDSTART (i : Nat) : Nat := 0x260010 + 0x4 * i
/-- SC_FEEDSTART.LINE, bits [24:8] (R280). -/
def SC_FEEDSTART_LINE (i : Nat) : Fld := ⟨SC_FEEDSTART i, 24, 8⟩
/-- SC_FEEDSTART.FRAC, bits [7:0] (R280). -/
def SC_FEEDSTART_FRAC (i : Nat) : Fld := ⟨SC_FEEDSTART i, 7, 0⟩
/-- Address of register SC_FEEDEND (R280). -/
abbrev SC_FEEDEND (i : Nat) : Nat := 0x260011 + 0x4 * i
/-- SC_FEEDEND.LINE, bits [24:8] (R280). -/
def SC_FEEDEND_LINE (i : Nat) : Fld := ⟨SC_FEEDEND i, 24, 8⟩
/-- SC_FEEDEND.FRAC, bits [7:0] (R280). -/
def SC_FEEDEND_FRAC (i : Nat) : Fld := ⟨SC_FEEDEND i, 7, 0⟩
/-- Address of register SC_FEEDFLIP (R280). -/
abbrev SC_FEEDFLIP (i : Nat) : Nat := 0x260012 + 0x4 * i
/-- SC_FEEDFLIP.FLINE, bits [16:0] (R280). -/
def SC_FEEDFLIP_FLINE (i : Nat) : Fld := ⟨SC_FEEDFLIP i, 16, 0⟩
/-- Address of register SC_FEEDCYC (R280). -/
abbrev SC_FEEDCYC (i : Nat) : Nat := 0x260013 + 0x4 * i
/-- SC_FEEDCYC.NCYC, bits [22:16] (R280). -/
def SC_FEEDCYC_NCYC (i : Nat) : Fld := ⟨SC_FEEDCYC i, 22, 16⟩
/-- SC_FEEDCYC.FIRST, bits [13:8] (R280). -/
def SC_FEEDCYC_FIRST (i : Nat) : Fld := ⟨SC_FEEDCYC i, 13, 8⟩
/-- SC_FEEDCYC.LAST, bits [5:0] (R280). -/
def SC_FEEDCYC_LAST (i : Nat) : Fld := ⟨SC_FEEDCYC i, 5, 0⟩
/-- Address of register SC_ECCCTL (R398). -/
abbrev SC_ECCCTL : Nat := 0x270000
/-- SC_ECCCTL.CNTCLR, bits [31:31] (R398). -/
def SC_ECCCTL_CNTCLR : Fld := ⟨SC_ECCCTL, 31, 31⟩
/-- SC_ECCCTL.CTHR, bits [23:16] (R398). -/
def SC_ECCCTL_CTHR : Fld := ⟨SC_ECCCTL, 23, 16⟩
/-- SC_ECCCTL.CFRAMES, bits [11:8] (R398). -/
def SC_ECCCTL_CFRAMES : Fld := ⟨SC_ECCCTL, 11, 8⟩
/-- SC_ECCCTL.DSCRUBEN, bits [0:0] (R398). -/
def SC_ECCCTL_DSCRUBEN : Fld := ⟨SC_ECCCTL, 0, 0⟩
/-- Address of register SC_ECCSTAT (R398). -/
abbrev SC_ECCSTAT : Nat := 0x270001
/-- SC_ECCSTAT.CRUN, bits [31:28] (R398). -/
def SC_ECCSTAT_CRUN : Fld := ⟨SC_ECCSTAT, 31, 28⟩
/-- SC_ECCSTAT.FATAL, bits [4:4] (R398). -/
def SC_ECCSTAT_FATAL : Fld := ⟨SC_ECCSTAT, 4, 4⟩
/-- SC_ECCSTAT.FATALEV, bits [3:3] (R398). -/
def SC_ECCSTAT_FATALEV : Fld := ⟨SC_ECCSTAT, 3, 3⟩
/-- SC_ECCSTAT.CONCEV, bits [2:2] (R398). -/
def SC_ECCSTAT_CONCEV : Fld := ⟨SC_ECCSTAT, 2, 2⟩
/-- SC_ECCSTAT.UEEV, bits [1:1] (R398). -/
def SC_ECCSTAT_UEEV : Fld := ⟨SC_ECCSTAT, 1, 1⟩
/-- SC_ECCSTAT.CEEV, bits [0:0] (R398). -/
def SC_ECCSTAT_CEEV : Fld := ⟨SC_ECCSTAT, 0, 0⟩
/-- Address of register SC_ECCCNT (R398). -/
abbrev SC_ECCCNT : Nat := 0x270002
/-- SC_ECCCNT.UE, bits [31:16] (R398). -/
def SC_ECCCNT_UE : Fld := ⟨SC_ECCCNT, 31, 16⟩
/-- SC_ECCCNT.CE, bits [15:0] (R398). -/
def SC_ECCCNT_CE : Fld := ⟨SC_ECCCNT, 15, 0⟩
/-- Address of register SC_ECCCONC (R398). -/
abbrev SC_ECCCONC : Nat := 0x270003
/-- SC_ECCCONC.LASTF, bits [31:16] (R398). -/
def SC_ECCCONC_LASTF : Fld := ⟨SC_ECCCONC, 31, 16⟩
/-- SC_ECCCONC.TOTAL, bits [15:0] (R398). -/
def SC_ECCCONC_TOTAL : Fld := ⟨SC_ECCCONC, 15, 0⟩
/-- Address of register SC_UEADDR (R398). -/
abbrev SC_UEADDR : Nat := 0x270004
/-- SC_UEADDR.ADDR, bits [31:0] (R398). -/
def SC_UEADDR_ADDR : Fld := ⟨SC_UEADDR, 31, 0⟩
/-- Address of register SC_UESRC (R398). -/
abbrev SC_UESRC : Nat := 0x270005
/-- SC_UESRC.MACRO, bits [23:16] (R398). -/
def SC_UESRC_MACRO : Fld := ⟨SC_UESRC, 23, 16⟩
/-- SC_UESRC.REQ, bits [7:0] (R398). -/
def SC_UESRC_REQ : Fld := ⟨SC_UESRC, 7, 0⟩
/-- Address of register SC_DSCRUBB (R398). -/
abbrev SC_DSCRUBB (i : Nat) : Nat := 0x270010 + 0x2 * i
/-- SC_DSCRUBB.BASE, bits [31:12] (R398). -/
def SC_DSCRUBB_BASE (i : Nat) : Fld := ⟨SC_DSCRUBB i, 31, 12⟩
/-- SC_DSCRUBB.EN, bits [0:0] (R398). -/
def SC_DSCRUBB_EN (i : Nat) : Fld := ⟨SC_DSCRUBB i, 0, 0⟩
/-- Address of register SC_DSCRUBL (R398). -/
abbrev SC_DSCRUBL (i : Nat) : Nat := 0x270011 + 0x2 * i
/-- SC_DSCRUBL.LIMIT, bits [31:12] (R398). -/
def SC_DSCRUBL_LIMIT (i : Nat) : Fld := ⟨SC_DSCRUBL i, 31, 12⟩

end Sys2Proof.Machine
end

