-- ==== Sys2Proof/Machine/RegTable.lean ====
section
/-! DEFINITION. The register tables of the spec: one row per register (or array of registers) with its house word
address, the access code, reset value and accepted values of every field. Bits that no field names are RSV (R13).
Rows are split by block so that an address is looked up among the registers of its own block only. -/

namespace Sys2Proof.Machine

/-- Registers HS_ID to HS_DWIN (R3, R15, R53, R54, R55, R329, R330). -/
def houseRegs : List RegSpec := [
  { name := "HS_ID", addr := 0x100000, dims := [], presence := .always, copies := .one, resetKind := .fields, hook := .hsId,
    fields := [⟨"ID", 27, 0, .ro, 0x0, .any⟩] },
  { name := "HS_RSVWR", addr := 0x100001, dims := [], presence := .always, copies := .one, resetKind := .fields, hook := .hsRsvwr,
    fields := [⟨"CLEAR", 31, 31, .wo, 0x0, .any⟩, ⟨"SAT", 24, 24, .ro, 0x0, .any⟩, ⟨"COUNT", 23, 0, .ro, 0x0, .any⟩] },
  { name := "HS_BRCTL", addr := 0x100002, dims := [], presence := .always, copies := .one, resetKind := .fields, hook := .brCtl,
    fields := [⟨"ERRTHR", 11, 8, .rw, 0x4, .any⟩, ⟨"CNTCLR", 2, 2, .wo, 0x0, .any⟩, ⟨"ALLOW4", 1, 1, .rw, 0x1, .any⟩, ⟨"RETRAIN", 0, 0, .wo, 0x0, .any⟩] },
  { name := "HS_BRSTAT", addr := 0x100003, dims := [], presence := .always, copies := .one, resetKind := .fields, hook := .none,
    fields := [⟨"LANES_SH", 31, 24, .ro, 0x0, .any⟩, ⟨"LANES_HS", 23, 16, .ro, 0x0, .any⟩, ⟨"DOWNEV", 11, 11, .w1c, 0x0, .any⟩, ⟨"NARROWED", 10, 10, .w1c, 0x0, .any⟩, ⟨"RETRAINED", 9, 9, .w1c, 0x0, .any⟩, ⟨"REPLAYED", 8, 8, .w1c, 0x0, .any⟩, ⟨"STATE", 2, 0, .ro, 0x0, .any⟩] },
  { name := "HS_BRERR", addr := 0x100004, dims := [], presence := .always, copies := .one, resetKind := .fields, hook := .none,
    fields := [⟨"DROPPED", 31, 24, .ro, 0x0, .any⟩, ⟨"REPLAYS", 23, 12, .ro, 0x0, .any⟩, ⟨"CRCERR", 11, 0, .ro, 0x0, .any⟩] },
  { name := "HS_CORECTL", addr := 0x100008, dims := [], presence := .always, copies := .one, resetKind := .fields, hook := .coreCtl,
    fields := [⟨"RESET", 11, 8, .wo, 0x0, .any⟩, ⟨"RUN", 3, 0, .rw, 0x1, .any⟩] },
  { name := "HS_CORESTAT", addr := 0x100009, dims := [], presence := .always, copies := .one, resetKind := .fields, hook := .coreStat,
    fields := [⟨"LOCKEV", 11, 8, .w1c, 0x0, .any⟩, ⟨"HALTED", 7, 4, .ro, 0x0, .any⟩, ⟨"LOCKED", 3, 0, .ro, 0x0, .any⟩] },
  { name := "HS_CORESTART", addr := 0x10000C, dims := [(4, 0x1)], presence := .always, copies := .one, resetKind := .fields, hook := .none,
    fields := [⟨"START", 23, 0, .rw, 0x1F0000, .any⟩] },
  { name := "HS_MRBANK", addr := 0x100010, dims := [], presence := .always, copies := .core, resetKind := .fields, hook := .coreCopy,
    fields := [⟨"BANK", 1, 0, .rw, 0x0, .any⟩] },
  { name := "HS_DWIN", addr := 0x100011, dims := [(4, 0x1)], presence := .always, copies := .core, resetKind := .fields, hook := .coreCopy,
    fields := [⟨"BASE", 31, 22, .rw, 0x0, .any⟩, ⟨"EN", 0, 0, .rw, 0x0, .any⟩] }]

/-- Registers HIC_SRCCFG to HIC_STAT (R365, R366). -/
def hicRegs : List RegSpec := [
  { name := "HIC_SRCCFG", addr := 0x101000, dims := [(256, 0x1)], presence := .always, copies := .one, resetKind := .fields, hook := .hicSrccfg,
    fields := [⟨"CUNIT", 28, 28, .rw, 0x0, .any⟩, ⟨"CTIME", 27, 16, .rw, 0x0, .any⟩, ⟨"CCOUNT", 15, 8, .rw, 0x1, .any⟩, ⟨"TARGETS", 7, 4, .rw, 0x0, .any⟩, ⟨"LEVEL", 3, 0, .rw, 0x0, .any⟩] },
  { name := "HIC_PEND", addr := 0x101100, dims := [(8, 0x1)], presence := .always, copies := .one, resetKind := .fields, hook := .hicPend,
    fields := [⟨"PEND", 31, 0, .w1c, 0x0, .any⟩] },
  { name := "HIC_FORCE", addr := 0x101108, dims := [(8, 0x1)], presence := .always, copies := .one, resetKind := .fields, hook := .hicForce,
    fields := [⟨"FORCE", 31, 0, .wo, 0x0, .any⟩] },
  { name := "HIC_HELD", addr := 0x101110, dims := [(8, 0x1)], presence := .always, copies := .one, resetKind := .fields, hook := .hicHeld,
    fields := [⟨"HELD", 31, 0, .ro, 0x0, .any⟩] },
  { name := "HIC_CORE", addr := 0x101120, dims := [(4, 0x1)], presence := .always, copies := .one, resetKind := .fields, hook := .hicCore,
    fields := [⟨"OFFER", 31, 31, .ro, 0x0, .any⟩, ⟨"SOURCE", 23, 16, .ro, 0x0, .any⟩, ⟨"LEVEL", 3, 0, .ro, 0x0, .any⟩] },
  { name := "HIC_WAKEEN", addr := 0x101130, dims := [], presence := .always, copies := .one, resetKind := .fields, hook := .none,
    fields := [⟨"EN", 31, 0, .rw, 0x0, .any⟩] },
  { name := "HIC_WAKELAT", addr := 0x101131, dims := [], presence := .always, copies := .one, resetKind := .fields, hook := .none,
    fields := [⟨"LAT", 31, 0, .w1c, 0x0, .any⟩] },
  { name := "HIC_CTL", addr := 0x101140, dims := [], presence := .always, copies := .one, resetKind := .fields, hook := .hicCtl,
    fields := [⟨"CNTCLR", 0, 0, .wo, 0x0, .any⟩] },
  { name := "HIC_STAT", addr := 0x101141, dims := [], presence := .always, copies := .one, resetKind := .fields, hook := .none,
    fields := [⟨"MERGED", 31, 16, .ro, 0x0, .any⟩, ⟨"LASTMERGE", 7, 0, .ro, 0x0, .any⟩] }]

/-- Registers DMA_CHCTL to DMA_CHERRADDR (R377). -/
def dmaRegs : List RegSpec := [
  { name := "DMA_CHCTL", addr := 0x102000, dims := [(32, 0x8)], presence := .always, copies := .one, resetKind := .fields, hook := .dmaCtl,
    fields := [⟨"NSPACE", 8, 8, .rw, 0x0, .any⟩, ⟨"PRIO", 5, 4, .rw, 0x0, .any⟩, ⟨"ABORT", 1, 1, .wo, 0x0, .any⟩, ⟨"START", 0, 0, .wo, 0x0, .any⟩] },
  { name := "DMA_CHDESC", addr := 0x102001, dims := [(32, 0x8)], presence := .always, copies := .one, resetKind := .fields, hook := .none,
    fields := [⟨"ADDR", 31, 0, .rw, 0x0, .any⟩] },
  { name := "DMA_CHSTAT", addr := 0x102002, dims := [(32, 0x8)], presence := .always, copies := .one, resetKind := .fields, hook := .dmaStat,
    fields := [⟨"BUSY", 31, 31, .ro, 0x0, .any⟩, ⟨"WAITPACE", 30, 30, .ro, 0x0, .any⟩, ⟨"WBFAIL", 29, 29, .ro, 0x0, .any⟩, ⟨"HALTEV", 28, 28, .w1c, 0x0, .any⟩, ⟨"CAUSE", 27, 24, .ro, 0x0, .any⟩, ⟨"LOSTTRIG", 23, 16, .ro, 0x0, .any⟩, ⟨"DONES", 15, 0, .ro, 0x0, .any⟩] },
  { name := "DMA_CHREM", addr := 0x102003, dims := [(32, 0x8)], presence := .always, copies := .one, resetKind := .fields, hook := .dmaRem,
    fields := [⟨"REM", 23, 0, .ro, 0x0, .any⟩] },
  { name := "DMA_CHCUR", addr := 0x102004, dims := [(32, 0x8)], presence := .always, copies := .one, resetKind := .fields, hook := .none,
    fields := [⟨"ADDR", 31, 0, .ro, 0x0, .any⟩] },
  { name := "DMA_CHERRADDR", addr := 0x102005, dims := [(32, 0x8)], presence := .always, copies := .one, resetKind := .fields, hook := .none,
    fields := [⟨"ADDR", 31, 0, .ro, 0x0, .any⟩] }]

/-- Registers HS_TMRCTL to HS_TMRPER (R367). -/
def timerRegs : List RegSpec := [
  { name := "HS_TMRCTL", addr := 0x103000, dims := [(8, 0x2)], presence := .always, copies := .one, resetKind := .fields, hook := .tmrCtl,
    fields := [⟨"ONESHOT", 1, 1, .rw, 0x0, .any⟩, ⟨"EN", 0, 0, .rw, 0x0, .any⟩] },
  { name := "HS_TMRPER", addr := 0x103001, dims := [(8, 0x2)], presence := .always, copies := .one, resetKind := .fields, hook := .none,
    fields := [⟨"PER", 31, 0, .rw, 0x9C40, (.range 40 0xFFFFFFFF)⟩] }]

/-- Registers WV_CTL to WV_PORTSTAT (R436, R437). -/
def weaveRegs0 : List RegSpec := [
  { name := "WV_CTL", addr := 0x104000, dims := [], presence := .always, copies := .one, resetKind := .fields, hook := .wvCtl,
    fields := [⟨"CNTCLR", 31, 31, .wo, 0x0, .any⟩, ⟨"HOPLIM", 25, 16, .rw, 0x3FF, .nonzero⟩, ⟨"VIW", 15, 12, .rw, 0x4, .any⟩, ⟨"SCW", 11, 8, .rw, 0x1, .any⟩, ⟨"LINKHOLD", 7, 0, .rw, 0xA, .any⟩] },
  { name := "WV_POS", addr := 0x104001, dims := [], presence := .always, copies := .one, resetKind := .fields, hook := .wvPos,
    fields := [⟨"POSV", 31, 31, .ro, 0x0, .any⟩, ⟨"SIDE", 30, 30, .rw, 0x0, .any⟩, ⟨"ROW", 29, 16, .rw, 0x0, .any⟩, ⟨"COL", 13, 0, .rw, 0x0, .any⟩] },
  { name := "WV_ID", addr := 0x104002, dims := [], presence := .always, copies := .one, resetKind := .fields, hook := .none,
    fields := [⟨"MIDV", 31, 31, .ro, 0x0, .any⟩, ⟨"MID", 13, 0, .ro, 0x0, .any⟩] },
  { name := "WV_GEOBASE", addr := 0x104003, dims := [], presence := .always, copies := .one, resetKind := .fields, hook := .none,
    fields := [⟨"BASE", 31, 19, .rw, 0x0, .any⟩] },
  { name := "WV_GEPOCH", addr := 0x104004, dims := [], presence := .always, copies := .one, resetKind := .fields, hook := .none,
    fields := [⟨"GEPOCH", 31, 0, .ro, 0x0, .any⟩] },
  { name := "WV_STAT", addr := 0x104005, dims := [], presence := .always, copies := .one, resetKind := .fields, hook := .none,
    fields := [⟨"GEOREFEV", 5, 5, .w1c, 0x0, .any⟩, ⟨"GEOEV", 4, 4, .w1c, 0x0, .any⟩, ⟨"CONFEV", 3, 3, .w1c, 0x0, .any⟩, ⟨"POSEV", 2, 2, .w1c, 0x0, .any⟩, ⟨"LOSSEV", 1, 1, .w1c, 0x0, .any⟩, ⟨"FULLEV", 0, 0, .w1c, 0x0, .any⟩] },
  { name := "WV_FWDCNT", addr := 0x104006, dims := [], presence := .always, copies := .one, resetKind := .fields, hook := .none,
    fields := [⟨"NOROUTE", 31, 24, .ro, 0x0, .any⟩, ⟨"MCIN", 23, 16, .ro, 0x0, .any⟩, ⟨"HOPX", 15, 8, .ro, 0x0, .any⟩, ⟨"MCDROP", 7, 0, .ro, 0x0, .any⟩] },
  { name := "WV_ENGCNT", addr := 0x104007, dims := [], presence := .always, copies := .one, resetKind := .fields, hook := .none,
    fields := [⟨"BADHDR", 31, 24, .ro, 0x0, .any⟩, ⟨"BADQ", 23, 16, .ro, 0x0, .any⟩, ⟨"VIDDROP", 15, 8, .ro, 0x0, .any⟩, ⟨"AUTHFAIL", 7, 0, .ro, 0x0, .any⟩] },
  { name := "WV_RTSEL", addr := 0x104008, dims := [], presence := .always, copies := .one, resetKind := .fields, hook := .none,
    fields := [⟨"MID", 13, 0, .rw, 0x0, .any⟩] },
  { name := "WV_RTDATA", addr := 0x104009, dims := [], presence := .always, copies := .one, resetKind := .fields, hook := .wvRtdata,
    fields := [⟨"ENTRY", 15, 0, .rw, 0x0, .any⟩] },
  { name := "WV_PORTCFG", addr := 0x104010, dims := [(7, 0x4)], presence := .port, copies := .one, resetKind := .fields, hook := .wvPortcfg,
    fields := [⟨"RETRAIN", 8, 8, .wo, 0x0, .any⟩, ⟨"ERRTHR", 7, 4, .rw, 0x4, .any⟩, ⟨"EGR", 2, 2, .rw, 0x0, .any⟩, ⟨"ALLOW1", 1, 1, .rw, 0x1, .any⟩, ⟨"EN", 0, 0, .rw, 0x1, .any⟩] },
  { name := "WV_PORTSTAT", addr := 0x104011, dims := [(7, 0x4)], presence := .port, copies := .one, resetKind := .fields, hook := .none,
    fields := [⟨"NDIST", 31, 24, .ro, 0xFF, .any⟩, ⟨"VIDLOAD", 22, 16, .ro, 0x0, .any⟩, ⟨"VIDOVEV", 15, 15, .w1c, 0x0, .any⟩, ⟨"FENCEEV", 14, 14, .w1c, 0x0, .any⟩, ⟨"DOWNEV", 13, 13, .w1c, 0x0, .any⟩, ⟨"UPEV", 12, 12, .w1c, 0x0, .any⟩, ⟨"FENCE", 11, 8, .ro, 0x0, .any⟩, ⟨"PARENT", 7, 7, .ro, 0x0, .any⟩, ⟨"CHILD", 6, 6, .ro, 0x0, .any⟩, ⟨"DLYV", 5, 5, .ro, 0x0, .any⟩, ⟨"LANES", 4, 3, .ro, 0x0, .any⟩, ⟨"STATE", 2, 0, .ro, 0x0, .any⟩] }]

/-- Registers WV_PORTDLY to WV_TWPLOG (R437, R438, R464). -/
def weaveRegs1 : List RegSpec := [
  { name := "WV_PORTDLY", addr := 0x104012, dims := [(7, 0x4)], presence := .port, copies := .one, resetKind := .fields, hook := .none,
    fields := [⟨"DELAY", 23, 0, .ro, 0x0, .any⟩] },
  { name := "WV_PORTERR", addr := 0x104013, dims := [(7, 0x4)], presence := .port, copies := .one, resetKind := .fields, hook := .none,
    fields := [⟨"CRCERR", 31, 20, .ro, 0x0, .any⟩, ⟨"REPLAYS", 19, 8, .ro, 0x0, .any⟩, ⟨"RETRAINS", 7, 0, .ro, 0x0, .any⟩] },
  { name := "WV_DRDT", addr := 0x104100, dims := [], presence := .always, copies := .one, resetKind := .fields, hook := .none,
    fields := [⟨"BASE", 31, 12, .rw, 0x0, .any⟩] },
  { name := "WV_DRSEL", addr := 0x104101, dims := [], presence := .always, copies := .one, resetKind := .fields, hook := .none,
    fields := [⟨"QID", 13, 0, .rw, 0x0, .any⟩] },
  { name := "WV_DRCMD", addr := 0x104102, dims := [], presence := .always, copies := .one, resetKind := .fields, hook := .wvDrcmd,
    fields := [⟨"CMD", 1, 0, .wo, 0x0, .any⟩] },
  { name := "WV_DRPTR", addr := 0x104103, dims := [], presence := .always, copies := .one, resetKind := .fields, hook := .wvDrptr,
    fields := [⟨"TAIL", 31, 16, .rw, 0x0, .any⟩, ⟨"HEAD", 15, 0, .rw, 0x0, .any⟩] },
  { name := "WV_DRSTAT", addr := 0x104104, dims := [], presence := .always, copies := .one, resetKind := .fields, hook := .wvDrstat,
    fields := [⟨"NEXT", 31, 16, .ro, 0x0, .any⟩, ⟨"EN", 15, 15, .ro, 0x0, .any⟩, ⟨"DAMAGED", 14, 14, .ro, 0x0, .any⟩, ⟨"FULL", 13, 13, .ro, 0x0, .any⟩, ⟨"HELD", 5, 0, .ro, 0x0, .any⟩] },
  { name := "WV_DRCNT", addr := 0x104105, dims := [], presence := .always, copies := .one, resetKind := .fields, hook := .wvDrcnt,
    fields := [⟨"LOST", 31, 16, .ro, 0x0, .any⟩, ⟨"DUP", 15, 0, .ro, 0x0, .any⟩] },
  { name := "WV_TWCTL", addr := 0x104200, dims := [], presence := .twin, copies := .one, resetKind := .fields, hook := .wvTwctl,
    fields := [⟨"PATCHTIME", 31, 24, .rw, 0x32, .any⟩, ⟨"MMFRAMES", 19, 16, .rw, 0x3, .any⟩, ⟨"CNTCLR", 3, 3, .wo, 0x0, .any⟩, ⟨"TAKE", 2, 2, .wo, 0x0, .any⟩, ⟨"YIELD", 1, 1, .wo, 0x0, .any⟩, ⟨"EN", 0, 0, .rw, 0x1, .any⟩] },
  { name := "WV_TWSTAT", addr := 0x104201, dims := [], presence := .twin, copies := .one, resetKind := .fields, hook := .wvTwstat,
    fields := [⟨"PMID", 31, 18, .ro, 0x0, .any⟩, ⟨"TAKEOVEREV", 15, 15, .w1c, 0x0, .any⟩, ⟨"SILENTEV", 14, 14, .w1c, 0x0, .any⟩, ⟨"DIVEV", 13, 13, .w1c, 0x0, .any⟩, ⟨"CHKEV", 12, 12, .w1c, 0x0, .any⟩, ⟨"CMDREFEV", 11, 11, .w1c, 0x0, .any⟩, ⟨"CHK", 10, 8, .ro, 0x0, .any⟩, ⟨"EPDIFF", 7, 7, .ro, 0x0, .any⟩, ⟨"SILENT", 6, 6, .ro, 0x0, .any⟩, ⟨"PAIRED", 5, 5, .ro, 0x0, .any⟩, ⟨"ROLE", 1, 0, .ro, 0x0, .any⟩] },
  { name := "WV_TWCNT", addr := 0x104202, dims := [], presence := .twin, copies := .one, resetKind := .fields, hook := .none,
    fields := [⟨"MMFR", 31, 24, .ro, 0x0, .any⟩, ⟨"PATCHED", 23, 16, .ro, 0x0, .any⟩, ⟨"PATCHMISS", 15, 8, .ro, 0x0, .any⟩, ⟨"HBMISS", 7, 0, .ro, 0x0, .any⟩] },
  { name := "WV_TWPLOG", addr := 0x104203, dims := [], presence := .twin, copies := .one, resetKind := .fields, hook := .none,
    fields := [⟨"PAGES", 31, 24, .rw, 0x0, .any⟩, ⟨"FIRST", 8, 0, .rw, 0x0, .any⟩] }]

/-- Registers WV_MC to WV_MC (R438). -/
def weaveRegs2 : List RegSpec := [
  { name := "WV_MC", addr := 0x104400, dims := [(256, 0x1)], presence := .always, copies := .one, resetKind := .fields, hook := .none,
    fields := [⟨"VALID", 11, 11, .rw, 0x0, .any⟩, ⟨"IN", 10, 8, .rw, 0x0, .any⟩, ⟨"OUT", 7, 0, .rw, 0x0, .any⟩] }]

/-- Every register of the block. -/
def weaveRegs : List RegSpec := weaveRegs0 ++ weaveRegs1 ++ weaveRegs2

/-- Registers AU_CTL to AU_STRB (R488, R489, R490, R491, R492). -/
def audioRegs0 : List RegSpec := [
  { name := "AU_CTL", addr := 0x106000, dims := [], presence := .audio, copies := .one, resetKind := .fields, hook := .auCtl,
    fields := [⟨"CNTCLR", 31, 31, .wo, 0x0, .any⟩, ⟨"I2SEN", 5, 5, .rw, 0x0, .any⟩, ⟨"TDMEN", 4, 4, .rw, 0x0, .any⟩, ⟨"D96SRC", 3, 3, .rw, 0x0, .any⟩, ⟨"CODECM", 2, 2, .rw, 0x1, .any⟩, ⟨"EN", 0, 0, .rw, 0x0, .any⟩] },
  { name := "AU_D96NS", addr := 0x106001, dims := [], presence := .audio, copies := .one, resetKind := .fields, hook := .none,
    fields := [⟨"NS", 15, 0, .rw, 0x7D0, .any⟩] },
  { name := "AU_STAT", addr := 0x106002, dims := [], presence := .audio, copies := .one, resetKind := .fields, hook := .none,
    fields := [⟨"EVDEPTH", 25, 16, .ro, 0x0, .any⟩, ⟨"D96LOCK", 9, 9, .ro, 0x0, .any⟩, ⟨"BRLOCK", 8, 8, .ro, 0x0, .any⟩, ⟨"STARVEEV", 7, 7, .w1c, 0x0, .any⟩, ⟨"CLKEV", 6, 6, .w1c, 0x0, .any⟩, ⟨"UNLOCKEV", 5, 5, .w1c, 0x0, .any⟩, ⟨"UNDEREV", 4, 4, .w1c, 0x0, .any⟩, ⟨"BADEVEV", 3, 3, .w1c, 0x0, .any⟩, ⟨"EVLATEEV", 2, 2, .w1c, 0x0, .any⟩, ⟨"EVFULL", 1, 1, .w1c, 0x0, .any⟩, ⟨"VENDEV", 0, 0, .w1c, 0x0, .any⟩] },
  { name := "AU_CNT", addr := 0x106003, dims := [], presence := .audio, copies := .one, resetKind := .fields, hook := .none,
    fields := [⟨"STARVE", 31, 24, .ro, 0x0, .any⟩, ⟨"UNDER", 23, 16, .ro, 0x0, .any⟩, ⟨"EVLATE", 15, 8, .ro, 0x0, .any⟩, ⟨"BADEV", 7, 0, .ro, 0x0, .any⟩] },
  { name := "AU_EVPOS", addr := 0x106004, dims := [], presence := .audio, copies := .one, resetKind := .fields, hook := .none,
    fields := [⟨"FRAME", 31, 24, .rw, 0x0, .any⟩, ⟨"LINE", 16, 0, .rw, 0x0, .any⟩] },
  { name := "AU_EVVAL", addr := 0x106005, dims := [], presence := .audio, copies := .one, resetKind := .fields, hook := .none,
    fields := [⟨"VALUE", 31, 0, .rw, 0x0, .any⟩] },
  { name := "AU_EVCMD", addr := 0x106006, dims := [], presence := .audio, copies := .one, resetKind := .fields, hook := .auEvcmd,
    fields := [⟨"OP", 11, 8, .wo, 0x0, .any⟩, ⟨"VOICE", 7, 0, .wo, 0x0, .any⟩] },
  { name := "AU_DIST", addr := 0x106007, dims := [], presence := .audio, copies := .one, resetKind := .fields, hook := .none,
    fields := [⟨"DSHIFT", 3, 0, .rw, 0x0, .any⟩] },
  { name := "AU_VEND", addr := 0x106008, dims := [(8, 0x1)], presence := .audio, copies := .one, resetKind := .fields, hook := .none,
    fields := [⟨"END", 31, 0, .w1c, 0x0, .any⟩] },
  { name := "AU_OUT", addr := 0x106010, dims := [(8, 0x2)], presence := .audio, copies := .one, resetKind := .fields, hook := .none,
    fields := [⟨"MUTE", 18, 18, .rw, 0x0, .any⟩, ⟨"STOOL", 17, 16, .rw, 0x0, .any⟩, ⟨"SELB", 12, 8, .rw, 0x0, .audioSel⟩, ⟨"SELA", 4, 0, .rw, 0x0, .audioSel⟩] },
  { name := "AU_OUTG", addr := 0x106011, dims := [(8, 0x2)], presence := .audio, copies := .one, resetKind := .fields, hook := .none,
    fields := [⟨"GAINB", 31, 16, .rw, 0x0, .any⟩, ⟨"GAINA", 15, 0, .rw, 0x8000, .any⟩] },
  { name := "AU_STRB", addr := 0x106020, dims := [(8, 0x4)], presence := .audio, copies := .one, resetKind := .fields, hook := .none,
    fields := [⟨"BASE", 23, 0, .rw, 0x0, (.range 0 524287)⟩] }]

/-- Registers AU_STRS to AU_VDG (R492, R493). -/
def audioRegs1 : List RegSpec := [
  { name := "AU_STRS", addr := 0x106021, dims := [(8, 0x4)], presence := .audio, copies := .one, resetKind := .fields, hook := .auStrs,
    fields := [⟨"SIZE", 15, 0, .rw, 0x0, .any⟩] },
  { name := "AU_STRW", addr := 0x106022, dims := [(8, 0x4)], presence := .audio, copies := .one, resetKind := .fields, hook := .none,
    fields := [⟨"WP", 15, 0, .rw, 0x0, .any⟩] },
  { name := "AU_STRP", addr := 0x106023, dims := [(8, 0x4)], presence := .audio, copies := .one, resetKind := .fields, hook := .none,
    fields := [⟨"RP", 15, 0, .ro, 0x0, .any⟩] },
  { name := "AU_DLAW", addr := 0x106100, dims := [(256, 0x1)], presence := .audio, copies := .one, resetKind := .fields, hook := .none,
    fields := [⟨"LEVEL", 15, 0, .rw, 0x8000, .any⟩] },
  { name := "AU_VCTL", addr := 0x106800, dims := [(256, 0x8)], presence := .audio, copies := .one, resetKind := .fields, hook := .auVctl,
    fields := [⟨"FMT", 6, 5, .rw, 0x0, (.range 0 1)⟩, ⟨"BUS", 4, 3, .rw, 0x0, .any⟩, ⟨"BIND", 2, 2, .rw, 0x0, .any⟩, ⟨"LOOP", 1, 1, .rw, 0x0, .any⟩, ⟨"RUN", 0, 0, .rw, 0x0, .any⟩] },
  { name := "AU_VSTART", addr := 0x106801, dims := [(256, 0x8)], presence := .audio, copies := .one, resetKind := .fields, hook := .none,
    fields := [⟨"START", 31, 0, .rw, 0x0, .any⟩] },
  { name := "AU_VLEN", addr := 0x106802, dims := [(256, 0x8)], presence := .audio, copies := .one, resetKind := .fields, hook := .none,
    fields := [⟨"LEN", 23, 0, .rw, 0x0, .any⟩] },
  { name := "AU_VLOOP", addr := 0x106803, dims := [(256, 0x8)], presence := .audio, copies := .one, resetKind := .fields, hook := .none,
    fields := [⟨"LOOPST", 23, 0, .rw, 0x0, .any⟩] },
  { name := "AU_VSTEP", addr := 0x106804, dims := [(256, 0x8)], presence := .audio, copies := .one, resetKind := .fields, hook := .none,
    fields := [⟨"STEP", 23, 0, .rw, 0x10000, .any⟩] },
  { name := "AU_VGAIN", addr := 0x106805, dims := [(256, 0x8)], presence := .audio, copies := .one, resetKind := .fields, hook := .none,
    fields := [⟨"VGAIN", 15, 0, .rw, 0x0, .any⟩] },
  { name := "AU_VPOS", addr := 0x106806, dims := [(256, 0x8)], presence := .audio, copies := .one, resetKind := .fields, hook := .none,
    fields := [⟨"POS", 23, 0, .ro, 0x0, .any⟩] },
  { name := "AU_VDG", addr := 0x106807, dims := [(256, 0x8)], presence := .audio, copies := .one, resetKind := .fields, hook := .none,
    fields := [⟨"DGAIN", 15, 0, .ro, 0x8000, .any⟩] }]

/-- Every register of the block. -/
def audioRegs : List RegSpec := audioRegs0 ++ audioRegs1

/-- Registers SEC_STAT to SEC_KEYST (R542). -/
def securityRegs : List RegSpec := [
  { name := "SEC_STAT", addr := 0x107000, dims := [], presence := .always, copies := .one, resetKind := .fields, hook := .none,
    fields := [⟨"LATCHED", 21, 16, .w1c, 0x0, .any⟩, ⟨"ACTIVE", 13, 8, .ro, 0x0, .any⟩, ⟨"ALMEV", 7, 7, .w1c, 0x0, .any⟩, ⟨"DBGEV", 6, 6, .w1c, 0x0, .any⟩, ⟨"DEBUG", 3, 2, .ro, 0x0, .any⟩, ⟨"STATE", 1, 0, .ro, 0x0, .any⟩] },
  { name := "SEC_ALMCFG", addr := 0x107001, dims := [], presence := .always, copies := .one, resetKind := .fields, hook := .secAlmcfg,
    fields := [⟨"LOCK", 31, 31, .w1s, 0x0, .any⟩, ⟨"LEVEL", 11, 0, .rw, 0x559, .any⟩] },
  { name := "SEC_CMD", addr := 0x107002, dims := [], presence := .always, copies := .one, resetKind := .fields, hook := .secCmd,
    fields := [⟨"GUARDCLR", 0, 0, .wo, 0x0, .any⟩] },
  { name := "SEC_UNLK", addr := 0x107003, dims := [], presence := .always, copies := .one, resetKind := .fields, hook := .none,
    fields := [⟨"LEASE", 31, 24, .rw, 0x3C, .any⟩, ⟨"LIMIT", 7, 4, .rw, 0x3, .any⟩, ⟨"FAILS", 3, 0, .ro, 0x0, .any⟩] },
  { name := "SEC_KEYST", addr := 0x107004, dims := [], presence := .always, copies := .one, resetKind := .fields, hook := .none,
    fields := [⟨"LOADED", 31, 0, .ro, 0x0, .any⟩] }]

/-- Registers HS_RECCTL to HS_RECPUT (R588). -/
def recorderRegs : List RegSpec := [
  { name := "HS_RECCTL", addr := 0x108000, dims := [], presence := .always, copies := .one, resetKind := .fields, hook := .recCtl,
    fields := [⟨"CNTCLR", 31, 31, .wo, 0x0, .any⟩, ⟨"IRQMASK", 13, 8, .rw, 0x1E, .any⟩, ⟨"TMODE", 1, 1, .rw, 0x1, .any⟩, ⟨"NEXT", 0, 0, .wo, 0x0, .any⟩] },
  { name := "HS_RECSTAT", addr := 0x108001, dims := [], presence := .always, copies := .one, resetKind := .fields, hook := .none,
    fields := [⟨"CALV", 31, 31, .ro, 0x0, .any⟩, ⟨"PINFULL", 30, 30, .ro, 0x0, .any⟩, ⟨"PINCNT", 25, 16, .ro, 0x0, .any⟩, ⟨"RECEV", 7, 7, .w1c, 0x0, .any⟩, ⟨"PINEV", 6, 6, .w1c, 0x0, .any⟩, ⟨"DROPEV", 5, 5, .w1c, 0x0, .any⟩, ⟨"STOREEV", 4, 4, .w1c, 0x0, .any⟩, ⟨"CURST", 2, 0, .ro, 0x3, .any⟩] },
  { name := "HS_RECTOTL", addr := 0x108002, dims := [], presence := .always, copies := .one, resetKind := .fields, hook := .recTotl,
    fields := [⟨"TOTAL", 31, 0, .ro, 0x0, .any⟩] },
  { name := "HS_RECTOTH", addr := 0x108003, dims := [], presence := .always, copies := .one, resetKind := .fields, hook := .none,
    fields := [⟨"TOTAL", 15, 0, .ro, 0x0, .any⟩] },
  { name := "HS_RECCURH", addr := 0x108004, dims := [], presence := .always, copies := .one, resetKind := .fields, hook := .none,
    fields := [⟨"VIEW", 31, 31, .rw, 0x0, .any⟩, ⟨"NUMH", 15, 0, .rw, 0x0, .any⟩] },
  { name := "HS_RECCURL", addr := 0x108005, dims := [], presence := .always, copies := .one, resetKind := .fields, hook := .recCurl,
    fields := [⟨"NUML", 31, 0, .rw, 0x0, .any⟩] },
  { name := "HS_RECCNT", addr := 0x108006, dims := [], presence := .always, copies := .one, resetKind := .fields, hook := .none,
    fields := [⟨"DROPPED", 31, 16, .ro, 0x0, .any⟩, ⟨"PUTREF", 15, 8, .ro, 0x0, .any⟩, ⟨"STOREFAIL", 7, 0, .ro, 0x0, .any⟩] },
  { name := "HS_RECWIN", addr := 0x108008, dims := [(8, 0x1)], presence := .always, copies := .one, resetKind := .fields, hook := .none,
    fields := [⟨"WORD", 31, 0, .ro, 0x0, .any⟩] },
  { name := "HS_RECPUT0", addr := 0x108010, dims := [], presence := .always, copies := .one, resetKind := .fields, hook := .none,
    fields := [⟨"CLASS", 31, 28, .rw, 0x5, .any⟩, ⟨"CODE", 15, 0, .rw, 0x8000, .any⟩] },
  { name := "HS_RECPUT", addr := 0x108011, dims := [(4, 0x1)], presence := .always, copies := .one, resetKind := .fields, hook := .recPut,
    fields := [⟨"P", 31, 0, .rw, 0x0, .any⟩] }]

/-- Registers PAD_CFG to PAD_AVAL (R567). -/
def padRegs0 : List RegSpec := [
  { name := "PAD_CFG", addr := 0x109000, dims := [(512, 0x1)], presence := .pad, copies := .one, resetKind := .fields, hook := .padSetup,
    fields := [⟨"LOCKED", 31, 31, .ro, 0x0, .any⟩, ⟨"HOLD", 15, 15, .rw, 0x0, .any⟩, ⟨"AMODE", 14, 14, .rw, 0x0, .any⟩, ⟨"PULL", 13, 12, .rw, 0x1, .any⟩, ⟨"DRIVE", 11, 10, .rw, 0x1, .any⟩, ⟨"SLEW", 9, 9, .rw, 0x0, .any⟩, ⟨"HYST", 8, 8, .rw, 0x1, .any⟩, ⟨"VTH", 7, 6, .rw, 0x2, (.range 0 2)⟩, ⟨"INEN", 5, 5, .rw, 0x1, .any⟩] },
  { name := "PAD_GPOUT", addr := 0x109200, dims := [(16, 0x1)], presence := .padWord, copies := .one, resetKind := .fields, hook := .padOther,
    fields := [⟨"OUT", 31, 0, .rw, 0x0, .any⟩] },
  { name := "PAD_GPOE", addr := 0x109210, dims := [(16, 0x1)], presence := .padWord, copies := .one, resetKind := .fields, hook := .padGpoe,
    fields := [⟨"OE", 31, 0, .rw, 0x0, .any⟩] },
  { name := "PAD_GPIN", addr := 0x109220, dims := [(16, 0x1)], presence := .padWord, copies := .one, resetKind := .fields, hook := .padGpin,
    fields := [⟨"IN", 31, 0, .ro, 0x0, .any⟩] },
  { name := "PAD_LOCK", addr := 0x109230, dims := [(16, 0x1)], presence := .padWord, copies := .one, resetKind := .fields, hook := .padLock,
    fields := [⟨"LOCK", 31, 0, .w1s, 0x0, .any⟩] },
  { name := "PAD_CTL", addr := 0x109240, dims := [], presence := .always, copies := .one, resetKind := .fields, hook := .padCtl,
    fields := [⟨"CNTCLR", 31, 31, .wo, 0x0, .any⟩, ⟨"HOLDREL", 8, 8, .wo, 0x0, .any⟩, ⟨"LOCKKEY", 7, 0, .wo, 0x0, .any⟩] },
  { name := "PAD_MUXEN", addr := 0x109241, dims := [], presence := .always, copies := .one, resetKind := .fields, hook := .padMuxen,
    fields := [⟨"UARTLOC", 3, 3, .rw, 0x0, .any⟩, ⟨"UARTEN", 2, 2, .rw, 0x0, .any⟩, ⟨"RSALOC", 1, 1, .rw, 0x0, .any⟩, ⟨"RSAEN", 0, 0, .rw, 0x0, .any⟩] },
  { name := "PAD_EGSEL", addr := 0x109242, dims := [], presence := .always, copies := .one, resetKind := .fields, hook := .padSetup,
    fields := [⟨"BIAS", 24, 24, .rw, 0x1, .any⟩, ⟨"PAD", 8, 0, .rw, 0xFF, .bondedPad⟩] },
  { name := "PAD_EGSTAT", addr := 0x109243, dims := [], presence := .always, copies := .one, resetKind := .fields, hook := .padOther,
    fields := [⟨"CODE", 9, 0, .ro, 0x0, .any⟩] },
  { name := "PAD_STAT", addr := 0x109244, dims := [], presence := .always, copies := .one, resetKind := .fields, hook := .padOther,
    fields := [⟨"HELD", 31, 31, .ro, 0x0, .any⟩, ⟨"LOCKDROP", 15, 0, .ro, 0x0, .any⟩] },
  { name := "PAD_ASEL", addr := 0x109245, dims := [], presence := .always, copies := .one, resetKind := .fields, hook := .padAsel,
    fields := [⟨"PAD", 8, 0, .rw, 0x0, .any⟩] },
  { name := "PAD_AVAL", addr := 0x109246, dims := [], presence := .always, copies := .one, resetKind := .fields, hook := .padOther,
    fields := [⟨"VALID", 31, 31, .ro, 0x0, .any⟩, ⟨"CODE", 9, 0, .ro, 0x0, .any⟩] }]

/-- Registers PAD_WAKE to PAD_UART (R567). -/
def padRegs1 : List RegSpec := [
  { name := "PAD_WAKE", addr := 0x109248, dims := [(8, 0x1)], presence := .always, copies := .one, resetKind := .fields, hook := .padSetup,
    fields := [⟨"EN", 31, 31, .rw, 0x0, .any⟩, ⟨"EDGE", 17, 16, .rw, 0x0, (.range 0 2)⟩, ⟨"PAD", 8, 0, .rw, 0x0, .any⟩] },
  { name := "PAD_BANK", addr := 0x109250, dims := [(4, 0x1)], presence := .region, copies := .one, resetKind := .fields, hook := .padBank,
    fields := [⟨"VIO", 0, 0, .rw, 0x1, .any⟩] },
  { name := "PAD_UART", addr := 0x109260, dims := [], presence := .always, copies := .one, resetKind := .fields, hook := .padUart,
    fields := [⟨"RXV", 31, 31, .ro, 0x0, .any⟩, ⟨"TXF", 30, 30, .ro, 0x0, .any⟩, ⟨"BAUD", 19, 16, .rw, 0x0, (.range 0 1)⟩, ⟨"DATA", 7, 0, .rw, 0x0, .any⟩] }]

/-- Every register of the block. -/
def padRegs : List RegSpec := padRegs0 ++ padRegs1

/-- Registers HS_ODCTL to HS_SVCCTL (R516). -/
def dresserRegs0 : List RegSpec := [
  { name := "HS_ODCTL", addr := 0x10A000, dims := [], presence := .always, copies := .one, resetKind := .fields, hook := .odCtl,
    fields := [⟨"CNTCLR", 31, 31, .wo, 0x0, .any⟩, ⟨"FWTIME", 15, 8, .rw, 0xA, .any⟩, ⟨"FWEN", 1, 1, .rw, 0x0, .any⟩, ⟨"GO", 0, 0, .wo, 0x0, .any⟩] },
  { name := "HS_ODREQ", addr := 0x10A001, dims := [], presence := .always, copies := .one, resetKind := .fields, hook := .none,
    fields := [⟨"CMD", 31, 24, .rw, 0x0, .any⟩, ⟨"SUB", 23, 16, .rw, 0x0, .any⟩, ⟨"INDEX", 15, 0, .rw, 0x0, .any⟩] },
  { name := "HS_ODBUF", addr := 0x10A002, dims := [], presence := .always, copies := .one, resetKind := .fields, hook := .none,
    fields := [⟨"BUF", 23, 0, .rw, 0x0, .any⟩] },
  { name := "HS_ODLEN", addr := 0x10A003, dims := [], presence := .always, copies := .one, resetKind := .fields, hook := .none,
    fields := [⟨"LEN", 20, 0, .rw, 0x0, .any⟩] },
  { name := "HS_ODSTAT", addr := 0x10A004, dims := [], presence := .always, copies := .one, resetKind := .fields, hook := .none,
    fields := [⟨"BUSY", 31, 31, .ro, 0x0, .any⟩, ⟨"BUSOFFEV", 3, 3, .w1c, 0x0, .any⟩, ⟨"STOREEV", 2, 2, .w1c, 0x0, .any⟩, ⟨"FWEV", 1, 1, .w1c, 0x0, .any⟩, ⟨"DONEEV", 0, 0, .w1c, 0x0, .any⟩] },
  { name := "HS_ODRES", addr := 0x10A005, dims := [], presence := .always, copies := .one, resetKind := .fields, hook := .none,
    fields := [⟨"STATUS", 31, 0, .ro, 0x0, .any⟩] },
  { name := "HS_ODFW0", addr := 0x10A008, dims := [], presence := .always, copies := .one, resetKind := .fields, hook := .none,
    fields := [⟨"CMD", 31, 24, .ro, 0x0, .any⟩, ⟨"SUB", 23, 16, .ro, 0x0, .any⟩, ⟨"INDEX", 15, 0, .ro, 0x0, .any⟩] },
  { name := "HS_ODFW1", addr := 0x10A009, dims := [], presence := .always, copies := .one, resetKind := .fields, hook := .none,
    fields := [⟨"VALID", 31, 31, .ro, 0x0, .any⟩, ⟨"CLASS", 30, 28, .ro, 0x0, .any⟩, ⟨"EGR", 27, 27, .ro, 0x0, .any⟩, ⟨"LEN", 20, 0, .rw, 0x0, .any⟩] },
  { name := "HS_ODSTG", addr := 0x10A00A, dims := [], presence := .always, copies := .one, resetKind := .fields, hook := .none,
    fields := [⟨"PAGES", 24, 16, .rw, 0x0, (.range 0 256)⟩, ⟨"FIRST", 8, 0, .rw, 0x0, .any⟩] },
  { name := "HS_ODFWANS", addr := 0x10A00B, dims := [], presence := .always, copies := .one, resetKind := .fields, hook := .odFwans,
    fields := [⟨"STATUS", 31, 0, .wo, 0x0, .any⟩] },
  { name := "HS_ODCNT", addr := 0x10A00C, dims := [], presence := .always, copies := .one, resetKind := .fields, hook := .none,
    fields := [⟨"REFUSED", 31, 16, .ro, 0x0, .any⟩, ⟨"SERVED", 15, 0, .ro, 0x0, .any⟩] },
  { name := "HS_SVCCTL", addr := 0x10A010, dims := [], presence := .always, copies := .one, resetKind := .fields, hook := .none,
    fields := [⟨"EN", 8, 8, .rw, 0x1, .any⟩, ⟨"DBR", 5, 4, .rw, 0x2, (.range 0 2)⟩, ⟨"NBR", 1, 0, .rw, 0x2, (.range 0 2)⟩] }]

/-- Registers HS_SVCSTAT to HS_SVCSTAT (R516). -/
def dresserRegs1 : List RegSpec := [
  { name := "HS_SVCSTAT", addr := 0x10A011, dims := [], presence := .always, copies := .one, resetKind := .fields, hook := .none,
    fields := [⟨"TEC", 31, 24, .ro, 0x0, .any⟩, ⟨"REC", 23, 16, .ro, 0x0, .any⟩, ⟨"BSTATE", 1, 0, .ro, 0x0, .any⟩] }]

/-- Every register of the block. -/
def dresserRegs : List RegSpec := dresserRegs0 ++ dresserRegs1

/-- Registers HS_PWRCTL to HS_THERM (R543, R568). -/
def powerRegs : List RegSpec := [
  { name := "HS_PWRCTL", addr := 0x10B000, dims := [], presence := .always, copies := .one, resetKind := .fields, hook := .pwrCtl,
    fields := [⟨"REQ", 1, 0, .rw, 0x0, .any⟩] },
  { name := "HS_PWRSTAT", addr := 0x10B001, dims := [], presence := .always, copies := .one, resetKind := .fields, hook := .pwrStat,
    fields := [⟨"LASTWAKE", 15, 11, .ro, 0x0, .any⟩, ⟨"BUSY", 10, 10, .ro, 0x0, .any⟩, ⟨"EGRUN", 9, 9, .ro, 0x0, .any⟩, ⟨"FREEDARK", 8, 8, .ro, 0x0, .any⟩, ⟨"REFEV", 7, 7, .w1c, 0x0, .any⟩, ⟨"WAKEEV", 6, 6, .w1c, 0x0, .any⟩, ⟨"STATE", 1, 0, .ro, 0x0, .any⟩] },
  { name := "HS_PWRIMG", addr := 0x10B002, dims := [], presence := .always, copies := .one, resetKind := .fields, hook := .none,
    fields := [⟨"BASE", 31, 16, .rw, 0x0, .any⟩] },
  { name := "HS_ISLTMR", addr := 0x10B003, dims := [], presence := .always, copies := .one, resetKind := .fields, hook := .islTmr,
    fields := [⟨"SECONDS", 19, 0, .rw, 0x0, .any⟩] },
  { name := "HS_SUPPLY", addr := 0x10B004, dims := [], presence := .always, copies := .one, resetKind := .fields, hook := .none,
    fields := [⟨"WARN", 31, 31, .ro, 0x0, .any⟩, ⟨"WARNEV", 30, 30, .w1c, 0x0, .any⟩, ⟨"RECOVEV", 29, 29, .w1c, 0x0, .any⟩, ⟨"SLOT", 21, 16, .ro, 0x3F, .any⟩, ⟨"VIN", 15, 0, .ro, 0x0, .any⟩] },
  { name := "HS_THERM", addr := 0x10B005, dims := [], presence := .always, copies := .one, resetKind := .fields, hook := .none,
    fields := [⟨"TDARK", 31, 31, .ro, 0x0, .any⟩, ⟨"TWARNEV", 30, 30, .w1c, 0x0, .any⟩, ⟨"TDARKEV", 29, 29, .w1c, 0x0, .any⟩, ⟨"TSCAN", 23, 16, .ro, 0x0, .any⟩, ⟨"THOUSE", 15, 8, .ro, 0x0, .any⟩] }]

/-- Registers HS_MEMCTL to HS_WMAP (R397). -/
def houseMemRegs : List RegSpec := [
  { name := "HS_MEMCTL", addr := 0x10C000, dims := [], presence := .always, copies := .one, resetKind := .fields, hook := .memCtl,
    fields := [⟨"CNTCLR", 31, 31, .wo, 0x0, .any⟩, ⟨"SCRUBDIV", 15, 8, .rw, 0x10, .any⟩, ⟨"SCRUBEN", 0, 0, .rw, 0x1, .any⟩] },
  { name := "HS_MEMSTAT", addr := 0x10C001, dims := [], presence := .always, copies := .one, resetKind := .fields, hook := .none,
    fields := [⟨"MRREF", 31, 24, .ro, 0x0, .any⟩, ⟨"INITBUSY", 4, 4, .ro, 0x0, .any⟩, ⟨"REPEV", 3, 3, .w1c, 0x0, .any⟩, ⟨"PASSEV", 2, 2, .w1c, 0x0, .any⟩, ⟨"UEEV", 1, 1, .w1c, 0x0, .any⟩, ⟨"CEEV", 0, 0, .w1c, 0x0, .any⟩] },
  { name := "HS_CECNT", addr := 0x10C002, dims := [], presence := .always, copies := .one, resetKind := .fields, hook := .none,
    fields := [⟨"UE", 31, 16, .ro, 0x0, .any⟩, ⟨"CE", 15, 0, .ro, 0x0, .any⟩] },
  { name := "HS_UEADDR", addr := 0x10C003, dims := [], presence := .always, copies := .one, resetKind := .fields, hook := .none,
    fields := [⟨"MEM", 31, 28, .ro, 0x0, .any⟩, ⟨"ADDR", 23, 0, .ro, 0x0, .any⟩] },
  { name := "HS_CEADDR", addr := 0x10C004, dims := [], presence := .always, copies := .one, resetKind := .fields, hook := .none,
    fields := [⟨"MEM", 31, 28, .ro, 0x0, .any⟩, ⟨"ADDR", 23, 0, .ro, 0x0, .any⟩] },
  { name := "HS_MEMINIT", addr := 0x10C005, dims := [], presence := .always, copies := .one, resetKind := .fields, hook := .memInit,
    fields := [⟨"GO", 24, 24, .wo, 0x0, .any⟩, ⟨"LAST", 17, 9, .rw, 0x0, .any⟩, ⟨"FIRST", 8, 0, .rw, 0x0, .any⟩] },
  { name := "HS_REPSTAT", addr := 0x10C006, dims := [], presence := .always, copies := .one, resetKind := .fields, hook := .none,
    fields := [⟨"SKIPPED", 7, 0, .ro, 0x0, .any⟩] },
  { name := "HS_WMAP", addr := 0x10C010, dims := [(16, 0x1)], presence := .always, copies := .one, resetKind := .fields, hook := .none,
    fields := [⟨"MAP", 31, 0, .w1s, 0x0, .any⟩] }]

/-- Registers SC_PERFSEL to SC_PERFHI (R587). -/
def perfRegs : List RegSpec := [
  { name := "SC_PERFSEL", addr := 0x200100, dims := [(4, 0x4)], presence := .always, copies := .one, resetKind := .fields, hook := .perfSel,
    fields := [⟨"EN", 31, 31, .rw, 0x0, .any⟩, ⟨"CLR", 30, 30, .wo, 0x0, .any⟩, ⟨"OVF", 8, 8, .w1c, 0x0, .any⟩, ⟨"EVENT", 7, 0, .rw, 0x0, (.range 0 6)⟩] },
  { name := "SC_PERFLO", addr := 0x200101, dims := [(4, 0x4)], presence := .always, copies := .one, resetKind := .fields, hook := .perfLo,
    fields := [⟨"COUNT", 31, 0, .ro, 0x0, .any⟩] },
  { name := "SC_PERFHI", addr := 0x200102, dims := [(4, 0x4)], presence := .always, copies := .one, resetKind := .fields, hook := .none,
    fields := [⟨"COUNT", 15, 0, .ro, 0x0, .any⟩] }]

/-- Registers SC_BEAMCTL to SC_LEADSTAT (R94, R95, R96, R97, R98, R99). -/
def beamRegs0 : List RegSpec := [
  { name := "SC_BEAMCTL", addr := 0x210000, dims := [], presence := .always, copies := .one, resetKind := .fields, hook := .beamCtl,
    fields := [⟨"LDIV", 23, 16, .rw, 0x1, .any⟩, ⟨"STEPTHR", 15, 12, .rw, 0x2, .any⟩, ⟨"FREEACT", 11, 10, .rw, 0x0, .any⟩, ⟨"ROLE", 9, 8, .rw, 0x0, .any⟩, ⟨"REFLC", 7, 7, .rw, 0x0, .any⟩, ⟨"REFCMOS", 6, 6, .rw, 0x0, .any⟩, ⟨"REFEDGE", 5, 5, .rw, 0x0, .any⟩, ⟨"CNTCLR", 3, 3, .wo, 0x0, .any⟩, ⟨"REACQ", 1, 1, .wo, 0x0, .any⟩, ⟨"EN", 0, 0, .rw, 0x0, .any⟩] },
  { name := "SC_BEAMFMT", addr := 0x210001, dims := [], presence := .always, copies := .one, resetKind := .fields, hook := .beamFormat,
    fields := [⟨"BLANK", 28, 16, .rw, 0x0, (.range 0 4096)⟩, ⟨"ACTIVE", 15, 0, .rw, 0x0, .any⟩] },
  { name := "SC_BEAMPER", addr := 0x210002, dims := [], presence := .always, copies := .one, resetKind := .fields, hook := .beamFormat,
    fields := [⟨"TICKS", 31, 8, .rw, 0x0, .any⟩, ⟨"TFRAC", 7, 0, .rw, 0x0, .any⟩] },
  { name := "SC_BEAMPOS_LO", addr := 0x210003, dims := [], presence := .always, copies := .one, resetKind := .fields, hook := .beamPosLo,
    fields := [⟨"POS", 31, 0, .ro, 0x0, .any⟩] },
  { name := "SC_BEAMPOS_HI", addr := 0x210004, dims := [], presence := .always, copies := .one, resetKind := .fields, hook := .none,
    fields := [⟨"FRAME", 31, 0, .ro, 0x0, .any⟩] },
  { name := "SC_BEAMSTAT", addr := 0x210005, dims := [], presence := .always, copies := .one, resetKind := .fields, hook := .beamStat,
    fields := [⟨"HOPS", 31, 24, .ro, 0x0, .any⟩, ⟨"LINEX", 23, 23, .ro, 0x0, .any⟩, ⟨"VBL", 22, 22, .ro, 0x0, .any⟩, ⟨"SRCALT", 21, 21, .ro, 0x0, .any⟩, ⟨"SRCSTATE", 20, 19, .ro, 0x0, .any⟩, ⟨"FARHOP", 18, 18, .ro, 0x0, .any⟩, ⟨"FREEEV", 15, 15, .w1c, 0x0, .any⟩, ⟨"HOLDEV", 14, 14, .w1c, 0x0, .any⟩, ⟨"STEPEV", 13, 13, .w1c, 0x0, .any⟩, ⟨"LOCKEV", 12, 12, .w1c, 0x0, .any⟩, ⟨"LATELINE", 11, 11, .w1c, 0x0, .any⟩, ⟨"REFMIS", 10, 10, .w1c, 0x0, .any⟩, ⟨"STATE", 2, 0, .ro, 0x0, .any⟩] },
  { name := "SC_BEACNT", addr := 0x210006, dims := [], presence := .always, copies := .one, resetKind := .fields, hook := .none,
    fields := [⟨"DISCARD", 31, 24, .ro, 0x0, .any⟩, ⟨"OUTLIER", 23, 16, .ro, 0x0, .any⟩, ⟨"ACCEPT", 15, 0, .ro, 0x0, .any⟩] },
  { name := "SC_BEAMERR", addr := 0x210007, dims := [], presence := .always, copies := .one, resetKind := .fields, hook := .none,
    fields := [⟨"PHERR", 31, 0, .ro, 0x0, .any⟩] },
  { name := "SC_PRESENT", addr := 0x210008, dims := [], presence := .always, copies := .one, resetKind := .fields, hook := .none,
    fields := [⟨"MODE", 31, 31, .rwl, 0x0, .any⟩, ⟨"FLIPADV", 28, 16, .rwl, 0x0, (.range 0 4096)⟩, ⟨"LEAD", 15, 0, .rwl, 0x0, .any⟩] },
  { name := "SC_LEADMAX", addr := 0x210009, dims := [], presence := .always, copies := .one, resetKind := .fields, hook := .none,
    fields := [⟨"MARGIN", 31, 16, .rw, 0xA0, .any⟩, ⟨"LEADMAX", 15, 0, .rw, 0x0, .any⟩] },
  { name := "SC_REFDLY", addr := 0x21000A, dims := [], presence := .always, copies := .one, resetKind := .fields, hook := .none,
    fields := [⟨"REFDLY", 15, 0, .rw, 0x0, .any⟩] },
  { name := "SC_LEADSTAT", addr := 0x21000B, dims := [], presence := .always, copies := .one, resetKind := .fields, hook := .leadStat,
    fields := [⟨"OVER", 31, 31, .ro, 0x0, .any⟩, ⟨"RAISED", 30, 30, .ro, 0x0, .any⟩, ⟨"AMODE", 29, 29, .ro, 0x0, .any⟩, ⟨"AFLIPADV", 28, 16, .ro, 0x0, .any⟩, ⟨"LEADMIN", 15, 0, .ro, 0x0, .any⟩] }]

/-- Registers SC_BEAMWM to SC_BEAMWM (R100). -/
def beamRegs1 : List RegSpec := [
  { name := "SC_BEAMWM", addr := 0x210010, dims := [(4, 0x1)], presence := .always, copies := .one, resetKind := .fields, hook := .none,
    fields := [⟨"EN", 31, 31, .rw, 0x0, .any⟩, ⟨"ONCE", 30, 30, .rw, 0x0, .any⟩, ⟨"LINE", 24, 8, .rw, 0x0, .any⟩, ⟨"FRAC", 7, 0, .rw, 0x0, .any⟩] }]

/-- Every register of the block. -/
def beamRegs : List RegSpec := beamRegs0 ++ beamRegs1

/-- Registers SC_LDW0 to SC_LDW11 (R145). -/
def compositionRegs0 : List RegSpec := [
  { name := "SC_LDW0", addr := 0x220000, dims := [(4, 0x100), (15, 0x10)], presence := .stream, copies := .one, resetKind := .fields, hook := .ldw,
    fields := [⟨"EN", 0, 0, .rwl, 0x0, .any⟩, ⟨"KIND", 3, 1, .rwl, 0x0, .any⟩, ⟨"BLEND", 6, 4, .rwl, 0x0, .any⟩, ⟨"ORDER", 10, 7, .rwl, 0x0, .any⟩, ⟨"XFER", 13, 11, .rwl, 0x0, .any⟩, ⟨"PRIM", 14, 14, .rwl, 0x0, .any⟩, ⟨"PBANK", 16, 15, .rwl, 0x0, .any⟩, ⟨"YCCMAT", 17, 17, .rwl, 0x0, .any⟩, ⟨"NARROW", 18, 18, .rwl, 0x0, .any⟩] },
  { name := "SC_LDW1", addr := 0x220001, dims := [(4, 0x100), (15, 0x10)], presence := .stream, copies := .one, resetKind := .fields, hook := .ldw,
    fields := [⟨"CALPHA", 15, 0, .rwl, 0x0, .any⟩] },
  { name := "SC_LDW2", addr := 0x220002, dims := [(4, 0x100), (15, 0x10)], presence := .stream, copies := .one, resetKind := .fields, hook := .ldw,
    fields := [⟨"DX", 17, 0, .rwl, 0x0, .any⟩] },
  { name := "SC_LDW3", addr := 0x220003, dims := [(4, 0x100), (15, 0x10)], presence := .stream, copies := .one, resetKind := .fields, hook := .ldw,
    fields := [⟨"DY", 15, 0, .rwl, 0x0, .any⟩] },
  { name := "SC_LDW4", addr := 0x220004, dims := [(4, 0x100), (15, 0x10)], presence := .stream, copies := .one, resetKind := .fields, hook := .ldw,
    fields := [⟨"DWM1", 17, 0, .rwl, 0x0, .any⟩] },
  { name := "SC_LDW5", addr := 0x220005, dims := [(4, 0x100), (15, 0x10)], presence := .stream, copies := .one, resetKind := .fields, hook := .ldw,
    fields := [⟨"DHM1", 15, 0, .rwl, 0x0, .any⟩] },
  { name := "SC_LDW6", addr := 0x220006, dims := [(4, 0x100), (15, 0x10)], presence := .stream, copies := .one, resetKind := .fields, hook := .ldw,
    fields := [⟨"SRC", 31, 0, .rwl, 0x0, .any⟩] },
  { name := "SC_LDW7", addr := 0x220007, dims := [(4, 0x100), (15, 0x10)], presence := .stream, copies := .one, resetKind := .fields, hook := .ldw,
    fields := [⟨"SX", 19, 0, .rwl, 0x0, .any⟩] },
  { name := "SC_LDW8", addr := 0x220008, dims := [(4, 0x100), (15, 0x10)], presence := .stream, copies := .one, resetKind := .fields, hook := .ldw,
    fields := [⟨"SY", 17, 0, .rwl, 0x0, .any⟩] },
  { name := "SC_LDW9", addr := 0x220009, dims := [(4, 0x100), (15, 0x10)], presence := .stream, copies := .one, resetKind := .fields, hook := .ldw,
    fields := [⟨"VHM1", 29, 16, .rwl, 0x0, .any⟩, ⟨"VWM1", 13, 0, .rwl, 0x0, .any⟩] },
  { name := "SC_LDW10", addr := 0x22000A, dims := [(4, 0x100), (15, 0x10)], presence := .stream, copies := .one, resetKind := .fields, hook := .ldw,
    fields := [⟨"VPITCH", 31, 0, .rwl, 0x0, .any⟩] },
  { name := "SC_LDW11", addr := 0x22000B, dims := [(4, 0x100), (15, 0x10)], presence := .stream, copies := .one, resetKind := .fields, hook := .ldw,
    fields := [⟨"VFMT", 1, 0, .rwl, 0x0, .any⟩] }]

/-- Registers SC_LDW12 to SC_SBW6 (R143, R145, R166). -/
def compositionRegs1 : List RegSpec := [
  { name := "SC_LDW12", addr := 0x22000C, dims := [(4, 0x100), (15, 0x10)], presence := .stream, copies := .one, resetKind := .fields, hook := .ldw,
    fields := [⟨"HSTEP", 19, 0, .rwl, 0x0, .any⟩] },
  { name := "SC_LDW13", addr := 0x22000D, dims := [(4, 0x100), (15, 0x10)], presence := .stream, copies := .one, resetKind := .fields, hook := .ldw,
    fields := [⟨"VSTEP", 19, 0, .rwl, 0x0, .any⟩] },
  { name := "SC_LDW14", addr := 0x22000E, dims := [(4, 0x100), (15, 0x10)], presence := .stream, copies := .one, resetKind := .fields, hook := .ldw,
    fields := [⟨"VPHASE0", 31, 16, .rwl, 0x0, .any⟩, ⟨"HPHASE0", 15, 0, .rwl, 0x0, .any⟩] },
  { name := "SC_LDW15", addr := 0x22000F, dims := [(4, 0x100), (15, 0x10)], presence := .stream, copies := .one, resetKind := .fields, hook := .ldw,
    fields := [⟨"FENCE", 7, 0, .rwl, 0x0, .any⟩] },
  { name := "SC_LDA", addr := 0x228000, dims := [(4, 0x100), (15, 0x10), (16, 0x1)], presence := .always, copies := .one, resetKind := .fields, hook := .lda,
    fields := [⟨"WORD", 31, 0, .ro, 0x0, .any⟩] },
  { name := "SC_SBW0", addr := 0x220400, dims := [(4, 0x10)], presence := .always, copies := .one, resetKind := .fields, hook := .none,
    fields := [⟨"EN", 0, 0, .rwl, 0x0, .any⟩, ⟨"KIND", 3, 1, .rwl, 0x0, .any⟩, ⟨"BLEND", 6, 4, .rwl, 0x0, .any⟩, ⟨"ORDER", 10, 7, .rwl, 0x0, .any⟩, ⟨"XFER", 13, 11, .rwl, 0x0, .any⟩, ⟨"PRIM", 14, 14, .rwl, 0x0, .any⟩, ⟨"PBANK", 16, 15, .rwl, 0x0, .any⟩, ⟨"YCCMAT", 17, 17, .rwl, 0x0, .any⟩, ⟨"NARROW", 18, 18, .rwl, 0x0, .any⟩] },
  { name := "SC_SBW1", addr := 0x220401, dims := [(4, 0x10)], presence := .always, copies := .one, resetKind := .fields, hook := .none,
    fields := [⟨"CALPHA", 15, 0, .rwl, 0x0, .any⟩] },
  { name := "SC_SBW2", addr := 0x220402, dims := [(4, 0x10)], presence := .always, copies := .one, resetKind := .fields, hook := .none,
    fields := [⟨"DX", 17, 0, .rwl, 0x0, .any⟩] },
  { name := "SC_SBW3", addr := 0x220403, dims := [(4, 0x10)], presence := .always, copies := .one, resetKind := .fields, hook := .none,
    fields := [⟨"DY", 15, 0, .rwl, 0x0, .any⟩] },
  { name := "SC_SBW4", addr := 0x220404, dims := [(4, 0x10)], presence := .always, copies := .one, resetKind := .fields, hook := .none,
    fields := [⟨"DWM1", 17, 0, .rwl, 0x0, .any⟩] },
  { name := "SC_SBW5", addr := 0x220405, dims := [(4, 0x10)], presence := .always, copies := .one, resetKind := .fields, hook := .none,
    fields := [⟨"DHM1", 15, 0, .rwl, 0x0, .any⟩] },
  { name := "SC_SBW6", addr := 0x220406, dims := [(4, 0x10)], presence := .always, copies := .one, resetKind := .fields, hook := .none,
    fields := [⟨"SRC", 31, 0, .rwl, 0x0, .any⟩] }]

/-- Registers SC_SBW7 to SC_SBSTAT (R166, R194). -/
def compositionRegs2 : List RegSpec := [
  { name := "SC_SBW7", addr := 0x220407, dims := [(4, 0x10)], presence := .always, copies := .one, resetKind := .fields, hook := .none,
    fields := [⟨"SX", 19, 0, .rwl, 0x0, .any⟩] },
  { name := "SC_SBW8", addr := 0x220408, dims := [(4, 0x10)], presence := .always, copies := .one, resetKind := .fields, hook := .none,
    fields := [⟨"SY", 17, 0, .rwl, 0x0, .any⟩] },
  { name := "SC_SBW9", addr := 0x220409, dims := [(4, 0x10)], presence := .always, copies := .one, resetKind := .fields, hook := .none,
    fields := [⟨"VHM1", 29, 16, .rwl, 0x0, .any⟩, ⟨"VWM1", 13, 0, .rwl, 0x0, .any⟩] },
  { name := "SC_SBW10", addr := 0x22040A, dims := [(4, 0x10)], presence := .always, copies := .one, resetKind := .fields, hook := .none,
    fields := [⟨"VPITCH", 31, 0, .rwl, 0x0, .any⟩] },
  { name := "SC_SBW11", addr := 0x22040B, dims := [(4, 0x10)], presence := .always, copies := .one, resetKind := .fields, hook := .none,
    fields := [⟨"VFMT", 1, 0, .rwl, 0x0, .any⟩] },
  { name := "SC_SBW12", addr := 0x22040C, dims := [(4, 0x10)], presence := .always, copies := .one, resetKind := .fields, hook := .none,
    fields := [⟨"HSTEP", 19, 0, .rwl, 0x0, .any⟩] },
  { name := "SC_SBW13", addr := 0x22040D, dims := [(4, 0x10)], presence := .always, copies := .one, resetKind := .fields, hook := .none,
    fields := [⟨"VSTEP", 19, 0, .rwl, 0x0, .any⟩] },
  { name := "SC_SBW14", addr := 0x22040E, dims := [(4, 0x10)], presence := .always, copies := .one, resetKind := .fields, hook := .none,
    fields := [⟨"VPHASE0", 31, 16, .rwl, 0x0, .any⟩, ⟨"HPHASE0", 15, 0, .rwl, 0x0, .any⟩] },
  { name := "SC_SBW15", addr := 0x22040F, dims := [(4, 0x10)], presence := .always, copies := .one, resetKind := .fields, hook := .none,
    fields := [⟨"FENCE", 7, 0, .rwl, 0x0, .any⟩] },
  { name := "SC_SBCTL", addr := 0x220440, dims := [], presence := .always, copies := .one, resetKind := .fields, hook := .sbCtl,
    fields := [⟨"INVAL", 4, 4, .wo, 0x0, .any⟩, ⟨"MEMBERS", 3, 0, .rwl, 0x0, .any⟩] },
  { name := "SC_SBBASE", addr := 0x220441, dims := [], presence := .always, copies := .one, resetKind := .fields, hook := .none,
    fields := [⟨"BASE", 31, 12, .rwl, 0x0, .any⟩] },
  { name := "SC_SBSTAT", addr := 0x220442, dims := [], presence := .always, copies := .one, resetKind := .fields, hook := .sbStat,
    fields := [⟨"VALID", 15, 15, .ro, 0x0, .any⟩, ⟨"LIVE", 14, 14, .ro, 0x0, .any⟩, ⟨"SHORT", 13, 13, .ro, 0x0, .any⟩, ⟨"INVEV", 12, 12, .w1c, 0x0, .any⟩, ⟨"VALEV", 11, 11, .w1c, 0x0, .any⟩] }]

/-- Registers SC_CURW0 to SC_CMCMD1 (R162, R195, R197). -/
def compositionRegs3 : List RegSpec := [
  { name := "SC_CURW0", addr := 0x220500, dims := [(4, 0x20), (8, 0x4)], presence := .stream, copies := .one, resetKind := .fields, hook := .none,
    fields := [⟨"HOTY", 16, 11, .rwl, 0x0, .any⟩, ⟨"HOTX", 10, 5, .rwl, 0x0, .any⟩, ⟨"PRIO", 4, 1, .rwl, 0x0, .any⟩, ⟨"EN", 0, 0, .rwl, 0x0, .any⟩] },
  { name := "SC_CURW1", addr := 0x220501, dims := [(4, 0x20), (8, 0x4)], presence := .stream, copies := .one, resetKind := .fields, hook := .none,
    fields := [⟨"X", 18, 0, .rwl, 0x0, .any⟩] },
  { name := "SC_CURW2", addr := 0x220502, dims := [(4, 0x20), (8, 0x4)], presence := .stream, copies := .one, resetKind := .fields, hook := .none,
    fields := [⟨"Y", 16, 0, .rwl, 0x0, .any⟩] },
  { name := "SC_CURW3", addr := 0x220503, dims := [(4, 0x20), (8, 0x4)], presence := .stream, copies := .one, resetKind := .fields, hook := .none,
    fields := [⟨"IMG", 31, 0, .rwl, 0x0, .any⟩] },
  { name := "SC_CPCTL", addr := 0x220600, dims := [], presence := .always, copies := .one, resetKind := .fields, hook := .none,
    fields := [⟨"MATEN", 2, 2, .rwl, 0x0, .any⟩, ⟨"LUTEN", 1, 1, .rwl, 0x0, .any⟩, ⟨"LUTSEL", 0, 0, .rwl, 0x0, .any⟩] },
  { name := "SC_PEAK", addr := 0x220601, dims := [], presence := .always, copies := .one, resetKind := .fields, hook := .none,
    fields := [⟨"SDRWHITE", 31, 16, .rwl, 0xC8, .any⟩, ⟨"PEAKNITS", 15, 0, .rwl, 0x3E8, .nonzero⟩] },
  { name := "SC_HLG", addr := 0x220602, dims := [], presence := .always, copies := .one, resetKind := .fields, hook := .none,
    fields := [⟨"SYSGAMMA", 9, 0, .rwl, 0x133, .any⟩] },
  { name := "SC_BGCOLOUR0", addr := 0x220603, dims := [], presence := .always, copies := .one, resetKind := .fields, hook := .none,
    fields := [⟨"G", 31, 16, .rwl, 0x0, .any⟩, ⟨"R", 15, 0, .rwl, 0x0, .any⟩] },
  { name := "SC_BGCOLOUR1", addr := 0x220604, dims := [], presence := .always, copies := .one, resetKind := .fields, hook := .none,
    fields := [⟨"B", 15, 0, .rwl, 0x0, .any⟩] },
  { name := "SC_CPMAT", addr := 0x220608, dims := [(9, 0x1)], presence := .always, copies := .one, resetKind := .identityMatrix, hook := .none,
    fields := [⟨"COEF", 15, 0, .rwl, 0x0, .any⟩] },
  { name := "SC_CMCMD0", addr := 0x220700, dims := [], presence := .always, copies := .source, resetKind := .fields, hook := .cmCmd,
    fields := [⟨"EPOCH", 31, 0, .rw, 0x0, .any⟩] },
  { name := "SC_CMCMD1", addr := 0x220701, dims := [], presence := .always, copies := .source, resetKind := .fields, hook := .cmCmd,
    fields := [⟨"STREAM", 17, 16, .rw, 0x0, .any⟩, ⟨"TFRAME", 15, 0, .rw, 0x0, .any⟩] }]

/-- Registers SC_CMGO to SC_GUARDADDR (R197, R198). Each of the four streams has its result registers, on every variant (R11, R183,
R200). -/
def compositionRegs4 : List RegSpec := [
  { name := "SC_CMGO", addr := 0x220702, dims := [], presence := .always, copies := .one, resetKind := .fields, hook := .cmGo,
    fields := [⟨"WCOUNT", 23, 0, .wo, 0x0, .any⟩] },
  { name := "SC_CMCNT", addr := 0x220708, dims := [], presence := .always, copies := .one, resetKind := .fields, hook := .none,
    fields := [⟨"REFUSED", 31, 16, .ro, 0x0, .any⟩, ⟨"ACCEPTED", 15, 0, .ro, 0x0, .any⟩] },
  { name := "SC_CMEV", addr := 0x220709, dims := [], presence := .always, copies := .one, resetKind := .fields, hook := .cmEv,
    fields := [⟨"CNTCLR", 31, 31, .wo, 0x0, .any⟩, ⟨"REFEV", 7, 4, .w1c, 0x0, .any⟩, ⟨"ACCEV", 3, 0, .w1c, 0x0, .any⟩] },
  { name := "SC_CMRES", addr := 0x220710, dims := [(4, 0x4)], presence := .always, copies := .one, resetKind := .fields, hook := .none,
    fields := [⟨"REASON", 31, 24, .ro, 0x0, .any⟩, ⟨"SOURCE", 21, 16, .ro, 0x0, .any⟩, ⟨"TFRAME", 15, 0, .ro, 0x0, .any⟩] },
  { name := "SC_CMEPA", addr := 0x220711, dims := [(4, 0x4)], presence := .always, copies := .one, resetKind := .fields, hook := .none,
    fields := [⟨"EPOCH", 31, 0, .ro, 0x0, .any⟩] },
  { name := "SC_CMEPR", addr := 0x220712, dims := [(4, 0x4)], presence := .always, copies := .one, resetKind := .fields, hook := .none,
    fields := [⟨"EPOCH", 31, 0, .ro, 0x0, .any⟩] },
  { name := "SC_CMFAIL", addr := 0x220713, dims := [(4, 0x4)], presence := .always, copies := .one, resetKind := .fields, hook := .none,
    fields := [⟨"REGION", 31, 30, .ro, 0x0, .any⟩, ⟨"CLUSTER", 29, 29, .ro, 0x0, .any⟩, ⟨"CLINE", 28, 20, .ro, 0x0, .any⟩, ⟨"COST", 19, 8, .ro, 0x0, .any⟩, ⟨"UNIT", 7, 4, .ro, 0xF, .any⟩] },
  { name := "SC_FENCEQ", addr := 0x220800, dims := [], presence := .always, copies := .one, resetKind := .fields, hook := .fenceQ,
    fields := [⟨"VALID", 31, 31, .ro, 0x0, .any⟩, ⟨"FENCE", 23, 16, .ro, 0x0, .any⟩, ⟨"FRAME", 15, 0, .ro, 0x0, .any⟩] },
  { name := "SC_FENCESTAT", addr := 0x220801, dims := [], presence := .always, copies := .one, resetKind := .fields, hook := .none,
    fields := [⟨"OVF", 8, 8, .w1c, 0x0, .any⟩, ⟨"RETEV", 7, 7, .w1c, 0x0, .any⟩, ⟨"DEPTH", 6, 0, .ro, 0x0, .any⟩] },
  { name := "SC_FENCEMAP", addr := 0x220808, dims := [(8, 0x1)], presence := .always, copies := .one, resetKind := .fields, hook := .fenceMap,
    fields := [⟨"INUSE", 31, 0, .ro, 0x0, .any⟩] },
  { name := "SC_GUARDSTAT", addr := 0x220810, dims := [], presence := .always, copies := .one, resetKind := .fields, hook := .none,
    fields := [⟨"VIOL", 31, 16, .ro, 0x0, .any⟩, ⟨"VIOLEV", 11, 11, .w1c, 0x0, .any⟩, ⟨"WRITER", 10, 4, .ro, 0x0, .any⟩, ⟨"WINDOW", 3, 0, .ro, 0x0, .any⟩] },
  { name := "SC_GUARDADDR", addr := 0x220811, dims := [], presence := .always, copies := .one, resetKind := .fields, hook := .none,
    fields := [⟨"ADDR", 31, 0, .ro, 0x0, .any⟩] }]

/-- Registers SC_GUARDBASE to SC_LUT (R196, R198, R199). -/
def compositionRegs5 : List RegSpec := [
  { name := "SC_GUARDBASE", addr := 0x220820, dims := [(16, 0x4)], presence := .always, copies := .one, resetKind := .fields, hook := .none,
    fields := [⟨"BASE", 31, 6, .rw, 0x0, .any⟩] },
  { name := "SC_GUARDLIMIT", addr := 0x220821, dims := [(16, 0x4)], presence := .always, copies := .one, resetKind := .fields, hook := .none,
    fields := [⟨"LIMIT", 31, 6, .rw, 0x0, .any⟩] },
  { name := "SC_GUARDCTL", addr := 0x220822, dims := [(16, 0x4)], presence := .always, copies := .one, resetKind := .fields, hook := .none,
    fields := [⟨"FENCE", 8, 1, .rw, 0x0, .any⟩, ⟨"EN", 0, 0, .rw, 0x0, .any⟩] },
  { name := "SC_EGCTL", addr := 0x220900, dims := [], presence := .always, copies := .one, resetKind := .fields, hook := .egCtl,
    fields := [⟨"LOCK", 31, 31, .w1s, 0x0, .any⟩, ⟨"FAULTACT", 7, 7, .rw, 0x0, .any⟩, ⟨"INENTRY", 6, 2, .rw, 0x0, .any⟩, ⟨"INEN", 0, 0, .rw, 0x0, .any⟩] },
  { name := "SC_EGBASE", addr := 0x220901, dims := [], presence := .always, copies := .one, resetKind := .fields, hook := .egCtl,
    fields := [⟨"BASE", 31, 20, .rw, 0x0, .any⟩] },
  { name := "SC_EGSTAT", addr := 0x220902, dims := [], presence := .always, copies := .one, resetKind := .fields, hook := .none,
    fields := [⟨"WPDROP", 31, 16, .ro, 0x0, .any⟩, ⟨"LOOPEV", 13, 13, .w1c, 0x0, .any⟩, ⟨"ACTEV", 12, 12, .w1c, 0x0, .any⟩, ⟨"NOLIB", 11, 11, .ro, 0x0, .any⟩, ⟨"LOOP", 10, 9, .ro, 0x0, .any⟩, ⟨"ENTRY", 8, 4, .ro, 0x0, .any⟩, ⟨"BYCMD", 2, 2, .ro, 0x0, .any⟩, ⟨"BYINPUT", 1, 1, .ro, 0x0, .any⟩, ⟨"ACTIVE", 0, 0, .ro, 0x0, .any⟩] },
  { name := "SC_VCOEFH", addr := 0x220A00, dims := [(64, 0x8), (8, 0x1)], presence := .always, copies := .one, resetKind := .bilinearH, hook := .none,
    fields := [⟨"COEF", 11, 0, .rw, 0x0, .any⟩] },
  { name := "SC_VCOEFV", addr := 0x220C00, dims := [(64, 0x8), (6, 0x1)], presence := .always, copies := .one, resetKind := .bilinearV, hook := .none,
    fields := [⟨"COEF", 11, 0, .rw, 0x0, .any⟩] },
  { name := "SC_LUT", addr := 0x221000, dims := [(2, 0x3000), (3, 0x1000), (4096, 0x1)], presence := .always, copies := .one, resetKind := .lutRamp, hook := .none,
    fields := [⟨"ENTRY", 15, 0, .rw, 0x0, .any⟩] }]

/-- Every register of the block. -/
def compositionRegs : List RegSpec := compositionRegs0 ++ compositionRegs1 ++ compositionRegs2 ++ compositionRegs3 ++ compositionRegs4 ++ compositionRegs5

/-- Registers SC_OBJBASE to SC_PCSTAT (R138, R139, R140, R141). -/
def sceneRegs : List RegSpec := [
  { name := "SC_OBJBASE", addr := 0x22F000, dims := [], presence := .always, copies := .one, resetKind := .fields, hook := .objTable,
    fields := [⟨"BASE", 31, 12, .rw, 0x0, .any⟩] },
  { name := "SC_OBJCTL", addr := 0x22F001, dims := [], presence := .always, copies := .one, resetKind := .fields, hook := .objTable,
    fields := [⟨"MARGIN", 31, 24, .rw, 0x0, .any⟩, ⟨"COUNT", 16, 0, .rw, 0x0, (.range 0 65536)⟩] },
  { name := "SC_OBJSTAT", addr := 0x22F002, dims := [], presence := .always, copies := .one, resetKind := .fields, hook := .none,
    fields := [⟨"SCAN", 31, 31, .ro, 0x0, .any⟩, ⟨"OVERFLOW", 30, 30, .ro, 0x0, .any⟩, ⟨"BADEV", 29, 29, .w1c, 0x0, .any⟩, ⟨"ARES", 28, 16, .ro, 0x0, .any⟩, ⟨"SRES", 12, 0, .ro, 0x0, .any⟩] },
  { name := "SC_OBJEVQ", addr := 0x22F003, dims := [], presence := .always, copies := .one, resetKind := .fields, hook := .none,
    fields := [⟨"BADENT", 31, 16, .ro, 0x0, .any⟩, ⟨"QDEPTH", 10, 0, .ro, 0x0, .any⟩] },
  { name := "SC_PALBANK", addr := 0x22F008, dims := [(4, 0x1)], presence := .always, copies := .one, resetKind := .fields, hook := .none,
    fields := [⟨"BASE", 31, 19, .rwl, 0x0, .any⟩] },
  { name := "SC_PALAPPLIED", addr := 0x22F00C, dims := [(4, 0x1)], presence := .always, copies := .one, resetKind := .fields, hook := .palApplied,
    fields := [⟨"BASE", 31, 19, .ro, 0x0, .any⟩] },
  { name := "SC_PCCTL", addr := 0x22F010, dims := [], presence := .always, copies := .one, resetKind := .fields, hook := .pcCtl,
    fields := [⟨"CNTCLR", 1, 1, .wo, 0x0, .any⟩, ⟨"INVAL", 0, 0, .wo, 0x0, .any⟩] },
  { name := "SC_SCENECNT", addr := 0x22F011, dims := [], presence := .always, copies := .one, resetKind := .fields, hook := .none,
    fields := [⟨"BADADDR", 15, 0, .ro, 0x0, .any⟩] },
  { name := "SC_PCSTAT", addr := 0x22F018, dims := [(8, 0x1)], presence := .cluster, copies := .one, resetKind := .fields, hook := .none,
    fields := [⟨"FILL", 31, 16, .ro, 0x0, .any⟩, ⟨"REFETCH", 15, 0, .ro, 0x0, .any⟩] }]

/-- Registers SC_TRCTL to SC_TRWALK (R221). -/
def trestleRegs : List RegSpec := [
  { name := "SC_TRCTL", addr := 0x230000, dims := [], presence := .always, copies := .one, resetKind := .fields, hook := .trCtl,
    fields := [⟨"CNTCLR", 1, 1, .wo, 0x0, .any⟩, ⟨"EN", 0, 0, .rwl, 0x0, .any⟩] },
  { name := "SC_TRLISTB", addr := 0x230010, dims := [(4, 0x2)], presence := .always, copies := .one, resetKind := .fields, hook := .none,
    fields := [⟨"BASE", 31, 6, .rwl, 0x0, .any⟩] },
  { name := "SC_TRLISTC", addr := 0x230011, dims := [(4, 0x2)], presence := .always, copies := .one, resetKind := .fields, hook := .none,
    fields := [⟨"STREAMS", 19, 16, .rwl, 0x0, .any⟩, ⟨"COUNT", 13, 0, .rwl, 0x0, (.range 0 8192)⟩] },
  { name := "SC_TRIMMCTL", addr := 0x230018, dims := [], presence := .rcop, copies := .one, resetKind := .fields, hook := .none,
    fields := [⟨"ACOUNT", 25, 17, .ro, 0x0, .any⟩, ⟨"SCOUNT", 16, 8, .ro, 0x0, .any⟩, ⟨"STREAMS", 3, 0, .rwl, 0x0, .any⟩] },
  { name := "SC_TRSTAT", addr := 0x230020, dims := [], presence := .always, copies := .one, resetKind := .fields, hook := .none,
    fields := [⟨"BADOP", 31, 24, .ro, 0x0, .any⟩, ⟨"ORDERERR", 23, 16, .ro, 0x0, .any⟩, ⟨"TGTERR", 15, 8, .ro, 0x0, .any⟩, ⟨"WALKLATE", 7, 7, .w1c, 0x0, .any⟩, ⟨"IMMFULL", 6, 6, .w1c, 0x0, .any⟩, ⟨"ECCEV", 5, 5, .w1c, 0x0, .any⟩] },
  { name := "SC_TRWALK", addr := 0x230021, dims := [], presence := .always, copies := .one, resetKind := .fields, hook := .none,
    fields := [⟨"FRAME", 31, 16, .ro, 0x0, .any⟩, ⟨"ENTRIES", 15, 0, .ro, 0x0, .any⟩] }]

/-- Registers CPY_CTL to CPY_PACE0 (R296, R297). -/
def copierRegs0 : List RegSpec := [
  { name := "CPY_CTL", addr := 0x240000, dims := [], presence := .always, copies := .one, resetKind := .fields, hook := .cpyCtl,
    fields := [⟨"CNTCLR", 31, 31, .wo, 0x0, .any⟩, ⟨"PACE", 11, 11, .rw, 0x0, .any⟩, ⟨"YDIR", 10, 10, .rw, 0x0, .any⟩, ⟨"XDIR", 9, 9, .rw, 0x0, .any⟩, ⟨"BPP", 8, 7, .rw, 0x0, .any⟩, ⟨"OP", 6, 4, .rw, 0x0, .any⟩, ⟨"ABORT", 1, 1, .wo, 0x0, .any⟩, ⟨"GO", 0, 0, .wo, 0x0, .any⟩] },
  { name := "CPY_SRCBASE", addr := 0x240001, dims := [], presence := .always, copies := .one, resetKind := .fields, hook := .cpyOperand,
    fields := [⟨"BASE", 31, 6, .rw, 0x0, .any⟩] },
  { name := "CPY_SRCPITCH", addr := 0x240002, dims := [], presence := .always, copies := .one, resetKind := .fields, hook := .cpyOperand,
    fields := [⟨"PITCH", 31, 6, .rw, 0x0, .any⟩] },
  { name := "CPY_DSTBASE", addr := 0x240003, dims := [], presence := .always, copies := .one, resetKind := .fields, hook := .cpyOperand,
    fields := [⟨"BASE", 31, 6, .rw, 0x0, .any⟩] },
  { name := "CPY_DSTPITCH", addr := 0x240004, dims := [], presence := .always, copies := .one, resetKind := .fields, hook := .cpyOperand,
    fields := [⟨"PITCH", 31, 6, .rw, 0x0, .any⟩] },
  { name := "CPY_SRCXY", addr := 0x240005, dims := [], presence := .always, copies := .one, resetKind := .fields, hook := .cpyOperand,
    fields := [⟨"Y", 29, 16, .rw, 0x0, .any⟩, ⟨"X", 13, 0, .rw, 0x0, .any⟩] },
  { name := "CPY_DSTXY", addr := 0x240006, dims := [], presence := .always, copies := .one, resetKind := .fields, hook := .cpyOperand,
    fields := [⟨"Y", 29, 16, .rw, 0x0, .any⟩, ⟨"X", 13, 0, .rw, 0x0, .any⟩] },
  { name := "CPY_SIZE", addr := 0x240007, dims := [], presence := .always, copies := .one, resetKind := .fields, hook := .cpyOperand,
    fields := [⟨"HM1", 29, 16, .rw, 0x0, .any⟩, ⟨"WM1", 13, 0, .rw, 0x0, .any⟩] },
  { name := "CPY_FILL", addr := 0x240008, dims := [], presence := .always, copies := .one, resetKind := .fields, hook := .cpyOperand,
    fields := [⟨"VALUE", 31, 0, .rw, 0x0, .any⟩] },
  { name := "CPY_KEY", addr := 0x240009, dims := [], presence := .always, copies := .one, resetKind := .fields, hook := .cpyOperand,
    fields := [⟨"KEY", 31, 0, .rw, 0x0, .any⟩] },
  { name := "CPY_KEYMASK", addr := 0x24000A, dims := [], presence := .always, copies := .one, resetKind := .fields, hook := .cpyOperand,
    fields := [⟨"MASK", 31, 0, .rw, 0xFFFFFFFF, .any⟩] },
  { name := "CPY_PACE0", addr := 0x24000B, dims := [], presence := .always, copies := .one, resetKind := .fields, hook := .cpyOperand,
    fields := [⟨"LINE0", 16, 0, .rw, 0x0, .any⟩] }]

/-- Registers CPY_PACE1 to CPY_CNT (R297, R298). -/
def copierRegs1 : List RegSpec := [
  { name := "CPY_PACE1", addr := 0x24000C, dims := [], presence := .always, copies := .one, resetKind := .fields, hook := .cpyOperand,
    fields := [⟨"STEP", 15, 0, .rw, 0x100, .any⟩] },
  { name := "CPY_WMARK", addr := 0x24000D, dims := [], presence := .always, copies := .one, resetKind := .fields, hook := .cpyOperand,
    fields := [⟨"ROW", 14, 0, .rw, 0x0, .any⟩] },
  { name := "CPY_STAT", addr := 0x24000E, dims := [], presence := .always, copies := .one, resetKind := .fields, hook := .cpyStat,
    fields := [⟨"BUSY", 31, 31, .ro, 0x0, .any⟩, ⟨"WAITBEAM", 30, 30, .ro, 0x0, .any⟩, ⟨"ERREV", 26, 26, .w1c, 0x0, .any⟩, ⟨"WMEV", 25, 25, .w1c, 0x0, .any⟩, ⟨"DONEEV", 24, 24, .w1c, 0x0, .any⟩, ⟨"ERR", 23, 20, .ro, 0x0, .any⟩, ⟨"ROWSDONE", 14, 0, .ro, 0x0, .any⟩] },
  { name := "CPY_ERRADDR", addr := 0x24000F, dims := [], presence := .always, copies := .one, resetKind := .fields, hook := .none,
    fields := [⟨"ADDR", 31, 0, .ro, 0x0, .any⟩] },
  { name := "CPY_CNT", addr := 0x240010, dims := [], presence := .always, copies := .one, resetKind := .fields, hook := .none,
    fields := [⟨"OPS", 31, 16, .ro, 0x0, .any⟩, ⟨"BUSYWR", 15, 8, .ro, 0x0, .any⟩, ⟨"ERRS", 7, 0, .ro, 0x0, .any⟩] }]

/-- Every register of the block. -/
def copierRegs : List RegSpec := copierRegs0 ++ copierRegs1

/-- Registers SC_PGCTL to SC_CALOFFA (R258, R259, R260). -/
def driveRegs0 : List RegSpec := [
  { name := "SC_PGCTL", addr := 0x250000, dims := [], presence := .always, copies := .one, resetKind := .fields, hook := .pgCtl,
    fields := [⟨"RUN", 11, 8, .rw, 0x0, .any⟩, ⟨"ROWMODE", 2, 2, .rw, 0x0, .any⟩, ⟨"CH4", 1, 1, .rw, 0x0, .any⟩, ⟨"CNTCLR", 0, 0, .wo, 0x0, .any⟩] },
  { name := "SC_PGCFG", addr := 0x250001, dims := [], presence := .always, copies := .one, resetKind := .fields, hook := .pgLocked,
    fields := [⟨"NREF", 22, 16, .rw, 0x40, (.range 4 64)⟩, ⟨"PM1", 11, 8, .rw, 0xF, .any⟩, ⟨"MUXM1", 5, 0, .rw, 0x0, .any⟩] },
  { name := "SC_PGTIME", addr := 0x250002, dims := [], presence := .always, copies := .one, resetKind := .fields, hook := .pgLocked,
    fields := [⟨"RDEAD", 31, 16, .rw, 0x50, .any⟩, ⟨"LIT", 15, 0, .rw, 0x0, .any⟩] },
  { name := "SC_PGGAIN", addr := 0x250003, dims := [], presence := .always, copies := .one, resetKind := .fields, hook := .none,
    fields := [⟨"DBITS", 18, 16, .rw, 0x0, (.range 0 4)⟩, ⟨"GAIN", 15, 0, .rw, 0xFFFF, .any⟩] },
  { name := "SC_PGSTAT", addr := 0x250004, dims := [], presence := .always, copies := .one, resetKind := .fields, hook := .none,
    fields := [⟨"FAILPORT", 24, 16, .ro, 0x0, .any⟩, ⟨"FAILEV", 15, 15, .w1c, 0x0, .any⟩, ⟨"FAIL", 14, 12, .ro, 0x0, .any⟩, ⟨"ACTIVE", 11, 8, .ro, 0x0, .any⟩] },
  { name := "SC_PGSLOT", addr := 0x250005, dims := [], presence := .always, copies := .one, resetKind := .fields, hook := .pgSlot,
    fields := [⟨"TP", 23, 0, .ro, 0x0, .any⟩] },
  { name := "SC_PGCNT", addr := 0x250006, dims := [], presence := .always, copies := .one, resetKind := .fields, hook := .none,
    fields := [⟨"CFGDROP", 15, 0, .ro, 0x0, .any⟩] },
  { name := "SC_CALCTL", addr := 0x250010, dims := [], presence := .always, copies := .one, resetKind := .fields, hook := .calCtl,
    fields := [⟨"CNTCLR", 1, 1, .wo, 0x0, .any⟩, ⟨"EN", 0, 0, .rwl, 0x0, .any⟩] },
  { name := "SC_CALSTAT", addr := 0x250011, dims := [], presence := .always, copies := .one, resetKind := .fields, hook := .none,
    fields := [⟨"LATE", 31, 16, .ro, 0x0, .any⟩, ⟨"LATEEV", 15, 15, .w1c, 0x0, .any⟩, ⟨"ECCEV", 14, 14, .w1c, 0x0, .any⟩, ⟨"LATEREG", 3, 0, .ro, 0x0, .any⟩] },
  { name := "SC_CALBASE", addr := 0x250020, dims := [(4, 0x4), (4, 0x1)], presence := .region, copies := .one, resetKind := .fields, hook := .none,
    fields := [⟨"BASE", 31, 12, .rwl, 0x0, .any⟩] },
  { name := "SC_CALPITCH", addr := 0x250030, dims := [(4, 0x1)], presence := .region, copies := .one, resetKind := .fields, hook := .none,
    fields := [⟨"PITCH", 17, 6, .rwl, 0x0, .any⟩] },
  { name := "SC_CALOFFA", addr := 0x250040, dims := [(4, 0x20), (16, 0x2)], presence := .region, copies := .one, resetKind := .fields, hook := .none,
    fields := [⟨"OG", 31, 16, .rwl, 0x0, .any⟩, ⟨"OR", 15, 0, .rwl, 0x0, .any⟩] }]

/-- Registers SC_CALOFFB to SC_LANEB (R260, R261, R262, R263, R465). -/
def driveRegs1 : List RegSpec := [
  { name := "SC_CALOFFB", addr := 0x250041, dims := [(4, 0x20), (16, 0x2)], presence := .region, copies := .one, resetKind := .fields, hook := .none,
    fields := [⟨"OB", 15, 0, .rwl, 0x0, .any⟩] },
  { name := "SC_WEXT0", addr := 0x2500C0, dims := [], presence := .always, copies := .one, resetKind := .fields, hook := .none,
    fields := [⟨"SR", 31, 16, .rwl, 0x0, .any⟩, ⟨"WK", 15, 0, .rwl, 0x0, .any⟩] },
  { name := "SC_WEXT1", addr := 0x2500C1, dims := [], presence := .always, copies := .one, resetKind := .fields, hook := .none,
    fields := [⟨"SB", 31, 16, .rwl, 0x0, .any⟩, ⟨"SG", 15, 0, .rwl, 0x0, .any⟩] },
  { name := "SC_OWNCTL", addr := 0x250100, dims := [], presence := .always, copies := .one, resetKind := .fields, hook := .ownCtl,
    fields := [⟨"TIEWIN", 1, 1, .rw, 0x0, .any⟩, ⟨"CLAIM", 0, 0, .rw, 0x0, .any⟩] },
  { name := "SC_OWNSTAT", addr := 0x250101, dims := [], presence := .always, copies := .one, resetKind := .fields, hook := .none,
    fields := [⟨"TAKEEV", 7, 7, .w1c, 0x0, .any⟩, ⟨"TIEEV", 6, 6, .w1c, 0x0, .any⟩, ⟨"DUALEV", 5, 5, .w1c, 0x0, .any⟩, ⟨"DRIVING", 4, 4, .ro, 0x0, .any⟩, ⟨"PARTNER", 3, 3, .ro, 0x0, .any⟩, ⟨"STATE", 2, 0, .ro, 0x0, .any⟩] },
  { name := "SC_TWREL", addr := 0x250102, dims := [], presence := .always, copies := .one, resetKind := .fields, hook := .none,
    fields := [⟨"FAULT", 20, 16, .ro, 0x0, .any⟩, ⟨"FAULTEV", 15, 15, .w1c, 0x0, .any⟩, ⟨"FATREL", 4, 0, .rw, 0x1F, .any⟩] },
  { name := "SC_DPCFG", addr := 0x251000, dims := [(512, 0x1)], presence := .drivePort, copies := .one, resetKind := .fields, hook := .dpCfg,
    fields := [⟨"ROWSEL", 12, 7, .rw, 0x0, .any⟩, ⟨"INV", 6, 6, .rw, 0x0, .any⟩, ⟨"GROUP", 5, 3, .rw, 0x0, .any⟩, ⟨"FUNC", 2, 0, .rw, 0x0, (.range 0 6)⟩] },
  { name := "SC_LANEA", addr := 0x252000, dims := [(512, 0x2)], presence := .drivePort, copies := .one, resetKind := .fields, hook := .lane,
    fields := [⟨"CHREV", 31, 31, .rw, 0x0, .any⟩, ⟨"XREV", 30, 30, .rw, 0x0, .any⟩, ⟨"SERP", 29, 29, .rw, 0x0, .any⟩, ⟨"CHMASK", 28, 25, .rw, 0x0, .any⟩, ⟨"LY0", 24, 16, .rw, 0x0, .any⟩, ⟨"LWM1", 15, 8, .rw, 0x0, .any⟩, ⟨"LX0", 7, 0, .rw, 0x0, .any⟩] },
  { name := "SC_LANEB", addr := 0x252001, dims := [(512, 0x2)], presence := .drivePort, copies := .one, resetKind := .fields, hook := .lane,
    fields := [⟨"SKIP", 11, 6, .rw, 0x0, .any⟩, ⟨"LBLKM1", 5, 0, .rw, 0x0, .any⟩] }]

/-- Every register of the block. -/
def driveRegs : List RegSpec := driveRegs0 ++ driveRegs1

/-- Registers SC_FEEDCTL to SC_FEEDCYC (R279, R280). -/
def feedRegs : List RegSpec := [
  { name := "SC_FEEDCTL", addr := 0x260000, dims := [], presence := .always, copies := .one, resetKind := .fields, hook := .feedCtl,
    fields := [⟨"CNTCLR", 7, 7, .wo, 0x0, .any⟩, ⟨"WINEN", 4, 4, .rwl, 0x0, .any⟩, ⟨"NFEED", 1, 0, .rwl, 0x0, .any⟩] },
  { name := "SC_FEEDSTAT", addr := 0x260001, dims := [], presence := .always, copies := .one, resetKind := .fields, hook := .feedStat,
    fields := [⟨"LATEPASS", 31, 16, .ro, 0x0, .any⟩, ⟨"LATEEV", 15, 15, .w1c, 0x0, .any⟩, ⟨"CURFEED", 9, 8, .ro, 0x0, .any⟩, ⟨"ANFEED", 7, 6, .ro, 0x0, .any⟩, ⟨"AWINEN", 5, 5, .ro, 0x0, .any⟩] },
  { name := "SC_FEEDSTART", addr := 0x260010, dims := [(4, 0x4)], presence := .stream, copies := .one, resetKind := .fields, hook := .none,
    fields := [⟨"LINE", 24, 8, .rwl, 0x0, (.range 0 69632)⟩, ⟨"FRAC", 7, 0, .rwl, 0x0, .any⟩] },
  { name := "SC_FEEDEND", addr := 0x260011, dims := [(4, 0x4)], presence := .stream, copies := .one, resetKind := .fields, hook := .none,
    fields := [⟨"LINE", 24, 8, .rwl, 0x0, (.range 0 69632)⟩, ⟨"FRAC", 7, 0, .rwl, 0x0, .any⟩] },
  { name := "SC_FEEDFLIP", addr := 0x260012, dims := [(4, 0x4)], presence := .stream, copies := .one, resetKind := .fields, hook := .feedFlip,
    fields := [⟨"FLINE", 16, 0, .rwl, 0x0, (.range 0 69632)⟩] },
  { name := "SC_FEEDCYC", addr := 0x260013, dims := [(4, 0x4)], presence := .stream, copies := .one, resetKind := .fields, hook := .feedCyc,
    fields := [⟨"NCYC", 22, 16, .ro, 0x0, .any⟩, ⟨"FIRST", 13, 8, .ro, 0x0, .any⟩, ⟨"LAST", 5, 0, .ro, 0x0, .any⟩] }]

/-- Registers SC_ECCCTL to SC_DSCRUBL (R398). -/
def scanMemRegs : List RegSpec := [
  { name := "SC_ECCCTL", addr := 0x270000, dims := [], presence := .always, copies := .one, resetKind := .fields, hook := .eccCtl,
    fields := [⟨"CNTCLR", 31, 31, .wo, 0x0, .any⟩, ⟨"CTHR", 23, 16, .rw, 0x1, .any⟩, ⟨"CFRAMES", 11, 8, .rw, 0x3, .any⟩, ⟨"DSCRUBEN", 0, 0, .rw, 0x1, .any⟩] },
  { name := "SC_ECCSTAT", addr := 0x270001, dims := [], presence := .always, copies := .one, resetKind := .fields, hook := .none,
    fields := [⟨"CRUN", 31, 28, .ro, 0x0, .any⟩, ⟨"FATAL", 4, 4, .ro, 0x0, .any⟩, ⟨"FATALEV", 3, 3, .w1c, 0x0, .any⟩, ⟨"CONCEV", 2, 2, .w1c, 0x0, .any⟩, ⟨"UEEV", 1, 1, .w1c, 0x0, .any⟩, ⟨"CEEV", 0, 0, .w1c, 0x0, .any⟩] },
  { name := "SC_ECCCNT", addr := 0x270002, dims := [], presence := .always, copies := .one, resetKind := .fields, hook := .none,
    fields := [⟨"UE", 31, 16, .ro, 0x0, .any⟩, ⟨"CE", 15, 0, .ro, 0x0, .any⟩] },
  { name := "SC_ECCCONC", addr := 0x270003, dims := [], presence := .always, copies := .one, resetKind := .fields, hook := .none,
    fields := [⟨"LASTF", 31, 16, .ro, 0x0, .any⟩, ⟨"TOTAL", 15, 0, .ro, 0x0, .any⟩] },
  { name := "SC_UEADDR", addr := 0x270004, dims := [], presence := .always, copies := .one, resetKind := .fields, hook := .none,
    fields := [⟨"ADDR", 31, 0, .ro, 0x0, .any⟩] },
  { name := "SC_UESRC", addr := 0x270005, dims := [], presence := .always, copies := .one, resetKind := .fields, hook := .none,
    fields := [⟨"MACRO", 23, 16, .ro, 0x0, .any⟩, ⟨"REQ", 7, 0, .ro, 0x0, .any⟩] },
  { name := "SC_DSCRUBB", addr := 0x270010, dims := [(4, 0x2)], presence := .always, copies := .one, resetKind := .fields, hook := .none,
    fields := [⟨"BASE", 31, 12, .rw, 0x0, .any⟩, ⟨"EN", 0, 0, .rw, 0x0, .any⟩] },
  { name := "SC_DSCRUBL", addr := 0x270011, dims := [(4, 0x2)], presence := .always, copies := .one, resetKind := .fields, hook := .none,
    fields := [⟨"LIMIT", 31, 12, .rw, 0x0, .any⟩] }]

/-- The register rows of the block that a house word address lies in. -/
def blockRegs (a : Nat) : List RegSpec :=
  if a < 0x101000 then houseRegs else
  if a < 0x102000 then hicRegs else
  if a < 0x103000 then dmaRegs else
  if a < 0x104000 then timerRegs else
  if a < 0x105000 then weaveRegs else
  if a < 0x107000 then audioRegs else
  if a < 0x108000 then securityRegs else
  if a < 0x109000 then recorderRegs else
  if a < 0x10A000 then padRegs else
  if a < 0x10B000 then dresserRegs else
  if a < 0x10C000 then powerRegs else
  if a < 0x110000 then houseMemRegs else
  if a < 0x210000 then perfRegs else
  if a < 0x220000 then beamRegs else
  if a < 0x22F000 then compositionRegs else
  if a < 0x230000 then sceneRegs else
  if a < 0x240000 then trestleRegs else
  if a < 0x250000 then copierRegs else
  if a < 0x260000 then driveRegs else
  if a < 0x270000 then feedRegs else
  scanMemRegs

/-- Every register of both dies. -/
def allRegs : List RegSpec :=
  houseRegs ++ hicRegs ++ dmaRegs ++ timerRegs ++ weaveRegs ++ audioRegs ++ securityRegs ++ recorderRegs ++ padRegs ++ dresserRegs ++ powerRegs ++ houseMemRegs ++ perfRegs ++ beamRegs ++ compositionRegs ++ sceneRegs ++ trestleRegs ++ copierRegs ++ driveRegs ++ feedRegs ++ scanMemRegs

end Sys2Proof.Machine
end

