-- ==== Sys2Proof/Machine/State.lean ====
section
/-! DEFINITION. The state of the module: registers of both dies, the memories, and what each block holds beyond its
registers; the queue of waiting commands; the faults and refusals. -/

namespace Sys2Proof.Machine

/-- Record classes of R570. -/
inductive RecClass where
  | info
  | warn
  | fault
  | fatal
  | alarm
  | firmware
deriving DecidableEq, Repr

/-- A record of the recorder (R570). -/
structure Rec where
  cls : RecClass
  code : Nat
  tform : Bool
  held : Bool
  overpin : Bool
  time : Nat
  p0 : Word
  p1 : Word
  p2 : Word
  p3 : Word
deriving DecidableEq, Repr


/-- What the module has sent out, for the outside to see: newest last in State.sent. -/
inductive Sent where
  /-- A link frame on a weave port: its sequence number, its cumulative acknowledgement, its credit returns, a byte for each
  virtual channel, and its packet (R402). -/
  | frame (port : Nat) (seq ack : BitVec 12) (credits : Word) (pkt : Packet)
  /-- A NAK on a weave port, naming the number it expects (R402). -/
  | nak (port : Nat) (seq : BitVec 12)
  /-- A hello (R409). -/
  | hello (port : Nat) (h : Hello)
  /-- A CAN FD frame of the service bus: identifier and data (R507). -/
  | service (id : Nat) (data : List Byte)
  /-- A byte that left the auxiliary UART (R560). -/
  | uart (b : Byte)
  /-- The answer to a dictionary request that came as a command of its own: status, type code and value (R507). -/
  | answer (status : Nat) (typ : Nat) (value : List Byte)
  /-- What the bench port shifts out (R532). -/
  | bench (data : List Byte)
  /-- The sample pair of an audio output (R475). -/
  | audio (output : Nat) (left right : Int)
deriving DecidableEq, Repr


/-- Where the result item of a commit packet goes (R430, R603): the header fields of the item. -/
structure ReplyTo where
  dkind : BitVec 2
  dest : BitVec 14
  rsel : Bool
  qid : BitVec 14
  ctx : Word
  seq : BitVec 16
deriving DecidableEq, Repr

/-- A target of a read over the bridge: a scan-die register, bytes of DRAM (R38), or what a coprocessor or beam instruction
asks for. -/
inductive Target where
  | register (addr : Nat)
  | dram (addr : Nat)
  /-- An entry of the object dictionary that the dresser reads at the scan die (R503). -/
  | entry (index sub : Nat)
  /-- The current beam position as a BEAM word (R342). -/
  | beamNow
  /-- An override value of a line table (R353): stream, unit, target, module line. -/
  | override (stream unit target line : Nat)
  /-- The position at which the last walk completed (R218). -/
  | walkDone
deriving DecidableEq, Repr

/-- A result item of a commit, as the scan die reports it: the commit's source and epoch, where it goes and its payload (R183). -/
structure Result where
  src : Src
  epoch : Word
  reply : ReplyTo
  payload : List Byte
deriving DecidableEq, Repr

/-- The fields of a beacon that tracking uses (R67): its anchor (1 primary, 2 secondary), received HOPS, the anchor's state,
the true position at arrival as a frame and a time from its start in 1/64 ns (R69), and the TCXO time of the arrival (R45). -/
structure BeaconFix where
  anchor : Nat
  hops : Nat
  state : Nat
  frame : Word
  time : Int
  stamp : Nat
deriving DecidableEq, Repr

/-- The messages of R38, with the source that issued each. Events and interrupt messages travel from the scan die as
edges of their HIC source (R358). -/
inductive Msg where
  | regWrite (src : Src) (addr : Nat) (val : Word)
  /-- A register write that sets some fields alone, as a dictionary entry for part of a register does (R503). -/
  | regBits (src : Src) (addr : Nat) (mask val : Word)
  | dramWrite (src : Src) (addr : Nat) (bytes : List Byte)
  | commit (src : Src) (epoch : Word) (tframe : BitVec 16) (stream : BitVec 2) (wcount : BitVec 24)
      (reply : Option ReplyTo)
  | immPut (src : Src) (w0 w1 w2 w3 : Word)
  | immClear (src : Src)
  /-- The dresser's report of a fatal fault, by its bit of SC_TWREL (R327, R455). -/
  | fault (bit : Nat)
  | readRequest (src : Src) (target : Target) (len : Nat)
  | readResponse (src : Src) (target : Target) (data : List Byte) (failed : Bool)
  | edge (source : Nat)
  | record (r : Rec)
  /-- The report of a commit whose result item the drawer engine sends (R183). -/
  | result (r : Result)
  /-- The row of an object that binds a voice, or of one that has left: voice, frame and centre (R474). -/
  | binding (frame : Word) (voice : Nat) (centre : Option (Int × Int))
  /-- A content key for the slice decoders' copy of a slot, or its clearing (R40, R520). -/
  | key (slot : Nat) (key : Option (List Byte))
  /-- A received beacon for the beam block (R40, R45). -/
  | beacon (fix : BeaconFix)
deriving DecidableEq, Repr

/-- The three message classes of R38, each with its own receive buffers and credits (R39). -/
inductive MsgClass where
  | posted
  | commit
  | read
deriving DecidableEq, Repr

/-- A message, or the part of a long one, in the payload of a flit: how many of the 60 bytes it takes, and whether the
message ends with it (R37). -/
structure MsgPart where
  msg : Msg
  size : Nat
  last : Bool
deriving DecidableEq, Repr

/-- A flit: 60 bytes of messages, in their order, and the link field of a sequence number, an acknowledgement and control
code, and a CRC (R37). -/
structure Flit where
  seq : BitVec 10
  code : BitVec 6
  crc : BitVec 16
  parts : List MsgPart
deriving DecidableEq, Repr

/-- One direction of the bridge: the sender's next number, its replay buffer and what waits at its credits (R39, R47, R48);
the receiver's expected number, the run of NAKs of one flit (R49) and the messages in its receive buffers, in the order of
their flits (R44). -/
structure BridgeDir where
  nextSeq : BitVec 10
  replay : List Flit
  waiting : List MsgPart
  expect : BitVec 10
  nakRun : Nat
  lastNak : BitVec 10
  arrived : List Msg
deriving DecidableEq, Repr

/-- A bridge direction after a reset. -/
def BridgeDir.reset : BridgeDir :=
  { nextSeq := 0, replay := [], waiting := [], expect := 0, nakRun := 0, lastNak := 0, arrived := [] }

/-- A commit the house side has sent and the scan die has not reported (R601). -/
structure SentCommit where
  src : Src
  epoch : Word
  tframe : BitVec 16
  stream : BitVec 2
  reply : Option ReplyTo
deriving DecidableEq, Repr

/-- The die bridge (R37 to R55); its registers are HS_BRCTL, HS_BRSTAT and HS_BRERR. -/
structure Bridge where
  toScan : BridgeDir
  toHouse : BridgeDir
  /-- Times, in TCXO periods, of the CRC errors of the last 1 ms. -/
  crcTimes : List Nat
  /-- Trainings failed in a row at the width under training. -/
  failures : Nat
  /-- Lanes under training: 8 or 4. -/
  width : Nat
  /-- The bridge is held DOWN by a scan-die power-down. -/
  poweredDown : Bool
  /-- A reset is to be followed by a training (R31, R51). -/
  trainAfterReset : Bool
  /-- It has reached UP8 or UP4 since the last house-die reset. -/
  upSinceReset : Bool
  commits : List SentCommit
  /-- The house die's copy of TL, which a write of SC_BEAMFMT updates (R342), as the index of the last line of a frame. -/
  lastLine : Nat
deriving DecidableEq, Repr

/-- The bridge after a reset of both dies. The copy of TL is that of SC_BEAMFMT's reset value (DESIGN CHOICE, log entry 62). -/
def Bridge.reset : Bridge :=
  { toScan := .reset, toHouse := .reset, crcTimes := [], failures := 0, width := 8, poweredDown := false,
    trainAfterReset := true, upSinceReset := false, commits := [], lastLine := 0 }

/-- The last accepted beacon of an anchor: its received HOPS, the anchor's STATE, and where the beam stood (R72, R79). -/
structure Heard where
  hops : Nat
  state : Nat
  frame : Word
  fracs : Nat
deriving DecidableEq, Repr

/-- The beam block beyond its registers (R57 to R100). -/
structure Beam where
  /-- FRAME of BEAMPOS. -/
  frame : Word
  /-- Line index, 0 to TL - 1. -/
  line : Nat
  /-- Fraction of the line, in 1/256. -/
  frac : Nat
  /-- Exact part of a fraction, in units of 1/SC_BEAMPER of one, and what is left below that. -/
  rem : Nat
  sub : Nat
  /-- The frame period that the module has learned, in 1/2²⁴ of a TCXO period; 0 before it has (R74). -/
  period : Nat
  /-- The beacon that the module measures its anchor's frequency from: its frame, its time in the frame at the arrival stamp, and
  the stamp (R73, R77; log entry 46). -/
  base : Option (Word × Int × Nat)
  /-- The start of the current frame has had its effects; it has not where a shift of the counter passed it (R57). -/
  begun : Bool
  /-- How often the beam has entered OFF or ACQUIRE (R372). -/
  stops : Nat
  /-- Phase error still to be slewed out, in 1/64 ns (R75). -/
  slew : Int
  /-- Errors of the step candidates held, oldest first (R76). -/
  candidates : List Int
  /-- Consecutive accepted beacons or frame pulses within the bound that R74 sets. -/
  goodRun : Nat
  /-- The last accepted beacon of the primary and of the secondary anchor (R72). -/
  heardPrimary : Option Heard
  heardSecondary : Option Heard
  /-- The anchor whose beacons are used: 1 primary, 2 secondary (R72). -/
  source : Option Nat
  /-- An anchor that follows the other anchor (R64). -/
  followsOther : Bool
  /-- Consecutive frame pulses that passed R62 while it does so. -/
  returnRun : Nat
  /-- Frame count written to 0x2015:00 and not yet taken (R63). -/
  frameSet : Option Word
  /-- How far the frame count that accepted beacons tell lies ahead, to be taken in at the next line index 0; none before a
  beacon has told one (R65). -/
  adopt : Option Word
  /-- The frame count has started (R63). -/
  started : Bool
  /-- BSEQ of an anchor (R67). -/
  bseq : Word
  /-- Milliseconds in HOLDOVER or FREE since the last LOCKED, and TCXO periods of the current one (R101). -/
  holdMs : Nat
  holdTicks : Nat
  /-- Whether each watermark has fired in the current frame (R93). -/
  fired : Vector Bool 4
deriving DecidableEq, Repr

/-- The beam block after a scan-die reset. -/
def Beam.reset : Beam :=
  { frame := 0, line := 0, frac := 0, rem := 0, sub := 0, period := 0, base := none, begun := true, stops := 0, slew := 0, candidates := [],
    goodRun := 0, heardPrimary := none, heardSecondary := none, source := none, followsOther := false, returnRun := 0, frameSet := none, adopt := none, started := false, bseq := 0,
    holdMs := 0, holdTicks := 0, fired := Vector.replicate 4 false }

/-- An object entry of R119 as the sorter holds it. -/
structure Obj where
  x : Int
  y : Int
  wm1 : Nat
  hm1 : Nat
  plane : Nat
  format : Nat
  hflip : Bool
  vflip : Bool
  affine : Bool
  pal : Nat
  psub : Nat
  pbank : Nat
  img : Nat
  prio : Nat
  ux : Int
  uy : Int
  vx : Int
  vy : Int
  voice : Nat
  vbind : Bool
  bwm1 : Nat
  bhm1 : Nat
deriving DecidableEq, Repr

/-- An entry number waiting for the sorter, with the sources whose counted writes it completes (R127, R128, R177). -/
structure SortEntry where
  entry : Nat
  credits : List Src
deriving DecidableEq, Repr

/-- Error state of a protected unit of scan-die SRAM (R379). -/
inductive CodeState where
  | good
  | single
  | bad
deriving DecidableEq, Repr

/-- A 64-byte unit that a pattern cache holds: its bytes as they were fetched, and the error states of its eight 64-bit words
(R134, R379). -/
structure CacheUnit where
  unit : Nat
  bytes : List Byte
  code : SMap CodeState
deriving DecidableEq, Repr

/-- The object sorter and the pattern caches (R125 to R136). -/
structure Scene where
  /-- Every object that intersects the capture area, by number: the lowest 4,096 are the shadow set (R125, R130). -/
  shadow : SMap Obj
  applied : SMap Obj
  /-- The binding table: voice and box centre by entry number, for each entry that binds a voice (R474). -/
  binding : SMap (Nat × Int × Int)
  queue : List SortEntry
  /-- Next entry of a rescan that runs (R131). -/
  rescan : Option Nat
  /-- The 64-byte units each pattern cache holds, most recently used first (R134). -/
  cache : Vector (List CacheUnit) 8
  /-- Units invalidated after their fetch, per cache (R135). -/
  stale : Vector (List Nat) 8
deriving DecidableEq, Repr

/-- The sorter and caches after a scan-die reset. -/
def Scene.reset : Scene :=
  { shadow := [], applied := [], binding := [], queue := [], rescan := none,
    cache := Vector.replicate 8 [], stale := Vector.replicate 8 [] }

/-- A plane header captured at admission: its 16 words (R115). -/
abbrev Header := List Word

/-- The stages of R179 that a commit can wait in. -/
inductive Stage where
  | held
  | admitted
deriving DecidableEq, Repr

/-- A commit at the scan die (R179): what its CM carried, the counted writes, its stage and the headers captured when it
was admitted, by unit (16 + m for sideboard member m). -/
structure Commit where
  src : Src
  epoch : Word
  tframe : BitVec 16
  stream : BitVec 2
  wcount : Nat
  counted : Nat
  /-- The counter's writes were not all counted (R177). -/
  uncounted : Bool
  /-- It counts a write of 1 to SC_SBCTL.INVAL (R194). -/
  inval : Bool
  reply : Option ReplyTo
  stage : Stage
  headers : List (Nat × Header)
deriving DecidableEq, Repr

/-- Why a commit is refused (R184). -/
inductive Reason where
  | late | incomplete | tooEarly | noBeam | beamFree | lead | bridgeDown | count | epochRepeat | unitAbsent | unitRole
  | descriptor | scaleRatio | presentation | alignment | address | planeHeader | objectsResident | objectSpans
  | objectPixels | lineCost | sideboard
deriving DecidableEq, Repr

/-- Counted writes of one source since its last CM (R176). -/
structure Counter where
  src : Src
  count : Nat
  /-- A scene queue whose counter could not open (R177). -/
  lost : Bool
deriving DecidableEq, Repr

/-- A retirement entry of SC_FENCEQ (R190). -/
structure Retirement where
  fence : Nat
  frame : BitVec 16
deriving DecidableEq, Repr

/-- A valid entry of the egress library as verified (R171, R172): its number and its byte address in MRAM. -/
structure EgressEntry where
  id : Nat
  addr : Nat
deriving DecidableEq, Repr

/-- The egress layer as a composition start takes it (R174). -/
structure EgressShown where
  active : Bool
  entry : Nat
deriving DecidableEq, Repr

/-- Commits, fences, the sideboard and the egress layer beyond their registers (R143 to R200). -/
structure Composition where
  counters : List Counter
  commits : List Commit
  /-- PWs waiting behind a held commit of their counter (R180). -/
  behind : List Msg
  /-- Plane headers in force, by 16 × stream + unit, and by 64 + m for sideboard member m (R115). -/
  headers : List (Nat × Header)
  /-- Absent units that counted writes enabled, per stream (R146). -/
  absentMark : Vector (List Nat) 4
  /-- A write of 1 to SC_SBCTL.INVAL waits for the next accepted commit that counts it (R194). -/
  invalMark : List Src
  /-- Last accepted epoch, per stream (R182). -/
  lastEpoch : Vector (Option Word) 4
  /-- Reason of the last result, to tell a repeated refusal (R183). -/
  lastResult : Option (Option Reason)
  fenceQueue : List Retirement
  /-- The frame being composed was live from its start with no invalidation since (R168). -/
  sideboardRun : Bool
  /-- Entry commanded through 0x3401:00 (R173). -/
  egressCommand : Option Nat
  /-- The library as last verified: key validity and valid entries in MRAM order (R172). -/
  libraryKeyValid : Bool
  library : List EgressEntry
  /-- The egress state that composition uses (R174). -/
  shown : EgressShown
  /-- The last frame whose composition ended since the beam locked (R179, R600). -/
  lastComposed : Option Word
  /-- The last frame whose composition ended, whatever the beam has done since (R190). -/
  lastRead : Option Word
  /-- The first frame that the module composes since the beam locked or it took an area (R600). -/
  firstFrame : Option Word
  /-- Commits accepted, 32 bits, and refused, as entry 0x3002 counts them (R200). -/
  accepted : Word
  refused : Nat
  /-- Frame and pass under composition. -/
  composing : Option (Word × Nat)
  /-- In feed mode, the frame whose earlier passes are composed and the pass that comes next. -/
  nextPass : Option (Word × Nat)
  /-- Region and module line of each cluster line composed in the pass under composition. -/
  linesDone : List (Nat × Nat)
  /-- Pixels concealed in the frame under composition (R385). -/
  concealed : Nat
  /-- Security state that a clear left to the frame under composition (R526). -/
  secHeld : Nat
deriving DecidableEq, Repr

/-- Composition after a scan-die reset. -/
def Composition.reset : Composition :=
  { counters := [], commits := [], behind := [], headers := [], absentMark := Vector.replicate 4 [], invalMark := [],
    lastEpoch := Vector.replicate 4 none, lastResult := none, fenceQueue := [], sideboardRun := false,
    egressCommand := none, libraryKeyValid := false, library := [], shown := { active := false, entry := 0 },
    lastComposed := none, lastRead := none, firstFrame := none, accepted := 0, refused := 0, composing := none, nextPass := none, linesDone := [], concealed := 0, secHeld := 0 }

/-- A raster list entry: four words (R202). -/
structure ListEntry where
  w0 : Word
  w1 : Word
  w2 : Word
  w3 : Word
deriving DecidableEq, Repr

/-- A walk of a stream's lists (R210): the entries that take effect, in effect order. The override state of a wall line is
what the entries up to that line leave. -/
structure Walk where
  stream : Nat
  frame : Word
  entries : List ListEntry
  read : Nat
deriving DecidableEq, Repr

/-- The trestle beyond its registers (R201 to R222). -/
structure Trestle where
  immShadow : List ListEntry
  immApplied : List ListEntry
  /-- The walk in progress. -/
  walking : Option Walk
  /-- Last completed walk of each stream (R214). -/
  tables : Vector (Option Walk) 4
  /-- Frame that each stream's table was walked for; none where its walk is to start again (R211). -/
  valid : Vector (Option Word) 4
  /-- Error states of the line tables, by stream and module line (R379). -/
  tableCode : SMap CodeState
  /-- Scroll override of each module line whose data the fetch agent has read in the pass, by region, unit and line (R210, R220). -/
  scrolls : SMap (Int × Int)
  /-- BEAMPOS at which the last walk completed (R218). -/
  donePos : BitVec 64
  /-- Composition of this stream waits for its walk (R212). -/
  composeHeld : Option Nat
  /-- A walk held composition back in the frame under composition. -/
  heldBack : Bool
deriving DecidableEq, Repr

/-- The trestle after a scan-die reset. -/
def Trestle.reset : Trestle :=
  { immShadow := [], immApplied := [], walking := none, tables := Vector.replicate 4 none, valid := Vector.replicate 4 none, tableCode := [], scrolls := [], donePos := 0,
    composeHeld := none, heldBack := false }

/-- The plane generators, calibration streams and frame store beyond their registers (R223 to R263). -/
structure Drive where
  /-- Channel words of the frame store, by bank, module line, module column and channel (R223). -/
  store : SMap (BitVec 16)
  /-- Error states of the frame store: a protected unit holds the four channel words of a pixel (R379, R383). -/
  storeCode : SMap CodeState
  /-- Bank select of each module line: the front bank. -/
  front : Vector Bool 512
  /-- The clear of R226 runs. -/
  clearing : Bool
  /-- Module lines composed in the back bank and not yet flipped. -/
  ready : List Nat
  /-- Module lines whose flip instant for a pass, a frame and its feed, passed before they were complete, latest first (R86), and
  how many such events there were. -/
  late : List (Nat × Word × Nat)
  lateEvents : Nat
  /-- The last pass found late at a flip (R269, R279). -/
  latePass : Option (Word × Nat)
  /-- Pass that each line last flipped for, on time or late (R80). -/
  flippedFor : Vector (Option (Word × Nat)) 512
  /-- Last calibration record delivered for each module column, and the error states of those line buffers (R232, R379). -/
  calibration : SMap (BitVec 112)
  recordCode : SMap CodeState
  /-- Records fetched ahead for a region and module line, by column of the band; none where a record's read failed (R231). -/
  calAhead : List ((Nat × Nat) × List (Option (BitVec 112)))
  /-- Error states of the layer units' line buffers, by cluster and column of its band (R379). -/
  lineCode : SMap CodeState
  /-- Refresh cycle, row slot and plane slot in progress; no plane slot in the row's dead time (R236 to R239). -/
  cycle : Nat
  row : Nat
  plane : Option Nat
  /-- The cycle is lit (R266). -/
  lit : Bool
  /-- No emission in the cycle: the power state is DARK (R251, R534). -/
  dark : Bool
  /-- GAIN and DBITS as the cycle took them (R235). -/
  gain : Nat
  dbits : Nat
  /-- The frame that the cycle belongs to. -/
  cycleFrame : Word
  /-- Banks that were front at the read instant of the cycle, and of the next one (R241). -/
  cycleBanks : Vector Bool 512
  nextBanks : Vector Bool 512
  /-- Codes formed from the front banks for the row shown and for the next one, by line, column and channel (R235, R241). -/
  rowImage : SMap (BitVec 16)
  nextImage : SMap (BitVec 16)
  /-- The row slot that the next codes were read for: frame, cycle and row; none before the first (R241, R257). -/
  nextFor : Option (Word × Nat × Nat)
  /-- RUN bits that have fallen since the last row slot started, also where they are set again (R249). -/
  stopping : Nat
  /-- Bits latched and being shifted, per DATA port (R239, R246). -/
  latched : List (Nat × List Bool)
  shifting : List (Nat × List Bool)
  /-- OE pulse of the plane slot, in 2.5 ns steps (R240). -/
  oeSteps : Nat
  /-- Row number on the ROW outputs; it changes at RDEAD / 2 of a row slot (R239). -/
  rowOut : Nat
  /-- When the module withdrew, and whether OWN_B has risen since (R253, log entry 16). -/
  withdrawn : Option Nat
  withdrawnHigh : Bool
  /-- A release of CLAIM waits for the plane slot boundary (R253, R456). -/
  releaseAtSlot : Bool
  /-- The release is a boundary release of R456, which clears CLAIM as the ports are tri-stated. -/
  clearsClaim : Bool
  /-- OWN_A as driven by the interlock. -/
  ownA : Bool
deriving DecidableEq, Repr

/-- The pixel path after a scan-die reset: the frame store is being cleared (R226). -/
def Drive.reset : Drive :=
  { store := [], storeCode := [], front := Vector.replicate 512 false, clearing := true, ready := [], late := [], lateEvents := 0, latePass := none,
    flippedFor := Vector.replicate 512 none, calibration := [], recordCode := [], calAhead := [], lineCode := [], cycle := 0, row := 0, plane := none, lit := false, dark := false,
    gain := 0xFFFF, dbits := 0, cycleFrame := 0, cycleBanks := Vector.replicate 512 false,
    nextBanks := Vector.replicate 512 false, rowImage := [], nextImage := [], nextFor := none, stopping := 0, latched := [], shifting := [],
    oeSteps := 0, rowOut := 0, withdrawn := none, withdrawnHigh := false, releaseAtSlot := false, clearsClaim := false,
    ownA := false }

/-- The operands a copier operation latched at GO, and its place in the sequence of R286. -/
structure CopyOp where
  op : Nat
  bpp : Nat
  xdir : Bool
  ydir : Bool
  pace : Bool
  srcBase : Nat
  srcPitch : Nat
  dstBase : Nat
  dstPitch : Nat
  sx : Nat
  sy : Nat
  dx : Nat
  dy : Nat
  w : Nat
  h : Nat
  fill : Nat
  key : Nat
  mask : Nat
  line0 : Nat
  step : Nat
  wmark : Nat
  startFrame : Word
  /-- Rows finished, segments of the row finished. -/
  k : Nat
  g : Nat
  /-- Row released by pacing. -/
  released : Bool
  abort : Bool
deriving DecidableEq, Repr

/-- What the check bits of a DRAM unit hold (R380, R381, R390). -/
inductive UnitState where
  | unwritten
  | good
  | single
  | bad
  | poison
deriving DecidableEq, Repr

/-- DRAM (R102, R379 to R381): bytes, and the state of each 64-byte unit. -/
structure Dram where
  bytes : SMap Byte
  units : SMap UnitState
  /-- Place of the patrol: range and next unit (R392). -/
  scrubUnit : Nat
  /-- Address of the last recorded uncorrectable error (R383). -/
  lastRecorded : Option Nat
deriving DecidableEq, Repr

/-- DRAM at power-on: nothing written. -/
def Dram.reset : Dram :=
  { bytes := [], units := [], scrubUnit := 0, lastRecorded := none }

/-- Performance counter n: 48 bits (R587). -/
abbrev PerfCounts := Vector (BitVec 48) 4


/-- The interrupt controller beyond its registers (R357 to R364). -/
structure Hic where
  /-- Edges given and not yet taken in, oldest first. -/
  edges : List Nat
  /-- Edges of scan-die sources held while the bridge is DOWN (R358). -/
  scanHeld : List Nat
  /-- Held edge counts of coalescing sources (R362). -/
  held : SMap Nat
  /-- Core that last acknowledged each source; core 3 where not listed (R360). -/
  lastAck : SMap Nat
  /-- Sources a WAIT flush released, to be offered first to the core (R363). -/
  flushed : List (Nat × Nat)
  /-- The house clocks are stopped: the edges of enabled wake sources go to the wake latches (R364). -/
  clocksStopped : Bool
deriving DecidableEq, Repr

/-- The interrupt controller after a house-die reset. -/
def Hic.reset : Hic :=
  { edges := [], scanHeld := [], held := [], lastAck := [], flushed := [], clocksStopped := false }

/-- A cause whose records are limited to one a second, when it last wrote and what folded since (R579). -/
structure CauseLimit where
  code : Nat
  cause : Nat
  last : Nat
  folded : Nat
deriving DecidableEq, Repr

/-- A control slot of the recorder (R573). -/
structure ControlSlot where
  seq : Nat
  total : Nat
  floor : Nat
  opsec : Nat
  pcyc : Nat
  pincnt : Nat
deriving DecidableEq, Repr

/-- A clear of the recorder that waits: its value, the requester's class and SMID, and the records still ahead of it (R582). -/
structure PendingClear where
  value : Nat
  cls : Nat
  smid : Nat
  ahead : Nat
deriving DecidableEq, Repr

/-- The recorder beyond its registers (R570 to R583). Records written stand in MRAM. -/
structure Recorder where
  queue : List Rec
  tokens : Nat
  /-- Drops since the last record of code 0x0003 (R579). -/
  dropped : Nat
  limits : List CauseLimit
  /-- Records of the scan die held while the bridge is DOWN (R578). -/
  scanHeld : List Rec
  total : Nat
  floor : Nat
  opsec : Nat
  opTicks : Nat
  pcyc : Nat
  pincnt : Nat
  calSec : Nat
  calTicks : Nat
  slotSeq : Nat
  /-- Clears that wait until the records queued before them are written, oldest first (R582). -/
  clears : List PendingClear
  /-- Control slots as written: sequence count, TOTAL, FLOOR, OPSEC, PCYC, PINCNT (R573). -/
  slots : Vector (Option ControlSlot) 2
  /-- Cause of the last power-on, for the boot record (R584). -/
  bootCause : Nat
deriving DecidableEq, Repr

/-- The recorder of a part that has written nothing. -/
def Recorder.reset : Recorder :=
  { queue := [], tokens := 64, dropped := 0, limits := [], scanHeld := [], total := 0, floor := 0, opsec := 0,
    opTicks := 0, pcyc := 0, pincnt := 0, calSec := 0, calTicks := 0, slotSeq := 0, clears := [], slots := Vector.replicate 2 none, bootCause := 0 }

/-- The module's area from the geometry table (R36). -/
structure Area where
  x0 : Nat
  y0 : Nat
  w : Nat
  h : Nat
deriving DecidableEq, Repr

/-- What a word of house or local SRAM holds: never written since power-on, a word with a good code, a word with one bit
wrong, or an uncorrectable word (R379, R390). -/
inductive SramCell where
  | unwritten
  | good (w : Tagged)
  | single (w : Tagged)
  | bad
deriving DecidableEq, Repr

/-- What the check bits of a 32-byte MRAM block hold (R379). -/
inductive BlockState where
  | good
  | corrected
  | bad
deriving DecidableEq, Repr

/-- The house die's memories (R301, R379, R386 to R396). -/
structure Memory where
  sram : SMap SramCell
  /-- Local SRAM of each core. -/
  locals : Vector (SMap SramCell) 4
  mram : SMap Byte
  blocks : SMap BlockState
  /-- Memory and address of the last recorded uncorrectable error (R383). -/
  lastRecorded : Option Nat
  /-- Corrections since reset, by macro and row (R396). -/
  corrections : SMap Nat
  /-- Next word of the house patrol (R391), next block of the MRAM patrol (R392). -/
  patrol : Nat
  mramPatrol : Nat
  /-- Pages that the running initialiser writes, the first and the last (R388). -/
  initPages : BitVec 9 × BitVec 9
  /-- The next word that the initialiser writes (R388). -/
  initNext : Nat
deriving DecidableEq, Repr

/-- The memories of a part that has written nothing: MRAM as the factory left it, local SRAM as hardware writes it (R389). -/
def Memory.reset : Memory :=
  { sram := [], locals := Vector.replicate 4 [], mram := [], blocks := [], lastRecorded := none, corrections := [],
    patrol := 0, mramPatrol := 0, initPages := (0, 0), initNext := 0 }


/-- What a load that stalls a core does with its word (R313, R336). -/
inductive LoadUse where
  /-- To a register, and whether a base register takes a new value (R334). -/
  | register (rd : BitVec 4) (update : Bool) (base : BitVec 4) (value : BitVec 24)
  /-- To memory and on to the next word (R345): the two pointer registers. -/
  | move (rd ra : BitVec 4)
  /-- To a register, raising SP (R336). -/
  | pop (rd : BitVec 4)
  /-- To a register as a word of this tag (R342, R353, R218). -/
  | tagged (rd : BitVec 4) (tag : BitVec 4)
deriving DecidableEq, Repr

/-- A load that a core waits for (R313): what is read, the address a trap names, and what the word is for. -/
structure LoadWait where
  target : Target
  addr : Word
  use : LoadUse
deriving DecidableEq, Repr

/-- An Mbophor core (R305, R317). RUN, LOCKED and HALTED are in HS_CORECTL and HS_CORESTAT. -/
structure Core where
  /-- V0 to V7, P0 to P6 and SP, with their tags, by register number (R334). -/
  regs : Vector Tagged 16
  q : Vector (BitVec 72) 2
  pc : BitVec 24
  sr : Word
  rc : BitVec 16
  bk : Vector (BitVec 8) 4
  vtab : BitVec 24
  slim : BitVec 24
  tcause : Word
  taddr : Word
  /-- The next instruction carries the REP prefix at PC (R347). -/
  repeating : Bool
  /-- In WAIT, in SYNC, or stalled on a load (R344, R313). -/
  waiting : Bool
  syncing : Bool
  stalled : Option LoadWait
  /-- Halted by the bench port (R528). -/
  benchHalt : Bool
  /-- Breakpoints of the bench port; the next instruction passes a breakpoint at its own address; the core halts after it. -/
  breaks : List (BitVec 24)
  passing : Bool
  stepping : Bool
deriving DecidableEq, Repr

/-- A core after a core reset, starting at `start` (R306). -/
def Core.reset (start : BitVec 24) : Core :=
  { regs := Vector.replicate 16 0, q := Vector.replicate 2 0, pc := start, sr := 0, rc := 0,
    bk := #v[0x00, 0x10, 0x20, 0x30], vtab := 0, slim := 0, tcause := 0, taddr := 0, repeating := false, waiting := false,
    syncing := false, stalled := none, benchHalt := false, breaks := [], passing := false, stepping := false }

/-- Where a DMA channel stands in R370 to R375. -/
inductive DmaPhase where
  | idle
  /-- A descriptor in DRAM is to be read. -/
  | loading
  /-- The descriptor's read is on its way (R38). -/
  | fetching
  | moving
  /-- All elements issued; their writes have not all applied. -/
  | applying
  /-- The write of word 7 to DRAM has not applied. -/
  | writeback
  /-- The write of word 7 to DRAM has applied. -/
  | written
  /-- A halt, by its cause and its address, waits for the writes before it (R375). -/
  | halting (cause err : Nat)
deriving DecidableEq, Repr

/-- A DMA channel beyond its registers (R370 to R375). -/
structure DmaCh where
  phase : DmaPhase
  desc : List Word
  /-- The current descriptor is in DRAM. -/
  inDram : Bool
  moved : Nat
  /-- Elements whose writes have applied. -/
  applied : Nat
  credits : Nat
  bursts : Nat
  f0 : Word
  /-- Elements of the burst in progress whose reads through the bridge are out (R38). -/
  asked : Nat
  /-- Bursts that the beam released and a backward step does not take back (R372). -/
  released : Nat
  /-- The beam stops that there had been when the descriptor was loaded (R372). -/
  stops : Nat
  /-- PWs in flight that come first and are no element of the current descriptor: the write of word 7, or writes from before a
  house-die reset (R374, R376). -/
  skip : Nat
deriving DecidableEq, Repr

/-- A DMA channel after a house-die reset. -/
def DmaCh.reset : DmaCh :=
  { phase := .idle, desc := [], inDram := false, moved := 0, applied := 0, credits := 0, bursts := 0, f0 := 0, asked := 0,
    released := 0, stops := 0, skip := 0 }


/-- A packet as it arrived at the module or began in it: the low word of BEAMPOS and the TCXO time at that instant (R45, R425). -/
structure Item where
  pkt : Packet
  pos : Word
  stamp : Nat
deriving DecidableEq, Repr

/-- A packet in an output queue or replay buffer, as it arrived: whether it is a multicast copy, the port it arrived on (7: originated here),
and the OUT queue whose slot at HEAD it is while it waits to leave (R417, R419, R421, R425). -/
structure Queued where
  pkt : Packet
  copy : Bool
  arrival : Nat := 7
  out : Option (BitVec 14) := none
deriving DecidableEq, Repr

/-- A link frame sent and not acknowledged (R402). -/
structure LinkFrame where
  seq : BitVec 12
  credits : Word
  item : Queued
deriving DecidableEq, Repr

/-- A weave port beyond its registers (R401 to R412). -/
structure Port where
  nextSeq : BitVec 12
  replay : List LinkFrame
  /-- What waits on the four virtual channels, in the order of its arrival (R407). -/
  queue : List Queued
  expect : BitVec 12
  nakRun : Nat
  lastNak : BitVec 12
  /-- How often in a row the neighbour has NAKed the same frame of this port, and its number (R403). -/
  nakedRun : Nat
  lastNaked : BitVec 12
  /-- Per virtual channel: buffers of the neighbour that frames of this port fill, and own buffers freed since the last frame
  sent, whose credits it owes (R407). -/
  used : Vector Nat 4
  owed : Vector Nat 4
  /-- Times of the CRC errors of the last 1 ms (R403). -/
  crcTimes : List Nat
  /-- Trainings failed in a row, and training on one lane (R403). -/
  failures : Nat
  oneLane : Bool
  /-- Last hello received (R409). -/
  hello : Option Hello
  /-- Packets accepted from the link and not yet examined. -/
  arrived : List Item
  /-- VIDEO has the turn of the round robin, and the bytes that SCENE and VIDEO may still send; below 0, what they owe (R407). -/
  videoTurn : Bool
  sceneLeft : Int
  videoLeft : Int
deriving DecidableEq, Repr

/-- A port after a house-die reset. -/
def Port.reset : Port :=
  { nextSeq := 0, replay := [], queue := [], expect := 0, nakRun := 0, lastNak := 0, nakedRun := 0, lastNaked := 0,
    used := Vector.replicate 4 0, owed := Vector.replicate 4 0, crcTimes := [], failures := 0, oneLane := false, hello := none,
    arrived := [], videoTurn := false, sceneLeft := 0, videoLeft := 0 }

/-- The slot at HEAD of an OUT ring whose packet is on its way out: words 0 and 3 of its header, and whether the packet was
discarded since for want of a route (R419, R425). -/
structure Sending where
  w0 : Nat
  w3 : Nat
  lost : Bool
deriving DecidableEq, Repr

/-- A drawer: the queue of one QID (R424 to R430). -/
structure Drawer where
  enabled : Bool
  mode : BitVec 3
  inDram : Bool
  vc : BitVec 2
  minClass : BitVec 2
  needEgr : Bool
  lossReport : Bool
  irqLine : BitVec 6
  irqEn : Bool
  base : Word
  slots : BitVec 16
  slotK : BitVec 3
  gapTime : BitVec 16
  dest : BitVec 16
  rqid : BitVec 14
  /-- Next SEQ expected or sent. -/
  next : BitVec 16
  head : BitVec 16
  tail : BitVec 16
  damaged : Bool
  lost : Nat
  dup : Nat
  /-- Held items (R426). -/
  held : List Item
  /-- Source and context of the last delivered item (R427): SMID, SPORT, CTX. -/
  last : Option (BitVec 14 × BitVec 2 × Word)
  /-- SEQs of loss slots that wait for space (R428). -/
  lossSlots : List (BitVec 16)
  /-- PWs issued since the last CM of a SCENE queue (R430). -/
  issued : Nat
  /-- A patch request is out: the numbers asked for, and those answered as not found (R461). -/
  asked : List (BitVec 16)
  notFound : List (BitVec 16)
  /-- The slot at HEAD of an OUT ring is being sent (R425). -/
  sending : Option Sending
deriving DecidableEq, Repr

/-- A queue that is not enabled. -/
def Drawer.off : Drawer :=
  { enabled := false, mode := 0, inDram := false, vc := 0, minClass := 0, needEgr := false, lossReport := false,
    irqLine := 0, irqEn := false, base := 0, slots := 0, slotK := 0, gapTime := 0, dest := 0, rqid := 0, next := 0,
    head := 0, tail := 0, damaged := false, lost := 0, dup := 0, held := [], last := none, lossSlots := [], issued := 0,
    asked := [], notFound := [], sending := none }

/-- An activation in progress (R414, R595): its epoch, TOTAL and the anchors that its item names. -/
structure Activation where
  epoch : Word
  total : Nat
  anchors : List (BitVec 16)
  /-- The bridge was not UP at some time since its item, WV_GEOBASE is out of DRAM, or a read failed (R415). -/
  failed : Bool
  /-- MIDs whose entries are being read back through the bridge, and the entries that have come (R38, R414). -/
  reading : List Nat
  entries : List (Nat × List Nat)
deriving DecidableEq, Repr

/-- The read of an OUT slot in DRAM: its queue, the slot header once it is there, how many reads are out, and the payload
bytes so far (R425). -/
structure OutRead where
  qid : BitVec 14
  head : Option (List Byte)
  left : Nat
  got : List Byte
deriving DecidableEq, Repr

/-- The weave beyond its registers (R400 to R438). -/
structure Weave where
  ports : Vector Port 7
  /-- Route table by MID (R417). -/
  routes : SMap (BitVec 16)
  /-- Position table by MID: word 0 of each entry of the active geometry (R415). -/
  positions : SMap Word
  /-- The geometry table in force: false the first, true the second; none before the first activation (R414). -/
  table : Option Bool
  /-- MIDs written for each epoch that is being loaded. -/
  loading : SMap (List Nat)
  /-- Activation in progress. -/
  activating : Option Activation
  /-- Items of QID 3 that have passed its window and wait for the loader (R415). -/
  geoWaiting : List Packet
  /-- Anchors of the wall, as the ANCHOR field of their beacons spells them (R71, R595). -/
  anchors : List (BitVec 16)
  /-- Packets delivered locally, with their arrival port (7: originated here), waiting for their engine. -/
  inbox : List (Nat × Item)
  /-- Beacons waiting for the forwarder, with their arrival port (R45). -/
  beacons : List (Nat × Item)
  drawers : SMap Drawer
  /-- Queues whose descriptor read is on its way, oldest first (R38, R424). -/
  enabling : List (BitVec 14 × Nat)
  /-- The slot of an OUT ring in DRAM that is being read (R38, R425). -/
  outRead : Option OutRead
  /-- DSC picture parameter sets (R431). -/
  pps : Vector (Option (List Byte)) 8
  /-- Count of reports on QID 5 (R603). -/
  reports : BitVec 16
  /-- The last reset of the house die and its cause, until the first report has named them (R442). -/
  resetNamed : Option (Nat × Nat)
deriving DecidableEq, Repr

/-- The weave after a house-die reset. -/
def Weave.reset : Weave :=
  { ports := Vector.replicate 7 .reset, routes := [], positions := [], table := none, loading := [], activating := none, geoWaiting := [],
    anchors := [], inbox := [], beacons := [], drawers := [], enabling := [], outRead := none, pps := Vector.replicate 8 none, reports := 0,
    resetNamed := some (0, 0) }

/-- A line signature (R452): low half of the frame, pass, module line, CRC-32. -/
structure Signature where
  frame : BitVec 16
  pass : BitVec 2
  line : BitVec 16
  crc : Word
  /-- TCXO time since which the module has held it (R453). -/
  since : Nat
deriving DecidableEq, Repr

/-- The partner's latest heartbeat (R449). -/
structure Beat where
  state : Byte
  fault : Byte
  check : Byte
  epochs : Vector Word 4
deriving DecidableEq, Repr

/-- The twin supervisor beyond its registers (R445 to R462). -/
structure Twin where
  hbSeq : Word
  /-- Next SEQ sent on each queue of the twin protocol, and the queues that have received since T was last DOWN (R426; log entry 85). -/
  sent : SMap (BitVec 16)
  opened : List (BitVec 14)
  partner : Option Beat
  /-- Frame starts in a row at which the epochs differed (R451). -/
  epochRun : Nat
  own : List Signature
  theirs : List Signature
  /-- Frame under comparison, and whether a line of it differed (R453). -/
  comparing : Option (BitVec 16 × Bool)
  run : Nat
  /-- The self-check runs or waits for the partner; own and partner's result (R454). -/
  checking : Bool
  ownResult : Option Bool
  theirResult : Option Bool
  /-- No further self-check until a frame has ended a run. -/
  checkHeld : Bool
  failed : Bool
  /-- The last active geometry made the module a twin: what the scan die knows through a house-die reset (R455, R602). -/
  latched : Bool
  /-- FAILED is entered with the pending boundary release (R455). -/
  failAtRelease : Bool
  /-- Re-arm once OWN_B is high (R447). -/
  rearm : Bool
  /-- Header of a patch answer whose body is awaited (R461). -/
  patchHead : Option Packet
  /-- The patch log: items in execution order, with QID and SEQ in their header, and the next 16-byte row of its pages. -/
  log : List Packet
  logAt : Nat
deriving DecidableEq, Repr

/-- The twin supervisor after a reset of both dies. -/
def Twin.reset : Twin :=
  { hbSeq := 0, sent := [], opened := [], partner := none, epochRun := 0, own := [], theirs := [], comparing := none, run := 0, checking := false,
    ownResult := none, theirResult := none, checkHeld := false, failed := false, latched := false, failAtRelease := false, rearm := false,
    patchHead := none, log := [], logAt := 0 }


/-- A voice of the audio unit beyond its registers (R470 to R472). -/
structure Voice where
  /-- Play position with 16 fraction bits. -/
  pos : Nat
  /-- DRAM units fetched, by number: their bytes, none where uncorrectable. -/
  units : List (Nat × Option (List Byte))
deriving DecidableEq, Repr

/-- A queued voice event (R476). -/
structure VoiceEvent where
  frame : BitVec 8
  line : BitVec 17
  op : BitVec 4
  voice : BitVec 8
  value : Word
deriving DecidableEq, Repr

/-- A binding row on its way to the audio unit (R474): frame, voice, and the centre of the object's display box. -/
structure BindRow where
  frame : Word
  voice : Nat
  centre : Option (Int × Int)
deriving DecidableEq, Repr

/-- The audio unit beyond its registers (R467 to R485). -/
structure Audio where
  voices : SMap Voice
  events : List VoiceEvent
  /-- How many events at the head of the queue are due (R477). -/
  due : Nat
  /-- Centres of the objects that bind voices, by voice (R474). -/
  bound : SMap (Option (Int × Int))
  rows : List BindRow
  /-- Rows last sent by the scan die. -/
  sentRows : SMap (Option (Int × Int))
  /-- D48 samples of program streams 0 to 7 and codec channels 8 and 9, newest first. -/
  history : SMap (List Int)
  /-- Voices and DRAM units whose reads are on their way, oldest first (R38, R472). -/
  asked : List (Nat × Nat)
  /-- D96 samples since the last D48 sample, and since the unit was turned on. -/
  phase : Nat
  samples : Nat
  /-- Frame and index of the next sample while D96 is locked to the beam (R468). -/
  sampleFrame : Word
  sampleIndex : Nat
  /-- Beam lock is asked for and a condition of it fails, as CLKEV has said; and no LRCK within range, as UNLOCKEV has said (R468,
  R469). -/
  clockBad : Bool
  lrckBad : Bool
  /-- The output channels as last formed (R482). -/
  out : Vector Int 8
deriving DecidableEq, Repr

/-- The audio unit after a house-die reset. -/
def Audio.reset : Audio :=
  { voices := [], events := [], due := 0, bound := [], rows := [], sentRows := [], history := [], asked := [], phase := 0,
    samples := 0, sampleFrame := 0, sampleIndex := 0, clockBad := false, lrckBad := false, out := Vector.replicate 8 0 }

/-- Where the reply to a dictionary request goes. -/
inductive ReplyRoute where
  | house
  | bench
  | service (tag : Byte)
  /-- The last ACK of a segmented write: its NEXT (R511). -/
  | serviceAck (tag : Byte) (next : Nat)
  /-- The opening of a segmented write: its TOTAL (R511). -/
  | serviceOpen (tag : Byte) (total : Nat)
  | fabric (pkt : Packet)
  /-- A request taken as a command of its own, whose answer the module gives as it is. -/
  | plain
deriving DecidableEq, Repr

/-- A dictionary request as received (R498 to R503, R510, R513): class, egress right, command, entry and data. For a
fabric request, the offset and length of the piece and its FIRST and LAST flags. -/
structure DictRequest where
  cls : PortClass
  egr : Bool
  cmd : Nat
  index : Nat
  sub : Nat
  data : List Byte
  offset : Nat
  len : Nat
  /-- A word of the house buffer was not tagged 1 to 7 (R502). -/
  poison : Bool
  route : ReplyRoute
deriving DecidableEq, Repr

/-- The open segmented transfer of the service bus (R511, R512). -/
structure Transfer where
  tag : Byte
  write : Bool
  index : Nat
  sub : Nat
  total : Nat
  data : List Byte
  next : Nat
  /-- Segments sent of a read, and acknowledged. -/
  sent : Nat
deriving DecidableEq, Repr

/-- A value staged in pieces over the fabric (R514). -/
structure Staging where
  smid : BitVec 14
  sport : BitVec 2
  index : Nat
  sub : Nat
  data : List Byte
deriving DecidableEq, Repr

/-- A result entry (R506). -/
inductive ResultState where
  | empty
  | running (value : List Byte)
  | ready (value : List Byte)
deriving DecidableEq, Repr

/-- A record slot of a persistent entry (R504): value, sequence count, CRC-32 and valid mark. The state of its read is that of its
MRAM block. -/
structure StoreSlot where
  value : List Byte
  seq : Nat
  crc : Word
  mark : Bool
deriving DecidableEq, Repr

/-- The two record slots of a persistent entry (R504). -/
structure Stored where
  first : Option StoreSlot
  second : Option StoreSlot
deriving DecidableEq, Repr

/-- The dresser beyond its registers (R495 to R517). -/
structure Dresser where
  /-- Requests behind a waiting firmware request. -/
  queue : List DictRequest
  firmware : Option DictRequest
  /-- A READ of an entry of the scan die whose answer is on its way through the bridge (R38). -/
  reading : Option DictRequest
  transfer : Option Transfer
  stagings : List Staging
  /-- 0x3003:00 as written. -/
  stagedCommit : Word
  /-- Counted scene writes since the dresser's last CM (R503). -/
  counted : Nat
  stored : SMap Stored
  sealing : ResultState
  verifying : ResultState
  /-- Core lockups since the last power-on reset, saturating, as 0x1010:01 reads them. -/
  lockups : Nat
  /-- When a house-die reset that 0x1040:02 asked for comes (R593). -/
  resetAt : Option Nat
  bootStatus : Byte
  version : Word
  /-- The service address as 0x1020:00 holds it (R509). -/
  saddr : Nat
  /-- What 0x2015:00 and 0x3003:01 were last written with. -/
  frameCount : Word
  epoch : Word
  /-- Bytes of the egress library as last written. -/
  libraryLen : Nat
deriving DecidableEq, Repr

/-- The dresser of a part that has stored nothing. -/
def Dresser.reset : Dresser :=
  { queue := [], firmware := none, reading := none, transfer := none, stagings := [], stagedCommit := 0, counted := 0, stored := [],
    sealing := .empty, verifying := .empty, lockups := 0, resetAt := none, bootStatus := 0, version := 0,
    saddr := 0xFFFF, frameCount := 0, epoch := 0, libraryLen := 0 }

/-- The boundary-scan instruction in force on the bench port (R528, R533). -/
inductive Boundary where
  | off
  | extest
  | clamp
  | highz
deriving DecidableEq, Repr

/-- The hutch and the island's security state (R518 to R533). -/
structure Hutch where
  kek : Option (List Byte)
  content : Vector (Option (List Byte)) 32
  /-- The decoders' copies of the content keys (R520). -/
  decoders : Vector (Option (List Byte)) 32
  sealKey : Option (List Byte)
  /-- The wrapped seal key and the seal mark in the island block of MRAM. -/
  wrappedSeal : Option (List Byte)
  sealMark : Bool
  alarmLog : List (Nat × Nat × Nat)
  nonce : Option (List Byte)
  /-- When the last token failed (R529). -/
  failedAt : Option Nat
  /-- An alarm arises while the token at hand is verified (R529). -/
  alarmed : Bool
  egressHash : Option (List Byte)
  customerHash : Option (List Byte)
  /-- The lease runs (R531). -/
  leased : Bool
  /-- What the bench port's boundary scan does to the pads (R533), and the pattern preloaded for it. -/
  boundary : Boundary
  preload : List Byte
  /-- Reads of the bench port that have gone into the bridge, oldest first (R38, R528). -/
  benchReads : List Target
deriving DecidableEq, Repr

/-- The hutch of a part from the factory. -/
def Hutch.reset : Hutch :=
  { kek := none, content := Vector.replicate 32 none, decoders := Vector.replicate 32 none, sealKey := none,
    wrappedSeal := none, sealMark := false, alarmLog := [], nonce := none, failedAt := none, alarmed := false, egressHash := none,
    customerHash := none, leased := false, boundary := .off, preload := [], benchReads := [] }

/-- The scan-die state image of HIBERNATE (R537). -/
structure ScanImage where
  regs : SMap Word
  applied : SMap Word
  immShadow : List ListEntry
  immApplied : List ListEntry
  shadow : SMap Obj
  objects : SMap Obj
  binding : SMap (Nat × Int × Int)
  headers : List (Nat × Header)
deriving DecidableEq, Repr

/-- Where the supply stands (R562, R563). -/
inductive SupplyPhase where
  | off
  | delay
  | softStart
  | running
deriving DecidableEq, Repr

/-- Power states beyond HS_PWRCTL and HS_PWRSTAT (R534 to R537), and the supply (R561 to R565). -/
structure Power where
  /-- Target of the transition that runs. -/
  target : Option Nat
  /-- OFF-AWAIT: only the island is powered. -/
  offAwait : Bool
  /-- INEN was 1 at the entry to HIBERNATE or OFF-AWAIT (R538). -/
  inenAtEntry : Bool
  /-- A wake edge arrived during an entry, and its source. -/
  wakePending : Option Nat
  image : Option ScanImage
  supply : SupplyPhase
  /-- The scan die is powered off. -/
  scanOff : Bool
  /-- The always-on island has power (R527, R563). -/
  island : Bool
  /-- TCXO periods of the current second of the island timer (R543). -/
  timerTicks : Nat
  /-- The boot sequence has not ended (R590, R592). -/
  booting : Bool
  /-- The input-loss warning stands; PGWARN_N is low while it does (R557, R562). -/
  vinLow : Bool
deriving DecidableEq, Repr

/-- Power right after a power-on reset. -/
def Power.reset : Power :=
  { target := none, offAwait := false, inenAtEntry := false, wakePending := none, image := none, supply := .running,
    scanOff := false, island := true, timerTicks := 0, booting := true, vinLow := false }

/-- What drives a pad (R549, R550): nothing, a drive port function of SC_DPCFG, a general-purpose output with its enable and
level, or peripherals. -/
inductive PadDriver where
  | none
  | function (f : Nat)
  | gpio (oe level : Bool)
  | peripherals (l : List Nat)
  /-- The boundary-scan cell (R533). -/
  | boundary
deriving DecidableEq, Repr

/-- The pad block beyond its registers (R547 to R557). -/
structure Pads where
  /-- Progress of the lock sequence, per source (R553). -/
  lockSeq : SMap Nat
  /-- Pads that hold their level after a change of function, with what drove them (R551). -/
  holds : List (Nat × PadDriver)
  /-- Pads whose hold latch is in force, with what they keep (R554). -/
  latched : List (Nat × PadDriver)
  /-- A conversion runs (R548). -/
  converting : Bool
  /-- Banks whose rail slews (R547). -/
  slewing : List Nat
  /-- Debounced loop state, and the band and count of the samples in a row (R556). -/
  loop : Nat
  /-- The last loop state other than a fault was asserted (R173). -/
  asserted : Bool
  band : Nat
  bandRun : Nat
  uartRx : List Byte
  uartTx : List Byte
deriving DecidableEq, Repr

/-- The pad block after an island reset. -/
def Pads.reset : Pads :=
  { lockSeq := [], holds := [], latched := [], converting := false, slewing := [], loop := 0, asserted := false, band := 4, bandRun := 0, uartRx := [], uartTx := [] }


/-- Why the machine stops with a fault. No command stops the block: the spec gives every one of them an effect. Safe: nothing
raises it. -/
inductive Fault where
deriving DecidableEq, Repr

/-- Why a command is refused. -/
inductive Refusal where
  /-- The command has no meaning yet. Raised by the arms of exec alone. Safe: the machine stops. -/
  | notModelled (mnemonic : String)
deriving DecidableEq, Repr

/-- The state of the module. -/
structure State where
  variant : Variant
  /-- Registers of both dies, by house word address (a core's or a source's own copy by its key); shadows of RWL fields. -/
  regs : SMap Word
  /-- Applied values of the registers with RWL fields (R12, R181). -/
  applied : SMap Word
  bridge : Bridge
  beam : Beam
  scene : Scene
  comp : Composition
  trestle : Trestle
  drive : Drive
  copier : Option CopyOp
  dram : Dram
  perf : PerfCounts
  hic : Hic
  /-- TCXO periods that each timer has left before it expires; 0 where it does not run (R367). -/
  timers : Vector Nat 8
  recorder : Recorder
  mem : Memory
  cores : Vector Core 4
  dma : Vector DmaCh 32
  /-- DMA channel served last, at each priority (R373). -/
  dmaLast : Vector Nat 4
  weave : Weave
  twin : Twin
  audio : Audio
  dresser : Dresser
  hutch : Hutch
  power : Power
  pads : Pads
  /-- Results of commits and binding rows that the scan die holds while the bridge is DOWN (R183, R474, R487). -/
  held : List Msg
  area : Option Area
  sent : List Sent
  /-- TCXO periods of 25 ns that the idle block has counted. -/
  now : Nat
  /-- Free values taken so far (log entry 2). -/
  fresh : Nat
  pending : List Instr
deriving DecidableEq, Repr

/-- The module right after reset. -/
def State.reset : State :=
  { variant := .zw8460, regs := [], applied := [], bridge := .reset, beam := .reset, scene := .reset, comp := .reset,
    trestle := .reset, drive := .reset, copier := none, dram := .reset, perf := Vector.replicate 4 0, hic := .reset, timers := Vector.replicate 8 0,
    recorder := .reset, mem := .reset, cores := Vector.replicate 4 (.reset 0x1F0000), dma := Vector.replicate 32 .reset,
    dmaLast := Vector.replicate 4 31, weave := .reset, twin := .reset, audio := .reset, dresser := .reset, hutch := .reset, power := .reset,
    pads := .reset, held := [], area := none, sent := [], now := 0, fresh := 0, pending := [] }

/-- What a command answers. -/
abbrev Out := Host.Outcome State Fault Refusal

end Sys2Proof.Machine
end

