-- ==== Sys2Proof/Machine/Regs.lean ====
section
/-! DEFINITION. The register file: lookup, presence, reset values, reads and writes by access code. -/

namespace Sys2Proof.Machine

/-- The capability word of a variant with STEP = 1 (R3, R4). -/
def capability : Variant → Word
  | .zw8460 => 0x01F44443
  | .zw8440 => 0x01E22242
  | .zw8420 => 0x01010021

/-- Field REGIONS of HS_ID (R3). -/
def regionCount (v : Variant) : Nat := bitsOf (capability v) 7 4

/-- Field VLU of HS_ID: video layer units per cluster (R3). -/
def videoUnits (v : Variant) : Nat := bitsOf (capability v) 11 8

/-- Field DSC of HS_ID: slice decoders (R3). -/
def decoderCount (v : Variant) : Nat := bitsOf (capability v) 15 12

/-- Field FEEDS of HS_ID: camera feeds per frame (R3). -/
def feedCount (v : Variant) : Nat := bitsOf (capability v) 19 16

/-- Field AUDIO of HS_ID (R3). -/
def hasAudio (v : Variant) : Bool := bitsOf (capability v) 20 20 == 1

/-- Field RCOP of HS_ID (R3). -/
def hasRcop (v : Variant) : Bool := bitsOf (capability v) 21 21 == 1

/-- Field TWIN of HS_ID (R3). -/
def hasTwin (v : Variant) : Bool := bitsOf (capability v) 22 22 == 1

/-- Field DPHI of HS_ID: DP256 to DP511 are bonded (R3). -/
def hasHighPorts (v : Variant) : Bool := bitsOf (capability v) 23 23 == 1

/-- Weave ports N, E, S, W, U0, U1, T are 0 to 6; U1 and T are absent on the ZW-8420 (R1). -/
def portPresent (v : Variant) (p : Nat) : Bool := p < 5 || (p < 7 && v != .zw8420)

/-- The row of the register tables at a house word address, and the index of the register in its array. -/
def regSpecAt (a : Nat) : Option (RegSpec × List Nat) :=
  (blockRegs a).findSome? fun r =>
    if a < r.addr then none else (arrayIndex r.dims (a - r.addr)).map fun i => (r, i)

/-- Pads DP000 to DP511 that are bonded, as a value of a pad field (R1). -/
def padBonded (v : Variant) (p : Nat) : Bool := p < 256 || hasHighPorts v

/-- Whether a register is present in a variant (R6). -/
def registerPresent (v : Variant) (r : RegSpec) (idx : List Nat) : Bool :=
  let i := idx.headD 0
  match r.presence with
  | .always => true
  | .audio => hasAudio v
  | .twin => hasTwin v
  | .port => portPresent v i
  | .stream => i < feedCount v
  | .region => i < regionCount v
  | .drivePort => i < 256 || hasHighPorts v
  | .cluster => i / 2 < regionCount v
  | .rcop => hasRcop v
  | .pad => padBonded v i
  | .padWord => padBonded v (32 * i)

/-- Reset value of a register from its fields. -/
def fieldsReset (fs : List FieldSpec) : Word := fs.foldl (fun w f => putBits w f.hi f.lo f.reset) 0

/-- The bilinear filter coefficient of tap `k`, phase `p`, where tap `t` carries the near sample (R161). -/
def bilinear (t p k : Nat) : Nat := if k = t then 1024 * (64 - p) / 64 else if k = t + 1 then 1024 * p / 64 else 0

/-- What a register, or a core's or source's own copy of one, holds at reset. -/
def regDefault (key : Nat) : Word :=
  match regSpecAt (key % 0x1000000) with
  | none => 0
  | some (r, idx) =>
    match r.resetKind with
    | .fields | .capability => fieldsReset r.fields
    | .identityMatrix => if idx.headD 0 % 4 = 0 then 0x2000 else 0
    | .bilinearH => BitVec.ofNat 32 (bilinear 3 (idx.headD 0) (idx.getD 1 0))
    | .bilinearV => BitVec.ofNat 32 (bilinear 2 (idx.headD 0) (idx.getD 1 0))
    | .lutRamp => BitVec.ofNat 32 (idx.getD 2 0 * 16)

/-- The word a register holds. -/
def regWord (s : State) (key : Nat) : Word := sget s.regs (regDefault key) key

/-- Stores a register word. -/
def setRegWord (s : State) (key : Nat) (w : Word) : State :=
  { s with regs := sput s.regs (regDefault key) key w }

/-- The applied word of a register with RWL fields. -/
def appliedWord (s : State) (key : Nat) : Word := sget s.applied (regDefault key) key

/-- A field of a register. -/
def getF (s : State) (f : Fld) : Nat := bitsOf (regWord s f.addr) f.hi f.lo

/-- A field's applied value. -/
def appF (s : State) (f : Fld) : Nat := bitsOf (appliedWord s f.addr) f.hi f.lo

/-- A single-bit field read as a truth value. -/
def flag (s : State) (f : Fld) : Bool := getF s f != 0

/-- A single-bit field's applied value. -/
def appFlag (s : State) (f : Fld) : Bool := appF s f != 0

/-- Replaces a field of a register. -/
def setF (s : State) (f : Fld) (v : Nat) : State :=
  setRegWord s f.addr (putBits (regWord s f.addr) f.hi f.lo v)

/-- Width of a field. -/
def Fld.width (f : Fld) : Nat := f.hi + 1 - f.lo

/-- Adds to a saturating count field. -/
def countF (s : State) (f : Fld) (n : Nat) : State := setF s f (satAdd f.width (getF s f) n)

/-- Adds to a wrapping count field. -/
def countWrapF (s : State) (f : Fld) (n : Nat) : State := setF s f (getF s f + n)

/-- Sets bits of a field. -/
def orF (s : State) (f : Fld) (bits : Nat) : State := setF s f (getF s f ||| bits)

/-- Counts one reserved write in HS_RSVWR, with its sticky mark (R14 to R16). -/
def countReserved (s : State) : State :=
  let s := countF s HS_RSVWR_COUNT 1
  if getF s HS_RSVWR_COUNT = 0xFFFFFF then setF s HS_RSVWR_SAT 1 else s

/-- Whether a field accepts a value (R14). -/
def allowed (v : Variant) (a : Allow) (x : Nat) : Bool :=
  match a with
  | .any => true
  | .range lo hi => lo ≤ x && x ≤ hi
  | .nonzero => x != 0
  | .audioSel => x ≤ 4 || (8 ≤ x && x ≤ 0x11) || x = 0x18
  | .bondedPad => padBonded v x

/-- One field's part in a write: the word so far and whether a reserved value was counted. -/
def writeField (v : Variant) (old new : Word) (acc : Word × Bool) (f : FieldSpec) : Word × Bool :=
  let x := bitsOf new f.hi f.lo
  let y := bitsOf old f.hi f.lo
  match f.access with
  | .rw | .rwl => if allowed v f.allow x then (putBits acc.1 f.hi f.lo x, acc.2) else (acc.1, true)
  | .ro | .wo => acc
  | .w1c => (putBits acc.1 f.hi f.lo (y &&& (2 ^ (f.hi + 1 - f.lo) - 1 - x)), acc.2)
  | .w1s => (putBits acc.1 f.hi f.lo (y ||| x), acc.2)

/-- The bits of a register that some field names. -/
def namedBits (fs : List FieldSpec) : Word := fs.foldl (fun w f => w ||| fieldMask f.hi f.lo) 0

/-- A write by access code: the new word, and whether HS_RSVWR counts the write (R12 to R14). -/
def writeWord (v : Variant) (fs : List FieldSpec) (old new : Word) : Word × Bool :=
  let r := fs.foldl (writeField v old new) (old, false)
  (r.1, r.2 || (new &&& ~~~ namedBits fs) != 0)

/-- Whether a register has a field that a commit applies, so that writing it is a scene write (R176). -/
def isSceneRegister (r : RegSpec) : Bool := r.fields.any fun f => f.access == .rwl

/-- The file key of a register for an agent: its own copy where the register is kept per core or per source. -/
def regKey (r : RegSpec) (core src a : Nat) : Nat :=
  match r.copies with
  | .one => a
  | .core => coreKey core a
  | .source => sourceKey src a

/-- The fields' part of a register write: absent registers ignore it (R6). -/
def writeFields (s : State) (r : RegSpec) (idx : List Nat) (key : Nat) (w : Word) : State :=
  if registerPresent s.variant r idx then
    let res := writeWord s.variant r.fields (regWord s key) w
    let s := setRegWord s key res.1
    if res.2 then countReserved s else s
  else s

/-- A register set to its reset value. -/
def resetReg (s : State) (key : Nat) : State := { s with regs := serase s.regs key }

/-- Address ranges of the scan die's registers (R30, R310). -/
def isScanAddr (a : Nat) : Bool := 0x200000 ≤ a % 0x1000000

end Sys2Proof.Machine
end

