-- ==== Sys2Proof/Machine/Ops.lean ====
section
/-! DEFINITION. The operations that every block shares: interrupt edges, recorder causes, DRAM with its check bits, free
values, and whether the bridge and the beam let something happen. -/

namespace Sys2Proof.Machine

/-- Bridge state codes of HS_BRSTAT.STATE (R54). -/
abbrev brDown : Nat := 0
abbrev brTraining : Nat := 1
abbrev brUp8 : Nat := 2
abbrev brUp4 : Nat := 3
abbrev brRetraining : Nat := 4

/-- The bridge's state (R54). -/
def bridgeState (s : State) : Nat := getF s HS_BRSTAT_STATE

/-- DOWN or TRAINING: for traffic the two are one (R51). -/
def bridgeDown (s : State) : Bool := bridgeState s = brDown || bridgeState s = brTraining

/-- UP8 or UP4. -/
def bridgeUp (s : State) : Bool := bridgeState s = brUp8 || bridgeState s = brUp4

/-- Takes the next free value's number. -/
def takeFresh (s : State) : Nat × State := (s.fresh, { s with fresh := s.fresh + 1 })

/-- Event bits of the sources from 72 up: dresser, weave, twin, audio and wake ranges. -/
def moreSourceBits : Nat → List Fld
  | 72 => [HS_ODSTAT_DONEEV]
  | 73 => [HS_ODSTAT_FWEV]
  | 74 => [HS_ODSTAT_STOREEV]
  | 75 => [HS_ODSTAT_BUSOFFEV]
  | 87 => [WV_STAT_POSEV, WV_STAT_CONFEV, WV_STAT_GEOEV, WV_STAT_GEOREFEV]
  | 89 => [WV_STAT_FULLEV, WV_STAT_LOSSEV]
  | 90 => [WV_TWSTAT_TAKEOVEREV, WV_TWSTAT_SILENTEV, WV_TWSTAT_DIVEV, WV_TWSTAT_CHKEV, WV_TWSTAT_CMDREFEV]
  | 160 => [AU_STAT_VENDEV]
  | 161 => [AU_STAT_EVFULL, AU_STAT_EVLATEEV, AU_STAT_BADEVEV]
  | 162 => [AU_STAT_UNDEREV]
  | 163 => [AU_STAT_UNLOCKEV, AU_STAT_CLKEV]
  | 164 => [AU_STAT_STARVEEV]
  | 208 => [SEC_STAT_ALMEV, SEC_STAT_DBGEV]
  | 209 => [HS_PWRSTAT_WAKEEV, HS_PWRSTAT_REFEV]
  | n =>
    if 80 ≤ n && n ≤ 86 then
      [WV_PORTSTAT_UPEV (n - 80), WV_PORTSTAT_DOWNEV (n - 80), WV_PORTSTAT_FENCEEV (n - 80), WV_PORTSTAT_VIDOVEV (n - 80)]
    else []

/-- The event bits of each bit source of the HIC (R356 and the chapters that own the blocks). -/
def sourceBits : Nat → List Fld
  | 40 => [HS_BRSTAT_DOWNEV, HS_BRSTAT_NARROWED, HS_BRSTAT_RETRAINED]
  | 41 => [HS_CORESTAT_LOCKEV]
  | 48 => [SC_BEAMSTAT_LOCKEV, SC_BEAMSTAT_HOLDEV, SC_BEAMSTAT_FREEEV, SC_BEAMSTAT_STEPEV]
  | 53 => [SC_CMEV_ACCEV]
  | 54 => [SC_CMEV_REFEV]
  | 55 => [SC_FENCESTAT_RETEV]
  | 56 => [SC_GUARDSTAT_VIOLEV]
  | 57 => [SC_EGSTAT_ACTEV]
  | 58 => [SC_TRSTAT_WALKLATE, SC_TRSTAT_IMMFULL, SC_TRSTAT_ECCEV]
  | 59 => [SC_PGSTAT_FAILEV]
  | 60 => [SC_CALSTAT_LATEEV]
  | 61 => [SC_OWNSTAT_DUALEV, SC_OWNSTAT_TIEEV, SC_OWNSTAT_TAKEEV, SC_TWREL_FAULTEV]
  | 62 => [SC_FEEDSTAT_LATEEV]
  | 63 => [CPY_STAT_DONEEV, CPY_STAT_WMEV, CPY_STAT_ERREV]
  | 64 => [SC_OBJSTAT_BADEV]
  | 65 => [SC_ECCSTAT_UEEV, SC_ECCSTAT_CEEV, SC_ECCSTAT_CONCEV, SC_ECCSTAT_FATALEV]
  | 66 => [HS_MEMSTAT_UEEV, HS_MEMSTAT_CEEV, HS_MEMSTAT_PASSEV, HS_MEMSTAT_REPEV]
  | 68 => [HS_RECSTAT_RECEV]
  | 69 => [HS_RECSTAT_PINEV]
  | 70 => [HS_RECSTAT_DROPEV]
  | 71 => [HS_RECSTAT_STOREEV]
  | n => moreSourceBits n

/-- OR of a bit source's event bits. -/
def sourceLevel (s : State) (n : Nat) : Bool := (sourceBits n).any fun f => flag s f

/-- Sources whose block is on the scan die (R356). -/
def isScanSource (n : Nat) : Bool := 48 ≤ n && n ≤ 65

/-! ### Flits -/

/-- Bridge source identifiers (R40), which SC_UESRC.REQ and SC_GUARDSTAT.WRITER name too (R198, R398). -/
def srcId : Src → Nat
  | .core n => n.val
  | .dresser => 0x04
  | .hutch => 0x05
  | .scene _ => 0x06
  | .video => 0x07
  | .beam => 0x08
  | .events => 0x10
  | .dma n => 0x20 + n.val

/-- The source of a message. -/
def msgSource : Msg → Option Src
  | .regWrite src _ _ | .regBits src _ _ _ | .dramWrite src _ _ | .immPut src .. | .immClear src | .commit src ..
  | .readRequest src _ _ | .readResponse src .. => some src
  | .fault _ => some .dresser
  | .key .. => some .hutch
  | .beacon _ => some .beam
  | .edge _ | .record _ | .result _ | .binding .. => none

/-- The identifier of a message's bridge source (R40). All scene queues are the one source 0x06; events have 0x10. -/
def msgLink (m : Msg) : Nat :=
  match msgSource m with
  | some src => srcId src
  | none => 0x10

/-- The class of a message (R38). -/
def msgClass : Msg → MsgClass
  | .commit .. => .commit
  | .readRequest .. | .readResponse .. => .read
  | _ => .posted

/-- The number under which Config knows a class. -/
def MsgClass.number : MsgClass → Nat
  | .posted => 0
  | .commit => 1
  | .read => 2

/-- Data bytes of a message (R38). -/
def msgData : Msg → Nat
  | .dramWrite _ _ bs => bs.length
  | .readResponse _ _ bs _ => bs.length
  | .key .. => 33
  | .beacon _ => 32
  | .result r => r.payload.length
  | _ => 4

/-- A message cut into pieces of at most 60 bytes (R37). -/
def piecesOf (m : Msg) : List MsgPart :=
  let n := msgData m + Config.messageHeader (msgClass m).number + 1
  let k := (n + 59) / 60
  (List.range k).map fun i => { msg := m, size := if i + 1 = k then n - 60 * i else 60, last := i + 1 = k }

/-- Credits left per class (R39). -/
structure Credits where
  posted : Nat
  commit : Nat
  read : Nat
deriving DecidableEq, Repr

/-- Credits of a class. -/
def Credits.of (c : Credits) : MsgClass → Nat
  | .posted => c.posted
  | .commit => c.commit
  | .read => c.read

/-- One credit of a class used. -/
def Credits.use (c : Credits) : MsgClass → Credits
  | .posted => { c with posted := c.posted - 1 }
  | .commit => { c with commit := c.commit - 1 }
  | .read => { c with read := c.read - 1 }

/-- The messages that end in the flits of a list. -/
def endingIn (l : List Flit) : List Msg := l.flatMap fun f => (f.parts.filter (·.last)).map (·.msg)

/-- The flits that the receiver has not accepted. -/
def BridgeDir.flying (d : BridgeDir) : List Flit := d.replay.dropWhile fun f => f.seq != d.expect

/-- Credits that a sender has: the receive buffers of each class that no message fills or is on its way to (R39). -/
def BridgeDir.credits (d : BridgeDir) (direction : Nat) : Credits :=
  let used := fun c => ((endingIn d.flying ++ d.arrived).filter fun m => msgClass m = c).length
  let left := fun c : MsgClass => Config.bridgeBuffers direction c.number + 1 - used c
  { posted := left .posted, commit := left .commit, read := left .read }

/-- The pieces that fill a flit with `room` bytes left, and the rest: in order, but past pieces whose class has no credit, of
which none of the same class or source goes (R39, R41 to R43). -/
def packFlit : (room : Nat) → Credits → (before : List MsgPart) → List MsgPart → List MsgPart × List MsgPart
  | _, _, before, [] => ([], before.reverse)
  | room, c, before, p :: ps =>
    if room < p.size then ([], before.reverse ++ p :: ps)
    else if c.of (msgClass p.msg) = 0 ||
        before.any fun q => msgClass q.msg = msgClass p.msg || msgLink q.msg = msgLink p.msg then
      packFlit room c (p :: before) ps
    else
      let r := packFlit (room - p.size) (if p.last then c.use (msgClass p.msg) else c) before ps
      (p :: r.1, r.2)

/-- Forms flits from what waits while the replay buffer holds fewer than 512 and there are credits; `fuel` bounds their number
(R47, R48). `back` is the number expected of the other direction. -/
def BridgeDir.drain (direction : Nat) (back : BitVec 10) : Nat → BridgeDir → BridgeDir
  | 0, d => d
  | fuel + 1, d =>
    if 512 ≤ d.replay.length then d
    else
      match packFlit 60 (d.credits direction) [] d.waiting with
      | ([], _) => d
      | (ps, left) =>
        let f : Flit := { seq := d.nextSeq, code := Config.linkCode d.nextSeq back,
                          crc := Config.linkCrc d.nextSeq (ps.map (·.size)), parts := ps }
        BridgeDir.drain direction back fuel
          { d with waiting := left, replay := d.replay ++ [f], nextSeq := d.nextSeq + 1 }

/-- What waits for the scan die leaves as far as it can; nothing does while the bridge is not UP (R48, R51). -/
def drainToScan (s : State) : State :=
  if bridgeUp s then
    { s with bridge := { s.bridge with
        toScan := s.bridge.toScan.drain 0 s.bridge.toHouse.expect s.bridge.toScan.waiting.length } }
  else s

/-- The same towards the house die. -/
def drainToHouse (s : State) : State :=
  if bridgeUp s then
    { s with bridge := { s.bridge with
        toHouse := s.bridge.toHouse.drain 1 s.bridge.toScan.expect s.bridge.toHouse.waiting.length } }
  else s

/-- A message leaves the house die. -/
def sendToScan (s : State) (m : Msg) : State :=
  drainToScan { s with bridge := { s.bridge with
    toScan := { s.bridge.toScan with waiting := s.bridge.toScan.waiting ++ piecesOf m } } }

/-- A message leaves the scan die. -/
def sendToHouse (s : State) (m : Msg) : State :=
  drainToHouse { s with bridge := { s.bridge with
    toHouse := { s.bridge.toHouse with waiting := s.bridge.toHouse.waiting ++ piecesOf m } } }

/-- A source has a message that the bridge has not taken: it is stalled at its credits, or by a retraining (R48, R51, R52). -/
def stalledAtBridge (s : State) (src : Src) : Bool := s.bridge.toScan.waiting.any fun p => msgLink p.msg = srcId src

/-! ### Edges -/

/-- Codes of HS_PWRCTL.REQ and HS_PWRSTAT.STATE (R543). -/
abbrev pwRun : Nat := 0
abbrev pwDark : Nat := 1
abbrev pwHibernate : Nat := 2
abbrev pwOffAwait : Nat := 3

/-- A power transition starts (R535). -/
def startTransition (s : State) (r : Nat) : State :=
  let s := setF (setF s HS_PWRCTL_REQ r) HS_PWRSTAT_BUSY 1
  { s with power := { s.power with target := some r } }

/-- A wake that ends HIBERNATE: the exit to RUN begins, its source in LASTWAKE (R538). -/
def wakeFromHibernate (s : State) (w : Nat) : State := startTransition (setF s HS_PWRSTAT_LASTWAKE w) pwRun

/-- Whether an edge on a wake source ends the state: its HIC_WAKEEN bit, or for source 5 INEN at entry (R538). -/
def wakes (s : State) (w : Nat) : Bool := bitAt (getF s HIC_WAKEEN_EN) w || (w = 5 && s.power.inenAtEntry)

/-- An edge on a wake source ends HIBERNATE at once, or after an entry in progress; in OFF-AWAIT its source is noted, and the
command that brought it ends the state (R538, R541). -/
def noteWake (s : State) (w : Nat) : State :=
  let noted := if s.power.wakePending.isNone then { s with power := { s.power with wakePending := some w } } else s
  if s.power.supply != .running then s
  else if s.power.offAwait then if wakes s w then noted else s
  else
    match s.power.target with
    | some r =>
      if (r = pwHibernate || r = pwOffAwait) && (wakes s w || (w = 5 && flag s SC_EGCTL_INEN)) then noted else s
    | none => if getF s HS_PWRSTAT_STATE = pwHibernate && wakes s w then wakeFromHibernate s w else s

/-- With the house clocks stopped an enabled wake latch catches the edge of a wake source (R364). -/
def latchWake (s : State) (w : Nat) : State :=
  if bitAt (getF s HIC_WAKEEN_EN) w then orF s HIC_WAKELAT_LAT (2 ^ w) else s

/-- One edge on a source. An edge of the scan die travels as a PW; while the bridge is DOWN it is held (R358). An edge of a wake
source is caught by its latch while the house clocks are stopped, and can end a power state (R364, R538). -/
def pulse (s : State) (n : Nat) : State :=
  if isScanSource n then
    if bridgeDown s then { s with hic := { s.hic with scanHeld := s.hic.scanHeld ++ [n] } }
    else sendToHouse s (.edge n)
  else if 192 ≤ n && n ≤ 223 then
    noteWake (if s.hic.clocksStopped then latchWake s (n - 192) else { s with hic := { s.hic with edges := s.hic.edges ++ [n] } }) (n - 192)
  else { s with hic := { s.hic with edges := s.hic.edges ++ [n] } }

/-- Sets event bits of a bit source: an edge where the OR of its bits goes from 0 to 1 (R357). -/
def raiseBits (s : State) (n : Nat) (f : Fld) (bits : Nat) : State :=
  let was := sourceLevel s n
  let s := orF s f bits
  if !was && sourceLevel s n then pulse s n else s

/-- Sets one event bit of a bit source. -/
def raiseEvent (s : State) (n : Nat) (f : Fld) : State := raiseBits s n f 1

/-- TIME of a record as it enters the queue, and whether it has the calendar form (R571). -/
def recordTime (s : State) : Bool × Nat :=
  if flag s HS_RECCTL_TMODE && flag s HS_RECSTAT_CALV then
    (true, s.recorder.calSec % 2 ^ 32 + (s.recorder.calTicks / 40) * 2 ^ 32)
  else
    (false, s.recorder.opsec % 2 ^ 32 + s.recorder.pcyc % 2 ^ 24 * 2 ^ 32
      + s.recorder.opTicks * 256 / 40000000 * 2 ^ 56)

/-- Puts a record at the end of the recorder queue. -/
def pushRecord (s : State) (r : Rec) : State :=
  { s with recorder := { s.recorder with queue := s.recorder.queue ++ [r] } }

/-- Whether an ordinary record finds a token and an entry outside the 8 that ALARM and FATAL have reserved (R579). -/
def ordinaryFits (s : State) : Bool := 0 < s.recorder.tokens && s.recorder.queue.length < 56

/-- Uses one token. -/
def useToken (s : State) : State := { s with recorder := { s.recorder with tokens := s.recorder.tokens - 1 } }

/-- After a drop, the record of code 0x0003 enters as soon as a token and an entry are free (R579). -/
def flushDrops (s : State) : State :=
  if s.recorder.dropped != 0 && ordinaryFits s then
    let t := recordTime s
    let r : Rec := { cls := .warn, code := 0x0003, tform := t.1, held := false, overpin := false, time := t.2,
                     p0 := BitVec.ofNat 32 s.recorder.dropped, p1 := 0, p2 := 0, p3 := 0 }
    let s := useToken (pushRecord s r)
    { s with recorder := { s.recorder with dropped := 0 } }
  else s

/-- A record dropped: counted, and DROPEV; its record of code 0x0003 enters at once where there is room (R579). -/
def dropRecord (s : State) : State :=
  let s := countF s HS_RECCNT_DROPPED 1
  let s := raiseEvent s 70 HS_RECSTAT_DROPEV
  flushDrops { s with recorder := { s.recorder with dropped := s.recorder.dropped + 1 } }

/-- The limit kept for a code and cause. -/
def findLimit (s : State) (code cause : Nat) : Option CauseLimit :=
  s.recorder.limits.find? fun l => l.code = code && l.cause = cause

/-- Replaces the limit kept for a code and cause. -/
def putLimit (s : State) (l : CauseLimit) : State :=
  { s with recorder := { s.recorder with
      limits := l :: s.recorder.limits.filter fun x => !(x.code = l.code && x.cause = l.cause) } }

/-- A record of class ALARM or FATAL: no token, one a second for each cause; an ALARM beyond it is folded into the next, a
FATAL is dropped (R579). -/
def enqueueLimited (s : State) (r : Rec) (cause : Nat) : State :=
  let lim := findLimit s r.code cause
  let folded := (lim.map (·.folded)).getD 0
  match lim with
  | some l =>
    if s.now < l.last + 40000000 then
      if r.cls = .alarm then putLimit s { l with folded := l.folded + 1 } else dropRecord s
    else send s r folded
  | none => send s r folded
where
  /-- The record enters, or is dropped where all 64 entries are full. -/
  send (s : State) (r : Rec) (folded : Nat) : State :=
    if s.recorder.queue.length < 64 then
      let r := if r.cls = .alarm then { r with p3 := BitVec.ofNat 32 folded } else r
      putLimit (pushRecord s r) { code := r.code, cause := cause, last := s.now, folded := 0 }
    else dropRecord s

/-- A cause enters the recorder queue, stamped and rate-limited (R578, R579). -/
def enqueueRecord (s : State) (r : Rec) (cause : Nat) : State :=
  let t := recordTime s
  let r := { r with tform := t.1, time := t.2 }
  if r.cls = .alarm || r.cls = .fatal then enqueueLimited s r cause
  else
    let s := flushDrops s
    if s.recorder.dropped = 0 && ordinaryFits s then useToken (pushRecord s r) else dropRecord s

/-- A record of a house-die or island cause. -/
def record (s : State) (cls : RecClass) (code : Nat) (p0 p1 p2 p3 : Nat) (cause : Nat := 0) : State :=
  enqueueRecord s { cls, code, tform := false, held := false, overpin := false, time := 0, p0 := BitVec.ofNat 32 p0,
                    p1 := BitVec.ofNat 32 p1, p2 := BitVec.ofNat 32 p2, p3 := BitVec.ofNat 32 p3 } cause

/-- A record of a scan-die cause: its event crosses the bridge; while that is DOWN it is held, and then marked HELD
(R578). -/
def recordScan (s : State) (cls : RecClass) (code : Nat) (p0 p1 p2 p3 : Nat) : State :=
  let r : Rec := { cls, code, tform := false, held := bridgeDown s, overpin := false, time := 0, p0 := BitVec.ofNat 32 p0,
                   p1 := BitVec.ofNat 32 p1, p2 := BitVec.ofNat 32 p2, p3 := BitVec.ofNat 32 p3 }
  if bridgeDown s then { s with recorder := { s.recorder with scanHeld := s.recorder.scanHeld ++ [r] } }
  else sendToHouse s (.record r)

/-- Adds to performance counter `n` where it runs on the event; a wrap sets OVF (R587). -/
def perfAdd (s : State) (event k n : Nat) : State :=
  if flag s (SC_PERFSEL_EN n) && getF s (SC_PERFSEL_EVENT n) = event then
    let c := (s.perf.toList.getD n 0).toNat + k
    let s := if 2 ^ 48 ≤ c then setF s (SC_PERFSEL_OVF n) 1 else s
    { s with perf := s.perf.setIfInBounds n (BitVec.ofNat 48 c) }
  else s

/-- Occurrences of a performance event (R587). -/
def perfCount (s : State) (event k : Nat) : State := (List.range 4).foldl (fun s n => perfAdd s event k n) s

/-! ### DRAM -/

/-- Last byte address of DRAM that a requester can reach (R102). -/
abbrev dramTop : Nat := 0xF7FFFFFF

/-- State of the 64-byte unit numbered `u`. -/
def unitState (s : State) (u : Nat) : UnitState := sget s.dram.units .unwritten u

/-- The unit numbered `u` lies beyond what requesters reach (R102). -/
def unitClosed (u : Nat) : Bool := decide (dramTop / 64 < u)

/-- A read of the unit is uncorrectable (R381, R390). A closed unit is not read at all (R102). -/
def unitBad (s : State) (u : Nat) : Bool :=
  !unitClosed u && match unitState s u with
  | .bad | .poison => true
  | .unwritten => Config.dramUnwrittenFails u
  | .good | .single => false

/-- A byte that a reader is delivered: as the array holds it, arbitrary in a never-written unit (R390), and a free value where
DRAM is closed to every requester or has no such address (R102; DESIGN CHOICE, log entry 60). -/
def dramByte (s : State) (a : Nat) : Byte :=
  if unitClosed (a / 64) then Config.closedByte a
  else if unitState s (a / 64) = .unwritten then Config.dramFill a else sget s.dram.bytes 0 a

/-- Bytes `a` to `a + len - 1`. -/
def dramBytes (s : State) (a len : Nat) : List Byte := (List.range len).map fun i => dramByte s (a + i)

/-- The little-endian number in bytes `a` to `a + len - 1`. -/
def dramNat (s : State) (a len : Nat) : Nat := leNat (dramBytes s a len)

/-- Units that bytes `a` to `a + len - 1` touch, lowest first. -/
def unitsOf (a len : Nat) : List Nat :=
  if len = 0 then [] else (List.range ((a + len - 1) / 64 - a / 64 + 1)).map fun i => a / 64 + i

/-- What the scan die does with an uncorrectable error: counts it, names address, macro and requester, sets UEEV, and
records it where the address differs from the last recorded one (R383). -/
def noteScanUE (s : State) (addr macroNo req : Nat) : State :=
  let s := countF s SC_ECCCNT_UE 1
  let s := setF s SC_UEADDR_ADDR addr
  let s := setF s SC_UESRC_MACRO macroNo
  let s := setF s SC_UESRC_REQ req
  let s := raiseEvent s 65 SC_ECCSTAT_UEEV
  if s.dram.lastRecorded = some addr then s
  else
    let s := { s with dram := { s.dram with lastRecorded := some addr } }
    recordScan s .fault 0x5001 addr 1 (macroNo * 65536 + req) 0

/-- An uncorrectable DRAM unit met by a requester. -/
def noteDramUE (s : State) (u req : Nat) : State := noteScanUE s (64 * u) 0xFF req

/-- A corrected error of the scan die: counted, with CEEV (R382). -/
def noteScanCE (s : State) : State := raiseEvent (countF s SC_ECCCNT_CE 1) 65 SC_ECCSTAT_CEEV

/-- One more correction at a row of a macro, and how many there are since the reset of its die (R396). A macro of the scan die
stands as 0x100 + its number. -/
def countCorrection (s : State) (m row : Nat) : State × Nat :=
  let key := m * 65536 + row % 65536
  let n := sget s.mem.corrections 0 key + 1
  ({ s with mem := { s.mem with corrections := sput s.mem.corrections 0 key n } }, n)

/-- A read of a unit of scan-die SRAM, in the state given, for a requester: a single error is corrected and counted, at its row
too, and the 16th at a row writes a repair candidate record; a double error is noted (R379, R382, R383, R396). `key` tells the
unit within its macro; its offset there is free. -/
def readScanUnit (s : State) (c : CodeState) (macroNo key req : Nat) : State :=
  let place := Config.scanPlace macroNo key
  match c with
  | .good => s
  | .single =>
    let row := Config.sramRow macroNo place
    let r := countCorrection (noteScanCE s) (0x100 + macroNo) row
    if r.2 = 16 then recordScan r.1 .info 0x5003 macroNo 0 row 0 else r.1
  | .bad => noteScanUE s place macroNo req

/-- Sets a unit's state. -/
def setUnit (s : State) (u : Nat) (x : UnitState) : State :=
  { s with dram := { s.dram with units := sput s.dram.units .unwritten u x } }

/-- Stores one byte in the array. -/
def setDramByte (s : State) (a : Nat) (b : Byte) : State :=
  { s with dram := { s.dram with bytes := sput s.dram.bytes 0 a b } }

/-- Stores bytes in the array from an address on. -/
def setDramBytes (s : State) (a : Nat) : List Byte → State
  | [] => s
  | b :: bs => setDramBytes (setDramByte s a b) (a + 1) bs

/-- What reading a unit does besides giving its bytes: a single-bit error is corrected and written back (R382), an
uncorrectable one is noted for the requester (R383). -/
def touchUnit (s : State) (u req : Nat) : State :=
  if unitClosed u then s
  else
    let s := perfCount s 0x01 1
    match unitState s u with
    | .single => noteScanCE (setUnit s u .good)
    | _ => if unitBad s u then noteDramUE s u req else s

/-- Reads every unit of an extent for a requester. -/
def touchUnits (s : State) (us : List Nat) (req : Nat) : State := us.foldl (fun s u => touchUnit s u req) s

/-- Whether some unit of an extent is uncorrectable. -/
def extentBad (s : State) (a len : Nat) : Bool := (unitsOf a len).any fun u => unitBad s u

/-- The arbitrary bytes of a never-written unit become ordinary contents. -/
def materialize (s : State) (u : Nat) : State :=
  setDramBytes s (64 * u) ((List.range 64).map fun i => Config.dramFill (64 * u + i))

/-- Writes bytes that lie in one unit (R381): a whole unit is replaced; part of one is a read-modify-write, which over an
uncorrectable unit leaves the poison mark. -/
def writeUnit (s : State) (req a : Nat) (bs : List Byte) : State :=
  let u := a / 64
  let s := perfCount s 0x02 1
  if a % 64 = 0 && 64 ≤ bs.length then setUnit (setDramBytes s a bs) u .good
  else if unitBad s u then
    let s := noteDramUE s u req
    setUnit (setDramBytes s a bs) u .poison
  else
    let s := if unitState s u = .unwritten then materialize s u else touchUnit s u req
    setUnit (setDramBytes s a bs) u .good

/-- Writes bytes to DRAM, unit by unit; `fuel` bounds the number of units. -/
def writeExtentFuel (s : State) (req : Nat) : Nat → Nat → List Byte → State
  | 0, _, _ => s
  | fuel + 1, a, bs =>
    if bs.isEmpty then s
    else
      let n := 64 - a % 64
      writeExtentFuel (writeUnit s req a (bs.take n)) req fuel (a + n) (bs.drop n)

/-- Writes bytes to DRAM. -/
def writeExtent (s : State) (req a : Nat) (bs : List Byte) : State :=
  writeExtentFuel s req (bs.length / 64 + 2) a bs

/-! ### The security state -/

/-- The security state as composition sees it: a clear leaves the state it cleared to the frame under composition (R525,
R526). -/
def shownSecurity (s : State) : Nat := max (getF s SEC_STAT_STATE) s.comp.secHeld

/-- GUARD or SEAL: video layers draw opaque black (R525). -/
def videoBlack (s : State) : Bool := shownSecurity s != 0

/-- SEAL: all but the egress rectangle is opaque black, and scene and video queues are discarded (R525). -/
def sealed (s : State) : Bool := shownSecurity s = 2

/-! ### Streams, feeds and regions in use -/

/-- Regions in use: ceil(W / 256) of those present; none without an area (R27). -/
def regionsInUse (s : State) : Nat :=
  match s.area with
  | none => 0
  | some a => min (ceilDiv a.w 256) (regionCount s.variant)

/-- Columns of the module raster in band `k`: min(256, W - 256 k) (R185). -/
def bandWidth (s : State) (k : Nat) : Nat :=
  match s.area with
  | none => 0
  | some a => min 256 (a.w - 256 * k)

/-- Beam state codes of SC_BEAMSTAT.STATE (R97). -/
abbrev bmOff : Nat := 0
abbrev bmAcquire : Nat := 1
abbrev bmLocked : Nat := 2
abbrev bmHoldover : Nat := 3
abbrev bmFree : Nat := 4

/-- The beam's state. -/
def beamState (s : State) : Nat := getF s SC_BEAMSTAT_STATE

/-- LOCKED, HOLDOVER or FREE. -/
def beamRuns (s : State) : Bool := beamState s = bmLocked || beamState s = bmHoldover || beamState s = bmFree

end Sys2Proof.Machine
end

