-- ==== Sys2Proof/Machine/BeamPos.lean ====
section
/-! DEFINITION. Beam positions and times: the counter, the lead, and the deadline of a commit (R57, R58, R82 to R88). -/

namespace Sys2Proof.Machine

/-- AL, the active wall lines (R95). -/
def activeLines (s : State) : Nat := getF s SC_BEAMFMT_ACTIVE + 1

/-- B, the blanking lines (R95). -/
def blankLines (s : State) : Nat := getF s SC_BEAMFMT_BLANK

/-- TL = AL + B (R57). -/
def frameLines (s : State) : Nat := activeLines s + blankLines s

/-- SC_BEAMPER as a number: Tf in 1/256 of a TCXO period (R95). -/
def framePeriod (s : State) : Nat := (regWord s SC_BEAMPER).toNat

/-- Fractions in a frame. -/
def frameFracs (s : State) : Nat := frameLines s * 256

/-- Fractions from the start of the frame to the counter. -/
def beamFracs (s : State) : Nat := s.beam.line * 256 + s.beam.frac

/-- BEAMPOS of a position (R57). -/
def posWord (frame : Word) (line frac : Nat) : BitVec 64 :=
  BitVec.ofNat 64 (frame.toNat * 2 ^ 32 + line % 65536 * 2 ^ 16 + frac % 256 * 2 ^ 8)

/-- BEAMPOS of the counter. -/
def beamPos (s : State) : BitVec 64 := posWord s.beam.frame s.beam.line s.beam.frac

/-- `a - b` for frame counts, as the nearest signed difference (R57 wraps). -/
def frameDiff (a b : Word) : Int := (a - b).toInt

/-- Fractions from the counter to a position `(frame, fracs)`, where `fracs` may lie outside one frame. -/
def fracsTo (s : State) (frame : Word) (fracs : Int) : Int :=
  frameDiff frame s.beam.frame * frameFracs s + fracs - beamFracs s

/-- The beam is at or past a position. -/
def beamReached (s : State) (frame : Word) (fracs : Int) : Bool := fracsTo s frame fracs ≤ 0

/-- A count of fractions from the start of frame `frame`, as a frame, line and fraction. -/
def normalize (s : State) (frame : Word) (fracs : Int) : Word × Nat × Nat :=
  let n := frameFracs s
  let f := fracs % n
  (frame + BitVec.ofInt 32 (fracs / n), (f / 256).toNat, (f % 256).toNat)

/-- The counter has passed the start of a later frame, whose effects FRAME_START still brings: no watermark has fired in it
(R57, R93). -/
def Beam.carry (b : Beam) : Beam := { b with begun := false, fired := Vector.replicate 4 false }

/-- The counter moved on to a position that it has not reached; a position already passed leaves it (log entry 13). -/
def beamAdvanceTo (s : State) (frame : Word) (fracs : Int) : State :=
  if beamReached s frame fracs then s
  else
    let p := normalize s frame fracs
    let b := { s.beam with frame := p.1, line := p.2.1, frac := p.2.2, rem := 0, sub := 0 }
    { s with beam := if p.1 = s.beam.frame then b else b.carry }

/-- Time from the start of the frame to the counter, in 1/64 ns: one TCXO period is 1,600 of them. -/
def beamTime (s : State) : Int :=
  ((beamFracs s * framePeriod s + s.beam.rem) * 25 / (1024 * frameLines s) : Nat)

/-- Tf in 1/64 ns. -/
def frameTime (s : State) : Nat := framePeriod s * 25 / 4

/-- The counter in 1/SC_BEAMPER of a fraction, from the start of its frame. -/
def beamUnits (s : State) : Nat := beamFracs s * framePeriod s + s.beam.rem

/-- The counter moved by 1/SC_BEAMPER of a fraction, `n` of them; it stands still while SC_BEAMPER is 0 (log entry 12). The frame
count follows a move over line index 0, whose FRAME_START then only brings its effects (R57). -/
def beamMove (s : State) (n : Int) : State :=
  let per := framePeriod s
  if per = 0 then s
  else
    let whole : Int := frameFracs s * per
    let u : Int := beamUnits s + n
    let inFrame := (u % whole).toNat
    let b := { s.beam with
        frame := s.beam.frame + BitVec.ofInt 32 (u / whole), line := inFrame / per / 256,
        frac := inFrame / per % 256, rem := inFrame % per }
    { s with beam := if 0 < u / whole then b.carry else if u / whole < 0 then { b with begun := true } else b }

/-- The counter moved by a time in 1/64 ns. -/
def beamShift (s : State) (d : Int) : State := beamMove s (d * (1024 * frameLines s : Nat) / 25)

/-! ### Lead -/

/-- Applied MODE is GLOBAL (R99). -/
def modeGlobal (s : State) : Bool := appFlag s SC_PRESENT_MODE

/-- LEADMIN in 1/16 µs, rounded up, for a mode (R83). Times in 1/(768 TL) ns: Tp = 2,000 ns, Tc = 800/3 ns,
Tl = 25 SC_BEAMPER / (256 TL) ns. Without an area it is 0 (log entry 14). -/
def leadMinFor (s : State) (global : Bool) : Nat :=
  match s.area with
  | none => 0
  | some a =>
    let d := 768 * frameLines s
    let tp : Int := 2000 * d
    let tc : Int := 800 * 256 * frameLines s
    let tl : Int := framePeriod s * 75
    let body : Int :=
      if global then (ceilDiv a.h 2 : Nat) * tc
      else (List.range a.h).foldl (fun m l => max m ((l / 2 + 1 : Nat) * tc - (l : Int) * tl)) 0
    ceilDiv ((tp + body).toNat * 2) (125 * d)

/-- LEADMIN for the applied mode. -/
def leadMin (s : State) : Nat := leadMinFor s (modeGlobal s)

/-- LEADEFF = max(LEAD, LEADMIN), in 1/16 µs (R82). -/
def leadEff (s : State) : Nat := max (appF s SC_PRESENT_LEAD) (leadMin s)

/-- A time in 1/16 µs (62.5 ns) against a number of lines of time: whether it exceeds `lines` lines plus nothing else. -/
def exceedsLines (s : State) (t lines : Nat) : Bool :=
  lines * framePeriod s * 25 * 2 < t * 125 * 256 * frameLines s

/-- LEADEFF breaks a limit of R84. -/
def leadOver (s : State) : Bool :=
  match s.area with
  | none => decide (getF s SC_LEADMAX_LEADMAX < leadEff s)
  | some a =>
    decide (getF s SC_LEADMAX_LEADMAX < leadEff s) ||
      (if modeGlobal s then exceedsLines s (leadEff s) (frameLines s)
       else exceedsLines s (leadEff s) (frameLines s - (a.h - 1)))

/-! ### The commit deadline -/

/-- MARGIN as it acts: values below 160 act as 160 (R88, R99). -/
def marginEff (s : State) : Nat := max 0xA0 (getF s SC_LEADMAX_MARGIN)

/-- Fractions that a time in 1/16 µs takes, rounded up: t × 62.5 ns over Tl ÷ 256. -/
def fracsOfTime (s : State) (t : Nat) : Nat :=
  if framePeriod s = 0 then 0 else ceilDiv (t * 163840 * frameLines s) (framePeriod s)

/-- D(F) in fractions from the start of frame F, rounded down, for a mode and flip advance (R87). -/
def deadlineFracs (s : State) (global : Bool) (flipAdv : Nat) : Int :=
  -((if global then flipAdv else 0) * 256 : Nat)
    - (fracsOfTime s (getF s SC_LEADMAX_LEADMAX + marginEff s) : Nat)

/-- The full frame count that a commit's TFRAME names: nearest to the counter, modulo 65,536 (R88). -/
def targetFrame (s : State) (t : BitVec 16) : Word :=
  s.beam.frame + BitVec.ofInt 32 (t - s.beam.frame.setWidth 16).toInt

/-- D(F) has passed or is reached. A commit that changes MODE or FLIPADV is judged by the earlier of the deadlines of its
old and new values (R87); the shadows give the new ones. -/
def deadlinePassed (s : State) (frame : Word) : Bool :=
  let old := deadlineFracs s (modeGlobal s) (appF s SC_PRESENT_FLIPADV)
  let new := deadlineFracs s (flag s SC_PRESENT_MODE) (getF s SC_PRESENT_FLIPADV)
  beamReached s frame (min old new)

end Sys2Proof.Machine
end

