-- ==== Sys2Proof/Machine/Scene.lean ====
section
/-! DEFINITION. Scene memory: object entries and the sorter, the pattern caches, and a DRAM write as the controller applies
it (R102 to R142, R172, R191, R192). -/

namespace Sys2Proof.Machine

/-- Base of the object table in bytes (R138). -/
def objectBase (s : State) : Nat := getF s SC_OBJBASE_BASE * 4096

/-- COUNT of the object table (R138). -/
def objectCount (s : State) : Nat := getF s SC_OBJCTL_COUNT

/-- M in pixels (R126). -/
def captureMargin (s : State) : Nat := 16 * getF s SC_OBJCTL_MARGIN

/-- Bits per pixel of a FORMAT (R108). -/
def formatBits : Nat → Nat
  | 0 => 4
  | 1 => 8
  | 2 => 16
  | 3 => 24
  | _ => 32

/-- The object that 16 words describe (R119). -/
def objectOfWords (w : Nat → Nat) : Obj :=
  { x := signedOf 20 (w 0), y := signedOf 18 (w 1), wm1 := natBits (w 2) 8 0, hm1 := natBits (w 2) 24 16,
    plane := natBits (w 3) 1 0, format := natBits (w 3) 4 2, hflip := bitAt (w 3) 5, vflip := bitAt (w 3) 6,
    affine := bitAt (w 3) 7, pal := natBits (w 3) 16 9, psub := natBits (w 3) 20 17, pbank := natBits (w 3) 23 22,
    img := natBits (w 4) 31 6 * 64, prio := natBits (w 5) 15 0, ux := signedOf 16 (w 6),
    uy := signedOf 16 (natBits (w 6) 31 16), vx := signedOf 16 (w 7), vy := signedOf 16 (natBits (w 7) 31 16),
    voice := natBits (w 8) 7 0, vbind := bitAt (w 8) 15, bwm1 := natBits (w 9) 9 0, bhm1 := natBits (w 9) 25 16 }

/-- A rectangle of wall positions: left, top, width, height. -/
structure Box where
  left : Int
  top : Int
  width : Nat
  height : Nat
deriving DecidableEq, Repr

/-- The display box of an object (R121). -/
def Obj.box (o : Obj) : Box :=
  let w := o.wm1 + 1
  let h := o.hm1 + 1
  if !o.affine || (o.bwm1 = 0 && o.bhm1 = 0) then { left := o.x, top := o.y, width := w, height := h }
  else
    let bw := max 7 o.bwm1 + 1
    let bh := max 7 o.bhm1 + 1
    { left := o.x + (w / 2 : Nat) - (bw / 2 : Nat), top := o.y + (h / 2 : Nat) - (bh / 2 : Nat), width := bw, height := bh }

/-- Columns that a box shares with `lo` to `hi - 1`. -/
def Box.columnsIn (b : Box) (lo hi : Int) : Nat := (min (b.left + b.width) hi - max b.left lo).toNat

/-- A box covers a wall line. -/
def Box.covers (b : Box) (y : Int) : Bool := b.top ≤ y && y < b.top + b.height

/-- A box intersects the capture area (R126). -/
def inCapture (s : State) (b : Box) : Bool :=
  match s.area with
  | none => false
  | some a =>
    let m := captureMargin s
    b.columnsIn ((a.x0 : Int) - m) (a.x0 + a.w + m) != 0 &&
      decide (max b.top ((a.y0 : Int) - m) < min (b.top + b.height) (a.y0 + a.h + m))

/-- SRES and OVERFLOW follow the shadow set (R130, R139). -/
def noteShadow (s : State) : State :=
  let n := s.scene.shadow.length
  setF (setF s SC_OBJSTAT_SRES (min n 4096)) SC_OBJSTAT_OVERFLOW (b2n (decide (4096 < n)))

/-- The set that a commit would apply: the lowest 4,096 (R130). -/
def shadowObjects (s : State) : SMap Obj := s.scene.shadow.take 4096

/-- QDEPTH follows the queue (R139). -/
def noteQueue (s : State) : State := setF s SC_OBJEVQ_QDEPTH s.scene.queue.length

/-- Puts an entry into the shadow set or takes it out. -/
def putShadow (s : State) (n : Nat) (o : Option Obj) : State :=
  let m := match o with
    | some o => sinsert s.scene.shadow n o
    | none => serase s.scene.shadow n
  noteShadow { s with scene := { s.scene with shadow := m } }

/-- An entry treated as empty under R120: counted, with BADEV. -/
def badEntry (s : State) : State := raiseEvent (countF s SC_OBJEVQ_BADENT 1) 64 SC_OBJSTAT_BADEV

/-- Notes in the binding table whether entry `n` binds a voice (R474); without an audio unit none does (R137). -/
def noteBinding (s : State) (n : Nat) (o : Option Obj) : State :=
  match o with
  | some o =>
    if o.vbind && hasAudio s.variant then
      let row : Nat × Int × Int := (o.voice, o.x + ((o.wm1 + 1) / 2 : Nat), o.y + ((o.hm1 + 1) / 2 : Nat))
      { s with scene := { s.scene with binding := sinsert s.scene.binding n row } }
    else { s with scene := { s.scene with binding := serase s.scene.binding n } }
  | none => { s with scene := { s.scene with binding := serase s.scene.binding n } }

/-- Reads the whole of entry `n` and puts it into the shadow set, updates it there or takes it out (R120, R126, R127). DESIGN
CHOICE (log entry 60): what the sorter reads for an entry that lies where DRAM is closed, or past its 2³² addresses, is free. -/
def evaluateEntry (s : State) (n : Nat) : State :=
  let a := objectBase s + 64 * n
  let u := a / 64
  if unitBad s u then
    let s := touchUnit s u 0x53
    recordScan (putShadow (badEntry (noteBinding s n none)) n none) .warn 0x3003 a 0 0 0
  else
    let w := fun i => dramNat s (a + 4 * i) 4
    let s := touchUnit s u 0x53
    let o := objectOfWords w
    if !bitAt (w 3) 31 then putShadow (noteBinding s n none) n none
    else if o.wm1 < 7 || o.hm1 < 7 || 5 ≤ o.format then putShadow (badEntry (noteBinding s n none)) n none
    else putShadow (noteBinding s n (some o)) n (if inCapture s o.box then some o else none)

/-- Starts a rescan: the shadow set is emptied and every entry is to be evaluated (R131). DESIGN CHOICE (log entry 57): numbers
that wait in the queue stay there and are taken after the rescan. -/
def startRescan (s : State) : State :=
  let s := { s with scene := { s.scene with shadow := [], binding := [], rescan := some 0 } }
  setF (noteShadow s) SC_OBJSTAT_SCAN 1

/-- Entries of the object table that bytes `a` to `a + len - 1` touch (R127). -/
def entriesTouched (s : State) (a len : Nat) : List Nat :=
  let base := objectBase s
  if len = 0 || a + len ≤ base then []
  else
    let first := (max a base - base) / 64
    let last := (a + len - 1 - base) / 64
    (List.range (last + 1 - first)).filterMap fun i =>
      if first + i < objectCount s then some (first + i) else none

/-- Adds an entry number to the queue, once (R127). -/
def queueEntry (q : List SortEntry) (n : Nat) : List SortEntry :=
  if q.any fun e => e.entry = n then q else q ++ [{ entry := n, credits := [] }]

/-- The last entry of the queue among those named, which is evaluated last. -/
def lastQueued (q : List SortEntry) (ns : List Nat) : Option Nat :=
  ((q.filter fun e => ns.contains e.entry).getLast?).map (·.entry)

/-- Queues the entries that a write touches; a counted write is credited when the last of them is evaluated (R128). -/
def queueWrites (s : State) (ns : List Nat) (credit : Option Src) : State :=
  let q := ns.foldl queueEntry s.scene.queue
  let q := match credit, lastQueued q ns with
    | some src, some n => q.map fun e => if e.entry = n then { e with credits := e.credits ++ [src] } else e
    | _, _ => q
  noteQueue { s with scene := { s.scene with queue := q } }

/-- A DRAM write stalls: the sorter's queue is full, or has no room for the write's entries (R127). -/
def sorterFull (s : State) (a len : Nat) : Bool :=
  decide (1024 ≤ s.scene.queue.length) ||
    decide (1024 < ((entriesTouched s a len).foldl queueEntry s.scene.queue).length)

/-- Invalidates the lines of every pattern cache that a write touches (R106). -/
def invalidateUnits (s : State) (us : List Nat) : State :=
  let cache := s.scene.cache.map fun c => c.filter fun h => !us.contains h.unit
  let stale := Vector.zipWith
    (fun c st => (us.filter fun u => (c.any fun h => h.unit = u) && !st.contains u) ++ st) s.scene.cache s.scene.stale
  { s with scene := { s.scene with cache := cache, stale := stale } }

/-- Invalidates every line of every pattern cache (R136). -/
def invalidateAll (s : State) : State :=
  { s with scene := { s.scene with cache := Vector.replicate 8 [] } }

/-- Units that pattern cache `n` holds. -/
def cacheOf (s : State) (n : Nat) : List CacheUnit := s.scene.cache.toList.getD n []

/-- Replaces what pattern cache `n` holds. -/
def setCache (s : State) (n : Nat) (c : List CacheUnit) : State :=
  { s with scene := { s.scene with cache := s.scene.cache.setIfInBounds n c } }

/-- A unit with no single error left: each was corrected and written back. -/
def CacheUnit.corrected (h : CacheUnit) : CacheUnit := { h with code := h.code.filter fun e => e.2 != .single }

/-- Some word of a held unit is uncorrectable. -/
def CacheUnit.isBad (h : CacheUnit) : Bool := h.code.any fun e => e.2 = .bad

/-- Installs a unit in cache `n`: eight ways of a set, the least recently used replaced (R134). -/
def installUnit (s : State) (n : Nat) (h : CacheUnit) : State :=
  let c := cacheOf s n
  let sameSet := c.filter fun x => x.unit % 512 = h.unit % 512
  let c := match sameSet[7]? with
    | some old => c.filter fun x => x.unit != old.unit
    | none => c
  setCache s n (h :: c)

/-- A unit is fetched into cache `n` from DRAM. An uncorrectable one is not installed (R135, R384). -/
def fetchUnit (s : State) (n u req : Nat) : State :=
  let s := touchUnit s u req
  let st := (s.scene.stale.toList.getD n []).filter (· != u)
  let s := { s with scene := { s.scene with stale := s.scene.stale.setIfInBounds n st } }
  if unitBad s u || unitClosed u then s
  else
    let s := perfCount (countWrapF s (SC_PCSTAT_FILL n) 1) 0x03 1
    installUnit s n { unit := u, bytes := dramBytes s (64 * u) 64, code := [] }

/-- A cluster reads a unit that its cache holds, whole: it becomes the most recently used, and errors of its words are corrected
or noted (R134, R379, R382). -/
def readHeld (s : State) (n req : Nat) (h : CacheUnit) : State :=
  let s := h.code.foldl (fun s e => readScanUnit s e.2 (0x50 + n) (h.unit % 32768 * 8 + e.1) req) s
  setCache s n (h.corrected :: (cacheOf s n).filter fun x => x.unit != h.unit)

/-- The unit as cache `n` holds it. -/
def heldUnit (s : State) (n u : Nat) : Option CacheUnit := (cacheOf s n).find? fun h => h.unit = u

/-- The fetch agent of cluster `n` asks for a unit ahead of its use (R135). -/
def prefetchUnit (s : State) (n req u : Nat) : State :=
  match heldUnit s n u with
  | some h => setCache s n (h :: (cacheOf s n).filter fun x => x.unit != h.unit)
  | none => fetchUnit s n u req

/-- The fetch agent reads a unit for the trestle through cache `n`: its errors are corrected or noted, also where the cache holds it
(R210, R382, R383). -/
def agentRead (s : State) (n req u : Nat) : State :=
  match heldUnit s n u with
  | some h => readHeld s n req h
  | none => fetchUnit s n u req

/-- A layer unit of cluster `n` reads a unit: held, or fetched on demand, which counts as a refetch where a write invalidated it
after its fetch (R106, R135). -/
def cacheRead (s : State) (n req u : Nat) : State :=
  match heldUnit s n u with
  | some h => readHeld s n req h
  | none =>
    let again := (s.scene.stale.toList.getD n []).contains u
    fetchUnit (if again then countF s (SC_PCSTAT_REFETCH n) 1 else s) n u req

/-- DRAM as cluster `n` sees it through its pattern cache: the units held as they were fetched, the rest as they stand (R106). -/
def cacheView (s : State) (n : Nat) : State :=
  (cacheOf s n).foldl (fun v h => setUnit (setDramBytes v (64 * h.unit) h.bytes) h.unit (if h.isBad then .bad else .good)) s

/-- A fence is named by an enabled layer descriptor of some stream's applied set (R189). -/
def fenceInUse (s : State) (n : Nat) : Bool :=
  n != 0 && (List.range (feedCount s.variant)).any fun st => (List.range 15).any fun u =>
    appFlag s (SC_LDW0_EN st u) && appF s (SC_LDW15_FENCE st u) = n

/-- Guard window `g` is armed (R191). -/
def guardArmed (s : State) (g : Nat) : Bool :=
  flag s (SC_GUARDCTL_EN g) &&
    (getF s (SC_GUARDCTL_FENCE g) = 0 || fenceInUse s (getF s (SC_GUARDCTL_FENCE g)))

/-- The lowest armed guard window that a write lands in (R192). -/
def guardHit (s : State) (us : List Nat) : Option Nat :=
  (List.range 16).find? fun g => guardArmed s g && us.any fun u =>
    getF s (SC_GUARDBASE_BASE g) ≤ u && u ≤ getF s (SC_GUARDLIMIT_LIMIT g)

/-- A write into an armed guard window is recorded as a violation, once (R192). -/
def noteGuard (s : State) (writer a : Nat) (us : List Nat) : State :=
  match guardHit s us with
  | none => s
  | some g =>
    let s := countF s SC_GUARDSTAT_VIOL 1
    let s := setF s SC_GUARDSTAT_WRITER writer
    let s := setF s SC_GUARDSTAT_WINDOW g
    let s := setF s SC_GUARDADDR_ADDR a
    let s := raiseEvent s 56 SC_GUARDSTAT_VIOLEV
    recordScan s .warn 0x3002 a (g + writer * 16) 0 0

/-- Base of the protected egress copy; 0 where there is none (R172). -/
def egressBase (s : State) : Nat := getF s SC_EGBASE_BASE * 0x100000

/-- A byte lies in the protected egress copy (R172). -/
def inEgressCopy (s : State) (a : Nat) : Bool :=
  egressBase s != 0 && egressBase s ≤ a && a < egressBase s + 0x100000

/-- The parts of a write that lie outside the protected copy: before it and after it (R172). -/
def egressParts (s : State) (a : Nat) (bs : List Byte) : List (Nat × List Byte) :=
  let b := egressBase s
  let e := b + 0x100000
  if b = 0 then [(a, bs)]
  else
    (if a < b then [(a, bs.take (b - a))] else []) ++ (if e < a + bs.length then [(max a e, bs.drop (e - a))] else [])

/-- Who writes to DRAM: its requester code (R398), whether the guard windows watch it (R191), and whether it is the hutch's
own copy, which alone may write the protected egress copy (R172). -/
structure Writer where
  req : Nat
  guarded : Bool
  hutch : Bool
deriving DecidableEq, Repr

/-- What the DRAM controller does with one part of a write that it lets through: guard windows, pattern caches, the
array (R106, R192). -/
def applyPart (s : State) (w : Writer) (p : Nat × List Byte) : State :=
  let us := unitsOf p.1 p.2.length
  let s := if w.guarded then noteGuard s w.req p.1 us else s
  let s := invalidateUnits s us
  writeExtent s w.req p.1 p.2

/-- A write applies at the DRAM controller. A write at 0xF800_0000 or above is discarded and counted in BADADDR (R105);
bytes beyond the top of a write below it are cut (log entry 18). Bytes in the protected egress copy are discarded, and the
write is counted once in WPDROP (R172). The sorter sees the write last, with the source it is counted for (R127, R128). -/
def dramWrite (s : State) (w : Writer) (credit : Option Src) (a : Nat) (bs : List Byte) : State :=
  if dramTop < a then countF s SC_SCENECNT_BADADDR 1
  else
    let bs := bs.take (dramTop + 1 - a)
    let parts := if w.hutch then [(a, bs)] else egressParts s a bs
    let kept := (parts.map fun p => p.2.length).foldl (· + ·) 0
    let s := if kept < bs.length then countF s SC_EGSTAT_WPDROP 1 else s
    let s := parts.foldl (fun s p => applyPart s w p) s
    queueWrites s (entriesTouched s a bs.length) credit

end Sys2Proof.Machine
end

