-- ==== Sys2Proof/Machine/Descriptors.lean ====
section
/-! DEFINITION. Layer descriptors, plane headers and cursors as structures read from the shadows or the applied state
(R115, R143, R145, R162, R166). -/

namespace Sys2Proof.Machine

/-- Which copy of the RWL fields is read. -/
inductive View where
  | shadow
  | applied
deriving DecidableEq, Repr

/-- A register word in a view. -/
def viewWord (s : State) (v : View) (a : Nat) : Nat :=
  match v with
  | .shadow => (regWord s a).toNat
  | .applied => (appliedWord s a).toNat

/-- A field in a view. -/
def viewF (s : State) (v : View) (f : Fld) : Nat := natBits (viewWord s v f.addr) f.hi f.lo

/-- A layer descriptor (R145). -/
structure Desc where
  en : Bool
  kind : Nat
  blend : Nat
  order : Nat
  xfer : Nat
  prim : Bool
  pbank : Nat
  yccmat : Bool
  narrow : Bool
  calpha : Nat
  dx : Nat
  dy : Nat
  dw : Nat
  dh : Nat
  src : Nat
  sx : Int
  sy : Int
  vw : Nat
  vh : Nat
  vpitch : Nat
  vfmt : Nat
  hstep : Nat
  vstep : Nat
  hphase : Nat
  vphase : Nat
  fence : Nat
deriving DecidableEq, Repr

/-- The descriptor whose 16 words start at a house word address. Source positions of video are unsigned 14-bit values. -/
def descAt (s : State) (v : View) (a : Nat) : Desc :=
  let w := fun i => viewWord s v (a + i)
  let w0 := w 0
  let kind := natBits w0 3 1
  { en := bitAt w0 0, kind, blend := natBits w0 6 4, order := natBits w0 10 7, xfer := natBits w0 13 11,
    prim := bitAt w0 14, pbank := natBits w0 16 15, yccmat := bitAt w0 17, narrow := bitAt w0 18,
    calpha := natBits (w 1) 15 0, dx := natBits (w 2) 17 0, dy := natBits (w 3) 15 0, dw := natBits (w 4) 17 0 + 1,
    dh := natBits (w 5) 15 0 + 1, src := w 6,
    sx := if kind = 2 then (natBits (w 7) 13 0 : Nat) else signedOf 20 (w 7),
    sy := if kind = 2 then (natBits (w 8) 13 0 : Nat) else signedOf 18 (w 8),
    vw := natBits (w 9) 13 0 + 1, vh := natBits (w 9) 29 16 + 1, vpitch := w 10, vfmt := natBits (w 11) 1 0,
    hstep := if natBits (w 12) 19 0 = 0 then 0x10000 else natBits (w 12) 19 0,
    vstep := if natBits (w 13) 19 0 = 0 then 0x10000 else natBits (w 13) 19 0,
    hphase := natBits (w 14) 15 0, vphase := natBits (w 14) 31 16, fence := natBits (w 15) 7 0 }

/-- Descriptor of unit `u` in stream `st` (R143). -/
def unitDesc (s : State) (v : View) (st u : Nat) : Desc := descAt s v (SC_LDW0 st u)

/-- Sideboard member descriptor `m` (R166). -/
def memberDesc (s : State) (v : View) (m : Nat) : Desc := descAt s v (SC_SBW0 m)

/-- Unit `u` is present: video units as VLU says, graphic units always (R1, R20). -/
def unitPresent (s : State) (u : Nat) : Bool := if u < 4 then u < videoUnits s.variant else u < 15

/-- The window of a descriptor covers a wall position; it is clipped at the wall's edges (R147). -/
def Desc.covers (d : Desc) (x y : Nat) : Bool :=
  d.dx ≤ x && x < d.dx + d.dw && d.dy ≤ y && y < d.dy + d.dh && x ≤ 262143 && y ≤ 65535

/-- Enabled units of a stream that are present, lowest first. -/
def enabledUnits (s : State) (v : View) (st : Nat) : List Nat :=
  (List.range 15).filter fun u => unitPresent s u && (unitDesc s v st u).en

/-- Sideboard members: candidates whose MEMBERS bit and EN are 1 (R166). -/
def members (s : State) (v : View) : List Nat :=
  (List.range 4).filter fun m => bitAt (viewF s v SC_SBCTL_MEMBERS) m && (memberDesc s v m).en

/-- A plane header, from its 16 words (R115). -/
structure Plane where
  bitmap : Bool
  format : Nat
  cell : Nat
  wrapx : Bool
  wrapy : Bool
  trans0 : Bool
  w : Nat
  h : Nat
  base : Nat
  pitch : Nat
  patbase : Nat
  ncells : Nat
  pal : Nat
  psub : Nat
deriving DecidableEq, Repr

/-- The plane that 16 header words describe. -/
def planeOfWords (w : Nat → Nat) : Plane :=
  { bitmap := natBits (w 0) 1 0 = 1, format := natBits (w 0) 4 2, cell := 8 * 2 ^ natBits (w 0) 6 5,
    wrapx := bitAt (w 0) 7, wrapy := bitAt (w 0) 8, trans0 := bitAt (w 0) 9, w := natBits (w 1) 13 0 + 1,
    h := natBits (w 1) 29 16 + 1, base := w 2, pitch := w 3, patbase := w 4, ncells := natBits (w 5) 16 0,
    pal := natBits (w 6) 7 0, psub := natBits (w 6) 11 8 }

/-- Word `i` of a captured header. -/
def headerWord (h : Header) (i : Nat) : Nat := (h.getD i 0).toNat

/-- The plane of a captured header. -/
def planeOf (h : Header) : Plane := planeOfWords (headerWord h)

/-- A header value that fails admission with "plane header" (R108, R115). -/
def headerBad (h : Header) : Bool :=
  let w := headerWord h
  let kind := natBits (w 0) 1 0
  let tile := kind = 0
  decide (2 ≤ kind) || decide (5 ≤ natBits (w 0) 4 2) ||
    (tile && (natBits (w 0) 6 5 = 3 || decide (4095 < natBits (w 1) 13 0) || decide (4095 < natBits (w 1) 29 16) ||
      natBits (w 5) 16 0 = 0 || decide (65536 < natBits (w 5) 16 0)))

/-- FORMAT is one of the five of R108. -/
def Plane.formatKnown (p : Plane) : Bool := p.format < 5

/-- Bytes of one cell (R108). -/
def Plane.cellBytes (p : Plane) : Nat := p.cell * p.cell * formatBits p.format / 8

/-- Bytes of one row that the pitch must reach: 4 for each map cell, or one row of pixels (R104). -/
def Plane.rowBytes (p : Plane) : Nat := if p.bitmap then ceilDiv (p.w * formatBits p.format) 8 else 4 * p.w

/-- The size of the plane's rows is known: a map's always, a bitmap's where its FORMAT is one of R108. -/
def Plane.rowKnown (p : Plane) : Bool := !p.bitmap || p.formatKnown

/-- The bases and pitch of a plane meet R104, as far as its header's other values, refused or not, tell them. -/
def Plane.aligned (p : Plane) : Bool :=
  p.base % 64 = 0 && p.pitch % 64 = 0 && (!p.rowKnown || p.rowBytes ≤ p.pitch) && (p.bitmap || p.patbase % 4096 = 0)

/-- The plane's structures end within the addressable range (R105). What a refused FORMAT or CELL leaves without a size counts as
one byte. -/
def Plane.inRange (p : Plane) : Bool :=
  p.base + (p.h - 1) * p.pitch + (if p.rowKnown then p.rowBytes - 1 else 0) ≤ dramTop &&
    (p.bitmap || p.patbase + (if p.formatKnown && p.cell ≤ 32 then p.ncells * p.cellBytes - 1 else 0) ≤ dramTop)

/-- A header names structures of R104: its KIND is a tile map or a bitmap. -/
def headerKindKnown (h : Header) : Bool := natBits (headerWord h 0) 1 0 < 2

/-- The 16 words of a header in DRAM. -/
def readHeader (s : State) (a : Nat) : Header := (List.range 16).map fun i => BitVec.ofNat 32 (dramNat s (a + 4 * i) 4)

/-- A cursor entry (R162). -/
structure Cursor where
  en : Bool
  prio : Nat
  left : Int
  top : Int
  img : Nat
deriving DecidableEq, Repr

/-- Cursor `n` of stream `st`. -/
def cursorOf (s : State) (v : View) (st n : Nat) : Cursor :=
  let w0 := viewWord s v (SC_CURW0 st n)
  { en := bitAt w0 0, prio := natBits w0 4 1, img := viewWord s v (SC_CURW3 st n),
    left := signedOf 19 (viewWord s v (SC_CURW1 st n)) - (natBits w0 10 5 : Nat),
    top := signedOf 17 (viewWord s v (SC_CURW2 st n)) - (natBits w0 16 11 : Nat) }

/-- Bytes of one video row (R112). -/
def videoRowBytes (vfmt vw : Nat) : Nat := if vfmt = 0 then ceilDiv vw 6 * 16 else vw * 4

/-- Applied feeds: N = NFEED + 1 where windows are on, else one (R267, R268). -/
def feeds (s : State) (v : View) : Nat :=
  if viewF s v SC_FEEDCTL_WINEN = 1 then viewF s v SC_FEEDCTL_NFEED + 1 else 1

/-- Refresh cycles per frame. -/
def refreshes (s : State) : Nat := getF s SC_PGCFG_NREF

/-- Start of refresh cycle `j` in fractions of the frame (R236). -/
def cycleStart (s : State) (j : Nat) : Nat := j * frameFracs s / refreshes s

/-- Window of feed `f` in fractions: start and end (R265). -/
def windowOf (s : State) (v : View) (f : Nat) : Nat × Nat :=
  (viewF s v (SC_FEEDSTART_LINE f) * 256 + viewF s v (SC_FEEDSTART_FRAC f),
   viewF s v (SC_FEEDEND_LINE f) * 256 + viewF s v (SC_FEEDEND_FRAC f))

/-- Refresh cycle `j` belongs to the window of feed `f` (R265). -/
def cycleInWindow (s : State) (v : View) (f j : Nat) : Bool :=
  let w := windowOf s v f
  w.1 ≤ cycleStart s j && cycleStart s (j + 1) ≤ w.2

/-- The refresh cycles of a window, in order. -/
def windowCycles (s : State) (v : View) (f : Nat) : List Nat :=
  (List.range (refreshes s)).filter fun j => cycleInWindow s v f j

/-- MUX of SC_PGCFG. -/
def muxRows (s : State) : Nat := getF s SC_PGCFG_MUXM1 + 1

/-- Units of `readInstant` in a fraction: a unit is 2.5 ns over 256 times the fractions of a frame, in which a fraction,
Tf over its number, and a step of 2.5 ns are both whole. -/
def readUnit (s : State) : Int := (framePeriod s * 10 : Nat)

/-- Read instant of cycle `j` from the frame's start, in the units of `readUnit`: the start of the last row slot of the cycle
before, whose distance from that cycle's start, (MUX - 1) × T_row, is rounded down to a 2.5 ns step (R237, R241, R275; DEDUCED,
log entry 59). -/
def readInstant (s : State) (j : Nat) : Int :=
  let n := refreshes s
  let m := muxRows s
  let before : Int := if j = 0 then (cycleStart s (n - 1) : Int) - frameFracs s else cycleStart s (j - 1)
  before * readUnit s + (256 * frameFracs s * ((m - 1) * (framePeriod s * 10) / (256 * n * m)) : Nat)

/-- Flip position of feed `f` in fractions of the frame: FLIPADV lines before it for feed 0 (R269). -/
def flipFracs (s : State) (v : View) (f : Nat) : Int :=
  if f = 0 then -((viewF s v SC_PRESENT_FLIPADV * 256 : Nat) : Int) else (viewF s v (SC_FEEDFLIP_FLINE f) * 256 : Nat)

/-- Flip position of the pass of a feed for a frame, in fractions from that frame's start (R90, R91, R269). In ROLLING it is
the presentation start, the flip of module line 0. -/
def presentationFracs (s : State) (a : Area) (feed : Nat) : Int :=
  if modeGlobal s then flipFracs s .applied feed else (a.y0 * 256 : Nat)

/-- Where composition of a pass starts: LEADEFF before its presentation start (R82, R270). -/
def composeFracs (s : State) (a : Area) (feed : Nat) : Int := presentationFracs s a feed - (fracsOfTime s (leadEff s) : Nat)

end Sys2Proof.Machine
end

