-- ==== Sys2Proof/Machine/Admission.lean ====
section
/-! DEFINITION. The admission checks of stage 3 (R184 to R188, R275) on the shadows as they stand. -/

namespace Sys2Proof.Machine

/-- Code of a refusal reason (R184). -/
def Reason.code : Reason → Nat
  | .late => 0x01 | .incomplete => 0x02 | .tooEarly => 0x03 | .noBeam => 0x04 | .beamFree => 0x05 | .lead => 0x06
  | .bridgeDown => 0x07 | .count => 0x08 | .epochRepeat => 0x09 | .unitAbsent => 0x0A | .unitRole => 0x0B
  | .descriptor => 0x0C | .scaleRatio => 0x0D | .presentation => 0x0E | .alignment => 0x0F | .address => 0x10
  | .planeHeader => 0x11 | .objectsResident => 0x12 | .objectSpans => 0x13 | .objectPixels => 0x14
  | .lineCost => 0x15 | .sideboard => 0x16

/-- What SC_CMFAILs reports (R197). -/
structure Fail where
  region : Nat := 0
  cluster : Nat := 0
  cline : Nat := 0
  cost : Nat := 0
  unit : Nat := 0xF
deriving DecidableEq, Repr

/-- The word of SC_CMFAILs. -/
def Fail.word (f : Fail) : Nat :=
  f.region % 4 * 2 ^ 30 + f.cluster % 2 * 2 ^ 29 + f.cline % 512 * 2 ^ 20 + min f.cost 0xFFF * 256 + f.unit % 16 * 16

/-- The lowest unit of a list that fails a check. -/
def firstUnit (us : List Nat) (bad : Nat → Bool) : Option Fail := (us.find? bad).map fun u => { unit := u }

/-- The first failure of two checks on units: the lower unit number. -/
def lowerFail (a b : Option Fail) : Option Fail :=
  match a, b with
  | none, x => x
  | x, none => x
  | some x, some y => some (if x.unit ≤ y.unit then x else y)

/-- A failure that names no unit. -/
def whole (bad : Bool) : Option Fail := if bad then some {} else none

/-- The shadow descriptors that the commit would apply with EN = 1. -/
def shadowUnits (s : State) (st : Nat) : List Nat := enabledUnits s .shadow st

/-- The plane header that a descriptor names, where it is in range and readable. -/
def headerAt (s : State) (src : Nat) : Option Header :=
  if src + 63 ≤ dramTop && !extentBad s src 64 then some (readHeader s src) else none

/-- Unit absent (R9, R146, R275; STREAM ≥ FEEDS). -/
def checkAbsent (s : State) (st : Nat) : Option Fail :=
  if feedCount s.variant ≤ st then some {}
  else
    let marks := s.comp.absentMark.toList.getD st []
    lowerFail (if marks.isEmpty then none else some { unit := marks.foldl min 15 })
      (whole (decide (feedCount s.variant < getF s SC_FEEDCTL_NFEED + 1)))

/-- A kind that the unit's role does not allow; a reserved KIND is no matter of role (R146). -/
def roleBad (d : Desc) (u : Nat) : Bool := d.kind < 4 && (if u < 4 then d.kind != 2 else d.kind = 2)

/-- A graphic unit asked to scale (R21, R161). -/
def graphicScaled (d : Desc) : Bool := d.hstep != 0x10000 || d.vstep != 0x10000

/-- Unit role (R21, R146, R161). -/
def checkRole (s : State) (st : Nat) : Option Fail :=
  lowerFail (firstUnit (shadowUnits s st) fun u =>
      let d := unitDesc s .shadow st u
      roleBad d u || (4 ≤ u && graphicScaled d))
    (whole ((members s .shadow).any fun m => graphicScaled (memberDesc s .shadow m)))

/-- A field value that R145 refuses. -/
def fieldBad (d : Desc) : Bool := 4 ≤ d.kind || 4 ≤ d.blend || 4 ≤ d.xfer

/-- Descriptor (R145, R149). -/
def checkDescriptor (s : State) (st : Nat) : Option Fail :=
  let us := shadowUnits s st
  lowerFail (firstUnit us fun u =>
      let d := unitDesc s .shadow st u
      fieldBad d || us.any fun u' => u' != u && (unitDesc s .shadow st u').order = d.order)
    (whole ((members s .shadow).any fun m => fieldBad (memberDesc s .shadow m)))

/-- Scale ratio of the video units (R161). -/
def checkScale (s : State) (st : Nat) : Option Fail :=
  firstUnit ((shadowUnits s st).filter (· < 4)) fun u =>
    let d := unitDesc s .shadow st u
    let bad := fun x : Nat => x < 0x1000 || 0x40000 < x
    bad d.hstep || bad d.vstep

/-- The conditions of R275 on the windows, in the values the commit would apply. -/
def windowsOk (s : State) : Bool :=
  let n := feeds s .shadow
  let global := viewF s .shadow SC_PRESENT_MODE = 1
  let div := readUnit s
  let frame : Int := frameFracs s
  let lead : Int := fracsOfTime s (max (viewF s .shadow SC_PRESENT_LEAD) (leadMinFor s global))
  let flip := fun f => flipFracs s .shadow f
  let cycles := fun f => windowCycles s .shadow f
  let lastRead := fun f => readInstant s ((cycles f).getLast?.getD 0)
  (n = 1 || global) &&
  (List.range n).all (fun f =>
    let w := windowOf s .shadow f
    w.1 < w.2 && w.2 ≤ frameFracs s && !(cycles f).isEmpty) &&
  (List.range (n - 1)).all (fun f => (windowOf s .shadow f).2 ≤ (windowOf s .shadow (f + 1)).1) &&
  (List.range n).all (fun f =>
    (if f = 0 then n = 1 || lastRead (n - 1) - frame * div < flip 0 * div
     else lastRead (f - 1) < flip f * div) &&
    (!global || flip f * div ≤ readInstant s ((cycles f).headD 0)) &&
    (f = 0 || flip (f - 1) ≤ flip f - lead)) &&
  (n = 1 || flip (n - 1) ≤ flip 0 + frame - lead)

/-- Presentation (R91, R267, R275). -/
def checkPresentation (s : State) : Option Fail :=
  let winen := viewF s .shadow SC_FEEDCTL_WINEN = 1
  whole ((viewF s .shadow SC_PRESENT_MODE = 1 && blankLines s < viewF s .shadow SC_PRESENT_FLIPADV) ||
    (!winen && viewF s .shadow SC_FEEDCTL_NFEED != 0) || (winen && !windowsOk s))

/-- Plane units of the stream: their number and descriptor. -/
def planeUnits (s : State) (st : Nat) : List Nat :=
  (shadowUnits s st).filter fun u => 4 ≤ u && (unitDesc s .shadow st u).kind = 0

/-- Video units of the stream. -/
def videoLayers (s : State) (st : Nat) : List Nat :=
  (shadowUnits s st).filter fun u => u < 4 && (unitDesc s .shadow st u).kind = 2

/-- Members of KIND plane. -/
def planeMembers (s : State) : List Nat := (members s .shadow).filter fun m => (memberDesc s .shadow m).kind = 0

/-- A plane header, or what it names, breaks R104. A header that admission refuses for other values is judged too, since every
check is made (R184). -/
def planeMisaligned (s : State) (src : Nat) : Bool :=
  src % 64 != 0 || match headerAt s src with
    | none => false
    | some h => headerKindKnown h && !(planeOf h).aligned

/-- Alignment (R104, R162). -/
def checkAlignment (s : State) (st : Nat) : Option Fail :=
  lowerFail (lowerFail
      (firstUnit (planeUnits s st) fun u => planeMisaligned s (unitDesc s .shadow st u).src)
      (firstUnit (videoLayers s st) fun u =>
        let d := unitDesc s .shadow st u
        d.src % 4096 != 0 || d.vpitch % 64 != 0))
    (whole ((planeMembers s).any (fun m => planeMisaligned s (memberDesc s .shadow m).src) ||
      (List.range 8).any fun n => (cursorOf s .shadow st n).img % 64 != 0))

/-- A plane header, what it names, or the palette bank that its layer selects, reaches beyond the range (R105). -/
def planeOutOfRange (s : State) (d : Desc) : Bool :=
  dramTop < d.src + 63 || dramTop < getF s (SC_PALBANK_BASE d.pbank) * 0x80000 + 0x7FFFF ||
    match headerAt s d.src with
    | none => false
    | some h => headerKindKnown h && !(planeOf h).inRange

/-- A calibration table of a region in use, for the commit's stream or another that will compose, reaches beyond the range: the
commit applies them all (R105, R181, R231). -/
def calibrationOutOfRange (s : State) (st : Nat) : Bool :=
  match s.area with
  | none => false
  | some a => flag s SC_CALCTL_EN && (List.range (regionsInUse s)).any fun k =>
      let pitch := getF s (SC_CALPITCH_PITCH k) * 64
      pitch != 0 && (st :: List.range (feeds s .shadow)).any fun x =>
        decide (dramTop < getF s (SC_CALBASE_BASE k x) * 4096 + a.h * pitch - 1)

/-- The sideboard buffer reaches beyond the range, where the module would have members to store (R105, R167). -/
def sideboardOutOfRange (s : State) : Bool :=
  match s.area with
  | none => false
  | some a => !(members s .shadow).isEmpty && dramTop < viewF s .shadow SC_SBBASE_BASE * 4096 + a.w * a.h * 8 - 1

/-- Address (R105). -/
def checkAddress (s : State) (st : Nat) : Option Fail :=
  lowerFail (lowerFail
      (firstUnit (planeUnits s st) fun u => planeOutOfRange s (unitDesc s .shadow st u))
      (firstUnit (videoLayers s st) fun u =>
        let d := unitDesc s .shadow st u
        d.vfmt < 2 && dramTop < d.src + (d.vh - 1) * d.vpitch + videoRowBytes d.vfmt d.vw - 1))
    (whole ((planeMembers s).any (fun m => planeOutOfRange s (memberDesc s .shadow m)) ||
      (List.range 8).any (fun n =>
        let c := cursorOf s .shadow st n
        c.en && dramTop < c.img + 64 * 256 - 1) ||
      calibrationOutOfRange s st || sideboardOutOfRange s))

/-- A header in range that cannot be read, or holds a refused value (R108, R115). -/
def headerFails (s : State) (src : Nat) : Bool :=
  src + 63 ≤ dramTop && match headerAt s src with
    | none => true
    | some h => headerBad h

/-- Plane header (R108, R112, R115). -/
def checkHeader (s : State) (st : Nat) : Option Fail :=
  lowerFail (lowerFail
      (firstUnit (planeUnits s st) fun u => headerFails s (unitDesc s .shadow st u).src)
      (firstUnit (videoLayers s st) fun u => 2 ≤ (unitDesc s .shadow st u).vfmt))
    (whole ((planeMembers s).any fun m => headerFails s (memberDesc s .shadow m).src))

/-- Objects resident (R130). -/
def checkResident (s : State) : Option Fail := whole (flag s SC_OBJSTAT_OVERFLOW)

/-- Spans, plain pixels and affine pixels of the shadow set on module line `l` in region `k` (R132, R187). -/
def objectLoad (s : State) (a : Area) (k l : Nat) : Nat × Nat × Nat :=
  let m : Int := captureMargin s
  let lo : Int := (a.x0 + 256 * k : Nat) - m
  let hi : Int := (a.x0 + 256 * k + bandWidth s k : Nat) + m
  (shadowObjects s).foldl (fun t e =>
    let b := e.2.box
    let n := if b.covers (a.y0 + l : Nat) then b.columnsIn lo hi else 0
    if n = 0 then t else if e.2.affine then (t.1 + 1, t.2.1, t.2.2 + n) else (t.1 + 1, t.2.1 + n, t.2.2)) (0, 0, 0)

/-- K_v of a video layer on module line `l` in region `k` (R186). -/
def videoCost (s : State) (a : Area) (d : Desc) (k l : Nat) : Nat :=
  let y := a.y0 + l
  let lo := a.x0 + 256 * k
  let hi := lo + bandWidth s k
  let wo := min (min (d.dx + d.dw) 262144) hi - max d.dx lo
  if wo = 0 || y < d.dy || d.dy + d.dh ≤ y then 0
  else
    let wi := ceilDiv (wo * d.hstep) 65536 + 7
    let nr := min 6 (ceilDiv (2 * d.vstep) 65536)
    max (max (ceilDiv wo 2) (ceilDiv wi 8)) (nr * ceilDiv wi 32)

/-- C of a cluster line in render clocks (R185). -/
def lineCost (s : State) (a : Area) (st k l : Nat) : Nat :=
  let o := objectLoad s a k l
  let kobj := o.1 + ceilDiv o.2.1 8 + ceilDiv o.2.2 2
  let kv := (videoLayers s st).foldl (fun m u => max m (videoCost s a (unitDesc s .shadow st u) k l)) 0
  32 + max (ceilDiv (bandWidth s k) 2) (max kobj kv)

/-- The first cluster line, by region and then module line, whose load exceeds a limit. -/
def firstLine (s : State) (load : Area → Nat → Nat → Nat) (limit : Nat) : Option Fail :=
  match s.area with
  | none => none
  | some a =>
    (List.range (regionsInUse s)).findSome? fun k => (List.range a.h).findSome? fun l =>
      let n := load a k l
      if limit < n then some { region := k, cluster := l % 2, cline := l / 2, cost := n } else none

/-- Object spans (R133). -/
def checkSpans (s : State) : Option Fail := firstLine s (fun a k l => (objectLoad s a k l).1) 128

/-- Object pixels (R133). -/
def checkPixels (s : State) : Option Fail :=
  firstLine s (fun a k l => (objectLoad s a k l).2.1 + (objectLoad s a k l).2.2) 1024

/-- Line cost (R25, R185). -/
def checkCost (s : State) (st : Nat) : Option Fail := firstLine s (fun a k l => lineCost s a st k l) 160

/-- The stream places a replay layer. -/
def placesReplay (s : State) (v : View) (st : Nat) : Bool :=
  (enabledUnits s v st).any fun u => 4 ≤ u && (unitDesc s v st u).kind = 3

/-- Graphic units that a stream leaves disabled, lowest first (R168, R170). -/
def spareUnits (s : State) (v : View) (st : Nat) : List Nat :=
  (List.range 15).filter fun u => 4 ≤ u && !(unitDesc s v st u).en

/-- Sideboard (R166, R170). -/
def checkSideboard (s : State) (st : Nat) : Option Fail :=
  whole ((members s .shadow).any (fun m => (memberDesc s .shadow m).kind != 0) ||
    (placesReplay s .shadow st &&
      decide ((spareUnits s .shadow st).length < (members s .shadow).length - 1)))

/-- The checks of stage 3 in the order of R184; the first that fails is reported. -/
def admissionChecks (s : State) (st : Nat) : List (Reason × Option Fail) :=
  [(.unitAbsent, checkAbsent s st), (.unitRole, checkRole s st), (.descriptor, checkDescriptor s st),
   (.scaleRatio, checkScale s st), (.presentation, checkPresentation s), (.alignment, checkAlignment s st),
   (.address, checkAddress s st), (.planeHeader, checkHeader s st), (.objectsResident, checkResident s),
   (.objectSpans, checkSpans s), (.objectPixels, checkPixels s), (.lineCost, checkCost s st),
   (.sideboard, checkSideboard s st)]

/-- The first failure of stage 3, where one fails. -/
def admissionFailure (s : State) (st : Nat) : Option (Reason × Fail) :=
  (admissionChecks s st).findSome? fun c => c.2.map fun f => (c.1, f)

/-- The headers that an admitted commit captures: of its plane units and of the members (R115). -/
def captureHeaders (s : State) (st : Nat) : List (Nat × Header) :=
  (planeUnits s st).map (fun u => (u, readHeader s (unitDesc s .shadow st u).src)) ++
  (planeMembers s).map fun m => (16 + m, readHeader s (memberDesc s .shadow m).src)

/-- Units of DRAM that admission reads for headers. -/
def headerUnits (s : State) (st : Nat) : List Nat :=
  ((planeUnits s st).map (fun u => (unitDesc s .shadow st u).src) ++
    (planeMembers s).map (fun m => (memberDesc s .shadow m).src)).filterMap fun a =>
      if a + 63 ≤ dramTop then some (a / 64) else none

end Sys2Proof.Machine
end

