-- ==== Sys2Proof/Machine/WeaveSend.lean ====
section
/-! DEFINITION. What the weave sends: ports and their links, routing, multicast, packets that the module originates, result items
and reports (R402 to R407, R416 to R422, R430, R442). -/

namespace Sys2Proof.Machine

/-- Port states of WV_PORTnSTAT.STATE (R437). -/
abbrev ptDown : Nat := 0
abbrev ptTraining : Nat := 1
abbrev ptHello : Nat := 2
abbrev ptUp : Nat := 3
abbrev ptFenced : Nat := 4
abbrev ptRetrain : Nat := 5

/-- A port's state. -/
def portState (s : State) (p : Nat) : Nat := getF s (WV_PORTSTAT_STATE p)

/-- A port that is present and UP. -/
def portUp (s : State) (p : Nat) : Bool := portPresent s.variant p && portState s p = ptUp

/-- A port's part of the weave. -/
def portOf (s : State) (p : Nat) : Port := s.weave.ports.toList.getD p .reset

/-- Replaces a port's part. -/
def setPort (s : State) (p : Nat) (x : Port) : State :=
  { s with weave := { s.weave with ports := s.weave.ports.setIfInBounds p x } }

/-- The module's own MID, where it has one. -/
def ownMid (s : State) : Option (BitVec 14) := if flag s WV_ID_MIDV then some (BitVec.ofNat 14 (getF s WV_ID_MID)) else none

/-- SMID and SPORT of packets that the module originates (R405). -/
def ownStamp (s : State) : BitVec 14 × BitVec 2 :=
  match ownMid s with
  | some m => (m, 0)
  | none => (0, 3)

/-! ### Link frames -/

/-- Something leaves the module. -/
def emit (s : State) (x : Sent) : State := { s with sent := s.sent ++ [x] }

/-- Bytes of a packet on the wire, header included. -/
def packetBytes (p : Packet) : Nat := 16 + p.payload.length

/-- What a queued packet is on the wire: forwarding takes one hop (R406). -/
def Queued.onWire (q : Queued) : Packet := if q.arrival = 7 then q.pkt else { q.pkt with hoplim := q.pkt.hoplim - 1 }

/-- Bytes of a link frame: its packet and 12 bytes of framing (R402). -/
def frameBytes (p : Packet) : Nat := packetBytes p + 12

/-- Whether the replay buffer takes one more frame: 2,048 frames or 128 KiB (R402). -/
def Port.room (x : Port) (q : Queued) : Bool :=
  x.replay.length < 2048 && (x.replay.map fun f => frameBytes f.item.pkt).foldl (· + ·) 0 + frameBytes q.pkt ≤ 131072

/-- A count of a virtual channel. -/
def vcCount (v : Vector Nat 4) (vc : Nat) : Nat := v.toList.getD vc 0

/-- Adds to a count of a virtual channel. -/
def vcAdd (v : Vector Nat 4) (vc n : Nat) : Vector Nat 4 := v.setIfInBounds vc (vcCount v vc + n)

/-- The credit returns of a frame: a byte for each virtual channel (R402; log entry 115). -/
def Port.creditWord (x : Port) : Word :=
  BitVec.ofNat 32 (((List.range 4).map fun vc => min 255 (vcCount x.owed vc) * 256 ^ vc).foldl (· + ·) 0)

/-- Sends or resends a link frame, with the number that the port expects as its cumulative acknowledgement (R402). -/
def emitFrame (s : State) (p : Nat) (f : LinkFrame) : State := emit s (.frame p f.seq (portOf s p).expect f.credits f.item.onWire)

/-- Sends one item over a link: its frame is numbered and kept until acknowledged, uses a credit of its virtual channel and
returns the credits that the port owes (R402, R407). An OUT slot's item has then left the module (R425). -/
def sendFrame (s : State) (p : Nat) (q : Queued) : State :=
  let x := portOf s p
  let f : LinkFrame := { seq := x.nextSeq, credits := x.creditWord, item := { q with out := none } }
  let s := setPort s p { x with
    nextSeq := x.nextSeq + 1, replay := x.replay ++ [f], used := vcAdd x.used q.pkt.vc.toNat 1,
    owed := x.owed.map fun n => n - min 255 n }
  emitFrame s p f

/-- The first item that waits on a virtual channel, where the link has a credit for it (R407). -/
def Port.firstOn (x : Port) (p : Nat) (vc : BitVec 2) : Option Queued :=
  if vcCount x.used vc.toNat ≤ Config.linkBuffers p vc.toNat then x.queue.find? fun q => q.pkt.vc = vc else none

/-- The bytes that a turn of SCENE or VIDEO gives: its weight in quanta of 512; 0 acts as 1 (R407, R436). -/
def turnQuota (s : State) (video : Bool) : Nat := 512 * max 1 (if video then getF s WV_CTL_VIW else getF s WV_CTL_SCW)

/-- The class whose turn it is may send while its allowance lasts; then the turn passes to the other, whose allowance grows by its
quanta. What the last frame of a turn takes beyond the allowance is owed in the next one (R407; log entry 115). `fuel` bounds the
number of turns. -/
def nextTurn (s : State) (x : Port) : Nat → Port
  | 0 => x
  | fuel + 1 =>
    if 0 < (if x.videoTurn then x.videoLeft else x.sceneLeft) then x
    else if x.videoTurn then nextTurn s { x with videoTurn := false, sceneLeft := x.sceneLeft + turnQuota s false } fuel
    else nextTurn s { x with videoTurn := true, videoLeft := x.videoLeft + turnQuota s true } fuel

/-- The next item an output port sends (R407): BEAM strictly first, then CTRL, then SCENE and VIDEO by weighted round robin, in
which a class that has nothing to send keeps no allowance. Answers the item and the port with its turn. -/
def nextItem (s : State) (p : Nat) (x : Port) : Option (Queued × Port) :=
  match x.firstOn p 3, x.firstOn p 2, x.firstOn p 0, x.firstOn p 1 with
  | some q, _, _, _ => some (q, x)
  | none, some q, _, _ => some (q, x)
  | none, none, some q, none => some (q, { x with videoLeft := min 0 x.videoLeft })
  | none, none, none, some q => some (q, { x with sceneLeft := min 0 x.sceneLeft })
  | none, none, some a, some b =>
    let x := nextTurn s x 16
    some (if x.videoTurn then (b, { x with videoLeft := x.videoLeft - frameBytes b.pkt })
      else (a, { x with sceneLeft := x.sceneLeft - frameBytes a.pkt }))
  | none, none, none, none => none

/-- Sends waiting items while the link is UP, and its replay buffer has room for the next; `fuel` bounds their number. -/
def drainPort (s : State) (p : Nat) : Nat → State
  | 0 => s
  | fuel + 1 =>
    let x := portOf s p
    match nextItem s p x with
    | none => s
    | some (q, x) =>
      if !portUp s p || !x.room q then s
      else drainPort (sendFrame (setPort s p { x with queue := x.queue.erase q }) p q) p fuel

/-- An item enters an output queue (R419). -/
def enqueueOut (s : State) (p : Nat) (q : Queued) : State :=
  let x := portOf s p
  let s := setPort s p { x with queue := x.queue ++ [q] }
  drainPort s p (x.queue.length + 1)

/-! ### Routing -/

/-- Position fields of a position table word (R413). -/
def posCol (w : Word) : Nat := bitsOf w 13 0
def posRow (w : Word) : Nat := bitsOf w 29 16
def posSide (w : Word) : Bool := w.getLsbD 14
def posValid (w : Word) : Bool := w.getLsbD 15

/-- Position table word of a MID. -/
def positionOf (s : State) (mid : BitVec 14) : Word := sget s.weave.positions 0 mid.toNat

/-- Port toward a position: east or west, then north or south, then T (R418). -/
def portToward (s : State) (w : Word) : Option Nat :=
  let c := getF s WV_POS_COL
  let r := getF s WV_POS_ROW
  if c < posCol w then some 1
  else if posCol w < c then some 3
  else if posRow w < r then some 0
  else if r < posRow w then some 2
  else if posSide w != flag s WV_POS_SIDE then some 6
  else none

/-- The port a unicast packet leaves by (R417, R418); none where it is discarded. `arrival` is 7 for a packet originated
here. -/
def unicastPort (s : State) (dest : BitVec 14) (arrival : Nat) : Option Nat :=
  let e := sget s.weave.routes 0 dest.toNat
  if e.getLsbD 7 then
    let pri := natBits e.toNat 2 0
    let alt := natBits e.toNat 5 3
    if pri = 7 || pri = arrival then none
    else if portUp s pri then some pri
    else if e.getLsbD 6 && portUp s alt && alt != arrival then some alt
    else none
  else
    let w := positionOf s dest
    if s.weave.table.isNone || !posValid w || !flag s WV_POS_POSV then none
    else
      match portToward s w with
      | some p => if portUp s p && p != arrival then some p else none
      | none => none

/-- The module's own UP riser, the lower code first (R416). -/
def upRiser (s : State) : Option Nat := [4, 5].find? fun p => portUp s p

/-- The discovery parent (R412). -/
def parentPort (s : State) : Option Nat := (List.range 7).find? fun p => flag s (WV_PORTSTAT_PARENT p)

/-- One more packet without a route. -/
def countNoRoute (s : State) : State := countF s WV_FWDCNT_NOROUTE 1

/-- One more packet with a bad queue, kind or class (R423). -/
def countBadQ (s : State) : State := countF s WV_ENGCNT_BADQ 1

/-- A packet as it stands at this instant. -/
def itemNow (s : State) (pkt : Packet) : Item := { pkt, pos := (beamPos s).setWidth 32, stamp := s.now }

/-- A beacon for the beam block: KIND BEACON on queue 0 (R423). -/
def isBeacon (p : Packet) : Bool := p.kind = 2 && p.qid = 0

/-- A beacon that has arrived waits for the beam forwarder (R45, R68). -/
def keepBeacon (s : State) (arrival : Nat) (x : Item) : State :=
  { s with weave := { s.weave with beacons := s.weave.beacons ++ [(arrival, x)] } }

/-- Local delivery: the packet waits for the engine of its queue, a beacon for the beam forwarder. A beacon that the module sends
itself does not come back to its own beam block (log entry 111). -/
def deliverLocal (s : State) (arrival : Nat) (x : Item) : State :=
  if !isBeacon x.pkt then { s with weave := { s.weave with inbox := s.weave.inbox ++ [(arrival, x)] } }
  else if arrival = 7 then s
  else keepBeacon s arrival x

/-- The multicast entry of a group: acceptance port and the ports a packet is copied to, with local delivery as port 7.
Group 255 follows the discovery tree while its entry is not VALID (R421, R422). -/
def groupEntry (s : State) (g : Nat) : Option (Nat × List Nat) :=
  if flag s (WV_MC_VALID g) then
    some (getF s (WV_MC_IN g), (List.range 8).filter fun p => bitAt (getF s (WV_MC_OUT g)) p)
  else if g = 255 then
    (parentPort s).map fun p => (p, ((List.range 7).filter fun i => flag s (WV_PORTSTAT_CHILD i)) ++ [7])
  else none

/-- A multicast packet: accepted where the entry says so, copied to every port of OUT but the one it arrived on, and
delivered locally (R421). A beacon that arrived waits for the beam forwarder instead (R68). -/
def multicast (s : State) (arrival : Nat) (x : Item) (slot : Option (BitVec 14) := none) : State :=
  match groupEntry s (natBits x.pkt.dest.toNat 7 0) with
  | some (inp, out) =>
    if inp != arrival then countF s WV_FWDCNT_MCIN 1
    else if isBeacon x.pkt && arrival != 7 then keepBeacon s arrival x
    else
      let s := (out.filter fun p => p != arrival && p != 7).foldl
        (fun s p => enqueueOut s p { pkt := x.pkt, copy := true, arrival, out := slot }) s
      if out.contains 7 then deliverLocal s arrival x else s
  | none => countF s WV_FWDCNT_MCIN 1

/-- Sends a unicast or riser-exit packet toward its MID, or discards it with a NOROUTE count; `true` where it left (R417, R418,
log entry 111). -/
def forwardUnicast (s : State) (arrival : Nat) (pkt : Packet) (slot : Option (BitVec 14) := none) : State × Bool :=
  match unicastPort s pkt.dest arrival with
  | some p => (enqueueOut s p { pkt, copy := false, arrival, out := slot }, true)
  | none => (countNoRoute s, false)

/-- A packet is treated by its DKIND (R416); `true` where it was not discarded. `slot` is the OUT queue whose slot it is. -/
def routePacket (s : State) (arrival : Nat) (x : Item) (slot : Option (BitVec 14) := none) : State × Bool :=
  let pkt := x.pkt
  match pkt.dkind.toNat with
  | 0 => if ownMid s = some pkt.dest then (deliverLocal s arrival x, true) else forwardUnicast s arrival pkt slot
  | 1 => (multicast s arrival x slot, true)
  | 2 =>
    if ownMid s = some pkt.dest then
      let r := if pkt.rsel then 5 else 4
      if portUp s r then (enqueueOut s r { pkt, copy := false, arrival, out := slot }, true) else (countNoRoute s, false)
    else forwardUnicast s arrival pkt slot
  | _ =>
    if arrival = 4 || arrival = 5 then (deliverLocal s arrival x, true)
    else
      match upRiser s, parentPort s with
      | some r, _ => (enqueueOut s r { pkt, copy := false, arrival, out := slot }, true)
      | none, some p => (enqueueOut s p { pkt, copy := false, arrival, out := slot }, true)
      | none, none => (countNoRoute s, false)

/-- A packet with the module's own stamp (R405). -/
def stampedAs (s : State) (cls : BitVec 3) (egr : Bool) (pkt : Packet) : Packet :=
  { pkt with cls := cls, egr := egr, smid := (ownStamp s).1, sport := (ownStamp s).2 }

/-- A packet that the module originates: stamped PEER, or BENCH where the bench port injects it (R405, R532). -/
def originateAs (s : State) (cls : BitVec 3) (egr : Bool) (pkt : Packet) (slot : Option (BitVec 14) := none) : State × Bool :=
  routePacket s 7 (itemNow s (stampedAs s cls egr pkt)) slot

/-- A packet of house firmware, the dresser or the drawer engine (R405, R406). -/
def originate (s : State) (pkt : Packet) (slot : Option (BitVec 14) := none) : State × Bool :=
  originateAs s 1 false { pkt with hoplim := BitVec.ofNat 10 (getF s WV_CTL_HOPLIM) } slot

/-- A packet of the module with the fields that matter; LEN is the payload's. -/
def makePacket (dkind : BitVec 2) (dest : BitVec 14) (rsel : Bool) (vc : BitVec 2) (qid : BitVec 14) (seq : BitVec 16)
    (kind : BitVec 4) (ctx : Word) (payload : List Byte) : Packet :=
  { dkind, dest, sport := 0, smid := 0, vc, qid, seq, rsel, egr := false, cls := 1, hoplim := 0, kind,
    len := BitVec.ofNat 12 payload.length, ctx, payload }

/-- How a reply to a packet is addressed: a riser exit at SMID where SPORT names a riser, NEAREST where it is 0b11, else a
unicast to SMID (R430, R513). -/
def replyAddress (smid : BitVec 14) (sport : BitVec 2) : BitVec 2 × BitVec 14 × Bool :=
  match sport.toNat with
  | 0 => (0, smid, false)
  | 1 => (2, smid, false)
  | 2 => (2, smid, true)
  | _ => (3, 0, false)

/-- The result item of a commit goes to its reply queue on CTRL (R183, R430, R603). -/
def postResult (s : State) (r : ReplyTo) (payload : List Byte) : State :=
  (originate s (makePacket r.dkind r.dest r.rsel 2 r.qid r.seq 4 r.ctx payload)).1

/-- One report on QID 5, sent NEAREST and numbered (R423, R603). -/
def reportItem (s : State) (payload : List Byte) : State :=
  let n := s.weave.reports
  (originate { s with weave := { s.weave with reports := n + 1 } } (makePacket 3 0 false 2 5 n 0 0 payload)).1

/-- The first report after a house-die reset names the reset and its cause; the spec does not lay its payload out (R442). -/
def resetReport (s : State) : State :=
  match s.weave.resetNamed with
  | none => s
  | some (reset, cause) =>
    reportItem { s with weave := { s.weave with resetNamed := none } } (Config.resetReport reset cause)

/-- A report on QID 5; the first after a house-die reset comes before it (R442). -/
def sendReport (s : State) (payload : List Byte) : State := reportItem (resetReport s) payload

end Sys2Proof.Machine
end

