-- ==== Sys2Proof/Machine/Commit.lean ====
section
/-! DEFINITION. The commit: counted writes, arrival, refusal, acceptance and its report (R176 to R190, R600, R601). -/

namespace Sys2Proof.Machine

/-! ### Counted writes -/

/-- A commit source, whose scene writes are counted (R176). -/
def isCommitSource : Src → Bool
  | .core _ | .dresser => true
  | .scene q => 32 ≤ q.toNat
  | _ => false

/-- A scene queue. QID 3, the geometry loader's, is none (R415). -/
def isSceneQueue : Src → Bool
  | .scene q => 32 ≤ q.toNat
  | _ => false

/-- The open counter of a source. -/
def findCounter (s : State) (src : Src) : Option Counter := s.comp.counters.find? fun c => c.src = src

/-- Replaces a counter. -/
def putCounter (s : State) (c : Counter) : State :=
  { s with comp := { s.comp with counters := c :: s.comp.counters.filter fun x => !decide (x.src = c.src) } }

/-- Counters of scene queues that are open. -/
def openQueues (s : State) : Nat := (s.comp.counters.filter fun c => isSceneQueue c.src && !c.lost).length

/-- One more counted write of a source with no commit held: its counter opens, or, as a 33rd scene queue, does not and the
queue's next CM is refused (R177). Counters saturate at 0xFF_FFFF. -/
def countOpen (s : State) (src : Src) : State :=
  match findCounter s src with
  | some c => if c.lost then s else putCounter s { c with count := min (c.count + 1) 0xFFFFFF }
  | none =>
    if isSceneQueue src && 32 ≤ openQueues s then putCounter s { src, count := 0, lost := true }
    else putCounter s { src, count := 1, lost := false }

/-! ### Reports -/

/-- Little-endian payload of a result item (R183). -/
def resultPayload (s : State) (c : Commit) (reason : Nat) : List Byte :=
  leBytes 4 c.epoch.toNat ++ leBytes 1 reason ++ leBytes 1 c.stream.toNat ++ leBytes 2 c.tframe.toNat ++
    leBytes 4 (regWord s (SC_CMFAIL c.stream.toNat)).toNat ++
    leBytes 4 (getF s WV_ID_MID)

/-- A message of the scan die that is held while the bridge is DOWN. -/
def sendOrHold (s : State) (m : Msg) : State :=
  if bridgeDown s then { s with held := s.held ++ [m] } else sendToHouse s m

/-- The report of a drawer-engine commit leaves for the house die, whose drawer engine sends the result item (R183, R430). -/
def sendResult (s : State) (c : Commit) (reason : Nat) : State :=
  match c.reply with
  | none => s
  | some r => sendOrHold s (.result { src := c.src, epoch := c.epoch, reply := r, payload := resultPayload s c reason })

/-- P3 of a commit's record: its queue, or its source (R584). -/
def sourceParam : Src → Nat
  | .scene q => q.toNat
  | src => srcId src

/-- P1 of a commit's record (R584). -/
def commitParam (reason : Nat) (c : Commit) : Nat := reason + c.stream.toNat * 256 + c.tframe.toNat * 65536

/-- The house side no longer keeps a commit that the scan die has reported (R601). -/
def dropSent (l : List SentCommit) (src : Src) (epoch : Word) : List SentCommit :=
  match l with
  | [] => []
  | c :: l => if c.src = src && c.epoch = epoch then l else c :: dropSent l src epoch

/-- Result registers, counts and event of a result (R183, R197); `reason` 0 is an acceptance. -/
def reportRegisters (s : State) (c : Commit) (reason : Nat) (f : Fail) : State :=
  let st := c.stream.toNat
  let s := setF s (SC_CMRES_REASON st) reason
  let s := setF s (SC_CMRES_SOURCE st) (srcId c.src)
  let s := setF s (SC_CMRES_TFRAME st) c.tframe.toNat
  let s := setF s (SC_CMEPR_EPOCH st) c.epoch.toNat
  let s := setRegWord s (SC_CMFAIL st) (BitVec.ofNat 32 f.word)
  let s := if reason = 0 then { s with comp := { s.comp with accepted := s.comp.accepted + 1 } }
    else { s with comp := { s.comp with refused := min 0xFFFFFFFF (s.comp.refused + 1) } }
  if reason = 0 then raiseBits (countWrapF s SC_CMCNT_ACCEPTED 1) 53 SC_CMEV_ACCEV (2 ^ st)
  else raiseBits (countF s SC_CMCNT_REFUSED 1) 54 SC_CMEV_REFEV (2 ^ st)

/-- The messages that waited behind a source's commit are next to be applied, in order (R180). -/
def releaseBehind (s : State) (src : Src) : State :=
  let mine := s.comp.behind.filter fun m => msgSource m = some src
  let s := { s with comp := { s.comp with behind := s.comp.behind.filter fun m => msgSource m != some src } }
  { s with bridge := { s.bridge with
      toScan := { s.bridge.toScan with arrived := mine ++ s.bridge.toScan.arrived } } }

/-- Removes a commit from those the scan die holds. The house side keeps one that has a result item to send until the report has
come (R601). -/
def dropCommit (s : State) (c : Commit) : State :=
  let s := { s with comp := { s.comp with commits := s.comp.commits.erase c } }
  if c.reply.isSome then s else { s with bridge := { s.bridge with commits := dropSent s.bridge.commits c.src c.epoch } }

/-- A refusal: no applied state changes; the result is reported, and the source's later writes go on (R181, R183). It is
recorded where it follows an acceptance or gives another reason than the last refusal. DESIGN CHOICE (log entry 122): R183 does not
say of which streams and sources; the model keeps one last result for the module, and records the first refusal after a reset. -/
def refuseCommit (s : State) (c : Commit) (reason : Reason) (f : Fail) : State :=
  let s := dropCommit s c
  let s := reportRegisters s c reason.code f
  let s := sendResult s c reason.code
  let s := if s.comp.lastResult = some (some reason) then s
    else recordScan s .warn 0x3001 c.epoch.toNat (commitParam reason.code c) f.word (sourceParam c.src)
  releaseBehind { s with comp := { s.comp with lastResult := some (some reason) } } c.src

/-- A commit that is not held yet is refused at its arrival or by its count. -/
def refuseNow (s : State) (c : Commit) (reason : Reason) : State := refuseCommit s c reason {}

/-- A held commit lacks counted writes, and D(T) has passed: it is incomplete (R43, R179). -/
def incomplete (s : State) (c : Commit) : Bool :=
  c.stage = .held && decide (c.counted < c.wcount) && deadlinePassed s (targetFrame s c.tframe)

/-- One more write of a held commit has applied; more than WCOUNT refuses it (R179). -/
def creditCommit (s : State) (c : Commit) : State :=
  let c' := { c with counted := min (c.counted + 1) 0xFFFFFF }
  let s := { s with comp := { s.comp with commits := s.comp.commits.map fun x => if x = c then c' else x } }
  if c'.wcount < c'.counted then refuseNow s c' .count else s

/-- A scene write of a source has applied (R177). A write issued before a held commit counts for that commit; where D(T) passed
first, the commit is refused as incomplete, and the write opens the next counter. -/
def creditWrite (s : State) (src : Src) : State :=
  if !isCommitSource src then s
  else
    match s.comp.commits.find? fun c => c.src = src && c.stage = .held with
    | some c => if incomplete s c then countOpen (refuseNow s c .incomplete) src else creditCommit s c
    | none => countOpen s src

/-! ### Arrival -/

/-- The first failure of stage 1, in the order of R184. -/
def arrivalFailure (s : State) (c : Commit) : Option Reason :=
  let t := targetFrame s c.tframe
  let d := frameDiff t s.beam.frame
  let runs := beamRuns s
  if runs && (d < -32767 || (d ≤ 8 && deadlinePassed s t)) then some .late
  else if runs && 8 < d then some .tooEarly
  else if !runs then some .noBeam
  else if beamState s = bmFree && getF s SC_BEAMCTL_FREEACT = 2 then some .beamFree
  else if leadOver s then some .lead
  else if c.uncounted || c.wcount < c.counted then some .count
  else if s.comp.lastEpoch.toList.getD c.stream.toNat none = some c.epoch then some .epochRepeat
  else none

/-- A CM arrives: the source's counter is reset, its value kept for the CM; the CM is held or refused (R179). -/
def commitArrives (s : State) (src : Src) (epoch : Word) (tframe : BitVec 16) (stream : BitVec 2) (wcount : BitVec 24)
    (reply : Option ReplyTo) : State :=
  let cnt := findCounter s src
  let c : Commit :=
    { src, epoch, tframe, stream, wcount := wcount.toNat, counted := (cnt.map (·.count)).getD 0,
      uncounted := (cnt.map (·.lost)).getD false, inval := s.comp.invalMark.contains src, reply, stage := .held,
      headers := [] }
  let s := { s with comp := { s.comp with
    counters := s.comp.counters.filter fun x => !decide (x.src = src),
    invalMark := s.comp.invalMark.filter fun x => !decide (x = src),
    commits := s.comp.commits ++ [c] } }
  match arrivalFailure s c with
  | some r => refuseNow s c r
  | none => s

/-! ### Admission and deadline -/

/-- The source's oldest commit at a stage. -/
def commitAt (s : State) (src : Src) (st : Stage) : Option Commit :=
  s.comp.commits.find? fun c => c.src = src && c.stage = st

/-- A held commit whose writes are complete and whose D(T - 1) has passed is checked (R179, R184). A refusal for an absent
unit clears the stream's mark (R146). -/
def admitCommit (s : State) (src : Src) : State :=
  match commitAt s src .held with
  | none => s
  | some c =>
    let t := targetFrame s c.tframe
    if c.counted != c.wcount || !deadlinePassed s (t - 1) then s
    else
      let st := c.stream.toNat
      let res := admissionFailure s st
      let hs := captureHeaders s st
      let s := touchUnits s (headerUnits s st) 0x50
      match res with
      | some (r, f) =>
        let s := if r = .unitAbsent then
            { s with comp := { s.comp with absentMark := s.comp.absentMark.setIfInBounds st [] } } else s
        refuseCommit s c r f
      | none =>
        { s with comp := { s.comp with
            commits := s.comp.commits.map fun x => if x = c then { c with stage := .admitted, headers := hs } else x } }

/-- D(T) has passed while a commit is held whose counted writes have not all applied: it is refused as incomplete. One whose
writes have all applied is admitted or refused by stage 3 (R43, R87, R179). -/
def deadlineCommit (s : State) (src : Src) : State :=
  match s.comp.commits.find? fun c => c.src = src && incomplete s c with
  | none => s
  | some c => refuseNow s c .incomplete

/-- Held commits whose deadline a step of the beam has passed are refused as late (R80, R65). -/
def judgeStep (s : State) : State :=
  (s.comp.commits.filter fun c => c.stage = .held).foldl
    (fun s c => if deadlinePassed s (targetFrame s c.tframe) then refuseNow s c .late else s) s

/-! ### Acceptance -/

/-- The stream that owns a descriptor or cursor word; none for a module-wide register (R143, R162, R181). -/
def streamOf (a : Nat) : Option Nat :=
  if 0x220000 ≤ a && a < 0x220400 then some ((a - 0x220000) / 0x100)
  else if 0x220500 ≤ a && a < 0x220580 then some ((a - 0x220500) / 0x20)
  else none

/-- A register with a field that a commit applies. -/
def isSceneAddr (a : Nat) : Bool :=
  match regSpecAt a with
  | some (r, _) => isSceneRegister r
  | none => false

/-- The registers whose shadows an accepted commit of stream `st` covers (R181). -/
def coveredBy (st a : Nat) : Bool :=
  isSceneAddr a && (match streamOf a with
    | none => true
    | some x => x = st)

/-- Every covered key of `dst` takes what `src` holds. -/
def copyCovered (p : Nat → Bool) (src dst : SMap Word) : SMap Word :=
  (src.filter fun e => p e.1).foldl (fun m e => sinsert m e.1 e.2) (dst.filter fun e => !p e.1)

/-- Every shadow that a commit of stream `st` covers becomes the applied value (R181). -/
def applyShadows (s : State) (st : Nat) : State :=
  { s with applied := copyCovered (coveredBy st) s.regs s.applied }

/-- The first frame that the module will compose, of those whose composition it has not begun: the earliest whose composition
start, of its first pass, is still ahead of the beam (R82, R600). -/
def firstAhead (s : State) (a : Area) : Word :=
  let f := s.beam.frame
  let from0 := composeFracs s a 0
  if !beamReached s f from0 then f else if !beamReached s (f + 1) from0 then f + 1 else f + 2

/-- The module composes from the next frame on whose composition start lies ahead: its beam has locked, or it has taken an area
(R600). The walk of that frame starts afresh (R211). -/
def composesFromHere (s : State) : State :=
  { s with comp := { s.comp with lastComposed := none, firstFrame := s.area.map (firstAhead s) },
           trestle := { s.trestle with walking := none, valid := Vector.replicate 4 none } }

/-- The frame that the module composes next: the one after the last composed, or the first; where the counter has stepped away from
that, the first whose composition start lies ahead (R80, R179, R600). -/
def nextFrame (s : State) : Option Word :=
  match s.area, (s.comp.lastComposed.map (· + 1)).orElse fun _ => s.comp.firstFrame with
  | some a, some f =>
    let d := frameDiff f s.beam.frame
    some (if -1 ≤ d && d ≤ 2 then f else firstAhead s a)
  | some a, none => some (firstAhead s a)
  | none, _ => none

/-- Composition of a later frame is under way. -/
def composingBeyond (s : State) (f : Word) : Bool :=
  match s.comp.composing, s.comp.nextPass with
  | some (g, _), _ => decide (0 < frameDiff g f)
  | none, some (g, _) => decide (0 < frameDiff g f)
  | none, none => false

/-- The module has composed every line of a frame, in every pass, or that frame counts as composed: without an area or a running
beam, or where its composition would have started before the module composed at all (R179, R600). -/
def frameComposed (s : State) (f : Word) : Bool :=
  s.area.isNone || !beamRuns s || composingBeyond s f ||
  (match s.comp.lastComposed with
   | some g => decide (0 ≤ frameDiff g f)
   | none =>
     match s.comp.firstFrame with
     | some g => decide (0 < frameDiff g f)
     | none => true)

/-- Fences in use. -/
def fencesInUse (s : State) : List Nat := (List.range 256).filter fun n => fenceInUse s n

/-- The last frame that read the applied set's buffers: the last that was composed. Where none has been since the reset the spec
gives no frame (R190). -/
def lastRead (s : State) : State × Word :=
  match s.comp.lastRead with
  | some f => (s, f)
  | none =>
    let f := takeFresh s
    (f.2, BitVec.ofNat 32 (Config.freeNat f.1))

/-- A retirement is queued for SC_FENCEQ with the last frame that read the buffer; a full queue loses it and sets OVF (R190). -/
def retireFence (s : State) (n : Nat) : State :=
  let r := lastRead s
  let frame := r.2
  let s := r.1
  let s := if s.comp.fenceQueue.length < 64 then
      let q := s.comp.fenceQueue ++ [{ fence := n, frame := frame.setWidth 16 }]
      setF { s with comp := { s.comp with fenceQueue := q } } SC_FENCESTAT_DEPTH q.length
    else setF s SC_FENCESTAT_OVF 1
  raiseEvent s 55 SC_FENCESTAT_RETEV

/-- The sideboard becomes INVALID (R168). -/
def invalidateSideboard (s : State) : State :=
  let s := { s with comp := { s.comp with sideboardRun := false } }
  if flag s SC_SBSTAT_VALID then setF (setF s SC_SBSTAT_VALID 0) SC_SBSTAT_INVEV 1 else s

/-- Words of a member descriptor in a view. -/
def memberWords (s : State) (v : View) (m : Nat) : List Nat := (List.range 16).map fun i => viewWord s v (SC_SBW0 m + i)

/-- What an acceptance changes that makes the sideboard INVALID: a member's word, MEMBERS, or the base of a palette bank
that a member selects (R168). `a` is the state before, `b` after. -/
def sideboardChanged (a b : State) : Bool :=
  appF a SC_SBCTL_MEMBERS != appF b SC_SBCTL_MEMBERS ||
  (List.range 4).any (fun m =>
    ((members a .applied).contains m || (members b .applied).contains m) &&
      memberWords a .applied m != memberWords b .applied m) ||
  (members b .applied).any fun m =>
    let k := (memberDesc b .applied m).pbank
    appF a (SC_PALBANK_BASE k) != appF b (SC_PALBANK_BASE k)

/-- Headers in force after a commit of stream `st`: its units' and the members' are those it captured (R115). -/
def replaceHeaders (old : List (Nat × Header)) (st : Nat) (hs : List (Nat × Header)) : List (Nat × Header) :=
  (hs.map fun h => if h.1 < 16 then (16 * st + h.1, h.2) else (64 + (h.1 - 16), h.2)) ++
    old.filter fun h => h.1 < 64 && h.1 / 16 != st

/-- An admitted commit is accepted in one instant (R125, R179, R181, R189, R211, R215): shadows, object set, immediate list
and captured headers apply; fences no applied set names retire; the sideboard is judged; the stream's walk for the frame
starts again; the result is reported. -/
def acceptCommit (s : State) (c : Commit) : State :=
  let st := c.stream.toNat
  let before := s
  let inUse := fencesInUse s
  let t := targetFrame s c.tframe
  let s := applyShadows s st
  let s := { s with
    scene := { s.scene with applied := shadowObjects s },
    trestle := { s.trestle with
      immApplied := s.trestle.immShadow,
      walking := none,
      valid := s.trestle.valid.map fun v => if v = some t then none else v },
    comp := { s.comp with
      headers := replaceHeaders s.comp.headers st c.headers,
      lastEpoch := s.comp.lastEpoch.setIfInBounds st (some c.epoch),
      lastResult := some none } }
  let s := setF s SC_OBJSTAT_ARES s.scene.applied.length
  let s := if hasRcop s.variant then setF s SC_TRIMMCTL_ACOUNT s.trestle.immApplied.length else s
  let s := if c.inval || sideboardChanged before s then invalidateSideboard s else s
  let s := (inUse.filter fun n => !fenceInUse s n).foldl retireFence s
  let s := dropCommit s c
  let s := setF s (SC_CMEPA_EPOCH st) c.epoch.toNat
  let s := reportRegisters s c 0 {}
  releaseBehind (sendResult s c 0) c.src

/-- The commits that are accepted in one instant with an admitted one: all those admitted for its target, in arrival order
(R89, R182). -/
def acceptedWith (s : State) (c : Commit) : List Commit :=
  s.comp.commits.filter fun x => x.stage = .admitted && x.tframe = c.tframe

/-- An admitted commit may be accepted now: frame T - 1 is composed (R179), and FREE with FREEACT 0b10 does not hold the last
applied frame (R78). DESIGN CHOICE (log entry 120): what becomes of a commit that was held or admitted before FREE is not stated; it
waits, neither applied nor refused as beam free. -/
def mayAccept (s : State) (c : Commit) : Bool :=
  frameComposed s (targetFrame s c.tframe - 1) && !(beamState s = bmFree && getF s SC_BEAMCTL_FREEACT = 2)

/-- The source's admitted commit is accepted once frame T - 1 is composed, and in the same instant every other that is admitted
for the same frame (R179, R182). -/
def acceptReady (s : State) (src : Src) : State :=
  match commitAt s src .admitted with
  | none => s
  | some c => if mayAccept s c then (acceptedWith s c).foldl acceptCommit s else s

/-! ### The sorter -/

/-- OBJECT_EVALUATE: the entry at the head of the queue is evaluated, and the counted writes that it completes are credited
(R127, R128). While a rescan runs, table writes wait behind it; a number that COUNT no longer covers is no entry of the table any
more, and only its writes are credited (R131; log entry 57). -/
def objectEvaluate (s : State) : State :=
  match s.scene.rescan, s.scene.queue with
  | some _, _ => s
  | none, [] => s
  | none, e :: es =>
    let s := noteQueue { s with scene := { s.scene with queue := es } }
    e.credits.foldl creditWrite (if e.entry < objectCount s then evaluateEntry s e.entry else s)

/-- A write of an agent of the scan die meets a full queue: it stalls while the sorter takes entries off its head, as far as a
rescan lets it (R127). `fuel` bounds their number. -/
def makeRoom (s : State) (a len : Nat) : Nat → State
  | 0 => s
  | fuel + 1 => if sorterFull s a len && s.scene.rescan.isNone then makeRoom (objectEvaluate s) a len fuel else s

end Sys2Proof.Machine
end

