-- ==== Sys2Proof/Machine/Bridge.lean ====
section
/-! DEFINITION. The die bridge: flits, acknowledgement, replay, training, and what a state change sets in motion (R37 to
R55, R357, R358). -/

namespace Sys2Proof.Machine

/-- One direction of the bridge, by the die it leads to. -/
def bridgeDir (s : State) : Die → BridgeDir
  | .scan => s.bridge.toScan
  | .house => s.bridge.toHouse

/-- Replaces one direction. -/
def setBridgeDir (s : State) (dest : Die) (d : BridgeDir) : State :=
  match dest with
  | .scan => { s with bridge := { s.bridge with toScan := d } }
  | .house => { s with bridge := { s.bridge with toHouse := d } }

/-- CRC errors within the last 1 ms, this one included (R49). DESIGN CHOICE (log entry 42): the window slides with each error,
and a new training empties it. -/
def noteCrcError (s : State) : State :=
  { s with bridge := { s.bridge with crcTimes := s.now :: s.bridge.crcTimes.filter fun t => s.now < t + 40000 } }

/-- What a discarded flit does at the receiver: a NAK names the expected number, once. The flits that follow it are discarded
with no NAK of their own, until the expected one is met again and is bad (R49, R51, and the worked example of the replay).
The receiver keeps how often in a row it named the number. -/
def BridgeDir.discard (d : BridgeDir) (seq : BitVec 10) : BridgeDir :=
  if d.nakRun != 0 && seq != d.expect then d else { d with nakRun := d.nakRun + 1, lastNak := d.expect }

/-- A flit arrives at the receiver of a direction: `seq` names one of the sender's replay buffer (R47). A bad CRC is counted;
that flit, and one with a number other than the expected, is discarded and NAKed; the expected flit is accepted, with the
messages that end in it. Nothing arrives while the bridge is not UP. -/
def receiveFlit (s : State) (dest : Die) (seq : BitVec 10) (crcOk : Bool) : State :=
  let d := bridgeDir s dest
  match bridgeUp s, d.replay.find? fun f => f.seq = seq with
  | true, some f =>
    let s := perfCount s 0x05 1
    if !crcOk then setBridgeDir (noteCrcError (countF s HS_BRERR_CRCERR 1)) dest (d.discard seq)
    else if seq = d.expect then
      setBridgeDir s dest { d with expect := d.expect + 1, nakRun := 0, arrived := d.arrived ++ endingIn [f] }
    else setBridgeDir s dest (d.discard seq)
  | _, _ => s

/-- A NAK naming a number reaches the sender: it resends from there on, which starts a replay (R47, R54, R55). -/
def receiveNak (s : State) (dest : Die) (seq : BitVec 10) : State :=
  if bridgeUp s && (bridgeDir s dest).replay.any fun f => f.seq = seq then
    setF (countF s HS_BRERR_REPLAYS 1) HS_BRSTAT_REPLAYED 1
  else s

/-- What waits towards a die leaves as far as it can (R48). -/
def drainTo (s : State) : Die → State
  | .scan => drainToScan s
  | .house => drainToHouse s

/-- The unacknowledged flits that follow number `seq`; all of them where it is not in the buffer, or has not been accepted
by the receiver, whose next expected number is `expect`. -/
def freeReplay (l : List Flit) (seq expect : BitVec 10) : List Flit :=
  match l with
  | [] => []
  | f :: fs =>
    if f.seq = expect then f :: fs
    else if f.seq = seq then fs
    else
      let r := freeReplay fs seq expect
      if r.length = fs.length then f :: fs else r

/-- A cumulative acknowledgement frees buffer space, so that stalled sources may send (R48). -/
def receiveAck (s : State) (dest : Die) (seq : BitVec 10) : State :=
  let d := bridgeDir s dest
  if bridgeUp s then
    drainTo (setBridgeDir s dest { d with replay := freeReplay d.replay seq d.expect }) dest
  else s

/-- The record of a bridge event (R54, R584). -/
def recordBridge (s : State) : State := record s .warn 0x1001 (regWord s HS_BRSTAT).toNat (regWord s HS_BRERR).toNat 0 0

/-- A geometry activation that runs is refused once the bridge has left UP (R415). -/
def spoilActivation (s : State) : State :=
  { s with weave := { s.weave with activating := s.weave.activating.map fun a => { a with failed := true } } }

/-- Starts a training or retraining at 8 lanes: RETRAINING from UP, TRAINING from DOWN (R49, R51, R53). -/
def startTraining (s : State) : State :=
  let s := spoilActivation s
  let s := { s with bridge := { s.bridge with
    width := 8, failures := 0, crcTimes := [],
    toScan := { s.bridge.toScan with nakRun := 0 }, toHouse := { s.bridge.toHouse with nakRun := 0 } } }
  setF s HS_BRSTAT_STATE (if bridgeUp s then brRetraining else brTraining)

/-- Causes of a retraining (R49). -/
def linkFaultHolds (s : State) : BridgeFault → Bool
  | .crcErrors =>
    getF s HS_BRCTL_ERRTHR != 0 && 4 * getF s HS_BRCTL_ERRTHR ≤ (s.bridge.crcTimes.filter fun t => s.now < t + 40000).length
  | .laneLoss => true
  | .repeatedNak => 4 ≤ s.bridge.toScan.nakRun || 4 ≤ s.bridge.toHouse.nakRun

/-- A CRC count at threshold, a lane loss or four NAKs of one flit start a retraining (R49). -/
def bridgeFault (s : State) (f : BridgeFault) : State :=
  if bridgeUp s && linkFaultHolds s f then startTraining s else s

/-- A write of 1 to HS_BRCTL.RETRAIN (R53). -/
def bridgeRetrain (s : State) : State :=
  if bridgeUp s || (bridgeState s = brDown && !s.bridge.poweredDown) then startTraining s else s

/-- A write of 1 to HS_BRCTL.CNTCLR (R53, R55). -/
def bridgeClear (s : State) : State := setRegWord s HS_BRERR 0

/-- The scan die sends what it held: edges, records marked HELD, results and binding rows (R358, R487, R578). At the first UP after a house-die reset it
sends one edge for each of its bit sources whose event bits are set (R357). -/
def sendHeld (s : State) : State :=
  let afresh := if s.bridge.upSinceReset then [] else (List.range 18).filterMap fun i =>
    if !(sourceBits (48 + i)).isEmpty && sourceLevel s (48 + i) then some (48 + i) else none
  let held := s.hic.scanHeld.filter fun n => !afresh.contains n
  let recs := s.recorder.scanHeld
  let msgs := s.held
  let s := { s with held := [], hic := { s.hic with scanHeld := [] }, recorder := { s.recorder with scanHeld := [] },
                    bridge := { s.bridge with upSinceReset := true } }
  let s := (held ++ afresh).foldl (fun s n => sendToHouse s (.edge n)) s
  msgs.foldl sendToHouse (recs.foldl (fun s r => sendToHouse s (.record r)) s)

/-- A mask of four lanes (R50). Which four have the best error counts is what the command says: the spec gives no count of a
lane's errors. -/
def fourLanes (m : BitVec 8) : Bool := ((List.range 8).filter fun i => m.getLsbD i).length = 4

/-- The sender of a direction resends from its oldest unacknowledged flit, where it has one: a replay (R49, R51, R54, R55). -/
def resend (s : State) (dest : Die) : State :=
  if (bridgeDir s dest).replay.isEmpty then s else setF (countF s HS_BRERR_REPLAYS 1) HS_BRSTAT_REPLAYED 1

/-- The bridge reaches UP8 or UP4: lanes, RETRAINED, its record; each sender resends, and messages flow again (R47, R49, R54).
DESIGN CHOICE (log entry 43): NARROWED is set when UP4 is reached, not when the fallback begins. -/
def bridgeTrained (s : State) (lanesHs lanesSh : BitVec 8) : State :=
  let four := s.bridge.width = 4
  let s := setF s HS_BRSTAT_STATE (if four then brUp4 else brUp8)
  let s := setF s HS_BRSTAT_LANES_HS (if four then lanesHs.toNat else 0xFF)
  let s := setF s HS_BRSTAT_LANES_SH (if four then lanesSh.toNat else 0xFF)
  let s := if four then recordBridge (raiseEvent s 40 HS_BRSTAT_NARROWED) else s
  let s := recordBridge (raiseEvent s 40 HS_BRSTAT_RETRAINED)
  let s := { s with bridge := { s.bridge with failures := 0 } }
  sendHeld (drainToHouse (drainToScan (resend (resend s .scan) .house)))

/-- The house side still keeps a commit that it has sent. -/
def keepsCommit (s : State) (src : Src) (epoch : Word) : Bool :=
  s.bridge.commits.any fun c => decide (c.src = src) && c.epoch = epoch

/-- The result item with reason 0x07, bridge down, of a commit that the house side ends itself (R51, R601). Its FAIL bytes are 0:
R197 gives SC_CMFAIL no value for that reason, which no register shows (DESIGN CHOICE, log entry 116). -/
def postBridgeDown (s : State) (reply : Option ReplyTo) (epoch : Word) (stream : BitVec 2) (tframe : BitVec 16) : State :=
  match reply with
  | none => s
  | some r => postResult s r
      (leBytes 4 epoch.toNat ++ leBytes 1 0x07 ++ leBytes 1 stream.toNat ++ leBytes 2 tframe.toNat ++ leBytes 4 0 ++
        leBytes 4 (getF s WV_ID_MID))

/-- What happens to a message for the scan die while the bridge is DOWN: a PW is discarded and counted; a CM is refused
with "bridge down", which only its result item shows (R51, R184); a read waits for its timeout. -/
def discardDown (s : State) (m : Msg) : State :=
  match m with
  | .regWrite .. | .regBits .. | .dramWrite .. | .immPut .. | .immClear .. | .fault _ | .key .. | .beacon _ =>
    countF s HS_BRERR_DROPPED 1
  | .commit src epoch tframe stream _ reply =>
    if keepsCommit s src epoch then
      postBridgeDown { s with bridge := { s.bridge with commits := dropSent s.bridge.commits src epoch } } reply epoch stream tframe
    else s
  | _ => s

/-- A message leaves the house die, or meets the bridge DOWN (R51). -/
def issueToScan (s : State) (m : Msg) : State :=
  if bridgeDown s then discardDown s m else sendToScan s m

/-- The messages of a direction that its receiver has not accepted. -/
def BridgeDir.unaccepted (d : BridgeDir) : List Msg := endingIn d.flying ++ (d.waiting.filter (·.last)).map (·.msg)

/-- The messages of the house side that the scan die has not accepted. -/
def unacceptedToScan (s : State) : List Msg := s.bridge.toScan.unaccepted

/-- The house side has sent a commit and the scan die has not accepted its CM. -/
def crossesYet (s : State) (c : SentCommit) : Bool :=
  (unacceptedToScan s).any fun m => match m with
    | .commit src epoch .. => decide (src = c.src) && epoch = c.epoch
    | _ => false

/-- The report of a commit has come to the house die. -/
def reportCame (s : State) (c : SentCommit) : Bool :=
  s.bridge.toHouse.arrived.any fun m => match m with
    | .result r => decide (r.src = c.src) && r.epoch = c.epoch
    | _ => false

/-- Every commit that has crossed the bridge and is not reported ends with reason 0x07 when the scan die resets or powers
off: a result item for a drawer-engine commit, and a record for each (R601). One whose CM has not crossed ends as the bridge goes
DOWN (R51). -/
def endCommits (s : State) : State :=
  let ended := s.bridge.commits.filter fun c => !crossesYet s c && !reportCame s c
  ended.foldl (fun s c =>
    let s := { s with bridge := { s.bridge with commits := dropSent s.bridge.commits c.src c.epoch } }
    record (postBridgeDown s c.reply c.epoch c.stream c.tframe) .warn 0x3001 c.epoch.toNat
      (0x07 + c.stream.toNat * 256 + c.tframe.toNat * 65536) 0 (sourceParam c.src)) s

/-- Messages that a direction holds, on their way or arrived, that pass a test. -/
def BridgeDir.carries (d : BridgeDir) (p : Msg → Bool) : Bool := d.unaccepted.any p || d.arrived.any p

/-- The messages that have arrived at the scan die and wait there; those taken leave their buffers, whose credits return
(R39). -/
def setArrived (s : State) (ms : List Msg) : State :=
  drainToScan { s with bridge := { s.bridge with toScan := { s.bridge.toScan with arrived := ms } } }

/-- The same on the house die. -/
def setArrivedHouse (s : State) (ms : List Msg) : State :=
  drainToHouse { s with bridge := { s.bridge with toHouse := { s.bridge.toHouse with arrived := ms } } }

/-! ### Reads through the bridge -/

/-- A read request of a source, or its answer. -/
def isReadOf (src : Src) (m : Msg) : Bool :=
  match m with
  | .readRequest x _ _ | .readResponse x _ _ _ => decide (x = src)
  | _ => false

/-- A read of a source is under way, or its answer waits to be taken. -/
def readsOut (s : State) (src : Src) : Bool :=
  s.bridge.toScan.carries (isReadOf src) || s.bridge.toHouse.carries (isReadOf src)

/-- Takes every read of a source out of the bridge's buffers. -/
def dropReads (s : State) (src : Src) : State :=
  let f : List Msg → List Msg := fun l => l.filter fun m => !isReadOf src m
  let g : List MsgPart → List MsgPart := fun l => l.filter fun p => !isReadOf src p.msg
  let b := s.bridge
  { s with bridge := { b with
      toScan := { b.toScan with waiting := g b.toScan.waiting, arrived := f b.toScan.arrived },
      toHouse := { b.toHouse with waiting := g b.toHouse.waiting, arrived := f b.toHouse.arrived } } }

/-- The answers of a source that wait are dropped. -/
def dropAnswers (s : State) (src : Src) : State :=
  setArrivedHouse s (s.bridge.toHouse.arrived.filter fun m => !isReadOf src m)

/-- The answer to a read of a source, where it has arrived: it is taken, with its bytes and whether the read failed (R38). -/
def takeAnswer (s : State) (src : Src) (target : Target) : Option (State × List Byte × Bool) :=
  let mine : Msg → Bool := fun m => match m with
    | .readResponse x t _ _ => decide (x = src) && decide (t = target)
    | _ => false
  match s.bridge.toHouse.arrived.find? mine with
  | some (.readResponse x t bs failed) =>
    some (setArrivedHouse s (s.bridge.toHouse.arrived.erase (.readResponse x t bs failed)), bs, failed)
  | _ => none

/-- A read of a source that was issued fails at its timeout: the bridge is DOWN, or was since (R51). -/
def readLost (s : State) (src : Src) : Bool := bridgeDown s || !readsOut s src

/-- A read of a source that was issued to a target is lost: the bridge is DOWN, or was since (R51). -/
def targetLost (s : State) (src : Src) (t : Target) : Bool :=
  let mine : Msg → Bool := fun m => match m with
    | .readRequest x y _ | .readResponse x y _ _ => decide (x = src) && decide (y = t)
    | _ => false
  bridgeDown s || !(s.bridge.toScan.carries mine || s.bridge.toHouse.carries mine)

/-- The scan die holds the edges, records, results and binding rows that the house die has not accepted (R358, R487, R578). -/
def holdUnaccepted (s : State) : State :=
  s.bridge.toHouse.unaccepted.foldl (fun s m => match m with
    | .edge n => { s with hic := { s.hic with scanHeld := s.hic.scanHeld ++ [n] } }
    | .record r => { s with recorder := { s.recorder with scanHeld := s.recorder.scanHeld ++ [{ r with held := true }] } }
    | .result _ | .binding .. => { s with held := s.held ++ [m] }
    | _ => s) s

/-- The bridge enters DOWN. What the scan die has not accepted ends as if issued while DOWN (R51, log entry 11). Other than
by a scan-die power-down it sets DOWNEV and writes a record (R54). -/
def bridgeGoesDown (s : State) (poweredDown : Bool) : State :=
  let s := (unacceptedToScan (spoilActivation s)).foldl discardDown (spoilActivation s)
  let s := holdUnaccepted s
  let s := { s with bridge := { s.bridge with
    toScan := { BridgeDir.reset with arrived := s.bridge.toScan.arrived },
    toHouse := { BridgeDir.reset with arrived := s.bridge.toHouse.arrived },
    failures := 0, width := 8, crcTimes := [], poweredDown := poweredDown } }
  let s := setF (setF (setF s HS_BRSTAT_STATE brDown) HS_BRSTAT_LANES_HS 0) HS_BRSTAT_LANES_SH 0
  if poweredDown then s else recordBridge (raiseEvent s 40 HS_BRSTAT_DOWNEV)

/-- A training ends. Success brings UP8 or UP4, on four lanes of each direction. A failure is tried once more; the second at 8
lanes falls back to 4 where ALLOW4 = 1, and otherwise, as the second at 4, the bridge enters DOWN (R50). DESIGN CHOICE (log
entry 44): a failed retraining goes to TRAINING at once, without DOWN and DOWNEV, and what it held stays. -/
def trainingDone (s : State) (ok : Bool) (lanesHs lanesSh : BitVec 8) : State :=
  let first := bridgeState s = brDown && s.bridge.trainAfterReset && !s.bridge.poweredDown
  if bridgeState s != brTraining && bridgeState s != brRetraining && !first then s
  else if ok && s.bridge.width = 4 && !(fourLanes lanesHs && fourLanes lanesSh) then s
  else
    let s := { s with bridge := { s.bridge with trainAfterReset := false } }
    if ok then bridgeTrained s lanesHs lanesSh
    else
      let n := s.bridge.failures + 1
      if n < 2 && (s.bridge.width = 4 || flag s HS_BRCTL_ALLOW4) then
        setF { s with bridge := { s.bridge with failures := n } } HS_BRSTAT_STATE brTraining
      else if s.bridge.width = 8 && flag s HS_BRCTL_ALLOW4 then
        setF { s with bridge := { s.bridge with failures := 0, width := 4 } } HS_BRSTAT_STATE brTraining
      else bridgeGoesDown s false

end Sys2Proof.Machine
end

