-- ==== Sys2Proof/Machine/Transfer.lean ====
section
/-! DEFINITION. The input transfer functions of R153 (sRGB, PQ, HLG) to within 2⁻⁵⁰, and the results that R154 allows. The
constants are those of the standards that the rule names (PRESUMED, log entry 64). -/

namespace Sys2Proof.Machine.Transfer

/-- 1.0 of the fixed-point numbers of this file. -/
abbrev one : Nat := 2 ^ 64

/-- A fixed-point number from a fraction. -/
def frac (n d : Nat) : Nat := n * one / d

/-- A product of fixed-point numbers. -/
def mul (a b : Nat) : Nat := a * b / one

/-- `t + t³/3 + t⁵/5 + …`, for `t` at most 1/3. -/
def atanh (t : Nat) : Nat :=
  ((List.range 24).foldl (fun (a : Nat × Nat) k => (a.1 + a.2 / (2 * k + 1), mul (mul a.2 t) t)) (0, t)).1

/-- ln 2. -/
def ln2 : Nat := 2 * atanh (one / 3)

/-- Natural logarithm of a positive number. -/
def ln (x : Nat) : Int :=
  let e := x.log2
  let m := x * one / 2 ^ e
  ((e : Int) - 64) * ln2 + 2 * atanh ((m - one) * one / (m + one))

/-- Exponential of a number above −64. -/
def exp (y : Int) : Nat :=
  let n := y / ln2
  let r := (y - n * ln2).toNat
  let p := ((List.range 24).foldl (fun (a : Nat × Nat) k => (a.1 + a.2, mul a.2 r / (k + 1))) (0, one)).1
  if 0 ≤ n then p * 2 ^ n.toNat else p / 2 ^ (-n).toNat

/-- `x` to the power `p / q`, for `x` above 0; 0 where `x` is 0. -/
def pow (x : Nat) (p : Int) (q : Nat) : Nat := if x = 0 then 0 else exp (p * ln x / q)

/-- The decoding function of IEC 61966-2-1. -/
def srgb (e : Nat) : Nat :=
  if e ≤ frac 4045 100000 then e * 100 / 1292 else pow ((e + frac 55 1000) * 1000 / 1055) 12 5

/-- The PQ EOTF of BT.2100, in parts of 10,000 cd/m². -/
def pq (e : Nat) : Nat :=
  let v := pow e 32 2523
  let c1 := frac 3424 4096
  pow ((v - c1) * one / (frac 2413 128 - mul (frac 2392 128) v)) 16384 2610

/-- The inverse OETF of HLG (BT.2100). -/
def hlgScene (e : Nat) : Nat :=
  if e ≤ one / 2 then mul e e / 3
  else (exp (((e : Int) - frac 55991073 100000000) * 100000000 / 17883277) + frac 28466892 100000000) / 12

/-- Luminance of a scene colour, by the weights of the layer's own primaries (R153). -/
def luminance (prim : Bool) (c : Nat × Nat × Nat) : Nat :=
  if prim then (2627 * c.1 + 6780 * c.2.1 + 593 * c.2.2) / 10000 else (2126 * c.1 + 7152 * c.2.1 + 722 * c.2.2) / 10000

/-- Channel `k` of a colour. -/
def channelOf {α : Type} (k : Nat) (c : α × α × α) : α := if k = 0 then c.1 else if k = 1 then c.2.1 else c.2.2

/-- The HLG reference EOTF over the nominal peak, at black level 0 (R153): none where it is 0 to a negative power. -/
def hlg (gamma : Nat) (prim : Bool) (k : Nat) (c : Nat × Nat × Nat) : Option Nat :=
  let c := (hlgScene c.1, hlgScene c.2.1, hlgScene c.2.2)
  let y := luminance prim c
  if y = 0 then (if gamma < 256 then none else some 0)
  else some (mul (pow y ((gamma : Int) - 256) 256) (channelOf k c))

/-- A value scaled to 65,535 as a fixed-point number: none outside 0 to 1.0. -/
def unitValue (v : Int) : Option Nat := if 0 ≤ v ∧ v ≤ 65535 then some (frac v.toNat 65535) else none

/-- The exact result of R153 step 2 in the blender's scale: none where the functions are not defined. -/
def exact (kind k : Nat) (c : Int × Int × Int) (white peak gamma : Nat) (prim : Bool) : Option Nat :=
  match kind with
  | 1 => (unitValue (channelOf k c)).map fun e => srgb e * white / peak
  | 2 => (unitValue (channelOf k c)).map fun e => pq e * 10000 / peak
  | _ =>
    match unitValue c.1, unitValue c.2.1, unitValue c.2.2 with
    | some r, some g, some b => hlg gamma prim k (r, g, b)
    | _, _, _ => none

/-- The free value held within 0.2 % of the exact one, or 1 LSB of 16 bits, whichever is larger (R154); without a bound where
the function is not defined. -/
def allowed (kind k : Nat) (c : Int × Int × Int) (white peak gamma : Nat) (prim : Bool) : Int :=
  let free := Config.transfer kind k c (white, peak, gamma) prim
  match exact kind k c white peak gamma prim with
  | none => free
  | some e =>
    let e := e * 65535
    let tol := max (e / 500) one
    let low := ((e - tol + (one - 1)) / one : Nat)
    let high := ((e + tol) / one : Nat)
    min (max free low) high

end Sys2Proof.Machine.Transfer
end

