-- ==== Sys2Proof/Machine/Trestle.lean ====
section
/-! DEFINITION. The trestle: reading the raster lists, the walk, the override state of a wall line, and the immediate list
(R201 to R221). -/

namespace Sys2Proof.Machine

/-- LINE of an entry (R202). -/
def ListEntry.line (e : ListEntry) : Nat := bitsOf e.w0 15 0

/-- OP of an entry. -/
def ListEntry.op (e : ListEntry) : Nat := bitsOf e.w0 19 16

/-- UNIT of an entry. -/
def ListEntry.unit (e : ListEntry) : Nat := bitsOf e.w0 23 20

/-- What reading one list has gathered: entries that take effect, the last LINE not skipped, and the counts. -/
structure ListRead where
  kept : List ListEntry
  lastLine : Option Nat
  badOp : Nat
  orderErr : Nat
  tgtErr : Nat
  read : Nat
  ended : Bool
  /-- DRAM units read, in their order (log entry 15). -/
  units : List Nat
deriving DecidableEq, Repr

/-- The operation names a unit, and that unit's layer cannot take it: unit 15, a disabled or absent unit, or a kind that the
table of R207 marks ignored. DESIGN CHOICE (log entry 125): HIDE names its units in a mask, and R207 speaks of an entry that names a
unit; a mask with a disabled or absent unit in it acts on the others and is not counted. -/
def targetBad (s : State) (st : Nat) (e : ListEntry) : Bool :=
  let named := [0x1, 0x2, 0x3, 0x5, 0x8].contains e.op
  let d := unitDesc s .applied st e.unit
  named && (e.unit = 15 || !unitPresent s e.unit || !d.en || ([0x1, 0x2, 0x5].contains e.op && 2 ≤ d.kind))

/-- A SCROLLTAB whose N is 0 or above 65,536 (R203). -/
def tableBad (e : ListEntry) : Bool := e.op = 0x2 && (bitsOf e.w2 16 0 = 0 || 65536 < bitsOf e.w2 16 0)

/-- Takes in the next entry of a list, from its DRAM unit or, in the immediate list, from none (R203 to R207, R209); `none` is an
entry whose read is uncorrectable (R220). DESIGN CHOICE (log entry 124): an entry out of order whose LINE is at or beyond AL counts in
ORDERERR, which R205 asks and R206 excludes. -/
def takeEntry (s : State) (st : Nat) (r : ListRead) (unit : Option Nat) (e : Option ListEntry) : ListRead :=
  if r.ended then r
  else
    let r := { r with read := r.read + 1, units := r.units ++ unit.toList.filter fun u => !r.units.contains u }
    match e with
    | none => r
    | some e =>
      if (r.lastLine.map fun l => decide (e.line < l)).getD false then { r with orderErr := r.orderErr + 1 }
      else
        let r := { r with lastLine := some e.line }
        if e.op = 0x9 then { r with ended := true }
        else if activeLines s ≤ e.line then r
        else if 0xA ≤ e.op || tableBad e then { r with badOp := r.badOp + 1 }
        else if targetBad s st e then { r with tgtErr := r.tgtErr + 1 }
        else if e.op = 0x0 then r
        else { r with kept := r.kept ++ [e] }

/-- Entry `i` of a DRAM list; none where its unit is uncorrectable. -/
def dramEntry (s : State) (base i : Nat) : Option ListEntry :=
  let a := base + 16 * i
  if unitBad s (a / 64) then none
  else
    let w := fun k => BitVec.ofNat 32 (dramNat s (a + 4 * k) 4)
    some { w0 := w 0, w1 := w 1, w2 := w 2, w3 := w 3 }

/-- A list read from its start to COUNT or END. -/
def readList (s : State) (st : Nat) (entries : List (Option Nat × Option ListEntry)) : ListRead :=
  entries.foldl (fun r e => takeEntry s st r e.1 e.2)
    { kept := [], lastLine := none, badOp := 0, orderErr := 0, tgtErr := 0, read := 0, ended := false, units := [] }

/-- The five lists that name the stream, in list number order (R201). -/
def streamLists (s : State) (st : Nat) : List (List (Option Nat × Option ListEntry)) :=
  ((List.range 4).map fun n =>
    if bitAt (appF s (SC_TRLISTC_STREAMS n)) st then
      let base := appF s (SC_TRLISTB_BASE n) * 64
      (List.range (appF s (SC_TRLISTC_COUNT n))).map fun i => (some ((base + 16 * i) / 64), dramEntry s base i)
    else []) ++
  [if hasRcop s.variant && bitAt (appF s SC_TRIMMCTL_STREAMS) st then s.trestle.immApplied.map fun e => (none, some e) else []]

/-- An entry after every entry whose LINE is not greater: a stable order by LINE (R205). -/
def insertByLine (e : ListEntry) : List ListEntry → List ListEntry
  | [] => [e]
  | x :: xs => if x.line ≤ e.line then x :: insertByLine e xs else e :: x :: xs

/-- The walk reads a unit of a list: an error is corrected, or noted with ECCEV and a record (R220, R382, R383). -/
def readListUnit (s : State) (u : Nat) : State :=
  let t := touchUnit s u 0x52
  if unitBad s u then recordScan (raiseEvent t 58 SC_TRSTAT_ECCEV) .warn 0x3003 (64 * u) 1 0 0 else t

/-- The walk of a stream for a frame may start: the module composes the stream and that frame next, no other walk runs, and the first
stream's follows the composition of the frame before, a later one's the walk of the stream before it (R211, R268, R273). -/
def walkDue (s : State) (st : Nat) (frame : Word) : Bool :=
  let valid := fun n => s.trestle.valid.toList.getD n none
  appFlag s SC_TRCTL_EN && s.area.isSome && beamRuns s && st < feeds s .applied && s.trestle.walking.isNone &&
  valid st != some frame &&
  (if st = 0 then s.comp.composing.isNone && s.comp.nextPass.isNone && nextFrame s = some frame
   else valid (st - 1) = some frame)

/-- The walk of a stream for a frame (R210, R211, R217): its counts, its errors, and its entries in effect order. -/
def startWalk (s : State) (st : Nat) (frame : Word) : State :=
  if !walkDue s st frame then s
  else
    let rs := (streamLists s st).map (readList s st)
    let s := rs.foldl (fun s r =>
      let s := countF s SC_TRSTAT_BADOP r.badOp
      let s := countF s SC_TRSTAT_ORDERERR r.orderErr
      let s := countF s SC_TRSTAT_TGTERR r.tgtErr
      r.units.foldl readListUnit s) s
    let all := (rs.map (·.kept)).flatten
    let w : Walk := { stream := st, frame, entries := all.foldl (fun l e => insertByLine e l) [],
                      read := (rs.map (·.read)).foldl (· + ·) 0 }
    { s with trestle := { s.trestle with walking := some w } }

/-- A walk completes: its line table takes the place of the stream's last one, and SC_TRWALK and the position are noted;
composition that it held back may start (R212, R214, R218, R221). -/
def finishWalk (s : State) : State :=
  match s.trestle.walking with
  | none => s
  | some w =>
    let s := { s with trestle := { s.trestle with
      walking := none, composeHeld := none, donePos := beamPos s,
      tables := s.trestle.tables.setIfInBounds w.stream (some w),
      valid := s.trestle.valid.setIfInBounds w.stream (some w.frame),
      tableCode := s.trestle.tableCode.filter fun e => e.1 / 512 != w.stream } }
    setF (setF s SC_TRWALK_FRAME (w.frame.toNat % 65536)) SC_TRWALK_ENTRIES w.read

/-- The walk that composition of a frame needs is complete; with the trestle off there is none (R212, R217). -/
def walkReady (s : State) (st : Nat) (frame : Word) : Bool :=
  !appFlag s SC_TRCTL_EN || s.trestle.valid.toList.getD st none = some frame

/-- The walk whose line table composition of a stream reads. -/
def walkOf (s : State) (st : Nat) : Option Walk :=
  if appFlag s SC_TRCTL_EN then s.trestle.tables.toList.getD st none else none

/-! ### The override state of a line -/

/-- Overrides of one unit (R203). -/
structure UnitOverride where
  scroll : Option (Int × Int) := none
  /-- A table: its first line, base and length. -/
  table : Option (Nat × Nat × Nat) := none
  alpha : Option Nat := none
  hidden : Bool := false
  bank : Option Nat := none
deriving DecidableEq, Repr

/-- A palette override slot that is ON (R208). -/
structure PalSlot where
  bank : Nat
  pal : Nat
  entry : Nat
  r : Nat
  g : Nat
  b : Nat
deriving DecidableEq, Repr

/-- The override state in force at a line (R204). -/
structure LineState where
  units : List (Nat × UnitOverride) := []
  slots : List (Nat × PalSlot) := []
  bg : Option (Nat × Nat × Nat) := none
deriving DecidableEq, Repr

/-- Overrides of a unit. -/
def LineState.unit (l : LineState) (u : Nat) : UnitOverride := ((l.units.find? fun e => e.1 = u).map (·.2)).getD {}

/-- Replaces the overrides of a unit. -/
def LineState.setUnit (l : LineState) (u : Nat) (o : UnitOverride) : LineState :=
  { l with units := (u, o) :: l.units.filter fun e => e.1 != u }

/-- The effect of one entry (R203). -/
def applyEntry (l : LineState) (e : ListEntry) : LineState :=
  let o := l.unit e.unit
  match e.op with
  | 0x1 => l.setUnit e.unit { o with scroll := some (signedOf 20 e.w1.toNat, signedOf 18 e.w2.toNat), table := none }
  | 0x2 => l.setUnit e.unit { o with scroll := none, table := some (e.line, bitsOf e.w1 31 2 * 4, bitsOf e.w2 16 0) }
  | 0x3 => l.setUnit e.unit { o with alpha := some (bitsOf e.w1 15 0) }
  | 0x4 => (List.range 15).foldl (fun l u =>
      if bitAt e.w1.toNat u then l.setUnit u { l.unit u with hidden := bitAt e.w2.toNat u } else l) l
  | 0x5 => l.setUnit e.unit { o with bank := some (bitsOf e.w1 1 0) }
  | 0x6 =>
    let slot := bitsOf e.w2 19 16
    let rest := l.slots.filter fun x => x.1 != slot
    if bitsOf e.w2 20 20 = 1 then
      { l with slots := (slot, { bank := bitsOf e.w3 17 16, pal := bitsOf e.w3 15 8, entry := bitsOf e.w3 7 0,
                                 r := bitsOf e.w1 15 0, g := bitsOf e.w1 31 16, b := bitsOf e.w2 15 0 }) :: rest }
    else { l with slots := rest }
  | 0x7 => { l with bg := some (bitsOf e.w1 15 0, bitsOf e.w1 31 16, bitsOf e.w2 15 0) }
  | 0x8 => l.setUnit e.unit {}
  | _ => l

/-- Key of a module line of a stream's line table. -/
def tableKey (st l : Nat) : Nat := st * 512 + l

/-- The override state at a wall line: what the walk's entries up to that line leave. -/
def lineState (w : Option Walk) (y : Nat) : LineState :=
  match w with
  | none => {}
  | some w => (w.entries.filter fun e => e.line ≤ y).foldl applyEntry {}

/-- The line table word of SCROLLTAB for a wall line: its address. -/
def tableAddr (t : Nat × Nat × Nat) (y : Nat) : Nat := t.2.1 + 4 * min (y - t.1) (t.2.2 - 1)

/-- The line of a stream's line table that a module line reads: its own, or where that one is uncorrectable the nearest above
that can be read, as the entries that the line adds act as NOPs (R220, R379, R383; DEDUCED, log entry 68); none above line 0. -/
def tableLine (s : State) (st : Nat) : Nat → Option Nat
  | 0 => if sget s.trestle.tableCode .good (tableKey st 0) = .bad then none else some 0
  | l + 1 => if sget s.trestle.tableCode .good (tableKey st (l + 1)) = .bad then tableLine s st l else some (l + 1)

/-- The override state that a module line of a stream reads from the walk's line table. -/
def tableState (s : State) (st : Nat) (w : Option Walk) (y0 l : Nat) : LineState :=
  match tableLine s st l with
  | none => {}
  | some l => lineState w (y0 + l)

/-- Reads the line of a stream's line table: its errors are corrected or noted (R379, R382, R383). -/
def readTable (s : State) (st l : Nat) : State :=
  let key := tableKey st l
  let c := sget s.trestle.tableCode .good key
  let s := if c = .bad then raiseEvent s 58 SC_TRSTAT_ECCEV else s
  let s := readScanUnit s c Config.tableMacro.toNat key 0x52
  if c = .single then { s with trestle := { s.trestle with tableCode := sput s.trestle.tableCode .good key .good } } else s

/-- The scroll that overrides give at wall line `y` (R203); an uncorrectable table word repeats that of the line above (R220). -/
def UnitOverride.scrollOf (o : UnitOverride) (s : State) (y : Nat) (above : Int × Int) : Int × Int :=
  match o.table with
  | none => o.scroll.getD (0, 0)
  | some t =>
    let a := tableAddr t y
    if unitBad s (a / 64) then above
    else
      let v := dramNat s a 4
      (signedOf 16 v, signedOf 16 (v / 65536))

/-- The scroll override of a unit on module line `l`, given that of the line above; a hidden layer reads none (R203, R207, R220). -/
def scrollStep (s : State) (st : Nat) (w : Option Walk) (y0 u l : Nat) (above : Int × Int) : Int × Int :=
  let o := (tableState s st w y0 l).unit u
  if o.hidden then above else o.scrollOf s (y0 + l) above

/-- The scroll override of a unit on module line `l`; above module line 0 there is none (R220). -/
def scrollAt (s : State) (st : Nat) (w : Option Walk) (y0 u : Nat) : Nat → Int × Int
  | 0 => scrollStep s st w y0 u 0 (0, 0)
  | l + 1 => scrollStep s st w y0 u (l + 1) (scrollAt s st w y0 u l)

/-- The line's own scroll override, also where the line hides the unit (R204, R218). -/
def ownScroll (s : State) (st : Nat) (w : Option Walk) (y0 u l : Nat) : Int × Int :=
  ((tableState s st w y0 l).unit u).scrollOf s (y0 + l) (if l = 0 then (0, 0) else scrollAt s st w y0 u (l - 1))

/-- DRAM units that a unit's scroll override reads on module line `l`: none where the line hides the unit (R207). -/
def scrollUnits (s : State) (st : Nat) (w : Option Walk) (y0 u l : Nat) : List Nat :=
  let o := (tableState s st w y0 l).unit u
  match o.table with
  | none => []
  | some t => if o.hidden then [] else [tableAddr t (y0 + l) / 64]

/-! ### The immediate list -/

/-- SCOUNT follows the shadow list (R221). -/
def noteImm (s : State) : State := setF s SC_TRIMMCTL_SCOUNT s.trestle.immShadow.length

/-- TRCLR applies: the shadow list is emptied (R218). -/
def immClear (s : State) : State := noteImm { s with trestle := { s.trestle with immShadow := [] } }

/-- TRPUT applies: one entry is appended; a full list discards it and sets IMMFULL (R218). -/
def immPut (s : State) (e : ListEntry) : State :=
  if 256 ≤ s.trestle.immShadow.length then raiseEvent s 58 SC_TRSTAT_IMMFULL
  else noteImm { s with trestle := { s.trestle with immShadow := s.trestle.immShadow ++ [e] } }

/-- TRGET: an override value of module line `l`, from the stream's line table (R218). -/
def overrideValue (s : State) (st u l target : Nat) : Int :=
  let y0 := (s.area.map (·.y0)).getD 0
  let w := s.trestle.tables.toList.getD st none
  let inRaster := match s.area with
    | some a => decide (l < a.h)
    | none => false
  let o := if inRaster then (tableState s st w y0 l).unit u else {}
  let d := unitDesc s .applied st u
  match target with
  | 0 => if inRaster then (ownScroll s st w y0 u l).1 else 0
  | 1 => if inRaster then (ownScroll s st w y0 u l).2 else 0
  | 2 => ((o.alpha.getD d.calpha : Nat) : Int)
  | 3 => ((b2n o.hidden : Nat) : Int)
  | _ => ((o.bank.getD d.pbank : Nat) : Int)

end Sys2Proof.Machine
end

