-- ==== Sys2Proof/Machine/Pixels.lean ====
section
/-! DEFINITION. One pixel of one layer: planes, objects, video, cursors, the sideboard buffer and the egress copy, with the
DRAM units that it depends on; and its conversion into the blender's space (R108 to R124, R148 to R165, R208). -/

namespace Sys2Proof.Machine

/-- What a layer delivers for a pixel: a colour, scaled to 65,535, its alpha, whether it is a palette colour, and the units
it was read from, through a pattern cache or beside it. -/
structure Sample where
  r : Int := 0
  g : Int := 0
  b : Int := 0
  a : Nat := 0
  indexed : Bool := false
  cached : List Nat := []
  direct : List Nat := []
deriving DecidableEq, Repr

/-- No pixel: transparent, and like an indexed pixel without an input transfer (R111, R153); its reads. -/
def noPixel (us : List Nat) : Sample := { indexed := true, cached := us }

/-- A 5-bit channel widened to 16 bits (R110). -/
def widen5 (v : Nat) : Nat := v * 2 ^ 11 + v * 2 ^ 6 + v * 2 + v / 16

/-- A 6-bit channel widened to 16 bits (R110). -/
def widen6 (v : Nat) : Nat := v * 2 ^ 10 + v * 2 ^ 4 + v / 4

/-- An 8-bit channel widened to 16 bits (R110). -/
def widen8 (v : Nat) : Nat := v * 257

/-- The palette override slot that a lookup matches: the lowest number (R208). -/
def matchSlot (slots : List (Nat × PalSlot)) (bank pal entry : Nat) : Option PalSlot :=
  let hits := slots.filter fun e => e.2.bank = bank && e.2.pal = pal && e.2.entry = entry
  let low := hits.foldl (fun m e => min m e.1) 16
  (hits.find? fun e => e.1 = low).map (·.2)

/-- A palette colour: an override slot's, or the DRAM entry's (R113, R208). -/
def paletteColour (s : State) (slots : List (Nat × PalSlot)) (bank pal entry : Nat) (us : List Nat) : Sample :=
  match matchSlot slots bank pal entry with
  | some x => { r := (x.r : Nat), g := (x.g : Nat), b := (x.b : Nat), a := 0xFFFF, indexed := true, cached := us }
  | none =>
    let a := appF s (SC_PALBANK_BASE bank) * 0x80000 + (pal * 256 + entry) * 8
    let v := dramNat s a 6
    { r := (natBits v 15 0 : Nat), g := (natBits v 31 16 : Nat), b := (natBits v 47 32 : Nat), a := 0xFFFF, indexed := true,
      cached := us ++ unitsOf a 8 }

/-- Pixel `i` of a run of pixels from `base` (R109 to R111). -/
def pixelAt (s : State) (slots : List (Nat × PalSlot)) (fmt base i pal psub bank : Nat) (trans0 : Bool) : Sample :=
  match fmt with
  | 0 =>
    let a := base + i / 2
    let b := (dramByte s a).toNat
    let p := if i % 2 = 0 then b % 16 else b / 16
    if p = 0 && trans0 then noPixel (unitsOf a 1) else paletteColour s slots bank pal (psub * 16 + p) (unitsOf a 1)
  | 1 =>
    let a := base + i
    let p := (dramByte s a).toNat
    if p = 0 && trans0 then noPixel (unitsOf a 1) else paletteColour s slots bank pal p (unitsOf a 1)
  | 2 =>
    let a := base + 2 * i
    let v := dramNat s a 2
    { r := (widen5 (natBits v 15 11) : Nat), g := (widen6 (natBits v 10 5) : Nat), b := (widen5 (natBits v 4 0) : Nat),
      a := 0xFFFF, cached := unitsOf a 2 }
  | 3 =>
    let a := base + 3 * i
    let v := dramNat s a 3
    { r := (widen8 (natBits v 23 16) : Nat), g := (widen8 (natBits v 15 8) : Nat), b := (widen8 (natBits v 7 0) : Nat),
      a := 0xFFFF, cached := unitsOf a 3 }
  | _ =>
    let a := base + 4 * i
    let v := dramNat s a 4
    { r := (widen8 (natBits v 23 16) : Nat), g := (widen8 (natBits v 15 8) : Nat), b := (widen8 (natBits v 7 0) : Nat),
      a := widen8 (natBits v 31 24), cached := unitsOf a 4 }

/-- One coordinate of R117: wrapped, or clamped to the plane. -/
def planeCoord (wrap : Bool) (p : Int) (n : Nat) : Nat :=
  (if wrap then p % (n : Int) else min (max p 0) ((n : Int) - 1)).toNat

/-- The pixel that a plane draws at a wall position, with its scroll (R116, R117). -/
def planeSample (s : State) (slots : List (Nat × PalSlot)) (p : Plane) (bank : Nat) (sx sy : Int) (x y : Nat) : Sample :=
  let c := if p.bitmap then 1 else p.cell
  let px := planeCoord p.wrapx ((x : Int) + sx) (p.w * c)
  let py := planeCoord p.wrapy ((y : Int) + sy) (p.h * c)
  if p.bitmap then pixelAt s slots p.format (p.base + py * p.pitch) px p.pal p.psub bank p.trans0
  else
    let ea := p.base + py / c * p.pitch + px / c * 4
    let e := dramNat s ea 4
    let cell := natBits e 15 0
    if bitAt e 30 || p.ncells ≤ cell then noPixel (unitsOf ea 4)
    else
      let ox := if bitAt e 16 then c - 1 - px % c else px % c
      let oy := if bitAt e 17 then c - 1 - py % c else py % c
      let d := pixelAt s slots p.format (p.patbase + cell * p.cellBytes) (oy * c + ox) (natBits e 25 18) (natBits e 29 26) bank
        p.trans0
      { d with cached := unitsOf ea 4 ++ d.cached }

/-- The image pixel that an object draws at a display position; none outside its box or its image (R121, R122). -/
def objectPixel (o : Obj) (x y : Int) : Option (Nat × Nat) :=
  let b := o.box
  let w := o.wm1 + 1
  let h := o.hm1 + 1
  if x < b.left || b.left + b.width ≤ x || !b.covers y then none
  else if !o.affine then
    let i := (x - o.x).toNat
    let j := (y - o.y).toNat
    some (if o.hflip then w - 1 - i else i, if o.vflip then h - 1 - j else j)
  else
    let dx2 := 2 * x + 1 - 2 * o.x - w
    let dy2 := 2 * y + 1 - 2 * o.y - h
    let u := (o.ux * dx2 + o.uy * dy2 + w * 4096) / 8192
    let v := (o.vx * dx2 + o.vy * dy2 + h * 4096) / 8192
    if 0 ≤ u && u < w && 0 ≤ v && v < h then some (u.toNat, v.toNat) else none

/-- Bytes of an object's image row (R121). -/
def Obj.rowBytes (o : Obj) : Nat := ceilDiv ((o.wm1 + 1) * formatBits o.format) 128 * 16

/-- The sample of an object at a display position. -/
def objectSample (s : State) (slots : List (Nat × PalSlot)) (o : Obj) (bank : Option Nat) (x y : Int) : Option Sample :=
  (objectPixel o x y).map fun p =>
    pixelAt s slots o.format (o.img + p.2 * o.rowBytes) p.1 o.pal o.psub (bank.getD o.pbank) true

/-- Object `n` of priority `p` covers one of priority `p'` and number `n'` (R123). -/
def covers (p n p' n' : Nat) : Bool := decide (p' < p) || (p' = p && decide (n' < n))

/-- The pixel that an object plane delivers, drawn `dsx` columns to the left (R123, R207). -/
def objectPlaneSample (s : State) (slots : List (Nat × PalSlot)) (plane : Nat) (bank : Option Nat) (dsx : Int) (x y : Nat) :
    Sample :=
  let hits := s.scene.applied.filterMap fun e =>
    if e.2.plane = plane then (objectSample s slots e.2 bank (x + dsx) y).map fun d => (e.2.prio, e.1, d) else none
  let best := hits.foldl (fun (m : Option (Nat × Nat × Sample)) e =>
    if e.2.2.a = 0 then m
    else match m with
      | none => some e
      | some m => if covers e.1 e.2.1 m.1 m.2.1 then some e else some m) none
  match best with
  | none => noPixel (hits.map fun e => e.2.2.cached).flatten
  | some m =>
    let above := hits.filter fun e => covers e.1 e.2.1 m.1 m.2.1
    { m.2.2 with cached := (above.map fun e => e.2.2.cached).flatten ++ m.2.2.cached }

/-! ### Video -/

/-- Sample `k` of a packed video row: three to a 32-bit word (R112). -/
def videoSample (s : State) (row k : Nat) : Nat × List Nat :=
  let a := row + k / 3 * 4
  (natBits (dramNat s a 4) (10 * (k % 3) + 9) (10 * (k % 3)), unitsOf a 4)

/-- Chroma of an even column in 4:2:2; `cr` is 0 for Cb and 1 for Cr. -/
def evenChroma (s : State) (row c cr : Nat) : Nat × List Nat := videoSample s row (c / 6 * 12 + c % 6 * 2 + 2 * cr)

/-- Component `k` (0 Y, 1 Cb, 2 Cr) of a buffer's pixel, with 4:2:2 chroma widened (R112, R160). -/
def videoComponent (s : State) (d : Desc) (k c l : Nat) : Nat × List Nat :=
  let row := d.src + l * d.vpitch
  if d.vfmt = 1 then
    videoSample s row (3 * c + (if k = 0 then 1 else if k = 1 then 0 else 2))
  else if k = 0 then videoSample s row (c / 6 * 12 + c % 6 * 2 + 1)
  else if c % 2 = 0 then evenChroma s row c (k - 1)
  else
    let left := evenChroma s row (c - 1) (k - 1)
    if d.vw ≤ c + 1 then left
    else
      let right := evenChroma s row (c + 1) (k - 1)
      ((left.1 + right.1 + 1) / 2, left.2 ++ right.2)

/-- A coordinate held within a buffer. -/
def edgeClamp (n : Nat) (x : Int) : Nat := (min (max x 0) ((n : Int) - 1)).toNat

/-- One filtered component at a window position: the vertical pass, then the horizontal, exact, rounded once (R158, R159). -/
def videoFiltered (s : State) (d : Desc) (k x y : Nat) : Nat × List Nat :=
  let u := d.sx.toNat * 65536 + d.hphase + (x - d.dx) * d.hstep
  let v := d.sy.toNat * 65536 + d.vphase + (y - d.dy) * d.vstep
  let ph := u % 65536 * 64 / 65536
  let pv := v % 65536 * 64 / 65536
  let cols := (List.range 8).map fun i =>
    (signedOf 12 (getF s (SC_VCOEFH_COEF ph i)), edgeClamp d.vw (((u / 65536 + i : Nat) : Int) - 3))
  let rows := (List.range 6).map fun i =>
    (signedOf 12 (getF s (SC_VCOEFV_COEF pv i)), edgeClamp d.vh (((v / 65536 + i : Nat) : Int) - 2))
  let taps := (cols.map fun c => rows.map fun r =>
    let p := videoComponent s d k c.2 r.2
    ((p.1 : Int) * c.1 * r.1, p.2)).flatten
  ((clampInt 0 1023 (roundDiv ((taps.map (·.1)).foldl (· + ·) 0) 1048576)).toNat, (taps.map (·.2)).flatten)

/-- A conversion result that the spec gives exactly but no rounding for: the integer below or above it (log entry 6). -/
def freeRound (n : Int) (d : Nat) : Int := n / d + (if n % d = 0 then 0 else if Config.roundUp n d then 1 else 0)

/-- R'G'B' scaled to 65,535 from 10-bit YCbCr: range offset and matrix of R153 step 1. -/
def yccToRgb (d : Desc) (y cb cr : Nat) : Int × Int × Int :=
  let kr : Int := if d.yccmat then 2627 else 2126
  let kb : Int := if d.yccmat then 593 else 722
  let kg : Int := 10000 - kr - kb
  let den : Nat := if d.narrow then 876 * 896 else 1023
  let yy : Int := if d.narrow then ((y : Int) - 64) * 896 else y
  let chroma := fun c : Nat => if d.narrow then ((c : Int) - 512) * 876 else (c : Int) - 512
  let b := chroma cb
  let r := chroma cr
  let red := 10000 * yy + 2 * (10000 - kr) * r
  let blue := 10000 * yy + 2 * (10000 - kb) * b
  let green := 10000 * kg * yy - 2 * kr * (10000 - kr) * r - 2 * kb * (10000 - kb) * b
  (freeRound (red * 65535) (den * 10000), freeRound (green * 65535) (den * (10000 * kg.toNat)),
   freeRound (blue * 65535) (den * 10000))

/-- The pixel of a video layer; opaque black in security state GUARD or above, where it reads nothing (R525). -/
def videoSampleAt (s : State) (d : Desc) (black : Bool) (x y : Nat) : Sample :=
  if black then { a := 0xFFFF, indexed := true }
  else
    let yy := videoFiltered s d 0 x y
    let cb := videoFiltered s d 1 x y
    let cr := videoFiltered s d 2 x y
    let c := yccToRgb d yy.1 cb.1 cr.1
    { r := c.1, g := c.2.1, b := c.2.2, a := 0xFFFF, direct := yy.2 ++ cb.2 ++ cr.2 }

/-! ### Into the blender's space -/

/-- A colour in the blender's space, scaled to 65,535. -/
structure Colour where
  r : Nat
  g : Nat
  b : Nat
deriving DecidableEq, Repr

/-- Input transfer of one channel (R153 step 2, R154), with the applied levels and system gamma. -/
def transferred (s : State) (xfer : Nat) (prim : Bool) (d : Sample) (channel : Nat) (v : Int) : Int :=
  if d.indexed || xfer = 0 then v
  else Transfer.allowed xfer channel (d.r, d.g, d.b) (appF s SC_PEAK_SDRWHITE) (appF s SC_PEAK_PEAKNITS)
    (appF s SC_HLG_SYSGAMMA) prim

/-- BT.709 to BT.2020 primaries (R153 step 3, BT.2087; log entry 6). -/
def toBt2020 (c : Int × Int × Int) : Int × Int × Int :=
  (freeRound (6274 * c.1 + 3293 * c.2.1 + 433 * c.2.2) 10000, freeRound (691 * c.1 + 9195 * c.2.1 + 114 * c.2.2) 10000,
   freeRound (164 * c.1 + 880 * c.2.1 + 8956 * c.2.2) 10000)

/-- A sample in the blender's space (R153). -/
def blenderColour (s : State) (xfer : Nat) (prim : Bool) (d : Sample) : Colour :=
  let c := (transferred s xfer prim d 0 d.r, transferred s xfer prim d 1 d.g, transferred s xfer prim d 2 d.b)
  let c := if prim then c else toBt2020 c
  let clip := fun v : Int => (clampInt 0 0xFFFF v).toNat
  { r := clip c.1, g := clip c.2.1, b := clip c.2.2 }

/-! ### Blending -/

/-- 1.0 as a 16-bit value. -/
abbrev one16 : Nat := 0xFFFF

/-- Colour `n / d` in units of 1/65,535, rounded once and clamped (R152). -/
def blendRound (n : Int) (d : Nat) : Nat := (clampInt 0 one16 (roundDiv n d)).toNat

/-- One channel of the blend of `s` with alpha `α` and constant alpha `c` over `d` (R151, R152). -/
def blendChannel (op c α s d : Nat) : Nat :=
  let a := c * α
  let u := one16 * one16
  match op with
  | 0 => blendRound ((a * s + (u - a) * d : Nat) : Int) u
  | 1 => blendRound ((c * one16 * s + (u - a) * d : Nat) : Int) u
  | 2 => blendRound ((u * d + a * s : Nat) : Int) u
  | _ => blendRound ((d * ((u - a) * one16 + a * s) : Nat) : Int) (u * one16)

/-- The blend of a colour over another. -/
def blend (op c α : Nat) (s d : Colour) : Colour :=
  { r := blendChannel op c α s.r d.r, g := blendChannel op c α s.g d.g, b := blendChannel op c α s.b d.b }

/-- Alpha of the stored sideboard picture under one more member (R167). -/
def blendAlpha (c α d : Nat) : Nat :=
  let a := c * α
  blendRound ((a * one16 + (one16 * one16 - a) * d : Nat) : Int) (one16 * one16)

end Sys2Proof.Machine
end

