-- ==== Sys2Proof/Machine/Compose.lean ====
section
/-! DEFINITION. Composition of a cluster line, from the layers through the blender, the colour pipe and calibration into the
frame store; and the start and end of a pass (R82 to R86, R150 to R156, R164 to R174, R223 to R233, R384, R385). -/

namespace Sys2Proof.Machine

/-! ### Blending a pixel -/

/-- What a layer adds at a pixel: its blend operation, constant alpha, pixel alpha and colour. -/
structure Part where
  op : Nat
  c : Nat
  alpha : Nat
  colour : Colour
deriving DecidableEq, Repr

/-- The layers of a pixel, lowest first, and the units read for it: through the pattern cache, beside it, and by the cursor
engine. -/
structure Drawing where
  parts : List Part := []
  cached : List Nat := []
  direct : List Nat := []
  cursor : List Nat := []
deriving DecidableEq, Repr

/-- Drawings one above the other. -/
def Drawing.over (a b : Drawing) : Drawing :=
  { parts := a.parts ++ b.parts, cached := a.cached ++ b.cached, direct := a.direct ++ b.direct,
    cursor := a.cursor ++ b.cursor }

/-- A sample drawn with a descriptor's settings. -/
def drawSample (s : State) (d : Desc) (calpha : Nat) (x : Sample) : Drawing :=
  { parts := [{ op := d.blend, c := calpha, alpha := x.a, colour := blenderColour s d.xfer d.prim x }],
    cached := x.cached, direct := x.direct }

/-- The plane header that composition uses for a unit of a stream (16 × stream + unit) or a member (64 + m). -/
def heldPlane (s : State) (key : Nat) : Plane := planeOf (((s.comp.headers.find? fun h => h.1 = key).map (·.2)).getD [])

/-- A sideboard member at a wall position, within its own window; no override acts on it (R166, R209). `v` is what the cluster's
pattern cache shows of DRAM. -/
def memberSample (v s : State) (m x y : Nat) : Option Sample :=
  let d := memberDesc s .applied m
  if d.covers x y then some (planeSample v [] (heldPlane s (64 + m)) d.pbank d.sx d.sy x y) else none

/-- A stream has too few spare units to draw every member live (R168, R193). -/
def sideboardShort (s : State) (st : Nat) : Bool :=
  placesReplay s .applied st &&
    decide ((spareUnits s .applied st).length < (members s .applied).length - 1)

/-- The members that a stream draws live (R168). -/
def liveMembers (s : State) (st : Nat) : List Nat :=
  if sideboardShort s st then (members s .applied).take 1 else members s .applied

/-- Address of a module pixel in the sideboard buffer (R167). -/
def sideboardAddr (s : State) (a : Area) (x l : Nat) : Nat := appF s SC_SBBASE_BASE * 4096 + (l * a.w + x) * 8

/-- The sideboard at a wall position: the stored picture, or the members live (R167, R168). -/
def sideboardAt (v s : State) (a : Area) (st calpha x y : Nat) : Drawing :=
  if flag s SC_SBSTAT_VALID then
    let p := sideboardAddr s a (x - a.x0) (y - a.y0)
    let n := dramNat s p 8
    { parts := [{ op := 1, c := calpha, alpha := natBits n 63 48,
                  colour := { r := natBits n 15 0, g := natBits n 31 16, b := natBits n 47 32 } }],
      direct := unitsOf p 8 }
  else
    (liveMembers s st).foldl (fun acc m =>
      match memberSample v s m x y with
      | none => acc
      | some x => acc.over (drawSample s (memberDesc s .applied m) (memberDesc s .applied m).calpha x)) {}

/-- Key of a module line's scroll override in a region's band. -/
def scrollKey (k u l : Nat) : Nat := (k * 16 + u) * 512 + l

/-- The scroll override that a module line of a region's band uses: as its fetch agent read it (R210, R220). -/
def scrollHeld (s : State) (k u l : Nat) : Int × Int := sget s.trestle.scrolls (0, 0) (scrollKey k u l)

/-- Layer unit `u` of a stream at a wall position of region `k` (R147, R148, R207). Planes and objects are read through the
pattern cache, which shows `v` of DRAM; video and the stored sideboard beside it. DESIGN CHOICE (log entry 126): HIDE of a replay
unit while the sideboard is INVALID hides the members that are drawn live in its place, as R207 lets it, though R209 lets no override
act on members. -/
def layerAt (v s : State) (a : Area) (st k : Nat) (ls : LineState) (u x y : Nat) : Drawing :=
  let d := unitDesc s .applied st u
  let o := ls.unit u
  let calpha := o.alpha.getD d.calpha
  if o.hidden || !d.covers x y then {}
  else
    let scroll := scrollHeld s k u (y - a.y0)
    let slots := ls.slots
    match d.kind with
    | 0 => drawSample s d calpha
        (planeSample v slots (heldPlane s (16 * st + u)) (o.bank.getD d.pbank) (d.sx + scroll.1) (d.sy + scroll.2) x y)
    | 1 => drawSample s d calpha (objectPlaneSample v slots (d.src % 4) o.bank scroll.1 x y)
    | 2 => drawSample s d calpha (videoSampleAt s d (videoBlack s) x y)
    | _ => sideboardAt v s a st calpha x y

/-- The enabled units of a stream in ascending ORDER (R150). -/
def stackOf (s : State) (st : Nat) : List Nat :=
  (List.range 16).flatMap fun k => (enabledUnits s .applied st).filter fun u => (unitDesc s .applied st u).order = k

/-- The cursor that a cluster line shows in its band: highest PRIO, then lowest number (R164). -/
def cursorShown (s : State) (a : Area) (st k y : Nat) : Option Cursor :=
  let lo : Int := (a.x0 + 256 * k : Nat)
  let here := ((List.range 8).map (cursorOf s .applied st)).filter fun c =>
    let b : Box := { left := c.left, top := c.top, width := 64, height := 64 }
    c.en && b.covers y && b.columnsIn lo (lo + bandWidth s k) != 0
  here.foldl (fun m c => match m with
    | none => some c
    | some m => if m.prio < c.prio then some c else some m) none

/-- The cursor at a wall position: sRGB, BT.709, straight alpha, read through the pattern cache (R163, R165). -/
def cursorAt (v s : State) (c : Cursor) (x y : Nat) : Drawing :=
  let i := (x : Int) - c.left
  let j := (y : Int) - c.top
  if i < 0 || 64 ≤ i || j < 0 || 64 ≤ j then {}
  else
    let d := pixelAt v [] 4 (c.img + j.toNat * 256) i.toNat 0 0 0 false
    { parts := [{ op := 0, c := one16, alpha := d.a, colour := blenderColour s 1 false d }], cursor := d.cached }

/-- The background colour of a line (R150, R203). -/
def background (s : State) (ls : LineState) : Colour :=
  match ls.bg with
  | some c => { r := c.1, g := c.2.1, b := c.2.2 }
  | none => { r := appF s SC_BGCOLOUR0_R, g := appF s SC_BGCOLOUR0_G, b := appF s SC_BGCOLOUR1_B }

/-! ### The egress layer -/

/-- The entry that the layer shows: the one named, else entry 0, where valid in the copy (R174). -/
def egressEntry (s : State) : Option EgressEntry :=
  if egressBase s = 0 then none
  else
    match s.comp.library.find? fun e => e.id = s.comp.shown.entry with
    | some e => some e
    | none => s.comp.library.find? fun e => e.id = 0

/-- Byte address in the copy of byte `off` of an entry. -/
def egressByte (s : State) (e : EgressEntry) (off : Nat) : Nat := egressBase s + (e.addr - 0x700000) + off

/-- What the egress unit draws over a module pixel, with the units read; none where the layer does not cover it (R174). -/
def egressAt (s : State) (x l : Nat) : Option (Colour × List Nat) :=
  if !s.comp.shown.active then none
  else
    match egressEntry s with
    | none => some ({ r := 0, g := 0, b := 0 }, [])
    | some e =>
      let f := fun off => dramNat s (egressByte s e off) 2
      let w := f 2 + 1
      let ox := f 6
      let oy := f 8
      if x < ox || ox + w ≤ x || l < oy || oy + f 4 + 1 ≤ l then none
      else
        let p := egressByte s e 192 + (l - oy) * (ceilDiv w 32 * 16) + (x - ox) / 2
        let b := (dramByte s p).toNat
        let i := if (x - ox) % 2 = 0 then b % 16 else b / 16
        let q := egressByte s e 64 + i * 8
        let v := dramNat s q 6
        some ({ r := natBits v 15 0, g := natBits v 31 16, b := natBits v 47 32 },
          unitsOf (egressByte s e 0) 16 ++ unitsOf p 1 ++ unitsOf q 8)

/-! ### Colour pipe, calibration, white extraction -/

/-- One output of the panel matrix (R155). -/
def panelRow (s : State) (i : Nat) (c : Colour) : Nat :=
  let m := fun j => signedOf 16 (appF s (SC_CPMAT_COEF (3 * i + j)))
  (clampInt 0 0xFFFF (roundDiv (m 0 * (c.r : Nat) + m 1 * (c.g : Nat) + m 2 * (c.b : Nat)) 8192)).toNat

/-- One channel through the selected LUT bank (R156). -/
def lutChannel (s : State) (ch x : Nat) : Nat :=
  let bank := appF s SC_CPCTL_LUTSEL
  let l := fun i => if i = 4096 then 0xFFFF else getF s (SC_LUT_ENTRY bank ch i)
  let i := x / 16
  (clampInt 0 0xFFFF ((l i : Nat) + roundDiv (((l (i + 1) : Nat) - (l i : Nat) : Int) * (x % 16 : Nat)) 16)).toNat

/-- The colour pipe (R155, R156). -/
def colourPipe (s : State) (c : Colour) : Colour :=
  let c : Colour := if appFlag s SC_CPCTL_MATEN then { r := panelRow s 0 c, g := panelRow s 1 c, b := panelRow s 2 c } else c
  if appFlag s SC_CPCTL_LUTEN then { r := lutChannel s 0 c.r, g := lutChannel s 1 c.g, b := lutChannel s 2 c.b } else c

/-- The identity record (R232). -/
def identityRecord : BitVec 112 := 0x400#112 ||| (0x400#112 <<< 48) ||| (0x400#112 <<< 96)

/-- The record last delivered for a module column. DESIGN CHOICE (log entry 61): where the line buffer's own word is uncorrectable
the record used is free. -/
def calRecord (s : State) (x : Nat) : BitVec 112 :=
  if sget s.drive.recordCode .good x = .bad then Config.lostRecord x else sget s.drive.calibration identityRecord x

/-- One output of the calibration stage (R229). -/
def calRow (rcd : BitVec 112) (off : Int) (i : Nat) (c : Colour) : Nat :=
  let m := fun j => signedOf 12 (natBits rcd.toNat (36 * i + 12 * j + 11) (36 * i + 12 * j))
  (clampInt 0 0xFFFF (roundDiv (m 0 * (c.r : Nat) + m 1 * (c.g : Nat) + m 2 * (c.b : Nat)) 1024 + off)).toNat

/-- Calibration of a pixel at a module column (R229). -/
def calibrate (s : State) (x : Nat) (c : Colour) : Colour :=
  if !appFlag s SC_CALCTL_EN then c
  else
    let rcd := calRecord s x
    let k := x / 256
    let sel := natBits rcd.toNat 111 108
    let off := fun f : Fld => signedOf 16 (appF s f)
    { r := calRow rcd (off (SC_CALOFFA_OR k sel)) 0 c, g := calRow rcd (off (SC_CALOFFA_OG k sel)) 1 c,
      b := calRow rcd (off (SC_CALOFFB_OB k sel)) 2 c }

/-- The four channel words of a pixel: white extraction with CH4, else W = 0 (R223, R230). -/
def channelWords (s : State) (c : Colour) : List Nat :=
  if flag s SC_PGCTL_CH4 then
    let w := min c.r (min c.g c.b) * appF s SC_WEXT0_WK / 65536
    let less := fun v k => v - w * k / 65536
    [less c.r (appF s SC_WEXT0_SR), less c.g (appF s SC_WEXT1_SG), less c.b (appF s SC_WEXT1_SB), w]
  else [c.r, c.g, c.b, 0]

/-! ### A cluster line -/

/-- Key of a frame store word. -/
def storeKey (bank : Bool) (line col ch : Nat) : Nat := ((b2n bank * 512 + line) * 1024 + col) * 4 + ch

/-- The front bank of a module line. -/
def frontBank (s : State) (l : Nat) : Bool := s.drive.front.toList.getD l false

/-- Key of the protected unit of the frame store that holds a pixel's channel words (R379). -/
def storeUnit (bank : Bool) (line col : Nat) : Nat := storeKey bank line col 0 / 4

/-- Its error state. -/
def storeCode (s : State) (bank : Bool) (line col : Nat) : CodeState :=
  sget s.drive.storeCode .good (storeUnit bank line col)

/-- A word of the frame store as it is read: the word, the same pixel's word in the other bank where that read fails, or 0
where both fail (R383). -/
def storeWord (s : State) (bank : Bool) (line col ch : Nat) : BitVec 16 :=
  let bad := fun b => storeCode s b line col = .bad
  if !bad bank then sget s.drive.store 0 (storeKey bank line col ch)
  else if !bad (!bank) then sget s.drive.store 0 (storeKey (!bank) line col ch)
  else 0

/-- The frame store reads a pixel's unit of a bank for a requester, and where it fails the same pixel's unit of the other bank:
errors are corrected and written back, or noted (R379, R382, R383). -/
def readStore (s : State) (bank : Bool) (line col req : Nat) : State :=
  let one := fun (s : State) (b : Bool) =>
    let c := storeCode s b line col
    let key := storeUnit b line col
    let m := 0x40 + 4 * (col / 256)
    let s := readScanUnit s c (m + Config.scanPlace m key % 4) key req
    if c = .single then { s with drive := { s.drive with storeCode := sput s.drive.storeCode .good key .good } } else s
  let t := one s bank
  if storeCode s bank line col = .bad then one t (!bank) else t

/-- Writes the channel words of a pixel into a bank. -/
def putStore (s : State) (bank : Bool) (line col : Nat) (ws : List Nat) : State :=
  let s := { s with drive := { s.drive with storeCode := sput s.drive.storeCode .good (storeUnit bank line col) .good } }
  (List.range 4).foldl (fun s ch =>
    let key := storeKey bank line col ch
    { s with drive := { s.drive with store := sput s.drive.store 0 key (BitVec.ofNat 16 (ws.getD ch 0)) } }) s

/-- What a cluster line of region `k` delivers at a pixel, as blended, with the units read (R150, R165, R174). -/
def composePixel (v s : State) (a : Area) (st k : Nat) (ls : LineState) (stack : List Nat) (cur : Option Cursor) (x l : Nat) :
    Colour × Drawing :=
  match egressAt s x l with
  | some e => (e.1, { direct := e.2 })
  | none =>
    if sealed s then ({ r := 0, g := 0, b := 0 }, {})
    else
      let d := stack.foldl (fun acc u => acc.over (layerAt v s a st k ls u (a.x0 + x) (a.y0 + l))) {}
      let d := match cur with
        | some c => d.over (cursorAt v s c (a.x0 + x) (a.y0 + l))
        | none => d
      (d.parts.foldl (fun acc p => blend p.op p.c p.alpha p.colour acc) (background s ls), d)

/-- A pixel that depends on an uncorrectable unit is concealed (R384). -/
def drawingBad (v s : State) (d : Drawing) : Bool :=
  (d.cached ++ d.cursor).any (fun u => unitBad v u) || d.direct.any fun u => unitBad s u

/-- The stored picture of a module pixel: the members over transparent black (R167). -/
def flattened (v s : State) (st x y : Nat) : Colour × Nat :=
  (liveMembers s st).foldl (fun acc m =>
    match memberSample v s m x y with
    | none => acc
    | some p =>
      let d := memberDesc s .applied m
      (blend d.blend d.calpha p.a (blenderColour s d.xfer d.prim p) acc.1, blendAlpha d.calpha p.a acc.2))
    ({ r := 0, g := 0, b := 0 }, 0)

/-- The stream whose pass writes the sideboard buffer (R168, R274). -/
def sideboardStream (s : State) : Option Nat := (List.range (feeds s .applied)).find? fun st => placesReplay s .applied st

/-- The members' blended result of a cluster line goes into the sideboard buffer; the write stalls while the sorter's queue is
full (R127, R168). -/
def writeSideboard (v s : State) (a : Area) (st k l : Nat) : State :=
  if flag s SC_SBSTAT_VALID || sideboardStream s != some st then s
  else
    let bs := (List.range (bandWidth s k)).flatMap fun i =>
      let p := flattened v s st (a.x0 + 256 * k + i) (a.y0 + l)
      leBytes 2 p.1.r ++ leBytes 2 p.1.g ++ leBytes 2 p.1.b ++ leBytes 2 p.2
    let at0 := sideboardAddr s a (256 * k) l
    dramWrite (makeRoom s at0 bs.length 1025) { req := 0x50, guarded := false, hutch := false } none at0 bs

/-- The line's write to the sideboard buffer would find no room in the sorter's queue while a rescan holds it: the line waits
(R127, R131). -/
def sideboardWaits (s : State) (a : Area) (st k l : Nat) : Bool :=
  !flag s SC_SBSTAT_VALID && sideboardStream s = some st && s.scene.rescan.isSome &&
    sorterFull s (sideboardAddr s a (256 * k) l) (8 * bandWidth s k)

/-- The reads of a cluster line, each unit once (log entry 15). -/
def lineReads (s : State) (n : Nat) (d : Drawing) : State :=
  let s := d.cached.eraseDups.foldl (fun s u => cacheRead s n 0x50 u) s
  let s := d.cursor.eraseDups.foldl (fun s u => cacheRead s n 0x55 u) s
  touchUnits s d.direct.eraseDups 0x50

/-! ### Fetching ahead -/

/-- The fetch agent reads a module line's scroll table words through the pattern cache, and keeps the override that each unit
will use (R207, R210, R220). -/
def fetchScrolls (s : State) (a : Area) (st k l : Nat) : State :=
  let n := 2 * k + l % 2
  let w := walkOf s st
  (enabledUnits s .applied st).foldl (fun s u =>
    let v := cacheView s n
    let above := if l = 0 then (0, 0) else
      match sfind s.trestle.scrolls (scrollKey k u (l - 1)) with
      | some x => x
      | none => scrollAt v st w a.y0 u (l - 1)
    let x := scrollStep v st w a.y0 u l above
    let s := (scrollUnits s st w a.y0 u l).foldl (fun s t =>
      let s := agentRead s n 0x52 t
      if unitBad v t then raiseEvent s 58 SC_TRSTAT_ECCEV else s) s
    { s with trestle := { s.trestle with scrolls := sinsert s.trestle.scrolls (scrollKey k u l) x } }) s

/-- What a cluster line draws, pixel by pixel, as its pattern cache shows DRAM. -/
def linePixels (s : State) (a : Area) (st k l : Nat) : List (Nat × Colour × Drawing) :=
  let v := cacheView s (2 * k + l % 2)
  let ls := tableState s st (walkOf s st) a.y0 l
  let stack := stackOf s st
  let cur := cursorShown s a st k (a.y0 + l)
  (List.range (bandWidth s k)).map fun i => (256 * k + i, composePixel v s a st k ls stack cur (256 * k + i) l)

/-- All that a line's pixels read. -/
def pixelReads (px : List (Nat × Colour × Drawing)) : Drawing :=
  px.foldl (fun (acc : Drawing) p => acc.over { p.2.2 with parts := [] }) {}

/-- The fetch agent asks for every unit that a cluster line will read through the pattern cache, its scroll words first (R135,
R210). -/
def fetchLine (s : State) (a : Area) (st k l : Nat) : State :=
  if a.h ≤ l then s
  else
    let n := 2 * k + l % 2
    let s := fetchScrolls s a st k l
    let d := pixelReads (linePixels s a st k l)
    let s := d.cached.eraseDups.foldl (fun s u => prefetchUnit s n 0x50 u) s
    d.cursor.eraseDups.foldl (fun s u => prefetchUnit s n 0x55 u) s

/-- The calibration stream fetches a module line's records for a region (R228, R231). A record whose read is uncorrectable is
none, and sets ECCEV (R232). -/
def fetchRecords (s : State) (a : Area) (st k l : Nat) : State :=
  if !appFlag s SC_CALCTL_EN || a.h ≤ l then s
  else
    let base := appF s (SC_CALBASE_BASE k st) * 4096 + l * (appF s (SC_CALPITCH_PITCH k) * 64)
    let rs := (List.range (bandWidth s k)).map fun i =>
      if extentBad s (base + 14 * i) 14 then none else some (BitVec.ofNat 112 (dramNat s (base + 14 * i) 14))
    let s := touchUnits s (unitsOf base (14 * bandWidth s k)) 0x51
    let s := if rs.contains none then setF s SC_CALSTAT_ECCEV 1 else s
    { s with drive := { s.drive with calAhead := s.drive.calAhead ++ [((k, l), rs)] } }

/-- What is fetched before a pass composes its first lines: 4 cluster lines of each cluster through the pattern caches, and 8 of
records (R135, R231). -/
def fetchFirst (s : State) (a : Area) (st : Nat) : State :=
  (List.range (regionsInUse s)).foldl (fun s k =>
    let s := (List.range 8).foldl (fun s l => fetchLine s a st k l) s
    (List.range 16).foldl (fun s l => fetchRecords s a st k l) s) s

/-! ### Calibration records -/

/-- The records fetched for a module line, taken from those that wait. -/
def takeRecords (s : State) (k l : Nat) : State × List (Option (BitVec 112)) :=
  match s.drive.calAhead.find? fun e => e.1 = (k, l) with
  | none => (s, [])
  | some e => ({ s with drive := { s.drive with calAhead := s.drive.calAhead.filter fun x => x.1 != (k, l) } }, e.2)

/-- Delivered records go into the region's line buffer (R232). -/
def bufferRecords (s : State) (k : Nat) (rs : List (Option (BitVec 112))) : State :=
  (rs.zip (List.range rs.length)).foldl (fun s e =>
    match e.1 with
    | none => s
    | some rcd =>
      let x := 256 * k + e.2
      { s with drive := { s.drive with calibration := sput s.drive.calibration identityRecord x rcd,
                                       recordCode := sput s.drive.recordCode .good x .good } }) s

/-- A line leaves the colour pipe before its records have arrived (R232). -/
def noteLate (s : State) (k : Nat) : State :=
  orF (raiseEvent (countF s SC_CALSTAT_LATE 1) 60 SC_CALSTAT_LATEEV) SC_CALSTAT_LATEREG (2 ^ k)

/-- The line buffer's record of a module column is read: its errors are corrected or noted (R379, R382). -/
def readRecord (s : State) (k x : Nat) : State :=
  let c := sget s.drive.recordCode .good x
  let s := readScanUnit s c (0x58 + k) x 0x51
  if c = .single then { s with drive := { s.drive with recordCode := sput s.drive.recordCode .good x .good } } else s

/-- The words of a layer unit's line buffer are read: errors are corrected or noted, and the next line writes them anew (R379,
R382). -/
def readLineBuffer (s : State) (n k : Nat) : State :=
  let s := (s.drive.lineCode.filter fun e => e.1 / 256 = n).foldl (fun s e => readScanUnit s e.2 (0x5C + k) e.1 0x50) s
  { s with drive := { s.drive with lineCode := s.drive.lineCode.filter fun e => e.1 / 256 != n } }

/-- Pixels concealed on a line: counted, with CONCEV (R384). -/
def noteConcealed (s : State) (n : Nat) : State :=
  if n = 0 then s
  else
    let s := { s with comp := { s.comp with concealed := s.comp.concealed + n } }
    perfCount (raiseEvent (countF s SC_ECCCONC_TOTAL n) 65 SC_ECCSTAT_CONCEV) 0x06 n

/-- Toggles the bank select of a module line (R225). -/
def toggleBank (s : State) (l : Nat) : State :=
  { s with drive := { s.drive with front := s.drive.front.setIfInBounds l (!frontBank s l) } }

/-- A module line flips to the pass of a feed, which is front from then on (R279). -/
def flipTo (s : State) (l feed : Nat) : State := setF (toggleBank s l) SC_FEEDSTAT_CURFEED feed

/-- The late marks that a line's completion of a pass leaves: those of later passes, and other lines' (R86). -/
def lateAfter (late : List (Nat × Word × Nat)) (m : Nat × Word × Nat) : List (Nat × Word × Nat) :=
  late.takeWhile (· != m) ++ ((late.dropWhile (· != m)).drop 1).filter (·.1 != m.1)

/-- A module line is complete in the back bank: it waits for its flip, or flips now where the instant of its pass has gone by
(R86). -/
def lineComplete (s : State) (l : Nat) (frame : Word) (feed : Nat) : State :=
  if s.drive.late.contains (l, frame, feed) then
    flipTo { s with drive := { s.drive with late := lateAfter s.drive.late (l, frame, feed) } } l feed
  else { s with drive := { s.drive with ready := s.drive.ready.filter (· != l) ++ [l] } }

/-- Whether every region in use has composed a module line in this pass. -/
def lineDone (s : State) (l : Nat) : Bool := (List.range (regionsInUse s)).all fun k => s.comp.linesDone.contains (k, l)

/-- A cluster line that belongs to the pass under composition and is the next of its cluster: cluster `l mod 2` of a region takes
its module lines in order (R82, R227). -/
def lineAwaited (s : State) (k l : Nat) : Bool :=
  (match s.area with
    | none => false
    | some a => decide (k < regionsInUse s) && decide (l < a.h)) &&
  s.comp.composing.isSome && !s.comp.linesDone.contains (k, l) && (l < 2 || s.comp.linesDone.contains (k, l - 2))

/-- Writes a composed line into the back bank: a concealed pixel takes the front bank's word (R224, R227, R384). -/
def storeLine (s : State) (l : Nat) (px : List (Nat × Colour × Drawing)) (bad : List Bool) : State :=
  let front := frontBank s l
  (px.zip bad).foldl (fun s p =>
    let x := p.1.1
    let ws := if p.2 then (List.range 4).map fun ch => (storeWord s front l x ch).toNat
      else channelWords s (calibrate s x (colourPipe s p.1.2.1))
    putStore s (!front) l x ws) s

/-- Reading the front bank for the concealed pixels corrects or notes its errors (R379, R382, R383). -/
def concealReads (s : State) (l : Nat) (px : List (Nat × Colour × Drawing)) (bad : List Bool) : State :=
  (px.zip bad).foldl (fun s p => if p.2 then readStore s (frontBank s l) l p.1.1 0x50 else s) s

/-- One cluster line: region `k`, module line `l`, cluster `l mod 2` (R150, R227). `calLate`: its calibration records have
not arrived. -/
def composeLine (s : State) (k l : Nat) (calLate : Bool) : State :=
  match s.area, s.comp.composing with
  | some a, some (frame, st) =>
    if !lineAwaited s k l || sideboardWaits s a st k l then s
    else
      let n := 2 * k + l % 2
      let v := cacheView s n
      let px := linePixels s a st k l
      let bad := px.map fun p => drawingBad v s p.2.2 || sget s.drive.lineCode .good (n * 256 + p.1 % 256) = .bad
      let s := if appFlag s SC_TRCTL_EN then readTable s st l else s
      let s := readLineBuffer (lineReads (writeSideboard v s a st k l) n (pixelReads px)) n k
      let r := takeRecords s k l
      let late := calLate && appFlag s SC_CALCTL_EN
      let s := if late then noteLate r.1 k else bufferRecords r.1 k r.2
      let s := if appFlag s SC_CALCTL_EN then px.foldl (fun s p => readRecord s k p.1) s else s
      let s := { s with drive := { s.drive with ready := s.drive.ready.filter (· != l) } }
      let s := concealReads (storeLine s l px bad) l px bad
      let s := if late then bufferRecords s k r.2 else s
      let s := fetchRecords (fetchLine s a st k (l + 8)) a st k (l + 16)
      let s := noteConcealed s (bad.filter (·)).length
      let s := perfCount s 0x04 1
      let s := { s with comp := { s.comp with linesDone := (k, l) :: s.comp.linesDone } }
      if lineDone s l then lineComplete s l frame st else s
  | _, _ => s

/-! ### Passes -/

/-- The members are drawn live in some stream (R194). -/
def sideboardLive (s : State) : Bool := !flag s SC_SBSTAT_VALID && (sideboardStream s).isSome

/-- Some stream that draws them live lacks spare units (R193). -/
def anyShort (s : State) : Bool := sideboardLive s && (List.range (feeds s .applied)).any fun st => sideboardShort s st

/-- What a frame takes as it starts: the egress state, the concealment count, and whether the frame counts toward a VALID
sideboard (R168, R174, R385). -/
def frameTakes (s : State) : State :=
  let shown : EgressShown := { active := flag s SC_EGSTAT_ACTIVE, entry := getF s SC_EGSTAT_ENTRY }
  let s := { s with comp := { s.comp with shown := shown, concealed := 0, secHeld := 0,
                                          sideboardRun := sideboardLive s && !anyShort s } }
  setF s SC_EGSTAT_NOLIB (b2n (shown.active && (egressEntry s).isNone))

/-- Whether the next pass may be the pass of a feed for a frame: passes follow one another, feed 0 first (R268). -/
def passInOrder (s : State) (frame : Word) (feed : Nat) : Bool :=
  match s.comp.nextPass with
  | none => feed = 0
  | some p => p = (frame, feed)

/-- Composition of a pass starts, LEADEFF before its presentation start, once the beam runs, the frame store is clear and its
walk is complete (R82, R212, R226, R270). -/
def composeStart (s : State) (frame : Word) (feed : Nat) : State :=
  match s.area with
  | none => s
  | some a =>
    if !beamRuns s || s.drive.clearing || s.comp.composing.isSome || feeds s .applied ≤ feed || !passInOrder s frame feed then s
    else
      let s := beamAdvanceTo s frame (composeFracs s a feed)
      if !walkReady s feed frame then
        { s with trestle := { s.trestle with composeHeld := some feed, heldBack := true } }
      else
        let s := if feed = 0 then frameTakes s else s
        let s := setF s SC_CALSTAT_LATEREG 0
        let s := { s with comp := { s.comp with composing := some (frame, feed), linesDone := [] },
                          trestle := { s.trestle with scrolls := [] }, drive := { s.drive with calAhead := [] } }
        fetchFirst s a feed

/-- CRUN after a frame: raised where the concealed pixels reach CTHR, else 0 (R385). -/
def concealmentRun (s : State) : State :=
  let s := setF s SC_ECCCONC_LASTF (min s.comp.concealed 0xFFFF)
  let thr := getF s SC_ECCCTL_CTHR
  if thr ≤ s.comp.concealed then countF s SC_ECCSTAT_CRUN 1 else setF s SC_ECCSTAT_CRUN 0

/-- CRUN has reached CFRAMES: FATAL and FATALEV. True where the fatal fault is reported now; CTHR = 0 disables it (R385). -/
def concealmentFatal (s : State) : Bool :=
  getF s SC_ECCCTL_CTHR != 0 && max 1 (getF s SC_ECCCTL_CFRAMES) ≤ getF s SC_ECCSTAT_CRUN && !flag s SC_ECCSTAT_FATAL

/-- The sideboard becomes VALID after a whole frame composed live (R168). -/
def sideboardFrame (s : State) : State :=
  if s.comp.sideboardRun && !flag s SC_SBSTAT_VALID then
    setF (setF { s with comp := { s.comp with sideboardRun := false } } SC_SBSTAT_VALID 1) SC_SBSTAT_VALEV 1
  else s

/-- Every cluster line of the pass is composed. -/
def passDone (s : State) : Bool :=
  match s.area with
  | none => false
  | some a => (List.range a.h).all fun l => lineDone s l

/-- Composition of a pass ends; with the last pass, of the frame (R179, R271, R385). The second part tells whether the fatal
fault "render memory" is reported. -/
def composeEnd (s : State) : State × Bool :=
  match s.comp.composing with
  | none => (s, false)
  | some (frame, feed) =>
    if !passDone s then (s, false)
    else
      let s := { s with comp := { s.comp with composing := none }, trestle := { s.trestle with heldBack := false } }
      if feed + 1 < feeds s .applied then
        ({ s with comp := { s.comp with nextPass := some (frame, feed + 1) } }, false)
      else
        let s := { s with comp := { s.comp with nextPass := none, lastComposed := some frame, lastRead := some frame } }
        let s := concealmentRun (sideboardFrame s)
        let fatal := concealmentFatal s
        if fatal then
          let s := raiseEvent (setF s SC_ECCSTAT_FATAL 1) 65 SC_ECCSTAT_FATALEV
          (recordScan s .fatal 0x5002 (getF s SC_ECCCONC_LASTF) (getF s SC_ECCSTAT_CRUN) 0 0, true)
        else (s, false)

/-! ### Flips -/

/-- A line misses the flip instant of a pass: LATELINE, LATEPASS once for the pass, and WALKLATE where its walk held composition
back (R86, R212, R279). -/
def missFlip (s : State) (l : Nat) (frame : Word) (feed : Nat) : State :=
  let first := s.drive.latePass != some (frame, feed)
  let s := { s with drive := { s.drive with
    late := (l, frame, feed) :: s.drive.late, lateEvents := s.drive.lateEvents + 1, latePass := some (frame, feed) } }
  let s := setF s SC_BEAMSTAT_LATELINE 1
  let s := if first then raiseEvent (countF s SC_FEEDSTAT_LATEPASS 1) 62 SC_FEEDSTAT_LATEEV else s
  if s.trestle.heldBack then raiseEvent s 58 SC_TRSTAT_WALKLATE else s

/-- The line has flipped for a pass already, or for a later one up to a frame on: only a backward step brings the instant again
(R80). -/
def flippedAlready (s : State) (l : Nat) (frame : Word) (feed : Nat) : Bool :=
  match s.drive.flippedFor.toList.getD l none with
  | none => false
  | some (g, h) => (g = frame && feed ≤ h) || g = frame + 1

/-- The flip instant of a module line for a pass: a complete line toggles its bank; another keeps it and flips when it completes
(R80, R86, R90, R91, R269). -/
def flipLine (s : State) (frame : Word) (feed l : Nat) : State :=
  if flippedAlready s l frame feed then s
  else
    let s := { s with drive := { s.drive with flippedFor := s.drive.flippedFor.setIfInBounds l (some (frame, feed)) } }
    if s.drive.ready.contains l then
      flipTo { s with drive := { s.drive with ready := s.drive.ready.filter (· != l) } } l feed
    else missFlip s l frame feed

/-- LINE_FLIP: the beam reaches a module line's flip position (R90). -/
def lineFlip (s : State) (frame : Word) (l : Nat) : State :=
  match s.area with
  | none => s
  | some a =>
    if !beamRuns s || modeGlobal s || a.h ≤ l then s
    else flipLine (beamAdvanceTo s frame ((a.y0 + l) * 256 : Nat)) frame 0 l

/-- Every module line flips to a pass (R91, R269). -/
def flipAll (s : State) (a : Area) (frame : Word) (feed : Nat) : State :=
  (List.range a.h).foldl (fun s l => flipLine s frame feed l) s

/-- GLOBAL_FLIP: the flip FLIPADV lines before the frame, with one feed (R91). -/
def globalFlip (s : State) (frame : Word) : State :=
  match s.area with
  | none => s
  | some a =>
    if !beamRuns s || !modeGlobal s || feeds s .applied != 1 then s
    else flipAll (beamAdvanceTo s frame (flipFracs s .applied 0)) a frame 0

/-- FEED_FLIP: the flip position of a feed, with several (R269). -/
def feedFlip (s : State) (frame : Word) (feed : Nat) : State :=
  match s.area with
  | none => s
  | some a =>
    if !beamRuns s || !modeGlobal s || feeds s .applied < 2 || feeds s .applied ≤ feed then s
    else flipAll (beamAdvanceTo s frame (flipFracs s .applied feed)) a frame feed

end Sys2Proof.Machine
end

