-- ==== Sys2Proof/Machine/Memory.lean ====
section
/-! DEFINITION. The house die's memories: house and local SRAM with their codes and the written map, MRAM, the initialiser,
the patrols, and the recorder's slots in MRAM (R379 to R396, R570 to R582). -/

namespace Sys2Proof.Machine

/-- The canonical form of the house die's memories: SRAM, local SRAM, MRAM, block states, corrections. -/
abbrev Memory.wf (m : Memory) : Prop :=
  swf (fun _ => SramCell.unwritten) m.sram ∧ (∀ l ∈ m.locals.toList, swf (fun _ => SramCell.good 0) l) ∧
    swf (fun _ => (0 : Byte)) m.mram ∧ swf (fun _ => BlockState.good) m.blocks ∧ swf (fun _ => 0) m.corrections

/-- The canonical form of DRAM. -/
abbrev Dram.wf (d : Dram) : Prop := swf (fun _ => (0 : Byte)) d.bytes ∧ swf (fun _ => UnitState.unwritten) d.units

/-- Registers, SRAM, MRAM and DRAM are in their canonical form. -/
abbrev State.wf (s : State) : Prop := swf regDefault s.regs ∧ s.mem.wf ∧ s.dram.wf

/-- Key of a word of house SRAM (memory 0) or of core `m - 1`'s local SRAM (R397). -/
def sramKey (mem a : Nat) : Nat := mem * 0x1000000 + a

/-- MEM and ADDR of HS_UEADDR and HS_CEADDR (R397). -/
def memAddr (mem a : Nat) : Nat := mem * 0x10000000 + a % 0x1000000

/-- A word's cell. House SRAM that nothing has written holds arbitrary bits; local SRAM is written UNSET by hardware (R389). -/
def sramCell (s : State) (mem a : Nat) : SramCell :=
  if mem = 0 then sget s.mem.sram .unwritten a else sget (s.mem.locals.toList.getD (mem - 1) []) (.good 0) a

/-- Replaces a word's cell. -/
def setCell (s : State) (mem a : Nat) (c : SramCell) : State :=
  if mem = 0 then { s with mem := { s.mem with sram := sput s.mem.sram .unwritten a c } }
  else
    let l := sput (s.mem.locals.toList.getD (mem - 1) []) (.good 0) a c
    { s with mem := { s.mem with locals := s.mem.locals.setIfInBounds (mem - 1) l } }

/-- Macro of a word (R393). -/
def sramMacro (mem a : Nat) : Nat := if mem = 0 then a / 16384 else 0x1F + mem

/-- One more correction at a word's row: the 16th writes a repair candidate record (R396). -/
def noteRow16 (s : State) (mem a : Nat) : State :=
  let m := sramMacro mem a
  let row := Config.sramRow m a
  let r := countCorrection s m row
  if r.2 = 16 then record r.1 .info 0x5003 m 0 row 0 else r.1

/-- A correction of the house die: counted, its address kept, CEEV (R382, R397). -/
def noteHouseCE (s : State) (mem a : Nat) : State :=
  let s := countF s HS_CECNT_CE 1
  let s := setRegWord s HS_CEADDR (BitVec.ofNat 32 (memAddr mem a))
  raiseEvent s 66 HS_MEMSTAT_CEEV

/-- An uncorrectable error of the house die: counted, its address kept, UEEV, and a record where the address differs from
the last recorded one (R383). -/
def noteHouseUE (s : State) (mem a : Nat) : State :=
  let s := countF s HS_CECNT_UE 1
  let s := setRegWord s HS_UEADDR (BitVec.ofNat 32 (memAddr mem a))
  let s := raiseEvent s 66 HS_MEMSTAT_UEEV
  if s.mem.lastRecorded = some (memAddr mem a) then s
  else record { s with mem := { s.mem with lastRecorded := some (memAddr mem a) } } .fault 0x5001 (memAddr mem a) 0 0 0

/-- The map bit of a house SRAM page (R386). -/
def pageMarked (s : State) (p : Nat) : Bool := (regWord s (HS_WMAP (p / 32))).getLsbD (p % 32)

/-- Sets a page's map bit. -/
def markPage (s : State) (p : Nat) : State :=
  setRegWord s (HS_WMAP (p / 32)) (regWord s (HS_WMAP (p / 32)) ||| (1#32 <<< (p % 32)))

/-- What a read of a cell delivers: the word and whether it was corrected; none where it is uncorrectable (R382, R390). -/
def cellValue (mem a : Nat) : SramCell → Option (Tagged × Bool)
  | .good w => some (w, false)
  | .single w => some (w, true)
  | .bad => none
  | .unwritten =>
    match Config.sramFate (sramKey mem a) with
    | 0 => some (Config.sramFill (sramKey mem a), false)
    | 1 => some (Config.sramFill (sramKey mem a), true)
    | _ => none

/-- A read of an SRAM word: UNSET from an unmarked page without access to the array (R387); otherwise the word, corrected
and written back where one bit is wrong; none where it is uncorrectable. -/
def sramLoad (s : State) (mem a : Nat) : State × Option Tagged :=
  if mem = 0 && !pageMarked s (a / 1024) then (s, some 0)
  else
    match cellValue mem a (sramCell s mem a) with
    | some (w, false) => (s, some w)
    | some (w, true) => (noteRow16 (noteHouseCE (setCell s mem a (.good w)) mem a) mem a, some w)
    | none => (noteHouseUE s mem a, none)

/-- A write of an SRAM word sets its page's map bit (R386). -/
def sramStore (s : State) (mem a : Nat) (w : Tagged) : State :=
  let s := setCell s mem a (.good w)
  if mem = 0 then markPage s (a / 1024) else s

/-- A word with tag and payload. -/
def tagged (tag : BitVec 4) (w : Word) : Tagged := tag ++ w

/-- Tag of a word (R300). -/
def tagOf (w : Tagged) : BitVec 4 := w.extractLsb' 32 4

/-- Payload of a word. -/
def payload (w : Tagged) : Word := w.extractLsb' 0 32

/-- Tag INT. -/
abbrev tagInt : BitVec 4 := 1

/-! ### MRAM -/

/-- State of a 32-byte block. -/
def blockState (s : State) (b : Nat) : BlockState := sget s.mem.blocks .good b

/-- A byte of MRAM as stored (0x00 from the factory, R389). -/
def mramByte (s : State) (a : Nat) : Byte := sget s.mem.mram 0 a

/-- Bytes of MRAM as stored. -/
def mramBytes (s : State) (a len : Nat) : List Byte := (List.range len).map fun i => mramByte s (a + i)

/-- Stores bytes in MRAM; the blocks get good codes. -/
def mramPut (s : State) (a : Nat) : List Byte → State
  | [] => s
  | b :: bs =>
    let blocks := sput s.mem.blocks .good (a / 32) .good
    let s := { s with mem := { s.mem with mram := sput s.mem.mram 0 a b, blocks := blocks } }
    mramPut s (a + 1) bs

/-- What reading a block does: a corrected error is counted and written back, an uncorrectable one noted (R382, R383).
Answers whether the block can be used. -/
def touchBlock (s : State) (b : Nat) : State × Bool :=
  match blockState s b with
  | .good => (s, true)
  | .corrected =>
    let s := { s with mem := { s.mem with blocks := sput s.mem.blocks .good b .good } }
    (noteHouseCE s 5 (32 * b), true)
  | .bad => (noteHouseUE s 5 (32 * b), false)

/-- Reads MRAM blocks; false where one is uncorrectable. -/
def readBlocks (s : State) (b : Nat) : Nat → State × Bool
  | 0 => (s, true)
  | n + 1 =>
    let r := touchBlock s b
    let q := readBlocks r.1 (b + 1) n
    (q.1, r.2 && q.2)

/-- Reads the blocks of an extent (R382, R383). -/
def readExtent (s : State) (a len : Nat) : State × Bool := readBlocks s (a / 32) ((a + len + 31) / 32 - a / 32)

/-- Areas whose bytes the spec does not lay out: control slots, island block, dictionary store (R573, R522, R504). -/
def mramOpen (a : Nat) : Bool :=
  (0x400000 ≤ a && a < 0x400080) || (0x5FFE00 ≤ a && a < 0x5FFFFF + 1) || (0x600000 ≤ a && a < 0x6FE000)

/-- The area of `mramOpen` that an address lies in has been written since the factory: its control slot, the island block, or some
record of the dictionary store. -/
def mramTouched (s : State) (a : Nat) : Bool :=
  if a < 0x400080 then ((s.recorder.slots.toList.getD ((a - 0x400000) / 64) none).isSome)
  else if a < 0x600000 then s.hutch.sealMark || s.hutch.wrappedSeal.isSome || !s.hutch.alarmLog.isEmpty
  else !s.dresser.stored.isEmpty

/-- A read of the 32-bit word at an MRAM byte address: 0 where nothing has been written since the factory (R390), free where the spec
does not lay the area out. -/
def mramLoad (s : State) (a : Nat) : State × Option Word :=
  let r := touchBlock s (a / 32)
  if !r.2 then (r.1, none)
  else if mramOpen a && mramTouched s a then
    let f := takeFresh r.1
    (f.2, some (BitVec.ofNat 32 (leNat ((List.range 4).map fun i => Config.mramByte f.1 (a + i)))))
  else (r.1, some (BitVec.ofNat 32 (leNat (mramBytes s a 4))))

/-- Whether some block of an extent is uncorrectable. -/
def mramBad (s : State) (a len : Nat) : Bool :=
  (List.range ((a + len + 31) / 32 - a / 32)).any fun i => blockState s (a / 32 + i) == .bad

/-! ### Initialiser and patrols -/

/-- Words `lo` to `lo + n - 1` of house SRAM written as UNSET. -/
def fillCells (m : SMap SramCell) (lo n : Nat) : SMap SramCell :=
  m.filter (fun e => e.1 < lo) ++ ((List.range n).map fun i => (lo + i, SramCell.good 0)) ++
    m.filter fun e => lo + n ≤ e.1

/-- The initialiser writes its next words, up to `n`, as UNSET, and marks each page that it completes (R388). -/
def initWords (s : State) (n : Nat) : State :=
  let lo := s.mem.initNext
  let hi := min (lo + n) (1024 * (s.mem.initPages.2.toNat + 1))
  if hi ≤ lo then s
  else
    let s := { s with mem := { s.mem with sram := fillCells s.mem.sram lo (hi - lo), initNext := hi } }
    ((List.range 512).filter fun p => lo < 1024 * (p + 1) && 1024 * (p + 1) ≤ hi).foldl markPage s

/-- A write of HS_MEMINIT with GO = 1 that is ignored: the initialiser is busy, or the pages are in the wrong order (R388). -/
def meminitIgnored (s : State) (w : Word) : Bool := flag s HS_MEMSTAT_INITBUSY || bitsOf w 17 9 < bitsOf w 8 0

/-- A write of HS_MEMINIT with GO = 1 starts the initialiser on the pages it names (R388). -/
def meminitGo (s : State) : State :=
  let pages := (BitVec.ofNat 9 (getF s HS_MEMINIT_FIRST), BitVec.ofNat 9 (getF s HS_MEMINIT_LAST))
  setF { s with mem := { s.mem with initPages := pages, initNext := 1024 * pages.1.toNat } } HS_MEMSTAT_INITBUSY 1

/-- The initialiser goes on: one word per core cycle, a page in 1.28 µs, so 20 in a TCXO period (R388). -/
def initTick (s : State) : State := if flag s HS_MEMSTAT_INITBUSY then initWords s 20 else s

/-- The initialiser has finished its last page: the words that it had not reached are written, and INITBUSY falls (R388, log entry
31). -/
def meminitDone (s : State) : State :=
  if flag s HS_MEMSTAT_INITBUSY then setF (initWords s 524288) HS_MEMSTAT_INITBUSY 0 else s

/-- Next place of the patrol at or after `p` that lies in a marked page or in local SRAM; `fuel` bounds the pages passed. -/
def patrolFrom (s : State) : Nat → Nat → Nat
  | 0, p => p
  | fuel + 1, p => if 524288 ≤ p || pageMarked s (p / 1024) then p else patrolFrom s fuel ((p / 1024 + 1) * 1024)

/-- The house patrol reads one word; a pass ends after the last word of core 3's local SRAM (R391). -/
def houseScrub (s : State) : State :=
  if !flag s HS_MEMCTL_SCRUBEN then s
  else
    let p := patrolFrom s 512 s.mem.patrol
    let s := (if p < 524288 then sramLoad s 0 p else sramLoad s ((p - 524288) / 16384 + 1) ((p - 524288) % 16384)).1
    if p + 1 < 589824 then { s with mem := { s.mem with patrol := p + 1 } }
    else raiseEvent { s with mem := { s.mem with patrol := 0 } } 66 HS_MEMSTAT_PASSEV

/-- The MRAM controller patrols one block of 8 MiB (R392). -/
def mramScrub (s : State) : State :=
  let s' := (touchBlock s s.mem.mramPatrol).1
  { s' with mem := { s'.mem with mramPatrol := (s.mem.mramPatrol + 1) % 262144 } }

/-- First and last unit of a DRAM patrol range, which ends where DRAM is closed; none where it is off or empty (R102, R392,
R398). -/
def scrubRange (s : State) (n : Nat) : Option (Nat × Nat) :=
  let lo := getF s (SC_DSCRUBB_BASE n) * 64
  let hi := min (getF s (SC_DSCRUBL_LIMIT n) * 64 + 63) (dramTop / 64)
  if flag s (SC_DSCRUBB_EN n) && lo ≤ hi then some (lo, hi) else none

/-- The place after unit `u` of range `n`, as range × 2^32 + unit: the next unit, or the start of the next range that is
on. -/
def scrubNext (s : State) (place : Nat) : Option Nat :=
  let n := place / 2 ^ 32
  let u := place % 2 ^ 32
  match scrubRange s n with
  | some (lo, hi) => if u < lo then some (n * 2 ^ 32 + lo) else if u ≤ hi then some place else after n
  | none => after n
where
  /-- The start of the next range that is on, after range `n`. -/
  after (n : Nat) : Option Nat :=
    [1, 2, 3, 4].findSome? fun i => (scrubRange s ((n + i) % 4)).map fun r => ((n + i) % 4) * 2 ^ 32 + r.1

/-- The DRAM patrol reads one unit (R392). -/
def dramScrub (s : State) : State :=
  if !flag s SC_ECCCTL_DSCRUBEN then s
  else
    match scrubNext s s.dram.scrubUnit with
    | none => s
    | some place =>
      let s := touchUnit s (place % 2 ^ 32) 0x56
      { s with dram := { s.dram with scrubUnit := place + 1 } }

/-! ### Records in MRAM -/

/-- One step of the CRC-16 register on one bit. -/
def crc16Bit (c : BitVec 16) : BitVec 16 := if c.getLsbD 15 then (c <<< 1) ^^^ 0x1021#16 else c <<< 1

/-- CRC-16 register after one byte. -/
def crc16Byte (c : BitVec 16) (b : Byte) : BitVec 16 :=
  crc16Bit (crc16Bit (crc16Bit (crc16Bit (crc16Bit (crc16Bit (crc16Bit (crc16Bit (c ^^^ (b.setWidth 16 <<< 8)))))))))

/-- CRC-16, polynomial 0x1021, initial value 0xFFFF, unreflected (R570). -/
def crc16 (bs : List Byte) : BitVec 16 := bs.foldl crc16Byte 0xFFFF#16

/-- CLASS of a record (R570). -/
def RecClass.code : RecClass → Nat
  | .info => 0
  | .warn => 1
  | .fault => 2
  | .fatal => 3
  | .alarm => 4
  | .firmware => 5

/-- Bytes 0 to 29 of a record (R570). -/
def recordBytes (r : Rec) (lap : Nat) : List Byte :=
  let bs := leBytes 2 r.code ++ leBytes 1 (r.cls.code + 16 * b2n r.tform + 32 * b2n r.held + 64 * b2n r.overpin) ++
    leBytes 1 lap ++ leBytes 8 r.time ++ leBytes 4 r.p0.toNat ++ leBytes 4 r.p1.toNat ++ leBytes 4 r.p2.toNat ++
    leBytes 4 r.p3.toNat
  bs ++ leBytes 2 (crc16 bs).toNat

/-- MRAM address of a record. -/
def recordPlace (pinned : Bool) (n : Nat) : Nat := if pinned then 0x404000 + 32 * n else 0x408000 + 32 * (n % 15360)

/-- Writes a record into its slot: bytes 0 to 29, then VALID (R575). -/
def putRecord (s : State) (a : Nat) (r : Rec) (lap : Nat) : State :=
  mramPut (mramPut s a (recordBytes r lap)) (a + 30) (leBytes 2 0x5AA5)

/-- First general record present (R574). -/
def recordFirst (s : State) : Nat := max s.recorder.floor (s.recorder.total - 7680)

/-- Writes the control slot that is next (R573). -/
def controlSlot (s : State) : State :=
  let r := s.recorder
  let slot : ControlSlot := { seq := r.slotSeq + 1, total := r.total, floor := r.floor, opsec := r.opsec, pcyc := r.pcyc,
                              pincnt := r.pincnt }
  let slots := r.slots.setIfInBounds ((r.slotSeq + 1) % 2) (some slot)
  { s with recorder := { r with slotSeq := r.slotSeq + 1, slots := slots } }

/-- PINCNT and PINFULL of HS_RECSTAT (R577). -/
def notePinned (s : State) (n : Nat) : State :=
  let s := { s with recorder := { s.recorder with pincnt := n } }
  setF (setF s HS_RECSTAT_PINCNT n) HS_RECSTAT_PINFULL (b2n (n = 512))

/-- A store whose read-back failed: STOREEV, counted, and its record (R575, R584). -/
def storeFailed (s : State) (a : Nat) : State :=
  record (raiseEvent (countF s HS_RECCNT_STOREFAIL 1) 71 HS_RECSTAT_STOREEV) .fault 0x0004 a 0 0 0

/-- A record goes to the next general slot (R574); `ok` says whether the read-back agreed. -/
def writeGeneral (s : State) (r : Rec) (ok : Bool) : State :=
  let n := s.recorder.total
  let a := 0x408000 + 32 * (n % 15360)
  let s := if ok then putRecord s a r (n / 15360 % 256) else storeFailed (mramPut s a (List.replicate 32 0)) a
  let s := { s with recorder := { s.recorder with total := (n + 1) % 2 ^ 48 } }
  if (n + 1) % 4096 = 0 then controlSlot s else s

/-- An ALARM record goes to the pinned slot PINCNT while one is free (R577). -/
def writePinned (s : State) (r : Rec) (ok : Bool) : State :=
  let n := s.recorder.pincnt
  let a := 0x404000 + 32 * n
  let s := if ok then putRecord s a r 0 else storeFailed (mramPut s a (List.replicate 32 0)) a
  let s := notePinned s (n + 1)
  if n + 1 = 512 then raiseEvent s 69 HS_RECSTAT_PINEV else s

/-- The record of a clear enters ahead of those that wait, so that it is the first after the clear; it needs a token and an entry
as any INFO record does (R579, R582). The clears that still wait have one more record ahead of them. -/
def recordClear (s : State) (c : PendingClear) : State :=
  let t := recordTime s
  let r : Rec := { cls := .info, code := 0x0002, tform := t.1, held := false, overpin := false, time := t.2,
                   p0 := BitVec.ofNat 32 c.value, p1 := BitVec.ofNat 32 c.cls, p2 := BitVec.ofNat 32 c.smid, p3 := 0 }
  let s := flushDrops s
  if s.recorder.dropped = 0 && ordinaryFits s then
    let s := useToken s
    { s with recorder := { s.recorder with
        queue := r :: s.recorder.queue, clears := s.recorder.clears.map fun c => { c with ahead := c.ahead + 1 } } }
  else dropRecord s

/-- A clear takes effect: FLOOR, the pinned slots where it names them, a control slot, its record (R582). -/
def carryOutClear (s : State) (c : PendingClear) : State :=
  let s := { s with recorder := { s.recorder with floor := s.recorder.total } }
  let s := if c.value = 2 then
      notePinned ((List.range 512).foldl (fun s i => mramPut s (recordPlace true i + 30) (leBytes 2 0)) s) 0
    else s
  recordClear (controlSlot s) c

/-- The clears whose preceding records have all been written take effect (R582). -/
def applyClears (s : State) : State :=
  let due := s.recorder.clears.filter fun c => c.ahead = 0
  due.foldl carryOutClear { s with recorder := { s.recorder with clears := s.recorder.clears.filter fun c => c.ahead != 0 } }

/-- The recorder writes the record at the head of its queue, whose entry is then free; clears wait for those queued before them
(R575, R577 to R579, R582, R588). -/
def writeRecord (s : State) (ok : Bool) : State :=
  match s.recorder.queue with
  | [] => s
  | r :: rs =>
    let clears := s.recorder.clears.map fun c => { c with ahead := c.ahead - 1 }
    let s := { s with recorder := { s.recorder with queue := rs, clears := clears } }
    let s := if r.cls = .alarm && s.recorder.pincnt < 512 then writePinned s r ok
      else writeGeneral s { r with overpin := r.cls = .alarm } ok
    let s := if bitAt (getF s HS_RECCTL_IRQMASK) r.cls.code then raiseEvent s 68 HS_RECSTAT_RECEV else s
    applyClears (flushDrops s)

/-- A clear is asked for (R582). -/
def askClear (s : State) (v cls smid : Nat) : State :=
  let c : PendingClear := { value := v, cls := cls, smid := smid, ahead := s.recorder.queue.length }
  applyClears { s with recorder := { s.recorder with clears := s.recorder.clears ++ [c] } }

/-- The record is one that MRAM holds, by the counts. -/
def recordHeld (s : State) (pinned : Bool) (n : Nat) : Bool :=
  if pinned then n < s.recorder.pincnt else recordFirst s ≤ n && n < s.recorder.total

/-- Status and words of a record as the window shows them (R580). -/
def recordView (s : State) (pinned : Bool) (n : Nat) : Nat × List Word :=
  let zero := List.replicate 8 (0 : Word)
  if !recordHeld s pinned n then (if pinned then 1 else if s.recorder.total ≤ n then 3 else 2, zero)
  else
    let a := recordPlace pinned n
    let bs := mramBytes s a 32
    let ws := (List.range 8).map fun i => BitVec.ofNat 32 (leAt bs (4 * i) 4)
    if blockState s (a / 32) = .bad then (5, zero)
    else if leAt bs 30 2 != 0x5AA5 then (1, zero)
    else if (crc16 (bs.take 28)).toNat != leAt bs 28 2 then (4, ws)
    else (0, ws)

/-- Loads the window with the record that VIEW and NUM name; reading its block corrects or notes an error (R382, R580). -/
def loadWindow (s : State) : State :=
  let pinned := flag s HS_RECCURH_VIEW
  let n := getF s HS_RECCURL_NUML + (if pinned then 0 else getF s HS_RECCURH_NUMH * 2 ^ 32)
  let v := recordView s pinned n
  let s := if recordHeld s pinned n then (touchBlock s (recordPlace pinned n / 32)).1 else s
  let s := setF s HS_RECSTAT_CURST v.1
  (List.range 8).foldl (fun s i => setRegWord s (HS_RECWIN i) (v.2.getD i 0)) s

/-- A write of 1 to NEXT: NUM advances and the window is loaded (R580). -/
def nextRecord (s : State) : State :=
  let n := getF s HS_RECCURL_NUML + getF s HS_RECCURH_NUMH * 2 ^ 32 + 1
  loadWindow (setF (setF s HS_RECCURL_NUML n) HS_RECCURH_NUMH (n / 2 ^ 32))

/-- A write to HS_RECPUT4 queues a firmware record, or it is refused (R585). -/
def putFirmware (s : State) : State :=
  let c := getF s HS_RECPUT0_CODE
  let p := fun i => (regWord s (HS_RECPUT i)).toNat
  match getF s HS_RECPUT0_CLASS with
  | 0 => put .info c p
  | 1 => put .warn c p
  | 2 => put .fault c p
  | 3 => put .fatal c p
  | 5 => put .firmware c p
  | _ => countF s HS_RECCNT_PUTREF 1
where
  /-- The record, where its code is a firmware code. It takes a token whatever its class. -/
  put (cls : RecClass) (c : Nat) (p : Nat → Nat) : State :=
    if c < 0x8000 then countF s HS_RECCNT_PUTREF 1
    else
      let t := recordTime s
      let r : Rec := { cls, code := c, tform := t.1, held := false, overpin := false, time := t.2,
                       p0 := BitVec.ofNat 32 (p 0), p1 := BitVec.ofNat 32 (p 1), p2 := BitVec.ofNat 32 (p 2),
                       p3 := BitVec.ofNat 32 (p 3) }
      let s := flushDrops s
      if s.recorder.dropped = 0 && ordinaryFits s then useToken (pushRecord s r) else dropRecord s

/-- A token each millisecond, up to 64 (R579). -/
def refillToken (s : State) : State :=
  flushDrops { s with recorder := { s.recorder with tokens := min 64 (s.recorder.tokens + 1) } }

end Sys2Proof.Machine
end

