-- ==== Sys2Proof/Machine/Hic.lean ====
section
/-! DEFINITION. The interrupt controller: edges, coalescing, offers, wake latches (R356 to R366); the timers and the event
network (R367, R372). -/

namespace Sys2Proof.Machine

/-- Core `n`. -/
def coreOf (s : State) (n : Nat) : Core := s.cores.toList.getD n (.reset 0)

/-- Replaces core `n`. -/
def setCore (s : State) (n : Nat) (c : Core) : State := { s with cores := s.cores.setIfInBounds n c }

/-- RUN of core `n` (R329). -/
def coreRun (s : State) (n : Nat) : Bool := bitAt (getF s HS_CORECTL_RUN) n

/-- Core `n` is in lockup. -/
def coreLocked (s : State) (n : Nat) : Bool := bitAt (getF s HS_CORESTAT_LOCKED) n

/-- IPL and IE of a status word (R316). -/
def srIpl (sr : Word) : Nat := bitsOf sr 3 0
/-- IE of a status word. -/
def srIe (sr : Word) : Bool := sr.getLsbD 4

/-! ### Edges and coalescing -/

/-- A source of an absent unit never becomes pending: the audio unit's, riser U1's and port T's, the twin supervisor's, and
among the wake sources U1's signal detector (R356, R437, R464, R538). -/
def sourcePresent (s : State) (n : Nat) : Bool :=
  if 160 ≤ n && n ≤ 191 then hasAudio s.variant
  else if n = 85 || n = 196 then portPresent s.variant 5
  else if n = 86 then portPresent s.variant 6
  else if n = 90 then hasTwin s.variant
  else true

/-- A pad wake takes an edge: EN, an edge of the kind that EDGE selects, and the pad's digital input there, so not in analogue mode
nor with its input buffer off (R555, R567). -/
def padWakes (s : State) (k : Nat) (rising : Bool) : Bool :=
  let p := getF s (PAD_WAKE_PAD k)
  let e := getF s (PAD_WAKE_EDGE k)
  flag s (PAD_WAKE_EN k) && padBonded s.variant p && !flag s (PAD_CFG_AMODE p) && flag s (PAD_CFG_INEN p) &&
    (e = 2 || (rising && e = 0) || (!rising && e = 1))

/-- The wake sources that an event gives: the others are reserved, and become pending only through HIC_FORCE (R356, R538). The WAKE
land gives one at a rising edge, SVC_WAKE at a falling one, a pad wake at the kind of edge it selects (R538, R555); the other
sources' events have no direction. -/
def wakeDefined (s : State) (w : Nat) (rising : Bool) : Bool :=
  (w ≤ 5 || (8 ≤ w && w ≤ 17)) && sourcePresent s (192 + w) && (w != 0 || rising) && (w != 1 || !rising) &&
    (w < 8 || 15 < w || padWakes s (w - 8) rising)

/-- Whether a source is pending. -/
def isPending (s : State) (n : Nat) : Bool := (regWord s (HIC_PEND (n / 32))).getLsbD (n % 32)

/-- Sets a source's pending bit; an edge on a pending source merges with it (R358). -/
def setPending (s : State) (n : Nat) : State :=
  if isPending s n then setF (countF s HIC_STAT_MERGED 1) HIC_STAT_LASTMERGE n
  else setRegWord s (HIC_PEND (n / 32)) (regWord s (HIC_PEND (n / 32)) ||| (1#32 <<< (n % 32)))

/-- Clears a source's pending bit. -/
def clearPending (s : State) (n : Nat) : State :=
  setRegWord s (HIC_PEND (n / 32)) (regWord s (HIC_PEND (n / 32)) &&& ~~~(1#32 <<< (n % 32)))

/-- Coalescing count of a source; 0x00 acts as 0x01 (R365). -/
def coalesceCount (s : State) (n : Nat) : Nat := max 1 (getF s (HIC_SRCCFG_CCOUNT n))

/-- Edges a source holds. -/
def heldEdges (s : State) (n : Nat) : Nat := sget s.hic.held 0 n

/-- Releases the held edges of a source: its pending bit is set once (R362). -/
def releaseEdges (s : State) (n : Nat) : State :=
  if heldEdges s n = 0 then s
  else setPending { s with hic := { s.hic with held := sput s.hic.held 0 n 0 } } n

/-- A source's time counts wall lines. -/
def countsLines (s : State) (n : Nat) : Bool := getF s (HIC_SRCCFG_CTIME n) != 0 && flag s (HIC_SRCCFG_CUNIT n)

/-- The held edges of a source are released where their count is reached, or at once where the time counts wall lines and there is
no beam (R362, R376). -/
def releaseReached (s : State) (n : Nat) : State :=
  if coalesceCount s n ≤ heldEdges s n || (countsLines s n && !beamRuns s) then releaseEdges s n else s

/-- Without a beam a wall-line time elapses at once: the edges that sources hold for one are released (R362, R376). -/
def releaseLineHolds (s : State) : State :=
  (List.range 256).foldl (fun s n =>
    if countsLines s n then releaseEdges s n else s) s

/-- An edge reaches a source: it is held where the source coalesces (R358, R362). -/
def hicEdge (s : State) (n : Nat) : State :=
  if !sourcePresent s n then s
  else if 1 < coalesceCount s n || getF s (HIC_SRCCFG_CTIME n) != 0 then
    releaseReached { s with hic := { s.hic with held := sput s.hic.held 0 n (heldEdges s n + 1) } } n
  else setPending s n

/-- The oldest edge on a source is taken in. -/
def takeEdge (s : State) (n : Nat) : State :=
  if s.hic.edges.contains n then hicEdge { s with hic := { s.hic with edges := s.hic.edges.erase n } } n else s

/-- CTIME has elapsed since the first held edge (R362). -/
def coalesceTimeout (s : State) (n : Nat) : State :=
  if getF s (HIC_SRCCFG_CTIME n) = 0 then s else releaseEdges s n

/-- A WAIT flush: the sources that name the core and hold edges are released, and are offered first to it (R363). -/
def waitFlush (s : State) (core : Nat) : State :=
  let ns := (List.range 256).filter fun n => bitAt (getF s (HIC_SRCCFG_TARGETS n)) core && heldEdges s n != 0
  let s := ns.foldl releaseEdges s
  { s with hic := { s.hic with flushed := s.hic.flushed ++ ns.map fun n => (n, core) } }

/-! ### Offers -/

/-- Whether a core could be offered a source at a priority level `ipl`, leaving IE aside (R360). -/
def namesCore (s : State) (n core ipl : Nat) : Bool :=
  bitAt (getF s (HIC_SRCCFG_TARGETS n)) core && coreRun s core && !coreLocked s core && ipl < getF s (HIC_SRCCFG_LEVEL n)

/-- Eligible (R360). -/
def eligible (s : State) (n core : Nat) : Bool :=
  srIe (coreOf s core).sr && namesCore s n core (srIpl (coreOf s core).sr)

/-- The order in which cores are considered for a source: the core a flush released it for, then those after the core that
last acknowledged it (R360, R363). -/
def offerOrder (s : State) (n : Nat) : List Nat :=
  let last := sget s.hic.lastAck 3 n
  (s.hic.flushed.filterMap fun p => if p.1 = n then some p.2 else none) ++ [1, 2, 3, 4].map fun i => (last + i) % 4

/-- Pending sources, highest level first and lowest number first among equals; level 0 is never offered (R359, R360). -/
def pendingByLevel (s : State) : List Nat :=
  ((List.range 15).map fun i => (List.range 256).filter fun n =>
    isPending s n && getF s (HIC_SRCCFG_LEVEL n) = 15 - i).flatten

/-- What each core is offered: a source goes to its first eligible core that has no offer of a source before it. -/
def offers (s : State) : List (Nat × Nat) :=
  (pendingByLevel s).foldl (fun l n =>
    match (offerOrder s n).find? fun c => eligible s n c && !l.any fun o => o.1 = c with
    | some c => l ++ [(c, n)]
    | none => l) []

/-- The source offered to a core. -/
def offerTo (s : State) (core : Nat) : Option Nat := ((offers s).find? fun o => o.1 = core).map (·.2)

/-- A pending source that exceeds the core's IPL, whatever IE holds (R344). -/
def aboveIpl (s : State) (core : Nat) : Bool :=
  (pendingByLevel s).any fun n => namesCore s n core (srIpl (coreOf s core).sr)

/-- The source is acknowledged by a core (R361). -/
def acknowledge (s : State) (n core : Nat) : State :=
  let s := clearPending s n
  { s with hic := { s.hic with lastAck := sput s.hic.lastAck 3 n core,
                               flushed := s.hic.flushed.filter fun p => p.1 != n } }

/-- HIC_COREc as it reads (R366). -/
def hicCoreWord (s : State) (core : Nat) : Word :=
  match offerTo s core with
  | some n => BitVec.ofNat 32 (2 ^ 31 + n * 65536 + getF s (HIC_SRCCFG_LEVEL n))
  | none => 0

/-- HIC_HELDw as it reads (R366). -/
def hicHeldWord (s : State) (w : Nat) : Word :=
  (List.range 32).foldl (fun x b => if heldEdges s (32 * w + b) != 0 then x ||| (1#32 <<< b) else x) 0

/-- A write of 1s to HIC_FORCEw: one edge on each source named (R366). -/
def hicForce (s : State) (w : Nat) (v : Word) : State :=
  (List.range 32).foldl (fun s b =>
    if v.getLsbD b then { s with hic := { s.hic with edges := s.hic.edges ++ [32 * w + b] } } else s) s

/-- An edge on a wake source: with the house clocks stopped an enabled latch catches it, otherwise it passes through (R364). -/
def wakeEdge (s : State) (w : Nat) (rising : Bool) : State := if wakeDefined s w rising then pulse s (192 + w) else s

/-- A write of 1s to HIC_PENDw has cleared pending bits: what a flush released of those sources has ended (R363, R366). -/
def pendCleared (s : State) : State :=
  { s with hic := { s.hic with flushed := s.hic.flushed.filter fun p => isPending s p.1 } }

/-- The house clocks run again: each set latch bit gives one edge (R364). -/
def clocksResume (s : State) : State :=
  let ws := (List.range 32).filter fun w => bitAt (getF s HIC_WAKELAT_LAT) w
  { s with hic := { s.hic with clocksStopped := false, edges := s.hic.edges ++ ws.map (192 + ·) } }

/-! ### The event network and the timers -/

/-- Channel `n` of the DMA engine. -/
def dmaCh (s : State) (n : Nat) : DmaCh := s.dma.toList.getD n .reset

/-- Replaces a channel. -/
def setDma (s : State) (n : Nat) (c : DmaCh) : State := { s with dma := s.dma.setIfInBounds n c }

/-- A field of a channel's current descriptor (R370). -/
def DmaCh.field (c : DmaCh) (word hi lo : Nat) : Nat := bitsOf (c.desc.getD word 0) hi lo

/-- A checked descriptor is loaded: until its completion is reported, also while its writes apply (R372, R374). -/
def DmaCh.loaded (c : DmaCh) : Bool :=
  c.phase = .moving || c.phase = .applying || c.phase = .writeback || c.phase = .written

/-- A trigger for the channels that pace on it: a credit, or one more lost where a channel holds 255 (R372). -/
def dmaTrigger (s : State) (pace : Nat) (isIt : DmaCh → Bool) : State :=
  (List.range 32).foldl (fun s n =>
    let c := dmaCh s n
    if c.loaded && c.field 0 11 9 = pace && isIt c then
      if c.credits < 255 then setDma s n { c with credits := c.credits + 1 } else countF s (DMA_CHSTAT_LOSTTRIG n) 1
    else s) s

/-- A pulse on event line `l`: 0 to 31 DMA completions, 32 to 39 timers; lines 40 to 43 pace nothing (R372). -/
def eventLine (s : State) (l : Nat) : State :=
  if l < 32 then dmaTrigger s 3 (fun c => c.field 0 19 15 = l)
  else if l < 40 then dmaTrigger s 1 (fun c => c.field 0 14 12 = l - 32)
  else s

/-- Sets what timer `n` has left. -/
def setTimer (s : State) (n left : Nat) : State := { s with timers := s.timers.setIfInBounds n left }

/-- A write of HS_TMRnCTL has stored its fields: EN written from 0 to 1 starts the timer with PER, EN = 0 stops it (R367). -/
def timerWritten (s : State) (n : Nat) (was : Bool) : State :=
  if !flag s (HS_TMRCTL_EN n) then setTimer s n 0
  else if was then s
  else setTimer s n (getF s (HS_TMRPER_PER n))

/-- A timer expires (R367): its pulse and edge; a ONESHOT timer stops, another counts PER anew. -/
def timerExpiry (s : State) (n : Nat) : State :=
  if flag s (HS_TMRCTL_EN n) then
    let s := if flag s (HS_TMRCTL_ONESHOT n) then setTimer (setF s (HS_TMRCTL_EN n) 0) n 0
      else setTimer s n (getF s (HS_TMRPER_PER n))
    pulse (eventLine s (32 + n)) (32 + n)
  else s

/-- One TCXO period of the timers; one that is due stays at 1 until TIMER_EXPIRY (log entry 13). -/
def timerTick (s : State) : State := { s with timers := s.timers.map fun t => if t ≤ 1 then t else t - 1 }

end Sys2Proof.Machine
end

