-- ==== Sys2Proof/Machine/Audio.lean ====
section
/-! DEFINITION. The audio unit: voices, bound gain, events on the beam, program streams, codec input and routing (R467 to
R493). -/

namespace Sys2Proof.Machine

/-- The unit is present and on (R1, R488). -/
def audioOn (s : State) : Bool := hasAudio s.variant && flag s AU_CTL_EN

/-- The unit runs: HIBERNATE stops it (R487). -/
def audioRuns (s : State) : Bool := audioOn s && getF s HS_PWRSTAT_STATE != 2

/-- The bridge source of the fetch agent, 0x3F (R472). -/
abbrev audioSrc : Src := .dma 31

/-- A voice that has never started. -/
def Voice.idle : Voice := { pos := 0, units := [] }

/-- Voice `v`. -/
def voiceOf (s : State) (v : Nat) : Voice := sget s.audio.voices .idle v

/-- Replaces voice `v`, and shows its position (R493). -/
def setVoice (s : State) (v : Nat) (x : Voice) : State :=
  setF { s with audio := { s.audio with voices := sput s.audio.voices .idle v x } } (AU_VPOS_POS v) (x.pos / 65536)

/-- A voice starts, or restarts, from 0 (R470). -/
def voiceStart (s : State) (v : Nat) : State := setVoice (setF s (AU_VCTL_RUN v) 1) v { voiceOf s v with pos := 0 }

/-- A voice stops without ending (R476). -/
def voiceStop (s : State) (v : Nat) : State := setF s (AU_VCTL_RUN v) 0

/-- A voice ends: its bit in AU_VENDw and VENDEV (R470). -/
def voiceEnd (s : State) (v : Nat) : State :=
  raiseEvent (orF (voiceStop s v) (AU_VEND_END (v / 32)) (2 ^ (v % 32))) 160 AU_STAT_VENDEV

/-! ### Sample formats -/

/-- IMA ADPCM step table (R471). -/
def imaSteps : List Nat :=
  [7, 8, 9, 10, 11, 12, 13, 14, 16, 17, 19, 21, 23, 25, 28, 31, 34, 37, 41, 45, 50, 55, 60, 66, 73, 80, 88, 97, 107, 118,
   130, 143, 157, 173, 190, 209, 230, 253, 279, 307, 337, 371, 408, 449, 494, 544, 598, 658, 724, 796, 876, 963, 1060,
   1166, 1282, 1411, 1552, 1707, 1878, 2066, 2272, 2499, 2749, 3024, 3327, 3660, 4026, 4428, 4871, 5358, 5894, 6484,
   7132, 7845, 8630, 9493, 10442, 11487, 12635, 13899, 15289, 16818, 18500, 20350, 22385, 24623, 27086, 29794, 32767]

/-- IMA ADPCM index table. -/
def imaIndex (code : Nat) : Int :=
  match code % 8 with
  | 4 => 2
  | 5 => 4
  | 6 => 6
  | 7 => 8
  | _ => -1

/-- One code: predictor and step index after it. -/
def imaStep (st : Int × Nat) (code : Nat) : Int × Nat :=
  let step := imaSteps.getD st.2 7
  let d := step / 8 + (if bitAt code 2 then step else 0) + (if bitAt code 1 then step / 2 else 0) +
    (if bitAt code 0 then step / 4 else 0)
  let p := clampInt (-32768) 32767 (if bitAt code 3 then st.1 - (d : Nat) else st.1 + (d : Nat))
  (p, (clampInt 0 88 ((st.2 : Int) + imaIndex code)).toNat)

/-- Sample `k` of an ADPCM block (R471). -/
def imaSample (block : List Byte) (k : Nat) : Int :=
  let start : Int × Nat := (signedOf 16 (leAt block 0 2), min 88 (leAt block 2 1))
  ((List.range (k + 1)).foldl (fun st i =>
    let b := (block.getD (4 + i / 2) 0).toNat
    imaStep st (if i % 2 = 0 then b % 16 else b / 16)) start).1

/-- The DRAM unit that holds source sample `k` of voice `v`, and the byte of the sample in it. -/
def sampleUnit (s : State) (v k : Nat) : Nat × Nat :=
  let start := getF s (AU_VSTART_START v)
  if getF s (AU_VCTL_FMT v) = 1 then ((start / 64 + k / 120) % 67108864, 0)
  else
    let a := (start / 2 * 2 + 2 * k) % 4294967296
    (a / 64, a % 64)

/-- Source sample `k` of a voice; none where its data has not arrived or is uncorrectable (R471, R472). -/
def sourceSample (s : State) (v k : Nat) : Option Int :=
  let u := sampleUnit s v k
  match ((voiceOf s v).units.find? fun e => e.1 = u.1).bind (·.2) with
  | none => none
  | some bs => some (if getF s (AU_VCTL_FMT v) = 1 then imaSample bs (k % 120) else signedOf 16 (leAt bs u.2 2))

/-- A unit of a voice's data has arrived, or is uncorrectable; the last eight units of each voice are kept (R472, log entry
88). -/
def keepUnit (s : State) (v u : Nat) (bs : Option (List Byte)) : State :=
  let x := voiceOf s v
  setVoice s v { x with units := ((u, bs) :: x.units.filter fun e => e.1 != u).take 8 }

/-- Takes the answers to the fetch agent's reads that have arrived (R38, R472). -/
def settleFetches (s : State) : State :=
  s.audio.asked.foldl (fun s e =>
    match takeAnswer s audioSrc (.dram (64 * e.2)) with
    | none => s
    | some (s, bs, failed) =>
      keepUnit { s with audio := { s.audio with asked := s.audio.asked.erase e } } e.1 e.2
        (if failed then none else some bs)) s

/-- Reads that the bridge has lost are no longer out: their samples starve until they are read again (R51, R487). -/
def forgetFetches (s : State) : State :=
  if readLost s audioSrc then { s with audio := { s.audio with asked := [] } } else s

/-- The fetch agent fetches the unit that holds sample `k` of a voice: it takes the answer where that has come, and else asks
for it with a read of source 0x3F through the bridge (R38, R472). -/
def voiceFetch (s : State) (v k : Nat) : State :=
  if !audioRuns s then s
  else
    let u := (sampleUnit s v k).1
    let asked := s.audio.asked.contains (v, u)
    let s := settleFetches s
    let come := asked && !s.audio.asked.contains (v, u)
    let s := forgetFetches s
    if come || bridgeDown s || stalledAtBridge s audioSrc || s.audio.asked.contains (v, u) then s
    else
      issueToScan { s with audio := { s.audio with asked := s.audio.asked ++ [(v, u)] } }
        (.readRequest audioSrc (.dram (64 * u)) 64)

/-! ### Bound gain -/

/-- Integer square root of a number below 2^44, bit by bit. -/
def isqrt (n : Nat) : Nat :=
  (List.range 22).foldl (fun r i => let t := r + 2 ^ (21 - i); if t * t ≤ n then t else r) 0

/-- Gain for a distance (R475). -/
def distanceGain (s : State) (d : Nat) : Nat :=
  let u := min 4095 (d >>> getF s AU_DIST_DSHIFT)
  let l := fun i => (getF s (AU_DLAW_LEVEL (min i 255)) : Int)
  (l (u / 16) + roundDiv ((l (u / 16 + 1) - l (u / 16)) * (u % 16 : Nat)) 16).toNat

/-- DGAIN of a voice (R473, R475); a free value where the module has no area (log entry 36). -/
def voiceGain (s : State) (v : Nat) : Nat :=
  if !flag s (AU_VCTL_BIND v) then 0x8000
  else
    match sget s.audio.bound none v, s.area with
    | none, _ => 0
    | some _, none => Config.freeNat v % 65536
    | some (cx, cy), some a =>
      let dx := cx - ((a.x0 + a.w / 2 : Nat) : Int)
      let dy := cy - ((a.y0 + a.h / 2 : Nat) : Int)
      distanceGain s (isqrt (dx * dx + dy * dy).toNat)

/-- The object that binds a voice in the binding table: the highest number (R474). -/
def boundCentre (s : State) (v : Nat) : Option (Int × Int) :=
  ((s.scene.binding.filter fun e => e.2.1 = v).getLast?).map (·.2.2)

/-- An accepted commit sends the rows that changed to the house die, as PWs of source 0x10; while the bridge is DOWN they wait
(R474, R487). -/
def sendBindings (s : State) (frame : Word) : State :=
  (List.range 256).foldl (fun s v =>
    let c := boundCentre s v
    if sget s.audio.sentRows none v = c then s
    else
      sendOrHold { s with audio := { s.audio with sentRows := sput s.audio.sentRows none v c } } (.binding frame v c)) s

/-- A row that has come is to be applied now: the presentation start of its frame is reached (R474). -/
def rowDue (s : State) (r : BindRow) : Bool :=
  match s.area with
  | none => true
  | some a => !beamRuns s || beamReached s r.frame (presentationFracs s a 0)

/-- Rows take effect at a sample. -/
def applyRows (s : State) : State :=
  let due := s.audio.rows.filter fun r => rowDue s r
  let bound := due.foldl (fun m r => sput m none r.voice r.centre) s.audio.bound
  { s with audio := { s.audio with rows := s.audio.rows.filter fun r => !rowDue s r, bound := bound } }

/-! ### Events -/

/-- EVDEPTH follows the queue (R489). -/
def noteEvents (s : State) : State := setF s AU_STAT_EVDEPTH s.audio.events.length

/-- A write to AU_EVCMD pushes an event (R476). -/
def eventPush (s : State) (w : Word) : State :=
  if !hasAudio s.variant then s
  else if 512 ≤ s.audio.events.length then raiseEvent s 161 AU_STAT_EVFULL
  else
    let e : VoiceEvent := { frame := BitVec.ofNat 8 (getF s AU_EVPOS_FRAME), line := BitVec.ofNat 17 (getF s AU_EVPOS_LINE),
                            op := BitVec.ofNat 4 (bitsOf w 11 8), voice := BitVec.ofNat 8 (bitsOf w 7 0),
                            value := regWord s AU_EVVAL }
    noteEvents { s with audio := { s.audio with events := s.audio.events ++ [e] } }

/-- How many frames an event lies ahead, within ±128 (R477). -/
def eventAhead (s : State) (e : VoiceEvent) : Int := (e.frame - s.beam.frame.setWidth 8).toInt

/-- The event that waits at the head becomes due as the beam reaches its position, at once where it is late; a reserved
operation is discarded there (R476, R477). -/
def eventDue (s : State) : State :=
  match if audioRuns s then s.audio.events[s.audio.due]? else none with
  | none => s
  | some e =>
    if 7 ≤ e.op.toNat then
      let es := s.audio.events.eraseIdx s.audio.due
      raiseEvent (countF (noteEvents { s with audio := { s.audio with events := es } }) AU_CNT_BADEV 1) 161 AU_STAT_BADEVEV
    else if !beamRuns s then s
    else if eventAhead s e < 0 then
      let s := { s with audio := { s.audio with due := s.audio.due + 1 } }
      raiseEvent (countF s AU_CNT_EVLATE 1) 161 AU_STAT_EVLATEEV
    else if eventAhead s e = 0 && e.line.toNat < frameLines s then
      let s := beamAdvanceTo s s.beam.frame (e.line.toNat * 256 : Nat)
      { s with audio := { s.audio with due := s.audio.due + 1 } }
    else s

/-- Sets a selection, where its code is listed (R481). -/
def setSelection (s : State) (f : Fld) (x : Nat) : State :=
  if allowed s.variant .audioSel x then setF s f x else countReserved s

/-- Executes an event (R476). -/
def executeEvent (s : State) (e : VoiceEvent) : State :=
  let v := e.voice.toNat
  let x := e.value
  match e.op.toNat with
  | 0 => voiceStart s v
  | 1 => voiceStop s v
  | 2 => setF s (AU_VGAIN_VGAIN v) (bitsOf x 15 0)
  | 3 => setF s (AU_VSTEP_STEP v) (bitsOf x 23 0)
  | 4 => setF s (AU_VSTART_START v) x.toNat
  | 5 => setF s (AU_VCTL_BUS v) (bitsOf x 1 0)
  | _ => setSelection (setSelection s (AU_OUT_SELA (bitsOf x 2 0)) (bitsOf x 12 8)) (AU_OUT_SELB (bitsOf x 2 0)) (bitsOf x 20 16)

/-- The due events execute in queue order at a sample (R478). -/
def executeDue (s : State) : State :=
  let es := s.audio.events.take s.audio.due
  let s := { s with audio := { s.audio with events := s.audio.events.drop s.audio.due, due := 0 } }
  noteEvents (es.foldl executeEvent s)

/-! ### Voices at a sample -/

/-- A voice loops (R470). -/
def voiceLoops (s : State) (v : Nat) : Bool := flag s (AU_VCTL_LOOP v) && getF s (AU_VLOOP_LOOPST v) < getF s (AU_VLEN_LEN v)

/-- The load at which no sample is starved: the bridge is UP8 and the steps of the playing voices add up to at most 256 (R472). -/
def fetchKeepsUp (s : State) : Bool :=
  bridgeState s = brUp8 &&
    (((List.range 256).filter fun v => flag s (AU_VCTL_RUN v)).map fun v => getF s (AU_VSTEP_STEP v)).sum ≤ 256 * 65536

/-- At that load the agent has fetched every unit before it is needed; one that no VOICE_FETCH has brought comes with its use
(R472, log entry 88). -/
def fetchAhead (s : State) (v k : Nat) : State :=
  let u := (sampleUnit s v k).1
  if !fetchKeepsUp s || ((voiceOf s v).units.any fun e => e.1 = u) then s
  else
    keepUnit (touchUnits s [u] (srcId audioSrc)) v u (if unitBad s u then none else some (dramBytes s (64 * u) 64))

/-- A sample is starved: it is delivered as 0 and counted (R472). -/
def starve (s : State) : State × Int := (raiseEvent (countF s AU_CNT_STARVE 1) 164 AU_STAT_STARVEEV, 0)

/-- A sample as delivered; with the bridge DOWN every voice starves (R472, R487). -/
def fetchedSample (s : State) (v k : Nat) : State × Int :=
  if bridgeDown s then starve s
  else
    let s := fetchAhead s v k
    match sourceSample s v k with
    | some x => (s, x)
    | none => starve s

/-- What a playing voice delivers at its position (R470). -/
def voiceValue (s : State) (v : Nat) : State × Int :=
  let p := (voiceOf s v).pos
  let k := p / 65536
  let len := getF s (AU_VLEN_LEN v)
  let a := fetchedSample s v k
  let b := if k + 1 = len then
      if voiceLoops s v then fetchedSample a.1 v (getF s (AU_VLOOP_LOOPST v)) else (a.1, 0)
    else fetchedSample a.1 v (k + 1)
  (b.1, a.2 + (b.2 - a.2) * (p % 65536 : Nat) / 65536)

/-- The position after a sample, and whether the voice plays on (R470). -/
def nextPos (s : State) (v : Nat) : Nat × Bool :=
  let p := (voiceOf s v).pos + getF s (AU_VSTEP_STEP v)
  let len := getF s (AU_VLEN_LEN v)
  if p < len * 65536 then (p, true)
  else if voiceLoops s v then
    let span := (len - getF s (AU_VLOOP_LOOPST v)) * 65536
    (p - span * ((p - len * 65536) / span + 1), true)
  else (p, false)

/-- One playing voice at a sample: it advances, and answers its bus and contribution (R470, R473). -/
def voiceSample (s : State) (v : Nat) : State × Nat × Int :=
  let bus := getF s (AU_VCTL_BUS v)
  if getF s (AU_VLEN_LEN v) = 0 then (voiceEnd s v, bus, 0)
  else
    let r := voiceValue s v
    let g : Int := ((getF s (AU_VGAIN_VGAIN v) * getF s (AU_VDG_DGAIN v)) / 32768 : Nat)
    let c := r.2 * g / 128
    let p := nextPos s v
    let t := setVoice r.1 v { voiceOf r.1 v with pos := p.1 }
    (if p.2 then t else voiceEnd t v, bus, c)

/-- The 24-bit range of buses and outputs. -/
def clamp24 (x : Int) : Int := clampInt (-8388608) 8388607 x

/-- DGAIN of every voice as it reads (R475). -/
def noteGains (s : State) : State :=
  (List.range 256).foldl (fun s v =>
    if getF s (AU_VDG_DGAIN v) = voiceGain s v then s else setF s (AU_VDG_DGAIN v) (voiceGain s v)) s

/-- All playing voices at a sample: the four buses, before their clamp. -/
def voicesSample (s : State) : State × List (Nat × Int) :=
  ((List.range 256).filter fun v => flag s (AU_VCTL_RUN v)).foldl (fun r v =>
    let x := voiceSample r.1 v
    (x.1, r.2 ++ [x.2])) (s, [])

/-- Sum of a bus (R481). -/
def busSum (cs : List (Nat × Int)) (b : Nat) : Int := clamp24 ((cs.filter fun c => c.1 = b).map (·.2)).sum

/-! ### Routing -/

/-- D48 samples of a program stream (0 to 7) or codec channel (8, 9), newest first. -/
def audioHistory (s : State) (n : Nat) : List Int := sget s.audio.history [] n

/-- Adds a D48 sample; the converter sees the last 64. -/
def pushHistory (s : State) (n : Nat) (x : Int) : State :=
  { s with audio := { s.audio with history := sput s.audio.history [] n ((x :: audioHistory s n).take 64) } }

/-- The converter's delay in D96 samples (R469). -/
def converterDelay (s : State) : Nat := if flag s AU_CTL_CODECM then 24 else 24 + Config.converterLag % 3

/-- What the D48-to-D96 converter delivers for an input now (R469): it interpolates by 2, so that input sample `i`, newest first, is
`phase + 2 i` D96 samples old, and weighs it by its distance from the delay. DEDUCED (log entry 88): one delay for every
frequency means coefficients that are symmetric about it. -/
def converted (s : State) (n : Nat) : Int :=
  if !flag s AU_STAT_BRLOCK then 0
  else
    let d := converterDelay s
    let terms := (audioHistory s n).zipIdx.filterMap fun e =>
      let age := s.audio.phase + 2 * e.2
      if age ≤ 2 * d then some (Config.converterTap (max age d - min age d) * e.1) else none
    clamp24 (terms.sum / 8388608)

/-- A quarter period of the test tone, in steps of 1/96 period: 838,860.7 × sin, to the nearest; −20 dB below 2²³ − 1 (R481). -/
def toneQuarter : List Int :=
  [0, 54864, 109493, 163654, 217113, 269643, 321018, 371019, 419430, 466046, 510666, 553099, 593164, 630689, 665513, 697487,
   726475, 752351, 775006, 794342, 810277, 822742, 831684, 837065, 838861]

/-- The test tone: a sine of 96 D96 samples (R481). -/
def testTone (n : Nat) : Int :=
  let k := n % 96
  let h := k % 48
  let x := toneQuarter.getD (if h ≤ 24 then h else 48 - h) 0
  if k < 48 then x else -x

/-- A selection of R481, given the buses. -/
def selected (s : State) (cs : List (Nat × Int)) (code : Nat) : Int :=
  if 1 ≤ code && code ≤ 4 then busSum cs (code - 1)
  else if 8 ≤ code && code ≤ 0xF then converted s (code - 8)
  else if code = 0x10 || code = 0x11 then converted s (code - 8)
  else if code = 0x18 then testTone s.audio.samples
  else 0

/-- The stool path of codec channel `i` (R483). -/
def stool (s : State) (i : Nat) : Int := if flag s AU_CTL_CODECM then (audioHistory s (8 + i)).headD 0 else converted s (8 + i)

/-- Output channel `n` (R482). -/
def outputOf (s : State) (cs : List (Nat × Int)) (n : Nat) : Int :=
  let mix := selected s cs (getF s (AU_OUT_SELA n)) * (getF s (AU_OUTG_GAINA n) : Int) / 32768 +
    selected s cs (getF s (AU_OUT_SELB n)) * (getF s (AU_OUTG_GAINB n) : Int) / 32768
  if flag s (AU_OUT_MUTE n) then 0
  else
    match getF s (AU_OUT_STOOL n) with
    | 0 => clamp24 mix
    | 1 => clamp24 (mix + stool s 0)
    | 2 => clamp24 (mix + stool s 1)
    | _ => clamp24 (stool s 0)

/-- Beam lock of D96 is possible (R468). -/
def d96Locks (s : State) : Bool :=
  let ns := getF s AU_D96NS_NS
  let p := framePeriod s * 25
  beamRuns s && p != 0 && 95000 * p ≤ ns * 256000000000 && ns * 256000000000 ≤ 97000 * p

/-- D96 falls back to the TCXO where the conditions of beam lock fail, with CLKEV as they come to fail while lock is asked for
(R468). -/
def d96Check (s : State) : State :=
  let bad := audioOn s && flag s AU_CTL_D96SRC && !d96Locks s
  let t := { s with audio := { s.audio with clockBad := bad } }
  let t := if bad || !flag s AU_CTL_D96SRC then setF t AU_STAT_D96LOCK 0 else t
  if bad && !s.audio.clockBad then raiseEvent t 163 AU_STAT_CLKEV else t

/-- The next sample is sample 0 of the frame at hand. -/
def sampleZero (s : State) : State :=
  { s with audio := { s.audio with sampleFrame := s.beam.frame, sampleIndex := 0 } }

/-- At a frame start D96 is locked again where both conditions hold, and sample 0 follows; a counter that has moved to another frame
takes the samples with it (R468). -/
def d96Frame (s : State) : State :=
  let s := d96Check s
  if !audioOn s || !flag s AU_CTL_D96SRC || !d96Locks s then s
  else if !flag s AU_STAT_D96LOCK then sampleZero (setF s AU_STAT_D96LOCK 1)
  else if (frameDiff s.audio.sampleFrame s.beam.frame).natAbs ≤ 1 then s
  else sampleZero s

/-- The next sample of a locked D96: sample n of frame F falls at beam(F, 0) + n × Tf ÷ NS, and the beam is at least there (R468). -/
def lockedSample (s : State) : State :=
  if !flag s AU_STAT_D96LOCK then s
  else
    let ns := getF s AU_D96NS_NS
    let a := s.audio
    let s := beamAdvanceTo s a.sampleFrame (a.sampleIndex * frameFracs s / ns : Nat)
    let last := ns ≤ a.sampleIndex + 1
    { s with audio := { s.audio with sampleFrame := if last then a.sampleFrame + 1 else a.sampleFrame,
                                     sampleIndex := if last then 0 else a.sampleIndex + 1 } }

/-- An LRCK that stays away, from the start or from some time on: later than three D96 samples lies outside ±1,000 ppm (R469). -/
def lrckLost (s : State) : State :=
  if flag s AU_CTL_CODECM then { s with audio := { s.audio with lrckBad := false } }
  else if 3 < s.audio.phase && !s.audio.lrckBad then
    raiseEvent (setF { s with audio := { s.audio with lrckBad := true } } AU_STAT_BRLOCK 0) 163 AU_STAT_UNLOCKEV
  else s

/-- AUDIO_SAMPLE: due events, bindings, voices, buses and outputs of one D96 sample (R470 to R485). -/
def audioSample (s : State) : State :=
  if !audioRuns s then s
  else
    let s := lrckLost (lockedSample (d96Check (settleFetches s)))
    let s := noteGains (applyRows (executeDue s))
    let r := voicesSample s
    let out := (List.range 8).map fun n => outputOf r.1 r.2 n
    let s := { r.1 with audio := { r.1.audio with
      out := Vector.ofFn fun n => out.getD n.val 0, phase := r.1.audio.phase + 1, samples := r.1.audio.samples + 1 } }
    if flag s AU_CTL_TDMEN then
      (List.range 4).foldl (fun s k => emit s (.audio k (out.getD (2 * k) 0) (out.getD (2 * k + 1) 0))) s
    else s

/-- A program stream reads one ring word (R479). -/
def streamSample (s : State) (n : Nat) : State :=
  let size := getF s (AU_STRS_SIZE n)
  let rp := getF s (AU_STRP_RP n)
  if size = 0 then pushHistory s n 0
  else if rp = getF s (AU_STRW_WP n) then
    pushHistory (raiseEvent (countF s AU_CNT_UNDER 1) 162 AU_STAT_UNDEREV) n 0
  else
    let a := getF s (AU_STRB_BASE n) + rp
    let r := if a < 524288 then sramLoad s 0 a else (s, none)
    let x := match r.2 with
      | some w => if tagOf w = 0xF then 0 else signedOf 24 (payload w).toNat
      | none => 0
    setF (pushHistory r.1 n x) (AU_STRP_RP n) ((rp + 1) % size)

/-- D48_SAMPLE: every program stream delivers a sample; with the module driving the codec clocks the converter is locked
(R469, R479). -/
def d48Sample (s : State) : State :=
  if !audioRuns s then s
  else
    let s := if flag s AU_CTL_CODECM then setF s AU_STAT_BRLOCK 1 else s
    (List.range 8).foldl streamSample { s with audio := { s.audio with phase := 0 } }

/-- CODEC_FRAME: an input frame ends at an LRCK edge (R469, R480); `near` says that the LRCK lies within ±1,000 ppm. -/
def codecFrame (s : State) (left right : BitVec 24) (near : Bool) : State :=
  if !audioRuns s || !flag s AU_CTL_I2SEN then s
  else
    let s := if flag s AU_CTL_CODECM then s
      else if near then setF { s with audio := { s.audio with lrckBad := false } } AU_STAT_BRLOCK 1
      else
        let t := setF { s with audio := { s.audio with lrckBad := true } } AU_STAT_BRLOCK 0
        if s.audio.lrckBad then t else raiseEvent t 163 AU_STAT_UNLOCKEV
    pushHistory (pushHistory s 8 left.toInt) 9 right.toInt

/-- A write of AU_STRnS sets RP to WP (R492). -/
def streamSize (s : State) (n : Nat) : State := setF s (AU_STRP_RP n) (getF s (AU_STRW_WP n))

/-- RUN of AU_VvCTL as written: 1 starts the voice, 0 stops it (R493). -/
def voiceControl (s : State) (v : Nat) : State := if flag s (AU_VCTL_RUN v) then voiceStart s v else voiceStop s v

/-- A write of AU_CTL: a count clear, and the check of a beam lock that is asked for (R468, R488). -/
def audioControl (s : State) (w : Word) : State :=
  d96Check (if w.getLsbD 31 then setRegWord s AU_CNT 0 else s)

end Sys2Proof.Machine
end

