-- ==== Sys2Proof/Machine/Drive.lean ====
section
/-! DEFINITION. The plane generators and the twin interlock: refresh cycles, row slots, plane slots, lanes, the checks of RUN,
and the ownership of the harness (R235 to R257). -/

namespace Sys2Proof.Machine

/-! ### Times -/

/-- P, the planes (R235). -/
def planeCount (s : State) : Nat := getF s SC_PGCFG_PM1 + 1

/-- Row slots in a frame, NREF × MUX. -/
def rowSlots (s : State) : Nat := refreshes s * muxRows s

/-- t_p in 2.5 ns steps (R237, R238): Tf is SC_BEAMPER × 10 ÷ 256 steps. -/
def planeSlot (s : State) : Nat :=
  (framePeriod s * 10 - getF s SC_PGTIME_RDEAD * 256 * rowSlots s) / (256 * rowSlots s * planeCount s)

/-- SC_PGSLOT.TP (R259). -/
def planeSlotReported (s : State) : Nat := min (planeSlot s) 0xFFFFFF

/-! ### Codes -/

/-- The dither matrix of R235. -/
def bayer (row col : Nat) : Nat :=
  ([0, 8, 2, 10, 12, 4, 14, 6, 3, 11, 1, 9, 15, 7, 13, 5] : List Nat).getD (row % 4 * 4 + col % 4) 0

/-- The code of a channel value at a column and line, for refresh cycle `j` of frame `f` (R235). -/
def planeCode (v gain d p x l f j nref : Nat) : Nat :=
  let q := v * (gain + 1) / 2 ^ 12
  let c := q / 2 ^ (20 - p - d)
  let r := c % 2 ^ d
  let c := c / 2 ^ d
  let k := (f * nref + j) % 16
  let t := bayer (l + k / 4) (x + k) / 2 ^ (4 - d)
  if t < r && c < 2 ^ p - 1 then c + 1 else c

/-- OE steps of plane `b` in refresh cycle `j` of frame `f` (R240). -/
def oePulse (p lit b f j nref : Nat) : Nat :=
  let m := p - 1
  let h := if 0 < m then 2 ^ (m - 1) else 0
  let a := lit * 2 ^ b
  let u := ((f * nref + j) * a + h) % 2 ^ m
  (u + a) / 2 ^ m

/-! ### Lanes -/

/-- Function codes of SC_DPCFGn.FUNC (R243). -/
abbrev fnData : Nat := 2
abbrev fnClk : Nat := 3
abbrev fnLat : Nat := 4
abbrev fnOe : Nat := 5
abbrev fnRow : Nat := 6

/-- FUNC of a drive port. -/
def portFunc (s : State) (n : Nat) : Nat := getF s (SC_DPCFG_FUNC n)

/-- The drive ports of region `k`. -/
def regionPorts (k : Nat) : List Nat := (List.range 128).map (128 * k + ·)

/-- The bonded DATA ports of region `k`. -/
def dataPorts (s : State) (k : Nat) : List Nat :=
  (regionPorts k).filter fun n => padBonded s.variant n && portFunc s n = fnData

/-- The channels that a lane carries, R first (R246). -/
def laneChannels (s : State) (n : Nat) : List Nat := (List.range 4).filter fun c => bitAt (getF s (SC_LANEA_CHMASK n)) c

/-- bits_row of a lane (R246). -/
def laneBits (s : State) (n : Nat) : Nat :=
  (getF s (SC_LANEA_LWM1 n) + 1) * (getF s (SC_LANEB_LBLKM1 n) + 1) * (laneChannels s n).length + getF s (SC_LANEB_SKIP n)

/-- The bit of a chain position: block `q`, position `i`, channel index `ci`; 0 outside the raster and for W without CH4
(R246, R247). -/
def laneBit (s : State) (n : Nat) (code : Nat → Nat → Nat → Nat) (row plane q i ci : Nat) : Bool :=
  let lw := getF s (SC_LANEA_LWM1 n) + 1
  let k := n / 128
  let i := if flag s (SC_LANEA_XREV n) then lw - 1 - i else i
  let xx := if flag s (SC_LANEA_SERP n) && q % 2 = 1 then lw - 1 - i else i
  let chs := laneChannels s n
  let ch := chs.getD (if flag s (SC_LANEA_CHREV n) then chs.length - 1 - ci else ci) 0
  let col := getF s (SC_LANEA_LX0 n) + xx
  let line := getF s (SC_LANEA_LY0 n) + q * muxRows s + row
  let h := (s.area.map (·.h)).getD 0
  if bandWidth s k ≤ col || h ≤ line || (ch = 3 && !flag s SC_PGCTL_CH4) then false
  else bitAt (code (256 * k + col) line ch) plane

/-- The bits that a lane shifts for a plane of a row, first shifted first: SKIP zeros, then the chain positions in descending
order (R246). -/
def laneShift (s : State) (n : Nat) (code : Nat → Nat → Nat → Nat) (row plane : Nat) : List Bool :=
  let lw := getF s (SC_LANEA_LWM1 n) + 1
  let chain := (List.range (getF s (SC_LANEB_LBLKM1 n) + 1)).flatMap fun q => (List.range lw).flatMap fun i =>
    (List.range (laneChannels s n).length).map fun ci => laneBit s n code row plane q i ci
  List.replicate (getF s (SC_LANEB_SKIP n)) false ++ chain.reverse

/-- Regions whose RUN bit is set. -/
def runMask (s : State) : Nat := getF s SC_PGCTL_RUN

/-- The regions that run, generating or to start at the next refresh cycle. -/
def runRegions (s : State) : List Nat := (List.range (regionsInUse s)).filter fun k => bitAt (runMask s) k

/-- What every DATA port shifts for a plane of a row, of a region in use: one that starts with the next cycle has its first plane
shifted before (R239). What a dark region's port shows is `portSignal`'s to say. -/
def shiftAll (s : State) (code : Nat → Nat → Nat → Nat) (row plane : Nat) : List (Nat × List Bool) :=
  (List.range (regionsInUse s)).flatMap fun k => (dataPorts s k).map fun n => (n, laneShift s n code row plane)

/-- Module lines of a scan row in the lanes of some regions (R241). -/
def rowLines (s : State) (regions : List Nat) (row : Nat) : List Nat :=
  (regions.flatMap fun k => (dataPorts s k).flatMap fun n =>
    (List.range (getF s (SC_LANEB_LBLKM1 n) + 1)).map fun q => getF s (SC_LANEA_LY0 n) + q * muxRows s + row).eraseDups.filter
      fun l => l < (s.area.map (·.h)).getD 0

/-- Key of a word of a row's image. -/
def imageKey (line col ch : Nat) : Nat := (line * 1024 + col) * 4 + ch

/-- The codes of a scan row, formed as its words are read from the banks given: for cycle `j` of frame `f` with a gain and
dither bits (R235, R241). It is formed for every region in use: one whose RUN bit rises after the read starts with the next cycle
and shows its first row too. -/
def readRow (s : State) (bank : Nat → Bool) (row gain d f j : Nat) : SMap (BitVec 16) :=
  let w := (s.area.map (·.w)).getD 0
  (rowLines s (List.range (regionsInUse s)) row).foldl (fun m l => (List.range w).foldl (fun m x => (List.range 4).foldl (fun m ch =>
    let v := (storeWord s (bank l) l x ch).toNat
    sput m 0 (imageKey l x ch) (BitVec.ofNat 16 (planeCode v gain d (planeCount s) x l f j (refreshes s)))) m) m) []

/-- Reading the words of a scan row for the regions that run corrects or notes their errors (R379, R382, R383). -/
def noteRow (s : State) (bank : Nat → Bool) (row : Nat) : State :=
  let w := (s.area.map (·.w)).getD 0
  ((rowLines s (runRegions s) row).flatMap fun l => (List.range w).map fun x => (l, x)).foldl
    (fun s p => readStore s (bank p.1) p.1 p.2 0x54) s

/-- The code of a pixel of a row's image. -/
def imageCode (img : SMap (BitVec 16)) (x l ch : Nat) : Nat := (sget img 0 (imageKey l x ch)).toNat

/-! ### Interlock -/

/-- Interlock states of SC_OWNSTAT.STATE (R263). -/
abbrev ownReleased : Nat := 0
abbrev ownWaiting : Nat := 1
abbrev ownClaiming : Nat := 2
abbrev ownHolding : Nat := 3
abbrev ownContested : Nat := 4

/-- The interlock's state. -/
def ownState (s : State) : Nat := getF s SC_OWNSTAT_STATE

/-- OWN_B is high. -/
def ownB (s : State) : Bool := flag s SC_OWNSTAT_PARTNER

/-- Drives OWN_A. -/
def setOwnA (s : State) (b : Bool) : State := { s with drive := { s.drive with ownA := b } }

/-- WAITING to CLAIMING: OWN_A high. -/
def startClaim (s : State) : State :=
  let s := setF s SC_OWNSTAT_STATE ownClaiming
  setOwnA { s with drive := { s.drive with withdrawn := none, withdrawnHigh := false } } true

/-- CLAIM = 1 in RELEASED: WAITING, and on to CLAIMING while OWN_B is low. -/
def claimHarness (s : State) : State :=
  let s := setF s SC_OWNSTAT_STATE ownWaiting
  let s := { s with drive := { s.drive with withdrawn := none, withdrawnHigh := false } }
  if ownB s then s else startClaim s

/-- The former active of a graceful handover sets its own CLAIM once it has released and OWN_B is high (R447). -/
def rearms (s : State) : Bool := s.twin.rearm && ownB s

/-- The release is complete: ports tri-stated, OWN_A low, RELEASED. A boundary release clears CLAIM here, and a module that it
fails is FAILED; a CLAIM that is set again waits anew (R253, R447, R456). -/
def released (s : State) : State :=
  let s := setF (setF s SC_OWNSTAT_DRIVING 0) SC_OWNSTAT_STATE ownReleased
  let s := if s.drive.clearsClaim then setF s SC_OWNCTL_CLAIM 0 else s
  let s := setOwnA { s with drive := { s.drive with
    releaseAtSlot := false, clearsClaim := false, withdrawn := none, withdrawnHigh := false } } false
  let s := { s with twin := { s.twin with failed := s.twin.failed || s.twin.failAtRelease, failAtRelease := false } }
  let s := if rearms s then setF { s with twin := { s.twin with rearm := false } } SC_OWNCTL_CLAIM 1 else s
  if flag s SC_OWNCTL_CLAIM then claimHarness s else s

/-- Some region is running: it generates, or is to start with the next refresh cycle. -/
def anyRunning (s : State) : Bool := getF s SC_PGSTAT_ACTIVE != 0 || runMask s != 0

/-- A release at the next plane slot boundary, or at once where the ports are not driven, no region is running, or the beam is OFF
or in ACQUIRE and the plane generator holds its timing, so that no boundary comes (R251, R253, R456; log entry 113). -/
def releaseAtBoundary (s : State) : State :=
  if flag s SC_OWNSTAT_DRIVING && anyRunning s && beamRuns s then
    { s with drive := { s.drive with releaseAtSlot := true } }
  else released s

/-- A boundary release, which the hardware starts: CLAIM is cleared as the ports are tri-stated (R456). -/
def boundaryRelease (s : State) : State :=
  releaseAtBoundary { s with drive := { s.drive with clearsClaim := true } }

/-- A write of SC_OWNCTL has stored CLAIM: what the interlock does (R253). A FAILED module ignores a write of 1 (R447). -/
def claimWritten (s : State) : State :=
  if s.twin.failed && flag s SC_OWNCTL_CLAIM then setF s SC_OWNCTL_CLAIM 0
  else if flag s SC_OWNCTL_CLAIM then
    if ownState s = ownReleased then claimHarness s else s
  else releaseAtBoundary s

/-- The ports are driven, in HOLDING while OWN_B is low (R254). -/
def driveIfHolding (s : State) : State :=
  if ownState s = ownHolding && !ownB s && !s.drive.releaseAtSlot then setF s SC_OWNSTAT_DRIVING 1 else s

/-- OWN_B has been low for TARB: HOLDING, driven from the next plane slot boundary; at once while the timing is held and none
comes (R251, R253, R263; log entry 113). True where HOLDING is entered. -/
def tarbExpiry (s : State) : State × Bool :=
  if (ownState s = ownClaiming || ownState s = ownContested) && !ownB s && !s.drive.releaseAtSlot then
    let s := raiseEvent (setF s SC_OWNSTAT_STATE ownHolding) 61 SC_OWNSTAT_TAKEEV
    (if beamRuns s then s else driveIfHolding s, true)
  else (s, false)

/-- After a graceful handover the former active sets its own CLAIM once OWN_B is high (R447). -/
def rearm (s : State) : State :=
  if rearms s && ownState s = ownReleased then
    claimHarness (setF { s with twin := { s.twin with rearm := false } } SC_OWNCTL_CLAIM 1)
  else s

/-- A plane slot boundary: a pending release is carried out, or a harness that is held is driven (R253). -/
def slotBoundary (s : State) : State := if s.drive.releaseAtSlot then released s else driveIfHolding s

/-- The beam stops: no region generates any more, and as the timing is held nothing waits for a plane slot boundary (R251, R253,
R259; log entry 113). -/
def beamDark (s : State) : State := slotBoundary (setF s SC_PGSTAT_ACTIVE 0)

/-- Where no region is running any more, a release that waits is carried out at once (R456). -/
def settleRelease (s : State) : State := if s.drive.releaseAtSlot && !anyRunning s then released s else s

/-- Regions out of use are held in reset: they neither run nor generate (R27; log entry 53). -/
def holdUnusedRegions (s : State) : State :=
  let m := 2 ^ regionsInUse s - 1
  let s := setF s SC_PGCTL_RUN (runMask s &&& m)
  settleRelease (setF s SC_PGSTAT_ACTIVE (getF s SC_PGSTAT_ACTIVE &&& m))

/-- OWN_B takes a level (R253, R254). In HOLDING a high level tri-states the ports also while a release waits for its plane slot
boundary, and the release is then complete, as nothing is driven. -/
def ownBChange (s : State) (high : Bool) : State :=
  let s := setF s SC_OWNSTAT_PARTNER (b2n high)
  let s := if high then rearm s else s
  if ownState s = ownWaiting then
    if high then { s with drive := { s.drive with withdrawnHigh := true } }
    else if (match s.drive.withdrawn with
        | none => true
        | some t => s.drive.withdrawnHigh || t != s.now) then startClaim s
    else s
  else if ownState s = ownClaiming && high then
    let s := raiseEvent s 61 SC_OWNSTAT_TIEEV
    if flag s SC_OWNCTL_TIEWIN then s
    else
      let s := setOwnA (setF s SC_OWNSTAT_STATE ownWaiting) false
      { s with drive := { s.drive with withdrawn := some s.now, withdrawnHigh := false } }
  else if ownState s = ownHolding && high then
    let s := setF (setF s SC_OWNSTAT_STATE ownContested) SC_OWNSTAT_DRIVING 0
    let s := raiseEvent s 61 SC_OWNSTAT_DUALEV
    let s := recordScan s .fault 0x4001 (regWord s SC_OWNSTAT).toNat 0 0 0
    if s.drive.releaseAtSlot then released s else s
  else s

/-! ### Refresh cycles, row slots, plane slots -/

/-- The beam is FREE and FREEACT makes the module run as DARK while RUN is requested (R78, R536). -/
def freeDark (s : State) : Bool :=
  beamState s = bmFree && getF s SC_BEAMCTL_FREEACT % 2 = 1 && getF s HS_PWRCTL_REQ = 0

/-- A state other than RUN is requested, or the module runs as DARK, the egress layer left aside (R534 to R536, R565). -/
def runsDark (s : State) : Bool := getF s HS_PWRCTL_REQ != 0 || freeDark s || flag s HS_THERM_TDARK

/-- No emission: an active egress layer holds over every cause of it (R536, R565). -/
def emissionDark (s : State) : Bool := runsDark s && !flag s SC_EGSTAT_ACTIVE

/-- EGRUN: the egress layer makes a dark module emit (R536). -/
def egressRun (s : State) : Bool := runsDark s && flag s SC_EGSTAT_ACTIVE

/-- A refresh cycle is lit: always without windows, else where it belongs to one (R266, R267). -/
def cycleLit (s : State) (j : Nat) : Bool :=
  feeds s .applied = 1 && appF s SC_FEEDCTL_WINEN = 0 ||
    (List.range (feeds s .applied)).any fun f => cycleInWindow s .applied f j

/-- REFRESH_CYCLE_START: cycle `j` of a frame starts at its beam position; GAIN and DBITS are taken, regions set to run start,
and the cycle is lit or unlit (R235, R236, R241, R249, R266). While the beam is OFF or in ACQUIRE the timing is held and no
region generates (R251). -/
def refreshCycleStart (s : State) (frame : Word) (j : Nat) : State :=
  if s.drive.clearing || refreshes s ≤ j then s
  else
    let s := if beamRuns s then beamAdvanceTo s frame (cycleStart s j : Nat) else s
    let s := setF s SC_PGSTAT_ACTIVE (if beamRuns s then runMask s else 0)
    { s with drive := { s.drive with
        cycleFrame := frame, cycle := j, row := 0, plane := none, lit := cycleLit s j, dark := emissionDark s, gain := getF s SC_PGGAIN_GAIN,
        dbits := getF s SC_PGGAIN_DBITS, cycleBanks := s.drive.nextBanks, stopping := 0 } }

/-- The frame and cycle after one. -/
def nextCycle (s : State) (f : Word) (j : Nat) : Word × Nat := if j + 1 < refreshes s then (f, j + 1) else (f + 1, 0)

/-- The bank that a module line contributes to a row read now (R241). -/
def rowBank (s : State) (banks : Vector Bool 512) (l : Nat) : Bool :=
  if modeGlobal s then banks.toList.getD l false else frontBank s l

/-- The codes of the row that a row slot shows, and the bits of its first plane: those read and shifted in the slot before; where
a beam step leads to another row than the one that was read, they are read now, so that the slot shows its own row (R241,
R257; log entry 113). -/
def slotRow (s : State) (row : Nat) : State :=
  let d := s.drive
  if d.nextFor = some (d.cycleFrame, d.cycle, row) then { s with drive := { d with rowImage := d.nextImage } }
  else
    let img := readRow s (rowBank s d.cycleBanks) row d.gain d.dbits d.cycleFrame.toNat d.cycle
    let s := noteRow s (rowBank s d.cycleBanks) row
    { s with drive := { s.drive with
        rowImage := img, shifting := shiftAll s (imageCode img) row (planeCount s - 1) } }

/-- ROW_SLOT_START: a row slot starts with its dead time, OE inactive. Stopped regions go dark, also one whose RUN bit has been
set again, and the next scan row is read and its codes are formed; the last row slot's start is the read instant of the next
cycle. A row of the same cycle takes the cycle's GAIN and DBITS, the first row of the next cycle those that stand at its read (log
entry 51). The ROW outputs change within the dead time, seen at the first plane slot (R237, R239, R241, R249; log entry 54). -/
def rowSlotStart (s : State) (row : Nat) : State :=
  if s.drive.clearing || muxRows s ≤ row then s
  else
    let s := setF s SC_PGSTAT_ACTIVE (getF s SC_PGSTAT_ACTIVE &&& runMask s &&& (15 ^^^ s.drive.stopping))
    let s := slotRow s row
    let last := row + 1 = muxRows s
    let s := if last then { s with drive := { s.drive with nextBanks := s.drive.front } } else s
    let banks := if last then s.drive.nextBanks else s.drive.cycleBanks
    let next := if last then 0 else row + 1
    let d := s.drive
    let cyc := if last then nextCycle s d.cycleFrame d.cycle else (d.cycleFrame, d.cycle)
    let gain := if last then (getF s SC_PGGAIN_GAIN, getF s SC_PGGAIN_DBITS) else (d.gain, d.dbits)
    let img := readRow s (rowBank s banks) next gain.1 gain.2 cyc.1.toNat cyc.2
    let s := noteRow s (rowBank s banks) next
    { s with drive := { s.drive with
        row := row, plane := none, oeSteps := 0, rowOut := if getF s SC_PGTIME_RDEAD = 0 then row else d.rowOut,
        nextImage := img, nextFor := some (cyc.1, cyc.2, next), stopping := 0 } }

/-- PLANE_SLOT_START: plane slot `n` of the row slot, most significant plane first. LAT captures what was shifted, OE pulses
where the cycle is lit, the next plane is shifted, and the boundary releases or drives the ports (R238 to R240, R253,
R266). -/
def planeSlotStart (s : State) (n : Nat) : State :=
  if s.drive.clearing || planeCount s ≤ n then s
  else
    let s := slotBoundary s
    let p := planeCount s
    let d := s.drive
    let f := d.cycleFrame.toNat
    let bits := if n + 1 < p then shiftAll s (imageCode d.rowImage) d.row (p - 2 - n)
      else shiftAll s (imageCode d.nextImage) (if d.row + 1 < muxRows s then d.row + 1 else 0) (p - 1)
    let oe := if d.lit && !d.dark then oePulse p (getF s SC_PGTIME_LIT) (p - 1 - n) f d.cycle (refreshes s) else 0
    { s with drive := { s.drive with
        plane := some n, rowOut := d.row, latched := d.shifting, shifting := bits, oeSteps := oe } }

/-! ### RUN -/

/-- Refresh rate against a bound: NREF × `k` cycles a second, compared with `bound` (R248, R249). -/
def rateExceeds (s : State) (k bound : Nat) : Bool := bound * framePeriod s < k * refreshes s * (256 * 40000000)

/-- A group of region `k` has a port of a function. -/
def groupHas (s : State) (k g fn : Nat) : Bool :=
  (regionPorts k).any fun n => padBonded s.variant n && portFunc s n = fn && getF s (SC_DPCFG_GROUP n) = g

/-- The first failure of R249 for a region: its code and the lowest port that fails it. -/
def runFailure (s : State) (k : Nat) : Option (Nat × Option Nat) :=
  let ports := dataPorts s k
  let find := fun (code : Nat) (bad : Nat → Bool) => (ports.find? bad).map fun n => (code, some n)
  let check := fun (code : Nat) (bad : Bool) => if bad then some (code, none) else none
  let tp := planeSlot s
  [find 1 fun n => rateExceeds s (laneBits s n * muxRows s * planeCount s) 380000000,
   find 2 fun n => tp < laneBits s n + 1,
   check 3 (decide (tp < getF s SC_PGTIME_LIT)),
   check 4 (decide (framePeriod s * 10 < getF s SC_PGTIME_RDEAD * 20 * 256 * rowSlots s)),
   check 5 (rateExceeds s 1 7680),
   find 6 fun n => let g := getF s (SC_DPCFG_GROUP n)
     !(groupHas s k g fnClk && groupHas s k g fnLat && groupHas s k g fnOe),
   check 7 (decide (regionsInUse s ≤ k))].findSome? id

/-- A failed check is reported (R249). -/
def reportRunFailure (s : State) (f : Nat × Option Nat) : State :=
  let s := setF s SC_PGSTAT_FAIL f.1
  let s := match f.2 with
    | some n => setF s SC_PGSTAT_FAILPORT n
    | none => s
  raiseEvent s 59 SC_PGSTAT_FAILEV

/-- The RUN bits that a write asks for, on regions present: those that rise are checked, and the first failing region is
reported (R249). -/
def runWrite (s : State) (mask : Nat) : State :=
  let old := runMask s
  let want := (List.range (regionCount s.variant)).filter fun k => bitAt mask k
  let rising := want.filter fun k => !bitAt old k
  let stay := want.filter fun k => bitAt old k || (runFailure s k).isNone
  let fails := rising.filterMap fun k => runFailure s k
  let run := (stay.map fun k => 2 ^ k).foldl (· + ·) 0
  let s := setF s SC_PGCTL_RUN run
  let s := { s with drive := { s.drive with stopping := s.drive.stopping ||| (old &&& (15 ^^^ run)) } }
  match fails with
  | [] => s
  | f :: _ => reportRunFailure s f

/-- Counts a write ignored under R250. -/
def countCfgDrop (s : State) : State := countF s SC_PGCNT_CFGDROP 1

/-- A write of SC_PGCTL (R249, R250, R258): CNTCLR first; CH4 and ROWMODE where nothing runs, else a change of them is ignored
and counted; then RUN. A word that leaves CH4 and ROWMODE as they are writes the other fields only and is not counted (log
entry 52). -/
def pgctlWrite (s : State) (w : Word) : State :=
  let s := if bitsOf w 0 0 = 1 then setF s SC_PGCNT_CFGDROP 0 else s
  let ch4 := bitsOf w 1 1
  let mode := bitsOf w 2 2
  let s := if runMask s = 0 then setF (setF s SC_PGCTL_CH4 ch4) SC_PGCTL_ROWMODE mode
    else if ch4 != getF s SC_PGCTL_CH4 || mode != getF s SC_PGCTL_ROWMODE then countCfgDrop s else s
  runWrite s (bitsOf w 11 8)

/-- A write that names CH4 or ROWMODE and no other field, as entry 0x3500:02 makes, is counted while a region runs even where it
changes nothing (R250, R264). -/
def heldConfigWrite (s : State) (mask v : Word) : Bool :=
  runMask s != 0 && mask &&& 6#32 != 0 && bitsOf v 1 1 = getF s SC_PGCTL_CH4 && bitsOf v 2 2 = getF s SC_PGCTL_ROWMODE

/-- A write of SC_PGCFG or SC_PGTIME is ignored while a region runs (R250). -/
def pgLocked (s : State) : Bool := runMask s != 0

/-- A write of a port's or lane's set-up is ignored while its region runs (R250). -/
def portLocked (s : State) (n : Nat) : Bool := bitAt (runMask s) (n / 128)

/-! ### What the ports show -/

/-- The drive states of R251 for the ports of a region: 0 tri-stated, 1 dark, 2 generating. -/
def regionCondition (s : State) (k : Nat) : Nat :=
  if !flag s SC_OWNSTAT_DRIVING || regionsInUse s ≤ k then 0
  else if beamRuns s && !s.drive.dark && bitAt (getF s SC_PGSTAT_ACTIVE) k then 2 else 1

/-- What a port carries in the slot in progress: a level, the bits it shifts, a clock that toggles for a number of bits and is
idle else, or a pulse from the slot's start for a number of 2.5 ns steps (R239, R243 to R246). -/
inductive PortSignal where
  | level (high : Bool)
  | bits (shifted : List Bool)
  | clock (idle : Bool) (toggles : Nat)
  | pulse (active : Bool) (steps : Nat)
deriving DecidableEq, Repr

/-- Bits that the group of a port shifts in a plane slot: those of its longest lane (R243, R244). -/
def groupBits (s : State) (n : Nat) : Nat :=
  ((dataPorts s (n / 128)).filter fun m => getF s (SC_DPCFG_GROUP m) = getF s (SC_DPCFG_GROUP n)).foldl
    (fun m p => max m (laneBits s p)) 0

/-- A ROW port is selected: bit ROWSEL of the row number in binary, row ROWSEL in one-hot; in one-hot none is from the start of
the row slot until RDEAD / 2 (R239, R245). -/
def rowSelected (s : State) (n : Nat) : Bool :=
  let sel := getF s (SC_DPCFG_ROWSEL n)
  if !flag s SC_PGCTL_ROWMODE then bitAt s.drive.rowOut sel
  else (s.drive.plane.isSome || getF s SC_PGTIME_RDEAD = 0) && s.drive.rowOut = sel

/-- What a DATA, CLK, LAT, OE or ROW port carries; none where it is tri-stated or has another function. INV inverts the port;
dark leaves DATA and LAT low, CLK idle, OE and ROW inactive (R243 to R245, R251). -/
def portSignal (s : State) (n : Nat) : Option PortSignal :=
  let cond := regionCondition s (n / 128)
  let inv := flag s (SC_DPCFG_INV n)
  let f := portFunc s n
  let slot := cond = 2 && s.drive.plane.isSome
  if cond = 0 then none
  else if f = fnData then
    if slot then some (.bits (((s.drive.shifting.find? fun x => x.1 = n).map (·.2)).getD [] |>.map (· != inv)))
    else some (.level (cond = 2 && inv))
  else if f = fnClk then some (.clock inv (if slot then groupBits s n else 0))
  else if f = fnLat then some (if slot then .pulse (!inv) 2 else .level (cond = 2 && inv))
  else if f = fnOe then some (if slot && s.drive.oeSteps != 0 then .pulse (!inv) s.drive.oeSteps else .level inv)
  else if f = fnRow then some (.level ((cond = 2 && rowSelected s n) != inv))
  else none

/-- The level of a port that stays the same for the slot; none for one that changes within it, or that is not driven. -/
def portLevel (s : State) (n : Nat) : Option Bool :=
  match portSignal s n with
  | some (.level b) => some b
  | some (.clock b 0) => some b
  | _ => none

end Sys2Proof.Machine
end

