-- ==== Sys2Proof/Machine/Crypto.lean ====
section
/-! DEFINITION. The functions of the hutch and of the decoders that the spec names by their standards: SHA-256 (FIPS 180-4), HMAC
(RFC 2104), HKDF (RFC 5869), AES-256 (FIPS 197), key unwrap (NIST SP 800-38F), AES-GCM (NIST SP 800-38D), P-256 and ECDSA
(FIPS 186-4) (R172, R433, R518 to R520, R529, R583, R592). PRESUMED (log entry 63): the standards' own text is outside the spec. -/

namespace Sys2Proof.Machine.Crypto

/-! ### Bytes -/

/-- A big-endian number from bytes. -/
def beNat (bs : List Byte) : Nat := bs.foldl (fun n b => n * 256 + b.toNat) 0

/-- `k` big-endian bytes of a number. -/
def beBytes (k n : Nat) : List Byte := (List.range k).map fun i => BitVec.ofNat 8 (n / 256 ^ (k - 1 - i))

/-- A list cut into pieces of `k`; `fuel` bounds their number. -/
def chunks {α : Type} (k : Nat) : Nat → List α → List (List α)
  | 0, _ => []
  | fuel + 1, l => if l.isEmpty then [] else l.take k :: chunks k fuel (l.drop k)

/-- Bytes combined by exclusive or. -/
def xorBytes (a b : List Byte) : List Byte := List.zipWith (· ^^^ ·) a b

/-! ### SHA-256 -/

/-- A prime below 312: none of 2 to 17 divides it, but for itself. -/
def smallPrime (n : Nat) : Bool := 2 ≤ n && (List.range 18).all fun d => d < 2 || n ≤ d || n % d != 0

/-- The first 64 primes. -/
def primes64 : List Nat := (List.range 312).filter smallPrime

/-- The first 32 bits of the fraction of the `k`-th root of a number below 2²⁴: found bit by bit as an integer root. -/
def rootFraction (k n : Nat) : Word :=
  BitVec.ofNat 32 ((List.range 40).foldl (fun r i => if (r + 2 ^ (39 - i)) ^ k ≤ n * 2 ^ (32 * k) then r + 2 ^ (39 - i) else r) 0)

/-- The round constants: from the cube roots of the first 64 primes. -/
def shaK : List Word := primes64.map (rootFraction 3)

/-- The initial hash value: from the square roots of the first eight. -/
def shaInit : List Word := (primes64.take 8).map (rootFraction 2)

/-- Word `i` of a list of words. -/
def wordAt (ws : List Word) (i : Nat) : Word := ws.getD i 0

/-- The message schedule, newest word first: one more word from the sixteen before it. -/
def shaExtend (ws : List Word) : List Word :=
  let x := wordAt ws 14
  let y := wordAt ws 1
  let s0 := x.rotateRight 7 ^^^ x.rotateRight 18 ^^^ (x >>> 3)
  let s1 := y.rotateRight 17 ^^^ y.rotateRight 19 ^^^ (y >>> 10)
  (wordAt ws 15 + s0 + wordAt ws 6 + s1) :: ws

/-- One round on the eight working variables. -/
def shaRound (v : List Word) (kw : Word) : List Word :=
  let a := wordAt v 0
  let b := wordAt v 1
  let c := wordAt v 2
  let e := wordAt v 4
  let s1 := e.rotateRight 6 ^^^ e.rotateRight 11 ^^^ e.rotateRight 25
  let ch := (e &&& wordAt v 5) ^^^ (~~~e &&& wordAt v 6)
  let t1 := wordAt v 7 + s1 + ch + kw
  let s0 := a.rotateRight 2 ^^^ a.rotateRight 13 ^^^ a.rotateRight 22
  let maj := (a &&& b) ^^^ (a &&& c) ^^^ (b &&& c)
  [t1 + s0 + maj, a, b, c, wordAt v 3 + t1, e, wordAt v 5, wordAt v 6]

/-- One block of 64 bytes. -/
def shaBlock (h : List Word) (block : List Byte) : List Word :=
  let ws := (chunks 4 16 block).map fun b => BitVec.ofNat 32 (beNat b)
  let schedule := ((List.range 48).foldl (fun l _ => shaExtend l) ws.reverse).reverse
  List.zipWith (· + ·) h ((List.zipWith (· + ·) shaK schedule).foldl shaRound h)

/-- SHA-256. -/
def sha256 (msg : List Byte) : List Byte :=
  let zeros := (119 - msg.length % 64) % 64
  let padded := msg ++ [0x80#8] ++ List.replicate zeros 0#8 ++ beBytes 8 (8 * msg.length)
  ((chunks 64 (padded.length / 64) padded).foldl shaBlock shaInit).flatMap fun w => beBytes 4 w.toNat

/-- HMAC-SHA-256. -/
def hmac (key msg : List Byte) : List Byte :=
  let k := if 64 < key.length then sha256 key else key
  let k := k ++ List.replicate (64 - k.length) 0#8
  sha256 (k.map (· ^^^ 0x5C#8) ++ sha256 (k.map (· ^^^ 0x36#8) ++ msg))

/-- HKDF-SHA-256 with 32 bytes of output. -/
def hkdf (salt ikm info : List Byte) : List Byte := hmac (hmac salt ikm) (info ++ [1#8])

/-! ### AES-256 -/

/-- Multiplication by x in the field of AES. -/
def aesDouble (b : Byte) : Byte := (b <<< 1) ^^^ (if b.msb then 0x1B#8 else 0#8)

/-- Multiplication in the field of AES. -/
def aesMul (a b : Byte) : Byte :=
  ((List.range 8).foldl (fun (r : Byte × Byte) i => (if b.getLsbD i then r.1 ^^^ r.2 else r.1, aesDouble r.2)) (0#8, a)).1

/-- The S-box: the inverse in the field, and the affine map. -/
def aesSub (b : Byte) : Byte :=
  let sq := fun x => aesMul x x
  let inv := ((List.range 6).foldl (fun (r : Byte × Byte) _ => (aesMul r.1 (sq r.2), sq r.2)) (sq b, sq b)).1
  inv ^^^ inv.rotateLeft 1 ^^^ inv.rotateLeft 2 ^^^ inv.rotateLeft 3 ^^^ inv.rotateLeft 4 ^^^ 0x63#8

/-- The inverse S-box. -/
def aesUnsub (b : Byte) : Byte :=
  let y := b.rotateLeft 1 ^^^ b.rotateLeft 3 ^^^ b.rotateLeft 6 ^^^ 0x05#8
  let sq := fun x => aesMul x x
  ((List.range 6).foldl (fun (r : Byte × Byte) _ => (aesMul r.1 (sq r.2), sq r.2)) (sq y, sq y)).1

/-- The key schedule, newest word first: word `i` of the expansion. -/
def aesExpand (ws : List (List Byte)) (i : Nat) : List (List Byte) :=
  let t := ws.headD []
  let t := if i % 8 = 0 then
      let r := (t.drop 1 ++ t.take 1).map aesSub
      xorBytes r [(List.range (i / 8 - 1)).foldl (fun b _ => aesDouble b) 1#8, 0, 0, 0]
    else if i % 8 = 4 then t.map aesSub else t
  xorBytes (ws.getD 7 []) t :: ws

/-- The fifteen round keys. -/
def aesKeys (key : List Byte) : List (List Byte) :=
  let ws := ((List.range 52).foldl (fun l i => aesExpand l (i + 8)) (chunks 4 8 key).reverse).reverse
  (chunks 4 15 ws).map List.flatten

/-- Byte `r + 4c` of the state takes byte `r + 4 (c + k r)`: a rotation of the rows. -/
def aesShift (k : Nat) (s : List Byte) : List Byte :=
  (List.range 16).map fun i => s.getD (i % 4 + 4 * ((i / 4 + k * (i % 4)) % 4)) 0

/-- A matrix of the MixColumns kind, by its first row. -/
def aesMix (row : List Byte) (s : List Byte) : List Byte :=
  (List.range 16).map fun i =>
    (List.range 4).foldl (fun x j => x ^^^ aesMul (row.getD ((j + 4 - i % 4) % 4) 0) (s.getD (i / 4 * 4 + j) 0)) 0#8

/-- AES-256 of a block. -/
def aesEncrypt (key block : List Byte) : List Byte :=
  let ks := aesKeys key
  let s := xorBytes block (ks.getD 0 [])
  let s := (List.range 13).foldl (fun s i =>
    xorBytes (aesMix [2, 3, 1, 1] (aesShift 1 (s.map aesSub))) (ks.getD (i + 1) [])) s
  xorBytes (aesShift 1 (s.map aesSub)) (ks.getD 14 [])

/-- The inverse cipher. -/
def aesDecrypt (key block : List Byte) : List Byte :=
  let ks := aesKeys key
  let s := xorBytes block (ks.getD 14 [])
  let s := (List.range 13).foldl (fun s i =>
    aesMix [14, 11, 13, 9] (xorBytes ((aesShift 3 s).map aesUnsub) (ks.getD (13 - i) []))) s
  xorBytes ((aesShift 3 s).map aesUnsub) (ks.getD 0 [])

/-! ### Key unwrap -/

/-- One step of the unwrapping: `t` its number, for the register at `i`. -/
def unwrapStep (key : List Byte) (n : Nat) (st : List Byte × List (List Byte)) (t : Nat) : List Byte × List (List Byte) :=
  let i := (t + n - 1) % n
  let b := aesDecrypt key (xorBytes st.1 (beBytes 8 t) ++ st.2.getD i [])
  (b.take 8, st.2.set i (b.drop 8))

/-- AES key unwrap (KW): none where the integrity check fails. -/
def keyUnwrap (key wrapped : List Byte) : Option (List Byte) :=
  let n := wrapped.length / 8 - 1
  let r := ((List.range (6 * n)).map fun k => 6 * n - k).foldl (unwrapStep key n)
    (wrapped.take 8, chunks 8 n (wrapped.drop 8))
  if r.1 = List.replicate 8 0xA6#8 then some r.2.flatten else none

/-! ### AES-GCM -/

/-- One step of a product in the field of GCM: bit `i` of `x`, most significant first. -/
def ghashStep (x : BitVec 128) (r : BitVec 128 × BitVec 128) (i : Nat) : BitVec 128 × BitVec 128 :=
  (if x.getMsbD i then r.1 ^^^ r.2 else r.1,
   (r.2 >>> 1) ^^^ (if r.2.getLsbD 0 then 0xE1000000000000000000000000000000#128 else 0#128))

/-- The product of two blocks. -/
def ghashMul (x y : BitVec 128) : BitVec 128 := ((List.range 128).foldl (ghashStep x) (0#128, y)).1

/-- Bytes as blocks of 16, the last one filled with zeros. -/
def gcmBlocks (bs : List Byte) : List (BitVec 128) :=
  (chunks 16 (bs.length / 16 + 1) bs).map fun b => BitVec.ofNat 128 (beNat (b ++ List.replicate (16 - b.length) 0#8))

/-- GHASH of additional data and ciphertext under a hash key. -/
def ghash (h : BitVec 128) (aad ct : List Byte) : BitVec 128 :=
  (gcmBlocks aad ++ gcmBlocks ct ++ [BitVec.ofNat 128 (8 * aad.length * 2 ^ 64 + 8 * ct.length)]).foldl
    (fun y x => ghashMul (y ^^^ x) h) 0#128

/-- AES-256-GCM decryption with a 96-bit nonce and a 128-bit tag: none where the tag does not verify. -/
def gcmOpen (key nonce aad ct tag : List Byte) : Option (List Byte) :=
  let h := BitVec.ofNat 128 (beNat (aesEncrypt key (List.replicate 16 0#8)))
  let pad := fun i => aesEncrypt key (nonce ++ beBytes 4 i)
  let expect := xorBytes (beBytes 16 (ghash h aad ct).toNat) (pad 1)
  if expect = tag then
    some (xorBytes ct ((List.range (ct.length / 16 + 1)).flatMap fun i => pad (i + 2)))
  else none

/-! ### P-256 -/

/-- The field of P-256. -/
abbrev p256 : Nat := 0xffffffff00000001000000000000000000000000ffffffffffffffffffffffff

/-- The order of its base point. -/
abbrev n256 : Nat := 0xffffffff00000000ffffffffffffffffbce6faada7179e84f3b9cac2fc632551

/-- The coefficient b. -/
abbrev b256 : Nat := 0x5ac635d8aa3a93e7b3ebbd55769886bc651d06b0cc53b0f63bce3c3e27d2604b

/-- `x` to the power `e`, modulo `m`, for exponents below 2²⁵⁶. -/
def powMod (m x e : Nat) : Nat :=
  (List.range 256).foldl (fun r i => (if e.testBit (255 - i) then r * r % m * x else r * r) % m) (1 % m)

/-- The inverse modulo a prime. -/
def invMod (m x : Nat) : Nat := powMod m x (m - 2)

/-- A point of the curve; none is the point at infinity. -/
abbrev Point : Type := Option (Nat × Nat)

/-- The base point. -/
def base256 : Point :=
  some (0x6b17d1f2e12c4247f8bce6e563a440f277037d812deb33a0f4a13945d898c296,
        0x4fe342e2fe1a7f9b8ee7eb4a7c0f9e162bce33576b315ececbb6406837bf51f5)

/-- The point that a line of slope `l` through two points leads to. -/
def chord (l x1 y1 x2 : Nat) : Point :=
  let x := (l * l + 2 * p256 - x1 - x2) % p256
  some (x, (l * (x1 + p256 - x) + p256 - y1) % p256)

/-- Addition of points. -/
def addPoint : Point → Point → Point
  | none, q => q
  | p, none => p
  | some (x1, y1), some (x2, y2) =>
    if x1 = x2 then
      if y1 = y2 && y1 != 0 then chord ((3 * x1 * x1 + p256 - 3) * invMod p256 (2 * y1) % p256) x1 y1 x2 else none
    else chord ((y2 + p256 - y1) * invMod p256 (x2 + p256 - x1) % p256) x1 y1 x2

/-- A multiple of a point. -/
def mulPoint (k : Nat) (p : Point) : Point :=
  (List.range 256).foldl (fun r i => let d := addPoint r r; if k.testBit (255 - i) then addPoint d p else d) none

/-- A public key, X then Y, big-endian: the point; none where it is not on the curve. -/
def publicPoint (key : List Byte) : Point :=
  let x := beNat (key.take 32)
  let y := beNat ((key.drop 32).take 32)
  if key.length = 64 && x < p256 && y < p256 && y * y % p256 = (x * x * x + (p256 - 3) * x + b256) % p256 then some (x, y) else none

/-- ECDSA P-256 with SHA-256: a signature, r then s, big-endian, over a message under a public key. -/
def ecdsaOk (msg key sig : List Byte) : Bool :=
  let r := beNat (sig.take 32)
  let s := beNat ((sig.drop 32).take 32)
  match publicPoint key with
  | none => false
  | some q =>
    let w := invMod n256 s
    let z := beNat (sha256 msg)
    sig.length = 64 && 0 < r && r < n256 && 0 < s && s < n256 &&
      match addPoint (mulPoint (z * w % n256) base256) (mulPoint (r * w % n256) (some q)) with
      | none => false
      | some (x, _) => x % n256 = r

/-- The x-coordinate that ECDH gives a private key with a public key; none where that is not on the curve. -/
def sharedSecret (priv : Nat) (key : List Byte) : Option (List Byte) :=
  match publicPoint key with
  | none => none
  | some q => (mulPoint priv (some q)).map fun p => beBytes 32 p.1

end Sys2Proof.Machine.Crypto
end

