-- ==== Sys2Proof/Machine/Weave.lean ====
section
/-! DEFINITION. The weave: packets that arrive, links, hellos and positions (R400 to R412, R419). -/

namespace Sys2Proof.Machine

/-- Header checks of R406 on a packet that arrives on port `p`. -/
def headerRefused (p : Nat) (pkt : Packet) : Bool :=
  (p != 4 && p != 5 && (pkt.cls = 0 || 4 ≤ pkt.cls.toNat)) || 6 ≤ pkt.kind.toNat || 2048 < pkt.len.toNat ||
    (pkt.kind = 2 && pkt.vc != 3) || (pkt.kind = 3 && pkt.vc != 1) || (pkt.dkind = 1 && natBits pkt.dest.toNat 13 8 != 0)

/-- The ingress stamp of a riser (R405). -/
def stampRiser (s : State) (p : Nat) (pkt : Packet) : Packet :=
  let st : BitVec 14 × BitVec 2 := match ownMid s with
    | some m => (m, if p = 4 then 1 else 2)
    | none => (0, 3)
  { pkt with cls := 2, egr := flag s (WV_PORTCFG_EGR p), smid := st.1, sport := st.2 }

/-- The module examines the oldest packet accepted on a port, whose buffer is then free (R405, R406, R407, R416). -/
def packetReceive (s : State) (p : Nat) : State :=
  let x := portOf s p
  match x.arrived with
  | [] => s
  | i :: rest =>
    let pkt := i.pkt
    let s := setPort s p { x with arrived := rest, owed := vcAdd x.owed pkt.vc.toNat 1 }
    if headerRefused p pkt then countF s WV_ENGCNT_BADHDR 1
    else if pkt.hoplim = 0 then countF s WV_FWDCNT_HOPX 1
    else (routePacket s p { i with pkt := if p = 4 || p = 5 then stampRiser s p pkt else pkt }).1

/-! ### Links -/

/-- Discovery parent and DIST from the hellos of UP ports (R412): 0 for a riser stands for the controller itself. -/
def nearestPort (s : State) : Option (Nat × Nat) :=
  match upRiser s with
  | some r => some (r, 0)
  | none =>
    (List.range 7).foldl (fun best p =>
      match portUp s p, (portOf s p).hello with
      | true, some h =>
        if h.dist = 0xFF then best
        else
          match best with
          | some (q, d) => if h.dist.toNat < d then some (p, h.dist.toNat) else some (q, d)
          | none => some (p, h.dist.toNat)
      | _, _ => best) none

/-- DIST of the module; 0xFF where unknown (R409, R412). -/
def ownDist (s : State) : Nat :=
  match nearestPort s with
  | some (_, d) => min (d + 1) 0xFF
  | none => 0xFF

/-- Keeps the PARENT bits of the ports (R437). -/
def noteParent (s : State) : State :=
  let best := (nearestPort s).map (·.1)
  (List.range 7).foldl (fun s p => setF s (WV_PORTSTAT_PARENT p) (b2n (best = some p))) s

/-- An OUT queue whose slot's packet was discarded on its way for want of a route (R419, R425). -/
def noteLost (s : State) (q : BitVec 14) : State :=
  let d := sget s.weave.drawers .off q.toNat
  let d := { d with sending := d.sending.map fun x => { x with lost := true } }
  { s with weave := { s.weave with drawers := sput s.weave.drawers .off q.toNat d } }

/-- A queue of the twin protocol (R448). -/
def isTwinQueue (q : BitVec 14) : Bool := 16 ≤ q.toNat && q.toNat < 32

/-- Forwards again every packet of a port's replay buffer and queue, as one that arrived where it did; a multicast copy is
discarded, counted and recorded; a packet of the module's own twin protocol has no port but T (R419, R421, R448). -/
def forwardAgain (s : State) (p : Nat) : State :=
  let x := portOf s p
  let items := x.replay.map (·.item) ++ x.queue
  let s := setPort s p { x with replay := [], queue := [] }
  items.foldl (fun s q =>
    if q.copy then
      record (countF s WV_FWDCNT_MCDROP 1) .warn 0x6001 p (natBits q.pkt.dest.toNat 7 0) 1 0
    else if q.arrival = 7 && isTwinQueue q.pkt.qid then countNoRoute s
    else route s q) s
where
  /-- A packet is routed afresh; an OUT slot's that finds no route is lost. -/
  route (s : State) (q : Queued) : State :=
    let r := routePacket s q.arrival (itemNow s q.pkt) q.out
    match r.2, q.out with
    | false, some d => noteLost r.1 d
    | _, _ => r.1

/-- Sends frames of the replay buffer again, in order. -/
def resendFrames (s : State) (p : Nat) (fs : List LinkFrame) : State := fs.foldl (fun s f => emitFrame s p f) s

/-- A link that comes back UP resends from its oldest unacknowledged frame, and counts one replay (R403, log entry 111). -/
def resendUnacked (s : State) (p : Nat) : State :=
  let fs := (portOf s p).replay
  if fs.isEmpty then s else resendFrames (countF s (WV_PORTERR_REPLAYS p) 1) p fs

/-- A port changes state. Entering UP sets UPEV, resends what is unacknowledged and sends what waits; leaving it sets DOWNEV
(R401, R403, R437). -/
def setPortState (s : State) (p st : Nat) : State :=
  let was := portState s p
  let s := setF s (WV_PORTSTAT_STATE p) st
  let s := if was = ptUp && st != ptUp then raiseEvent s (80 + p) (WV_PORTSTAT_DOWNEV p) else s
  let s := if was != ptUp && st = ptUp then resendUnacked (raiseEvent s (80 + p) (WV_PORTSTAT_UPEV p)) p else s
  let s := noteParent s
  if was = ptUp && st != ptUp && getF s WV_CTL_LINKHOLD = 0 then forwardAgain s p
  else drainPort s p ((portOf s p).queue.length)

/-- T goes DOWN: the queues of the twin protocol start afresh (R426, R448; log entry 85). -/
def closeTwinQueues (s : State) : State := { s with twin := { s.twin with sent := [], opened := [] } }

/-- A port goes DOWN: no lanes, no delay, no neighbour. -/
def portDown (s : State) (p : Nat) : State :=
  let s := if p = 6 then closeTwinQueues s else s
  let s := setF (setF s (WV_PORTSTAT_LANES p) 0) (WV_PORTSTAT_DLYV p) 0
  let s := setPort s p { portOf s p with hello := none }
  setPortState (setF s (WV_PORTSTAT_CHILD p) 0) p ptDown

/-- An enabled port in DOWN that detects signal starts TRAINING; numbers start afresh on a link that trains from DOWN
(R401, log entry 33). -/
def linkSignal (s : State) (p : Nat) : State :=
  if portPresent s.variant p && portState s p = ptDown && flag s (WV_PORTCFG_EN p) then
    let x := portOf s p
    let x := { x with nextSeq := 0, expect := 0, nakRun := 0, nakedRun := 0, crcTimes := [], replay := [],
                      used := Vector.replicate 4 0, owed := Vector.replicate 4 0, queue := x.replay.map (·.item) ++ x.queue }
    setPortState (setPort s p x) p ptTraining
  else s

/-- Lanes of a trained port (R400, R403). -/
def portLanes (x : Port) (p : Nat) : Nat := if p = 6 || x.oneLane then 1 else 2

/-- A training ends: HELLO, or DOWN to be tried again. A second failure in a row at two lanes trains on one, where allowed
(R401, R403). -/
def linkTrained (s : State) (p : Nat) (ok : Bool) : State :=
  if portState s p != ptTraining then s
  else
    let x := portOf s p
    if ok then
      let s := setPort s p { x with failures := 0 }
      setPortState (setF s (WV_PORTSTAT_LANES p) (portLanes x p)) p ptHello
    else
      let n := x.failures + 1
      let one := x.oneLane || (p != 6 && 2 ≤ n && flag s (WV_PORTCFG_ALLOW1 p))
      portDown (setPort s p { x with failures := n, oneLane := one }) p

/-- A failed training is tried again (R401). -/
def linkRetry (s : State) (p : Nat) : State := if (portOf s p).failures = 0 then s else linkSignal s p

/-- The link delay is measured (R70, R401). -/
def linkDelay (s : State) (p delay : Nat) : State :=
  if portUp s p then setF (setF s (WV_PORTDLY_DELAY p) delay) (WV_PORTSTAT_DLYV p) 1 else s

/-- A retrain of an UP link: counted, and the delay is no longer valid (R403). -/
def startRetrain (s : State) (p : Nat) : State :=
  let s := countF s (WV_PORTERR_RETRAINS p) 1
  let s := setPort s p { portOf s p with crcTimes := [], nakRun := 0, nakedRun := 0 }
  setPortState (setF s (WV_PORTSTAT_DLYV p) 0) p ptRetrain

/-- The causes of a retrain (R403). -/
def portFaultHolds (s : State) (p : Nat) : PortFault → Bool
  | .crcErrors =>
    let thr := getF s (WV_PORTCFG_ERRTHR p)
    thr != 0 && 4 * thr ≤ ((portOf s p).crcTimes.filter fun t => s.now < t + 40000).length
  | .laneLoss => true
  | .repeatedNak => 4 ≤ (portOf s p).nakRun || 4 ≤ (portOf s p).nakedRun

/-- A port retrains on CRC errors, a lane loss or repeated NAKs (R403). -/
def portRetrain (s : State) (p : Nat) (f : PortFault) : State :=
  if portUp s p && portFaultHolds s p f then startRetrain s p else s

/-- A write of 1 to WV_PORTnCFG.RETRAIN (R437). -/
def portRetrainCmd (s : State) (p : Nat) : State := if portUp s p then startRetrain s p else s

/-- A retrain ends in HELLO, and each side resends what is unacknowledged; or it falls to DOWN (R401, R403). -/
def portRetrained (s : State) (p : Nat) (ok : Bool) : State :=
  if portState s p != ptRetrain then s
  else if ok then setPortState s p ptHello
  else
    let x := portOf s p
    portDown (setPort s p { x with failures := x.failures + 1 }) p

/-- A cumulative acknowledgement names the next number the receiver expects (R402). -/
def ackFrames (x : Port) (ack : BitVec 12) : Port :=
  if x.nextSeq = ack then { x with replay := [], nakedRun := 0 }
  else if x.replay.any fun f => f.seq = ack then
    { x with replay := x.replay.dropWhile fun f => f.seq != ack,
             nakedRun := if (x.replay.head?.map (·.seq)) = some ack then x.nakedRun else 0 }
  else x

/-- Credits that a frame returns (R402, R407). -/
def takeCredits (x : Port) (credits : Word) : Port :=
  { x with used := Vector.ofFn fun (vc : Fin 4) => vcCount x.used vc.val - bitsOf credits (8 * vc.val + 7) (8 * vc.val) }

/-- A link frame arrives: the next expected frame is accepted, and its acknowledgement and credits are taken; another number or a bad CRC
is discarded with a NAK (R402). -/
def linkFrame (s : State) (p : Nat) (seq ack : BitVec 12) (credits : Word) (crcOk : Bool) (pkt : Packet) : State :=
  if !portUp s p then s
  else
    let x := portOf s p
    if !crcOk then
      let s := countF s (WV_PORTERR_CRCERR p) 1
      let times := s.now :: x.crcTimes.filter fun t => s.now < t + 40000
      emit (setPort s p (nak { x with crcTimes := times })) (.nak p x.expect)
    else if seq != x.expect then emit (setPort s p (nak x)) (.nak p x.expect)
    else
      let x := { x with expect := x.expect + 1, nakRun := 0, arrived := x.arrived ++ [itemNow s pkt] }
      let x := takeCredits (ackFrames x ack) credits
      drainPort (setPort s p x) p x.queue.length
where
  /-- One more NAK of the same number in a row, or the first of another. -/
  nak (x : Port) : Port :=
    { x with nakRun := if x.lastNak = x.expect && x.nakRun != 0 then x.nakRun + 1 else 1, lastNak := x.expect }

/-- The frames from a number on, in the order of their sending; where none has it, the receiver never got it, and all are numbered
from there (R402; log entry 33). -/
def Port.fromNumber (x : Port) (seq : BitVec 12) : Port × List LinkFrame :=
  if x.replay.any fun f => f.seq = seq then (x, x.replay.dropWhile fun f => f.seq != seq)
  else
    let fs := x.replay.zipIdx.map fun e => { e.1 with seq := seq + BitVec.ofNat 12 e.2 }
    ({ x with replay := fs, nextSeq := seq + BitVec.ofNat 12 fs.length }, fs)

/-- A NAK names a number: every frame from there is sent again; NAKs of one frame in a row are counted (R402, R403). -/
def linkNak (s : State) (p : Nat) (seq : BitVec 12) : State :=
  if portUp s p then
    let x := portOf s p
    let x := { x with nakedRun := if x.lastNaked = seq && x.nakedRun != 0 then x.nakedRun + 1 else 1, lastNaked := seq }
    let r := x.fromNumber seq
    let s := setPort s p r.1
    if r.2.isEmpty then s else resendFrames (countF s (WV_PORTERR_REPLAYS p) 1) p r.2
  else s

/-- LINKHOLD has passed on a link that is not UP (R419). -/
def linkholdExpiry (s : State) (p : Nat) : State := if portUp s p then s else forwardAgain s p

/-! ### Hellos and positions -/

/-- The hello a port sends (R409). -/
def ownHello (s : State) (p : Nat) (serial : BitVec 64) : Hello :=
  { controller := false, serial, port := BitVec.ofNat 3 p, col := BitVec.ofNat 14 (getF s WV_POS_COL),
    row := BitVec.ofNat 14 (getF s WV_POS_ROW), side := flag s WV_POS_SIDE, posv := flag s WV_POS_POSV,
    mid := BitVec.ofNat 14 (getF s WV_ID_MID), midv := flag s WV_ID_MIDV, gepoch := regWord s WV_GEPOCH,
    dist := BitVec.ofNat 8 (ownDist s), parentMe := flag s (WV_PORTSTAT_PARENT p) }

/-- A hello on a port in HELLO, UP or FENCED (R409). -/
def helloSend (s : State) (p : Nat) : State :=
  let st := portState s p
  if portPresent s.variant p && (st = ptHello || st = ptUp || st = ptFenced) then
    emit s (.hello p (ownHello s p Config.serialNumber))
  else s

/-- The position that a hello on a port gives this module (R411). -/
def impliedPosition (p : Nat) (h : Hello) : BitVec 14 × BitVec 14 × Bool :=
  match p with
  | 0 => (h.col, h.row + 1, h.side)
  | 1 => (h.col - 1, h.row, h.side)
  | 2 => (h.col, h.row - 1, h.side)
  | 3 => (h.col + 1, h.row, h.side)
  | _ => (h.col, h.row, !h.side)

/-- The FENCE code of the first check of R410 that a hello fails; 0 none. -/
def helloFence (s : State) (p : Nat) (h : Hello) : Nat :=
  let opposite := match p with
    | 0 => 2
    | 1 => 3
    | 2 => 0
    | 3 => 1
    | q => q
  let at' := impliedPosition p h
  let riser := p = 4 || p = 5
  if !riser && h.port.toNat != opposite then 1
  else if h.controller != riser then 2
  else if !riser && h.posv && flag s WV_POS_POSV &&
      (at'.1.toNat != getF s WV_POS_COL || at'.2.1.toNat != getF s WV_POS_ROW ||
        (p != 6 && at'.2.2 != flag s WV_POS_SIDE)) then 3
  else if p = 6 && h.side = flag s WV_POS_SIDE then 4
  else 0

/-- Takes a position (R411). -/
def takePosition (s : State) (col row : Nat) (side : Bool) : State :=
  let s := setF (setF (setF s WV_POS_COL col) WV_POS_ROW row) WV_POS_SIDE (b2n side)
  raiseEvent (setF s WV_POS_POSV 1) 87 WV_STAT_POSEV

/-- A write of WV_POS or 0x6000:01: the position is taken, or conflicts with the one held (R411, R436). -/
def positionWrite (s : State) (w : Word) : State :=
  let col := bitsOf w 13 0
  let row := bitsOf w 29 16
  let side := w.getLsbD 30
  if flag s WV_POS_POSV && (col != getF s WV_POS_COL || row != getF s WV_POS_ROW || side != flag s WV_POS_SIDE) then
    raiseEvent s 87 WV_STAT_CONFEV
  else takePosition s col row side

/-- A port is fenced, with its event and record (R410). -/
def fencePort (s : State) (p code : Nat) : State :=
  let s := setF s (WV_PORTSTAT_FENCE p) code
  let s := if code = 3 then raiseEvent s 87 WV_STAT_CONFEV else s
  if portState s p = ptFenced then s
  else
    let s := raiseEvent s (80 + p) (WV_PORTSTAT_FENCEEV p)
    record (setPortState s p ptFenced) .warn 0x6001 p code 0 0

/-- A hello is checked: the port becomes UP or FENCED, a module without a position takes one, DIST and parent follow (R410
to R412). -/
def helloReceive (s : State) (p : Nat) (h : Hello) : State :=
  let st := portState s p
  if !portPresent s.variant p || !(st = ptHello || st = ptUp || st = ptFenced) then s
  else
    let s := setPort s p { portOf s p with hello := some h }
    let s := setF s (WV_PORTSTAT_NDIST p) h.dist.toNat
    let s := setF s (WV_PORTSTAT_CHILD p) (b2n h.parentMe)
    let code := helloFence s p h
    if code != 0 then fencePort s p code
    else
      let s := setPortState (setF s (WV_PORTSTAT_FENCE p) 0) p ptUp
      let at' := impliedPosition p h
      let s := if !flag s WV_POS_POSV && h.posv && p != 4 && p != 5 then
          takePosition s at'.1.toNat at'.2.1.toNat at'.2.2
        else s
      noteParent s

/-- Four missed hellos take a port DOWN (R401). -/
def helloTimeout (s : State) (p : Nat) : State :=
  let st := portState s p
  if st = ptHello || st = ptUp || st = ptFenced then portDown s p else s

/-- EN of a port cleared takes it DOWN (R401). -/
def portEnables (s : State) : State :=
  (List.range 7).foldl (fun s p => if !flag s (WV_PORTCFG_EN p) && portState s p != ptDown then portDown s p else s) s

/-- A port's VIDEO load over the last 1 ms (R434). -/
def videoLoad (s : State) (p load : Nat) : State :=
  let s := setF s (WV_PORTSTAT_VIDLOAD p) load
  if 80 < load then raiseEvent s (80 + p) (WV_PORTSTAT_VIDOVEV p) else s

/-- A write of 1 to WV_CTL.CNTCLR (R436). -/
def weaveClear (s : State) : State :=
  (List.range 7).foldl (fun s p => setRegWord s (WV_PORTERR p) 0) (setRegWord (setRegWord s WV_FWDCNT 0) WV_ENGCNT 0)

end Sys2Proof.Machine
end

