-- ==== Sys2Proof/Machine/Drawers.lean ====
section
/-! DEFINITION. The drawers: descriptors, rings, the sequence window, losses, scene execution and commit packets, and the
pair's patch log (R423 to R430, R445, R460 to R462, R602, R603). -/

namespace Sys2Proof.Machine

/-! ### Pairing -/

/-- The MID of the module on the other side of this one's position (R445, R602). Where two VALID entries hold it, the first one
found is the twin, and both share the area: R33 does not say which (DESIGN CHOICE, log entry 66). -/
def otherSide (s : State) : Option (BitVec 14) :=
  if s.weave.table.isNone || !flag s WV_POS_POSV || !hasTwin s.variant then none
  else (s.weave.positions.find? fun e =>
    posValid e.2 && posCol e.2 = getF s WV_POS_COL && posRow e.2 = getF s WV_POS_ROW &&
      posSide e.2 != flag s WV_POS_SIDE).map fun e => BitVec.ofNat 14 e.1

/-- Twinned (R602). -/
def twinned (s : State) : Bool := (otherSide s).isSome

/-- The partner's MID while the module is PAIRED (R445). -/
def partnerMid (s : State) : Option (BitVec 14) :=
  match otherSide s, (portOf s 6).hello with
  | some m, some h => if portUp s 6 && h.midv && h.mid = m then some m else none
  | _, _ => none

/-- PAIRED (R445). -/
def paired (s : State) : Bool := (partnerMid s).isSome

/-- Twin supervision runs (R445). -/
def supervised (s : State) : Bool := paired s && flag s WV_TWCTL_EN

/-- A packet of the twin protocol leaves by T, on CTRL, stamped PEER, with the next number of its queue (R405, R426, R448; log
entry 85). -/
def twinPacket (s : State) (pmid qid : BitVec 14) (payload : List Byte) : State :=
  let n := sget s.twin.sent 0 qid.toNat
  let s := { s with twin := { s.twin with sent := sput s.twin.sent 0 qid.toNat (n + 1) } }
  let pkt := { makePacket 0 pmid false 2 qid n 0 0 payload with hoplim := BitVec.ofNat 10 (getF s WV_CTL_HOPLIM) }
  enqueueOut s 6 { pkt := stampedAs s 1 false pkt, copy := false, arrival := 7 }

/-! ### Queues and issue -/

/-- The queue of a QID. -/
def drawerOf (s : State) (q : BitVec 14) : Drawer := sget s.weave.drawers .off q.toNat

/-- Replaces a queue. -/
def setDrawer (s : State) (q : BitVec 14) (d : Drawer) : State :=
  { s with weave := { s.weave with drawers := sput s.weave.drawers .off q.toNat d } }

/-- Queue modes (R424). -/
abbrev drIn : BitVec 3 := 0
abbrev drOut : BitVec 3 := 1
abbrev drScene : BitVec 3 := 2
abbrev drVideo : BitVec 3 := 3

/-- Issues a DRAM write as PWs that break at 256-byte boundaries; `fuel` bounds their number. Answers how many. -/
def issueRun (s : State) (src : Src) : Nat → Nat → List Byte → State × Nat
  | 0, _, _ => (s, 0)
  | fuel + 1, a, bs =>
    if bs.isEmpty then (s, 0)
    else
      let n := 256 - a % 256
      let r := issueRun (issueToScan s (.dramWrite src a (bs.take n))) src fuel (a + n) (bs.drop n)
      (r.1, r.2 + 1)

/-- Issues a DRAM write of any length. -/
def issueDram (s : State) (src : Src) (a : Nat) (bs : List Byte) : State × Nat := issueRun s src (bs.length / 256 + 2) a bs

/-- The house side sends a CM and keeps it until it is reported (R178, R601). -/
def issueCommit (s : State) (src : Src) (epoch : Word) (tframe : BitVec 16) (stream : BitVec 2) (wcount : Nat)
    (reply : Option ReplyTo) : State :=
  let s := { s with bridge := { s.bridge with commits := s.bridge.commits ++ [{ src, epoch, tframe, stream, reply }] } }
  issueToScan s (.commit src epoch tframe stream (BitVec.ofNat 24 (min wcount 0xFFFFFF)) reply)

/-- Whether no message of a source is still on its way to the scan die, so that a read of it comes next (R42). -/
def sourceQuiet (s : State) (src : Src) : Bool :=
  !(unacceptedToScan s ++ s.bridge.toScan.arrived ++ s.comp.behind).any fun m => msgSource m = some src

/-- A read of DRAM by a house-die engine: none while the bridge is not UP or where a unit is uncorrectable (R51, R383). -/
def engineRead (s : State) (req a len : Nat) : State × Option (List Byte) :=
  if !bridgeUp s || dramTop < a + len - 1 then (s, none)
  else
    let bad := extentBad s a len
    let bs := dramBytes s a len
    (touchUnits s (unitsOf a len) req, if bad then none else some bs)

/-! ### Descriptors -/

/-- Why ENABLE leaves a queue disabled (R424). -/
def descriptorRefused (w : List Word) : Bool :=
  let mode := bitsOf (w.getD 0 0) 2 0
  4 ≤ mode || (mode = 3 && !(w.getD 0 0).getLsbD 3) || (mode != 2 && bitsOf (w.getD 2 0) 15 0 < 2) ||
    bitsOf (w.getD 2 0) 18 16 = 7

/-- A queue as its descriptor sets it up, with the PWs it has issued since its last CM (R424, R430). -/
def drawerFrom (w : List Word) (issued : Nat) : Drawer :=
  let f := fun i hi lo => bitsOf (w.getD i 0) hi lo
  { Drawer.off with
    enabled := true, mode := BitVec.ofNat 3 (f 0 2 0), inDram := f 0 3 3 = 1, vc := BitVec.ofNat 2 (f 0 5 4),
    minClass := BitVec.ofNat 2 (f 0 7 6), needEgr := f 0 8 8 = 1, lossReport := f 0 9 9 = 1,
    irqLine := BitVec.ofNat 6 (f 0 15 10), irqEn := f 0 16 16 = 1, base := w.getD 1 0,
    slots := BitVec.ofNat 16 (f 2 15 0), slotK := BitVec.ofNat 3 (f 2 18 16), gapTime := BitVec.ofNat 16 (f 3 31 16),
    dest := BitVec.ofNat 16 (f 4 15 0), rqid := BitVec.ofNat 14 (f 4 29 16), next := BitVec.ofNat 16 (f 3 15 0),
    issued := issued }

/-- The queue named by WV_DRSEL. -/
def selectedQid (s : State) : BitVec 14 := BitVec.ofNat 14 (getF s WV_DRSEL_QID)

/-- Where the descriptor of a queue lies (R424). -/
def descriptorAddr (s : State) (q : BitVec 14) : Nat := getF s WV_DRDT_BASE * 4096 + 32 * q.toNat

/-- ENABLE: the queue's descriptor is asked for through the bridge, as a read of source 0x06 behind that source's writes (R38,
R42, R424, R438). Until its answer is taken the queue stays as it is (log entry 58). -/
def drawerEnable (s : State) : State :=
  let q := selectedQid s
  if q.toNat < 32 then countReserved s
  else
    let a := descriptorAddr s q
    let s := { s with weave := { s.weave with enabling := s.weave.enabling ++ [(q, a)] } }
    issueToScan s (.readRequest (.scene q) (.dram a) 32)

/-- A descriptor that cannot be read, or is refused, leaves its queue disabled, with a BADQ count (R424). -/
def leaveDisabled (s : State) (q : BitVec 14) : State := countBadQ (setDrawer s q { drawerOf s q with enabled := false })

/-- A queue is set up anew or disabled: the slot of it that is being read is no longer. -/
def endOutRead (s : State) (q : BitVec 14) : State :=
  if s.weave.outRead.any fun r => r.qid = q then { s with weave := { s.weave with outRead := none } } else s

/-- The answer to a descriptor's read: the queue's state is reset as its descriptor says (R424, R438). -/
def enableWith (s : State) (q : BitVec 14) (bs : List Byte) (failed : Bool) : State :=
  let w := (List.range 8).map fun i => BitVec.ofNat 32 (leAt bs (4 * i) 4)
  if failed || descriptorRefused w then leaveDisabled s q
  else endOutRead (setDrawer s q (drawerFrom w (drawerOf s q).issued)) q

/-- Takes the answers to descriptor reads that have arrived, in the order of their requests (R42); `fuel` bounds their
number. -/
def settleEnables (s : State) : Nat → State
  | 0 => s
  | fuel + 1 =>
    match s.weave.enabling with
    | [] => s
    | (q, a) :: es =>
      match takeAnswer s (.scene q) (.dram a) with
      | none => s
      | some (s, bs, failed) =>
        settleEnables (enableWith { s with weave := { s.weave with enabling := es } } q bs failed) fuel

/-- DISABLE: the queue discards from then on (R438). -/
def drawerDisable (s : State) : State :=
  let q := selectedQid s
  if q.toNat < 32 then countReserved s else endOutRead (setDrawer s q { drawerOf s q with enabled := false }) q

/-- A write of WV_DRCMD (R438). -/
def drawerCommand (s : State) (w : Word) : State :=
  match bitsOf w 1 0 with
  | 1 => drawerEnable s
  | 2 => drawerDisable s
  | 3 => countReserved s
  | _ => s

/-! ### Rings -/

/-- The ring is full: it holds NSLOTS - 1 items (R425). -/
def Drawer.full (d : Drawer) : Bool :=
  (d.mode = drIn || d.mode = drVideo || d.mode = drOut) && d.slots != 0 &&
    decide ((d.tail.toNat + 1) % d.slots.toNat = d.head.toNat)

/-- A ring without space for a further item: full, or with loss slots that wait (R428). -/
def Drawer.noSpace (d : Drawer) : Bool := (d.mode = drIn || d.mode = drVideo) && (d.full || !d.lossSlots.isEmpty)

/-- Bytes of a slot (R424). -/
def Drawer.slotBytes (d : Drawer) : Nat := 64 <<< d.slotK.toNat

/-- Writes INT words to house SRAM, four bytes a word (R424). -/
def storeWords (s : State) (a : Nat) : List Word → State
  | [] => s
  | w :: ws => storeWords (if a < 524288 then sramStore s 0 a (tagged tagInt w) else s) (a + 1) ws

/-- The words that bytes spell; the last is filled with zeros. -/
def wordsOf (bs : List Byte) : List Word :=
  (List.range ((bs.length + 3) / 4)).map fun i => BitVec.ofNat 32 (leAt bs (4 * i) 4)

/-- Writes bytes at an offset of slot `n` of a ring; the last word is filled with zeros, so that every PW carries 4 to 256 bytes
(R38). -/
def writeRing (s : State) (d : Drawer) (n off : Nat) (bs : List Byte) : State :=
  if d.inDram then
    (issueDram s .video (d.base.toNat + n * d.slotBytes + off) (bs ++ List.replicate ((4 - bs.length % 4) % 4) 0)).1
  else storeWords s (d.base.toNat + (n * d.slotBytes + off) / 4) (wordsOf bs)

/-- Reads words of slot `n` of a ring where a slice decoder or a ring of house SRAM is read in place; none where a read is
uncorrectable. -/
def readRing (s : State) (d : Drawer) (n off len : Nat) : State × Option (List Byte) :=
  if d.inDram then engineRead s 0x07 (d.base.toNat + n * d.slotBytes + off) len
  else
    (List.range ((len + 3) / 4)).foldl (fun r i =>
      let x := sramLoad r.1 0 (d.base.toNat + (n * d.slotBytes + off) / 4 + i)
      match r.2, x.2 with
      | some bs, some w => (x.1, some (bs ++ leBytes 4 (payload w).toNat))
      | _, _ => (x.1, none)) (s, some [])

/-- STATUS codes of a slot (R425, R443). -/
abbrev stDone : Nat := 1
abbrev stLost : Nat := 2
abbrev stRefused : Nat := 3
abbrev stPoisoned : Nat := 4

/-- The slot header of a received item, with BEAMPOS at its arrival (R425). -/
def slotHeader (status : Nat) (x : Item) : List Byte :=
  let p := x.pkt
  leBytes 4 (status + p.kind.toNat * 16 + p.cls.toNat * 256 + b2n p.egr * 2048 + p.seq.toNat * 65536) ++
    leBytes 4 (p.len.toNat + p.smid.toNat * 65536 + p.sport.toNat * 2 ^ 30) ++ leBytes 4 p.ctx.toNat ++
    leBytes 4 x.pos.toNat

/-- Writes a whole slot at TAIL, then advances TAIL; one pulse where IRQEN = 1 (R424, R425). -/
def pushSlot (s : State) (q : BitVec 14) (bs : List Byte) : State :=
  let d := drawerOf s q
  let s := writeRing s d d.tail.toNat 0 bs
  let s := setDrawer s q { d with tail := BitVec.ofNat 16 ((d.tail.toNat + 1) % max 1 d.slots.toNat) }
  if d.irqEn then pulse s (96 + d.irqLine.toNat) else s

/-- A delivered item enters the ring; one whose payload does not fit is written as REFUSED without it (R425). -/
def ringItem (s : State) (q : BitVec 14) (x : Item) : State :=
  if (drawerOf s q).slotBytes < 16 + x.pkt.payload.length then pushSlot s q (slotHeader stRefused x)
  else pushSlot s q (slotHeader stDone x ++ x.pkt.payload)

/-- A loss slot: LOST_LINK, its SEQ, LEN 0 (R427). -/
def lossSlot (s : State) (q : BitVec 14) (n : BitVec 16) : State :=
  pushSlot s q (leBytes 4 (stLost + n.toNat * 65536) ++ leBytes 12 0)

/-! ### Scene execution -/

/-- Marks a queue damaged (R427, R429). -/
def damage (s : State) (q : BitVec 14) : State := setDrawer s q { drawerOf s q with damaged := true }

/-- Counts the PWs that a queue has issued (R430). -/
def countIssued (s : State) (q : BitVec 14) (n : Nat) : State :=
  let d := drawerOf s q
  setDrawer s q { d with issued := min (d.issued + n) 0xFFFFFF }

/-- Issues the register writes of a record. -/
def issueRegs (s : State) (src : Src) (a : Nat) : List Word → State
  | [] => s
  | w :: ws => issueRegs (issueToScan s (.regWrite src a w)) src (a + 1) ws

/-- Executes the records of a scene item; `fuel` bounds their number. A record that breaks the rules is skipped with the rest
of the item, counted, and damages the queue (R429). -/
def sceneRecords (s : State) (q : BitVec 14) : Nat → List Byte → State
  | 0, _ => s
  | fuel + 1, bs =>
    if bs.isEmpty then s
    else
      let op := natBits (leAt bs 0 4) 3 0
      let n := natBits (leAt bs 0 4) 31 16
      let a := leAt bs 4 4
      let body := bs.drop 8
      if op = 1 && n % 4 = 0 && 4 ≤ n && n ≤ 2040 && a % 4 = 0 && n ≤ body.length then
        let r := issueDram s (.scene q) a (body.take n)
        sceneRecords (countIssued r.1 q r.2) q fuel (body.drop n)
      else if op = 2 && 1 ≤ n && n ≤ 254 && 4 * n ≤ body.length && 0x200000 ≤ a && a + n ≤ 0x280000 &&
          (List.range n).all fun i => isSceneAddr (a + i) then
        let s := issueRegs s (.scene q) a (wordsOf (body.take (4 * n)))
        sceneRecords (countIssued s q n) q fuel (body.drop (4 * n))
      else damage (countBadQ s) q

/-- Where a packet's result item goes (R430, R603); none where REPLYQ is 0. -/
def replyTo (p : Packet) (replyq : Nat) : Option ReplyTo :=
  if replyq = 0 then none
  else
    let r := replyAddress p.smid p.sport
    some { dkind := r.1, dest := r.2.1, rsel := r.2.2, qid := BitVec.ofNat 14 replyq, ctx := p.ctx, seq := p.seq }

/-- A commit packet in SEQ order: a CM, or for a damaged queue the result with REASON 0x02 and a record (R430). -/
def commitPacket (s : State) (q : BitVec 14) (p : Packet) : State :=
  let bs := p.payload
  let epoch := BitVec.ofNat 32 (leAt bs 0 4)
  let tframe := BitVec.ofNat 16 (leAt bs 4 2)
  let stream := BitVec.ofNat 2 (leAt bs 6 1)
  let reply := replyTo p (natBits (leAt bs 8 2) 13 0)
  let d := drawerOf s q
  if d.damaged then
    let s := setDrawer s q { d with damaged := false }
    let s := record s .warn 0x3001 epoch.toNat (0x02 + stream.toNat * 256 + tframe.toNat * 65536) 0 q.toNat
    match reply with
    | none => s
    | some r => postResult s r
        (leBytes 4 epoch.toNat ++ leBytes 1 0x02 ++ leBytes 1 stream.toNat ++ leBytes 2 tframe.toNat ++ leBytes 4 0 ++
          leBytes 4 (getF s WV_ID_MID))
  else issueCommit (setDrawer s q { d with issued := 0 }) (.scene q) epoch tframe stream d.issued reply

/-! ### The patch log -/

/-- Header bytes of a packet (R404). -/
def headerBytes (p : Packet) : List Byte :=
  leBytes 2 (p.dest.toNat + p.dkind.toNat * 2 ^ 14) ++ leBytes 2 (p.smid.toNat + p.sport.toNat * 2 ^ 14) ++
    leBytes 2 (p.qid.toNat + p.vc.toNat * 2 ^ 14) ++ leBytes 2 p.seq.toNat ++
    leBytes 2 (p.hoplim.toNat + p.cls.toNat * 2 ^ 10 + b2n p.egr * 2 ^ 13 + b2n p.rsel * 2 ^ 14) ++
    leBytes 2 (p.len.toNat + p.kind.toNat * 2 ^ 12) ++ leBytes 4 p.ctx.toNat

/-- The packet that header bytes and a payload spell (R404). -/
def packetOf (h : List Byte) (payload : List Byte) : Packet :=
  let f := fun off hi lo => natBits (leAt h off 2) hi lo
  { dkind := BitVec.ofNat 2 (f 0 15 14), dest := BitVec.ofNat 14 (f 0 13 0), sport := BitVec.ofNat 2 (f 2 15 14),
    smid := BitVec.ofNat 14 (f 2 13 0), vc := BitVec.ofNat 2 (f 4 15 14), qid := BitVec.ofNat 14 (f 4 13 0),
    seq := BitVec.ofNat 16 (f 6 15 0), rsel := f 8 14 14 = 1, egr := f 8 13 13 = 1, cls := BitVec.ofNat 3 (f 8 12 10),
    hoplim := BitVec.ofNat 10 (f 8 9 0), kind := BitVec.ofNat 4 (f 10 15 12), len := BitVec.ofNat 12 (f 10 11 0),
    ctx := BitVec.ofNat 32 (leAt h 12 4), payload }

/-- Rows of 16 bytes that a logged packet takes. -/
def logRows (p : Packet) : Nat := 1 + ceilDiv p.payload.length 16

/-- Newest log entries that fit in `rows`, oldest first. -/
def fitLog (rows : Nat) : List Packet → List Packet
  | [] => []
  | p :: ps =>
    let r := fitLog rows ps
    if r.length = ps.length && ((p :: ps).map logRows).sum ≤ rows then p :: ps else r

/-- Writes rows of the patch log from row `at'` on, wrapping within its pages. -/
def storeLogRows (s : State) (rows first : Nat) : Nat → List (List Byte) → State
  | _, [] => s
  | at', r :: rs => storeLogRows (storeWords s (1024 * first + 4 * (at' % rows)) (wordsOf r)) rows first (at' + 1) rs

/-- Appends an executed item to the patch log (R460). -/
def logItem (s : State) (p : Packet) : State :=
  let pages := getF s WV_TWPLOG_PAGES
  let rows := 256 * pages
  if !paired s || pages = 0 || rows < logRows p then s
  else
    let bs := headerBytes p ++ p.payload
    let chunks := (List.range (logRows p)).map fun i =>
      let c := (bs.drop (16 * i)).take 16
      c ++ List.replicate (16 - c.length) 0
    let s := storeLogRows s rows (getF s WV_TWPLOG_FIRST) s.twin.logAt chunks
    { s with twin := { s.twin with log := fitLog rows (s.twin.log ++ [p]), logAt := (s.twin.logAt + logRows p) % rows } }

/-! ### Delivery, losses and the window -/

/-- Stores a DSC picture parameter set, or marks its slot invalid (R431, R432). PPS fields lie as VESA DSC 1.2a places them
(PRESUMED, log entry 34). -/
def ppsAccepted (b : List Byte) : Bool :=
  let g := fun i => (b.getD i 0).toNat
  let bpc := g 3 / 16
  let lbd := g 3 % 16
  let f4 := g 4
  let bpp := (f4 % 4) * 256 + g 5
  let h := beNat ((b.drop 6).take 2)
  let w := beNat ((b.drop 8).take 2)
  let sh := beNat ((b.drop 10).take 2)
  let sw := beNat ((b.drop 12).take 2)
  let n420 := (g 88) / 2 % 2 = 1
  128 ≤ b.length && g 0 = 0x12 && (bpc = 8 || bpc = 10) && !bitAt f4 4 && !bitAt f4 3 && !bitAt f4 2 && !n420 &&
    96 ≤ bpp && bpp ≤ 256 && 8 ≤ lbd && lbd ≤ 13 &&
    8 ≤ sw && sw ≤ 1024 && 1 ≤ sh && sh ≤ 512 && 8 ≤ w && w ≤ 16384 && 8 ≤ h && h ≤ 16384

/-- A PPS load (R431). -/
def loadPps (s : State) (p : Packet) : State :=
  let slot := (p.payload.getD 0 0).toNat
  let b := (p.payload.drop 16).take 128
  if 8 ≤ slot then countF s WV_ENGCNT_VIDDROP 1
  else if ppsAccepted b then { s with weave := { s.weave with pps := s.weave.pps.setIfInBounds slot (some b) } }
  else countF { s with weave := { s.weave with pps := s.weave.pps.setIfInBounds slot none } } WV_ENGCNT_VIDDROP 1

/-- SEAL: the drawer engine discards the items of SCENE and VIDEO queues (R525). -/
def sealDiscards (s : State) (d : Drawer) : Bool := getF s SEC_STAT_STATE = 2 && (d.mode = drScene || d.mode = drVideo)

/-- Delivers an item by the queue's mode (R425, R429 to R431), and logs what a SCENE queue executes (R460). -/
def deliverItem (s : State) (q : BitVec 14) (x : Item) : State :=
  let d := drawerOf s q
  let p := x.pkt
  let s := setDrawer s q { d with last := some (p.smid, p.sport, p.ctx) }
  if q.toNat < 32 then s
  else if d.mode = drIn then ringItem s q x
  else if d.mode = drScene then
    if p.kind = 1 then commitPacket (logItem s p) q p
    else sceneRecords (logItem s p) q (p.payload.length / 8 + 1) p.payload
  else if p.kind = 3 then ringItem s q x
  else loadPps s p

/-- Reports numbers lost together: the LOSS packet (R427, R603). -/
def sendLoss (s : State) (q : BitVec 14) (first : BitVec 16) (n : Nat) : State :=
  let d := drawerOf s q
  let a := match d.last with
    | some (smid, sport, _) => replyAddress smid sport
    | none => (3, 0, false)
  let ctx := (d.last.map (·.2.2)).getD 0
  (originate s (makePacket a.1 a.2.1 a.2.2 2 q first 5 ctx
    (leBytes 2 first.toNat ++ leBytes 2 (min n 0xFFFF) ++ leBytes 2 (getF s WV_ID_MID)))).1

/-- The 16-bit numbers from `n` on. -/
def seqRun (n : BitVec 16) (k : Nat) : List (BitVec 16) := (List.range k).map fun i => n + BitVec.ofNat 16 i

/-- Declares `k` consecutive numbers from NEXT lost, and passes them (R427, R462). -/
def declareLost (s : State) (q : BitVec 14) (k : Nat) : State :=
  let d := drawerOf s q
  let ns := seqRun d.next k
  let missed := (ns.filter fun n => d.asked.contains n).length
  let s := countF s WV_TWCNT_PATCHMISS missed
  let s := setDrawer s q { d with
    lost := min (d.lost + k) 0xFFFF, next := d.next + BitVec.ofNat 16 k, damaged := d.damaged || d.mode = drScene,
    lossSlots := if d.mode = drIn || d.mode = drVideo then d.lossSlots ++ ns else d.lossSlots,
    asked := d.asked.filter fun n => !ns.contains n, notFound := d.notFound.filter fun n => !ns.contains n }
  let s := raiseEvent s 89 WV_STAT_LOSSEV
  if d.lossReport then sendLoss s q d.next k else s

/-- Writes loss slots that wait while the ring has space (R428); `fuel` bounds their number. -/
def flushLoss (s : State) (q : BitVec 14) : Nat → State
  | 0 => s
  | fuel + 1 =>
    let d := drawerOf s q
    match d.lossSlots with
    | [] => s
    | n :: ns => if d.full then s else flushLoss (lossSlot (setDrawer s q { d with lossSlots := ns }) q n) q fuel

/-- Held item at NEXT. -/
def heldNext (d : Drawer) : Option Item := d.held.find? fun x => x.pkt.seq = d.next

/-- Takes the item at NEXT out of the window and past it. -/
def passNext (s : State) (q : BitVec 14) : State :=
  let d := drawerOf s q
  setDrawer s q { d with next := d.next + 1, held := d.held.filter fun x => x.pkt.seq != d.next,
                         asked := d.asked.filter fun n => n != d.next,
                         notFound := d.notFound.filter fun n => n != d.next }

/-- How many numbers from NEXT on were answered as not found. -/
def notFoundRun (d : Drawer) : Nat := ((List.range 64).takeWhile fun i => d.notFound.contains (d.next + BitVec.ofNat 16 i)).length

/-- Delivers what is held at NEXT, and declares lost what the partner could not supply, as far as the ring has space; a
queue's delivered items come back for the engines of QIDs 1, 3 and 4. `fuel` bounds the number. -/
def settle (s : State) (q : BitVec 14) : Nat → State × List Packet
  | 0 => (s, [])
  | fuel + 1 =>
    let s := flushLoss s q (drawerOf s q).lossSlots.length
    let d := drawerOf s q
    match heldNext d with
    | some x =>
      if d.noSpace then (s, [])
      else
        let r := settle (deliverItem (passNext s q) q x) q fuel
        (r.1, x.pkt :: r.2)
    | none => if notFoundRun d = 0 then (s, []) else settle (declareLost s q (notFoundRun d)) q fuel

/-- Distance from NEXT to the nearest held item, or to `limit`. -/
def missingRun (d : Drawer) (limit : Nat) : Nat :=
  ((List.range limit).takeWhile fun i => !d.held.any fun x => x.pkt.seq = d.next + BitVec.ofNat 16 i).length

/-- Moves NEXT on to `target`: missing numbers are declared lost in runs, held items delivered in order; it stops where a held
item finds no space. `fuel` bounds the number of runs (R426). -/
def advanceWindow (s : State) (q : BitVec 14) (target : BitVec 16) : Nat → State × List Packet
  | 0 => (s, [])
  | fuel + 1 =>
    let s := flushLoss s q (drawerOf s q).lossSlots.length
    let d := drawerOf s q
    let gap := (target - d.next).toNat
    if gap = 0 then (s, [])
    else
      let k := missingRun d gap
      if k != 0 then advanceWindow (declareLost s q k) q target fuel
      else
        match heldNext d with
        | none => (s, [])
        | some x =>
          if d.noSpace then (s, [])
          else
            let r := advanceWindow (deliverItem (passNext s q) q x) q target fuel
            (r.1, x.pkt :: r.2)

/-- A ring without space: the item is discarded, FULL and FULLEV (R428). -/
def discardFull (s : State) : State := raiseEvent s 89 WV_STAT_FULLEV

/-- Counts a copy (R426). -/
def countDup (s : State) (q : BitVec 14) : State :=
  let d := drawerOf s q
  setDrawer s q { d with dup := min (d.dup + 1) 0xFFFF }

/-- An item takes its place in the queue's window (R426, R428). Answers the items delivered, in order. -/
def windowItem (s : State) (q : BitVec 14) (x : Item) : State × List Packet :=
  let d := drawerOf s q
  let seq := x.pkt.seq
  let dist := (seq - d.next).toNat
  if d.noSpace then (discardFull s, [])
  else if dist = 0 then
    let r := settle (deliverItem (passNext s q) q x) q 64
    (r.1, x.pkt :: r.2)
  else if dist ≤ 63 then
    if d.held.any fun y => y.pkt.seq = seq then (countDup s q, []) else (setDrawer s q { d with held := d.held ++ [x] }, [])
  else if dist < 32768 then
    let r := advanceWindow s q (seq - 63) 200
    let d := drawerOf r.1 q
    if d.next != seq - 63 then (discardFull r.1, r.2)
    else
      let r' := settle (setDrawer r.1 q { d with held := d.held ++ [x] }) q 64
      (r'.1, r.2 ++ r'.2)
  else (countDup s q, [])

/-- What R423, R424 and R448 require of an item before the window; false where it is discarded with a BADQ count. -/
def itemAccepted (s : State) (arrival : Nat) (p : Packet) : Bool :=
  let q := p.qid
  if q.toNat < 32 then
    p.kind = 0 && p.vc = 2 &&
      (q = 1 || ((q = 3 || q = 4) && 2 ≤ p.cls.toNat) ||
        (16 ≤ q.toNat && q.toNat ≤ 21 && arrival = 6 && p.cls = 1 && partnerMid s = some p.smid))
  else
    let d := drawerOf s q
    let least := if q.toNat < 64 then max 2 d.minClass.toNat else d.minClass.toNat
    d.enabled && p.vc = d.vc && least ≤ p.cls.toNat && (!d.needEgr || p.egr) &&
      (if d.mode = drIn then true
       else if d.mode = drScene then (p.kind = 0 || p.kind = 1) && !sealDiscards s d
       else if d.mode = drVideo then (p.kind = 0 || p.kind = 3) && !sealDiscards s d
       else false)

/-- A VIDEO packet on a module without slice decoders (R433). -/
def videoless (s : State) (p : Packet) : Bool := p.vc = 1 && decoderCount s.variant = 0

/-- Removes the first entry of the inbox that satisfies a test. -/
def takeInbox (s : State) (t : Nat × Item → Bool) : Option (State × Nat × Item) :=
  match s.weave.inbox.find? t with
  | none => none
  | some x => some ({ s with weave := { s.weave with inbox := s.weave.inbox.erase x } }, x)

/-- A packet whose queue's writes stall at the bridge: it stays in the drawers, which hold items while the traffic for the scan
die exceeds what the bridge carries (R48, R52). -/
def itemStalls (s : State) (p : Packet) : Bool :=
  let d := drawerOf s p.qid
  32 ≤ p.qid.toNat && d.enabled &&
    ((d.mode = drScene && stalledAtBridge s (.scene p.qid)) || (d.mode != drScene && d.inDram && stalledAtBridge s .video))

/-- The drawer engine takes the descriptors that it asked for, and then the oldest packet that is for a descriptor queue, or
that no queue accepts, and that no stalled source keeps (R52, R423 to R430). -/
def drawerItem (s : State) : State :=
  let s := settleEnables s s.weave.enabling.length
  match takeInbox s fun x =>
      (32 ≤ x.2.pkt.qid.toNat || videoless s x.2.pkt || !itemAccepted s x.1 x.2.pkt) && !itemStalls s x.2.pkt with
  | none => s
  | some (s, arrival, x) =>
    if videoless s x.pkt then countF s WV_ENGCNT_VIDDROP 1
    else if !itemAccepted s arrival x.pkt then countBadQ s
    else (windowItem s x.pkt.qid x).1

/-- The oldest accepted packet of a hardware queue. -/
def takeQueue (s : State) (q : BitVec 14) : Option (State × Item) :=
  (takeInbox s fun x => x.2.pkt.qid = q && itemAccepted s x.1 x.2.pkt).map fun r => (r.1, r.2.2)

/-- The oldest accepted packet of a hardware queue, past the queue's window: what comes of it in order (R426). -/
def takeWindow (s : State) (q : BitVec 14) : Option (State × List Packet) :=
  (takeQueue s q).map fun r => windowItem r.1 q r.2

/-- A queue of the twin protocol opens with the number of the first packet that T brings (R426, R448; log entry 85). -/
def openTwinQueue (s : State) (x : Item) : State :=
  let q := x.pkt.qid
  if s.twin.opened.contains q then s
  else setDrawer { s with twin := { s.twin with opened := s.twin.opened ++ [q] } } q { Drawer.off with next := x.pkt.seq }

/-- The oldest accepted packet of a queue of the twin protocol, past its window (R426, R448). -/
def takeTwin (s : State) (q : BitVec 14) : Option (State × List Packet) :=
  (takeQueue s q).map fun r => windowItem (openTwinQueue r.1 r.2) q r.2

/-- Asks the partner for the numbers that are missing up to the first held item (R461). -/
def sendPatchRequest (s : State) (q : BitVec 14) (pmid : BitVec 14) : State :=
  let d := drawerOf s q
  let k := missingRun d 63
  let s := setDrawer s q { d with asked := seqRun d.next k, notFound := [] }
  twinPacket s pmid 18 (leBytes 2 q.toNat ++ leBytes 2 d.next.toNat ++ leBytes 2 k)

/-- The gap timer of a queue reaches GAPTIME: a patch is asked for, or NEXT is declared lost (R427, R461). -/
def gapTimeout (s : State) (q : BitVec 14) : State :=
  let d := drawerOf s q
  if !d.enabled || d.held.isEmpty || d.gapTime = 0 || !d.asked.isEmpty then s
  else if (heldNext d).isSome then (settle s q 64).1
  else
    match partnerMid s with
    | some m =>
      if d.mode = drScene && flag s WV_TWCTL_EN && !flag s WV_TWSTAT_SILENT && getF s WV_TWCTL_PATCHTIME != 0 then
        sendPatchRequest s q m
      else (settle (declareLost s q 1) q 64).1
    | none => (settle (declareLost s q 1) q 64).1

/-- PATCHTIME has passed since a request: what is still missing is declared lost (R461). -/
def patchTimeout (s : State) (q : BitVec 14) : State :=
  let d := drawerOf s q
  if d.asked.isEmpty then s else (settle (setDrawer s q { d with notFound := d.asked }) q 200).1

/-- A write of WV_DRPTR: HEAD of an IN queue, TAIL of an OUT queue; a value of NSLOTS or more is counted (R438). Freed slots
take waiting loss slots and held items (R428). -/
def drawerPointer (s : State) (w : Word) : State :=
  let q := selectedQid s
  let d := drawerOf s q
  let head := bitsOf w 15 0
  let tail := bitsOf w 31 16
  if d.mode = drIn && d.slots != 0 then
    if d.slots.toNat ≤ head then countReserved s
    else (settle (setDrawer s q { d with head := BitVec.ofNat 16 head }) q 64).1
  else if d.mode = drOut && d.slots != 0 then
    if d.slots.toNat ≤ tail then countReserved s else setDrawer s q { d with tail := BitVec.ofNat 16 tail }
  else s

/-- WV_DRPTR, WV_DRSTAT and WV_DRCNT as they read for the selected queue (R438). -/
def drptrWord (s : State) : Word :=
  let d := drawerOf s (selectedQid s)
  BitVec.ofNat 32 (d.tail.toNat * 65536 + d.head.toNat)
def drstatWord (s : State) : Word :=
  let d := drawerOf s (selectedQid s)
  BitVec.ofNat 32 (d.next.toNat * 65536 + b2n d.enabled * 2 ^ 15 + b2n d.damaged * 2 ^ 14 + b2n d.full * 2 ^ 13 +
    min 63 d.held.length)
def drcntWord (s : State) : Word :=
  let d := drawerOf s (selectedQid s)
  BitVec.ofNat 32 (d.lost * 65536 + d.dup)

/-! ### OUT rings -/

/-- Writes STATUS into an OUT slot, gives its pulse where asked, and advances HEAD (R425). -/
def finishOut (s : State) (q : BitVec 14) (w0 w3 : Nat) (status : Nat) (seq : Option (BitVec 16)) : State :=
  let d := drawerOf s q
  let low := w0 / 16 * 16 % 65536 + status
  let w := match seq with
    | some n => low + n.toNat * 65536
    | none => low + w0 / 65536 * 65536
  let s := writeRing s d d.head.toNat 0 (leBytes 4 w)
  let s := setDrawer s q { d with head := BitVec.ofNat 16 ((d.head.toNat + 1) % max 1 d.slots.toNat) }
  if d.irqEn && w3 % 2 = 1 then pulse s (96 + d.irqLine.toNat) else s

/-- Whether the packet of an OUT queue's slot still waits in an output queue of the module. -/
def outWaits (s : State) (q : BitVec 14) : Bool :=
  s.weave.ports.toList.any fun x => x.queue.any fun i => i.out = some q

/-- The slot at HEAD whose packet is on its way: once its last byte has left, DONE and the next number; LOST_LINK where the
packet was discarded for want of a route (R419, R425). The engine looks at its turn (log entry 111). -/
def settleOut (s : State) (q : BitVec 14) (x : Sending) : State :=
  let d := drawerOf s q
  if outWaits s q then s
  else if x.lost then finishOut (setDrawer s q { d with sending := none }) q x.w0 x.w3 stLost none
  else finishOut (setDrawer s q { d with sending := none, next := d.next + 1 }) q x.w0 x.w3 stDone (some d.next)

/-- Sends the packet of an OUT slot, numbered from NEXT (R425). -/
def sendOut (s : State) (q : BitVec 14) (w0 ctx : Nat) (w3 : Nat) (body : List Byte) : State :=
  let d := drawerOf s q
  let pkt := makePacket (BitVec.ofNat 2 (natBits d.dest.toNat 15 14)) (BitVec.ofNat 14 (natBits d.dest.toNat 13 0)) false
    d.vc d.rqid d.next (BitVec.ofNat 4 (natBits w0 7 4)) (BitVec.ofNat 32 ctx) body
  let r := originate s pkt (some q)
  let x : Sending := { w0 := w0, w3 := w3, lost := !r.2 }
  settleOut (setDrawer r.1 q { drawerOf r.1 q with sending := some x }) q x

/-- Length of an OUT item, in its header. -/
def outLength (h : List Byte) : Nat := natBits (leAt h 4 4) 11 0

/-- Asks for the next bytes of an OUT slot in DRAM, from offset `off`: up to 256 at a time, with source 0x07 (R38, R425). -/
def askOut (s : State) (q : BitVec 14) (off left : Nat) : State :=
  let d := drawerOf s q
  issueToScan s (.readRequest .video (.dram (d.base.toNat + d.head.toNat * d.slotBytes + off)) (max 4 (min 256 left)))

/-- The OUT slot that is being read is no longer. -/
def dropOutRead (s : State) : State := { s with weave := { s.weave with outRead := none } }

/-- The answers of an OUT slot's reads: the header, then the payload in parts; the item is sent when all has come (R425). -/
def outReadAnswer (s : State) (r : OutRead) : State :=
  let q := r.qid
  let d := drawerOf s q
  let off := if r.head.isNone then 0 else 16 + r.got.length
  match takeAnswer s .video (.dram (d.base.toNat + d.head.toNat * d.slotBytes + off)) with
  | none => s
  | some (s, bs, failed) =>
    match r.head with
    | none =>
      let len := outLength bs
      if failed then finishOut (dropOutRead s) q 0 0 stPoisoned none
      else if 2048 < len then finishOut (dropOutRead s) q (leAt bs 0 4) (leAt bs 12 4) stRefused none
      else if len = 0 then sendOut (dropOutRead s) q (leAt bs 0 4) (leAt bs 8 4) (leAt bs 12 4) []
      else
        askOut { s with weave := { s.weave with outRead := some { r with head := some bs, left := len } } } q 16 len
    | some h =>
      let got := r.got ++ bs
      let left := r.left - bs.length
      if failed then finishOut (dropOutRead s) q (leAt h 0 4) (leAt h 12 4) stPoisoned none
      else if left = 0 then
        sendOut (dropOutRead s) q (leAt h 0 4) (leAt h 8 4) (leAt h 12 4) (got.take (outLength h))
      else askOut { s with weave := { s.weave with outRead := some { r with got := got, left := left } } } q (16 + got.length) left

/-- The engine turns to the next slot of an OUT ring in DRAM, one slot at a time, or takes what has come of it. -/
def outFromDram (s : State) (q : BitVec 14) : State :=
  match s.weave.outRead with
  | some r => if r.qid = q then outReadAnswer s r else s
  | none =>
    if stalledAtBridge s .video then s
    else
      let s := dropAnswers s .video
      askOut { s with weave := { s.weave with outRead := some { qid := q, head := none, left := 0, got := [] } } } q 0 16

/-- A read of the drawer engine fails with TIMED_OUT (R51): a descriptor's leaves its queue disabled; an OUT slot's is asked
for anew at the engine's next turn (log entry 58). -/
def drawerTimedOut (s : State) (src : Src) : State :=
  if !readLost s src then s
  else
    match src with
    | .scene q =>
      if s.weave.enabling.any fun e => e.1 = q then
        let s := dropReads s src
        leaveDisabled { s with weave := { s.weave with enabling := s.weave.enabling.filter fun e => e.1 != q } } q
      else s
    | .video => dropOutRead (dropReads s src)
    | _ => s

/-- The next slot of an OUT ring in house SRAM (R425). -/
def outFromHouse (s : State) (q : BitVec 14) : State :=
  let d := drawerOf s q
  let r := readRing s d d.head.toNat 0 16
  match r.2 with
  | none => finishOut r.1 q 0 0 stPoisoned none
  | some h =>
    let w0 := leAt h 0 4
    let len := natBits (leAt h 4 4) 11 0
    let w3 := leAt h 12 4
    if 2048 < len then finishOut r.1 q w0 w3 stRefused none
    else
      let b := readRing r.1 d d.head.toNat 16 len
      match b.2 with
      | none => finishOut b.1 q w0 w3 stPoisoned none
      | some body => sendOut b.1 q w0 (leAt h 8 4) w3 (body.take len)

/-- The engine sees to the slot that is leaving, or takes the next slot of an OUT ring (R425). An item that is not sent consumes
no SEQ. -/
def outItemSend (s : State) (q : BitVec 14) : State :=
  let d := drawerOf s q
  if !d.enabled || d.mode != drOut || d.head = d.tail then s
  else
    match d.sending with
    | some x => settleOut s q x
    | none => if d.inDram then outFromDram s q else outFromHouse s q

end Sys2Proof.Machine
end

