-- ==== Sys2Proof/Machine/PadDrive.lean ====
section
/-! DEFINITION. What drives a pad: the order of pin functions, the levels of the peripheral outputs, latches and holds (R549 to
R551, R554). -/

namespace Sys2Proof.Machine

/-- A drive port function that the interlock gates (R549). -/
def gatedFunc (f : Nat) : Bool := fnData ≤ f && f ≤ fnRow

/-- FUNC of a pad as it acts: OFF for a gated function of a region held in reset (R243). -/
def padFunc (s : State) (p : Nat) : Nat :=
  if gatedFunc (portFunc s p) && regionsInUse s ≤ p / 128 then 0 else portFunc s p

/-- The pads of the row-scan aids (R550). -/
def rsaPad (s : State) (i : Nat) : Nat := (if flag s PAD_MUXEN_RSALOC then 248 else 488) + i

/-- The pads of the UART: transmit, receive (R550). -/
def uartPads (s : State) : Nat × Nat := if flag s PAD_MUXEN_UARTLOC then (254, 253) else (496, 497)

/-- The enabled peripheral outputs with the pads they map to; a peripheral is named by its pad in the table's first column
(R550). -/
def peripheralOutputs (s : State) : List (Nat × Nat) :=
  let tdm := flag s AU_CTL_TDMEN
  let i2s := flag s AU_CTL_I2SEN
  (if tdm then [(480, 480), (481, 481), (482, 482)] else []) ++
    (if tdm || i2s then [(483, 483)] else []) ++
    (if i2s && flag s AU_CTL_CODECM then [(484, 484), (485, 485)] else []) ++
    (if flag s PAD_MUXEN_RSAEN then (List.range 4).map fun i => (rsaPad s i, 488 + i) else []) ++
    (if flag s PAD_MUXEN_UARTEN then [((uartPads s).1, 496)] else [])

/-- Bit of a pad in an array of words. -/
def padBit (s : State) (reg : Nat → Nat) (p : Nat) : Bool := (regWord s (reg (p / 32))).getLsbD (p % 32)

/-- What settles a pad after the interlock: items 2 to 4 of R549. -/
def selectedDriver (s : State) (p : Nat) : PadDriver :=
  if !padBonded s.variant p || flag s (PAD_CFG_AMODE p) || getF s PAD_EGSEL_PAD = p then .none
  else
    let ps := (peripheralOutputs s).filterMap fun x => if x.1 = p then some x.2 else none
    if !ps.isEmpty then .peripherals ps
    else if padFunc s p = 1 then .gpio (padBit s PAD_GPOE p) (padBit s PAD_GPOUT p)
    else if padFunc s p = 0 then .none
    else .function (padFunc s p)

/-- The kind of driver, for telling a change of function from a change of level (R551). -/
def PadDriver.kind : PadDriver → PadDriver
  | .gpio _ _ => .gpio false false
  | d => d

/-! ### Levels -/

/-- A row-scan aid of the row slot in progress: `none` for one that may be within the lane clock that it is high for (R550).
Region 0 generates. -/
def rowScanAid (s : State) (i : Nat) : Option Bool :=
  let atStart := s.drive.plane.isNone || (s.drive.plane = some 0 && getF s SC_PGTIME_RDEAD < 2)
  if i = 0 then some s.drive.plane.isNone
  else if i = 3 then some s.drive.lit
  else if atStart && (i = 1 || s.drive.row = 0) then none
  else some false

/-- The level of a peripheral output, named by its pad of the table's first column; none for one that changes within the slot or
the byte. The row-scan aids follow region 0 and are low while it does not generate; a UART sends 1 while it has no byte (R550). The
bits of the audio outputs follow a clock that the model does not step (log entry 113). -/
def peripheralLevel (s : State) (i : Nat) : Option Bool :=
  if 488 ≤ i && i ≤ 491 then if bitAt (getF s SC_PGSTAT_ACTIVE) 0 then rowScanAid s (i - 488) else some false
  else if i = 496 then if s.pads.uartTx.isEmpty then some true else none
  else none

/-- The level that a driver gives a pad at one instant; none where the output is not enabled. Peripherals give the OR of their
levels; a level that changes within the slot is a free value, the same for every pad of one peripheral (R549, R550). -/
def driverLevel (s : State) (n p : Nat) : PadDriver → Option Bool
  | .none => none
  | .gpio oe l => if oe then some l else none
  | .function _ => if regionCondition s (p / 128) = 0 then none else some ((portLevel s p).getD (Config.padLevel p n))
  | .peripherals ps => some (ps.any fun i => (peripheralLevel s i).getD (Config.padLevel (1024 + i) n))
  | .boundary => some (Config.padLevel (512 + p) n)

/-- A driver's output enable and level as a latch or a hold keeps them (R551, R554). -/
def frozen (s : State) (n p : Nat) (d : PadDriver) : PadDriver :=
  match driverLevel s n p d with
  | none => .gpio false false
  | some l => .gpio true l

/-! ### Holds -/

/-- A pad's function is gated and the interlock keeps it tri-stated (R549). -/
def padGated (s : State) (p : Nat) : Bool := gatedFunc (padFunc s p) && !flag s SC_OWNSTAT_DRIVING

/-- What a pad held at a change of function had from `old`: nothing where the interlock tri-stated it, then or by the same change
(R251, R549, R551). -/
def heldDriver (old s : State) (n p : Nat) : PadDriver :=
  if gatedFunc (padFunc old p) && !flag s SC_OWNSTAT_DRIVING then .gpio false false
  else frozen old n p (selectedDriver old p)

/-- Pads of the list whose function has changed since `old` hold the level and output enable that they had; a hold in force starts
again and keeps what it held (R551). -/
def holdChanged (old s : State) (ps : List Nat) : State :=
  let qs := ps.filter fun p =>
    (selectedDriver old p).kind != (selectedDriver s p).kind && !s.pads.holds.any fun x => x.1 = p
  if qs.isEmpty then s
  else
    let f := takeFresh s
    { f.2 with pads := { f.2.pads with holds := f.2.pads.holds ++ qs.map fun p => (p, heldDriver old s f.1 p) } }

/-- All pads that a drive port function drives or did drive, which a change of the scan die's set-up can affect. -/
def holdPorts (old s : State) : State :=
  holdChanged old s ((List.range 512).filter fun p => padFunc old p != padFunc s p)

/-- Pads whose function can change with the registers of the pad and audio blocks. -/
def muxPads : List Nat :=
  [480, 481, 482, 483, 484, 485, 488, 489, 490, 491, 248, 249, 250, 251, 496, 497, 254, 253]

end Sys2Proof.Machine
end

