-- ==== Sys2Proof/Machine/Geometry.lean ====
section
/-! DEFINITION. Geometry items and activation, the route plan, and video slices (R413 to R420, R431 to R433, R595). -/

namespace Sys2Proof.Machine

/-! ### Geometry -/

/-- Byte address of a geometry table (R415). -/
def geoTable (s : State) (second : Bool) : Nat := getF s WV_GEOBASE_BASE * 524288 + (if second then 262144 else 0)

/-- The table that is not active: the first where none is (R414, log entry 35). -/
def inactiveTable (s : State) : Bool := !(s.weave.table.getD true)

/-- Lets the oldest accepted item of QID 3 through its window where none waits for the loader. -/
def admitGeometry (s : State) : State :=
  if !s.weave.geoWaiting.isEmpty then s
  else
    match takeWindow s 3 with
    | none => s
    | some (s, ps) => { s with weave := { s.weave with geoWaiting := s.weave.geoWaiting ++ ps } }

/-- COUNT of a geometry item. -/
def geoCount (p : Packet) : Nat := leAt p.payload 6 2

/-- An item that activates (R414). -/
def isActivation (p : Packet) : Bool := 16 ≤ p.payload.length && geoCount p = 0

/-- Issues the PWs of a geometry item's entries, and notes them as written for the epoch (R414, R415). -/
def writeEntries (s : State) (epoch first n : Nat) (bs : List Byte) : State :=
  (List.range n).foldl (fun s i =>
    let mid := first + i
    if 16384 ≤ mid then s
    else
      let s := (issueDram s (.scene 3) (geoTable s (inactiveTable s) + 16 * mid) ((bs.drop (16 * i)).take 16)).1
      let ms := sget s.weave.loading [] epoch
      if ms.contains mid then s
      else { s with weave := { s.weave with loading := sput s.weave.loading [] epoch (ms ++ [mid]) } }) s

/-- The loader takes an item with entries (R414): discarded whole where it is malformed. -/
def geometryItem (s : State) : State :=
  let s := admitGeometry s
  match s.weave.geoWaiting, s.weave.activating with
  | p :: ps, none =>
    if isActivation p then s
    else
      let s := { s with weave := { s.weave with geoWaiting := ps } }
      if p.payload.length < 16 || 127 < geoCount p || p.payload.length < 16 + 16 * geoCount p then countBadQ s
      else writeEntries s (leAt p.payload 0 4) (leAt p.payload 4 2) (geoCount p) (p.payload.drop 16)
  | _, _ => s

/-- The anchors that an activation item names, as the ANCHOR field of their beacons spells them (R67, R595). -/
def namedAnchors (p : Packet) : List (BitVec 16) :=
  (([(10, 1), (12, 2)] : List (Nat × Nat)).filter fun o => bitAt (leAt p.payload o.1 2) 15).map fun o =>
    BitVec.ofNat 16 (natBits (leAt p.payload o.1 2) 13 0 + o.2 * 16384)

/-- Byte address of the entry of a MID in the table that is not active. -/
def entryAddr (s : State) (mid : Nat) : Nat := geoTable s (inactiveTable s) + 16 * mid

/-- An item with COUNT = 0 starts an activation: the entries written for its epoch are read back through the bridge, behind the
writes (R38, R42, R414, R415). -/
def geometryActivate (s : State) : State :=
  let s := admitGeometry s
  match s.weave.geoWaiting, s.weave.activating with
  | p :: ps, none =>
    if !isActivation p then s
    else
      let a : Activation := { epoch := BitVec.ofNat 32 (leAt p.payload 0 4), total := leAt p.payload 8 2,
                              anchors := namedAnchors p,
                              failed := !bridgeUp s || dramTop < getF s WV_GEOBASE_BASE * 524288,
                              reading := sget s.weave.loading [] (leAt p.payload 0 4), entries := [] }
      let s := { s with weave := { s.weave with geoWaiting := ps, activating := some (if a.failed then { a with reading := [] } else a) } }
      if a.failed then s
      else a.reading.foldl (fun s mid => issueToScan s (.readRequest (.scene 3) (.dram (entryAddr s mid)) 16)) s
  | _, _ => s

/-- An entry of the geometry table as read back: its MID and words (R413). -/
abbrev GeoEntry := Nat × List Nat

/-- Word 0 as a position. -/
def GeoEntry.pos (e : GeoEntry) : Word := BitVec.ofNat 32 (e.2.getD 0 0)

/-- The area of an entry (R413). -/
def GeoEntry.area (e : GeoEntry) : Area :=
  { x0 := natBits (e.2.getD 1 0) 17 0, y0 := natBits (e.2.getD 2 0) 15 0, w := natBits (e.2.getD 2 0) 25 16 + 1,
    h := natBits (e.2.getD 3 0) 8 0 + 1 }

/-- Two areas overlap. -/
def Area.overlaps (a b : Area) : Bool :=
  decide (a.x0 < b.x0 + b.w) && decide (b.x0 < a.x0 + a.w) && decide (a.y0 < b.y0 + b.h) && decide (b.y0 < a.y0 + a.h)

/-- Entries match this module's position and side. -/
def ownEntry (s : State) (e : GeoEntry) : Bool :=
  flag s WV_POS_POSV && posValid e.pos && posCol e.pos = getF s WV_POS_COL && posRow e.pos = getF s WV_POS_ROW &&
    posSide e.pos = flag s WV_POS_SIDE

/-- Another module's entry whose area collides with `e` (R36): twins share their area. -/
def collides (e o : GeoEntry) : Bool :=
  o.1 != e.1 && posValid o.pos && e.area.overlaps o.area &&
    !(posCol o.pos = posCol e.pos && posRow o.pos = posRow e.pos && posSide o.pos != posSide e.pos)

/-- The module's entry among those read back, where the activation is in order (R27, R36, R414, R415). -/
def acceptedEntry (s : State) (a : Activation) (es : List GeoEntry) : Option GeoEntry :=
  if a.failed || es.length < a.total then none
  else
    match es.filter (ownEntry s) with
    | [e] => if 256 * regionCount s.variant < e.area.w || es.any (collides e) then none else some e
    | _ => none

/-- The module takes an area (R36): a change rescans the objects and makes the sideboard INVALID (R131, R168). A module that had
none composes from then on (R600); regions out of use are held in reset, their ports OFF (R27, R243, R551). -/
def takeArea (s : State) (a : Area) : State :=
  if s.area = some a then s
  else
    let s' := holdUnusedRegions (invalidateSideboard (startRescan { s with area := some a }))
    let s' := if regionsInUse s = regionsInUse s' then s' else holdPorts s s'
    if s.area.isNone then composesFromHere s' else s'

/-- The table becomes active (R414, R415, R595). -/
def activateTable (s : State) (a : Activation) (es : List GeoEntry) (e : GeoEntry) : State :=
  let pos := es.foldl (fun m x => sput m 0 x.1 x.pos) []
  let s := { s with weave := { s.weave with
    table := some (inactiveTable s), loading := sput s.weave.loading [] a.epoch.toNat [], positions := pos,
    anchors := a.anchors } }
  let s := setRegWord s WV_GEPOCH a.epoch
  let s := setF (setF s WV_ID_MID e.1) WV_ID_MIDV 1
  let s := { s with twin := { s.twin with latched := twinned s } }
  raiseEvent (takeArea s e.area) 87 WV_STAT_GEOEV

/-- Takes the entries that have come, in the order of their reads (R42, R414). `fuel` bounds their number. -/
def takeEntries (s : State) (a : Activation) : Nat → State × Activation
  | 0 => (s, a)
  | fuel + 1 =>
    match a.reading with
    | [] => (s, a)
    | mid :: mids =>
      match takeAnswer s (.scene 3) (.dram (entryAddr s mid)) with
      | none => (s, a)
      | some (s, bs, bad) =>
        let e : GeoEntry := (mid, (List.range 4).map fun i => leAt bs (4 * i) 4)
        takeEntries s { a with reading := mids, entries := a.entries ++ [e], failed := a.failed || bad } fuel

/-- The activation ends once every entry has come, or the bridge has lost a read: the table becomes active or is refused (R414,
R415). -/
def geometryActivationDone (s : State) : State :=
  match s.weave.activating with
  | none => s
  | some a =>
    let lost := a.failed || !bridgeUp s
    let r := if lost then (dropReads s (.scene 3), { a with failed := true, reading := [] }) else takeEntries s a a.reading.length
    if !r.2.reading.isEmpty then { r.1 with weave := { r.1.weave with activating := some r.2 } }
    else
      let s := { r.1 with weave := { r.1.weave with activating := none } }
      match acceptedEntry s r.2 r.2.entries with
      | some e => activateTable s r.2 r.2.entries e
      | none => raiseEvent s 87 WV_STAT_GEOREFEV

/-! ### Routes -/

/-- Replaces a route entry whole (R417, R420). -/
def setRoute (s : State) (mid : Nat) (e : BitVec 16) : State :=
  { s with weave := { s.weave with routes := sput s.weave.routes 0 mid e } }

/-- One record of a route plan item (R420). -/
def routeRecord (s : State) (v : Nat) : State :=
  let id := natBits v 13 0
  match natBits v 15 14 with
  | 0 => setRoute s id (BitVec.ofNat 16 (natBits v 31 16))
  | 1 => if id < 256 then setRegWord s (WV_MC id) (BitVec.ofNat 32 (natBits v 27 16)) else countBadQ s
  | _ => countBadQ s

/-- The records of a route plan item. -/
def routeRecords (s : State) (p : Packet) : State :=
  (List.range (p.payload.length / 4)).foldl (fun s i => routeRecord s (leAt p.payload (4 * i) 4)) s

/-- The route loader takes an item (R420). -/
def routePlanItem (s : State) : State :=
  match takeWindow s 4 with
  | none => s
  | some (s, ps) => ps.foldl routeRecords s

/-- A write of WV_RTDATA replaces the selected entry (R436). -/
def routeWrite (s : State) (w : Word) : State := setRoute s (getF s WV_RTSEL_MID) (w.setWidth 16)

/-- WV_RTDATA as it reads. -/
def routeWord (s : State) : Word := (sget s.weave.routes 0 (getF s WV_RTSEL_MID)).setWidth 32

/-! ### Slices -/

/-- A slot of a VIDEO ring as a slice decoder finds it: none for a loss slot, a refused one or an uncorrectable read. -/
abbrev Chunk := Option (List Byte)

/-- Slots that the ring holds from HEAD on. -/
def ringCount (d : Drawer) : Nat :=
  if d.slots = 0 then 0 else (d.tail.toNat + d.slots.toNat - d.head.toNat) % d.slots.toNat

/-- Reads one chunk. -/
def readChunk (s : State) (d : Drawer) (n : Nat) : State × Chunk :=
  let h := readRing s d n 0 16
  match h.2 with
  | none => (h.1, none)
  | some w =>
    if natBits (leAt w 0 4) 3 0 != stDone then (h.1, none)
    else
      let len := natBits (leAt w 4 4) 11 0
      let b := readRing h.1 d n 16 len
      (b.1, b.2.map fun bs => bs.take len)

/-- A chunk begins a slice, or ends one (R431). -/
def Chunk.first (c : Chunk) : Bool := match c with
  | some b => leAt b 16 4 = 0
  | none => false
/-- LAST of a chunk. -/
def Chunk.isLast (c : Chunk) : Bool := match c with
  | some b => bitAt (leAt b 14 2) 15
  | none => false

/-- The slots of the slice at HEAD: up to the chunk with LAST = 1, or up to the next slice's first chunk where that was
lost. None while the slice is not complete. `fuel` bounds the number of slots. -/
def gatherSlice (s : State) (d : Drawer) (acc : List Chunk) : Nat → State × Option (List Chunk)
  | 0 => (s, none)
  | fuel + 1 =>
    if ringCount d ≤ acc.length then (s, none)
    else
      let r := readChunk s d ((d.head.toNat + acc.length) % d.slots.toNat)
      if !acc.isEmpty && Chunk.first r.2 then (r.1, some acc)
      else if Chunk.isLast r.2 then (r.1, some (acc ++ [r.2]))
      else gatherSlice r.1 d (acc ++ [r.2]) fuel

/-- Plain data of a chunk, and whether its verification held: the content key is the decoders' copy (R431, R433, R520). -/
def chunkData (s : State) (b : List Byte) : Option (List Byte) :=
  let data := (b.drop 32).take (b.length - 48)
  let key := (b.getD 13 0).toNat
  if key < 128 then some data
  else
    match s.hutch.decoders.toList.getD (key % 32) none with
    | none => none
    | some k => Crypto.gcmOpen k ((b.drop 20).take 12) (b.take 20) data (b.drop (b.length - 16))

/-- Offsets follow one another without gaps (R433). -/
def contiguous (bs : List (List Byte)) : Bool :=
  (bs.foldl (fun (a : Nat × Bool) b => (a.1 + (b.length - 48), a.2 && leAt b 16 4 = a.1)) (0, true)).2

/-- A component as written: 8 bits become 10 (R432). -/
def component (pps : List Byte) (v : Nat) : Nat :=
  if (pps.getD 3 0).toNat / 16 = 8 then (v % 256) * 4 + v % 256 / 64 else v % 1024

/-- A decoded slice: its picture parameter set, data and place (R431, R433). -/
structure Slice where
  pps : List Byte
  data : List Byte
  base : Nat
  pitch : Nat
  sx : Nat
  sy : Nat
deriving DecidableEq, Repr

/-- Width of a slice, its height, and whether it is 4:2:2 (R432). -/
def Slice.width (c : Slice) : Nat := beNat ((c.pps.drop 12).take 2)
def Slice.height (c : Slice) : Nat := beNat ((c.pps.drop 10).take 2)
def Slice.is422 (c : Slice) : Bool := bitAt (c.pps.getD 88 0).toNat 0

/-- Y, Cb and Cr of pixel `x` of slice line `y`. -/
def Slice.pixel (c : Slice) (x y : Nat) : Nat × Nat × Nat :=
  let p := Config.dscDecode c.pps c.data x y
  (component c.pps p.1, component c.pps p.2.1, component c.pps p.2.2)

/-- The twelve samples of a 4:2:2 group, as pixel of the group and component: 0 Y, 1 Cb, 2 Cr (R112). -/
def groupSamples : List (Nat × Nat) :=
  [(0, 1), (0, 0), (0, 2), (1, 0), (2, 1), (2, 0), (2, 2), (3, 0), (4, 1), (4, 0), (4, 2), (5, 0)]

/-- Width of the picture that the slice is of (R432). -/
def Slice.pictureWidth (c : Slice) : Nat := beNat ((c.pps.drop 8).take 2)

/-- Word `k` of 4:2:2 group `g` on slice line `y`; samples left or right of the slice stay as `old` holds them (R433). -/
def Slice.groupWord (c : Slice) (g y k old : Nat) : Nat :=
  (((groupSamples.drop (3 * k)).take 3).zipIdx.map fun e =>
    let x := 6 * g + e.1.1
    let v := if x < c.sx || c.sx + c.width ≤ x then natBits old (10 * e.2 + 9) (10 * e.2)
      else
        let p := c.pixel (x - c.sx) y
        if e.1.2 = 0 then p.1 else if e.1.2 = 1 then p.2.1 else p.2.2
    v * 2 ^ (10 * e.2)).sum

/-- Where line `y` of a slice begins in DRAM, and its bytes (R112, R433). -/
def Slice.line (s : State) (c : Slice) (y : Nat) : Nat × List Byte :=
  let row := c.base + (c.sy + y) * c.pitch
  if c.is422 then
    let g0 := c.sx / 6
    let n := (c.sx + c.width + 5) / 6 - g0
    (row + 16 * g0, ((List.range n).map fun i => ((List.range 4).map fun k =>
      leBytes 4 (c.groupWord (g0 + i) y k (dramNat s (row + 16 * (g0 + i) + 4 * k) 4))).flatten).flatten)
  else
    (row + 4 * c.sx, ((List.range c.width).map fun x =>
      let p := c.pixel x y
      leBytes 4 (p.2.1 + p.1 * 1024 + p.2.2 * 1048576)).flatten)

/-- Last byte that a slice writes. -/
def Slice.lastByte (c : Slice) : Nat :=
  let row := c.base + (c.sy + (c.height - 1)) * c.pitch
  if c.is422 then row + 16 * ((c.sx + c.width + 5) / 6) - 1 else row + 4 * (c.sx + c.width) - 1

/-- A 4:2:2 slice whose width is no multiple of 6 ends at the picture's right edge, or is outside the subset (R432; log entry 118). -/
def Slice.outsideSubset (c : Slice) : Bool := c.is422 && c.width % 6 != 0 && decide (c.sx + c.width < c.pictureWidth)

/-- A slice from its chunks: none with the count that its discard takes, VIDDROP or AUTHFAIL (R433). -/
def sliceOf (s : State) (cs : List Chunk) : Slice ⊕ Fld :=
  let bs := cs.filterMap id
  if bs.length < cs.length || (bs.any fun b => b.length < 48) || !contiguous bs then .inr WV_ENGCNT_VIDDROP
  else
    let h := bs.headD []
    match s.weave.pps.toList.getD ((h.getD 12 0).toNat % 8) none with
    | none => .inr WV_ENGCNT_VIDDROP
    | some pps =>
      if bs.any fun b => (chunkData s b).isNone then .inr WV_ENGCNT_AUTHFAIL
      else
        let c : Slice := { pps, data := (bs.map fun b => (chunkData s b).getD []).flatten, base := leAt h 0 4,
                           pitch := leAt h 4 4, sx := leAt h 8 2, sy := leAt h 10 2 }
        if dramTop < c.lastByte || c.outsideSubset then .inr WV_ENGCNT_VIDDROP else .inl c

/-- Writes a decoded slice into its buffer, watched by the guard windows (R433). A slice is decoded in one step, so the first free
decoder is decoder 0, whose writer code is 0x41 (R198). Its writes stall where the sorter's queue is full (R127). -/
def writeSlice (s : State) (c : Slice) : State :=
  (List.range c.height).foldl (fun s y =>
    let l := c.line s y
    let s := makeRoom s l.1 l.2.length 1024
    dramWrite s { req := 0x41, guarded := true, hutch := false } none l.1 l.2) s

/-- During a rescan the sorter takes nothing off its queue: a slice that would fill it waits (R127, R131). -/
def sliceStalls (s : State) (c : Slice) : Bool :=
  s.scene.rescan.isSome && decide (1024 < (((List.range c.height).flatMap fun y =>
    entriesTouched s (c.line s y).1 (c.line s y).2.length).foldl queueEntry s.scene.queue).length)

/-- The slots of a slice are free, and what waited for them takes its place (R428, R433). -/
def passSlice (s : State) (q : BitVec 14) (n : Nat) : State :=
  let d := drawerOf s q
  (settle (setDrawer s q { d with head := BitVec.ofNat 16 ((d.head.toNat + n) % d.slots.toNat) }) q 64).1

/-- A free decoder takes the slice at the head of a VIDEO queue's ring (R433). -/
def sliceDecode (s : State) (q : BitVec 14) : State :=
  let d := drawerOf s q
  if !d.enabled || d.mode != drVideo || !bridgeUp s || !sourceQuiet s .video then s
  else
    let r := gatherSlice s d [] (ringCount d)
    match r.2 with
    | none => s
    | some cs =>
      let x := sliceOf r.1 cs
      if (match x with
          | .inl c => sliceStalls r.1 c
          | .inr _ => false) then s
      else
      let s := match x with
        | .inl c => writeSlice r.1 c
        | .inr f => countF r.1 f 1
      passSlice s q cs.length

end Sys2Proof.Machine
end

