-- ==== Sys2Proof/Machine/Twin.lean ====
section
/-! DEFINITION. The twin pair: roles, faults and releases, heartbeats, signatures, the self-check, take and yield, patches (R445
to R466, R602). -/

namespace Sys2Proof.Machine

/-- Interlock in HOLDING. -/
def holding (s : State) : Bool := ownState s = ownHolding

/-- ROLE of WV_TWSTAT (R446, R464). -/
def twinRole (s : State) : Nat :=
  if s.twin.failed && twinned s then 3 else if !paired s then 0 else if holding s then 1 else 2

/-- An armed standby (R446). -/
def armed (s : State) : Bool := twinRole s = 2 && flag s SC_OWNCTL_CLAIM

/-- SILENT (R450). -/
def silent (s : State) : Bool := flag s WV_TWSTAT_SILENT

/-- WV_TWSTAT as it reads: PMID, PAIRED and ROLE follow the links and the interlock (R445, R446, R464). -/
def twstatWord (s : State) : Word :=
  let w := regWord s WV_TWSTAT
  let w := putBits w 31 18 ((partnerMid s).map (·.toNat) |>.getD 0)
  putBits (putBits w 5 5 (b2n (paired s))) 1 0 (twinRole s)

/-! ### Faults and releases -/

/-- Entry to FAILED with the boundary release of the harness, which clears CLAIM (R447, R455, R456). -/
def enterFailed (s : State) : State :=
  boundaryRelease { s with twin := { s.twin with rearm := false, failAtRelease := true } }

/-- Reports a fault in SC_TWREL (R465): bit 0 render memory, 1 house locked, 2 bridge down, 3 line check, 4 harness power. -/
def reportFault (s : State) (bit : Nat) : State :=
  if bitAt (getF s SC_TWREL_FAULT) bit then s else raiseEvent (orF s SC_TWREL_FAULT (2 ^ bit)) 61 SC_TWREL_FAULTEV

/-- A fatal fault: reported, and where its FATREL bit is set a twinned module releases the harness and enters FAILED (R455,
R602). -/
def fatalFault (s : State) (bit : Nat) : State :=
  let s := reportFault s bit
  if s.twin.latched && bitAt (getF s SC_TWREL_FATREL) bit then enterFailed s else s

/-- The harness power-good loss: a twinned module with its FATREL bit set releases and enters FAILED (R455, R562, R602). -/
def powerGoodLoss (s : State) : State := fatalFault s 4

/-- The bridge has been outside UP for 25 µs (R455). -/
def bridgeOutage (s : State) : State := if bridgeUp s then s else fatalFault s 2

/-! ### Reports of the pair -/

/-- A twin record (R584). -/
def recordTwin (s : State) (what : Nat) : State :=
  record s .warn 0x6002 (twstatWord s).toNat (getF s SC_TWREL_FAULT) what 0

/-- Entry to HOLDING of a twinned module: TAKEOVEREV, its record and report (R458). -/
def takeoverDone (s : State) : State :=
  if !twinned s then s
  else
    let fault := (s.twin.partner.map fun b => b.fault.toNat).getD 0
    let pmid := ((partnerMid s).orElse fun _ => otherSide s).map (·.toNat) |>.getD 0
    let s := recordTwin (raiseEvent s 90 WV_TWSTAT_TAKEOVEREV) 2
    sendReport s (leBytes 2 (getF s WV_ID_MID) ++ leBytes 2 pmid ++ leBytes 1 fault ++ leBytes 3 0 ++
      leBytes 8 (beamPos s).toNat)

/-- A packet of the twin protocol to the partner (R448). -/
def twinSend (s : State) (qid : BitVec 14) (payload : List Byte) : State :=
  match partnerMid s with
  | none => s
  | some m => twinPacket s m qid payload

/-! ### Heartbeats -/

/-- Result code of a self-check (R449). -/
def checkCode : Option Bool → Nat
  | none => 0
  | some true => 1
  | some false => 2

/-- Last accepted epoch of a stream; 0 before the first. -/
def epochOf (s : State) (st : Nat) : Word := (s.comp.lastEpoch.toList.getD st none).getD 0

/-- The heartbeat payload (R449). -/
def heartbeatBytes (s : State) : List Byte :=
  let role := match twinRole s with
    | 1 => 0
    | 2 => 1
    | _ => 2
  leBytes 8 (beamPos s).toNat ++
    leBytes 1 (role + b2n (armed s) * 4 + b2n (silent s) * 8 + beamState s % 8 * 16) ++
    leBytes 1 (getF s SC_TWREL_FAULT) ++ leBytes 1 (checkCode s.twin.ownResult) ++ [0] ++
    ((List.range 4).map fun st => leBytes 4 (epochOf s st).toNat).flatten ++ leBytes 4 s.twin.hbSeq.toNat

/-- HEARTBEAT_SEND (R449). -/
def heartbeatSend (s : State) : State :=
  if !supervised s then s
  else twinSend { s with twin := { s.twin with hbSeq := s.twin.hbSeq + 1 } } 16 (heartbeatBytes s)

/-- A heartbeat of the partner is kept, and SILENT clears (R449, R450). -/
def takeBeat (s : State) (p : Packet) : State :=
  if !supervised s then s
  else
    let b := p.payload
    let beat : Beat :=
      { state := b.getD 8 0, fault := b.getD 9 0, check := b.getD 10 0,
        epochs := #v[BitVec.ofNat 32 (leAt b 12 4), BitVec.ofNat 32 (leAt b 16 4), BitVec.ofNat 32 (leAt b 20 4),
                     BitVec.ofNat 32 (leAt b 24 4)] }
    setF { s with twin := { s.twin with partner := some beat } } WV_TWSTAT_SILENT 0

/-- The packets of a queue of the twin protocol that are in order take their effects (R426, R448). -/
def eachTwin (s : State) (q : BitVec 14) (f : State → Packet → State) : State :=
  match takeTwin s q with
  | none => s
  | some (s, ps) => ps.foldl f s

/-- HEARTBEAT_RECEIVE (R449). -/
def heartbeatReceive (s : State) : State := eachTwin s 16 takeBeat

/-- The module listens for heartbeats: it is supervised, or a T that has been cut ended that (R450, R463). -/
def listens (s : State) : Bool := supervised s || (twinned s && flag s WV_TWCTL_EN && s.twin.partner.isSome)

/-- HEARTBEAT_MISS: four in a row were missed (R450). -/
def heartbeatMiss (s : State) : State :=
  if !listens s || silent s then s
  else
    let s := raiseEvent (setF s WV_TWSTAT_SILENT 1) 90 WV_TWSTAT_SILENTEV
    recordTwin (countF s WV_TWCNT_HBMISS 1) 0

/-- The epochs are compared at a frame start (R451). -/
def compareEpochs (s : State) : State :=
  match s.twin.partner with
  | none => s
  | some b =>
    if !supervised s then s
    else if (List.range 4).any fun st => b.epochs.toList.getD st 0 != epochOf s st then
      let n := s.twin.epochRun + 1
      let s := { s with twin := { s.twin with epochRun := n } }
      if 2 ≤ n then setF s WV_TWSTAT_EPDIFF 1 else s
    else setF { s with twin := { s.twin with epochRun := 0 } } WV_TWSTAT_EPDIFF 0

/-! ### Signatures -/

/-- Role code of the partner's latest heartbeat (R449). -/
def partnerRole (s : State) : Nat := (s.twin.partner.map fun b => b.state.toNat % 4).getD 3

/-- Signatures are compared (R450, R453). -/
def comparesLines (s : State) : Bool := supervised s && !silent s && !s.twin.failed && partnerRole s != 2

/-- Drive levels of a module line as composed into a bank, in column order (R452). -/
def lineLevels (s : State) (bank : Bool) (l : Nat) : List Byte :=
  let w := (s.area.map (·.w)).getD 0
  let chans := if flag s SC_PGCTL_CH4 then 4 else 3
  ((List.range w).map fun x => ((List.range chans).map fun ch => leBytes 2 (storeWord s bank l x ch).toNat).flatten).flatten

/-- Two signatures of one line. -/
def Signature.sameLine (a b : Signature) : Bool := a.frame = b.frame && a.pass = b.pass && a.line = b.line

/-- The line self-check starts (R453, R454). -/
def startCheck (s : State) : State :=
  if s.twin.checkHeld || s.twin.checking then s
  else { s with twin := { s.twin with checking := true, ownResult := none, theirResult := none } }

/-- A compared line of a frame: the first differing line of a frame counts it and lengthens the run; a frame that ended without
one ends the run (R453). -/
def compareLine (s : State) (frame : BitVec 16) (same : Bool) : State :=
  let s := match s.twin.comparing with
    | some (f, differed) =>
      if f = frame then s
      else
        let t := if differed then s.twin else { s.twin with run := 0, checkHeld := false }
        { s with twin := { t with comparing := some (frame, false) } }
    | none => { s with twin := { s.twin with comparing := some (frame, false) } }
  match same, s.twin.comparing with
  | false, some (_, false) =>
    let n := s.twin.run + 1
    let s := countF { s with twin := { s.twin with run := n, comparing := some (frame, true) } } WV_TWCNT_MMFR 1
    if max 1 (getF s WV_TWCTL_MMFRAMES) ≤ n then startCheck s else s
  | _, _ => s

/-- Compares what both sides have signed; `fuel` bounds the number of lines. -/
def matchLines (s : State) : Nat → State
  | 0 => s
  | fuel + 1 =>
    match s.twin.own.findSome? fun a => (s.twin.theirs.find? fun b => a.sameLine b).map fun b => (a, b) with
    | none => s
    | some (a, b) =>
      let s := { s with twin := { s.twin with own := s.twin.own.erase a, theirs := s.twin.theirs.erase b } }
      matchLines (compareLine s a.frame (a.crc = b.crc)) fuel

/-- Payload of a signature packet of one line (R452). -/
def signatureBytes (g : Signature) : List Byte :=
  leBytes 2 g.frame.toNat ++ leBytes 1 g.pass.toNat ++ [0] ++ leBytes 2 g.line.toNat ++ leBytes 2 1 ++ leBytes 4 g.crc.toNat

/-- A composed line is signed, and its signature sent and compared (R452, R453). -/
def signLine (s : State) (frame : Word) (pass l : Nat) (bank : Bool) : State :=
  if !supervised s then s
  else
    let g : Signature := { frame := frame.setWidth 16, pass := BitVec.ofNat 2 pass, line := BitVec.ofNat 16 l,
                           crc := crc32 (lineLevels s bank l), since := s.now }
    let s := twinSend s 17 (signatureBytes g)
    if comparesLines s then matchLines { s with twin := { s.twin with own := s.twin.own ++ [g] } } 1 else s

/-- The partner's signatures are compared (R452, R453). -/
def takeSignatures (s : State) (p : Packet) : State :=
  let b := p.payload
  let n := leAt b 6 2
  if !comparesLines s || n = 0 || 32 < n then s
  else
    let gs := (List.range n).map fun i =>
      ({ frame := BitVec.ofNat 16 (leAt b 0 2), pass := BitVec.ofNat 2 (leAt b 2 1),
         line := BitVec.ofNat 16 (leAt b 4 2 + i), crc := BitVec.ofNat 32 (leAt b (8 + 4 * i) 4), since := s.now } : Signature)
    matchLines { s with twin := { s.twin with theirs := s.twin.theirs ++ gs } } 32

/-- LINE_SIGNATURE_RECEIVE (R453). -/
def signatureReceive (s : State) : State := eachTwin s 17 takeSignatures

/-- A signature that the module has held for two frame periods. -/
def Signature.old (s : State) (g : Signature) : Bool := decide (2 * framePeriod s ≤ 256 * (s.now - g.since))

/-- SIGNATURE_EXPIRY: signatures without a partner for 2 frame periods are dropped (R453). -/
def signatureExpiry (s : State) : State :=
  { s with twin := { s.twin with own := s.twin.own.filter fun g => !g.old s, theirs := s.twin.theirs.filter fun g => !g.old s } }

/-! ### The self-check -/

/-- Both modules act on the results (R454); `theirs` is none where no result came in time. -/
def checkOutcome (s : State) (own : Bool) (theirs : Option Bool) : State :=
  let s := { s with twin := { s.twin with checking := false, run := 0 } }
  let code := match own, theirs with
    | true, some true => 1
    | false, some true => 2
    | true, some false => 3
    | false, some false => 4
    | _, none => 5
  let s := setF s WV_TWSTAT_CHK code
  match own, theirs with
  | true, some true =>
    let s := { s with twin := { s.twin with checkHeld := true } }
    recordTwin (raiseEvent s 90 WV_TWSTAT_DIVEV) 1
  | true, _ => s
  | false, some false => reportFault s 3
  | false, _ => if holding s then fatalFault s 3 else if s.twin.latched then enterFailed s else s

/-- Acts once both results are there. -/
def settleCheck (s : State) : State :=
  match s.twin.ownResult, s.twin.theirResult with
  | some a, some b => if s.twin.checking then checkOutcome s a (some b) else s
  | _, _ => s

/-- SELF_CHECK_DONE: the check completes, its result is sent on QID 21, CHKEV (R454). -/
def selfCheckDone (s : State) (pass : Bool) : State :=
  if !s.twin.checking || s.twin.ownResult.isSome then s
  else
    let s := raiseEvent { s with twin := { s.twin with ownResult := some pass } } 90 WV_TWSTAT_CHKEV
    settleCheck (twinSend s 21 (leBytes 1 (checkCode (some pass))))

/-- The partner's result (R454). -/
def takeCheckResult (s : State) (p : Packet) : State :=
  match leAt p.payload 0 1 % 4 with
  | 1 => settleCheck { s with twin := { s.twin with theirResult := some true } }
  | 2 => settleCheck { s with twin := { s.twin with theirResult := some false } }
  | _ => s

/-- SELF_CHECK_RESULT: the partner's result arrives (R454). -/
def selfCheckResult (s : State) : State := eachTwin s 21 takeCheckResult

/-- SELF_CHECK_TIMEOUT: no result of the partner within 2 frame periods (R454). -/
def selfCheckTimeout (s : State) : State :=
  match s.twin.ownResult with
  | some a => if s.twin.checking && s.twin.theirResult.isNone then checkOutcome s a none else s
  | none => s

/-! ### Take and yield -/

/-- A TAKE or YIELD is ignored (R459). -/
def commandRefused (s : State) : State := raiseEvent s 90 WV_TWSTAT_CMDREFEV

/-- Whether TAKE is in order (R459). -/
def takeAllowed (s : State) : Bool := armed s && !silent s

/-- TAKE on an armed standby sends a take request (R459). -/
def takeHarness (s : State) : State := if takeAllowed s then twinSend s 20 [] else commandRefused s

/-- The partner's latest heartbeat shows it armed, not FAILED, its beam LOCKED (R459). -/
def partnerReady (s : State) : Bool :=
  match s.twin.partner with
  | none => false
  | some b => b.state.toNat % 4 != 2 && bitAt b.state.toNat 2 && natBits b.state.toNat 6 4 = bmLocked

/-- Whether YIELD is in order (R459). -/
def yieldAllowed (s : State) : Bool := twinRole s = 1 && !silent s && partnerReady s

/-- YIELD hands the harness over by a boundary release; the former active re-arms (R447, R456, R459). -/
def yieldHarness (s : State) : State :=
  if yieldAllowed s then boundaryRelease { s with twin := { s.twin with rearm := true } }
  else commandRefused s

/-- TAKE_REQUEST: the active treats an accepted request as YIELD; any other module ignores it (R459, R463). -/
def takeRequest (s : State) : State := eachTwin s 20 fun s _ => if twinRole s = 1 then yieldHarness s else s

/-! ### Patches -/

/-- The head of an answer for a number that the log does not hold (R461). -/
def notFoundHead (q : BitVec 14) (n : BitVec 16) : List Byte := headerBytes (makePacket 0 0 false 0 q n 5 0 [])

/-- Answers one requested number (R461). -/
def answerPatch (s : State) (q : BitVec 14) (n : BitVec 16) : State :=
  match s.twin.log.reverse.find? fun p => p.qid = q && p.seq = n with
  | none => twinSend s 19 (notFoundHead q n)
  | some p => twinSend (twinSend s 19 (headerBytes p)) 19 p.payload

/-- Every number that a patch request asks for is answered, in order (R461). -/
def answerRequest (s : State) (p : Packet) : State :=
  if !supervised s then s
  else
    let b := p.payload
    (seqRun (BitVec.ofNat 16 (leAt b 2 2)) (min 63 (leAt b 4 2))).foldl
      (fun s n => answerPatch s (BitVec.ofNat 14 (leAt b 0 2)) n) s

/-- PATCH_REQUEST (R461). -/
def patchRequest (s : State) : State := eachTwin s 18 answerRequest

/-- A number the partner could not supply (R461). -/
def patchMissing (s : State) (q : BitVec 14) (n : BitVec 16) : State :=
  let d := drawerOf s q
  if !d.asked.contains n then s else (settle (setDrawer s q { d with notFound := d.notFound ++ [n] }) q 200).1

/-- A patched item enters its queue's window (R462). -/
def patchItem (s : State) (p : Packet) : State :=
  let d := drawerOf s p.qid
  if d.mode != drScene || !itemAccepted s 6 p then countBadQ s
  else
    let dist := (p.seq - d.next).toNat
    let fresh := dist < 32768 && !d.held.any fun x => x.pkt.seq = p.seq
    (windowItem (if fresh then countF s WV_TWCNT_PATCHED 1 else s) p.qid (itemNow s p)).1

/-- A head, or the body that follows one (R461, R462). -/
def takePatch (s : State) (p : Packet) : State :=
  match s.twin.patchHead with
  | some h => patchItem { s with twin := { s.twin with patchHead := none } } { h with payload := p.payload }
  | none =>
    let h := packetOf p.payload []
    if h.kind = 5 then patchMissing s h.qid h.seq else { s with twin := { s.twin with patchHead := some h } }

/-- PATCH_DATA (R461, R462). -/
def patchData (s : State) : State := eachTwin s 19 takePatch

end Sys2Proof.Machine
end

