-- ==== Sys2Proof/Machine/CoreBase.lean ====
section
/-! DEFINITION. The Mbophor cores: registers and tags, the address map, stack frames, traps, interrupt entry, lockup, reset
and run (R300 to R329). -/

namespace Sys2Proof.Machine

/-! ### Tags and registers -/

/-- Tags of R300. -/
abbrev tagUnset : BitVec 4 := 0
abbrev tagFix : BitVec 4 := 2
abbrev tagAddr : BitVec 4 := 3
abbrev tagCode : BitVec 4 := 4
abbrev tagPixel : BitVec 4 := 5
abbrev tagBeam : BitVec 4 := 6
abbrev tagPoison : BitVec 4 := 15

/-- POISON with payload 0 (R304). -/
def poison : Tagged := tagged tagPoison 0

/-- The register that a 4-bit field names: 0 to 7 V, 8 to 14 P, 15 SP (R334). -/
def regOf (c : Core) (r : BitVec 4) : Tagged := c.regs.toList.getD r.toNat 0

/-- Replaces a register without a check, as a raw copy into V or a frame restore does. -/
def putReg (c : Core) (r : BitVec 4) (w : Tagged) : Core := { c with regs := c.regs.setIfInBounds r.toNat w }

/-- A P register or SP. -/
def isPointer (r : BitVec 4) : Bool := 8 ≤ r.toNat

/-- SP's register number. -/
abbrev rSP : BitVec 4 := 15

/-- Address in a word. -/
def addrOf (w : Tagged) : BitVec 24 := (payload w).setWidth 24

/-- A word tagged ADDR. -/
def addrWord (a : BitVec 24) : Tagged := tagged tagAddr (a.setWidth 32)

/-- A word tagged INT. -/
def intWord (w : Word) : Tagged := tagged tagInt w

/-- The bank word: BK0 in [7:0] to BK3 in [31:24] (R323). -/
def bankWord (c : Core) : Tagged :=
  let b := fun i => (c.bk.toList.getD i 0).toNat
  intWord (BitVec.ofNat 32 (b 0 + b 1 * 2 ^ 8 + b 2 * 2 ^ 16 + b 3 * 2 ^ 24))

/-- The bank registers that a bank word restores. -/
def banksOf (w : Tagged) : Vector (BitVec 8) 4 :=
  let p := (payload w).toNat
  #v[BitVec.ofNat 8 p, BitVec.ofNat 8 (p >>> 8), BitVec.ofNat 8 (p >>> 16), BitVec.ofNat 8 (p >>> 24)]

/-! ### The address map -/

/-- What a word address names for a core (R309). -/
inductive Place where
  | sram (mem a : Nat)
  | mram (w : Nat)
  | houseReg
  | rom
  | scanReg
  | dram (window w : Nat)
  | unmapped
deriving DecidableEq, Repr

/-- The place of a word address for core `n` (R309, R310). -/
def placeOf (n : Nat) (a : BitVec 24) : Place :=
  let a := a.toNat
  if a < 0x080000 then .sram 0 a
  else if a < 0x100000 then .mram (a - 0x080000)
  else if a < 0x105000 || (0x106000 ≤ a && a < 0x10D000) then .houseReg
  else if 0x1F0000 ≤ a && a < 0x1F1000 then .rom
  else if 0x200000 ≤ a && a < 0x280000 then .scanReg
  else if 0x300000 ≤ a && a < 0x304000 then .sram (n + 1) (a - 0x300000)
  else if 0x400000 ≤ a then .dram ((a - 0x400000) / 0x300000) ((a - 0x400000) % 0x300000)
  else .unmapped

/-- A fetch may address it (R309). -/
def fetchable (n : Nat) (a : BitVec 24) : Bool :=
  match placeOf n a with
  | .sram .. | .rom => true
  | _ => false

/-- It holds whole words that stores may change: house or local SRAM. -/
def isTaggedPlace (n : Nat) (a : BitVec 24) : Bool :=
  match placeOf n a with
  | .sram .. => true
  | _ => false

/-- Stores a word in house or the core's local SRAM. -/
def storeTagged (s : State) (n : Nat) (a : BitVec 24) (w : Tagged) : State :=
  match placeOf n a with
  | .sram m x => sramStore s m x w
  | _ => s

/-- A raw read of house SRAM, local SRAM or the boot ROM: POISON where it is uncorrectable (R304). Other places, which hold no
whole words, answer none. -/
def readRaw (s : State) (n : Nat) (a : BitVec 24) : State × Option Tagged :=
  match placeOf n a with
  | .sram m x =>
    let r := sramLoad s m x
    (r.1, some (r.2.getD poison))
  | .rom => (s, some (Config.bootRom (a.toNat - 0x1F0000)))
  | _ => (s, none)

/-! ### Traps -/

/-- Trap vectors (R319). -/
abbrev trUndef : Nat := 1
abbrev trRsvenc : Nat := 2
abbrev trTag : Nat := 3
abbrev trTagUnset : Nat := 4
abbrev trPoison : Nat := 5
abbrev trAddr : Nat := 6
abbrev trBuserr : Nat := 7
abbrev trEccFetch : Nat := 8
abbrev trCopAbsent : Nat := 9
abbrev trDivZero : Nat := 10
abbrev trStack : Nat := 11
abbrev trBadVec : Nat := 12

/-- A trap: vector, failing operand, tag wanted and seen, and the address concerned (R318). -/
structure Trap where
  vector : Nat
  opnd : Nat := 0xF
  want : Nat := 0xF
  seen : Nat := 0xF
  addr : Word := 0
deriving DecidableEq, Repr

/-- TCAUSE of a trap (R318). -/
def Trap.cause (t : Trap) : Word := BitVec.ofNat 32 (t.vector + t.opnd * 2 ^ 12 + t.want * 2 ^ 16 + t.seen * 2 ^ 20)

/-- A trap without an operand. -/
def trapOf (vector : Nat) : Trap := { vector }

/-- A trap with an address. -/
def trapAt (vector : Nat) (a : BitVec 24) : Trap := { vector, addr := a.setWidth 32 }

/-- The check of an operand's tag (R302): operand number, accepted tags (the first is named as wanted), the word. -/
def tagTrap (opnd : Nat) (accept : List (BitVec 4)) (w : Tagged) : Option Trap :=
  let t := tagOf w
  let v := if t = tagUnset then some trTagUnset else if t = tagPoison then some trPoison
    else if accept.contains t then none else some trTag
  v.map fun v => { vector := v, opnd := opnd, want := ((accept[0]?).map (·.toNat)).getD 0xF, seen := t.toNat }

/-- Tags 1 to 7 (R302). -/
def anyTag : List (BitVec 4) := [1, 2, 3, 4, 5, 6, 7]

/-- The check of a value written to a P register or SP (R307); `opnd` is 0xF for a result. -/
def pointerTrap (r : BitVec 4) (opnd : Nat) (w : Tagged) : Option Trap :=
  if !isPointer r then none
  else
    match tagTrap opnd [tagAddr] w with
    | some t => some t
    | none => if bitsOf (payload w) 31 24 = 0 then none else some { vector := trAddr, opnd := opnd, addr := payload w }

/-! ### Lockup -/

/-- Every core whose RUN bit is 1 is in lockup (R327). -/
def allLocked (s : State) : Bool :=
  getF s HS_CORECTL_RUN != 0 && (List.range 4).all fun n => !coreRun s n || coreLocked s n

/-- Where every running core is in lockup, the dresser reports "house locked" by a PW to the scan die (R327, R455). -/
def reportLocked (s : State) : State := if allLocked s then issueToScan s (.fault 1) else s

/-- A core enters lockup: LOCKED, LOCKEV, its record, and the report where no other running core is left (R327). -/
def lockup (s : State) (n vector : Nat) : State :=
  let c := coreOf s n
  let s := orF s HS_CORESTAT_LOCKED (2 ^ n)
  let s := raiseBits s 41 HS_CORESTAT_LOCKEV (2 ^ n)
  let s := { s with dresser := { s.dresser with lockups := min 65535 (s.dresser.lockups + 1) } }
  let s := record s .fatal 0x1002 c.vtab.toNat (payload (regOf c rSP)).toNat vector n n
  reportLocked s

/-! ### Entry -/

/-- SP is a valid ADDR (R327). -/
def spValid (c : Core) : Bool := tagOf (regOf c rSP) = tagAddr && bitsOf (payload (regOf c rSP)) 31 24 = 0

/-- SP as an address. -/
def spOf (c : Core) : BitVec 24 := addrOf (regOf c rSP)

/-- A write through SP may not go there: below SLIM, or outside tagged memory (R326). -/
def stackBad (n : Nat) (c : Core) (a : BitVec 24) : Bool := a.toNat < c.slim.toNat || !isTaggedPlace n a

/-- The 12 words of a frame, lowest first (R323). -/
def frameWords (c : Core) (pc : BitVec 24) : List Tagged :=
  [tagged tagCode (pc.setWidth 32), intWord c.sr, intWord (c.rc.setWidth 32), bankWord c] ++
    ([0, 1, 2, 3, 8, 9, 10, 11] : List (BitVec 4)).map fun r => regOf c r

/-- Stores words from an address up. -/
def storeRun (s : State) (n : Nat) (a : BitVec 24) : List Tagged → State
  | [] => s
  | w :: ws => storeRun (storeTagged s n a w) n (a + 1) ws

/-- SR as a handler starts with it (R323). -/
def handlerSr (sr : Word) (level : Option Nat) : Word :=
  let w := (sr &&& 0x0000001F#32)
  match level with
  | some l => putBits w 3 0 l
  | none => w

/-- The address that vector `v` of a core holds; none where it is invalid (R320). -/
def readVector (s : State) (n v : Nat) : State × Option (BitVec 24) :=
  let a := (coreOf s n).vtab + BitVec.ofNat 24 v
  let r := readRaw s n a
  match r.2 with
  | some w =>
    if tagOf w = tagCode && bitsOf (payload w) 31 24 = 0 && fetchable n (addrOf w) then (r.1, some (addrOf w)) else (r.1, none)
  | none => (r.1, none)

/-- Enters vector `v` with the frame in place: SR from the frame's SR. An invalid vector gives BADVEC instead, whose frame holds
`origin`, the address of the trapping instruction, where that differs, and whose own failure is lockup (R320, R321, R323, R327).
`source` is acknowledged when the vector has been read. -/
def enterVector (s : State) (n v : Nat) (sr : Word) (request : Option (Nat × Nat)) (origin : Option (BitVec 24)) : State :=
  let r := readVector s n v
  let s := match request with
    | some (src, _) => acknowledge r.1 src n
    | none => r.1
  let go := fun (s : State) (a : BitVec 24) (level : Option Nat) =>
    setCore s n { coreOf s n with pc := a, sr := handlerSr sr level, repeating := false, waiting := false }
  match r.2 with
  | some a => go s a (request.map (·.2))
  | none =>
    let at' := (coreOf s n).vtab + BitVec.ofNat 24 v
    let t := trapAt trBadVec at'
    let s := setCore s n { coreOf s n with tcause := t.cause, taddr := t.addr }
    let b := readVector s n trBadVec
    match if v = trBadVec then none else b.2 with
    | some a =>
      let s := match origin with
        | some pc => storeTagged b.1 n (spOf (coreOf s n)) (tagged tagCode (pc.setWidth 32))
        | none => b.1
      go s a none
    | none => lockup b.1 n v

/-- Interrupt or trap entry: the frame is pushed below SP, or the core locks up (R323, R327). `origin`: as in `enterVector`. -/
def enter (s : State) (n v : Nat) (pc : BitVec 24) (request : Option (Nat × Nat)) (origin : Option (BitVec 24)) : State :=
  let c := coreOf s n
  let sp := spOf c - 12
  if !spValid c || (List.range 12).any fun i => stackBad n c (sp + BitVec.ofNat 24 i) then lockup s n v
  else
    let s := storeRun s n sp (frameWords c pc)
    let s := setCore s n (putReg (coreOf s n) rSP (addrWord sp))
    enterVector s n v c.sr request origin

/-- A trap is taken: TCAUSE, TADDR, the frame with the PC that R321 names, the vector (R318 to R323). -/
def takeTrap (s : State) (n : Nat) (t : Trap) (pc : BitVec 24) : State :=
  let s := setCore s n { coreOf s n with tcause := t.cause, taddr := t.addr, stalled := none }
  enter s n t.vector pc none none

/-- TRAP N is taken: the frame holds the address of the next instruction, or, where BADVEC takes its place, its own (R321). -/
def takeSoftTrap (s : State) (n : Nat) (t : Trap) (pc : BitVec 24) : State :=
  let s := setCore s n { coreOf s n with tcause := t.cause, taddr := t.addr, stalled := none }
  enter s n t.vector (pc + 1) none (some pc)

/-- The cores have their clock: not in HIBERNATE, where they stand halted with their state kept, and not with the house die off
(R534). -/
def coresClocked (s : State) : Bool :=
  s.power.supply == .running && !s.power.offAwait && getF s HS_PWRSTAT_STATE != 2

/-- A message of the core waits at its credits: its instruction is not done (R48). -/
def coreStalled (s : State) (n : Nat) : Bool := stalledAtBridge s (.core (Fin.ofNat 4 n))

/-- The core may issue: it runs, is not locked up, waiting, stalled, synchronising or halted by the bench. -/
def coreIssues (s : State) (n : Nat) : Bool :=
  let c := coreOf s n
  coresClocked s && coreRun s n && !coreLocked s n && !c.waiting && !c.syncing && c.stalled.isNone && !c.benchHalt &&
    !coreStalled s n

/-- INTERRUPT_ENTRY: a core takes the request that the controller offers it (R322). -/
def interruptEntry (s : State) (n : Nat) : State :=
  let c := coreOf s n
  if !coresClocked s || !coreRun s n || coreLocked s n || c.syncing || c.stalled.isSome || c.benchHalt || coreStalled s n then s
  else
    match offerTo s n with
    | none => s
    | some src => enter s n (64 + src) c.pc (some (src, getF s (HIC_SRCCFG_LEVEL src))) none

/-! ### Reset and run -/

/-- Resets a core (R306, R329, R330): its registers, its LOCKED bit and its own copies of the window registers. A bridge read
that it waits for is forgotten. -/
def resetCore (s : State) (n : Nat) : State :=
  let s := setCore s n (Core.reset (BitVec.ofNat 24 (getF s (HS_CORESTART_START n))))
  let s := setF s HS_CORESTAT_LOCKED (getF s HS_CORESTAT_LOCKED &&& (15 - 2 ^ n))
  let s := resetReg s (coreKey n HS_MRBANK)
  (List.range 4).foldl (fun s i => resetReg s (coreKey n (HS_DWIN i))) s

/-- Core `n` is halted: by its RUN bit, the bench port or the state of the cores' clock, and at a boundary, so not while it waits
for the bridge or for its stores (R322, R329). -/
def coreHalted (s : State) (n : Nat) : Bool :=
  let c := coreOf s n
  !coresClocked s || ((!coreRun s n || c.benchHalt) && c.stalled.isNone && !c.syncing && !coreStalled s n)

/-- HS_CORESTAT as it reads: HALTED from the cores (R329). -/
def coreStatWord (s : State) : Word :=
  putBits (regWord s HS_CORESTAT) 7 4 ((List.range 4).foldl (fun m n => m + b2n (coreHalted s n) * 2 ^ n) 0)

/-- A write of HS_CORECTL, `old` the state before: the RESET bits written as 1, and the report where the RUN bits leave none but
locked cores (R327, R329). -/
def coreControl (old s : State) (w : Word) : State :=
  let s := (List.range 4).foldl (fun s n => if w.getLsbD (8 + n) then resetCore s n else s) s
  if allLocked old then s else reportLocked s

/-- Core `n`'s own copy of a window register. -/
def coreReg (s : State) (n a : Nat) : Word := regWord s (coreKey n a)

end Sys2Proof.Machine
end

