-- ==== Sys2Proof/Machine/DmaBase.lean ====
section
/-! DEFINITION. The DMA engine: starting and aborting a chain, loading and checking descriptors, halts (R368 to R377). -/

namespace Sys2Proof.Machine

/-- Bridge source of a channel (R40). -/
def dmaSrc (n : Nat) : Src := .dma (Fin.ofNat 32 n)

/-- On a module with an audio unit that is on, channel 31 belongs to it (R472). -/
def dmaHeldByAudio (s : State) (n : Nat) : Bool := n = 31 && audioOn s

/-- Elements of the current descriptor. -/
def DmaCh.count (c : DmaCh) : Nat := c.field 3 23 0

/-- WB of the current descriptor. -/
def DmaCh.wb (c : DmaCh) : Bool := c.field 0 22 22 = 1

/-- A channel is running. -/
def dmaBusy (s : State) (n : Nat) : Bool := (dmaCh s n).phase != .idle

/-! ### Word 7 and halts -/

/-- Writes word 7 of the current descriptor: an INT word of house SRAM, or a PW; false where the bridge is DOWN (R374, R375). -/
def dmaWriteback (s : State) (n status : Nat) : State × Bool :=
  let c := dmaCh s n
  let w := status * 2 ^ 28 + c.applied % 2 ^ 24
  let cur := getF s (DMA_CHCUR_ADDR n)
  if c.inDram then
    if bridgeDown s then (s, false)
    else (issueToScan (setDma s n { c with skip := 1 }) (.dramWrite (dmaSrc n) (cur + 28) (leBytes 4 w)), true)
  else (sramStore s 0 (cur + 7) (tagged tagInt (BitVec.ofNat 32 w)), true)

/-- STATUS of a halt (R375). -/
def haltStatus : Nat → Nat
  | 3 => 4
  | 4 => 4
  | 5 => 5
  | 6 => 2
  | _ => 3

/-- Every write that a channel has issued has applied, or is lost, and no read of it is out. -/
def dmaQuiet (s : State) (n : Nat) : Bool := sourceQuiet s (dmaSrc n) && !readsOut s (dmaSrc n)

/-- The halt itself: word 7 with the count of elements that applied, CAUSE, ERRADDR, HALTEV, an edge, and a record (R375). -/
def dmaHaltNow (s : State) (n cause err : Nat) : State :=
  let wb := (dmaCh s n).wb && !(dmaCh s n).desc.isEmpty
  let r := if wb then dmaWriteback s n (haltStatus cause) else (s, true)
  let s := setF r.1 (DMA_CHSTAT_WBFAIL n) (b2n (!r.2))
  let s := setF (setF s (DMA_CHSTAT_CAUSE n) cause) (DMA_CHERRADDR_ADDR n) err
  let s := setF (setF s (DMA_CHSTAT_HALTEV n) 1) (DMA_CHSTAT_BUSY n) 0
  let s := setDma s n { dmaCh s n with phase := .idle, asked := 0 }
  let s := pulse s n
  if 3 ≤ cause && cause ≤ 6 then record s .fault 0x1003 n cause err 0 else s

/-- A halt that waits is carried out once nothing of the channel is on its way. -/
def dmaSettleHalt (s : State) (n : Nat) : State :=
  match (dmaCh s n).phase with
  | .halting cause err => if dmaQuiet s n && (dmaCh s n).asked = 0 then dmaHaltNow s n cause err else s
  | _ => s

/-- The channel halts (R375), once its writes in flight have applied, so that word 7 can count them (log entry 56). An ABORT lets
the burst in progress end first; any other cause drops the reads that are out. -/
def dmaHalt (s : State) (n cause err : Nat) : State :=
  let s := if bridgeDown s then dropReads s (dmaSrc n) else s
  let c := dmaCh s n
  dmaSettleHalt (setDma s n { c with phase := .halting cause err, asked := if cause = 7 then c.asked else 0 }) n

/-! ### Descriptors -/

/-- Ranges of house space that DMA reaches: house SRAM, the house register blocks, the scan-die registers (R309, R368). -/
def dmaRange (a : Nat) : Option Nat :=
  if a < 0x80000 then some 0
  else if 0x100000 ≤ a && a < 0x105000 then some 1
  else if 0x106000 ≤ a && a < 0x10D000 then some 2
  else if 0x200000 ≤ a && a < 0x280000 then some 3
  else none

/-- The address of element `i` of an end. -/
def DmaCh.element (c : DmaCh) (dst : Bool) (i : Nat) : Nat :=
  let space := if dst then c.field 0 3 2 else c.field 0 1 0
  let fixed := if dst then c.field 0 5 5 else c.field 0 4 4
  let base := if dst then c.field 2 31 0 else c.field 1 31 0
  if fixed = 1 then base else base + i * (if space = 1 then 4 else 1)

/-- The failing address of one end, where it is misaligned or leaves the reachable range (R371). -/
def DmaCh.endBad (c : DmaCh) (dst : Bool) : Option Nat :=
  let space := if dst then c.field 0 3 2 else c.field 0 1 0
  let a := c.element dst 0
  let b := c.element dst (c.count - 1)
  if space = 1 then
    if a % 4 != 0 || dramTop < a + 3 then some a else if dramTop < b + 3 then some b else none
  else if (dmaRange a).isNone then some a
  else if dmaRange a != dmaRange b then some b
  else none

/-- The word of a descriptor that holds the first field refused by R370, or by R369 for RAW. -/
def DmaCh.refused (c : DmaCh) (n : Nat) : Option Nat :=
  let raw := c.field 0 8 8 = 1
  let sram := fun dst => (if dst then c.field 0 3 2 else c.field 0 1 0) = 0 && dmaRange (c.element dst 0) = some 0
  if 2 ≤ c.field 0 1 0 || 2 ≤ c.field 0 3 2 || 4 ≤ c.field 0 11 9 || (c.field 0 11 9 = 3 && c.field 0 19 15 = n) ||
      (c.field 0 23 23 = 0 && 2 ≤ c.field 0 25 24) || (raw && (c.field 0 7 6 != 0 || !sram false || !sram true)) then some 0
  else if c.count = 0 then some 3
  else none

/-- A descriptor has been read: it is checked, and the channel moves or halts (R371, R372). -/
def dmaAccept (s : State) (n : Nat) (desc : List Word) (cur : Nat) : State :=
  let c := { dmaCh s n with phase := .moving, desc := desc, moved := 0, applied := 0, credits := 0, bursts := 0,
                            f0 := s.beam.frame, asked := 0, released := 0, stops := s.beam.stops }
  let s := setDma s n c
  let step := if c.inDram then 4 else 1
  match c.refused n with
  | some w => dmaHalt s n 1 (cur + step * w)
  | none =>
    match c.endBad false, c.endBad true with
    | some a, _ => dmaHalt s n 2 a
    | none, some a => dmaHalt s n 2 a
    | none, none => if c.field 0 11 9 = 2 && !beamRuns s then dmaHalt s n 8 cur else s

/-- Reads the eight words of a descriptor in house SRAM, in order: the words read before the first that fails, and the cause
and address of that one. -/
def readDescWords (s : State) (a : Nat) : Nat → List Word → State × List Word × Option (Nat × Nat)
  | 0, ws => (s, ws, none)
  | k + 1, ws =>
    let i := a + ws.length
    let r := sramLoad s 0 i
    match r.2 with
    | none => (r.1, ws, some (3, i))
    | some w =>
      if tagOf w = 0 || 8 ≤ (tagOf w).toNat then (r.1, ws, some (4, i)) else readDescWords r.1 a k (ws ++ [payload w])

/-- The channel loads the descriptor that DMA_CHnCUR names: at once from house SRAM; from DRAM through the bridge, by a read
behind the channel's earlier writes (R38, R42, R370, R371). -/
def dmaLoad (s : State) (n : Nat) : State :=
  let c := dmaCh s n
  let cur := getF s (DMA_CHCUR_ADDR n)
  if c.phase != .loading then s
  else if c.inDram then
    if cur % 32 != 0 || dramTop < cur + 31 then dmaHalt s n 2 cur
    else issueToScan (setDma s n { c with phase := .fetching }) (.readRequest (dmaSrc n) (.dram cur) 32)
  else if cur % 8 != 0 || 0x80000 ≤ cur then dmaHalt s n 2 cur
  else
    let r := readDescWords s cur 8 []
    match r.2.2 with
    | some (cause, a) => dmaHalt (setDma r.1 n { dmaCh r.1 n with desc := r.2.1, applied := 0 }) n cause a
    | none => dmaAccept r.1 n r.2.1 cur

/-- The answer to a descriptor's read is taken (R370, R371). -/
def dmaFetched (s : State) (n : Nat) : State :=
  let cur := getF s (DMA_CHCUR_ADDR n)
  match takeAnswer s (dmaSrc n) (.dram cur) with
  | none => s
  | some (s, bs, failed) =>
    if failed then dmaHalt s n 3 cur
    else dmaAccept s n ((List.range 8).map fun i => BitVec.ofNat 32 (leAt bs (4 * i) 4)) cur

/-- The channel turns to the descriptor at an address. -/
def dmaNext (s : State) (n a : Nat) (inDram : Bool) : State :=
  let s := setF s (DMA_CHCUR_ADDR n) a
  dmaLoad (setDma s n { dmaCh s n with phase := .loading, desc := [], inDram := inDram, moved := 0, applied := 0 }) n

/-! ### Start and abort -/

/-- START (R377): clears CAUSE, DONES and LOSTTRIG and loads the first descriptor; while the channel is busy, or held by the audio
unit, it is ignored and counted (R376, R472). -/
def dmaStart (s : State) (n : Nat) : State :=
  if dmaBusy s n || dmaHeldByAudio s n then countReserved s
  else
    let s := setF (setF (setF s (DMA_CHSTAT_CAUSE n) 0) (DMA_CHSTAT_DONES n) 0) (DMA_CHSTAT_LOSTTRIG n) 0
    dmaNext (setF s (DMA_CHSTAT_BUSY n) 1) n (getF s (DMA_CHDESC_ADDR n)) (flag s (DMA_CHCTL_NSPACE n))

/-- ABORT (R375): ignored while idle; the channel halts once the writes of the burst in progress have applied. -/
def dmaAbort (s : State) (n : Nat) : State :=
  match (dmaCh s n).phase with
  | .idle | .halting .. => s
  | _ => dmaHalt s n 7 (getF s (DMA_CHCUR_ADDR n))

/-- A write of DMA_CHnCTL: START and ABORT are judged by the state before it. -/
def dmaControl (s : State) (n : Nat) (w : Word) : State :=
  let busy := dmaBusy s n
  let s := if w.getLsbD 0 then dmaStart s n else s
  if w.getLsbD 1 && busy then dmaAbort s n else s

/-- A PW of a channel has applied: its element no longer remains (R377), or its write of word 7 is done (R374); a halt that
waited for it follows. -/
def dmaApplied (s : State) (n : Nat) : State :=
  let c := dmaCh s n
  let c := if 0 < c.skip then { c with skip := c.skip - 1, phase := if c.phase = .writeback then .written else c.phase }
    else if c.phase = .idle then c
    else { c with applied := c.applied + 1 }
  dmaSettleHalt (setDma s n c) n

/-- DMA_CHnSTAT as it reads: WAITPACE while no burst is released (R372); 0 for a channel that the audio unit holds (R472). -/
def dmaStatWord (s : State) (n : Nat) (waits : Bool) : Word :=
  if dmaHeldByAudio s n then 0
  else putBits (regWord s (DMA_CHSTAT n)) 30 30 (b2n (waits && (dmaCh s n).phase = .moving && (dmaCh s n).asked = 0))

/-- The next burst of a channel is released; one that the beam released stays so through a backward step (R372). -/
def dmaReleased (s : State) (n : Nat) : Bool :=
  let c := dmaCh s n
  match c.field 0 11 9 with
  | 0 => true
  | 2 =>
    let line := c.field 4 16 0 + c.bursts * c.field 5 15 0
    if c.bursts < c.released then true
    else if frameLines s ≤ line then beamReached s (c.f0 + 1) 0 else beamReached s c.f0 (256 * line : Nat)
  | _ => 0 < c.credits

end Sys2Proof.Machine
end

