-- ==== Sys2Proof/Machine/Copier.lean ====
section
/-! DEFINITION. The block copier (R282 to R298). -/

namespace Sys2Proof.Machine

/-- Bytes per pixel of BPP (R283). -/
def CopyOp.bytes (o : CopyOp) : Nat := o.bpp + 1

/-- Segment length in pixels (R283). -/
def segmentPixels (bpp : Nat) : Nat :=
  match bpp with
  | 0 => 4096
  | 1 => 2048
  | 2 => 1364
  | _ => 1024

/-- The multiple that X and W keep to (R283). -/
def pixelMultiple (bpp : Nat) : Nat :=
  match bpp with
  | 0 | 2 => 4
  | 1 => 2
  | _ => 1

/-- The operands as they stand (R282, R297). -/
def copyOperands (s : State) : CopyOp :=
  { op := getF s CPY_CTL_OP, bpp := getF s CPY_CTL_BPP, xdir := flag s CPY_CTL_XDIR, ydir := flag s CPY_CTL_YDIR,
    pace := flag s CPY_CTL_PACE, srcBase := getF s CPY_SRCBASE_BASE * 64, srcPitch := getF s CPY_SRCPITCH_PITCH * 64,
    dstBase := getF s CPY_DSTBASE_BASE * 64, dstPitch := getF s CPY_DSTPITCH_PITCH * 64, sx := getF s CPY_SRCXY_X,
    sy := getF s CPY_SRCXY_Y, dx := getF s CPY_DSTXY_X, dy := getF s CPY_DSTXY_Y, w := getF s CPY_SIZE_WM1 + 1,
    h := getF s CPY_SIZE_HM1 + 1, fill := getF s CPY_FILL_VALUE, key := getF s CPY_KEY_KEY, mask := getF s CPY_KEYMASK_MASK,
    line0 := getF s CPY_PACE0_LINE0, step := getF s CPY_PACE1_STEP, wmark := getF s CPY_WMARK_ROW,
    startFrame := s.beam.frame, k := 0, g := 0, released := false, abort := false }

/-- The operation reads a source rectangle. -/
def CopyOp.reads (o : CopyOp) : Bool := o.op != 1

/-- Byte address of pixel (X + i, Y + r) of the destination or source rectangle (R282). -/
def CopyOp.addr (o : CopyOp) (dst : Bool) (r i : Nat) : Nat :=
  if dst then o.dstBase + (o.dy + r) * o.dstPitch + (o.dx + i) * o.bytes
  else o.srcBase + (o.sy + r) * o.srcPitch + (o.sx + i) * o.bytes

/-- The first check of R284 that fails; 0 where none does. -/
def copyError (s : State) (o : CopyOp) : Nat :=
  let m := pixelMultiple o.bpp
  if 3 ≤ o.op then 1
  else if o.w % m != 0 || o.dx % m != 0 || (o.reads && o.sx % m != 0) then 2
  else if o.dstPitch < (o.dx + o.w) * o.bytes || (o.reads && decide (o.srcPitch < (o.sx + o.w) * o.bytes)) then 3
  else if dramTop + 1 < o.addr true (o.h - 1) o.w || (o.reads && decide (dramTop + 1 < o.addr false (o.h - 1) o.w)) then 4
  else if o.pace && !beamRuns s then 5
  else 0

/-- An operation ends, or is refused, with an error code: ERR, ERREV, ERRS (R284, R294). -/
def copyFails (s : State) (err : Nat) : State :=
  let s := { s with copier := none }
  let s := setF (setF s CPY_STAT_BUSY 0) CPY_STAT_ERR err
  raiseEvent (countF s CPY_CNT_ERRS 1) 63 CPY_STAT_ERREV

/-- The row of the rectangles that comes next, counted from the top (R286). -/
def CopyOp.row (o : CopyOp) : Nat := if o.ydir then o.h - 1 - o.k else o.k

/-- The release position of the row that comes next, in fractions of frame F0: line index TL or above is the start of the
next frame (R291, R295). -/
def releaseFracs (s : State) (o : CopyOp) : Int :=
  (min ((o.line0 + o.row * o.step / 256 + 1) * 256) (frameFracs s) : Nat)

/-- The row that comes next may start (R291). -/
def rowReleased (s : State) (o : CopyOp) : Bool := !o.pace || o.released || beamReached s o.startFrame (releaseFracs s o)

/-- Segments of a row. -/
def CopyOp.segments (o : CopyOp) : Nat := ceilDiv o.w (segmentPixels o.bpp)

/-- CPY_STAT as it reads: WAITBEAM while the row that comes next waits for the beam where it now stands (R291). -/
def copyStatWord (s : State) : Word :=
  match s.copier with
  | none => regWord s CPY_STAT
  | some o => putBits (regWord s CPY_STAT) 30 30 (b2n (o.g < o.segments && !rowReleased s o))

/-- GO applies: operands are latched and checked (R282, R284). -/
def copyStart (s : State) : State :=
  let o := copyOperands s
  let s := setF (setF s CPY_STAT_ROWSDONE 0) CPY_STAT_ERR 0
  let err := copyError s o
  if err != 0 then copyFails s err else setF { s with copier := some o } CPY_STAT_BUSY 1

/-- An operation is running. -/
def copyBusy (s : State) : Bool := s.copier.isSome

/-- A write ignored while the copier is busy (R282). -/
def countBusyWrite (s : State) : State := countF s CPY_CNT_BUSYWR 1

/-- ABORT on a running operation: it ends after the segment in progress; a row that waits for the beam has none (R294, log
entry 17). With every segment of the last row written it completes (R295). -/
def copyAbort (s : State) : State :=
  match s.copier with
  | none => s
  | some o =>
    if o.segments ≤ o.g && o.h ≤ o.k + 1 then s
    else if rowReleased s o then { s with copier := some { o with abort := true } }
    else copyFails s 7

/-- A write of CPY_CTL (R282, R295, R296): CNTCLR; while busy only ABORT besides; idle, the operand fields, and GO without
ABORT. -/
def copyCtlWrite (s : State) (w : Word) : State :=
  let abort := bitsOf w 1 1 = 1
  let go := bitsOf w 0 0 = 1
  let clear := bitsOf w 31 31 = 1
  let s := if clear then setRegWord s CPY_CNT 0 else s
  if copyBusy s then
    let s := if go || !(abort || clear) then countBusyWrite s else s
    if abort then copyAbort s else s
  else
    let s := setF (setF (setF s CPY_CTL_PACE (bitsOf w 11 11)) CPY_CTL_YDIR (bitsOf w 10 10)) CPY_CTL_XDIR (bitsOf w 9 9)
    let s := setF (setF s CPY_CTL_BPP (bitsOf w 8 7)) CPY_CTL_OP (bitsOf w 6 4)
    if go && !abort then copyStart s else s

/-- COPY_ROW_RELEASE: the beam passes the release line of the row that waits (R291). -/
def copyRowRelease (s : State) : State :=
  match s.copier with
  | none => s
  | some o =>
    if !o.pace then s
    else
      let s := beamAdvanceTo s o.startFrame (releaseFracs s o)
      { s with copier := some { o with released := true } }

/-- First pixel and length of the segment that comes next (R286). -/
def CopyOp.segment (o : CopyOp) : Nat × Nat :=
  let n := segmentPixels o.bpp
  if o.xdir then
    let lo := o.w - (o.g + 1) * n
    (lo, o.w - o.g * n - lo)
  else (o.g * n, min n (o.w - o.g * n))

/-- Runs of pixels to write: offset of each run in the segment and its bytes (R286). `keep` tells a pixel that is written. -/
def writeRuns (len : Nat) (keep : List Byte → Bool) : Nat → List (List Byte) → List (Nat × List Byte)
  | _, [] => []
  | i, p :: ps =>
    let rest := writeRuns len keep (i + 1) ps
    if !keep p then rest
    else match rest with
      | (j, bs) :: more => if j = (i + 1) * len then (i * len, p ++ bs) :: more else (i * len, p) :: rest
      | [] => [(i * len, p)]

/-- The pixels of a segment as it is to be written: the source's, or the fill value's (R285, R286). -/
def CopyOp.pixels (s : State) (o : CopyOp) (lo n : Nat) : List (List Byte) :=
  (List.range n).map fun i =>
    if o.reads then dramBytes s (o.addr false o.row (lo + i)) o.bytes else leBytes o.bytes o.fill

/-- A pixel is written: always, but for a key copy whose pixel matches the key (R285). -/
def CopyOp.keeps (o : CopyOp) (p : List Byte) : Bool :=
  o.op != 2 || (leNat p &&& o.mask) % 2 ^ (8 * o.bytes) != (o.key &&& o.mask) % 2 ^ (8 * o.bytes)

/-- The writes of a segment (R282: ordinary DRAM writes, watched by the guard windows). -/
def copyWrites (s : State) (o : CopyOp) (lo n : Nat) : State :=
  let base := o.addr true o.row lo
  (writeRuns o.bytes o.keeps 0 (o.pixels s lo n)).foldl
    (fun s r => dramWrite s { req := 0x40, guarded := true, hutch := false } none (base + r.1) r.2) s

/-- After a segment: an aborted operation ends; a row that is complete then counts first (R290, R294). -/
def copyAfterSegment (s : State) (o : CopyOp) : State :=
  let o := { o with g := o.g + 1 }
  if o.abort && o.g != o.segments then copyFails s 7 else { s with copier := some o }

/-- COPY_SEGMENT: a whole segment is read, and then written; an uncorrectable source unit stops the operation before it
writes (R286, R294). While the sorter's queue has no room, nothing happens (R127). -/
def copySegment (s : State) : State :=
  match s.copier with
  | none => s
  | some o =>
    if !rowReleased s o || o.segments ≤ o.g then s
    else
      let lo := o.segment.1
      let n := o.segment.2
      let us := unitsOf (o.addr false o.row lo) (n * o.bytes)
      if sorterFull s (o.addr true o.row lo) (n * o.bytes) then s
      else
        let o := { o with released := true }
        if !o.reads then copyAfterSegment (copyWrites s o lo n) o
        else
          match us.find? fun u => unitBad s u with
          | some u =>
            let s := touchUnits s us 0x40
            let s := setF s CPY_ERRADDR_ADDR (64 * u)
            recordScan (copyFails s 6) .warn 0x3003 (64 * u) 2 0 0
          | none => copyAfterSegment (copyWrites (touchUnits s us 0x40) o lo n) o

/-- COPY_ROW_DONE: the last writes of a row have applied (R290). -/
def copyRowDone (s : State) : State :=
  match s.copier with
  | none => s
  | some o =>
    if o.g < o.segments then s
    else
      let done := o.k + 1
      let s := setF s CPY_STAT_ROWSDONE done
      let s := if done = o.wmark then raiseEvent s 63 CPY_STAT_WMEV else s
      if o.abort then copyFails s 7
      else if done = o.h then
        let s := setF { s with copier := none } CPY_STAT_BUSY 0
        raiseEvent (countWrapF s CPY_CNT_OPS 1) 63 CPY_STAT_DONEEV
      else { s with copier := some { o with k := done, g := 0, released := false } }

/-- The beam enters OFF or ACQUIRE: a paced operation ends without its remaining rows (R291). -/
def copyBeamLost (s : State) : State :=
  match s.copier with
  | none => s
  | some o => if o.pace then copyFails s 5 else s

end Sys2Proof.Machine
end

