-- ==== Sys2Proof/Machine/Beam.lean ====
section
/-! DEFINITION. The beam block: states, tracking, steps, frame pulses, watermarks (R60 to R81, R93). -/

namespace Sys2Proof.Machine

/-! ### States -/

/-- Record 0x2001 (R78, R80, R584). -/
def recordBeam (s : State) : State :=
  recordScan s .warn 0x2001 (regWord s SC_BEAMSTAT).toNat (getF s SC_BEAMERR_PHERR) 0 0

/-- ROLE of an anchor: 1 primary, 2 secondary; 0 a follower (R94). -/
def anchorRole (s : State) : Nat := if getF s SC_BEAMCTL_ROLE = 3 then 0 else getF s SC_BEAMCTL_ROLE

/-- What leaving the running states stops: composition of the pass in hand, a paced copy, edges held for a time in lines, and the
regions, which no further row slot finds generating (R259, R291, R362, R600). -/
def beamStops (s : State) : State :=
  let s := { s with beam := { s.beam with stops := s.beam.stops + 1 },
                    comp := { s.comp with composing := none, nextPass := none, linesDone := [] },
                    trestle := { s.trestle with heldBack := false, composeHeld := none } }
  releaseLineHolds (copyBeamLost (beamDark s))

/-- h, FARHOP, SRCALT and SRCSTATE of a module that follows no beacons, as an anchor on its own reference (R73, R97). The rules
give SRCSTATE for a follower's anchor alone (R79): that it reads LOCKED in such a module, whatever the module's own state, is the
model's choice (log entry 114). -/
def noSource (s : State) : State :=
  setF (setF (setF (setF s SC_BEAMSTAT_HOPS 0) SC_BEAMSTAT_SRCALT 0) SC_BEAMSTAT_SRCSTATE 0) SC_BEAMSTAT_FARHOP 0

/-- The module follows no anchor; beacons and pulses that it counted towards a lock count no more (R74). -/
def unfollow (s : State) : State :=
  noSource { s with beam := { s.beam with source := none, followsOther := false, returnRun := 0, goodRun := 0, base := none } }

/-- A fresh start of acquisition: no source, no run, no candidates, no adopted count, no learned frequency. -/
def beamForget (s : State) : State :=
  unfollow { s with beam := { s.beam with
    slew := 0, candidates := [], goodRun := 0, heardPrimary := none, heardSecondary := none, adopt := none, period := 0,
    sub := 0 } }

/-- Enters ACQUIRE (R74). -/
def enterAcquire (s : State) : State := setF (beamForget (beamStops s)) SC_BEAMSTAT_STATE bmAcquire

/-- Enters OFF (R74). -/
def enterOff (s : State) : State := setF (beamForget (beamStops s)) SC_BEAMSTAT_STATE bmOff

/-- Enters LOCKED (R74, R97). After ACQUIRE no frame is composed since the lock (R179, R600). -/
def enterLocked (s : State) : State :=
  let fresh := beamState s = bmAcquire
  let s := setF s SC_BEAMSTAT_STATE bmLocked
  let s := { s with beam := { s.beam with goodRun := 0, holdMs := 0, holdTicks := 0 } }
  let s := if fresh then composesFromHere s else s
  raiseEvent s 48 SC_BEAMSTAT_LOCKEV

/-- Enters HOLDOVER (R74, R78). -/
def enterHoldover (s : State) : State :=
  let s := setF s SC_BEAMSTAT_STATE bmHoldover
  let s := { s with beam := { s.beam with goodRun := 0, holdTicks := 0 } }
  recordBeam (raiseEvent s 48 SC_BEAMSTAT_HOLDEV)

/-- FREE_ENTRY: 60 s in HOLDOVER (R74, R78). What FREEACT asks of the power state is the power unit's. -/
def enterFree (s : State) : State :=
  if beamState s != bmHoldover then s
  else recordBeam (raiseEvent (setF s SC_BEAMSTAT_STATE bmFree) 48 SC_BEAMSTAT_FREEEV)

/-- Clears SC_BEACNT (R94). -/
def clearBeacnt (s : State) : State := setRegWord s SC_BEACNT 0

/-- What a write of SC_BEAMCTL does beyond its fields, which it has stored; `was` is EN before it, `role` the role (R73, R74,
R94). A module that changes its role follows no anchor until it hears one anew. -/
def beamCtlWritten (s : State) (was : Bool) (role : Nat) (w : Word) : State :=
  let s := if bitsOf w 3 3 = 1 then clearBeacnt s else s
  let s := if anchorRole s = role then s else unfollow s
  let en := flag s SC_BEAMCTL_EN
  if was && !en then enterOff s
  else if en && (!was || bitsOf w 1 1 = 1) then enterAcquire s
  else s

/-- What a write of SC_BEAMFMT or SC_BEAMPER does beyond its fields: the beam acquires anew, and the house die's copy of TL
follows (R95, R342). -/
def beamFormatWritten (s : State) : State :=
  let s := { s with bridge := { s.bridge with lastLine := frameLines s - 1 } }
  if flag s SC_BEAMCTL_EN then enterAcquire s else s

/-! ### Errors and steps -/

/-- `x` brought to the nearest value modulo `n`: in `-n/2` to `n/2`. -/
def nearest (x : Int) (n : Nat) : Int := (x + n / 2) % n - n / 2

/-- Stores a phase error, held within ±(2³¹ − 1) (R98). -/
def notePhase (s : State) (e : Int) : State :=
  setF s SC_BEAMERR_PHERR (unsignedOf 32 (clampInt (-(2147483647 : Int)) 2147483647 e))

/-- A watermark's position in fractions; none where it never fires (R93, R100). -/
def watermarkFracs (s : State) (n : Nat) : Option Nat :=
  if flag s (SC_BEAMWM_EN n) && getF s (SC_BEAMWM_LINE n) < frameLines s then
    some (getF s (SC_BEAMWM_LINE n) * 256 + getF s (SC_BEAMWM_FRAC n))
  else none

/-- Whether watermark `n` has fired in this frame. -/
def watermarkFired (s : State) (n : Nat) : Bool := s.beam.fired.toList.getD n false

/-- Notes whether a watermark has fired in this frame. -/
def setFired (s : State) (n : Nat) (b : Bool) : State :=
  { s with beam := { s.beam with fired := s.beam.fired.setIfInBounds n b } }

/-- A watermark fires: its HIC source, and EN cleared with ONCE (R93). -/
def fireWatermark (s : State) (n : Nat) : State :=
  let s := setFired s n true
  let s := if flag s (SC_BEAMWM_ONCE n) then setF s (SC_BEAMWM_EN n) 0 else s
  pulse s (49 + n)

/-- WATERMARK_FIRE: the beam reaches or passes the position of watermark `n`, once in a frame, in every state in which the counter
runs (R74, R93). -/
def watermarkFire (s : State) (n : Nat) : State :=
  match watermarkFracs s n with
  | none => s
  | some f =>
    if beamState s = bmOff || watermarkFired s n then s
    else fireWatermark (beamAdvanceTo s s.beam.frame (f : Nat)) n

/-- A position `(frame, fracs)` that a move of the beam from state `a` to `b` passes. -/
def passed (a b : State) (frame : Word) (fracs : Int) : Bool := !beamReached a frame fracs && beamReached b frame fracs

/-- The frames that a move touches. -/
def framesBetween (a b : State) : List Word :=
  if a.beam.frame = b.beam.frame then [a.beam.frame] else [a.beam.frame, b.beam.frame]

/-- Passes whose flip instants a move may pass: of the frames that it touches, and of the next, whose first flip may lie in the
frame before it (R91, R269). -/
def stepPasses (old s : State) : List (Word × Nat) :=
  (framesBetween old s ++ [s.beam.frame + 1]).flatMap fun f => (List.range (feeds s .applied)).map fun feed => (f, feed)

/-- Lines whose flip instant a forward step jumps over flip at the step: single lines in ROLLING, every line for a pass in GLOBAL
(R80, R278). -/
def stepFlips (old s : State) : State :=
  match s.area with
  | none => s
  | some a =>
    if modeGlobal s then
      (stepPasses old s).foldl (fun t p => if passed old s p.1 (flipFracs s .applied p.2) then flipAll t a p.1 p.2 else t) s
    else (framesBetween old s).foldl (fun s f => (List.range a.h).foldl (fun t l =>
      if passed old s f ((a.y0 + l) * 256 : Nat) then flipLine t f 0 l else t) s) s

/-- Watermarks that a step passes fire once; those that a backward step returns before may fire again (R80). -/
def stepWatermarks (old s : State) : State :=
  (List.range 4).foldl (fun t n =>
    match watermarkFracs t n with
    | none => t
    | some f =>
      let hit := (framesBetween old s).any fun fr =>
        passed old s fr (f : Nat) && !(fr = old.beam.frame && watermarkFired old n)
      let t := if hit then fireWatermark t n else t
      setFired t n (beamReached s s.beam.frame (f : Nat) && (hit || (watermarkFired old n && s.beam.frame = old.beam.frame)))) s

/-- Bursts that the beam has released to a channel at its present position (R372). -/
def DmaCh.beamBursts (c : DmaCh) (s : State) : Nat :=
  let all := ceilDiv (c.field 3 23 0) (c.field 3 31 24 + 1)
  (List.range all).takeWhile (fun k =>
    let line := c.field 4 16 0 + k * c.field 5 15 0
    if frameLines s ≤ line then beamReached s (c.f0 + 1) 0 else beamReached s c.f0 (256 * line : Nat)) |>.length

/-- Before a step, the bursts of beam-paced channels that the beam has released stay released (R372). -/
def keepReleased (old s : State) : State :=
  (List.range 32).foldl (fun s n =>
    let c := dmaCh s n
    if c.phase = .moving && c.field 0 11 9 = 2 then setDma s n { c with released := max c.released (c.beamBursts old) } else s) s

/-- The effects of any step from `old` (R80): flips, watermarks, commits judged anew where it crosses a frame boundary, STEPEV and a
record. A commit whose deadline another step passes meets D(F) as it would without one (R87). -/
def stepEffects (old s : State) : State :=
  let t := stepWatermarks old (stepFlips old (keepReleased old s))
  recordBeam (raiseEvent (if old.beam.frame = s.beam.frame then t else judgeStep t) 48 SC_BEAMSTAT_STEPEV)

/-- The counter steps by a time in 1/64 ns (R76, R80). -/
def stepBeam (s : State) (d : Int) : State := stepEffects s (beamShift s d)

/-- An accepted error is slewed out (R75). -/
def slewBy (s : State) (e : Int) : State := { s with beam := { s.beam with slew := e } }

/-- Counts outliers (R76). -/
def countOutliers (s : State) (n : Nat) : State := countF s SC_BEACNT_OUTLIER n

/-- Three candidate errors agree: each within ±25 ns of their mean (R76). -/
def agree (a b c : Int) : Bool :=
  let near := fun x : Int => decide ((3 * x - (a + b + c)).natAbs ≤ 3 * 1600)
  near a && near b && near c

/-- A beacon's error makes it a step candidate (R76). A line period is 25 × SC_BEAMPER ÷ (4 TL), in 1/64 ns. -/
def isCandidate (s : State) (e : Int) : Bool :=
  let thr := getF s SC_BEAMCTL_STEPTHR
  thr != 0 && thr * framePeriod s * 25 < e.natAbs * 4 * frameLines s

/-- An accepted beacon's error is tracked, or held as a step candidate (R75, R76). After a step the frequency is measured anew. -/
def trackBeacon (s : State) (e : Int) : State :=
  let held := s.beam.candidates
  if !isCandidate s e then
    slewBy (countOutliers { s with beam := { s.beam with candidates := [] } } held.length) e
  else
    match held with
    | [a, b] =>
      if agree a b e then
        stepBeam { s with beam := { s.beam with candidates := [], base := none } } ((a + b + e) / 3)
      else countOutliers { s with beam := { s.beam with candidates := [b, e] } } 1
    | _ => { s with beam := { s.beam with candidates := held ++ [e] } }

/-- The counter is set to a position: frame, and a time from its start in 1/64 ns. -/
def setBeam (s : State) (frame : Word) (t : Int) : State :=
  beamShift { s with beam := { s.beam with frame := frame, line := 0, frac := 0, rem := 0, sub := 0, begun := true } } t

/-- The frame period of the followed anchor in 1/2²⁴ of a TCXO period, measured from a first beacon to this one, and the tracking
error of R73, ±(5 + 0.125 h) ns, as a share of it; none where the two give no period within 100 ppm of SC_BEAMPER (R62). -/
def measuredPeriod (s : State) (b : BeaconFix) (base : Word × Int × Nat) : Option (Nat × Nat) :=
  let beam : Int := frameDiff b.frame base.1 * framePeriod s * 25 + 4 * (b.time - base.2.1)
  if beam ≤ 0 then none
  else
    let p := framePeriod s * 65536 * ((b.stamp - base.2.2) * 6400) / beam.toNat
    let tol := framePeriod s * 65536 * (4 * (320 + 8 * (b.hops + 1))) / beam.toNat
    if ((p : Int) - framePeriod s * 65536).natAbs * 10000 ≤ framePeriod s * 65536 then some (p, tol) else none

/-- The frequency that the module learns from the beacons it follows: what they measure it as since the first of them, up to the
tracking error of R73 at their two ends, within which the spec leaves it open (R74, R77; log entry 46). A beacon that fits no such
measurement starts it anew. -/
def learnPeriod (s : State) (b : BeaconFix) : State :=
  match s.beam.base.bind (measuredPeriod s b) with
  | none => { s with beam := { s.beam with base := some (b.frame, b.time, b.stamp) } }
  | some (p, tol) =>
    let r := takeFresh s
    { r.2 with beam := { r.2.beam with period := p - tol + Config.freeNat r.1 % (2 * tol + 1) } }

/-! ### Beacons -/

/-- HOPS, FARHOP, SRCSTATE and SRCALT of the followed anchor (R73, R79, R97). A STATE above 2, which R67 does not name, leaves
SRCSTATE as it was: 0b11 is never reported. -/
def noteSource (s : State) (anchor hops state : Nat) : State :=
  let h := hops + 1
  let s := setF (setF s SC_BEAMSTAT_HOPS (min h 255)) SC_BEAMSTAT_FARHOP (b2n (decide (160 < h)))
  setF (if state < 3 then setF s SC_BEAMSTAT_SRCSTATE state else s) SC_BEAMSTAT_SRCALT (b2n (anchor = 2))

/-- The last accepted beacon of an anchor. -/
def heardOf (s : State) (anchor : Nat) : Option Heard := if anchor = 1 then s.beam.heardPrimary else s.beam.heardSecondary

/-- Beacons of an anchor are being accepted: the last one came within 1,024 wall lines (R72). -/
def heardLately (s : State) (anchor : Nat) : Option Heard :=
  match heardOf s anchor with
  | none => none
  | some h => if -262144 < fracsTo s h.frame (h.fracs : Nat) then some h else none

/-- Takes note of a beacon. -/
def hearBeacon (s : State) (b : BeaconFix) : State :=
  let h : Heard := { hops := b.hops, state := b.state, frame := s.beam.frame, fracs := beamFracs s }
  if b.anchor = 1 then { s with beam := { s.beam with heardPrimary := some h } }
  else { s with beam := { s.beam with heardSecondary := some h } }

/-- The module uses the beacons of an anchor from now on. -/
def useAnchor (s : State) (anchor : Nat) : State :=
  { s with beam := { s.beam with source := some anchor, base := none,
                                 goodRun := if beamState s = bmAcquire then 0 else s.beam.goodRun } }

/-- An anchor follows the other one: pulses that it counted towards a lock count no more (R64, R74). -/
def followOther (s : State) (anchor : Nat) : State :=
  useAnchor { s with beam := { s.beam with followsOther := true, returnRun := 0, goodRun := 0 } } anchor

/-- The anchor that a module follows: the one with fewer hops, or with as many the primary, is chosen in ACQUIRE, before the
module is locked to one; from then on only ANCHOR_CHANGE leaves it (R72, log entry 19). -/
def chooseAnchor (s : State) (b : BeaconFix) : State :=
  match s.beam.source with
  | none => useAnchor s b.anchor
  | some a =>
    if a = b.anchor || beamState s != bmAcquire then s
    else
      let h := ((heardOf s a).map (·.hops)).getD b.hops
      if b.hops < h || (b.hops = h && b.anchor = 1) then useAnchor s b.anchor else s

/-- The frame period that the counter runs at in 1/2²⁴ of a TCXO period: the learned one, or the nominal before the module has
learned one (R74). -/
def runPeriod (s : State) : Nat := if s.beam.period = 0 then framePeriod s * 65536 else s.beam.period

/-- How far the counter has run since a beacon's arrival stamp, in 1/64 ns of beam time. One TCXO period is 1,600/64 ns. -/
def sinceStamp (s : State) (b : BeaconFix) : Int :=
  ((s.now - b.stamp) * 1600 * (framePeriod s * 65536) / runPeriod s : Nat)

/-- The phase error of a beacon in 1/64 ns, and how many frames its count lies ahead (R65, R69): its position at the arrival
stamp against the counter at the stamp, which is the counter as it stands less what it has run since. -/
def beaconError (s : State) (b : BeaconFix) : Int × Int :=
  let tf := frameTime s
  let total := frameDiff b.frame s.beam.frame * tf + b.time + sinceStamp s b - beamTime s
  let e := nearest total tf
  (e, if tf = 0 then 0 else (total - e) / tf)

/-- The count of the last accepted beacon, which the next line index 0 compares with the module's own (R65): how far it lies
ahead. -/
def adoptCount (s : State) (df : Int) : State :=
  { s with beam := { s.beam with adopt := some (BitVec.ofInt 32 df) } }

/-- The module's own count is moved by `d`: what beacons tell of their count still holds of theirs (R65). -/
def moveCount (s : State) (d : Word) : State :=
  { s with beam := { s.beam with frame := s.beam.frame + d, adopt := s.beam.adopt.map (· - d) } }

/-- One more good beacon or pulse; at `n` of them the beam locks (R74). -/
def countGood (s : State) (n : Nat) : State :=
  let s := { s with beam := { s.beam with goodRun := s.beam.goodRun + 1 } }
  if n ≤ s.beam.goodRun then enterLocked s else s

/-- The followed anchor's beacon in ACQUIRE: the first one, or one beyond ±25 ns, sets the counter; 16 in a row lock (R74).
DESIGN CHOICE (log entry 45): the beacon that sets the counter is the first of the 16. -/
def acquireBeacon (s : State) (b : BeaconFix) (e : Int × Int) : State :=
  if s.beam.goodRun != 0 && e.1.natAbs ≤ 1600 then countGood (learnPeriod (adoptCount (beamShift s e.1) e.2) b) 16
  else
    let s := setBeam s b.frame (b.time + sinceStamp s b)
    countGood (learnPeriod { s with beam := { s.beam with goodRun := 0, started := true, base := none } } b) 16

/-- A beacon of the followed anchor is used (R65, R69, R74 to R76). A candidate teaches no frequency (R76). PHERR shows the error of
the followed anchor's beacons: which anchor's it shows where both are accepted is the model's choice (log entry 114). -/
def useBeacon (s : State) (b : BeaconFix) : State :=
  let e := beaconError s b
  let s := notePhase (noteSource s b.anchor b.hops b.state) e.1
  if beamState s = bmAcquire then acquireBeacon s b e
  else
    let candidate := isCandidate s e.1
    let s := trackBeacon (adoptCount s e.2) e.1
    if beamState s = bmHoldover || beamState s = bmFree then countGood s 4
    else if candidate then s else learnPeriod s b

/-- An accepted beacon reaches the beam block (R64, R65, R72): a follower uses it if it comes from the followed anchor; an
anchor on its own reference takes only the primary's count as a secondary, and in HOLDOVER or FREE follows the other anchor
where that one has its reference; an anchor that follows the other and hears that it has lost its own goes on by itself, in
HOLDOVER. DESIGN CHOICE (log entry 47): a beacon that no tracking can use, in OFF, with SC_BEAMPER 0, or with the module's own
role, is not counted in ACCEPT. -/
def acceptBeacon (s : State) (b : BeaconFix) : State :=
  if beamState s = bmOff || framePeriod s = 0 then s
  else
    let role := anchorRole s
    if role != 0 && b.anchor = role && !s.beam.followsOther then s
    else
      let s := hearBeacon (countWrapF s SC_BEACNT_ACCEPT 1) b
      if role != 0 && !s.beam.followsOther then
        let s := if role = 2 && b.anchor = 1 then adoptCount s (beaconError s b).2 else s
        if (beamState s = bmHoldover || beamState s = bmFree) && b.state = 0 then
          useBeacon (followOther s b.anchor) b
        else s
      else if role != 0 && b.state != 0 && beamState s != bmAcquire then
        let s := unfollow s
        if beamState s = bmLocked then enterHoldover s else s
      else
        let s := chooseAnchor s b
        if s.beam.source = some b.anchor then useBeacon s b else s

/-- HOLDOVER_ENTRY: an anchor that loses its reference while beacons of the other anchor, which has its own, reach it follows that
one (R64); otherwise LOCKED ends in HOLDOVER (R74). An anchor that loses the other one too sends its own beacons again. -/
def holdoverEntry (s : State) : State :=
  if beamState s != bmLocked then s
  else
    let role := anchorRole s
    if role = 0 then enterHoldover s
    else
      match if s.beam.followsOther then none else heardLately s (3 - role) with
      | some h =>
        if h.state = 0 then
          noteSource (followOther s (3 - role)) (3 - role) h.hops h.state
        else enterHoldover (unfollow s)
      | none => enterHoldover (unfollow s)

/-- ANCHOR_CHANGE: the followed anchor has been silent for 1,024 lines and the other is heard (R72, R79). -/
def anchorChange (s : State) : State :=
  match s.beam.source with
  | none => s
  | some a =>
    match heardLately s (3 - a) with
    | none => s
    | some h =>
      let s := if a = 1 then { s with beam := { s.beam with heardPrimary := none } }
        else { s with beam := { s.beam with heardSecondary := none } }
      noteSource (useAnchor s (3 - a)) (3 - a) h.hops h.state

/-! ### The house reference -/

/-- The measured frame period lies within 100 ppm of SC_BEAMPER (R62). -/
def periodGood (s : State) (period : Nat) : Bool :=
  decide (((period : Int) - framePeriod s).natAbs * 10000 ≤ framePeriod s)

/-- A frame pulse's error in 1/64 ns: position (F, 0, 0) lies SC_REFDLY after the edge (R61). -/
def pulseError (s : State) : Int := nearest (-(signedOf 16 (getF s SC_REFDLY_REFDLY) * 16) - beamTime s) (frameTime s)

/-- The frame that starts nearest to the counter. -/
def nearestFrame (s : State) : Word := if 2 * beamFracs s < frameFracs s then s.beam.frame else s.beam.frame + 1

/-- The count written to 0x2015:00 is taken at a frame pulse (R63). What a beacon of the primary told of its count still holds of
the primary's (R65). DESIGN CHOICE (log entry 48): in LOCKED, HOLDOVER and FREE a count that differs is a step. -/
def takeFrameSet (s : State) : State :=
  match s.beam.frameSet with
  | none => s
  | some f =>
    let d := f - nearestFrame s
    let s' := moveCount { s with beam := { s.beam with frameSet := none, started := true } } d
    if d = 0 || !beamRuns s then s' else stepEffects s s'

/-- An anchor learns the frequency of its reference (R74): the frame period measured, in 1/256 of a TCXO period. -/
def learnReference (s : State) (period : Nat) : State := { s with beam := { s.beam with period := period * 65536 } }

/-- The first good pulse in ACQUIRE sets index 0; the frame count is the one written, or starts at 0, or runs on (R63, R74). -/
def firstPulse (s : State) : State :=
  let f := s.beam.frameSet.getD (if s.beam.started then nearestFrame s else 0)
  let s := moveCount s (f - nearestFrame s)
  let s := setBeam s f (-(signedOf 16 (getF s SC_REFDLY_REFDLY) * 16))
  { s with beam := { s.beam with frameSet := none, started := true, goodRun := 1 } }

/-- A frame pulse in ACQUIRE: refused beyond 100 ppm, though a count written is taken at it; the first other sets the counter, and
four more within ±5 ns lock (R62, R63, R74). DESIGN CHOICE (log entry 45): the pulse that sets the counter is none of the four. -/
def acquirePulse (s : State) (period : Nat) : State :=
  if !periodGood s period then
    let s := takeFrameSet s
    setF { s with beam := { s.beam with goodRun := 0 } } SC_BEAMSTAT_REFMIS 1
  else if s.beam.goodRun = 0 then firstPulse (learnReference s period)
  else
    let s := takeFrameSet (learnReference s period)
    let e := pulseError s
    let s := beamShift (notePhase s e) e
    if e.natAbs ≤ 320 then countGood s 5 else { s with beam := { s.beam with goodRun := 1 } }

/-- A frame pulse of an anchor that follows the other one: after four good ones it returns to its own reference, and from HOLDOVER
or FREE to LOCKED (R63, R64, R74). -/
def returnPulse (s : State) (period : Nat) : State :=
  let s := takeFrameSet s
  let run := if periodGood s period then s.beam.returnRun + 1 else 0
  if run < 4 then { s with beam := { s.beam with returnRun := run } }
  else
    let s := learnReference (unfollow s) period
    let e := pulseError s
    let s := slewBy (notePhase s e) e
    if beamState s = bmHoldover || beamState s = bmFree then enterLocked s else s

/-- FRAME_PULSE: the selected edge of an anchor's frame pulse, with the frame period measured since the last one in 1/256 of a
TCXO period (R61 to R64, R74). DESIGN CHOICE (log entry 49): PHERR takes the error of a pulse of a locked or locking counter; it
takes none from a line clock edge, nor from the pulse that sets the counter. -/
def framePulse (s : State) (period : Nat) : State :=
  if anchorRole s = 0 || beamState s = bmOff || framePeriod s = 0 then s
  else
    let good := periodGood s period
    if s.beam.followsOther then returnPulse s period
    else if beamState s = bmAcquire then acquirePulse s period
    else
      let s := takeFrameSet (if good then learnReference s period else s)
      let e := pulseError s
      let s := slewBy (notePhase s e) e
      if beamState s = bmHoldover || beamState s = bmFree then
        if good then countGood s 4 else { s with beam := { s.beam with goodRun := 0 } }
      else s

/-- LINE_CLOCK_EDGE: with REFLC = 1 an anchor on its own reference aligns its line counter to the edge; an edge more than 10 ns from
a line start is ignored, with REFMIS (R61, R64). A line is 256 × SC_BEAMPER of the counter's units, 25 of which are 1,024 TL/64 ns. -/
def lineClockEdge (s : State) : State :=
  if anchorRole s = 0 || s.beam.followsOther || !flag s SC_BEAMCTL_REFLC || framePeriod s = 0 ||
      !(beamRuns s || (beamState s = bmAcquire && s.beam.goodRun != 0)) then s
  else
    let e := nearest (-(beamUnits s : Nat)) (256 * framePeriod s)
    if 640 * 1024 * frameLines s < e.natAbs * 25 then setF s SC_BEAMSTAT_REFMIS 1 else beamMove s e

/-! ### Frames -/

/-- The count that beacons tell of lies ahead by this much at a line index 0; 0 where none has told one, and in a secondary anchor on
its own reference that the primary's beacons do not reach any more (R65). -/
def countAhead (s : State) : Word :=
  if anchorRole s != 0 && !s.beam.followsOther && (heardLately s 1).isNone then 0 else s.beam.adopt.getD 0

/-- The count that beacons tell of is adopted at a line index 0, as a step where it differs (R65). -/
def takeAdopted (s : State) : State :=
  if countAhead s = 0 then s else stepEffects s (moveCount s (countAhead s))

/-- FRAME_START at the beam block: line index 0, the count advances, watermarks may fire anew. Where a shift has carried the
counter over line index 0, the count has advanced already (R57, R65, R93). -/
def beamFrameStart (s : State) : State :=
  if beamState s = bmOff then s
  else if s.beam.begun then
    takeAdopted { s with beam := { s.beam with
      frame := s.beam.frame + 1, line := 0, frac := 0, rem := 0, sub := 0, fired := Vector.replicate 4 false } }
  else takeAdopted { s with beam := { s.beam with begun := true } }

/-- One TCXO period of the counter: TL × 65,536 fractions over the frame period it runs at, held at the end of the frame until
FRAME_START (R57, R74, log entry 13). -/
def beamTick (s : State) : State :=
  let per := framePeriod s
  if per = 0 || beamState s = bmOff then s
  else
    let a := s.beam.sub + frameLines s * 65536 * (per * 65536)
    let u := min (beamUnits s + a / runPeriod s) (frameFracs s * per - 1)
    { s with beam := { s.beam with line := u / per / 256, frac := u / per % 256, rem := u % per, sub := a % runPeriod s } }

/-- A share of the slew: at most 1/64 ns in 32 periods, within ±20 ppm of the learned frequency (R75). -/
def slewTick (s : State) : State :=
  if s.beam.slew = 0 || s.now % 32 != 0 || !Config.slewNow s.now then s
  else
    let d : Int := if 0 < s.beam.slew then 1 else -1
    beamShift { s with beam := { s.beam with slew := s.beam.slew - d } } d

/-- Milliseconds in HOLDOVER or FREE (R101). -/
def holdTick (s : State) : State :=
  if beamState s = bmHoldover || beamState s = bmFree then
    if s.beam.holdTicks = 39999 then
      { s with beam := { s.beam with holdTicks := 0, holdMs := satAdd 32 s.beam.holdMs 1 } }
    else { s with beam := { s.beam with holdTicks := s.beam.holdTicks + 1 } }
  else s

end Sys2Proof.Machine
end

