-- ==== Sys2Proof/Machine/Egress.lean ====
section
/-! DEFINITION. The egress layer: the supervised loop, the command, the library and its verification (R171 to R175, R556). -/

namespace Sys2Proof.Machine

/-! ### The loop -/

/-- Band of an EGRESS sample: the LOOP code of the band, 4 between bands (R548, R556). -/
def loopBand (code : Nat) : Nat :=
  let mv := code * 3300
  if mv < 250 * 1024 then 3
  else if 400 * 1024 ≤ mv && mv ≤ 950 * 1024 then 1
  else if 1600 * 1024 ≤ mv && mv ≤ 2500 * 1024 then 0
  else if 2700 * 1024 < mv then 2
  else 4

/-- The loop counts as asserted: asserted, or a fault with FAULTACT or after an asserted state (R173). -/
def loopAsserted (s : State) : Bool :=
  s.pads.loop = 1 || ((s.pads.loop = 2 || s.pads.loop = 3) && (flag s SC_EGCTL_FAULTACT || s.pads.asserted))

/-- The egress state follows its causes: BYINPUT, BYCMD, ACTIVE and ENTRY, with ACTEV where ACTIVE changes (R173, R199). DESIGN
CHOICE (log entry 123): where entry 0 replaces a bad one, ENTRY still shows the one that was named. -/
def refreshEgress (s : State) : State :=
  let byInput := flag s SC_EGCTL_INEN && loopAsserted s
  let byCmd := s.comp.egressCommand.isSome
  let entry := if byInput then getF s SC_EGCTL_INENTRY else s.comp.egressCommand.getD 0
  let was := flag s SC_EGSTAT_ACTIVE
  let s := setF (setF (setF s SC_EGSTAT_BYINPUT (b2n byInput)) SC_EGSTAT_BYCMD (b2n byCmd)) SC_EGSTAT_ENTRY entry
  let s := setF s SC_EGSTAT_ACTIVE (b2n (byInput || byCmd))
  if was != (byInput || byCmd) then raiseEvent s 57 SC_EGSTAT_ACTEV else s

/-- SC_EGSTAT.LOOP shows the state that the house die holds (R199, R556). -/
def showLoop (s : State) : State := setF s SC_EGSTAT_LOOP s.pads.loop

/-- The debounced loop state takes a band (R173, R556). -/
def loopChanges (s : State) (band : Nat) : State :=
  let s := { s with pads := { s.pads with
    loop := band, asserted := if band = 0 then false else if band = 1 then true else s.pads.asserted } }
  if s.power.scanOff then s else refreshEgress (setF (showLoop s) SC_EGSTAT_LOOPEV 1)

/-- EGRESS_SAMPLE: a sample of the EGRESS pad; the tenth in a row in a band gives its state (R556). -/
def egressSample (s : State) (code : BitVec 10) : State :=
  let s := setF s PAD_EGSTAT_CODE code.toNat
  let band := loopBand code.toNat
  let run := if band = s.pads.band then min 10 (s.pads.bandRun + 1) else 1
  let s := { s with pads := { s.pads with band := band, bandRun := run } }
  if band < 4 && run = 10 && band != s.pads.loop then loopChanges s band else s

/-- An egress command: 0 releases, n shows entry n - 1 (R173, R200). -/
def egressCommand (s : State) (v : Nat) : State :=
  refreshEgress { s with comp := { s.comp with egressCommand := if v = 0 then none else some (v - 1) } }

/-! ### The library -/

/-- Pixel bytes of an entry of a width and height (R171). -/
def egressLen (wm1 hm1 : Nat) : Nat := ceilDiv (wm1 + 1) 32 * 16 * (hm1 + 1)

/-- A number in the library, at an MRAM byte address. -/
def mramNat (s : State) (a len : Nat) : Nat := leNat (mramBytes s a len)

/-- Bytes of the entry at an MRAM address, to the end of its signature (R171). -/
def egressSize (s : State) (a : Nat) : Nat := 192 + mramNat s (a + 10) 4 + 64

/-- The entry at an MRAM address meets R171 and R172 but for a repeated ID; one with an uncorrectable block does not. -/
def egressEntryGood (s : State) (a : Nat) : Bool :=
  let wm1 := mramNat s (a + 2) 2
  let hm1 := mramNat s (a + 4) 2
  let len := mramNat s (a + 10) 4
  mramNat s a 2 ≤ 31 && wm1 ≤ 1023 && hm1 ≤ 511 && len = egressLen wm1 hm1 && a + egressSize s a ≤ 0x800000 &&
    !mramBad s a (egressSize s a) &&
    Crypto.ecdsaOk (mramBytes s a (192 + len)) (mramBytes s 0x700000 64) (mramBytes s (a + 192 + len) 64)

/-- The places of the entries from a 64-byte boundary on, at most `fuel` of them: each follows the one before it at the next
boundary after its signature, as its LEN gives it (R171). -/
def egressPlaces (s : State) : Nat → Nat → List Nat
  | 0, _ => []
  | fuel + 1, a =>
    if 0x800000 < a + 256 then [] else a :: egressPlaces s fuel (ceilDiv (a + egressSize s a) 64 * 64)

/-- The valid entries: of those with one ID, the one at the lower address (R172). -/
def validEntries (s : State) : List EgressEntry :=
  ((egressPlaces s 32 0x700080).filter (egressEntryGood s)).foldl (fun acc a =>
    let id := mramNat s a 2
    if acc.any fun x => x.id = id then acc else acc ++ [{ id := id, addr := a }]) []

/-- EGRESS_LIBRARY_VERIFY: the hutch verifies the library and copies the valid entries to SC_EGBASE (R172). DESIGN CHOICE (log entry
121): where in the 1 MiB there the copies lie is not stated; each keeps its offset in the library. -/
def verifyLibrary (s : State) : State :=
  let key := readExtent s 0x700000 128
  let keyOk := !mramBad s 0x700000 64 && s.hutch.egressHash = some (Crypto.sha256 (mramBytes s 0x700000 64))
  let es := if keyOk then validEntries s else []
  let s := if keyOk then (egressPlaces s 32 0x700080).foldl (fun s a =>
      (readExtent s a (min (egressSize s a) (0x800000 - a))).1) key.1
    else key.1
  let s := { s with comp := { s.comp with libraryKeyValid := keyOk, library := es } }
  if egressBase s = 0 then s
  else es.foldl (fun s e =>
    (issueDram s .hutch (egressBase s + (e.addr - 0x700000)) (mramBytes s e.addr (egressSize s e.addr))).1) s

end Sys2Proof.Machine
end

