-- ==== Sys2Proof/Machine/Hutch.lean ====
section
/-! DEFINITION. The hutch, the alarms, the security state and the debug state (R518 to R533), and the dictionary's status
codes (R507). -/

namespace Sys2Proof.Machine

/-! ### Status codes (R507) -/

abbrev stOk : Nat := 0
abbrev stEntryAbsent : Nat := 0x10000001
abbrev stSubAbsent : Nat := 0x10000002
abbrev stNoRead : Nat := 0x20000001
abbrev stNoWrite : Nat := 0x20000002
abbrev stNoEgress : Nat := 0x20000003
abbrev stLocked : Nat := 0x20000004
abbrev stType : Nat := 0x30000001
abbrev stRange : Nat := 0x30000002
abbrev stRefusedNow : Nat := 0x30000003
abbrev stPoisonedSource : Nat := 0x30000004
abbrev stSequence : Nat := 0x40000001
abbrev stTransferTimeout : Nat := 0x40000002
abbrev stTooLong : Nat := 0x40000003
abbrev stAborted : Nat := 0x40000004
abbrev stNotReady : Nat := 0x50000001
abbrev stBusy : Nat := 0x50000002
abbrev stHouseUnavailable : Nat := 0x50000003
abbrev stStoreFailed : Nat := 0x60000001
abbrev stStorePoisoned : Nat := 0x60000002

/-! ### What is powered -/

/-- The house die is powered and out of reset (R534, R562, R563). -/
def houseOn (s : State) : Bool := s.power.supply == .running && !s.power.offAwait

/-- The scan die is powered and out of reset. -/
def scanOn (s : State) : Bool := houseOn s && !s.power.scanOff

/-! ### States -/

/-- Security state codes (R542). -/
abbrev secNormal : Nat := 0
abbrev secGuard : Nat := 1
abbrev secSeal : Nat := 2

/-- The security state. -/
def secState (s : State) : Nat := getF s SEC_STAT_STATE

/-- The debug state: 0 CLOSED, 1 OPEN-CUSTOMER, 2 OPEN-FACTORY. -/
def debugState (s : State) : Nat := getF s SEC_STAT_DEBUG

/-! ### Keys -/

/-- The slices that the decoders are decoding under a key that is cleared are discarded and counted in VIDDROP: those complete at the
head of their rings, as many as there are decoders (R433, R521; log entry 117). -/
def discardDecoding (s : State) (cleared : Nat → Bool) : State :=
  let busy := (s.weave.drawers.filterMap fun e =>
    if e.2.enabled && e.2.mode = drVideo then (gatherSlice s e.2 [] (ringCount e.2)).2.map fun cs => (e.1, cs) else none).take
      (decoderCount s.variant)
  busy.foldl (fun s e =>
    if e.2.any fun c => c.any fun b => 128 ≤ (b.getD 13 0).toNat && cleared ((b.getD 13 0).toNat % 32) then
      passSlice (countF s WV_ENGCNT_VIDDROP 1) (BitVec.ofNat 14 e.1) e.2.length
    else s) s

/-- A key load, or a clearing, comes to the slice decoders: their copy of a slot is what the hutch holds there. One whose slot has
changed since changes nothing: it was erased, or its later load is on its way (R520, R521). -/
def loadDecoders (s : State) (slot : Nat) (k : Option (List Byte)) : State :=
  if s.hutch.content.toList.getD slot none != k then s
  else
    let s := if k.isNone then discardDecoding s fun n => n = slot else s
    { s with hutch := { s.hutch with decoders := s.hutch.decoders.setIfInBounds slot k } }

/-- Content keys and the decoders' copies are erased (R521). -/
def eraseContent (s : State) : State :=
  let s := discardDecoding s fun n => (s.hutch.decoders.toList.getD n none).isSome
  let s := { s with hutch := { s.hutch with content := Vector.replicate 32 none, decoders := Vector.replicate 32 none } }
  setF s SEC_KEYST_LOADED 0

/-- Every key but the fuse root is erased, with the wrapped seal key (R525, R530). -/
def eraseAll (s : State) : State :=
  let s := eraseContent s
  { s with hutch := { s.hutch with kek := none, sealKey := none, wrappedSeal := none } }

/-- Key writes are refused unless the module is NORMAL and CLOSED (R520). -/
def keysLocked (s : State) : Bool := secState s != secNormal || debugState s != 0

/-- The hutch loads a key into every present slice decoder through the bridge, as source 0x05 (R40, R520). -/
def sendKey (s : State) (slot : Nat) (k : Option (List Byte)) : State :=
  if decoderCount s.variant = 0 then s else issueToScan s (.key slot k)

/-- A slot takes a key, or is emptied; the decoders' copies follow through the bridge (R51, R520). -/
def setContent (s : State) (slot : Nat) (k : Option (List Byte)) : State :=
  let s := { s with hutch := { s.hutch with content := s.hutch.content.setIfInBounds slot k } }
  let l := getF s SEC_KEYST_LOADED
  sendKey (setF s SEC_KEYST_LOADED (if k.isSome then l ||| 2 ^ slot else l - (if bitAt l slot then 2 ^ slot else 0))) slot k

/-- The slots whose decoders' copies differ are loaded again when the bridge comes UP, whatever it was DOWN for: the spec says that
a key is loaded when it is written, and not how the copies come back (DESIGN CHOICE, log entry 93). -/
def reloadDecoders (s : State) : State :=
  (List.range 32).foldl (fun s slot =>
    let k := s.hutch.content.toList.getD slot none
    if s.hutch.decoders.toList.getD slot none = k then s else sendKey s slot k) s

/-- What a wrapped key gives under the KEK: none where it is refused with RANGE; some none for an all-zero write (R520). -/
def unwrapped (s : State) (w : List Byte) : Option (Option (List Byte)) :=
  if w.all (· = 0) then some none
  else
    match s.hutch.kek with
    | none => none
    | some k => (Crypto.keyUnwrap k w).map some

/-- CONTENT_KEY_WRITE: the answer and the state after it (R520). -/
def contentKeyWrite (s : State) (slot : Nat) (w : List Byte) : State × Nat :=
  if w.length != 40 then (s, stType)
  else if keysLocked s then (s, stLocked)
  else
    match unwrapped s w with
    | none => (s, stRange)
    | some k => (setContent s slot k, stOk)

/-- SEAL_KEY_WRITE (R520). -/
def sealKeyWrite (s : State) (w : List Byte) : State × Nat :=
  if w.length != 40 then (s, stType)
  else if keysLocked s then (s, stLocked)
  else
    match unwrapped s w with
    | none => (s, stRange)
    | some k => ({ s with hutch := { s.hutch with sealKey := k, wrappedSeal := k.map fun _ => w } }, stOk)

/-- The module's key-agreement private key: HKDF-SHA-256 of the fuse root (R519). DESIGN CHOICE (log entry 80): the spec gives neither
salt nor info, nor how 256 bits become a number of 1 to n − 1. -/
def agreementKey : Nat :=
  Crypto.beNat (Crypto.hkdf Config.agreementSalt (Crypto.beBytes 32 Config.fuseRoot.toNat) Config.agreementInfo) %
    (Crypto.n256 - 1) + 1

/-- The key-encryption key that the module derives from a controller's public key: HKDF-SHA-256 of the x-coordinate of the
shared secret, the serial number its salt (R519); none where the point is not on the curve. -/
def agreedKey (point : List Byte) : Option (List Byte) :=
  (Crypto.sharedSecret agreementKey point).map fun x =>
    Crypto.hkdf (leBytes 8 Config.serialNumber.toNat) x ("RHALOTH-KEK".toList.map fun c => BitVec.ofNat 8 c.toNat)

/-- The module's key-agreement public key: X, then Y (R519). -/
def agreementPublic : List Byte :=
  match Crypto.mulPoint agreementKey Crypto.base256 with
  | some p => Crypto.beBytes 32 p.1 ++ Crypto.beBytes 32 p.2
  | none => []

/-- KEY_AGREEMENT: a controller's public key derives a new KEK (R519). -/
def keyAgreement (s : State) (point : List Byte) : State × Nat :=
  if point.length != 64 then (s, stType)
  else
    match agreedKey point with
    | none => (s, stRange)
    | some k => ({ s with hutch := { s.hutch with kek := some k } }, stOk)

/-! ### Alarms -/

/-- Level of a source: LIDSW acts at NOTE while the debug state is open (R523). -/
def alarmLevel (s : State) (n : Nat) : Nat :=
  if n = 0 && debugState s != 0 then 0 else natBits (getF s SEC_ALMCFG_LEVEL) (2 * n + 1) (2 * n)

/-- The lowest level that a source may have (R523). -/
def minLevel (n : Nat) : Nat := if n = 1 then 1 else 0

/-- The island watches the source in OFF-AWAIT (R523). -/
def watchedInAwait (n : Nat) : Bool := n = 0 || n = 1 || n = 2 || n = 4

/-- LEVEL after a write: a pair of 0b11 or below its source's minimum keeps its value; true where some pair does (R523,
R542). -/
def writtenLevels (old new : Nat) : Nat × Bool :=
  (List.range 6).foldl (fun acc n =>
    let v := natBits new (2 * n + 1) (2 * n)
    if v = 3 || v < minLevel n then (acc.1 + natBits old (2 * n + 1) (2 * n) * 4 ^ n, true)
    else (acc.1 + v * 4 ^ n, acc.2)) (0, false)

/-- A record of an alarm or a change of state; with the house die off it goes to the island alarm log, which keeps the last
four (R524, R527). -/
def recordAlarm (s : State) (source level : Nat) : State :=
  if houseOn s then record s .alarm 0x7001 source level (secState s) 0 source
  else
    let l := s.hutch.alarmLog ++ [(source, level, secState s)]
    { s with hutch := { s.hutch with alarmLog := l.drop (l.length - 4) } }

/-- Entry to SEAL: the items that the windows of SCENE and VIDEO queues hold are discarded, each counted in BADQ; those that come
later are turned away as they come (R525). -/
def sealWindows (s : State) : State :=
  s.weave.drawers.foldl (fun s e =>
    if sealDiscards s e.2 then
      setDrawer (e.2.held.foldl (fun s _ => countBadQ s) s) (BitVec.ofNat 14 e.1) { e.2 with held := [] }
    else s) s

/-- The state rises to a level (R524, R525). -/
def raiseSecurity (s : State) (level : Nat) : State :=
  if level ≤ secState s then s
  else
    let s := setF s SEC_STAT_STATE level
    if level = secSeal then
      let s := sealWindows (eraseAll s)
      { s with hutch := { s.hutch with sealMark := true } }
    else eraseContent s

/-- A source raises its alarm (R523 to R525, R542). -/
def raiseAlarm (s : State) (n : Nat) : State :=
  let level := alarmLevel s n
  let s := raiseSecurity (orF s SEC_STAT_LATCHED (2 ^ n)) level
  recordAlarm (raiseEvent s 208 SEC_STAT_ALMEV) n level

/-- ALARM: the condition of a source holds; sources that nothing watches in the present state raise none (R523). -/
def alarm (s : State) (n : Nat) : State :=
  if !s.power.island || (!houseOn s && !watchedInAwait n) then s
  else raiseAlarm (orF s SEC_STAT_ACTIVE (2 ^ n)) n

/-- ALARM_SOURCE_INACTIVE: a source's condition stops holding (R542). -/
def alarmInactive (s : State) (n : Nat) : State :=
  if s.power.island && bitAt (getF s SEC_STAT_ACTIVE) n then setF s SEC_STAT_ACTIVE (getF s SEC_STAT_ACTIVE - 2 ^ n) else s

/-- The frame under composition keeps the state it had (R526). -/
def holdShown (s : State) : State :=
  let held := if s.comp.composing.isSome || s.comp.nextPass.isSome then shownSecurity s else 0
  { s with comp := { s.comp with secHeld := held } }

/-- The state returns to NORMAL and the seal mark is cleared, with a record whose source and level the spec does not state
(R524, R526). -/
def clearSecurity (s : State) : State :=
  let s := setF (holdShown s) SEC_STAT_STATE secNormal
  let s := { s with hutch := { s.hutch with sealMark := false } }
  let f := takeFresh s
  let g := takeFresh f.2
  record g.2 .alarm 0x7001 (Config.freeNat f.1) (Config.freeNat g.1) secNormal 0 8

/-- Some source of level GUARD or SEAL is active (R526). -/
def guardSourceActive (s : State) : Bool :=
  (List.range 6).any fun n => bitAt (getF s SEC_STAT_ACTIVE) n && alarmLevel s n != 0

/-- GUARD_CLEAR (R526): refused while a source of level GUARD or SEAL is active; a state other than GUARD is left as it is. -/
def guardClear (s : State) : State × Nat :=
  if guardSourceActive s then (s, stRefusedNow)
  else if secState s != secGuard then (s, stOk)
  else (clearSecurity s, stOk)

/-- A write of SEC_CMD: GUARDCLR; a refused clear sets ALMEV (R542). -/
def secCommand (s : State) (w : Word) : State :=
  if bitsOf w 0 0 = 0 then s
  else
    let r := guardClear s
    if r.2 = stOk then r.1 else raiseEvent r.1 208 SEC_STAT_ALMEV

/-- SEAL_CLEAR by BENCH in an open debug state (R526). -/
def sealClear (s : State) : State × Nat :=
  if debugState s = 0 then (s, stLocked)
  else if getF s SEC_STAT_ACTIVE != 0 then (s, stRefusedNow)
  else if secState s != secSeal then (s, stOk)
  else (clearSecurity s, stOk)

/-! ### The debug state -/

/-- A change of debug state: DBGEV and its record (R530, R542). -/
def setDebug (s : State) (d target : Nat) : State :=
  let s := raiseEvent (setF s SEC_STAT_DEBUG d) 208 SEC_STAT_DBGEV
  record s .alarm 0x7002 d target 0 0 d

/-- The debug state returns to CLOSED (R531); TARGET of its record is not stated. -/
def debugClose (s : State) : State :=
  if debugState s = 0 then s
  else
    let f := takeFresh s
    setDebug { f.2 with hutch := { f.2.hutch with leased := false } } 0 (Config.freeNat f.1)

/-- LEASE_EXPIRY (R531). -/
def leaseExpiry (s : State) : State := if s.hutch.leased then debugClose s else s

/-- NONCE_READ: a fresh nonce (R529). -/
def nonceRead (s : State) : State × List Byte :=
  let f := takeFresh s
  let n := (List.range 32).map fun i => Config.randomByte f.1 i
  ({ f.2 with hutch := { f.2.hutch with nonce := some n } }, n)

/-- NONCE_EXPIRY: an unused nonce expires after 10 s (R529). -/
def nonceExpiry (s : State) : State := { s with hutch := { s.hutch with nonce := none } }

/-- A failure is counted; at LIMIT the UNLOCK alarm is raised and FAILS returns to 0 (R529). -/
def unlockFails (s : State) : State :=
  let s := { s with hutch := { s.hutch with failedAt := some s.now } }
  let n := getF s SEC_UNLK_FAILS + 1
  if max 1 (getF s SEC_UNLK_LIMIT) ≤ n then raiseAlarm (setF s SEC_UNLK_FAILS 0) 5 else setF s SEC_UNLK_FAILS n

/-- DEBUG_OPEN: the keys of the target state are erased, the state is set, the lease starts (R530). -/
def debugOpen (s : State) (target : Nat) : State :=
  let s := if target = 1 then eraseContent s else eraseAll s
  let s := setF s SEC_UNLK_FAILS 0
  setDebug { s with hutch := { s.hutch with leased := getF s SEC_UNLK_LEASE != 0, failedAt := none } } target target

/-- The token's key and signature are good for its target (R529). -/
def tokenGood (s : State) (nonce tok : List Byte) : Bool :=
  let target := leAt tok 0 1
  let key := (tok.drop 1).take 64
  let msg := nonce ++ leBytes 8 Config.serialNumber.toNat ++ tok.take 1
  let hash := if target = 1 then s.hutch.customerHash else some Config.factoryHash
  (target = 1 && s.hutch.customerHash.isNone) ||
    (hash = some (Crypto.sha256 key) && Crypto.ecdsaOk msg key ((tok.drop 65).take 64))

/-- UNLOCK_TOKEN (R529): every token ends the nonce; an alarm that arises while it is verified ends it uncounted. -/
def unlockToken (s : State) (tok : List Byte) : State × Nat :=
  if tok.length != 129 then (s, stType)
  else
    let target := leAt tok 0 1
    let nonce := s.hutch.nonce
    let s := nonceExpiry s
    if (match s.hutch.failedAt with
      | some t => decide (s.now < t + 40000000)
      | none => false) then (s, stRefusedNow)
    else
      match nonce with
      | none => (unlockFails s, stRefusedNow)
      | some n =>
        if target != 1 && target != 2 then (unlockFails s, stRefusedNow)
        else if debugState s = 2 || s.hutch.alarmed then (s, stRefusedNow)
        else if tokenGood s n tok then (debugOpen s target, stOk)
        else (unlockFails s, stRange)

/-! ### Boot -/

/-- The island alarm log goes to the recorder, in logged order and marked HELD, before every other cause of a boot (R527,
R578). -/
def islandLog (s : State) : State :=
  s.hutch.alarmLog.foldl (fun s e =>
    enqueueRecord s { cls := .alarm, code := 0x7001, tform := false, held := true, overpin := false, time := 0,
                      p0 := BitVec.ofNat 32 e.1, p1 := BitVec.ofNat 32 e.2.1, p2 := BitVec.ofNat 32 e.2.2, p3 := 0 } e.1)
    { s with hutch := { s.hutch with alarmLog := [] } }

/-- The security state as a boot finds it (R527): SEAL with the seal mark set, else what the island holds. -/
def bootSecurity (s : State) : State :=
  let s := if s.hutch.sealMark then setF s SEC_STAT_STATE secSeal else s
  match s.hutch.sealKey, s.hutch.kek, s.hutch.wrappedSeal with
  | none, some k, some w => { s with hutch := { s.hutch with sealKey := Crypto.keyUnwrap k w } }
  | _, _, _ => s

end Sys2Proof.Machine
end

