-- ==== Sys2Proof/Machine/Pads.lean ====
section
/-! DEFINITION. The pad block: pin function, holds, locks, hold latches, the converter, the banks and the auxiliary UART
(R547 to R557, R567). -/

namespace Sys2Proof.Machine

/-! ### Pin function -/

/-- What drives a pad now: nothing without the supply, and nothing while its bank's rail slews (R533, R547, R549, R551, R554,
R562). -/
def padDriver (s : State) (p : Nat) : PadDriver :=
  if s.power.supply != .running || s.pads.slewing.contains (p / 128) then .none
  else match s.hutch.boundary with
  | .highz => .none
  | .extest | .clamp => if !padBonded s.variant p || (gatedFunc (padFunc s p) && ownB s) then .none else .boundary
  | .off =>
    if padGated s p then .none
    else
      match s.pads.latched.find? fun x => x.1 = p with
      | some x => x.2
      | none =>
        if s.power.offAwait || getF s HS_PWRSTAT_STATE = 2 then .none
        else
          match s.pads.holds.find? fun x => x.1 = p with
          | some x => x.2
          | none => selectedDriver s p

/-- A pad's input buffer is on: INEN, and in HIBERNATE and OFF-AWAIT only on pads named by an enabled PAD_WAKEk and on the
EGRESS pad (R554, R567). -/
def inputBuffered (s : State) (p : Nat) : Bool :=
  flag s (PAD_CFG_INEN p) &&
    (!(s.power.offAwait || getF s HS_PWRSTAT_STATE = 2) || getF s PAD_EGSEL_PAD = p ||
      (List.range 8).any fun k => flag s (PAD_WAKE_EN k) && getF s (PAD_WAKE_PAD k) = p)

/-- The level at a pad's digital input: nothing in analogue mode; what the module drives; else what is outside, a free value (R244,
R251, R548 to R550). With the input buffer off the spec does not say what it reads as (log entry 112). -/
def padInput (s : State) (n p : Nat) : Bool :=
  if !padBonded s.variant p || flag s (PAD_CFG_AMODE p) then false
  else if !inputBuffered s p then Config.padLevel p n
  else (driverLevel s n p (padDriver s p)).getD (Config.padLevel p n)

/-- PAD_GPINw as it reads. -/
def gpinWord (s : State) (w : Nat) : State × Word :=
  let f := takeFresh s
  (f.2, (List.range 32).foldl (fun x b => if padInput s f.1 (32 * w + b) then x ||| (1#32 <<< b) else x) 0)

/-- PAD_FUNCTION_HOLD_END: the pad releases to its latest function (R551). -/
def padHoldEnd (s : State) (p : Nat) : State :=
  { s with pads := { s.pads with holds := s.pads.holds.filter fun x => x.1 != p } }

/-! ### Locks -/

/-- A pad is locked (R553). -/
def padLocked (s : State) (p : Nat) : Bool := flag s (PAD_CFG_LOCKED p)

/-- Counts a write ignored under R553. -/
def countLockDrop (s : State) : State := countF s PAD_STAT_LOCKDROP 1

/-- Step of the lock sequence that a source has reached. -/
def lockStep (s : State) (src : Src) : Nat := sget s.pads.lockSeq 0 (srcId src)

/-- Sets it. -/
def setLockStep (s : State) (src : Src) (n : Nat) : State :=
  { s with pads := { s.pads with lockSeq := sput s.pads.lockSeq 0 (srcId src) n } }

/-- PAD_LOCK_KEY: a write of PAD_CTL advances the sequence or breaks it (R553). -/
def lockKey (s : State) (src : Src) (w : Word) : State :=
  let k := bitsOf w 7 0
  setLockStep s src (if k = 0x5A then 1 else if k = 0xA5 && lockStep s src = 1 then 2 else 0)

/-- PAD_LOCK: a write of PAD_LOCKw that completes the sequence locks the named pads (R553). -/
def padLockWrite (s : State) (src : Src) (w : Nat) (v : Word) : State :=
  let done := lockStep s src = 2
  let s := setLockStep s src 0
  if !done then countLockDrop s
  else
    let ps := (List.range 32).filter fun b => v.getLsbD b && padBonded s.variant (32 * w + b)
    let s := setRegWord s (PAD_LOCK w) (ps.foldl (fun x b => x ||| (1#32 <<< b)) (regWord s (PAD_LOCK w)))
    ps.foldl (fun s b => setF s (PAD_CFG_LOCKED (32 * w + b)) 1) s

/-- The locked pads of a word, as a mask. -/
def lockMask (s : State) (w : Nat) : Word :=
  (List.range 32).foldl (fun x b => if padLocked s (32 * w + b) then x ||| (1#32 <<< b) else x) 0

/-- Whether a locked pad keeps a register of the pad block from changing (R553); PAD_GPOEw is locked bit by bit. -/
def padRegLocked (s : State) (a : Nat) : Bool :=
  if a < 0x109200 then padLocked s (a - 0x109000)
  else if a = PAD_EGSEL then padLocked s (getF s PAD_EGSEL_PAD)
  else if 0x109248 ≤ a && a < 0x109250 then padLocked s (getF s (PAD_WAKE_PAD (a - 0x109248)))
  else if 0x109250 ≤ a && a < 0x109254 then
    (List.range 128).any fun i => padLocked s (128 * (a - 0x109250) + i)
  else false

/-! ### Hold latches -/

/-- Entry to HIBERNATE or OFF-AWAIT: pads with HOLD keep their level and output enable (R554). -/
def latchPads (s : State) : State :=
  let ps := (List.range 512).filter fun p =>
    padBonded s.variant p && flag s (PAD_CFG_HOLD p) && !gatedFunc (padFunc s p) && !s.pads.latched.any fun x => x.1 = p
  if ps.isEmpty then s
  else
    let f := takeFresh s
    setF { f.2 with pads := { f.2.pads with
      latched := f.2.pads.latched ++ ps.map fun p => (p, frozen s f.1 p (padDriver s p)) } } PAD_STAT_HELD 1

/-- HOLD_RELEASE: the latches are released, and the pads release to their functions after a hold (R551, R554). -/
def releaseLatches (s : State) : State :=
  let l := s.pads.latched.filter fun x => !s.pads.holds.any fun y => y.1 = x.1
  setF { s with pads := { s.pads with latched := [], holds := s.pads.holds ++ l } } PAD_STAT_HELD 0

/-! ### The converter, the banks, the UART -/

/-- ADC_CONVERT: a write of PAD_ASEL has stored PAD (R548). -/
def adcConvert (s : State) : State :=
  setF { s with pads := { s.pads with converting := true } } PAD_AVAL_VALID 0

/-- ADC_DONE (R548). -/
def adcDone (s : State) (code : BitVec 10) : State :=
  if s.pads.converting then
    setF (setF { s with pads := { s.pads with converting := false } } PAD_AVAL_CODE code.toNat) PAD_AVAL_VALID 1
  else s

/-- BANK_VIO_WRITE: a change of VIO tri-states the bank while the rail slews (R547). -/
def bankVio (s : State) (k was : Nat) : State :=
  if was = getF s (PAD_BANK_VIO k) || s.pads.slewing.contains k then s
  else { s with pads := { s.pads with slewing := k :: s.pads.slewing } }

/-- BANK_RAIL_SLEW_END (R547). -/
def bankSlewEnd (s : State) (k : Nat) : State :=
  { s with pads := { s.pads with slewing := s.pads.slewing.filter (· != k) } }

/-- A byte enters the receive FIFO; one that finds it full is lost (R550). -/
def uartByte (s : State) (b : Byte) : State :=
  if 16 ≤ s.pads.uartRx.length then s else { s with pads := { s.pads with uartRx := s.pads.uartRx ++ [b] } }

/-- UART_RECEIVE: a byte arrives at the UART_RX pad. In analogue mode the input has nothing of it; with the input buffer off the
spec does not say what the input sees, so whether a byte is taken, and which, is free (R548, R550, R554, R567; log entry 112). -/
def uartReceive (s : State) (b : Byte) : State :=
  let p := (uartPads s).2
  if !flag s PAD_MUXEN_UARTEN || !padBonded s.variant p || flag s (PAD_CFG_AMODE p) then s
  else if inputBuffered s p then uartByte s b
  else
    let f := takeFresh s
    if Config.padLevel p f.1 then uartByte f.2 (BitVec.ofNat 8 (Config.freeNat f.1)) else f.2

/-- PAD_UART as it reads; the read takes the oldest byte (R567). -/
def uartRead (s : State) : State × Word :=
  let d := (s.pads.uartRx.headD 0).toNat
  let w := 2 ^ 31 * b2n (!s.pads.uartRx.isEmpty) + 2 ^ 30 * b2n (16 ≤ s.pads.uartTx.length) +
    2 ^ 16 * getF s PAD_UART_BAUD + d
  ({ s with pads := { s.pads with uartRx := s.pads.uartRx.drop 1 } }, BitVec.ofNat 32 w)

/-- UART_TRANSMIT: a write of PAD_UART queues its byte unless the FIFO is full (R567). -/
def uartTransmit (s : State) (w : Word) : State :=
  let s := setF s PAD_UART_DATA 0
  if 16 ≤ s.pads.uartTx.length then s
  else { s with pads := { s.pads with uartTx := s.pads.uartTx ++ [w.setWidth 8] } }

/-- UART_BYTE_TRANSMITTED (R550). -/
def uartByteSent (s : State) : State :=
  match s.pads.uartTx with
  | [] => s
  | b :: bs =>
    if flag s PAD_MUXEN_UARTEN then emit { s with pads := { s.pads with uartTx := bs } } (.uart b) else s

/-! ### Resets -/

/-- A house-die reset clears the audio and pad-block enables; the pads fall back under R551 and the FIFOs empty (R551). `old`
is the state before the reset. -/
def padsHouseReset (old s : State) : State :=
  let s := { s with pads := { s.pads with lockSeq := [], converting := false, uartRx := [], uartTx := [] } }
  holdChanged old s muxPads

/-- The pad set-up, locks and latches are reset (R552). -/
def padsIslandReset (s : State) : State :=
  { s with regs := s.regs.filter (fun e => !(0x109000 ≤ e.1 && e.1 < 0x10A000)), pads := .reset }

end Sys2Proof.Machine
end

