-- ==== Sys2Proof/Machine/Resets.lean ====
section
/-! DEFINITION. The resets of the two dies (R31): what each returns to its reset state and what outlives it; the repair table;
the recorder's counts at a boot (R395, R435, R442, R574, R601). -/

namespace Sys2Proof.Machine

/-! ### Repair (R393 to R395) -/

/-- The macros of the scan die that are present (R393). -/
def scanMacros (v : Variant) : List Nat :=
  let n := regionCount v
  ((List.range (4 * n)).map (0x40 + ·)) ++ ((List.range (2 * n)).map (0x50 + ·)) ++ ((List.range n).map (0x58 + ·)) ++
    ((List.range n).map (0x5C + ·))

/-- A slot's macro is repaired with the scan die; slots of macros that do not exist are looked at with the house die. -/
def repairedWith (v : Variant) (scan : Bool) (m : Nat) : Bool := (scanMacros v).contains m == scan

/-- What the entries of one macro have used: spare rows and columns, and the rows and columns replaced. -/
structure SparesUsed where
  rows : Nat
  cols : Nat
  done : List (Nat × Nat)
deriving DecidableEq, Repr

/-- One entry of the field repair table: whether it is ignored with VALID = 1, and what is used after it (R395). -/
def repairEntry (s : State) (m : Nat) (u : SparesUsed) (w : Word) : SparesUsed × Bool :=
  if bitsOf w 31 31 = 0 then (u, false)
  else
    let kind := bitsOf w 30 30
    let index := bitsOf w 15 0
    let exists' := m < 0x24 || (scanMacros s.variant).contains m
    let left := if kind = 0 then u.rows < 4 else u.cols < 2
    if exists' && bitsOf w 23 16 = m && index < Config.macroSize m kind && !u.done.contains (kind, index) &&
        !Config.fusedIndex m kind index && left then
      ({ rows := u.rows + b2n (kind = 0), cols := u.cols + b2n (kind = 1), done := (kind, index) :: u.done }, false)
    else (u, true)

/-- The eight entries of a macro, in slot order: how many are ignored. -/
def repairMacro (s : State) (m : Nat) : State × Nat :=
  let start : SparesUsed := { rows := Config.fusedSpares m 0, cols := Config.fusedSpares m 1, done := [] }
  let r := touchBlock s (0x6FE000 / 32 + m)
  let ws := (List.range 8).map fun j => BitVec.ofNat 32 (leNat (mramBytes s (0x6FE000 + 32 * m + 4 * j) 4))
  let n := if r.2 then
      (ws.foldl (fun acc w => let e := repairEntry s m acc.1 w; (e.1, acc.2 + b2n e.2)) (start, 0)).2
    else (ws.filter fun w => w.getLsbD 31).length
  (r.1, n)

/-- The repair table is applied for a die: ignored entries are counted, with REPEV (R395). -/
def repairDie (s : State) (scan : Bool) : State :=
  ((List.range 256).filter (repairedWith s.variant scan)).foldl (fun s m =>
    let r := repairMacro s m
    if r.2 = 0 then r.1 else raiseEvent (countF r.1 HS_REPSTAT_SKIPPED r.2) 66 HS_MEMSTAT_REPEV) s

/-! ### The scan die -/

/-- The scan die's state apart from the bridge and the registers that live outside it, as a reset leaves it: drive ports
tri-stated, OWN_A low, the frame store to be cleared; the beam is OFF, which ends beam pacing and waits for wall lines (R31, R226,
R362, R372, R457). The egress library as verified is the hutch's. The module keeps its area, which comes with the geometry table
and which no rule takes away at a scan-die reset: the model's choice (log entry 93). -/
def scanBlocksReset (s : State) : State :=
  let s := releaseLineHolds s
  let comp := { Composition.reset with libraryKeyValid := s.comp.libraryKeyValid, library := s.comp.library }
  { s with
    beam := { Beam.reset with stops := s.beam.stops + 1 }, scene := .reset, comp := comp, trestle := .reset, drive := .reset, copier := none,
    dram := { s.dram with scrubUnit := 0, lastRecorded := none }, perf := Vector.replicate 4 0,
    hic := { s.hic with scanHeld := [] }, recorder := { s.recorder with scanHeld := [] },
    audio := { s.audio with sentRows := [] },
    hutch := { s.hutch with decoders := Vector.replicate 32 none },
    twin := { s.twin with failed := false, failAtRelease := false, rearm := false, own := [], theirs := [], comparing := none,
                          run := 0, checking := false, ownResult := none, theirResult := none, checkHeld := false }, held := [] }

/-- The scan die's registers at their reset values; SC_OWNSTAT.PARTNER is the level of OWN_B and SC_EGSTAT.LOOP the state that
the house die holds. -/
def scanRegsReset (s : State) : State :=
  let high := ownB s
  let s := { s with regs := s.regs.filter (fun e => !isScanAddr e.1), applied := [],
                    mem := { s.mem with corrections := s.mem.corrections.filter fun e => e.1 < 0x1000000 } }
  showLoop (setF s SC_OWNSTAT_PARTNER (b2n high))

/-- The bridge as a scan-die reset or power-off leaves it: DOWN, with nothing accepted by the scan die left to apply. -/
def bridgeLosesScan (s : State) (poweredDown : Bool) : State :=
  let s := if bridgeState s = brDown then s else bridgeGoesDown s poweredDown
  { s with bridge := { s.bridge with toScan := .reset, poweredDown := poweredDown, trainAfterReset := !poweredDown } }

/-- The scan die loses its state: unreported commits end with reason 0x07, the bridge goes DOWN, the blocks and registers are as
after reset, and pads whose function that changes hold their level for one pad clock (R31, R51, R457, R551, R601). -/
def scanLost (s : State) (poweredDown : Bool) : State :=
  let old := s
  let s := bridgeLosesScan (endCommits s) poweredDown
  holdPorts old (scanRegsReset (scanBlocksReset s))

/-- SCAN_DIE_RESET (R31, R457, R601): the scan die is reset and its macros are repaired again (R395). -/
def scanReset (s : State) : State := repairDie (scanLost s false) true

/-! ### The house die -/

/-- The bits of a house-die register that outlive a house-die reset: what the island holds (R364, R542, R552), the alarm set-up
that a power-on reset alone unlocks (R542), the power state, and what is measured or strapped (R543, R568; log entry 40). -/
def houseKeeps (a : Nat) : Word :=
  if 0x109000 ≤ a && a < 0x10A000 then
    if a = PAD_MUXEN then 0xA
    else if a = PAD_STAT then 0x80000000
    else if a = PAD_EGSTAT || a = PAD_ASEL || a = PAD_AVAL || a = PAD_UART then 0
    else 0xFFFFFFFF
  else if a = SEC_STAT then 0x003F3F0F
  else if a = SEC_UNLK then 0x0000000F
  else if a = HS_PWRSTAT then 0x00000703
  else if a = HS_SUPPLY then 0x003FFFFF
  else if a = HS_THERM then 0x00FFFF00
  else if a = SEC_ALMCFG || a = SEC_KEYST || a = HIC_WAKELAT || a = HS_PWRCTL || a = HS_ISLTMR then
    0xFFFFFFFF
  else 0

/-- A house-die register after a reset: the bits that outlive it, and reset values elsewhere. -/
def keptEntry (e : Nat × Word) : Option (Nat × Word) :=
  if isScanAddr e.1 then some e
  else
    let m := houseKeeps e.1
    let w := (e.2 &&& m) ||| (regDefault e.1 &&& ~~~ m)
    if m = 0 || w = regDefault e.1 then none else some (e.1, w)

/-- The house die's registers as its reset leaves them. -/
def houseRegsReset (s : State) : State :=
  notePinned { s with regs := s.regs.filterMap keptEntry } s.recorder.pincnt

/-- House SRAM as the boot ROM leaves it: pages 0 to 15 written as UNSET and marked, every other page unmarked; local SRAM
written as UNSET by hardware (R386, R389). -/
def houseMemoryReset (s : State) : State :=
  let mem := { s.mem with sram := fillCells s.mem.sram 0 16384, locals := Vector.replicate 4 [],
                          corrections := s.mem.corrections.filter fun e => 0x1000000 ≤ e.1,
                          lastRecorded := none, patrol := 0, mramPatrol := 0 }
  setRegWord { s with mem := mem } (HS_WMAP 0) 0x0000FFFF

/-- The recorder: its queue and bucket are lost, its counts go on (R572, R574). -/
def houseRecorderReset (s : State) : State :=
  { s with recorder := { s.recorder with queue := [], tokens := 64, dropped := 0, limits := [], clears := [] } }

/-- The bridge as a house-die reset leaves it: DOWN, to be trained; what the scan die has accepted applies, what the house die
has not accepted of its events the scan die holds (R31, R357, R358). -/
def bridgeLosesHouse (s : State) : State :=
  let s := holdUnaccepted s
  { s with bridge := { Bridge.reset with
      toScan := { BridgeDir.reset with arrived := s.bridge.toScan.arrived.filter fun m => msgClass m != .read }, poweredDown := s.bridge.poweredDown,
      trainAfterReset := !s.bridge.poweredDown } }

/-- Writes of a DMA channel that have crossed the bridge and not applied: they apply, and are no element of a later
descriptor. -/
def dmaInFlight (s : State) (n : Fin 32) : Nat :=
  ((s.bridge.toScan.arrived ++ s.comp.behind).filter fun m => msgSource m = some (.dma n)).length

/-- The house die's blocks: every queue, chain and pending request ends (R376, R435, R442, R487). What the scan die knows of
the twin stays with it. -/
def houseBlocksReset (s : State) : State :=
  let twin := { Twin.reset with failed := s.twin.failed, latched := s.twin.latched, failAtRelease := s.twin.failAtRelease,
                                rearm := s.twin.rearm, own := s.twin.own }
  let dresser := { Dresser.reset with stored := s.dresser.stored, lockups := s.dresser.lockups,
                                      libraryLen := s.dresser.libraryLen }
  { s with
    hic := { Hic.reset with scanHeld := s.hic.scanHeld }, timers := Vector.replicate 8 0, dma := Vector.ofFn fun (n : Fin 32) => { DmaCh.reset with skip := dmaInFlight s n },
    dmaLast := Vector.replicate 4 31,
    weave := .reset, twin := twin, audio := .reset, dresser := dresser,
    hutch := { s.hutch with benchReads := [] },
    pads := { s.pads with loop := 0, asserted := false, band := 4, bandRun := 0 } }

/-- The cores after a house-die reset: each at its START address; RUN of core 0 alone is 1 (R306, R329). -/
def houseCoresReset (s : State) : State :=
  { s with cores := Vector.ofFn fun (n : Fin 4) => Core.reset (BitVec.ofNat 24 (getF s (HS_CORESTART_START n.val))) }

/-- Edges for the house die's bit sources whose event bits outlive the reset (R357). -/
def houseEdges (s : State) : State :=
  let ns := (List.range 256).filter fun n => !isScanSource n && sourceLevel s n
  { s with hic := { s.hic with edges := ns } }

/-- HOUSE_DIE_RESET (R31): the scan die goes on with the last applied state, and sees the loop state become idle (R199, R556). -/
def houseReset (s : State) : State :=
  let old := s
  let s := bridgeLosesHouse s
  let s := houseRegsReset s
  let s := houseBlocksReset s
  let s := if old.pads.loop = 0 then s else loopChanges s 0
  let s := houseCoresReset (houseMemoryReset (houseRecorderReset s))
  let s := padsHouseReset old s
  houseEdges (repairDie (islandLog { s with power := { s.power with booting := true } }) false)

/-! ### The recorder at power-up -/

/-- The control slot that counts: the valid one with the higher sequence count (R573). -/
def lastSlot (s : State) : Option ControlSlot :=
  match s.recorder.slots.toList with
  | [some a, some b] => some (if a.seq < b.seq then b else a)
  | [some a, none] => some a
  | [none, b] => b
  | _ => none

/-- The slot at an MRAM address holds a record: its VALID can be read and is set (R575). -/
def slotValid (s : State) (a : Nat) : Bool := blockState s (a / 32) != .bad && leNat (mramBytes s (a + 30) 2) = 0x5AA5

/-- TOTAL after the scan of the 4,096 slots from general record `n` on: past the last valid slot whose LAP is that of its number;
a slot that holds none is passed, as one whose store failed (R574, R575). -/
def scanRecords (s : State) (n : Nat) : Nat :=
  (List.range 4096).foldl (fun total i =>
    let a := recordPlace false (n + i)
    if slotValid s a && leNat (mramBytes s (a + 3) 1) = (n + i) / 15360 % 256 then n + i + 1 else total) n

/-- PINCNT past the last pinned slot at or after `n` that holds a record; no pinned slot is ever overwritten (R577). -/
def scanPinned (s : State) (n : Nat) : Nat :=
  (List.range (512 - n)).foldl (fun count i => if slotValid s (recordPlace true (n + i)) then n + i + 1 else count) n

/-- The recorder resumes its counts from the control slots after power was lost (R572 to R574). -/
def recorderResume (s : State) : State :=
  let c := (lastSlot s).getD { seq := 0, total := 0, floor := 0, opsec := 0, pcyc := 0, pincnt := 0 }
  let s := { s with recorder := { s.recorder with
    total := scanRecords s c.total % 2 ^ 48, floor := c.floor, opsec := c.opsec, opTicks := 0, pcyc := c.pcyc, slotSeq := c.seq } }
  notePinned s (scanPinned s c.pincnt)

end Sys2Proof.Machine
end

