-- ==== Sys2Proof/Machine/Power.lean ====
section
/-! DEFINITION. The power states and their transitions, the state image, wake, the island timer, the supply and the thermal
thresholds (R534 to R543, R561 to R568). -/

namespace Sys2Proof.Machine

/-- The present power state as a code of HS_PWRCTL.REQ. -/
def powerState (s : State) : Nat := if s.power.offAwait then pwOffAwait else getF s HS_PWRSTAT_STATE

/-! ### Requests -/

/-- POWER_REQUEST: the answer and the state after it; a request refused or ignored sets REFEV (R535, R543). -/
def powerRequest (s : State) (r : Nat) : State × Nat :=
  let eg := flag s SC_EGSTAT_ACTIVE
  let refused := raiseEvent s 209 HS_PWRSTAT_REFEV
  if s.power.target.isSome then (refused, stBusy)
  else if r = powerState s then (s, stOk)
  else if r = pwHibernate && (getF s HS_PWRIMG_BASE = 0 || eg) then (refused, stRefusedNow)
  else if r = pwOffAwait && eg then (refused, stRefusedNow)
  else (startTransition s r, stOk)

/-- A write of HS_PWRCTL (R535, R543). -/
def powerWrite (s : State) (w : Word) : State := (powerRequest s (bitsOf w 1 0)).1

/-! ### The state image (R537) -/

/-- The bits of a register that the image holds: those of fields that are no status. -/
def imageBits (key : Nat) : Word :=
  match regSpecAt (key % 0x1000000) with
  | none => 0
  | some (r, _) => r.fields.foldl (fun w f => match f.access with
    | .rw | .rwl | .w1s => w ||| fieldMask f.hi f.lo
    | .ro | .w1c | .wo => w) 0

/-- A register as the image holds it. -/
def imageEntry (e : Nat × Word) : Option (Nat × Word) :=
  if isScanAddr e.1 then
    let m := imageBits e.1
    let w := (e.2 &&& m) ||| (regDefault e.1 &&& ~~~ m)
    if w = regDefault e.1 then none else some (e.1, w)
  else none

/-- The scan-die state image. -/
def imageOf (s : State) : ScanImage :=
  { regs := s.regs.filterMap imageEntry, applied := s.applied, immShadow := s.trestle.immShadow,
    immApplied := s.trestle.immApplied, shadow := s.scene.shadow, objects := s.scene.applied, binding := s.scene.binding,
    headers := s.comp.headers }

/-- Saves the image: the module keeps it, and the 64 KiB from HS_PWRIMG.BASE hold bytes whose layout the spec does not give. A
base beyond the addressable range holds no image. -/
def saveImage (s : State) : State :=
  let a := getF s HS_PWRIMG_BASE * 65536
  if dramTop < a then { s with power := { s.power with image := none } }
  else
    let f := takeFresh s
    let s := writeExtent f.2 0 a ((List.range 65536).map fun i => Config.imageByte f.1 i)
    { s with power := { s.power with image := some (imageOf s) } }

/-- The counts of the applied lists that the status registers show. -/
def noteResident (s : State) : State :=
  let s := if hasRcop s.variant then setF s SC_TRIMMCTL_ACOUNT s.trestle.immApplied.length else s
  setF s SC_OBJSTAT_ARES s.scene.applied.length

/-- Restores the image: registers, applied sets, lists and objects; RUN bits are checked anew, CLAIM acts, the beam enters
ACQUIRE. It is no commit and counts no write (R537). -/
def restoreImage (s : State) : State :=
  match s.power.image with
  | none => s
  | some g =>
    let keep := s.regs.filter fun e => !isScanAddr e.1
    let high := ownB s
    let old := s
    let s := { s with regs := g.regs.foldl (fun m e => sput m (regDefault e.1) e.1 e.2) keep, applied := g.applied, power := { s.power with image := none } }
    let s := showLoop (setF s SC_OWNSTAT_PARTNER (b2n high))
    let s := { s with
      trestle := { s.trestle with immShadow := g.immShadow, immApplied := g.immApplied },
      scene := { s.scene with shadow := g.shadow, applied := g.objects, binding := g.binding },
      comp := { s.comp with headers := g.headers } }
    let s := noteResident (noteImm (noteShadow s))
    let run := getF s SC_PGCTL_RUN
    let s := if flag s SC_BEAMCTL_EN then enterAcquire s else s
    let s := runWrite (setF s SC_PGCTL_RUN 0) run
    refreshEgress (claimWritten (holdPorts old s))

/-! ### Powering down and up -/

/-- The scan die loses power: unreported commits end, the harness is released at once, the bridge is held DOWN without a
fault (R51, R539, R601). -/
def scanPowerOff (s : State) : State :=
  let s := scanLost s true
  { s with power := { s.power with scanOff := true } }

/-- The scan die is powered up: its macros are repaired, and the bridge trains (R31, R395, R535). -/
def scanPowerOn (s : State) : State :=
  let s := repairDie s true
  { s with power := { s.power with scanOff := false },
           bridge := { s.bridge with poweredDown := false, trainAfterReset := true } }

/-- Records that wait are written out before power goes (R535, R562). -/
def flushRecords (s : State) : Nat → State
  | 0 => s
  | fuel + 1 => if s.recorder.queue.isEmpty then s else flushRecords (writeRecord s true) fuel

/-- Notes whether source 5 is to end the state that is entered (R538). -/
def noteInen (s : State) : State :=
  if s.power.scanOff then s else { s with power := { s.power with inenAtEntry := flag s SC_EGCTL_INEN } }

/-- What both dies lose with their power: house SRAM and DRAM (R534). -/
def memoriesLost (s : State) : State :=
  { s with mem := { s.mem with sram := [], locals := Vector.replicate 4 [] },
           dram := { s.dram with bytes := [], units := [] } }

/-- Entry to HIBERNATE: image, pads, scan die off (R535, R537, R539, R554). The cores stand halted through the power state. -/
def enterHibernate (s : State) : State :=
  scanPowerOff (latchPads (saveImage (noteInen s)))

/-- Entry to OFF-AWAIT: debug closes, a record, a control slot, everything but the island off (R531, R535, R573). -/
def enterOffAwait (s : State) : State :=
  let s := record (debugClose (noteInen s)) .info 0x7003 1 0 0 0
  let s := controlSlot (flushRecords s 200)
  let s := scanPowerOff (latchPads s)
  let s := memoriesLost s
  { s with power := { s.power with offAwait := true, image := none }, hic := { s.hic with clocksStopped := true } }

/-- Exit from HIBERNATE into state `r`: the image is restored and WAKEEV set (R535, R543). -/
def leaveHibernate (s : State) (r : Nat) : State :=
  raiseEvent (setF (restoreImage (scanPowerOn s)) HS_PWRSTAT_STATE r) 209 HS_PWRSTAT_WAKEEV

/-- POWER_TRANSITION_DONE (R535). A wake edge that came during an entry acts now; of OFF-AWAIT it stays noted (R541). -/
def transitionDone (s : State) : State :=
  match s.power.target with
  | none => s
  | some r =>
    let was := getF s HS_PWRSTAT_STATE
    let pend := s.power.wakePending
    let s := setF { s with power := { s.power with target := none } } HS_PWRSTAT_BUSY 0
    if r = pwOffAwait then enterOffAwait s
    else
      let s := { s with power := { s.power with wakePending := none } }
      if r = pwHibernate then
        let s := setF (enterHibernate s) HS_PWRSTAT_STATE r
        match pend with
        | some w => wakeFromHibernate s w
        | none => s
      else if was = pwHibernate then leaveHibernate s r
      else setF s HS_PWRSTAT_STATE r

/-! ### The island timer -/

/-- A write of HS_ISLTMR has stored SECONDS: the count starts from the write. -/
def islandTimerWritten (s : State) : State := { s with power := { s.power with timerTicks := 0 } }

/-- One TCXO period of the island timer; it stays at 1 until ISLAND_TIMER_EXPIRY (log entry 13). -/
def islandTick (s : State) : State :=
  if getF s HS_ISLTMR_SECONDS = 0 then s
  else if s.power.timerTicks + 1 < 40000000 then { s with power := { s.power with timerTicks := s.power.timerTicks + 1 } }
  else setF { s with power := { s.power with timerTicks := 0 } } HS_ISLTMR_SECONDS (max 1 (getF s HS_ISLTMR_SECONDS - 1))

/-- ISLAND_TIMER_EXPIRY: the timer reaches 0 and gives wake source 2 (R538). -/
def islandExpiry (s : State) : State :=
  if getF s HS_ISLTMR_SECONDS = 0 then s else wakeEdge (setF s HS_ISLTMR_SECONDS 0) 2 true

/-! ### The supply (R562, R563) -/

/-- INPUT_LOSS_WARNING: VIN, in 10 mV, has been below the threshold for 20 µs. -/
def inputLoss (s : State) (vin : BitVec 16) : State :=
  let s := setF s HS_SUPPLY_VIN vin.toNat
  if flag s HS_SUPPLY_WARN then s
  else
    let s := setF (setF { s with power := { s.power with vinLow := true } } HS_SUPPLY_WARN 1) HS_SUPPLY_WARNEV 1
    let s := if s.power.scanOff then s else powerGoodLoss s
    record s .fault 0x7004 0 vin.toNat 0 0

/-- The level of PGWARN_N: low while the input-loss warning stands (R557, R562). -/
def pgWarnN (s : State) : Bool := !s.power.vinLow

/-- INPUT_RECOVERY. -/
def inputRecovery (s : State) (vin : BitVec 16) : State :=
  let s := setF s HS_SUPPLY_VIN vin.toNat
  if s.power.vinLow then
    setF (setF { s with power := { s.power with vinLow := false } } HS_SUPPLY_WARN 0) HS_SUPPLY_RECOVEV 1
  else s

/-- INPUT_SHUTDOWN: ports tri-stated, a record, the control slot, both dies off, the house clocks stopped (R364, R562, R573). -/
def inputShutdown (s : State) : State :=
  if !s.power.vinLow then s
  else
    let s := record s .fault 0x7004 1 (getF s HS_SUPPLY_VIN) 0 0
    let s := controlSlot (flushRecords s 200)
    let s := memoriesLost (scanPowerOff s)
    { s with power := { s.power with supply := .off, target := none, wakePending := none, image := none, vinLow := false },
             hic := { s.hic with clocksStopped := true } }

/-- ISLAND_POWER_LOSS: key RAM, GUARD and the pad set-up are lost; the seal mark and the island alarm log stay in MRAM, and the
security state is what an island reset gives (R521, R522, R527, R541, R542, R552). -/
def islandLoss (s : State) : State :=
  let s := memoriesLost (scanPowerOff s)
  let s := padsIslandReset (eraseContent s)
  let s := { s with hutch := { s.hutch with kek := none, sealKey := none, nonce := none, leased := false,
                                            failedAt := none } }
  let s := resetReg (resetReg (resetReg (resetReg s SEC_STAT) HIC_WAKEEN) HIC_WAKELAT) HS_ISLTMR
  let s := if s.hutch.sealMark then setF s SEC_STAT_STATE secSeal else s
  { s with power := { Power.reset with supply := .off, island := false, scanOff := true },
           hic := { s.hic with clocksStopped := true } }

/-- VIN_RISE: the island starts, the straps are sampled, the converter delay runs (R557, R563). -/
def vinRise (s : State) (slot : BitVec 6) : State :=
  if s.power.supply != .off then s
  else setF { s with power := { s.power with supply := .delay, island := true } } HS_SUPPLY_SLOT slot.toNat

/-- CONVERTER_START. -/
def converterStart (s : State) : State :=
  if s.power.supply = .delay then { s with power := { s.power with supply := .softStart } } else s

/-! ### Temperatures (R565) -/

/-- THERMAL_THRESHOLD: the temperatures of the two dies, in °C. -/
def thermal (s : State) (tscan thouse : BitVec 8) : State :=
  let old := max (signedOf 8 (getF s HS_THERM_TSCAN)) (signedOf 8 (getF s HS_THERM_THOUSE))
  let t := max tscan.toInt thouse.toInt
  let s := setF (setF s HS_THERM_TSCAN tscan.toNat) HS_THERM_THOUSE thouse.toNat
  let hot := (125 : Int) ≤ t && (old < 125 || !flag s HS_THERM_TDARK)
  let s := if hot then setF (setF s HS_THERM_TDARK 1) HS_THERM_TDARKEV 1 else s
  let s := if t < 105 then setF s HS_THERM_TDARK 0 else s
  if 115 ≤ t && old < 115 then
    let s := setF s HS_THERM_TWARNEV 1
    record s .warn 0x7005 (regWord s HS_THERM).toNat 0 0 0
  else s

end Sys2Proof.Machine
end

