-- ==== Sys2Proof/Machine/RegIO.lean ====
section
/-! DEFINITION. Reading and writing a register at its destination: the fields by access code, and what each register does
beyond its fields (R6, R12 to R16 and the register tables of the chapters). What HS_ODCTL.GO asks of the dresser is added
where the dresser is. -/

namespace Sys2Proof.Machine

/-! ### Writes -/

/-- Counts a write in HS_RSVWR where it is bad. -/
def countIf (s : State) (bad : Bool) : State := if bad then countReserved s else s

/-- A write sets a bit that no field of the register names. -/
def strayBits (r : RegSpec) (w : Word) : Bool := (w &&& ~~~ namedBits r.fields) != 0

/-- The pad block (R553). -/
def isPadBlock (a : Nat) : Bool := 0x109000 ≤ a && a < 0x10A000

/-- The word that a write by access code would leave in a register. -/
def wordAfter (s : State) (r : RegSpec) (key : Nat) (w : Word) : Word :=
  (writeWord s.variant r.fields (regWord s key) w).1

/-- The pads whose driver may change with a pad-block register (R551). -/
def padsConcerned (a : Nat) (before after : State) : List Nat :=
  if a < 0x109200 then [a - 0x109000]
  else if 0x109210 ≤ a && a < 0x109220 then (List.range 32).map (32 * (a - 0x109210) + ·)
  else if a = PAD_EGSEL then [getF before PAD_EGSEL_PAD, getF after PAD_EGSEL_PAD]
  else []

/-- A write of a pad's set-up is ignored, and counted, where it would change what a locked pad keeps (R553). -/
def padSetupWrite (s : State) (r : RegSpec) (idx : List Nat) (a : Nat) (w : Word) : State :=
  let now' := wordAfter s r a w
  let change := now' ^^^ regWord s a
  let kept := if 0x109210 ≤ a && a < 0x109220 then change &&& lockMask s (a - 0x109210) != 0
    else padRegLocked s a && change != 0
  if kept then countIf (countLockDrop s) (strayBits r w)
  else
    let s' := writeFields s r idx a w
    holdChanged s s' (padsConcerned a s s')

/-- A write of SEC_ALMCFG: LEVEL pair by pair unless LOCK is set, and LOCK (R542). -/
def almcfgWrite (s : State) (r : RegSpec) (w : Word) : State :=
  let v := writtenLevels (getF s SEC_ALMCFG_LEVEL) (bitsOf w 11 0)
  let locked := flag s SEC_ALMCFG_LOCK
  let s := if locked then s else setF s SEC_ALMCFG_LEVEL v.1
  let s := if bitsOf w 31 31 = 1 then setF s SEC_ALMCFG_LOCK 1 else s
  countIf s (strayBits r w || (!locked && v.2))

/-- A write to a descriptor word of an absent unit is ignored; a counted one with EN = 1 marks the stream (R146). -/
def absentWrite (s : State) (src : Src) (r : RegSpec) (st u : Nat) (w : Word) : State :=
  if r.addr = 0x220000 && bitsOf w 0 0 = 1 && isCommitSource src then
    let marks := s.comp.absentMark.toList.getD st []
    { s with comp := { s.comp with absentMark := s.comp.absentMark.setIfInBounds st (u :: marks) } }
  else s

/-- A write of SC_CMGO by a core or the dresser sends its staged commit (R178). -/
def cmgo (s : State) (src : Src) (wcount : Nat) : State :=
  let w0 := regWord s (sourceKey (srcId src) SC_CMCMD0)
  let w1 := regWord s (sourceKey (srcId src) SC_CMCMD1)
  issueCommit s src w0 (w1.setWidth 16) ((w1 >>> 16).setWidth 2) wcount none

/-- Sources that stage a commit in the bridge (R178). -/
def stagesCommit : Src → Bool
  | .core _ | .dresser => true
  | _ => false

/-- A write that a lock or a running operation keeps from a register: its reserved bits are counted all the same (R13). -/
def keptOut (s : State) (r : RegSpec) (w : Word) : State := countIf s (strayBits r w)

/-- A write of a register that the bridge keeps for each source: SC_CMCMD0, SC_CMCMD1 and SC_CMGO act as it is issued; while
the bridge is DOWN a staging write is discarded (R51, R178). -/
def stagedWrite (s : State) (src : Src) (r : RegSpec) (a : Nat) (w : Word) : State :=
  if !stagesCommit src then countIf s (strayBits r w)
  else if r.hook = .cmGo then cmgo (countIf s (strayBits r w)) src (bitsOf w 23 0)
  else if bridgeDown s then countF s HS_BRERR_DROPPED 1
  else writeFields s r [] (sourceKey (srcId src) a) w

/-- The writes that do not go field by field: ignored ones, and registers whose operation stores the fields itself. `none`
where the write goes field by field. -/
def specialWrite (s : State) (src : Src) (r : RegSpec) (idx : List Nat) (a : Nat) (w : Word) : Option State :=
  let i := idx.headD 0
  let plain (f : State → State) : Option State := some (f (countIf s (strayBits r w)))
  match r.hook with
  | .coreCopy => match src with
    | .core n => some (writeFields s r idx (coreKey n.val a) w)
    | _ => some (keptOut s r w)
  | .cmCmd | .cmGo => some (stagedWrite s src r a w)
  | .wvPos => plain (positionWrite · w)
  | .wvRtdata => plain (routeWrite · w)
  | .wvDrcmd => some (if bitsOf w 1 0 = 3 then countReserved s else drawerCommand (countIf s (strayBits r w)) w)
  | .wvDrptr => plain (drawerPointer · w)
  | .secAlmcfg => some (almcfgWrite s r w)
  | .padSetup | .padGpoe => some (padSetupWrite s r idx a w)
  | .padBank =>
    if padRegLocked s a && wordAfter s r a w != regWord s a then some (keptOut (countLockDrop s) r w) else none
  | .padLock => plain (padLockWrite · src i w)
  | .pwrCtl => plain (powerWrite · w)
  | .memInit => if w.getLsbD 24 && meminitIgnored s w then some (countReserved s) else none
  | .ldw =>
    if unitPresent s (idx.getD 1 0) then none
    else some (absentWrite s src r i (idx.getD 1 0) w)
  | .feedFlip => if i = 0 then some (countIf s (w != 0)) else none
  | .egCtl => if flag s SC_EGCTL_LOCK || flag s SC_EGSTAT_ACTIVE then some (keptOut s r w) else none
  | .cpyCtl => plain (copyCtlWrite · w)
  | .cpyOperand => if copyBusy s then some (keptOut (countBusyWrite s) r w) else none
  | .pgCtl => plain (pgctlWrite · w)
  | .pgLocked => if pgLocked s then some (keptOut (countCfgDrop s) r w) else none
  | .dpCfg | .lane => if portLocked s i then some (keptOut (countCfgDrop s) r w) else none
  | _ => none

/-- Set a register to 0. -/
def clearReg (s : State) (a : Nat) : State := setRegWord s a 0

/-- Clears several registers. -/
def clearRegs (s : State) (as' : List Nat) : State := as'.foldl clearReg s

/-- What a write does beyond its fields in the blocks of the house die and the island; `s` holds the fields as written, `old`
the state before. -/
def afterHouseWrite (old s : State) (src : Src) (h : Hook) (i a : Nat) (w : Word) : State :=
  let bit (n : Nat) : Bool := w.getLsbD n
  match h with
  | .brCtl =>
    let s := if bit 2 then bridgeClear s else s
    if bit 0 then bridgeRetrain s else s
  | .coreCtl => coreControl old s w
  | .hicSrccfg => releaseReached s i
  | .hicForce => hicForce s i w
  | .hicPend => pendCleared s
  | .hicCtl => if bit 0 then setF s HIC_STAT_MERGED 0 else s
  | .tmrCtl => timerWritten s i (flag old (HS_TMRCTL_EN i))
  | .dmaCtl => dmaControl s i w
  | .wvCtl => if bit 31 then weaveClear s else s
  | .wvPortcfg =>
    let s := if i = 4 || i = 5 then s else setF s (WV_PORTCFG_EGR i) 0
    portEnables (if bit 8 then portRetrainCmd s i else s)
  | .wvTwctl =>
    let s := if bit 3 then clearReg s WV_TWCNT else s
    let s := if bit 2 then takeHarness s else s
    if bit 1 then yieldHarness s else s
  | .auCtl => holdChanged old (audioControl s w) muxPads
  | .auEvcmd => eventPush s w
  | .auStrs => streamSize s i
  | .auVctl => voiceControl s i
  | .secCmd => secCommand s w
  | .recCtl =>
    let s := if bit 31 then clearReg s HS_RECCNT else s
    if bit 0 then nextRecord s else s
  | .recCurl => loadWindow s
  | .recPut => if i = 3 then putFirmware s else s
  | .padCtl =>
    let s := if bit 31 then setF s PAD_STAT_LOCKDROP 0 else s
    let s := if bit 8 then releaseLatches s else s
    lockKey s src w
  | .padMuxen => holdChanged old s muxPads
  | .padAsel => adcConvert s
  | .padBank => bankVio s i (getF old (PAD_BANK_VIO i))
  | .padUart => uartTransmit s w
  | .odCtl => if bit 31 then clearReg s HS_ODCNT else s
  | .islTmr => islandTimerWritten s
  | .memCtl => if bit 31 then setF (clearReg s HS_CECNT) HS_MEMSTAT_MRREF 0 else s
  | .memInit => if bit 24 then meminitGo s else s
  | _ => s

/-- The same in the blocks of the scan die. -/
def afterScanWrite (old s : State) (src : Src) (h : Hook) (i : Nat) (w : Word) : State :=
  let bit (n : Nat) : Bool := w.getLsbD n
  match h with
  | .perfSel => if bit 30 then { s with perf := s.perf.setIfInBounds i 0 } else s
  | .beamCtl => beamCtlWritten s (flag old SC_BEAMCTL_EN) (anchorRole old) w
  | .beamFormat => beamFormatWritten s
  | .sbCtl =>
    if bit 4 && isCommitSource src then
      { s with comp := { s.comp with invalMark := src :: s.comp.invalMark.filter fun x => !decide (x = src) } }
    else s
  | .cmEv => if bit 31 then clearReg s SC_CMCNT else s
  | .egCtl => refreshEgress s
  | .objTable => startRescan s
  | .pcCtl =>
    let s := if bit 1 then clearRegs s (SC_SCENECNT :: (List.range 8).map SC_PCSTAT) else s
    if bit 0 then invalidateAll s else s
  | .trCtl => if bit 1 then setF (setF (setF s SC_TRSTAT_BADOP 0) SC_TRSTAT_ORDERERR 0) SC_TRSTAT_TGTERR 0 else s
  | .calCtl => if bit 1 then setF s SC_CALSTAT_LATE 0 else s
  | .ownCtl => claimWritten s
  | .dpCfg => holdChanged old s [i]
  | .feedCtl => if bit 7 then setF s SC_FEEDSTAT_LATEPASS 0 else s
  | .eccCtl => if bit 31 then clearRegs s [SC_ECCCNT, SC_ECCCONC] else s
  | _ => s

/-- CNTCLR and CLEAR act before what the same write counts (R15, R55, R490 and others): clears that a counted write could
meet. -/
def beforeWrite (s : State) (r : RegSpec) (w : Word) : State :=
  match r.hook with
  | .hsRsvwr => if w.getLsbD 31 then setF (setF s HS_RSVWR_COUNT 0) HS_RSVWR_SAT 0 else s
  | _ => s

/-- Any write to the pad block other than those of the sequence breaks it, also one to an address that no register has or to an
absent register (R553). -/
def breakLockSequence (s : State) (src : Src) (a : Nat) : State := if isPadBlock a then setLockStep s src 0 else s

/-- A write counts at most once in HS_RSVWR (R14): `a` is the state before it, `b` after. -/
def countOnce (a b : State) : State :=
  let n := getF a HS_RSVWR_COUNT
  if n + 1 < getF b HS_RSVWR_COUNT then
    setF (setF b HS_RSVWR_COUNT (n + 1)) HS_RSVWR_SAT (if n + 1 = 0xFFFFFF then 1 else getF a HS_RSVWR_SAT)
  else b

/-- A write to a present register of the tables. -/
def writeRegister (s : State) (src : Src) (r : RegSpec) (idx : List Nat) (a : Nat) (w : Word) : State :=
  let s := beforeWrite s r w
  let s := if r.hook = .padCtl || r.hook = .padLock then s else breakLockSequence s src a
  countOnce s <| match specialWrite s src r idx a w with
  | some s' => s'
  | none =>
    let s' := writeFields s r idx a w
    if isScanAddr a then afterScanWrite s s' src r.hook (idx.headD 0) w
    else afterHouseWrite s s' src r.hook (idx.headD 0) a w

/-- A register write at its destination, but for HS_ODCTL.GO and HS_ODFWANS. An absent register ignores it (R6); an address
of the register blocks that no register has is reserved (R13); a write to SC_LDA and other read-only registers changes
nothing. -/
def regWriteBase (s : State) (src : Src) (a : Nat) (w : Word) : State :=
  match regSpecAt a with
  | none => countIf (breakLockSequence s src a) (w != 0)
  | some (r, idx) =>
    if registerPresent s.variant r idx then writeRegister s src r idx a w else breakLockSequence s src a

/-- A scene write is credited to its source as it applies (R176, R177). -/
def creditScene (s : State) (src : Src) (a : Nat) : State := if isSceneAddr a then creditWrite s src else s

/-! ### Reads -/

/-- SC_LEADSTAT as it reads (R99). -/
def leadStatWord (s : State) : Word :=
  BitVec.ofNat 32 (b2n (leadOver s) * 2 ^ 31 + b2n (decide (appF s SC_PRESENT_LEAD < leadMin s)) * 2 ^ 30 +
    appF s SC_PRESENT_MODE * 2 ^ 29 + appF s SC_PRESENT_FLIPADV * 2 ^ 16 + min 0xFFFF (leadMin s))

/-- SC_BEAMSTAT as it reads: LINEX and VBL follow the line index (R97). -/
def beamStatWord (s : State) : Word :=
  putBits (putBits (regWord s SC_BEAMSTAT) 23 23 (s.beam.line / 65536)) 22 22 (b2n (activeLines s ≤ s.beam.line))

/-- SC_SBSTAT as it reads: LIVE and SHORT follow what composition does (R194). -/
def sbStatWord (s : State) : Word :=
  putBits (putBits (regWord s SC_SBSTAT) 14 14 (b2n (sideboardLive s))) 13 13 (b2n (anyShort s))

/-- SC_FENCEMAPn as it reads (R198). -/
def fenceMapWord (s : State) (n : Nat) : Word :=
  (List.range 32).foldl (fun w b => if fenceInUse s (32 * n + b) then w ||| (1#32 <<< b) else w) 0

/-- SC_FEEDCYCs as it reads (R280). -/
def feedCycWord (s : State) (f : Nat) : Word :=
  match windowCycles s .applied f with
  | [] => 0
  | j :: js => BitVec.ofNat 32 ((js.length + 1) * 2 ^ 16 + j % 64 * 2 ^ 8 + (js.getLast?.getD j) % 64)

/-- SC_FEEDSTAT as it reads: the applied NFEED and WINEN (R279). -/
def feedStatWord (s : State) : Word :=
  putBits (putBits (regWord s SC_FEEDSTAT) 7 6 (appF s SC_FEEDCTL_NFEED)) 5 5 (appF s SC_FEEDCTL_WINEN)

/-- HS_PWRSTAT as it reads: EGRUN and FREEDARK follow R536. -/
def pwrStatWord (s : State) : Word :=
  putBits (putBits (regWord s HS_PWRSTAT) 9 9 (b2n (egressRun s))) 8 8 (b2n (freeDark s))

/-- A read of SC_FENCEQ removes the entry it returns (R198). -/
def fenceRead (s : State) : State × Word :=
  match s.comp.fenceQueue with
  | [] => (s, 0)
  | e :: es =>
    (setF { s with comp := { s.comp with fenceQueue := es } } SC_FENCESTAT_DEPTH es.length,
      BitVec.ofNat 32 (2 ^ 31 + e.fence * 2 ^ 16 + e.frame.toNat))

/-- A read of SC_BEAMPOS_LO latches the frame count (R96). -/
def beamPosRead (s : State) : State × Word :=
  (setRegWord s SC_BEAMPOS_HI (((beamPos s) >>> 32).setWidth 32), (beamPos s).setWidth 32)

/-- A read of SC_PERFnLO latches the upper bits of the counter (R587). -/
def perfRead (s : State) (n : Nat) : State × Word :=
  let c := s.perf.toList.getD n 0
  (setF s (SC_PERFHI_COUNT n) (c.toNat / 2 ^ 32), c.setWidth 32)

/-- A read of HS_RECTOTL latches the upper bits of TOTAL (R588). -/
def recTotalRead (s : State) : State × Word :=
  (setF s HS_RECTOTH_TOTAL (s.recorder.total / 2 ^ 32), BitVec.ofNat 32 s.recorder.total)

/-- A read of a present register whose value does not simply stand in the register file. -/
def hookRead (s : State) (h : Hook) (idx : List Nat) (a : Nat) : State × Word :=
  let i := idx.headD 0
  match h with
  | .hsId => (s, capability s.variant)
  | .coreStat => (s, coreStatWord s)
  | .hicHeld => (s, hicHeldWord s i)
  | .hicCore => (s, hicCoreWord s i)
  | .dmaStat => (s, dmaStatWord s i (!dmaReleased s i))
  | .dmaRem => (s, BitVec.ofNat 32 ((dmaCh s i).count - (dmaCh s i).applied))
  | .wvRtdata => (s, routeWord s)
  | .wvDrptr => (s, drptrWord s)
  | .wvDrstat => (s, drstatWord s)
  | .wvDrcnt => (s, drcntWord s)
  | .wvTwstat => (s, twstatWord s)
  | .recTotl => recTotalRead s
  | .padGpin => gpinWord s i
  | .padUart => uartRead s
  | .pwrStat => (s, pwrStatWord s)
  | .perfLo => perfRead s i
  | .beamPosLo => beamPosRead s
  | .beamStat => (s, beamStatWord s)
  | .leadStat => (s, leadStatWord s)
  | .lda => (s, appliedWord s (SC_LDW0 i (idx.getD 1 0) + idx.getD 2 0))
  | .sbStat => (s, sbStatWord s)
  | .fenceQ => fenceRead s
  | .fenceMap => (s, fenceMapWord s i)
  | .palApplied => (s, appliedWord s (SC_PALBANK i))
  | .pgSlot => (s, BitVec.ofNat 32 (planeSlotReported s))
  | .feedStat => (s, feedStatWord s)
  | .feedCyc => (s, feedCycWord s i)
  | .cpyStat => (s, copyStatWord s)
  | _ => (s, regWord s a)

/-- A register read at its destination. An absent register and a reserved address read 0 (R6, R13); a register kept for each
core or source reads as the reader's own copy, and 0 for others; a RWL field reads its shadow (R12). -/
def regRead (s : State) (src : Src) (a : Nat) : State × Word :=
  match regSpecAt a with
  | none => (s, 0)
  | some (r, idx) =>
    if !registerPresent s.variant r idx then (s, 0)
    else match r.copies with
      | .one => hookRead s r.hook idx a
      | .core => match src with
        | .core n => (s, regWord s (coreKey n.val a))
        | _ => (s, 0)
      | .source => (s, if stagesCommit src then regWord s (sourceKey (srcId src) a) else 0)

end Sys2Proof.Machine
end

