-- ==== Sys2Proof/Machine/DictTable.lean ====
section
/-! DEFINITION. The table of the object dictionary: every entry with its type, length, rights, persistence, default and
content (R5, R101, R142, R200, R222, R264, R281, R299, R331, R378, R399, R439, R466, R494, R517, R544, R569, R589, R594). -/

namespace Sys2Proof.Machine

/-! ### What an entry is -/

/-- A register field as a part of an entry's value: `pos` is its lowest bit there. -/
structure Piece where
  field : Fld
  pos : Nat
deriving DecidableEq, Repr

/-- The entries whose content is no register field. -/
inductive Special where
  | variantName
  | serial
  | version
  | layout
  | serviceAddress
  | voidStore
  | stagedCommit
  | commitEpoch
  | storeCheck (sub : Nat)
  | sealing (sub : Nat)
  | bootImage
  | bootStatus
  | houseReset
  | leadEffective
  | frameCount
  | beamPosition
  | holdTime
  | acceptedCount
  | refusedCount
  | egressCommand
  | library
  | portMap
  | refetchSum
  | lockups
  | repairTable
  | twinCommand
  | guardClear
  | sealClear
  | nonce
  | token
  | debugClose
  | fuse (n : Nat)
  | modulePublic
  | controllerKey
  | contentKey (slot : Nat)
  | sealKey
  | powerState
  | padMap
  | recTotal
  | recPinned
  | recFirst
  | pinnedRecords
  | generalRecords
  | recClear
  | calendar
  | opsec
  | pcyc
  | perf (n : Nat)
deriving DecidableEq, Repr

/-- What an entry's value is. -/
inductive Body where
  | fields (ps : List Piece)
  | special (k : Special)
deriving DecidableEq, Repr

/-- An entry (R495 to R500): type code, length or maximum length, read and write masks with bit c for class code c and bit 5
where CTRL needs EGR, and its default as a little-endian number. -/
structure Entry where
  typ : Nat
  len : Nat
  read : Nat
  write : Nat
  persistent : Bool
  result : Bool
  halted : Bool
  dflt : Nat
  body : Body
deriving DecidableEq, Repr

/-- One row of the table: an index, a range of subindices, and the entry at each, counted from the first. -/
structure Row where
  index : Nat
  first : Nat
  count : Nat
  entry : Nat → Entry

/-! ### Rights and types -/

/-- Class codes of R498. -/
def classCode : PortClass → Nat
  | .house => 0
  | .peer => 1
  | .ctrl => 2
  | .bench => 3
  | .service => 4

abbrev byAll : Nat := 31
abbrev byNone : Nat := 0
abbrev byCtrl : Nat := 4
abbrev byBench : Nat := 8
abbrev byCtrlBench : Nat := 12
abbrev byCtrlBenchService : Nat := 28
abbrev byCtrlBenchHouse : Nat := 13
abbrev byCtrlHouse : Nat := 5
/-- CTRL (egress), BENCH. -/
abbrev byEgressBench : Nat := 44

abbrev tyU8 : Nat := 1
abbrev tyU16 : Nat := 2
abbrev tyU32 : Nat := 3
abbrev tyU64 : Nat := 4
abbrev tyI16 : Nat := 6
abbrev tyI32 : Nat := 7
abbrev tyBeam : Nat := 0x0A
abbrev tyStr : Nat := 0x0B
abbrev tyBlob : Nat := 0x0C
abbrev tyDomain : Nat := 0x0D

/-- Length of a type that has one (R495). -/
def typeLen (t : Nat) : Nat :=
  if t = tyU8 then 1 else if t = tyU16 || t = tyI16 then 2 else if t = tyU32 || t = tyI32 then 4
  else if t = tyU64 || t = tyBeam then 8 else 0

/-- An entry of a type with a fixed length. -/
def scalar (typ write : Nat) (b : Body) : Entry :=
  { typ := typ, len := typeLen typ, read := byAll, write := write, persistent := false, result := false, halted := false,
    dflt := 0, body := b }

/-- An entry of type STR, BLOB or DOMAIN. -/
def sized (typ len write : Nat) (b : Body) : Entry := { scalar typ write b with len := len }

/-- A persistent entry with its default. -/
def Entry.kept (e : Entry) (dflt : Nat) : Entry := { e with persistent := true, dflt := dflt }

/-- An entry that R500 marks as served while the cores are halted. -/
def Entry.served (e : Entry) : Entry := { e with halted := true }

/-- One field, at the bottom of the value. -/
def one (f : Fld) : Body := .fields [⟨f, 0⟩]

/-- A whole register. -/
def wordOf (a : Nat) : Body := one ⟨a, 31, 0⟩

/-- Registers one after the other, each giving its low `8 n` bits. -/
def registers (n : Nat) (addrs : List Nat) : Body :=
  .fields (addrs.zipIdx.map fun x => ⟨⟨x.1, 8 * n - 1, 0⟩, 8 * n * x.2⟩)

/-- A row of one entry. -/
def single (index sub : Nat) (e : Entry) : Row := { index := index, first := sub, count := 1, entry := fun _ => e }

/-- A result entry (R506): its four subindices. -/
def resultRow (index : Nat) (valueTyp len : Nat) (k : Nat → Special) : Row :=
  { index := index, first := 0, count := 4,
    entry := fun n =>
      let e := match n with
        | 0 => { scalar tyU8 byCtrlBenchService (.special (k 0)) with read := byNone }
        | 3 => scalar tyU8 byNone (.special (k 3))
        | _ => sized valueTyp len byNone (.special (k n))
      { e with result := true } }

/-! ### The rows -/

/-- Identity, the dresser and boot (R5, R331, R517, R594). -/
def rowsModule : List Row := [
  single 0x1000 0 (sized tyStr 16 byNone (.special .variantName)).served,
  single 0x1000 1 (scalar tyU64 byNone (.special .serial)).served,
  single 0x1000 2 (scalar tyU32 byNone (.special .version)).served,
  single 0x1001 0 (scalar tyU32 byNone (wordOf 0x100000)).served,
  single 0x1002 0 (scalar tyU16 byNone (.special .layout)).served,
  single 0x1010 0 (scalar tyU8 byNone (.fields [⟨HS_CORESTAT_LOCKED, 0⟩, ⟨HS_CORESTAT_HALTED, 4⟩])).served,
  single 0x1010 1 (scalar tyU16 byNone (.special .lockups)).served,
  single 0x1020 0 ((scalar tyU16 byCtrlBenchService (.special .serviceAddress)).kept 0xFFFF).served,
  single 0x1020 1 ((scalar tyU8 byCtrlBench (one ⟨HS_SVCCTL, 5, 0⟩)).kept 0x22).served,
  single 0x1020 2 (scalar tyU32 byNone (wordOf HS_SVCSTAT)).served,
  single 0x1030 0 (scalar tyU8 byBench (.special .voidStore)).served,
  single 0x1040 0 (sized tyDomain 2097152 byCtrlBench (.special .bootImage)).served,
  single 0x1040 1 (scalar tyU8 byNone (.special .bootStatus)).served,
  single 0x1040 2 (scalar tyU8 byCtrlBench (.special .houseReset)).served]

/-- The beam (R101). -/
def rowsBeam : List Row := [
  single 0x2010 0 ((scalar tyU32 byCtrlBench (wordOf SC_BEAMFMT)).kept 0),
  single 0x2010 1 ((scalar tyU32 byCtrlBench (wordOf SC_BEAMPER)).kept 0),
  single 0x2011 0 ((scalar tyU8 byCtrlBench (one SC_BEAMCTL_ROLE)).kept 0),
  single 0x2012 0 ((scalar tyU8 byCtrlBench
    (.fields [⟨SC_BEAMCTL_REFLC, 0⟩, ⟨SC_BEAMCTL_REFCMOS, 1⟩, ⟨SC_BEAMCTL_REFEDGE, 2⟩])).kept 0),
  single 0x2012 1 ((scalar tyI16 byCtrlBench (one SC_REFDLY_REFDLY)).kept 0),
  single 0x2012 2 ((scalar tyU8 byCtrlBench (one SC_BEAMCTL_LDIV)).kept 1),
  single 0x2013 0 (scalar tyU32 byCtrl (one SC_LEADMAX_LEADMAX)),
  single 0x2013 1 (scalar tyU32 byCtrl (one SC_LEADMAX_MARGIN)),
  single 0x2014 0 (scalar tyU32 byNone (.special .leadEffective)),
  single 0x2015 0 (scalar tyU32 byCtrl (.special .frameCount)),
  single 0x2020 0 (scalar tyBeam byNone (.special .beamPosition)).served,
  single 0x2021 0 (scalar tyU8 byNone (one SC_BEAMSTAT_STATE)).served,
  single 0x2021 1 (scalar tyU32 byNone (.special .holdTime)).served,
  single 0x2021 2 (scalar tyI32 byNone (one SC_BEAMERR_PHERR)).served]

/-- Composition, the egress layer and the dresser's commit (R200, R517). -/
def rowsComposition : List Row := [
  { index := 0x3000, first := 0, count := 4, entry := fun n => (scalar tyU32 byNone (wordOf (SC_CMEPA n))).served },
  { index := 0x3001, first := 0, count := 4,
    entry := fun n => (scalar tyU32 byNone (.fields [⟨SC_CMRES_REASON n, 0⟩, ⟨SC_CMRES_TFRAME n, 16⟩])).served },
  single 0x3002 0 (scalar tyU32 byNone (.special .acceptedCount)).served,
  single 0x3002 1 (scalar tyU32 byNone (.special .refusedCount)).served,
  single 0x3003 0 (scalar tyU32 byCtrlBench (.special .stagedCommit)).served,
  single 0x3003 1 (scalar tyU32 byCtrlBench (.special .commitEpoch)).served,
  single 0x3010 0 ((scalar tyU16 byCtrlBench (one SC_PEAK_PEAKNITS)).kept 1000),
  single 0x3010 1 ((scalar tyU16 byCtrlBench (one SC_PEAK_SDRWHITE)).kept 200),
  single 0x3010 2 ((sized tyBlob 18 byCtrlBench (registers 2 ((List.range 9).map SC_CPMAT))).kept
    (leNat ((List.range 9).flatMap fun i => leBytes 2 (regDefault (SC_CPMAT i)).toNat))),
  single 0x3400 0 (scalar tyU8 byNone (.fields
    [⟨SC_EGSTAT_ACTIVE, 0⟩, ⟨SC_EGSTAT_BYINPUT, 1⟩, ⟨SC_EGSTAT_BYCMD, 2⟩, ⟨SC_EGSTAT_NOLIB, 3⟩])).served,
  single 0x3401 0 (scalar tyU8 byEgressBench (.special .egressCommand)).served,
  single 0x3402 0 ((sized tyDomain 1048576 byEgressBench (.special .library)).kept 0),
  single 0x3403 0 ((scalar tyU8 byCtrlBench (.fields [⟨SC_EGCTL_INENTRY, 0⟩, ⟨SC_EGCTL_INEN, 7⟩])).kept 0),
  single 0x3403 1 ((scalar tyU8 byCtrlBench (one SC_EGCTL_FAULTACT)).kept 1)]

/-- Scene memory, the trestle and the copier (R142, R222, R299). -/
def rowsScene : List Row := [
  single 0x3100 0 (scalar tyU32 byCtrl (wordOf SC_OBJBASE)),
  single 0x3100 1 (scalar tyU32 byCtrl (one SC_OBJCTL_COUNT)),
  single 0x3100 2 ((scalar tyU8 byCtrlBench (one SC_OBJCTL_MARGIN)).kept 0),
  single 0x3101 0 (scalar tyU16 byNone (one SC_OBJSTAT_ARES)).served,
  single 0x3101 1 (scalar tyU16 byNone (one SC_OBJSTAT_SRES)).served,
  single 0x3101 2 (scalar tyU16 byNone (one SC_OBJEVQ_BADENT)).served,
  single 0x3101 3 (scalar tyU8 byNone (.fields [⟨SC_OBJSTAT_SCAN, 0⟩, ⟨SC_OBJSTAT_OVERFLOW, 1⟩])).served,
  single 0x3102 0 (scalar tyU32 byNone (.special .refetchSum)),
  single 0x3102 1 (scalar tyU16 byNone (one SC_SCENECNT_BADADDR)),
  single 0x3200 0 (scalar tyU32 byNone (wordOf SC_TRSTAT)).served,
  single 0x3200 1 (scalar tyU32 byNone (wordOf SC_TRWALK)).served,
  single 0x3201 0 (scalar tyU16 byNone (one SC_TRIMMCTL_ACOUNT)).served,
  single 0x3300 0 (scalar tyU32 byNone (wordOf CPY_STAT)).served,
  single 0x3300 1 (scalar tyU32 byNone (wordOf CPY_CNT)).served]

/-- Offset tables of R264: region, entry, then R, G, B. -/
def offsetPieces : List Piece :=
  (List.range 64).flatMap fun e =>
    [⟨⟨SC_CALOFFA (e / 16) (e % 16), 31, 0⟩, 48 * e⟩, ⟨⟨SC_CALOFFB (e / 16) (e % 16), 15, 0⟩, 48 * e + 32⟩]

/-- The pixel path and the feeds (R264, R281, R466). -/
def rowsPixel : List Row := [
  single 0x3500 0 ((scalar tyU32 byCtrlBench (wordOf SC_PGCFG)).kept 0x00400F00),
  single 0x3500 1 ((scalar tyU32 byCtrlBench (wordOf SC_PGTIME)).kept 0x00500000),
  single 0x3500 2 ((scalar tyU8 byCtrlBench (.fields [⟨SC_PGCTL_CH4, 0⟩, ⟨SC_PGCTL_ROWMODE, 1⟩])).kept 0),
  single 0x3500 3 ((scalar tyU16 byCtrlBench (one SC_PGGAIN_GAIN)).kept 0xFFFF),
  single 0x3500 4 ((scalar tyU8 byCtrlBench (one SC_PGGAIN_DBITS)).kept 0),
  single 0x3501 0 ((sized tyDomain 6144 byCtrlBench (.special .portMap)).kept 0),
  single 0x3502 0 (scalar tyU8 byCtrlHouse (one SC_PGCTL_RUN)),
  single 0x3503 0 (scalar tyU32 byNone (wordOf SC_PGSTAT)).served,
  single 0x3503 1 (scalar tyU32 byNone (one SC_PGSLOT_TP)).served,
  single 0x3510 0 ((scalar tyU8 byCtrlBench (one SC_OWNCTL_TIEWIN)).kept 0),
  single 0x3510 1 (scalar tyU8 byNone (one ⟨SC_OWNSTAT, 7, 0⟩)).served,
  single 0x3510 2 ((scalar tyU8 byCtrlBench (one SC_TWREL_FATREL)).kept 0x1F),
  { index := 0x3600, first := 0, count := 1,
    entry := fun _ => (scalar tyU8 byCtrlBench (.fields [⟨SC_FEEDCTL_NFEED, 0⟩, ⟨SC_FEEDCTL_WINEN, 4⟩])).kept 0 },
  { index := 0x3601, first := 0, count := 4,
    entry := fun n => (sized tyBlob 12 byCtrlBench (registers 4 [SC_FEEDSTART n, SC_FEEDEND n, SC_FEEDFLIP n])).kept 0 },
  single 0x3602 0 (scalar tyU32 byNone (wordOf SC_FEEDSTAT)).served,
  { index := 0x3602, first := 1, count := 4, entry := fun n => (scalar tyU32 byNone (wordOf (SC_FEEDCYC n))).served },
  single 0x4000 0 (scalar tyU8 byCtrl (one SC_CALCTL_EN)),
  { index := 0x4001, first := 0, count := 16, entry := fun n => scalar tyU32 byCtrl (wordOf (SC_CALBASE (n / 4) (n % 4))) },
  { index := 0x4002, first := 0, count := 4, entry := fun n => scalar tyU32 byCtrl (wordOf (SC_CALPITCH n)) },
  single 0x4003 0 ((sized tyBlob 384 byCtrlBench (.fields offsetPieces)).kept 0),
  single 0x4004 0 ((sized tyBlob 8 byCtrlBench (registers 4 [SC_WEXT0, SC_WEXT1])).kept 0),
  single 0x4005 0 (scalar tyU32 byNone (wordOf SC_CALSTAT)).served]

/-- Audio (R494). -/
def rowsAudio : List Row := [
  single 0x5000 0 ((scalar tyU8 byCtrlBench (one ⟨AU_CTL, 5, 0⟩)).kept 0x04),
  single 0x5000 1 ((scalar tyU16 byCtrlBench (one AU_D96NS_NS)).kept 0x07D0),
  single 0x5001 0 ((sized tyBlob 512 byCtrlBench (registers 2 ((List.range 256).map AU_DLAW))).kept
    (leNat ((List.range 256).flatMap fun _ => leBytes 2 0x8000))),
  single 0x5001 1 ((scalar tyU8 byCtrlBench (one AU_DIST_DSHIFT)).kept 0),
  { index := 0x5002, first := 0, count := 8,
    entry := fun n => (scalar tyU64 byCtrlBench (registers 4 [AU_OUTG n, AU_OUT n])).kept 0x8000 },
  single 0x5003 0 (scalar tyU32 byNone (wordOf AU_STAT)).served,
  single 0x5003 1 (scalar tyU32 byNone (wordOf AU_CNT)).served]

/-- The weave and twins (R439, R466). -/
def rowsWeave : List Row := [
  single 0x6000 0 (scalar tyU16 byNone (one ⟨WV_ID, 15, 0⟩)).served,
  single 0x6000 1 (scalar tyU32 byCtrlBench (wordOf WV_POS)).served,
  single 0x6000 2 (scalar tyU32 byNone (wordOf WV_GEPOCH)).served,
  { index := 0x6001, first := 0, count := 7, entry := fun n => (scalar tyU32 byNone (wordOf (WV_PORTSTAT n))).served },
  { index := 0x6002, first := 0, count := 7, entry := fun n => (scalar tyU32 byNone (wordOf (WV_PORTERR n))).served },
  single 0x6003 0 (scalar tyU32 byNone (wordOf WV_FWDCNT)).served,
  single 0x6003 1 (scalar tyU32 byNone (wordOf WV_ENGCNT)).served,
  single 0x6010 0 ((scalar tyU8 byBench (.fields [⟨WV_PORTCFG_EGR 4, 0⟩, ⟨WV_PORTCFG_EGR 5, 1⟩])).kept 0),
  single 0x6010 1 ((scalar tyU8 byCtrlBench (.fields ((List.range 7).map fun n => ⟨WV_PORTCFG_EN n, n⟩))).kept 0x7F),
  single 0x6010 2 ((scalar tyU16 byCtrlBench (one WV_CTL_HOPLIM)).kept 0x3FF),
  single 0x6020 0 (scalar tyU32 byNone (wordOf WV_TWSTAT)).served,
  single 0x6020 1 (scalar tyU32 byNone (wordOf WV_TWCNT)).served,
  single 0x6021 0 (scalar tyU8 byCtrlBench (.special .twinCommand)),
  single 0x6022 0 ((scalar tyU8 byCtrlBench (one WV_TWCTL_MMFRAMES)).kept 3),
  single 0x6022 1 ((scalar tyU8 byCtrlBench (one WV_TWCTL_PATCHTIME)).kept 0x32),
  single 0x6022 2 ((scalar tyU32 byCtrlBench (wordOf WV_TWPLOG)).kept 0)]

/-- An entry that no class reads (R544). -/
def Entry.hidden (e : Entry) : Entry := { e with read := byNone }

/-- Security, power, pads and supply (R544, R569). -/
def rowsIsland : List Row := [
  single 0x7000 0 (scalar tyU8 byNone (.fields [⟨SEC_STAT_STATE, 0⟩, ⟨SEC_STAT_DEBUG, 2⟩])).served,
  single 0x7000 1 (scalar tyU8 byCtrlBenchHouse (.special .guardClear)).served,
  single 0x7000 2 (scalar tyU8 byBench (.special .sealClear)).served,
  single 0x7000 3 (scalar tyU16 byNone (.fields [⟨SEC_STAT_ACTIVE, 0⟩, ⟨SEC_STAT_LATCHED, 8⟩])).served,
  single 0x7001 0 ((scalar tyU16 byCtrlBench (one SEC_ALMCFG_LEVEL)).kept 0x0559),
  single 0x7001 1 ((scalar tyU8 byCtrlBench (one SEC_UNLK_LIMIT)).kept 0x03),
  single 0x7001 2 ((scalar tyU8 byCtrlBench (one SEC_UNLK_LEASE)).kept 0x3C),
  single 0x7002 0 (scalar tyU8 byNone (one SEC_STAT_DEBUG)).served,
  single 0x7002 1 { sized tyBlob 32 byNone (.special .nonce) with read := byBench },
  single 0x7002 2 (sized tyBlob 129 byBench (.special .token)).hidden,
  single 0x7002 3 (scalar tyU8 byBench (.special .debugClose)),
  single 0x7003 0 (sized tyBlob 32 byBench (.special (.fuse 0))),
  single 0x7003 1 (sized tyBlob 32 byBench (.special (.fuse 1))),
  single 0x7003 2 (sized tyBlob 32 byNone (.special (.fuse 2))),
  single 0x7003 3 (sized tyBlob 32 byNone (.special (.fuse 3))),
  single 0x7004 0 (sized tyBlob 64 byNone (.special .modulePublic)),
  single 0x7004 1 (sized tyBlob 64 byCtrlBench (.special .controllerKey)).hidden,
  { index := 0x7010, first := 0, count := 32,
    entry := fun n => (sized tyBlob 40 byCtrlBench (.special (.contentKey n))).hidden },
  single 0x7011 0 ((sized tyBlob 40 byCtrlBench (.special .sealKey)).hidden.kept 0),
  single 0x7012 0 (scalar tyU32 byNone (wordOf SEC_KEYST)),
  single 0x7020 0 (scalar tyU8 byCtrlBenchHouse (.special .powerState)),
  single 0x7020 1 (scalar tyU16 byNone (one ⟨HS_PWRSTAT, 15, 0⟩)).served,
  single 0x7020 2 (scalar tyU32 byCtrlBench (one HS_ISLTMR_SECONDS)),
  single 0x7030 0 ((scalar tyU32 byCtrlBench (wordOf PAD_EGSEL)).kept 0x010000FF),
  single 0x7031 0 ((sized tyDomain 2064 byCtrlBench (.special .padMap)).kept 0),
  single 0x7031 1 ((scalar tyU8 byCtrlBench (one ⟨PAD_MUXEN, 3, 0⟩)).kept 0),
  single 0x7032 0 (scalar tyU32 byNone (wordOf HS_SUPPLY)).served,
  single 0x7032 1 (scalar tyU32 byNone (wordOf HS_THERM)).served]

/-- Recorder, results, interrupts and memory protection (R378, R399, R517, R589). -/
def rowsRecord : List Row := [
  single 0x8000 0 (scalar tyU64 byNone (.special .recTotal)).served,
  single 0x8000 1 (scalar tyU16 byNone (.special .recPinned)).served,
  single 0x8000 2 (scalar tyU32 byNone (wordOf HS_RECCNT)).served,
  single 0x8000 3 (scalar tyU64 byNone (.special .recFirst)).served,
  single 0x8001 0 (sized tyDomain 16384 byNone (.special .pinnedRecords)).served,
  single 0x8001 1 (sized tyDomain 245760 byNone (.special .generalRecords)).served,
  single 0x8002 0 (scalar tyU8 byCtrlBench (.special .recClear)),
  single 0x8010 0 (scalar tyU64 byCtrlBench (.special .calendar)),
  single 0x8010 1 { scalar tyU8 byCtrlBenchHouse (one HS_RECCTL_TMODE) with dflt := 1 },
  single 0x8011 0 (scalar tyU32 byNone (.special .opsec)).served,
  single 0x8011 1 (scalar tyU32 byNone (.special .pcyc)).served,
  resultRow 0x8020 tyBlob 56 .sealing,
  { index := 0x8030, first := 0, count := 4, entry := fun n => scalar tyU64 byNone (.special (.perf n)) },
  { index := 0x8100, first := 0, count := 8, entry := fun n => (scalar tyU32 byNone (wordOf (HIC_PEND n))).served },
  single 0x8100 8 (scalar tyU32 byNone (wordOf HIC_WAKELAT)).served,
  single 0x8100 9 (scalar tyU16 byNone (one HIC_STAT_MERGED)).served,
  { index := 0x8101, first := 0, count := 32, entry := fun n => scalar tyU32 byNone (wordOf (DMA_CHSTAT n)) },
  single 0x8200 0 (scalar tyU32 byNone (wordOf HS_CECNT)).served,
  single 0x8200 1 (scalar tyU32 byNone (wordOf SC_ECCCNT)).served,
  single 0x8200 2 (scalar tyU32 byNone (wordOf SC_ECCCONC)).served,
  single 0x8200 3 (scalar tyU8 byNone (.fields [⟨SC_ECCSTAT_FATAL, 0⟩, ⟨SC_ECCSTAT_CRUN, 4⟩])).served,
  single 0x8201 0 ((scalar tyU8 byCtrlBench (one SC_ECCCTL_CTHR)).kept 1),
  single 0x8201 1 ((scalar tyU8 byCtrlBench (one SC_ECCCTL_CFRAMES)).kept 3),
  single 0x8210 0 ((sized tyDomain 8192 byBench (.special .repairTable)).kept 0),
  { resultRow 0x8300 tyU32 4 .storeCheck with entry := fun n => ((resultRow 0x8300 tyU32 4 .storeCheck).entry n).served },
  single 0x8301 0 (scalar tyU32 byNone (wordOf HS_ODCNT)).served]

/-- The dictionary. -/
def dictRows : List Row :=
  rowsModule ++ rowsBeam ++ rowsComposition ++ rowsScene ++ rowsPixel ++ rowsAudio ++ rowsWeave ++ rowsIsland ++ rowsRecord

/-! ### Finding an entry -/

/-- The firmware entries of R497. -/
def isFirmwareIndex (index : Nat) : Bool := 1 ≤ index / 0x1000 && index / 0x1000 ≤ 9 && 0xF00 ≤ index % 0x1000

/-- The entry at an index and subindex. -/
def entryAt (index sub : Nat) : Option Entry :=
  (dictRows.find? fun r => r.index = index && r.first ≤ sub && sub < r.first + r.count).map fun r => r.entry (sub - r.first)

/-- A register is present in a variant. -/
def addressPresent (v : Variant) (a : Nat) : Bool :=
  match regSpecAt a with
  | none => false
  | some (r, idx) => registerPresent v r idx

/-- The unit that an entry belongs to is present (R7): one whose every register is absent belongs to an absent unit. -/
def entryPresent (v : Variant) (e : Entry) : Bool :=
  match e.body with
  | .fields ps => ps.any fun p => addressPresent v p.field.addr
  | .special .twinCommand => hasTwin v
  | .special _ => true

/-- Some entry of an index is present: an index whose every entry belongs to absent units is absent itself (R7, R497). -/
def indexPresent (v : Variant) (index : Nat) : Bool :=
  dictRows.any fun r => r.index = index && (List.range r.count).any fun n => entryPresent v (r.entry n)

/-- The unit of an index's group is present (R7, R497): not every entry that the group has belongs to absent units. -/
def groupPresent (v : Variant) (index : Nat) : Bool :=
  let rows := dictRows.filter fun r => r.index / 0x1000 = index / 0x1000
  rows.isEmpty || rows.any fun r => (List.range r.count).any fun n => entryPresent v (r.entry n)

/-- The entries that the scan die holds. -/
def onScanDie (e : Entry) : Bool :=
  match e.body with
  | .fields ps => ps.any fun p => isScanAddr p.field.addr
  | .special k => match k with
    | .leadEffective | .frameCount | .beamPosition | .holdTime | .acceptedCount | .refusedCount | .egressCommand | .portMap
    | .refetchSum | .perf _ => true
    | _ => false

end Sys2Proof.Machine
end

