-- ==== Sys2Proof/Machine/Dictionary.lean ====
section
/-! DEFINITION. How the dresser reads and writes entries: the checks of R499, register fields as values, the entries with a
content of their own, storage, and result entries (R495 to R507). -/

namespace Sys2Proof.Machine

/-- What a request is answered with (R507): status, type code and value. -/
structure Answer where
  status : Nat
  typ : Nat
  value : List Byte
deriving DecidableEq, Repr

/-- Bytes that the spec does not state: one free value of `len` bytes. -/
def freeBytes (s : State) (len : Nat) : State × List Byte :=
  let f := takeFresh s
  (f.2, leBytes len (Config.freeNat f.1))

/-! ### Values made of register fields -/

/-- The word that a read of a register gives the dresser. -/
def dresserWord (s : State) (a : Nat) : Word := (regRead s .dresser a).2

/-- The number that register fields spell. -/
def piecesValue (s : State) (ps : List Piece) : Nat :=
  ps.foldl (fun n p => n + bitsOf (dresserWord s p.field.addr) p.field.hi p.field.lo * 2 ^ p.pos) 0

/-- The register writes that a value makes: address, mask, bits. -/
def pieceWords (ps : List Piece) (n : Nat) : List (Nat × Word × Word) :=
  ps.foldl (fun acc p =>
    let f := p.field
    let m := fieldMask f.hi f.lo
    let v := putBits 0 f.hi f.lo (n / 2 ^ p.pos)
    match acc.find? fun x => x.1 = f.addr with
    | none => acc ++ [(f.addr, m, v)]
    | some _ => acc.map fun x => if x.1 = f.addr then (x.1, x.2.1 ||| m, x.2.2 ||| v) else x) []

/-- The bits of a value that some piece takes. -/
def valueMask (ps : List Piece) : Nat :=
  ps.foldl (fun m p => m ||| (2 ^ (p.field.hi + 1 - p.field.lo) - 1) * 2 ^ p.pos) 0

/-- The word written to a register so that the masked bits take their values: every field that only acts when written is
written as 0. -/
def mergedWord (s : State) (a : Nat) (mask v : Word) : Word :=
  match regSpecAt a with
  | none => v
  | some (r, _) =>
    let keep := r.fields.foldl (fun m f => if f.access == .rw || f.access == .rwl then m ||| fieldMask f.hi f.lo else m) 0
    (regWord s a &&& keep &&& ~~~ mask) ||| (v &&& mask)

/-- A write of some bits of a register at its destination. -/
def regWriteBits (s : State) (src : Src) (a : Nat) (mask v : Word) : State :=
  let s' := regWriteBase s src a (mergedWord s a mask v)
  if a = SC_PGCTL && heldConfigWrite s mask v then countCfgDrop s' else s'

/-- One register write of the dresser (R503): at once on the house die; for the scan die a PW of source 0x04, counted where it
is a scene write. `direct`: a boot writes the scan die's registers itself. -/
def dresserWrite (s : State) (direct : Bool) (x : Nat × Word × Word) : State :=
  if direct || !isScanAddr x.1 then regWriteBits s .dresser x.1 x.2.1 x.2.2
  else
    let s := if isSceneAddr x.1 then { s with dresser := { s.dresser with counted := min 0xFFFFFF (s.dresser.counted + 1) } }
      else s
    issueToScan s (if x.2.1 = BitVec.allOnes 32 then .regWrite .dresser x.1 x.2.2
      else .regBits .dresser x.1 x.2.1 x.2.2)

/-- The register writes of a value, one after the other. -/
def dresserWrites (s : State) (direct : Bool) (ws : List (Nat × Word × Word)) : State :=
  ws.foldl (fun s x => dresserWrite s direct x) s

/-- A locked pad keeps a write from changing its set-up (R553, R569). -/
def padWriteLocked (s : State) (ws : List (Nat × Word × Word)) : Bool :=
  ws.any fun x => isPadBlock x.1 && padRegLocked s x.1 &&
    (match regSpecAt x.1 with
      | none => false
      | some (r, _) => decide (wordAfter s r x.1 (mergedWord s x.1 x.2.1 x.2.2) ≠ regWord s x.1))

/-- Step 5 of R499 for register writes, which act as they do from a core: a value that a field does not take leaves that field
unchanged and counts in HS_RSVWR, and the other fields of the write take theirs (R13, R503). -/
def checkWrites (s : State) (ws : List (Nat × Word × Word)) : Nat := if padWriteLocked s ws then stRefusedNow else stOk

/-- The register writes of the port and lane map (R264): 12 bytes for each port from port 0 on. -/
def portMapWords (v : List Byte) : List (Nat × Word × Word) :=
  (List.range (v.length / 12)).flatMap fun n =>
    [(SC_DPCFG n, BitVec.allOnes 32, BitVec.ofNat 32 (leAt v (12 * n) 4)),
     (SC_LANEA n, BitVec.allOnes 32, BitVec.ofNat 32 (leAt v (12 * n + 4) 4)),
     (SC_LANEB n, BitVec.allOnes 32, BitVec.ofNat 32 (leAt v (12 * n + 8) 4))]

/-- The register writes of the pad map (R569): the pads, then the banks. -/
def padMapWords (v : List Byte) : List (Nat × Word × Word) :=
  (List.range (v.length / 4)).map fun n =>
    (if n < 512 then PAD_CFG n else PAD_BANK (n - 512), BitVec.allOnes 32, BitVec.ofNat 32 (leAt v (4 * n) 4))

/-! ### The recorder's entries -/

/-- Records in MRAM slots as R581 serves them: a POISONED one as zeros. -/
def recordSlots (s : State) (slots : List Nat) : List Byte :=
  slots.flatMap fun a => if blockState s (a / 32) = .bad then List.replicate 32 0 else mramBytes s a 32

/-- MRAM addresses of the pinned records. -/
def pinnedSlots (s : State) : List Nat := (List.range s.recorder.pincnt).map (recordPlace true)

/-- MRAM addresses of the general records from FIRST on. -/
def generalSlots (s : State) : List Nat :=
  (List.range (s.recorder.total - recordFirst s)).map fun i => recordPlace false (recordFirst s + i)

/-- The pinned records. -/
def pinnedBytes (s : State) : List Byte := recordSlots s (pinnedSlots s)

/-- The general records from FIRST on. -/
def generalBytes (s : State) : List Byte := recordSlots s (generalSlots s)

/-- Reading records corrects or notes the errors of their blocks (R382, R383). -/
def readSlots (s : State) (slots : List Nat) : State := slots.foldl (fun s a => (touchBlock s (a / 32)).1) s

/-- The seal of R583. -/
def sealValue (s : State) (key : List Byte) : List Byte :=
  let head := leBytes 8 (recordFirst s) ++ leBytes 8 s.recorder.total
  let pin := leBytes 2 s.recorder.pincnt
  head ++ pin ++ List.replicate 6 0 ++
    Crypto.hmac key (head ++ pin ++ pinnedBytes s ++ generalBytes s ++ leBytes 8 Config.serialNumber.toNat)

/-! ### Reads -/

/-- A result entry's answer to a read of VALUE, TAKE or STATE (R506): status, value, and what remains. -/
def resultRead (r : ResultState) (sub : Nat) : Nat × List Byte × ResultState :=
  if sub = 3 then
    (stOk, [match r with
      | .empty => 0
      | .running _ => 1
      | .ready _ => 2], r)
  else
    match r with
    | .ready v => (stOk, v, if sub = 2 then .empty else r)
    | _ => (stNotReady, [], r)

/-- The hash that a fuse entry holds; none while blank (R544). -/
def fuseHash (s : State) (n : Nat) : Option (List Byte) :=
  match n with
  | 0 => s.hutch.egressHash
  | 1 => s.hutch.customerHash
  | 2 => some Config.firmwareHash
  | _ => some Config.factoryHash

/-- A read of an entry with a content of its own: status and value. -/
def readSpecial (s : State) (k : Special) : State × Nat × List Byte :=
  let ok (v : List Byte) : State × Nat × List Byte := (s, stOk, v)
  let mram (a len : Nat) : State × Nat × List Byte :=
    let r := readExtent s a len
    if r.2 then (r.1, stOk, mramBytes s a len) else (raiseEvent r.1 74 HS_ODSTAT_STOREEV, stStorePoisoned, [])
  match k with
  | .variantName =>
    ok (("ZW-84".toList ++ (match s.variant with
      | .zw8460 => "60".toList
      | .zw8440 => "40".toList
      | .zw8420 => "20".toList)).map fun c => BitVec.ofNat 8 c.toNat)
  | .serial => ok (leBytes 8 Config.serialNumber.toNat)
  | .version => ok (leBytes 4 s.dresser.version.toNat)
  | .layout => ok (leBytes 2 0x0100)
  | .serviceAddress => ok (leBytes 2 s.dresser.saddr)
  | .voidStore | .houseReset | .twinCommand | .guardClear | .sealClear | .debugClose | .recClear => ok [0]
  | .stagedCommit => ok (leBytes 4 s.dresser.stagedCommit.toNat)
  | .commitEpoch => ok (leBytes 4 s.dresser.epoch.toNat)
  | .storeCheck sub =>
    let r := resultRead s.dresser.verifying sub
    ({ s with dresser := { s.dresser with verifying := r.2.2 } }, r.1, r.2.1)
  | .sealing sub =>
    let r := resultRead s.dresser.sealing sub
    ({ s with dresser := { s.dresser with sealing := r.2.2 } }, r.1, r.2.1)
  | .bootImage =>
    let slot := natBits s.dresser.bootStatus.toNat 1 0
    if 1 < slot then ok []
    else mram (0x200000 * slot) 0x200000
  | .bootStatus => ok [s.dresser.bootStatus]
  | .leadEffective => ok (leBytes 4 (leadEff s))
  | .frameCount => ok (leBytes 4 s.dresser.frameCount.toNat)
  | .beamPosition => ok (leBytes 8 (beamPos s).toNat)
  | .holdTime => ok (leBytes 4 (min 0xFFFFFFFF s.beam.holdMs))
  | .acceptedCount => ok (leBytes 4 s.comp.accepted.toNat)
  | .refusedCount => ok (leBytes 4 (min 0xFFFFFFFF s.comp.refused))
  | .egressCommand => ok (leBytes 1 (match s.comp.egressCommand with
      | none => 0
      | some n => n + 1))
  | .library => mram 0x700000 s.dresser.libraryLen
  | .portMap =>
    let v := (List.range 512).flatMap fun n => [SC_DPCFG n, SC_LANEA n, SC_LANEB n].flatMap fun a =>
      leBytes 4 (dresserWord s a).toNat
    ok (if (sfind s.dresser.stored 0x350100).isNone && v.all (· = 0) then [] else v)
  | .refetchSum =>
    ok (leBytes 4 (min 0xFFFFFFFF ((List.range 8).foldl (fun n i =>
      n + bitsOf (dresserWord s (SC_PCSTAT i)) (SC_PCSTAT_REFETCH i).hi (SC_PCSTAT_REFETCH i).lo) 0)))
  | .lockups => ok (leBytes 2 s.dresser.lockups)
  | .repairTable => mram 0x6FE000 0x2000
  | .nonce =>
    let r := nonceRead s
    (r.1, stOk, r.2)
  | .fuse n => match fuseHash s n with
    | some h => ok h
    | none => ok ((List.range 32).map Config.blankFuse)
  | .modulePublic => ok agreementPublic
  | .token | .controllerKey | .contentKey _ | .sealKey => (s, stNoRead, [])
  | .powerState => ok (leBytes 1 (getF s HS_PWRCTL_REQ))
  | .padMap =>
    ok ((List.range 512).flatMap (fun n => leBytes 4 (dresserWord s (PAD_CFG n)).toNat) ++
      (List.range 4).flatMap fun n => leBytes 4 (dresserWord s (PAD_BANK n)).toNat)
  | .recTotal => ok (leBytes 8 s.recorder.total)
  | .recPinned => ok (leBytes 2 s.recorder.pincnt)
  | .recFirst => ok (leBytes 8 (recordFirst s))
  | .pinnedRecords => (readSlots s (pinnedSlots s), stOk, pinnedBytes s)
  | .generalRecords => (readSlots s (generalSlots s), stOk, generalBytes s)
  | .calendar => ok (leBytes 4 (s.recorder.calTicks / 40) ++ leBytes 4 s.recorder.calSec)
  | .opsec => ok (leBytes 4 s.recorder.opsec)
  | .pcyc => ok (leBytes 4 s.recorder.pcyc)
  | .perf n => ok (leBytes 8 (s.perf.toList.getD n 0).toNat)

/-- Key of an entry's records in the store. -/
def entryKey (index sub : Nat) : Nat := 256 * index + sub

/-- The entries whose value stands in the record slots of R504: the library, the repair table and the wrapped seal key have
homes of their own. -/
def inStore (e : Entry) : Bool :=
  e.persistent && (match e.body with
    | .special .library | .special .repairTable | .special .sealKey => false
    | _ => true)

/-- A slot that holds a record: its mark is set and its CRC right (R504). -/
def StoreSlot.valid (r : StoreSlot) : Bool := r.mark && r.crc = crc32 r.value

/-- The valid record with the higher sequence count, and whether it stands in the second slot (R504). -/
def Stored.current (r : Stored) : Option (Bool × StoreSlot) :=
  match r.first.filter (·.valid), r.second.filter (·.valid) with
  | some a, some b => some (if a.seq < b.seq then (true, b) else (false, a))
  | some a, none => some (false, a)
  | none, some b => some (true, b)
  | none, none => none

/-- The MRAM block of a record slot, in the dictionary store of 0x60_0000 to 0x6F_DFFF, whose layout the spec leaves open (R504). -/
def storeBlock (index sub : Nat) (second : Bool) : Nat := 0x30000 + Config.storePlace index sub second % 0x7F00

/-- The current record of an entry: its slot, and the record. -/
def currentRecord (s : State) (index sub : Nat) : Option (Bool × StoreSlot) :=
  (sfind s.dresser.stored (entryKey index sub)).bind (·.current)

/-- The current record of an entry reads as uncorrectable (R504). -/
def storePoisoned (s : State) (e : Entry) (index sub : Nat) : Bool :=
  inStore e && (match currentRecord s index sub with
    | some r => blockState s (storeBlock index sub r.1) == .bad
    | none => false)

/-- A stored record is read, and found uncorrectable: the error is counted and reported, with STOREEV (R383, R504, R516). -/
def foundPoisoned (s : State) (index sub : Nat) : State :=
  match currentRecord s index sub with
  | none => s
  | some r => raiseEvent (touchBlock s (storeBlock index sub r.1)).1 74 HS_ODSTAT_STOREEV

/-- The value that an entry has. -/
def entryValue (s : State) (e : Entry) : State × Nat × List Byte :=
  match e.body with
  | .fields ps => (s, stOk, leBytes e.len (piecesValue s ps))
  | .special k => readSpecial s k

/-- The value of an entry, as it stands (R501). With the bridge DOWN the spec does not say what an entry of the scan die
reads as. -/
def readEntry (s : State) (e : Entry) (index sub : Nat) : State × Nat × List Byte :=
  if storePoisoned s e index sub then (foundPoisoned s index sub, stStorePoisoned, [])
  else if onScanDie e && bridgeDown s then
    let f := freeBytes s e.len
    (f.1, stOk, f.2)
  else entryValue s e

/-! ### Writes -/

/-- The value of a one-byte command entry is refused unless it is in the list (R496). -/
def oneOf (v : List Byte) (allowed' : List Nat) : Nat := if allowed'.contains (leNat v) then stOk else stRange

/-- A result entry's trigger while its operation runs (R506). -/
def isRunning : ResultState → Bool
  | .running _ => true
  | _ => false

/-- RANGE, REFUSED_NOW and BUSY for entries with a content of their own, as far as they are known before the write acts. -/
def checkSpecial (s : State) (k : Special) (v : List Byte) : Nat :=
  let n := leNat v
  match k with
  | .serviceAddress => if n ≤ 0x3FFE || n = 0xFFFF then stOk else stRange
  | .voidStore | .houseReset => oneOf v [0x5A]
  | .stagedCommit => if n < 2 ^ 18 then stOk else stRange
  | .storeCheck _ => if isRunning s.dresser.verifying then stBusy else stOk
  | .sealing _ =>
    if n != 1 then stRange
    else if s.hutch.sealKey.isNone then stRefusedNow
    else if isRunning s.dresser.sealing then stBusy
    else stOk
  | .bootImage => if secState s = secSeal then stRefusedNow else stOk
  | .frameCount => if anchorRole s = 0 then stRefusedNow else stOk
  | .egressCommand => if n ≤ 32 then stOk else stRange
  | .library => if flag s SC_EGSTAT_ACTIVE then stRefusedNow else stOk
  | .portMap =>
    if v.length % 12 != 0 then stRange
    else if getF s SC_PGCTL_RUN != 0 then stRefusedNow
    else checkWrites s (portMapWords v)
  | .padMap => if v.length % 4 != 0 then stRange else checkWrites s (padMapWords v)
  | .contentKey _ | .sealKey => if (unwrapped s v).isNone then stRange else stOk
  | .twinCommand => oneOf v [1, 2]
  | .guardClear | .sealClear | .debugClose => oneOf v [1]
  | .fuse m => if (fuseHash s m).isSome then stRefusedNow else stOk
  | .powerState => oneOf v [0, 1, 2, 3]
  | .recClear => oneOf v [1, 2]
  | .calendar => if n % 2 ^ 32 ≤ 999999 then stOk else stRange
  | _ => stOk

/-- The slot that an image write stores into (R593): the one not booted; in recovery the one with the lower SEQ, slot 1 where
they are equal. -/
def imageSlot (s : State) : Nat :=
  match natBits s.dresser.bootStatus.toNat 1 0 with
  | 0 => 1
  | 1 => 0
  | _ => if leNat (mramBytes s 8 4) < leNat (mramBytes s 0x200008 4) then 0 else 1

/-- A scan-die effect of a dictionary write that is no register write: with the bridge DOWN it is lost like a PW (R51). -/
def onScan (s : State) (direct : Bool) (f : State → State) : State :=
  if !direct && bridgeDown s then countF s HS_BRERR_DROPPED 1 else f s

/-- Reads one record slot: 1 where it holds a record that fails its CRC or its read (R504, R517). -/
def verifyRecord (s : State) (key : Nat) (second : Bool) (r : Option StoreSlot) : State × Nat :=
  match r with
  | some r =>
    if !r.mark then (s, 0)
    else
      let x := touchBlock s (storeBlock (key / 256) (key % 256) second)
      (x.1, b2n (!x.2 || !r.valid))
  | none => (s, 0)

/-- Store verification reads every stored record, the library and the repair table among them (R505), and counts those that fail
their CRC or read (R517). -/
def verifyStore (s : State) : State × Nat :=
  let recs := s.dresser.stored.foldl (fun (acc : State × Nat) e =>
    let a := verifyRecord acc.1 e.1 false e.2.first
    let b := verifyRecord a.1 e.1 true e.2.second
    (b.1, acc.2 + a.2 + b.2)) (s, 0)
  let lib := if s.dresser.libraryLen = 0 then (recs.1, true) else readExtent recs.1 0x700000 s.dresser.libraryLen
  let rep := readExtent lib.1 0x6FE000 0x2000
  (rep.1, recs.2 + b2n (!lib.2) + b2n (!rep.2))

/-- A write to an entry with a content of its own, its checks passed: the state after it and the answer. `cls` and `smid` name
the requester. -/
def writeSpecial (s : State) (direct : Bool) (cls smid : Nat) (k : Special) (v : List Byte) : State × Nat :=
  let n := leNat v
  let d := s.dresser
  match k with
  | .serviceAddress => ({ s with dresser := { d with saddr := n } }, stOk)
  | .voidStore => (record { s with dresser := { d with stored := [] } } .info 0x7003 0 0 0 0, stOk)
  | .stagedCommit => ({ s with dresser := { d with stagedCommit := BitVec.ofNat 32 n } }, stOk)
  | .commitEpoch =>
    let s := { s with dresser := { d with epoch := BitVec.ofNat 32 n, counted := 0 } }
    (issueCommit s .dresser (BitVec.ofNat 32 n) (d.stagedCommit.setWidth 16) ((d.stagedCommit >>> 16).setWidth 2) d.counted
      none, stOk)
  | .storeCheck _ =>
    let r := verifyStore s
    ({ r.1 with dresser := { r.1.dresser with verifying := .running (leBytes 4 r.2) } }, stOk)
  | .sealing _ => match s.hutch.sealKey with
    | none => (s, stRefusedNow)
    | some key =>
      let v := sealValue s key
      ({ readSlots s (pinnedSlots s ++ generalSlots s) with dresser := { d with sealing := .running v } }, stOk)
  | .bootImage => (mramPut s (0x200000 * imageSlot s) v, stOk)
  | .houseReset => ({ s with dresser := { d with resetAt := some (s.now + 40000) } }, stOk)
  | .frameCount =>
    let s := { s with dresser := { d with frameCount := BitVec.ofNat 32 n } }
    (onScan s direct fun s => { s with beam := { s.beam with frameSet := some (BitVec.ofNat 32 n) } }, stOk)
  | .egressCommand => (onScan s direct (egressCommand · n), stOk)
  | .library =>
    (mramPut { s with dresser := { d with libraryLen := v.length } } 0x700000 (v ++ List.replicate (0x100000 - v.length) 0),
      stOk)
  | .portMap => (dresserWrites s direct (portMapWords v), stOk)
  | .repairTable => (mramPut s 0x6FE000 (v ++ List.replicate (0x2000 - v.length) 0), stOk)
  | .twinCommand =>
    if n = 1 then (takeHarness s, if takeAllowed s then stOk else stRefusedNow)
    else (yieldHarness s, if yieldAllowed s then stOk else stRefusedNow)
  | .guardClear => guardClear s
  | .sealClear => sealClear s
  | .token => unlockToken s v
  | .debugClose => (debugClose s, stOk)
  | .fuse m =>
    ({ s with hutch := if m = 0 then { s.hutch with egressHash := some v } else { s.hutch with customerHash := some v } },
      stOk)
  | .controllerKey => keyAgreement s v
  | .contentKey slot => contentKeyWrite s slot v
  | .sealKey => sealKeyWrite s v
  | .powerState => powerRequest s n
  | .padMap => (dresserWrites s direct (padMapWords v), stOk)
  | .recClear => (askClear s n cls smid, stOk)
  | .calendar =>
    (setF { s with recorder := { s.recorder with calSec := n / 2 ^ 32, calTicks := n % 2 ^ 32 * 40 } } HS_RECSTAT_CALV 1,
      stOk)
  | _ => (s, stNoWrite)

/-- A value is applied to an entry, its checks passed: by a write, or at boot. -/
def setEntry (s : State) (direct : Bool) (cls smid : Nat) (e : Entry) (v : List Byte) : State × Nat :=
  match e.body with
  | .fields ps => (dresserWrites s direct (pieceWords ps (leNat v)), stOk)
  | .special k => writeSpecial s direct cls smid k v

/-- TYPE (R496): the type's length, or up to the maximum for STR and DOMAIN. -/
def lengthFits (e : Entry) (n : Nat) : Bool := if e.typ = tyStr || e.typ = tyDomain then n ≤ e.len else n = e.len

/-- TYPE, RANGE, REFUSED_NOW and BUSY (R499 step 5). -/
def checkValue (s : State) (e : Entry) (v : List Byte) : Nat :=
  if !lengthFits e v.length then stType
  else
    match e.body with
    | .fields ps =>
      if leNat v &&& valueMask ps != leNat v then stRange else checkWrites s (pieceWords ps (leNat v))
    | .special k => checkSpecial s k v

/-- The two slots after a store: the new record, with the next sequence count and its CRC, in the slot that does not hold the
current one; its mark comes last, and a store that fails, or that a loss of power ends, leaves it unset (R504, R515). -/
def Stored.store (r : Stored) (v : List Byte) (mark : Bool) : Stored :=
  let cur := r.current
  let x : StoreSlot := { value := v, seq := ((cur.map (·.2.seq)).getD 0) + 1, crc := crc32 v, mark := mark }
  match cur with
  | some (false, _) => { r with second := some x }
  | _ => { r with first := some x }

/-- Writes the record slots of an entry. -/
def storeRecord (s : State) (index sub : Nat) (v : List Byte) (mark : Bool) : State :=
  let old := (sfind s.dresser.stored (entryKey index sub)).getD ⟨none, none⟩
  { s with dresser := { s.dresser with stored := sinsert s.dresser.stored (entryKey index sub) (old.store v mark) } }

/-- Stores a persistent value (R504): whether the store held. -/
def storeValue (s : State) (e : Entry) (index sub : Nat) (v : List Byte) : State × Bool :=
  if !e.persistent then (s, true)
  else
    let f := takeFresh s
    let fails := Config.storeFails f.1
    let s := if inStore e then storeRecord f.2 index sub v (!fails) else f.2
    (if fails then raiseEvent s 74 HS_ODSTAT_STOREEV else s, !fails)

/-- A whole value is written to an entry: checks of step 5, storage, and its effect (R499, R504). -/
def writeEntry (s : State) (cls smid : Nat) (e : Entry) (index sub : Nat) (v : List Byte) : State × Nat :=
  let c := checkValue s e v
  if c != stOk then (s, c)
  else
    let r := storeValue s e index sub v
    if r.2 then setEntry r.1 false cls smid e v else (r.1, stStoreFailed)

/-! ### The checks of R499 -/

/-- What a closed debug state leaves to requests of class BENCH (R528). -/
def benchMay (cmd index sub : Nat) : Bool :=
  (cmd = 1 && ((0x1000 ≤ index && index ≤ 0x1FFF) || (index = 0x7000 && sub = 0) ||
    (index = 0x7002 && (sub = 0 || sub = 1)))) || (cmd = 2 && index = 0x7002 && sub = 2)

/-- Step 3: the right of the class. -/
def rightCheck (r : DictRequest) (e : Entry) : Nat :=
  let bit := 2 ^ classCode r.cls
  let mask := if r.cmd = 1 then e.read else e.write
  if r.cmd = 3 then stOk
  else if mask &&& bit = 0 then (if r.cmd = 1 then stNoRead else stNoWrite)
  else if r.cls = .ctrl && mask &&& 32 != 0 && !r.egr then stNoEgress
  else stOk

/-- Step 4: what the debug and power states withdraw. -/
def stateLocked (s : State) (r : DictRequest) (e : Entry) : Bool :=
  (r.cls = .bench && debugState s = 0 && !benchMay r.cmd r.index r.sub) ||
    (r.cmd != 3 && onScanDie e && s.power.scanOff) ||
    (r.cmd = 2 && keysLocked s && (match e.body with
      | .special (.contentKey _) | .special .sealKey => true
      | _ => false))

/-- Steps 1 to 4 of R499 for an entry of the dresser. -/
def checkRequest (s : State) (r : DictRequest) : Nat :=
  if r.cmd = 0 || 3 < r.cmd then stRange
  else if !indexPresent s.variant r.index then stEntryAbsent
  else
    match entryAt r.index r.sub with
    | none => stSubAbsent
    | some e =>
      if !entryPresent s.variant e then stEntryAbsent
      else
        let c := rightCheck r e
        if c != stOk then c else if stateLocked s r e then stLocked else stOk

/-- The descriptor of an entry (R500). -/
def descriptor (e : Entry) : List Byte :=
  leBytes 1 e.typ ++ leBytes 1 (b2n e.persistent + 4 * b2n e.result + 8 * b2n e.halted) ++ leBytes 1 e.read ++
    leBytes 1 e.write ++ leBytes 4 e.len

/-- The type code that an answer carries: that of the entry, 0 where there is none. -/
def answerType (index sub : Nat) : Nat :=
  match entryAt index sub with
  | some e => e.typ
  | none => 0

/-- The answer to a READ: status, type and value. -/
def readAnswer (e : Entry) (st : Nat) (v : List Byte) : Answer := { status := st, typ := e.typ, value := v }

/-- The entry whose value a READ fetches through the bridge (R38, R503): it passes its checks, stands on the scan die and not in a
record that cannot be read, and the bridge is not DOWN. -/
def readAcross (s : State) (r : DictRequest) : Option Entry :=
  if r.cmd != 1 || isFirmwareIndex r.index || checkRequest s r != stOk || bridgeDown s then none
  else (entryAt r.index r.sub).filter fun e => onScanDie e && !storePoisoned s e r.index r.sub

/-- Executes a whole request on an entry of the dresser (R499 to R503). `smid` names a fabric requester. -/
def executeEntry (s : State) (r : DictRequest) (smid : Nat) : State × Answer :=
  let c := checkRequest s r
  let fail (s : State) (st : Nat) : State × Answer := (s, { status := st, typ := answerType r.index r.sub, value := [] })
  if c != stOk then fail s c
  else
    match entryAt r.index r.sub with
    | none => fail s stSubAbsent
    | some e =>
      match r.cmd with
      | 1 =>
        let x := readEntry s e r.index r.sub
        (x.1, readAnswer e x.2.1 x.2.2)
      | 2 =>
        if r.poison then fail s stPoisonedSource
        else
          let x := writeEntry s (classCode r.cls) smid e r.index r.sub r.data
          fail x.1 x.2
      | _ => (s, { status := stOk, typ := e.typ, value := descriptor e })

/-! ### At boot -/

/-- The value that an entry takes at boot (R504): its record where that is valid, else its default; none for an empty map. -/
def bootValue (s : State) (e : Entry) (index sub : Nat) : Option (List Byte) :=
  let dflt := if e.typ = tyDomain then none else some (leBytes e.len e.dflt)
  if storePoisoned s e index sub then dflt
  else
    match currentRecord s index sub with
    | some r => some r.2.value
    | none => dflt

/-- Applies one persistent entry at boot. `scan`: the scan die's registers too. -/
def bootEntry (scan : Bool) (s : State) (index sub : Nat) (e : Entry) : State :=
  if !inStore e || !entryPresent s.variant e || (onScanDie e && !scan) then s
  else
    let v := bootValue s e index sub
    let s := if storePoisoned s e index sub then foundPoisoned s index sub else s
    match v with
    | none => s
    | some v => (setEntry s true 0 0 e v).1

/-- Every persistent entry applies to its register or shadow (R504, R590). A house-die reset that leaves the scan die running
applies those of the house die. -/
def bootDictionary (s : State) (scan : Bool) : State :=
  dictRows.foldl (fun s r =>
    (List.range r.count).foldl (fun s i => bootEntry scan s r.index (r.first + i) (r.entry i)) s) s

end Sys2Proof.Machine
end

