-- ==== Sys2Proof/Machine/Service.lean ====
section
/-! DEFINITION. The dresser's requests: their order, firmware entries, house requests, the service bus and the fabric (R501,
R502, R508 to R515). -/

namespace Sys2Proof.Machine

/-! ### Sending answers -/

/-- The service address as it is now (R509). -/
def serviceAddress (s : State) : Nat :=
  if s.dresser.saddr = 0xFFFF then (if flag s WV_ID_MIDV then getF s WV_ID_MID else 0x3FFF) else s.dresser.saddr

/-- The next CAN FD data length (R510). -/
def canLength (n : Nat) : Nat :=
  if n ≤ 8 then n
  else ([12, 16, 20, 24, 32, 48].find? (n ≤ ·)).getD 64

/-- A service frame leaves the module, unless the bus is off (R509, R510). -/
def sendService (s : State) (data : List Byte) : State :=
  if !flag s HS_SVCCTL_EN || getF s HS_SVCSTAT_BSTATE = 2 then s
  else emit s (.service (0xD * 2 ^ 25 + 2 ^ 24 + serviceAddress s)
    (data ++ List.replicate (canLength data.length - data.length) 0))

/-- An ABORT frame (R510). -/
def sendAbort (s : State) (tag : Byte) (status : Nat) : State :=
  sendService s ([0x04, tag, 0, 0] ++ leBytes 4 status)

/-- An ACK frame (R510). -/
def sendAck (s : State) (tag : Byte) (next status : Nat) : State :=
  sendService s ([0x06, tag] ++ leBytes 2 next ++ leBytes 4 status)

/-- A response frame (R510). -/
def sendResponse (s : State) (r : DictRequest) (tag : Byte) (a : Answer) (seg : Bool) (data : List Byte) : State :=
  sendService s ([BitVec.ofNat 8 (r.cmd + 0x80), tag] ++ leBytes 2 r.index ++
    [BitVec.ofNat 8 r.sub, BitVec.ofNat 8 (b2n seg), BitVec.ofNat 8 (if seg then 0 else data.length), BitVec.ofNat 8 a.typ] ++
    leBytes 4 a.status ++ data)

/-- A service response; a value of more than 52 bytes opens a segmented read, and answers BUSY where a transfer has opened since
the request came (R510 to R512). -/
def serviceAnswer (s : State) (r : DictRequest) (tag : Byte) (a : Answer) : State :=
  if a.value.length ≤ 52 then sendResponse s r tag a false a.value
  else
    let t : Transfer := { tag := tag, write := false, index := r.index, sub := r.sub, total := a.value.length,
                          data := a.value, next := 0, sent := 0 }
    sendResponse { s with dresser := { s.dresser with transfer := some t } } r tag a true (leBytes 4 a.value.length)

/-- The words that a dictionary value takes in house SRAM, four bytes to a word, tagged INT (R502). -/
def storeValueWords (s : State) (base : Nat) (v : List Byte) : State :=
  (List.range (ceilDiv v.length 4)).foldl (fun s i =>
    if base + i < 0x80000 then sramStore s 0 (base + i) (intWord (BitVec.ofNat 32 (leAt v (4 * i) 4))) else s) s

/-- The answer to a HOUSE request (R502, R516). -/
def houseAnswer (s : State) (r : DictRequest) (a : Answer) : State :=
  let s := if r.cmd != 2 && a.status = stOk then
      setF (storeValueWords s (getF s HS_ODBUF_BUF) a.value) HS_ODLEN_LEN a.value.length
    else s
  raiseEvent (setF (setF s HS_ODRES_STATUS a.status) HS_ODSTAT_BUSY 0) 72 HS_ODSTAT_DONEEV

/-- A fabric reply (R513): a RESULT packet that carries the request's CTX and SEQ. -/
def fabricAnswer (s : State) (r : DictRequest) (pkt : Packet) (a : Answer) (more : Bool) (total : Nat) : State :=
  let to' := replyAddress pkt.smid pkt.sport
  let flags := leAt pkt.payload 1 1 / 2 * 2 + b2n more
  let payload := [BitVec.ofNat 8 (r.cmd + 0x80), BitVec.ofNat 8 flags] ++ leBytes 2 r.index ++
    [BitVec.ofNat 8 r.sub, BitVec.ofNat 8 a.typ, 0, 0] ++ leBytes 4 a.status ++ leBytes 4 total ++ a.value
  (originate s (makePacket to'.1 to'.2.1 to'.2.2 2 (BitVec.ofNat 14 (leAt pkt.payload 6 2)) pkt.seq 4 pkt.ctx payload)).1

/-- What a request's route makes of its answer before it is counted: the room of a house buffer, and the piece of a fabric
read (R502, R514); and whether a value can open a segmented transfer (R512). -/
def trimAnswer (s : State) (r : DictRequest) (a : Answer) : Answer :=
  if a.status != stOk then a
  else
    match r.route with
    | .service _ => if 52 < a.value.length && s.dresser.transfer.isSome then { a with status := stBusy } else a
    | .house => if r.cmd != 2 && r.len < a.value.length then { a with status := stTooLong } else a
    | .fabric _ => if r.cmd = 1 && a.value.length < r.offset then { a with status := stRange } else a
    | _ => a

/-- Counts an answer and sends it (R516). -/
def deliverAnswer (s : State) (r : DictRequest) (a : Answer) : State :=
  let a := trimAnswer s r a
  let s := countWrapF s HS_ODCNT_SERVED 1
  let s := if a.status != stOk then countF s HS_ODCNT_REFUSED 1 else s
  let v := if a.status = stOk then a.value else []
  let a := { a with value := v }
  match r.route with
  | .house => houseAnswer s r a
  | .bench | .plain => emit s (.answer a.status a.typ v)
  | .service tag => serviceAnswer s r tag a
  | .serviceOpen tag _ => sendResponse s r tag a false []
  | .serviceAck tag next => sendAck s tag next a.status
  | .fabric pkt =>
    if r.cmd = 1 then
      let data := (v.drop r.offset).take (min r.len 2032)
      fabricAnswer s r pkt { a with value := data } (decide (r.offset + data.length < v.length)) v.length
    else fabricAnswer s r pkt a false v.length

/-! ### Firmware entries -/

/-- A core that can answer: it has its clock and runs, and is neither in lockup nor halted by the bench (R501, R534). -/
def coreAble (s : State) (n : Nat) : Bool :=
  coresClocked s && bitAt (getF s HS_CORECTL_RUN) n && !bitAt (getF s HS_CORESTAT_LOCKED) n && !(coreOf s n).benchHalt

/-- Bytes that the staging pages hold (R516). -/
def stagingRoom (s : State) : Nat := 4096 * getF s HS_ODSTG_PAGES

/-- The module is in recovery (R592). -/
def inRecovery (s : State) : Bool := natBits s.dresser.bootStatus.toNat 1 0 = 3

/-- Whether a firmware entry is answered at all, which one of an absent unit is not, and if so whether some core can answer (R7,
R501, R592). -/
def firmwareCheck (s : State) (index : Nat) : Nat :=
  if !groupPresent s.variant index || !flag s HS_ODCTL_FWEN || inRecovery s then stEntryAbsent
  else if ((List.range 4).any (coreAble s)) then stOk
  else stHouseUnavailable

/-- A request for a firmware entry is placed in the HS_ODFW registers, its value in the staging pages (R501, R516). -/
def askFirmware (s : State) (r : DictRequest) : State :=
  let s := setRegWord s HS_ODFW0 (BitVec.ofNat 32 (r.cmd * 2 ^ 24 + r.sub % 256 * 2 ^ 16 + r.index % 65536))
  let s := setRegWord s HS_ODFW1 (BitVec.ofNat 32 (2 ^ 31 + classCode r.cls * 2 ^ 28 + b2n r.egr * 2 ^ 27 + r.data.length))
  let s := if r.cmd = 2 then storeValueWords s (1024 * getF s HS_ODSTG_FIRST) r.data else s
  raiseEvent { s with dresser := { s.dresser with firmware := some r } } 73 HS_ODSTAT_FWEV

/-- A whole request on a firmware entry: answered at once, or placed before house firmware (R499, R501). -/
def firmwareRequest (s : State) (r : DictRequest) : State × Option Answer :=
  let c := firmwareCheck s r.index
  let fail (st : Nat) : State × Option Answer := (s, some { status := st, typ := 0, value := [] })
  if r.cmd = 0 || 3 < r.cmd then fail stRange
  else if c != stOk then fail c
  else if r.poison then fail stPoisonedSource
  else if stagingRoom s < r.data.length then fail stTooLong
  else (askFirmware s r, none)

/-- Bytes of house SRAM words as firmware left them; a word that cannot be read gives free bytes. -/
def loadValueWords (s : State) (base : Nat) (len : Nat) : State × List Byte :=
  let r := (List.range (ceilDiv len 4)).foldl (fun (acc : State × List Byte) i =>
    if base + i < 0x80000 then
      let x := sramLoad acc.1 0 (base + i)
      match x.2 with
      | some w => (x.1, acc.2 ++ leBytes 4 (payload w).toNat)
      | none =>
        let f := freeBytes x.1 4
        (f.1, acc.2 ++ f.2)
    else
      let f := freeBytes acc.1 4
      (f.1, acc.2 ++ f.2)) (s, [])
  (r.1, r.2.take len)

/-! ### Executing requests -/

/-- The SMID of a fabric requester, else 0. -/
def requesterMid (r : DictRequest) : Nat :=
  match r.route with
  | .fabric p => p.smid.toNat
  | _ => 0

/-- A whole request: answered, or waiting for firmware. -/
def wholeRequest (s : State) (r : DictRequest) : State × Option Answer :=
  if isFirmwareIndex r.index then firmwareRequest s r
  else
    let x := executeEntry s r (requesterMid r)
    (x.1, some x.2)

/-- What the first checks say of a write that comes in pieces: for a firmware entry those of R501, else steps 1 to 4. -/
def openCheck (s : State) (r : DictRequest) : Nat :=
  if isFirmwareIndex r.index then firmwareCheck s r.index else checkRequest s r

/-- The longest value that an entry takes. -/
def entryRoom (s : State) (index sub : Nat) : Nat :=
  if isFirmwareIndex index then stagingRoom s
  else match entryAt index sub with
    | some e => e.len
    | none => 0

/-- The opening of a segmented write (R511, R512). -/
def openWrite (s : State) (r : DictRequest) (tag : Byte) (total : Nat) : State × Option Answer :=
  let c := openCheck s r
  let c := if c != stOk then c
    else if entryRoom s r.index r.sub < total then stTooLong
    else if s.dresser.transfer.isSome then stBusy
    else stOk
  let s := if c != stOk then s
    else { s with dresser := { s.dresser with
      transfer := some { tag := tag, write := true, index := r.index, sub := r.sub, total := total, data := [], next := 0,
                         sent := 0 } } }
  (s, some { status := c, typ := answerType r.index r.sub, value := [] })

/-- A staging belongs to a piece (R514). -/
def stagingOf (pkt : Packet) (r : DictRequest) (g : Staging) : Bool :=
  g.smid = pkt.smid && g.sport = pkt.sport && g.index = r.index && g.sub = r.sub

/-- A piece of a fabric write (R514): FIRST and LAST are flags of the packet. -/
def fabricPiece (s : State) (r : DictRequest) (pkt : Packet) : State × Option Answer :=
  let first := (leAt pkt.payload 1 1).testBit 0
  let last := (leAt pkt.payload 1 1).testBit 1
  let drop (s : State) : State :=
    { s with dresser := { s.dresser with stagings := s.dresser.stagings.filter fun g => !stagingOf pkt r g } }
  let answer (s : State) (st : Nat) : State × Option Answer :=
    (s, some { status := st, typ := answerType r.index r.sub, value := [] })
  let c := openCheck s r
  if c != stOk then answer (drop s) c
  else
    let have' := s.dresser.stagings.find? (stagingOf pkt r)
    if first && r.offset != 0 then answer (drop s) stSequence
    else
      let old := if first then some [] else have'.map (·.data)
      match old with
      | none => answer s stSequence
      | some bytes =>
        let bytes := bytes ++ r.data
        if !first && r.offset + r.data.length != bytes.length then answer (drop s) stSequence
        else if entryRoom s r.index r.sub < bytes.length then answer (drop s) stTooLong
        else if last then wholeRequest (drop s) { r with data := bytes, offset := 0 }
        else
          let s := drop s
          if 4 ≤ s.dresser.stagings.length then answer s stBusy
          else
            let g : Staging := { smid := pkt.smid, sport := pkt.sport, index := r.index, sub := r.sub, data := bytes }
            answer { s with dresser := { s.dresser with stagings := s.dresser.stagings ++ [g] } } stOk

/-- Executes the request whose turn it is. -/
def runRequest (s : State) (r : DictRequest) : State × Option Answer :=
  match r.route with
  | .serviceOpen tag total => openWrite s r tag total
  | .fabric pkt =>
    if r.cmd = 2 && leAt pkt.payload 1 1 % 4 != 3 then fabricPiece s r pkt
    else if r.cmd = 2 && r.offset != 0 then
      let c := openCheck s r
      (s, some { status := if c != stOk then c else stSequence, typ := answerType r.index r.sub, value := [] })
    else wholeRequest s r
  | _ => wholeRequest s r

/-- The READ that waits for the bridge has its answer, or has lost it: the bridge is DOWN, or was since, and the spec does not say
what the entry then reads as (R38, R51, R501). -/
def readSettles (s : State) (r : DictRequest) : Option (State × Answer) :=
  match entryAt r.index r.sub with
  | none => none
  | some e =>
    match takeAnswer s .dresser (.entry r.index r.sub) with
    | some (s, bs, failed) => some (s, readAnswer e (if failed then stStorePoisoned else stOk) bs)
    | none =>
      if targetLost s .dresser (.entry r.index r.sub) then
        let f := freeBytes s e.len
        some (f.1, readAnswer e stOk f.2)
      else none

/-- The next request of the dresser is executed: the state after it, and its request and answer where it has one. A READ of an
entry of the scan die goes through the bridge, behind the dresser's writes (R38, R42, R501). None where nothing can go on: the
queue is empty, or a request waits for firmware, for the bridge or for its credits (R48). -/
def dictStep (s : State) : Option (State × Option (DictRequest × Answer)) :=
  match s.dresser.reading with
  | some r => (readSettles s r).map fun x => ({ x.1 with dresser := { x.1.dresser with reading := none } }, some (r, x.2))
  | none =>
    if s.dresser.firmware.isSome || stalledAtBridge s .dresser then none
    else
      match s.dresser.queue with
      | [] => none
      | r :: rs =>
        let s := { s with dresser := { s.dresser with queue := rs } }
        match readAcross s r with
        | some e =>
          some (issueToScan { s with dresser := { s.dresser with reading := some r } }
            (.readRequest .dresser (.entry r.index r.sub) e.len), none)
        | none =>
          let x := runRequest s r
          some (x.1, x.2.map fun a => (r, a))

/-- Executes the requests that wait, in order, as far as they go (R501). -/
def dictPump : Nat → State → State
  | 0, s => s
  | fuel + 1, s =>
    match dictStep s with
    | none => s
    | some (s, none) => s
    | some (s, some (r, a)) => dictPump fuel (deliverAnswer s r a)

/-- Goes on with what waits. -/
def pumpAll (s : State) : State := dictPump (s.dresser.queue.length + 1) s

/-- A request's reception completes: it takes its turn behind those that wait (R501). -/
def submit (s : State) (r : DictRequest) : State :=
  pumpAll { s with dresser := { s.dresser with queue := s.dresser.queue ++ [r] } }

/-- The waiting firmware request ends with an answer. -/
def endFirmware (s : State) (r : DictRequest) (a : Answer) : State :=
  let s := setF { s with dresser := { s.dresser with firmware := none } } HS_ODFW1_VALID 0
  pumpAll (deliverAnswer s r a)

/-- FIRMWARE_ANSWER: a write of HS_ODFWANS; with no request waiting it is discarded. The type code of the value is not stated
(R501). -/
def firmwareAnswer (s : State) (status : Word) : State :=
  match s.dresser.firmware with
  | none => s
  | some r =>
    let len := getF s HS_ODFW1_LEN
    let f := takeFresh s
    let typ := Config.freeNat f.1 % 256
    if r.cmd = 2 || status != 0 then endFirmware f.2 r { status := status.toNat, typ := typ, value := [] }
    else if stagingRoom s < len then endFirmware f.2 r { status := stTooLong, typ := typ, value := [] }
    else
      let v := loadValueWords f.2 (1024 * getF s HS_ODSTG_FIRST) len
      endFirmware v.1 r { status := stOk, typ := typ, value := v.2 }

/-- FIRMWARE_ANSWER_TIMEOUT (R501). -/
def firmwareTimeout (s : State) : State :=
  match s.dresser.firmware with
  | none => s
  | some r => endFirmware s r { status := stHouseUnavailable, typ := 0, value := [] }

/-- A request that came as a command of its own. -/
def plainRequest (cls : PortClass) (egr : Bool) (cmd index sub : Nat) (data : List Byte) : DictRequest :=
  { cls := cls, egr := egr, cmd := cmd, index := index, sub := sub, data := data, offset := 0, len := data.length,
    poison := false, route := if cls = .bench then .bench else .plain }

/-! ### House requests -/

/-- HOUSE_REQUEST_GO (R502): the registers hold the request; a write's words are read now. While BUSY the GO is ignored and
counted in HS_RSVWR. -/
def houseGo (s : State) : State :=
  if flag s HS_ODSTAT_BUSY then countReserved s
  else
    let cmd := getF s HS_ODREQ_CMD
    let len := getF s HS_ODLEN_LEN
    let base := getF s HS_ODBUF_BUF
    let words := if cmd = 2 then ceilDiv len 4 else 0
    let x := (List.range words).foldl (fun (acc : State × List Byte × Bool) i =>
      if base + i < 0x80000 then
        let y := sramLoad acc.1 0 (base + i)
        match y.2 with
        | some w => (y.1, acc.2.1 ++ leBytes 4 (payload w).toNat,
            acc.2.2 || (tagOf w).toNat = 0 || 7 < (tagOf w).toNat)
        | none => (y.1, acc.2.1, true)
      else (acc.1, acc.2.1, true)) (s, [], false)
    submit (setF x.1 HS_ODSTAT_BUSY 1)
      { cls := .house, egr := false, cmd := cmd, index := getF s HS_ODREQ_INDEX, sub := getF s HS_ODREQ_SUB,
        data := x.2.1.take len, offset := 0, len := len, poison := x.2.2, route := .house }

/-- A register write at its destination. -/
def regWrite (s : State) (src : Src) (a : Nat) (w : Word) : State :=
  if a = HS_ODFWANS then firmwareAnswer s w
  else
    let busy := flag s HS_ODSTAT_BUSY
    let t := regWriteBase s src a w
    if a = HS_ODCTL && w.getLsbD 0 then (if busy then countOnce s (countReserved t) else houseGo t) else t

/-! ### The service bus -/

/-- A frame is for this module (R509). -/
def frameForMe (s : State) (id : BitVec 29) : Bool :=
  flag s HS_SVCCTL_EN && natBits id.toNat 28 14 = 0xD * 2 ^ 11 && natBits id.toNat 13 0 = serviceAddress s

/-- SERVICE_REQUEST (R510 to R512). -/
def serviceRequest (s : State) (id : BitVec 29) (data : List Byte) : State :=
  let cmd := leAt data 0 1
  let tag : Byte := BitVec.ofNat 8 (leAt data 1 1)
  let len := leAt data 6 1
  let base : DictRequest :=
    { cls := .service, egr := false, cmd := cmd, index := leAt data 2 2, sub := leAt data 4 1,
      data := [], offset := 0, len := len, poison := false, route := .service tag }
  if !frameForMe s id || data.length < 8 || cmd = 0 || 3 < cmd then s
  else if s.dresser.transfer.isSome then
    deliverAnswer s base { status := stBusy, typ := answerType base.index base.sub, value := [] }
  else if cmd = 2 && (leAt data 5 1).testBit 0 then submit s { base with route := .serviceOpen tag (leAt data 8 4) }
  else if cmd = 2 && 56 < len then
    let c := openCheck s base
    deliverAnswer s base { status := if c != stOk then c else stTooLong, typ := answerType base.index base.sub, value := [] }
  else submit s { base with data := if cmd = 2 then (data.drop 8).take len else [] }

/-- Ends the open transfer. -/
def dropTransfer (s : State) : State := { s with dresser := { s.dresser with transfer := none } }

/-- SEGMENT (R511): the next one is taken in; another is discarded and acknowledged at once with NEXT. -/
def segment (s : State) (id : BitVec 29) (data : List Byte) : State :=
  match s.dresser.transfer with
  | none => s
  | some t =>
    if !frameForMe s id || leAt data 0 1 != 5 || leAt data 1 1 != t.tag.toNat || !t.write then s
    else if leAt data 2 2 != t.next then sendAck s t.tag t.next stOk
    else
      let n := min 60 (t.total - 60 * t.next)
      let t' := { t with data := t.data ++ (data.drop 4).take n, next := t.next + 1 }
      if t.total ≤ 60 * t'.next then
        submit (dropTransfer s)
          { cls := .service, egr := false, cmd := 2, index := t.index, sub := t.sub, data := t'.data, offset := 0,
            len := t.total, poison := false, route := .serviceAck t.tag t'.next }
      else
        let s := { s with dresser := { s.dresser with transfer := some t' } }
        if t'.next % 16 = 0 then sendAck s t.tag t'.next stOk else s

/-- Sends segments `lo` to `hi - 1` of a transfer. -/
def sendSegments (s : State) (t : Transfer) (lo hi : Nat) : State :=
  (List.range (hi - lo)).foldl (fun s i =>
    sendService s ([0x05, t.tag] ++ leBytes 2 (lo + i) ++ (t.data.drop (60 * (lo + i))).take 60)) s

/-- SERVICE_ACK (R511): it paces a read, makes the module send again, or ends the transfer. -/
def serviceAck (s : State) (id : BitVec 29) (data : List Byte) : State :=
  match s.dresser.transfer with
  | none => s
  | some t =>
    let next := leAt data 2 2
    let segs := ceilDiv t.total 60
    if !frameForMe s id || leAt data 0 1 != 6 || leAt data 1 1 != t.tag.toNat || t.write then s
    else if t.sent < next then sendAbort (dropTransfer s) t.tag stSequence
    else if leAt data 4 4 != stOk || next = segs then dropTransfer s
    else
      let hi := min segs (next + 16)
      sendSegments { s with dresser := { s.dresser with transfer := some { t with sent := hi } } } t next hi

/-- SERVICE_ABORT (R510). -/
def serviceAbort (s : State) (id : BitVec 29) (data : List Byte) : State :=
  match s.dresser.transfer with
  | none => s
  | some t =>
    if frameForMe s id && leAt data 0 1 = 4 && leAt data 1 1 = t.tag.toNat then dropTransfer s else s

/-- TRANSFER_TIMEOUT (R512). -/
def transferTimeout (s : State) : State :=
  match s.dresser.transfer with
  | none => s
  | some t => sendAbort (dropTransfer s) t.tag stTransferTimeout

/-- The bus goes off (R515, R516): TEC stands beyond its field meanwhile. -/
def goesBusOff (s : State) : State :=
  let f := takeFresh s
  raiseEvent (setF (setF f.2 HS_SVCSTAT_BSTATE 2) HS_SVCSTAT_TEC (Config.freeNat f.1)) 75 HS_ODSTAT_BUSOFFEV

/-- Error passive while a count is 128 or more, error active below (R508, R516). -/
def refreshBusState (s : State) : State :=
  setF s HS_SVCSTAT_BSTATE (b2n (128 ≤ getF s HS_SVCSTAT_TEC || 128 ≤ getF s HS_SVCSTAT_REC))

/-- The receive count after good reception: one less; from 128 or more, some value of 119 to 127. -/
def lowerRec (s : State) : State :=
  let n := getF s HS_SVCSTAT_REC
  if n < 128 then setF s HS_SVCSTAT_REC (n - 1)
  else
    let f := takeFresh s
    setF f.2 HS_SVCSTAT_REC (119 + Config.freeNat f.1 % 9)

/-- What an event of the bus makes of the error counts and of the bus state (R508, R515, R516). PRESUMED (log entry 119): the spec
names ISO 11898-1 for error confinement, and these are that standard's counts. -/
def busOff (s : State) (e : BusEvent) : State :=
  if !flag s HS_SVCCTL_EN then s
  else if getF s HS_SVCSTAT_BSTATE = 2 then
    if e = .recovered then setF (setF (setF s HS_SVCSTAT_BSTATE 0) HS_SVCSTAT_TEC 0) HS_SVCSTAT_REC 0 else s
  else
    match e with
    | .sendError =>
      if 255 < getF s HS_SVCSTAT_TEC + 8 then goesBusOff s
      else refreshBusState (setF s HS_SVCSTAT_TEC (getF s HS_SVCSTAT_TEC + 8))
    | .receiveError => refreshBusState (setF s HS_SVCSTAT_REC (min 255 (getF s HS_SVCSTAT_REC + 1)))
    | .dominantAfterFlag => refreshBusState (setF s HS_SVCSTAT_REC (min 255 (getF s HS_SVCSTAT_REC + 8)))
    | .sent => refreshBusState (setF s HS_SVCSTAT_TEC (getF s HS_SVCSTAT_TEC - 1))
    | .received => refreshBusState (lowerRec s)
    | .recovered => s

/-! ### The fabric -/

/-- The request that a packet on QID 1 carries (R513). -/
def fabricRequestOf (p : Packet) : DictRequest :=
  let b := p.payload
  let len := leAt b 12 4
  { cls := if p.cls = 2 then .ctrl else if p.cls = 3 then .bench else .peer, egr := p.egr, cmd := leAt b 0 1,
    index := leAt b 2 2, sub := leAt b 4 1, data := if leAt b 0 1 = 2 then (b.drop 16).take len else [],
    offset := leAt b 8 4, len := len, poison := false, route := .fabric p }

/-- FABRIC_REQUEST: the oldest item of QID 1 takes its place in the queue's window, and requests execute in SEQ order; an item
too short for the head counts as BADQ (R426, R513). -/
def fabricRequest (s : State) : State :=
  match takeWindow s 1 with
  | none => s
  | some (s, ps) => ps.foldl (fun s p => if p.payload.length < 16 then countBadQ s else submit s (fabricRequestOf p)) s

/-- STAGING_TIMEOUT (R514). -/
def stagingTimeout (s : State) (slot : Fin 4) : State :=
  { s with dresser := { s.dresser with stagings := s.dresser.stagings.eraseIdx slot.val } }

/-! ### Results -/

/-- RESULT_READY: the operation of a result entry ends (R506). -/
def resultReady (s : State) (sealing : Bool) : State :=
  let done : ResultState → ResultState
    | .running v => .ready v
    | r => r
  if sealing then { s with dresser := { s.dresser with sealing := done s.dresser.sealing } }
  else { s with dresser := { s.dresser with verifying := done s.dresser.verifying } }

end Sys2Proof.Machine
end

