-- ==== Sys2Proof/Machine/Dma.lean ====
section
/-! DEFINITION. The DMA engine at work: bursts, completion and the chain (R369, R372 to R375). -/

namespace Sys2Proof.Machine

/-- Swaps within an element (R369). -/
def swapWord (k : Nat) (w : Word) : Word :=
  let b (i : Nat) : Nat := bitsOf w (8 * i + 7) (8 * i)
  match k with
  | 0 => w
  | 1 => BitVec.ofNat 32 (b 2 * 2 ^ 24 + b 3 * 2 ^ 16 + b 0 * 2 ^ 8 + b 1)
  | 2 => BitVec.ofNat 32 (b 1 * 2 ^ 24 + b 0 * 2 ^ 16 + b 3 * 2 ^ 8 + b 2)
  | _ => BitVec.ofNat 32 (b 0 * 2 ^ 24 + b 1 * 2 ^ 16 + b 2 * 2 ^ 8 + b 3)

/-- The source of a channel's descriptor is reached through the bridge. -/
def DmaCh.bridged (c : DmaCh) : Bool := c.field 0 1 0 = 1 || dmaRange (c.element false 0) = some 3

/-- What element `i` of a source behind the bridge is read as (R368, R373). -/
def DmaCh.sourceTarget (c : DmaCh) (i : Nat) : Target :=
  let a := c.element false i
  if c.field 0 1 0 = 1 then .dram a else .register a

/-- Reads element `i` of a source on the house die: the word, with its tag where it is raw, or the cause of a halt (R369,
R375). -/
def dmaReadElement (s : State) (n i : Nat) : State × Except Nat Tagged :=
  let c := dmaCh s n
  let a := c.element false i
  if dmaRange a = some 0 then
    let r := sramLoad s 0 a
    match r.2 with
    | none => (r.1, .error 3)
    | some w =>
      if c.field 0 8 8 = 1 then (r.1, .ok w)
      else if tagOf w = 0 || 8 ≤ (tagOf w).toNat then (r.1, .error 4)
      else (r.1, .ok (intWord (payload w)))
  else
    let r := regRead s (dmaSrc n) a
    (r.1, .ok (intWord r.2))

/-- One more element of a channel is written. -/
def dmaCountApplied (s : State) (n : Nat) : State := setDma s n { dmaCh s n with applied := (dmaCh s n).applied + 1 }

/-- A channel issues a PW: what it had in flight that was no element is past where nothing of it is in flight. -/
def dmaIssue (s : State) (n : Nat) (m : Msg) : State :=
  issueToScan (if sourceQuiet s (dmaSrc n) then setDma s n { dmaCh s n with skip := 0 } else s) m

/-- Writes element `i`: at once on the house die, else as a PW; false where the bridge is DOWN (R373, R375). -/
def dmaWriteElement (s : State) (n i : Nat) (w : Tagged) : State × Bool :=
  let c := dmaCh s n
  let a := c.element true i
  let v := swapWord (c.field 0 7 6) (payload w)
  if c.field 0 3 2 = 1 then (dmaIssue s n (.dramWrite (dmaSrc n) a (leBytes 4 v.toNat)), !bridgeDown s)
  else if dmaRange a = some 3 then (dmaIssue s n (.regWrite (dmaSrc n) a v), !bridgeDown s)
  else if dmaRange a = some 0 then
    (dmaCountApplied (sramStore s 0 a (if c.field 0 8 8 = 1 then w else intWord v)) n, true)
  else (regWrite (dmaCountApplied s n) (dmaSrc n) a v, true)

/-- An element that has been read is written, or the channel halts and writes no part of it (R375). -/
def dmaPutElement (s : State) (n : Nat) (w : Except Nat Tagged) : State :=
  let c := dmaCh s n
  match w with
  | .error cause => dmaHalt s n cause (c.element false c.moved)
  | .ok w =>
    let x := dmaWriteElement (setDma s n { c with moved := c.moved + 1 }) n c.moved w
    if x.2 then x.1 else dmaHalt x.1 n 6 (c.element true c.moved)

/-- Moves the elements of a burst that remain: `k` of them; it stops where the channel halts (R375). -/
def dmaMove (s : State) (n : Nat) : Nat → State
  | 0 => s
  | k + 1 =>
    if (dmaCh s n).phase != .moving then s
    else
      let r := dmaReadElement s n (dmaCh s n).moved
      dmaMove (dmaPutElement r.1 n r.2) n k

/-- The reads of a burst whose source is behind the bridge are issued together (R38; log entry 55). -/
def dmaAsk (s : State) (n k : Nat) : State :=
  let c := dmaCh s n
  (List.range k).foldl (fun s i => issueToScan s (.readRequest (dmaSrc n) (c.sourceTarget (c.moved + i)) 4))
    (setDma s n { c with asked := k })

/-- Takes the answers of a burst that have come, in order, and moves their elements; `fuel` bounds their number. -/
def dmaTake (s : State) (n : Nat) : Nat → State
  | 0 => s
  | fuel + 1 =>
    let c := dmaCh s n
    if c.asked = 0 then s
    else
      match takeAnswer s (dmaSrc n) (c.sourceTarget c.moved) with
      | none => s
      | some (s, bs, failed) =>
        let s := setDma s n { dmaCh s n with asked := c.asked - 1 }
        dmaTake (dmaPutElement s n (if failed then .error 3 else .ok (intWord (BitVec.ofNat 32 (leAt bs 0 4))))) n fuel

/-- All elements of a descriptor are issued: the channel waits for their writes (R374). -/
def dmaBurstEnd (s : State) (n : Nat) : State :=
  let c := dmaCh s n
  if c.phase = .moving && c.asked = 0 && c.count ≤ c.moved then setDma s n { c with phase := .applying } else s

/-- A channel with a released burst that the engine can move now, not stalled at its credits (R48, R372). -/
def dmaReady (s : State) (n : Nat) : Bool :=
  let c := dmaCh s n
  c.phase = .moving && !dmaHeldByAudio s n && dmaReleased s n && !stalledAtBridge s (dmaSrc n)

/-- The channel served last among those of a priority. -/
def dmaLastOf (s : State) (prio : Nat) : Nat := s.dmaLast.toList.getD prio 31

/-- Highest PRIO first; among equals, the channel that follows the one served last of their priority (R373). -/
def dmaChoice (s : State) : Option Nat :=
  ([3, 2, 1, 0] : List Nat).findSome? fun prio =>
    ((List.range 32).map fun i => (dmaLastOf s prio + 1 + i) % 32).find? fun n =>
      dmaReady s n && getF s (DMA_CHCTL_PRIO n) = prio

/-- The beam has stopped since a beam-paced descriptor was loaded (R372). -/
def beamWithdrawn (s : State) (c : DmaCh) : Bool := c.field 0 11 9 = 2 && (!beamRuns s || s.beam.stops != c.stops)

/-- The engine's turn begins: descriptors and elements whose reads have come are taken, beam pacing without a beam halts, and
halts that waited are carried out (R370, R372, R375). -/
def dmaSettle (s : State) (n : Nat) : State :=
  let c := dmaCh s n
  match c.phase with
  | .loading => dmaLoad s n
  | .fetching => dmaFetched s n
  | .moving => if beamWithdrawn s c then dmaHalt s n 8 (getF s (DMA_CHCUR_ADDR n)) else dmaBurstEnd (dmaTake s n c.asked) n
  | .halting cause _ => dmaSettleHalt (if cause = 7 then dmaTake s n c.asked else dropAnswers s (dmaSrc n)) n
  | _ => s

/-- A burst whose reads are out: the engine serves no other until it is done (R373). -/
def dmaEngaged (s : State) : Bool := s.dma.any fun c => c.asked != 0

/-- DMA_BURST: the engine moves one released burst; with its source behind the bridge the burst's reads go out, and its elements
move as their answers come (R372, R373). -/
def dmaBurst (s : State) : State :=
  let s := (List.range 32).foldl dmaSettle s
  if dmaEngaged s then s
  else
    match dmaChoice s with
    | none => s
    | some n =>
      let c := dmaCh s n
      let k := min (c.field 3 31 24 + 1) (c.count - c.moved)
      let paced := c.field 0 11 9 = 1 || c.field 0 11 9 = 3
      let c := { c with bursts := c.bursts + 1, credits := if paced then c.credits - 1 else c.credits }
      let s := { setDma s n c with dmaLast := s.dmaLast.setIfInBounds (getF s (DMA_CHCTL_PRIO n)) n }
      dmaBurstEnd (if c.bridged then dmaAsk s n k else dmaMove s n k) n

/-- Step 3 and 4 of R374: DONES, the pulses, and the next descriptor. -/
def dmaFinish (s : State) (n : Nat) : State :=
  let c := dmaCh s n
  let s := countWrapF s (DMA_CHSTAT_DONES n) 1
  let s := if c.field 0 21 21 = 1 then eventLine s n else s
  let s := if c.field 0 20 20 = 1 then pulse s n else s
  if c.field 0 23 23 = 1 then setF (setDma s n { dmaCh s n with phase := .idle }) (DMA_CHSTAT_BUSY n) 0
  else dmaNext s n (c.field 6 31 0) (c.field 0 25 24 = 1)

/-- Step 2 of R374. -/
def dmaWriteDone (s : State) (n : Nat) : State :=
  let c := dmaCh s n
  if !c.wb then dmaFinish s n
  else
    let r := dmaWriteback s n 1
    if !r.2 then dmaHalt s n 6 (getF s (DMA_CHCUR_ADDR n) + 28)
    else if c.inDram then setDma r.1 n { dmaCh r.1 n with phase := .writeback }
    else dmaFinish r.1 n

/-- DMA_COMPLETE: the writes of a descriptor have applied, or its write of word 7, or those that a halt waits for (R374, R375). -/
def dmaComplete (s : State) (n : Nat) : State :=
  let c := dmaCh s n
  match c.phase with
  | .halting .. => dmaSettleHalt s n
  | .applying =>
    if !dmaQuiet s n then s
    else if c.applied < c.count then dmaHalt s n 6 (c.element true c.applied)
    else dmaWriteDone s n
  | .writeback => if dmaQuiet s n then dmaHalt s n 6 (getF s (DMA_CHCUR_ADDR n) + 28) else s
  | .written => dmaFinish s n
  | _ => s

/-- A read of a channel through the bridge fails 20 µs after its issue where the bridge is DOWN (R51, R375). -/
def dmaTimedOut (s : State) (n : Nat) : State :=
  let c := dmaCh s n
  if !readLost s (dmaSrc n) then s
  else if c.phase = .fetching then dmaHalt s n 5 (getF s (DMA_CHCUR_ADDR n))
  else if c.asked != 0 then dmaHalt s n 5 (c.element false c.moved)
  else s

end Sys2Proof.Machine
end

