-- ==== Sys2Proof/Machine/Bus.lean ====
section
/-! DEFINITION. What messages do at their destination: posted writes, commits, read requests and their answers, the
sorter's turn, and the loads of a core that the bridge answers (R41 to R44, R51, R106, R127, R180, R313). -/

namespace Sys2Proof.Machine

/-! ### Posted writes -/

/-- A posted write for the scan die. -/
def isPosted : Msg → Bool
  | .regWrite .. | .regBits .. | .dramWrite .. | .immPut .. | .immClear .. | .fault _ | .key .. | .beacon _ => true
  | _ => false

/-- A message of a counter whose later PWs wait: it has a commit that is not reported, or messages that wait already (R180). -/
def sourceWaits (s : State) (m : Msg) : Bool :=
  match msgSource m with
  | none => false
  | some src => s.comp.commits.any (fun c => decide (c.src = src)) || s.comp.behind.any (fun x => msgSource x = some src)

/-- A message that waits behind a commit of its counter: a PW, or a CM that would else pass PWs that wait (R43, R180). -/
def waitsBehind (s : State) (m : Msg) : Bool :=
  match m with
  | .commit src .. => s.comp.behind.any fun x => msgSource x = some src
  | _ => isPosted m && sourceWaits s m

/-- Moves the arrived messages that wait behind a commit out of the buffers, in order, up to 4,096 PWs in all; then the bridge
stalls the source: its next PW stays, and so do the messages of its source behind it, for the drawer engine those of every
scene queue (R180). `keep` holds the messages that stay, newest first. -/
def parkArrived (s : State) (keep : List Msg) : List Msg → State
  | [] => setArrived s keep.reverse
  | m :: ms =>
    if waitsBehind s m && (!isPosted m || (s.comp.behind.filter isPosted).length < 4096) &&
        !(keep.any fun x => msgLink x = msgLink m) then
      parkArrived { s with comp := { s.comp with behind := s.comp.behind ++ [m] } } keep ms
    else parkArrived s (m :: keep) ms

/-- The first message of a list that passes a test and that no earlier message of its bridge source stands before, with the
rest (R41 to R44). -/
def pickFirst (ok : Msg → Bool) (before : List Msg) : List Msg → Option (Msg × List Msg)
  | [] => none
  | m :: ms =>
    if ok m && !(before.any fun x => msgLink x = msgLink m) then some (m, before.reverse ++ ms)
    else pickFirst ok (m :: before) ms

/-- A DRAM write of a source: watched by the guard windows, credited to a commit source once its entries are evaluated, or
at once where it touches none (R128, R176, R177, R191). -/
def applyDramWrite (s : State) (src : Src) (a : Nat) (bytes : List Byte) : State :=
  let w : Writer := { req := srcId src, guarded := true, hutch := decide (src = .hutch) }
  let credit := if isCommitSource src then some src else none
  let silent := dramTop < a || (entriesTouched s a (bytes.take (dramTop + 1 - a)).length).isEmpty
  let s' := dramWrite s w credit a bytes
  if silent then creditWrite s' src else s'

/-- A posted write takes its effect at the scan die and is counted (R41, R176). -/
def applyPosted (s : State) (m : Msg) : State :=
  match m with
  | .regWrite src a v => creditScene (regWrite s src a v) src a
  | .regBits src a mask v => creditScene (regWriteBits s src a mask v) src a
  | .dramWrite src a bytes => applyDramWrite s src a bytes
  | .immPut src w0 w1 w2 w3 => creditWrite (immPut s { w0, w1, w2, w3 }) src
  | .immClear src => creditWrite (immClear s) src
  | .fault bit => fatalFault s bit
  | .key slot k => loadDecoders s slot k
  | .beacon fix => acceptBeacon s fix
  | _ => s

/-- The write can apply now: it waits behind no commit, and a DRAM write waits while the sorter's queue is full (R127, R180). -/
def canApply (s : State) (m : Msg) : Bool :=
  isPosted m && !sourceWaits s m && match m with
    | .dramWrite _ a bytes => !sorterFull s a bytes.length
    | _ => true

/-- What follows once a write has applied: its DMA channel counts it, and the dresser goes on where it waited for its writes or
for credits (R42, R48, R374, R501). -/
def afterPosted (s : State) (m : Msg) : State :=
  pumpAll (match msgSource m with
    | some (.dma n) => dmaApplied s n.val
    | _ => s)

/-- PW_APPLY at the scan die: the next PW that may apply (R41, R44, R180). -/
def applyAtScan (s : State) : State :=
  let s := parkArrived s [] s.bridge.toScan.arrived
  match pickFirst (canApply s) [] s.bridge.toScan.arrived with
  | some (m, rest) => afterPosted (applyPosted (setArrived s rest) m) m
  | none => s

/-- A message of the scan die that is no answer to a read. -/
def isEvent : Msg → Bool
  | .edge _ | .record _ | .result _ | .binding .. => true
  | _ => false

/-- The report of a commit comes to the house die: the drawer engine sends its result item, unless a house-die reset has ended the
commit (R183, R430, R442). -/
def takeResult (s : State) (r : Result) : State :=
  if keepsCommit s r.src r.epoch then
    postResult { s with bridge := { s.bridge with commits := dropSent s.bridge.commits r.src r.epoch } } r.reply r.payload
  else s

/-- PW_APPLY at the house die: the next edge, record, result or binding row (R38, R358, R474, R578). -/
def applyAtHouse (s : State) : State :=
  match s.bridge.toHouse.arrived.find? isEvent with
  | some m =>
    let s := setArrivedHouse s (s.bridge.toHouse.arrived.erase m)
    match m with
    | .edge n => { s with hic := { s.hic with edges := s.hic.edges ++ [n] } }
    | .record r => enqueueRecord s r 0
    | .result r => takeResult s r
    | .binding frame voice centre => { s with audio := { s.audio with rows := s.audio.rows ++ [{ frame, voice, centre }] } }
    | _ => s
  | none => s

/-- PW_APPLY (R41). -/
def pwApply (s : State) : Die → State
  | .scan => applyAtScan s
  | .house => applyAtHouse s

/-- A CM that may be taken: no PW of its counter waits (R43, R180). -/
def mayArrive (s : State) (m : Msg) : Bool :=
  match m with
  | .commit .. => !waitsBehind s m
  | _ => false

/-- CM_ARRIVAL: the next CM, once no earlier message of its source stands before it (R43, R179). -/
def cmArrival (s : State) : State :=
  let s := parkArrived s [] s.bridge.toScan.arrived
  match pickFirst (mayArrive s) [] s.bridge.toScan.arrived with
  | some (.commit src epoch tframe stream wcount reply, rest) =>
    commitArrives (setArrived s rest) src epoch tframe stream wcount reply
  | _ => s

/-! ### Reads -/

/-- A BEAM word: LINE, FRAC and the low byte of FRAME (R300). -/
def beamWord (line frac frame : Nat) : Nat := line % 65536 * 65536 + frac % 256 * 256 + frame % 256

/-- BNOW: a line index of 65,536 or more reads as LINE 0xFFFF and FRAC 0xFF (R342). -/
def beamNowWord (s : State) : Nat :=
  if 65536 ≤ s.beam.line then beamWord 0xFFFF 0xFF s.beam.frame.toNat
  else beamWord s.beam.line s.beam.frac s.beam.frame.toNat

/-- TRWALK: the fields of a BEAMPOS as a BEAM word (R218). -/
def walkWord (p : BitVec 64) : Nat := beamWord (natBits p.toNat 31 16) (natBits p.toNat 15 8) (natBits p.toNat 63 32)

/-- TRGET reads a line of the line table: of a stream and a unit that are present, within the raster (R353). -/
def trgetReads (s : State) (st u l : Nat) : Bool :=
  decide (st < feedCount s.variant) && unitPresent s u && (match s.area with
    | some a => decide (l < a.h)
    | none => false)

/-- The value of TRGET (R218, R353). -/
def trgetValue (s : State) (st u l target : Nat) : Nat :=
  if feedCount s.variant ≤ st || !unitPresent s u then 0
  else unsignedOf 32 (overrideValue s st u l target)

/-- A read at the scan die: its bytes, and whether it failed (R42, R313). -/
def readTarget (s : State) (src : Src) (t : Target) (len : Nat) : State × List Byte × Bool :=
  match t with
  | .register a =>
    let r := regRead s src a
    (r.1, leBytes 4 r.2.toNat, false)
  | .dram a =>
    if dramTop < a + len - 1 then (s, List.replicate len 0, true)
    else (touchUnits s (unitsOf a len) (srcId src), dramBytes s a len, extentBad s a len)
  | .entry index sub =>
    match entryAt index sub with
    | none => (s, [], true)
    | some e =>
      let r := entryValue s e
      (r.1, r.2.2, r.2.1 != stOk)
  | .beamNow => (s, leBytes 4 (beamNowWord s), false)
  | .override st u target l => (if trgetReads s st u l then readTable s st l else s, leBytes 4 (trgetValue s st u l target), false)
  | .walkDone => (s, leBytes 4 (walkWord s.trestle.donePos), false)

/-- A read request waits behind the PWs of its source that have not applied (R42). -/
def readMayGo (s : State) (m : Msg) : Bool :=
  match m with
  | .readRequest .. => !(s.comp.behind.any fun x => isPosted x && msgLink x = msgLink m)
  | _ => false

/-- RD_REQUEST: the next read that may go is done and its answer leaves for the house die (R42). -/
def rdRequest (s : State) : State :=
  match pickFirst (readMayGo s) [] s.bridge.toScan.arrived with
  | some (.readRequest src t len, rest) =>
    let r := readTarget (setArrived s rest) src t len
    sendToHouse r.1 (.readResponse src t r.2.1 r.2.2)
  | _ => s

/-! ### Loads that a core waits for -/

/-- A core issues a load that the bridge answers, and stalls (R313). While the bridge is DOWN nothing crosses it, and the read
fails at its timeout (R51). -/
def stallOn (s : State) (n : Fin 4) (w : LoadWait) (len : Nat) : State :=
  let s := setCore s n { coreOf s n with stalled := some w }
  issueToScan s (.readRequest (.core n) w.target len)

end Sys2Proof.Machine
end

