-- ==== Sys2Proof/Machine/CoreExec.lean ====
section
/-! DEFINITION. How a core runs one instruction: fetch checks, operand checks in order, its end, repeats; loads and stores by
target; the flags (R301 to R328, R332 to R337, R347). -/

namespace Sys2Proof.Machine

/-- How an instruction ends: it goes on to the next one, with what it does beyond the core; it jumps; it traps; or it waits
for a load through the bridge. -/
inductive Ending where
  | next (c : Core) (effect : State → State)
  | jump (c : Core) (a : BitVec 24)
  | trap (t : Trap)
  | wait (w : LoadWait) (len : Nat)

/-- What an instruction does to a state, given the issuing core. -/
abbrev CoreBody := State → Core → State × Ending

/-! ### Fetch -/

/-- RPT and RA of a status word (R316). -/
def srRpt (sr : Word) : Nat := bitsOf sr 31 16

/-- A status word with RPT and RA. -/
def setRepeat (sr : Word) (rpt ra : Nat) : Word := putBits (putBits sr 31 16 rpt) 15 15 ra

/-- Where the instruction that the core issues stands: at PC, or behind the prefix at PC (R347). -/
def instrAddr (c : Core) : BitVec 24 := if c.repeating then c.pc + 1 else c.pc

/-- The fetch of one word: ADDR outside the fetchable ranges, ECCFETCH on an uncorrectable error (R304, R309). -/
def fetchWord (s : State) (n : Nat) (a : BitVec 24) : State × Option Trap :=
  match placeOf n a with
  | .sram m x =>
    let r := sramLoad s m x
    (r.1, if r.2.isNone then some (trapAt trEccFetch a) else none)
  | .rom => (s, none)
  | _ => (s, some (trapAt trAddr a))

/-- The fetch of an instruction of `len` words (R332). -/
def fetchTrap (s : State) (n : Nat) (a : BitVec 24) : Nat → State × Option Trap
  | 0 => (s, none)
  | len + 1 =>
    let r := fetchWord s n a
    match r.2 with
    | some t => (r.1, some t)
    | none => fetchTrap r.1 n (a + 1) len

/-! ### Running -/

/-- The core after an instruction of `len` words: PC moves on, or, in a repeat, RPT falls by 1, and PC moves past the prefixed
instruction when it reaches 0 (R347). -/
def advance (c : Core) (len : Nat) : Core :=
  if c.repeating then
    let rpt := (srRpt c.sr + 0xFFFF) % 0x10000
    if rpt = 0 then { c with sr := setRepeat c.sr 0 0, pc := c.pc + 1 + BitVec.ofNat 24 len, repeating := false }
    else { c with sr := setRepeat c.sr rpt 1 }
  else { c with pc := c.pc + BitVec.ofNat 24 len }

/-- An instruction's end takes its effect. -/
def finish (s : State) (n : Fin 4) (len : Nat) (pc : BitVec 24) : Ending → State
  | .next c f => f (setCore s n.val (advance c len))
  | .jump c a => setCore s n.val { c with pc := a }
  | .trap t => takeTrap s n.val t pc
  | .wait w k => stallOn s n w k

/-- The core halts again after a single step of the bench port (R528). -/
def afterIssue (s : State) (n : Nat) (step' : Bool) : State :=
  setCore s n { coreOf s n with passing := false, stepping := false, benchHalt := step' || (coreOf s n).benchHalt }

/-- Core `n` issues: `f` is what its instruction does. A core that does not issue leaves the state as it is; one that meets a
breakpoint of the bench port halts before the instruction. -/
def issue (s : State) (n : Nat) (f : State → State) : State :=
  let c := coreOf s n
  if !coreIssues s n then s
  else if c.breaks.contains c.pc && !c.passing then setCore s n { c with benchHalt := true }
  else if c.passing || c.stepping then afterIssue (f s) n c.stepping
  else f s

/-- Core `n` issues an instruction of `len` words. -/
def runInstr (s : State) (n : Fin 4) (len : Nat) (body : CoreBody) : State :=
  issue s n.val fun s =>
    let c := coreOf s n.val
    let f := fetchTrap s n.val (instrAddr c) len
    match f.2 with
    | some t => takeTrap f.1 n.val t c.pc
    | none =>
      let r := body f.1 c
      finish r.1 n len c.pc r.2

/-- An instruction that no repeat can carry (R348). -/
def runControl (s : State) (n : Fin 4) (len : Nat) (body : CoreBody) : State :=
  if (coreOf s n.val).repeating then s else runInstr s n len body

/-! ### Checks and results -/

/-- The first trap of a list of checks. -/
def firstTrap : List (Option Trap) → Option Trap
  | [] => none
  | some t :: _ => some t
  | none :: l => firstTrap l

/-- Goes on where every check passes (R302, R319). -/
def checked (s : State) (l : List (Option Trap)) (k : Unit → State × Ending) : State × Ending :=
  match firstTrap l with
  | some t => (s, .trap t)
  | none => k ()

/-- The trap of a condition. -/
def trapIf (b : Bool) (t : Trap) : Option Trap := if b then some t else none

/-- A result of a tag cannot go to a pointer register unless it is ADDR (R307). -/
def destTrap (rd : BitVec 4) (tag : BitVec 4) : Option Trap := pointerTrap rd 0xF (tagged tag 0)

/-- The core goes on. -/
def goOn (s : State) (c : Core) : State × Ending := (s, .next c id)

/-- A result is written, checked where it goes to a pointer register (R307). -/
def writeResult (s : State) (c : Core) (rd : BitVec 4) (w : Tagged) : State × Ending :=
  checked s [pointerTrap rd 0xF w] fun _ => goOn s (putReg c rd w)

/-! ### Flags -/

/-- Bits of the flags in SR (R316). -/
def flagC (sr : Word) : Bool := sr.getLsbD 11
def flagZ (sr : Word) : Bool := sr.getLsbD 10
def flagN (sr : Word) : Bool := sr.getLsbD 9
def flagV (sr : Word) : Bool := sr.getLsbD 8

/-- Writes one flag where the row lists it (R337). -/
def putFlag (sr : Word) (bit : Nat) : Option Bool → Word
  | some b => putBits sr bit bit (b2n b)
  | none => sr

/-- The flags that an instruction writes; none for a flag that it keeps (R337). -/
structure Flags where
  n : Option Bool := none
  z : Option Bool := none
  v : Option Bool := none
  c : Option Bool := none

/-- A core with flags written. -/
def withFlags (c : Core) (f : Flags) : Core :=
  { c with sr := putFlag (putFlag (putFlag (putFlag c.sr 9 f.n) 10 f.z) 8 f.v) 11 f.c }

/-- N and Z of a result (R337). -/
def flagsNZ (w : Word) : Flags := { n := some w.msb, z := some (w == 0) }

/-- N, Z and V. -/
def flagsNZV (w : Word) (v : Bool) : Flags := { flagsNZ w with v := some v }

/-- N, Z and V of AND, OR and XOR, where V is 0 (R337; DEDUCED, log entry 41). -/
def flagsLogic (w : Word) : Flags := flagsNZV w false

/-- N, Z, V and C of a sum (R337). -/
def flagsAdd (a b : Word) : Flags :=
  { flagsNZ (a + b) with
    v := some (decide ((a + b).toInt ≠ a.toInt + b.toInt)), c := some (decide (2 ^ 32 ≤ a.toNat + b.toNat)) }

/-- N, Z, V and C of a difference (R337). -/
def flagsSub (a b : Word) : Flags :=
  { flagsNZ (a - b) with
    v := some (decide ((a - b).toInt ≠ a.toInt - b.toInt)), c := some (decide (b.toNat ≤ a.toNat)) }

/-- A result with flags goes to a register of tag `tag`. -/
def resultOp (s : State) (c : Core) (rd tag : BitVec 4) (w : Word) (f : Flags) : State × Ending :=
  goOn s (putReg (withFlags c f) rd (tagged tag w))

/-- An instruction with two register operands of given tags and a result of a given tag, in the order R302 checks them. -/
def binOp (tagA tagB tagR rd ra rb : BitVec 4) (f : State → Core → Word → Word → State × Ending) : CoreBody := fun s c =>
  checked s [tagTrap 0 [tagA] (regOf c ra), tagTrap 1 [tagB] (regOf c rb), destTrap rd tagR] fun _ =>
    f s c (payload (regOf c ra)) (payload (regOf c rb))

/-- The same without a destination. -/
def cmpOp (tag ra rb : BitVec 4) (f : Word → Word → Flags) : CoreBody := fun s c =>
  checked s [tagTrap 0 [tag] (regOf c ra), tagTrap 1 [tag] (regOf c rb)] fun _ =>
    goOn s (withFlags c (f (payload (regOf c ra)) (payload (regOf c rb))))

/-- An instruction with one register operand of a given tag. -/
def unOp (tagA tagR rd ra : BitVec 4) (f : State → Core → Word → State × Ending) : CoreBody := fun s c =>
  checked s [tagTrap 0 [tagA] (regOf c ra), destTrap rd tagR] fun _ => f s c (payload (regOf c ra))

/-! ### Data addresses -/

/-- The first DRAM byte that a window word names; none where the window is off or the byte is above 0xF7FF_FFFF (R310). -/
def windowByte (s : State) (n win w : Nat) : Option Nat :=
  let a := getF s (HS_DWIN_BASE win n) * 2 ^ 22 + 4 * w
  if getF s (HS_DWIN_EN win n) = 1 && a ≤ dramTop then some a else none

/-- MRAM byte that a window word names (R311). -/
def mramWindow (s : State) (n w : Nat) : Nat := getF s (HS_MRBANK_BANK n) * 0x200000 + 4 * w

/-- The ADDR trap of a load (R309, R310). -/
def loadTrap (s : State) (n : Nat) (a : BitVec 24) : Option Trap :=
  match placeOf n a with
  | .unmapped => some (trapAt trAddr a)
  | .dram win w => if (windowByte s n win w).isNone then some (trapAt trAddr a) else none
  | _ => none

/-- The ADDR trap of a store. -/
def storeTrap (s : State) (n : Nat) (a : BitVec 24) : Option Trap :=
  match placeOf n a with
  | .rom => some (trapAt trAddr a)
  | _ => loadTrap s n a

/-- STACK of a write through SP: below SLIM or into an untagged range (R326). -/
def stackTrap (n : Nat) (c : Core) (base : BitVec 4) (a : BitVec 24) : Option Trap :=
  if base = rSP && stackBad n c a then some (trapAt trStack a) else none

/-- What a load brings: a word, or a wait for the bridge. -/
inductive Loaded where
  | word (w : Tagged)
  | bridge (t : Target)

/-- A load by target: whole words from house and local SRAM, 32 bits tagged INT from the others; from the boot ROM whole only
where `whole` says so (R301). -/
def loadWord (s : State) (n : Fin 4) (a : BitVec 24) (wholeRom : Bool) : State × Loaded :=
  match placeOf n.val a with
  | .sram m x =>
    let r := sramLoad s m x
    (r.1, .word (r.2.getD poison))
  | .rom =>
    let w := Config.bootRom (a.toNat - 0x1F0000)
    (s, .word (if wholeRom then w else intWord (payload w)))
  | .mram w =>
    let r := mramLoad s (mramWindow s n.val w)
    (r.1, .word ((r.2.map intWord).getD poison))
  | .houseReg =>
    let r := regRead s (.core n) a.toNat
    (r.1, .word (intWord r.2))
  | .scanReg => (s, .bridge (.register a.toNat))
  | .dram win w => (s, .bridge (.dram ((windowByte s n.val win w).getD 0)))
  | .unmapped => (s, .word poison)

/-- The MRAM areas that accept a core's store (R522). -/
def mramAccepts (s : State) (a : Nat) : Bool :=
  if a < 0x400000 then
    !decide (natBits s.dresser.bootStatus.toNat 1 0 = a / 0x200000) && !decide (secState s = secSeal)
  else 0x480000 ≤ a && a < 0x5FFE00

/-- A store to the MRAM window (R311, R522). -/
def mramStore (s : State) (a : Nat) (v : Word) : State :=
  if mramAccepts s a then mramPut s a (leBytes 4 v.toNat) else countF s HS_MEMSTAT_MRREF 1

/-- A register that the bridge keeps for each source (R178). -/
def isStaged (a : Nat) : Bool :=
  match regSpecAt a with
  | some (r, _) => decide (r.copies = .source)
  | none => false

/-- A store by target: whole words in house and local SRAM, the payload elsewhere (R301, R309 to R311). -/
def coreStore (s : State) (n : Fin 4) (a : BitVec 24) (w : Tagged) : State :=
  match placeOf n.val a with
  | .sram m x => sramStore s m x w
  | .mram k => mramStore s (mramWindow s n.val k) (payload w)
  | .houseReg => regWrite s (.core n) a.toNat (payload w)
  | .scanReg =>
    if isStaged a.toNat then regWriteBase s (.core n) a.toNat (payload w)
    else issueToScan s (.regWrite (.core n) a.toNat (payload w))
  | .dram win k =>
    issueToScan s (.dramWrite (.core n) ((windowByte s n.val win k).getD 0) (leBytes 4 (payload w).toNat))
  | .rom | .unmapped => s

/-- The use of a loaded word, once it is there. -/
def useWord (s : State) (n : Fin 4) (c : Core) (u : LoadUse) (w : Tagged) : State × Ending :=
  match u with
  | .register rd update base value =>
    writeResult s (if update then putReg c base (addrWord value) else c) rd w
  | .pop rd => writeResult s (putReg c rSP (addrWord (addrOf (regOf c rSP) + 1))) rd w
  | .tagged rd tag => writeResult s c rd (tagged tag (payload w))
  | .move rd ra =>
    let d := addrOf (regOf c rd)
    let c' := putReg (putReg c rd (addrWord (d + 1))) ra (addrWord (addrOf (regOf c ra) + 1))
    (s, .next c' fun s => coreStore s n d w)

/-- A load: its word is used at once, or the core waits for it (R313). -/
def loadFor (s : State) (n : Fin 4) (c : Core) (a : BitVec 24) (wholeRom : Bool) (u : LoadUse) : State × Ending :=
  let r := loadWord s n a wholeRom
  match r.2 with
  | .word w => useWord r.1 n c u w
  | .bridge t => (r.1, .wait { target := t, addr := a.setWidth 32, use := u } 4)

/-- The access address of FX, and BASE afterwards (R334). -/
def fxAddress (base : BitVec 24) (mode : BitVec 2) (off : BitVec 18) : BitVec 24 × Option (BitVec 24) :=
  let sum := base + off.signExtend 24
  if mode = 0 then (sum, none) else if mode = 1 then (base, some sum) else (sum, some sum)

/-- A short address (R308). -/
def shortAddress (c : Core) (bank : BitVec 2) (short : BitVec 16) : BitVec 24 :=
  ((c.bk.toList.getD bank.toNat 0).setWidth 24 <<< 16) ||| short.setWidth 24

/-- RSVENC of a condition (R335). -/
def rsvenc (b : Bool) : Option Trap := trapIf b (trapOf trRsvenc)

/-- COPABSENT on a variant without the coprocessor (R218). -/
def copAbsent (s : State) : Option Trap := trapIf (!hasRcop s.variant) (trapOf trCopAbsent)

/-! ### The end of a load -/

/-- LOAD_RETURN: the data of a stalled load returns and the core continues; an uncorrectable word arrives as POISON (R304,
R313). -/
def loadReturn (s : State) (n : Fin 4) : State :=
  let c := coreOf s n.val
  match c.stalled with
  | none => dropAnswers s (.core n)
  | some w =>
    match takeAnswer s (.core n) w.target with
    | some (s, data, failed) =>
      let word := if failed then poison else intWord (BitVec.ofNat 32 (leAt data 0 4))
      let c := { c with stalled := none }
      let r := useWord (setCore s n.val c) n c w.use word
      finish r.1 n 1 c.pc r.2
    | none => s

/-- The address that BUSERR reports: the load's; a beam or coprocessor instruction has none, and what TADDR then holds is a
free value (R318). -/
def busAddr (s : State) (w : LoadWait) : State × Word :=
  match w.target with
  | .register _ | .dram _ => (s, w.addr)
  | _ =>
    let k := takeFresh s
    (k.2, BitVec.ofNat 32 (Config.freeNat k.1))

/-- A core's load has failed with TIMED_OUT: it traps BUSERR (R51). -/
def loadTimedOut (s : State) (n : Fin 4) : State :=
  match (coreOf s n.val).stalled with
  | none => s
  | some w =>
    if readLost s (.core n) then
      let a := busAddr (dropReads s (.core n)) w
      takeTrap a.1 n.val { vector := trBuserr, addr := a.2 } (coreOf s n.val).pc
    else s

/-- READ_TIMEOUT (R51). -/
def readTimeout (s : State) : Reader → State
  | .core n => loadTimedOut s n
  | .dma ch => dmaTimedOut s ch.val
  | .other src => drawerTimedOut s src

end Sys2Proof.Machine
end

