-- ==== Sys2Proof/Machine/MbArith.lean ====
section
/-! DEFINITION. Integer, address and fixed-point arithmetic of the Mbophor cores: opcodes 0x40 to 0x66 (R336 to R340). -/

namespace Sys2Proof.Machine

/-! ### Integers -/

/-- An instruction on two INT registers that gives an INT and flags. -/
def intOp (rd ra rb : BitVec 4) (f : Word → Word → Word) (g : Word → Word → Flags) : CoreBody :=
  binOp tagInt tagInt tagInt rd ra rb fun s c a b => resultOp s c rd tagInt (f a b) (g a b)

/-- An instruction on an INT register and an immediate. -/
def immOp (rd ra : BitVec 4) (imm : BitVec 20) (f : Word → Word → Word) (g : Word → Word → Flags) : CoreBody :=
  unOp tagInt tagInt rd ra fun s c a =>
    let b := imm.signExtend 32
    resultOp s c rd tagInt (f a b) (g a b)

/-- Count of a shift (R338). -/
def shiftCount (b : Word) : Nat := bitsOf b 4 0

/-- Left, logical right and arithmetic right shifts. -/
def shlWord (a b : Word) : Word := a <<< shiftCount b
def shrWord (a b : Word) : Word := a >>> shiftCount b
def sarWord (a b : Word) : Word := a.sshiftRight (shiftCount b)

/-- The last bit shifted out of the top, or 0 for a count of 0 (R337). -/
def lastOutLeft (a b : Word) : Bool := shiftCount b != 0 && a.getLsbD (32 - shiftCount b)

/-- The last bit shifted out of the bottom. -/
def lastOutRight (a b : Word) : Bool := shiftCount b != 0 && a.getLsbD (shiftCount b - 1)

/-- Flags of the shifts: N, Z and C. -/
def flagsShl (a b : Word) : Flags := { flagsNZV (shlWord a b) false with c := some (lastOutLeft a b) }
def flagsShr (a b : Word) : Flags := { flagsNZV (shrWord a b) false with c := some (lastOutRight a b) }
def flagsSar (a b : Word) : Flags := { flagsNZV (sarWord a b) false with c := some (lastOutRight a b) }

/-- ADD. -/
def execAdd (core : Fin 4) (rd ra rb : BitVec 4) (s : State) : Out :=
  .next <| runInstr s core 1 (intOp rd ra rb (· + ·) flagsAdd)

/-- SUB. -/
def execSub (core : Fin 4) (rd ra rb : BitVec 4) (s : State) : Out :=
  .next <| runInstr s core 1 (intOp rd ra rb (· - ·) flagsSub)

/-- AND. -/
def execAnd (core : Fin 4) (rd ra rb : BitVec 4) (s : State) : Out :=
  .next <| runInstr s core 1 (intOp rd ra rb (· &&& ·) fun a b => flagsLogic (a &&& b))

/-- OR. -/
def execOr (core : Fin 4) (rd ra rb : BitVec 4) (s : State) : Out :=
  .next <| runInstr s core 1 (intOp rd ra rb (· ||| ·) fun a b => flagsLogic (a ||| b))

/-- XOR. -/
def execXor (core : Fin 4) (rd ra rb : BitVec 4) (s : State) : Out :=
  .next <| runInstr s core 1 (intOp rd ra rb (· ^^^ ·) fun a b => flagsLogic (a ^^^ b))

/-- SHL. -/
def execShl (core : Fin 4) (rd ra rb : BitVec 4) (s : State) : Out :=
  .next <| runInstr s core 1 (intOp rd ra rb shlWord flagsShl)

/-- SHR. -/
def execShr (core : Fin 4) (rd ra rb : BitVec 4) (s : State) : Out :=
  .next <| runInstr s core 1 (intOp rd ra rb shrWord flagsShr)

/-- SAR. -/
def execSar (core : Fin 4) (rd ra rb : BitVec 4) (s : State) : Out :=
  .next <| runInstr s core 1 (intOp rd ra rb sarWord flagsSar)

/-- The signed product does not fit in 32 bits (R338). -/
def mulOverflows (a b : Word) : Bool := decide ((a * b).toInt ≠ a.toInt * b.toInt)

/-- MUL. -/
def execMul (core : Fin 4) (rd ra rb : BitVec 4) (s : State) : Out :=
  .next <| runInstr s core 1 (intOp rd ra rb (· * ·) fun a b => flagsNZV (a * b) (mulOverflows a b))

/-- A division: DIVZERO on a divisor of 0 (R338). -/
def divOp (rd ra rb : BitVec 4) (f : Word → Word → Word) (g : Word → Word → Flags) : CoreBody :=
  binOp tagInt tagInt tagInt rd ra rb fun s c a b =>
    checked s [trapIf (b == 0) (trapOf trDivZero)] fun _ => resultOp s c rd tagInt (f a b) (g a b)

/-- DIVS: truncates toward zero; 0x8000_0000 by −1 gives 0x8000_0000 and sets V. -/
def execDivs (core : Fin 4) (rd ra rb : BitVec 4) (s : State) : Out :=
  .next <| runInstr s core 1 (divOp rd ra rb (fun a b => a.sdiv b)
    fun a b => flagsNZV (a.sdiv b) (decide (a = 0x80000000#32 ∧ b = 0xFFFFFFFF#32)))

/-- DIVU. -/
def execDivu (core : Fin 4) (rd ra rb : BitVec 4) (s : State) : Out :=
  .next <| runInstr s core 1 (divOp rd ra rb (fun a b => a / b) fun a b => flagsNZ (a / b))

/-- CMP. -/
def execCmp (core : Fin 4) (ra rb : BitVec 4) (s : State) : Out :=
  .next <| runInstr s core 1 (cmpOp tagInt ra rb flagsSub)

/-- NEG: 0 − RA; C is the carry out, 1 for an operand of 0 alone (R337). -/
def execNeg (core : Fin 4) (rd ra : BitVec 4) (s : State) : Out :=
  .next <| runInstr s core 1 (unOp tagInt tagInt rd ra fun s c a =>
    resultOp s c rd tagInt (0 - a) (flagsSub 0 a))

/-- ADDI: INT plus an immediate with flags, or ADDR plus an immediate modulo 2^24 without (R339). -/
def execAddi (core : Fin 4) (rd ra : BitVec 4) (imm : BitVec 20) (s : State) : Out :=
  .next <| runInstr s core 1 fun s c =>
    let w := regOf c ra
    let a := payload w
    let b : Word := imm.signExtend 32
    checked s [tagTrap 0 [tagInt, tagAddr] w] fun _ =>
      if tagOf w = tagAddr then writeResult s c rd (addrWord (addrOf w + imm.signExtend 24))
      else checked s [destTrap rd tagInt] fun _ => resultOp s c rd tagInt (a + b) (flagsAdd a b)

/-- ANDI. -/
def execAndi (core : Fin 4) (rd ra : BitVec 4) (imm : BitVec 20) (s : State) : Out :=
  .next <| runInstr s core 1 (immOp rd ra imm (· &&& ·) fun a b => flagsLogic (a &&& b))

/-- ORI. -/
def execOri (core : Fin 4) (rd ra : BitVec 4) (imm : BitVec 20) (s : State) : Out :=
  .next <| runInstr s core 1 (immOp rd ra imm (· ||| ·) fun a b => flagsLogic (a ||| b))

/-- XORI. -/
def execXori (core : Fin 4) (rd ra : BitVec 4) (imm : BitVec 20) (s : State) : Out :=
  .next <| runInstr s core 1 (immOp rd ra imm (· ^^^ ·) fun a b => flagsLogic (a ^^^ b))

/-- SHLI. -/
def execShli (core : Fin 4) (rd ra : BitVec 4) (imm : BitVec 20) (s : State) : Out :=
  .next <| runInstr s core 1 (immOp rd ra imm shlWord flagsShl)

/-- SHRI. -/
def execShri (core : Fin 4) (rd ra : BitVec 4) (imm : BitVec 20) (s : State) : Out :=
  .next <| runInstr s core 1 (immOp rd ra imm shrWord flagsShr)

/-- SARI. -/
def execSari (core : Fin 4) (rd ra : BitVec 4) (imm : BitVec 20) (s : State) : Out :=
  .next <| runInstr s core 1 (immOp rd ra imm sarWord flagsSar)

/-- CMPI. -/
def execCmpi (core : Fin 4) (ra : BitVec 4) (imm : BitVec 20) (s : State) : Out :=
  .next <| runInstr s core 1 fun s c =>
    checked s [tagTrap 0 [tagInt] (regOf c ra)] fun _ =>
      goOn s (withFlags c (flagsSub (payload (regOf c ra)) (imm.signExtend 32)))

/-! ### Addresses -/

/-- ADDA: ADDR plus an INT offset, modulo 2^24. -/
def execAdda (core : Fin 4) (rd ra rb : BitVec 4) (s : State) : Out :=
  .next <| runInstr s core 1 (binOp tagAddr tagInt tagAddr rd ra rb fun s c a b =>
    writeResult s c rd (addrWord (a.setWidth 24 + b.setWidth 24)))

/-- SUBA: the signed difference of two 24-bit payloads (R339). -/
def execSuba (core : Fin 4) (rd ra rb : BitVec 4) (s : State) : Out :=
  .next <| runInstr s core 1 (binOp tagAddr tagAddr tagInt rd ra rb fun s c a b =>
    let a : Word := (a.setWidth 24).setWidth 32
    let b : Word := (b.setWidth 24).setWidth 32
    resultOp s c rd tagInt (a - b) (flagsSub a b))

/-- CMPEQ: Z is 1 where two operands of equal tag have equal payloads. -/
def execCmpeq (core : Fin 4) (ra rb : BitVec 4) (s : State) : Out :=
  .next <| runInstr s core 1 fun s c =>
    let a := regOf c ra
    let b := regOf c rb
    checked s [tagTrap 0 anyTag a, tagTrap 1 [tagOf a] b] fun _ =>
      goOn s (withFlags c { z := some (payload a == payload b) })

/-! ### Fixed point (R340) -/

/-- A result in multiples of 2^−16, saturated to the FIX range. -/
def saturateFix (i : Int) : Word := BitVec.ofInt 32 (clampInt (-(2 ^ 31)) (2 ^ 31 - 1) i)

/-- It lies beyond the FIX range. -/
def beyondFix (i : Int) : Bool := decide (i < -(2 ^ 31) ∨ 2 ^ 31 - 1 < i)

/-- A FIX result with N, Z and V. -/
def fixResult (s : State) (c : Core) (rd : BitVec 4) (i : Int) : State × Ending :=
  resultOp s c rd tagFix (saturateFix i) (flagsNZV (saturateFix i) (beyondFix i))

/-- An instruction on two FIX registers, its result in multiples of 2^−16. -/
def fixOp (rd ra rb : BitVec 4) (f : Int → Int → Int) : CoreBody :=
  binOp tagFix tagFix tagFix rd ra rb fun s c a b => fixResult s c rd (f a.toInt b.toInt)

/-- FADD. -/
def execFadd (core : Fin 4) (rd ra rb : BitVec 4) (s : State) : Out :=
  .next <| runInstr s core 1 (fixOp rd ra rb (· + ·))

/-- FSUB. -/
def execFsub (core : Fin 4) (rd ra rb : BitVec 4) (s : State) : Out :=
  .next <| runInstr s core 1 (fixOp rd ra rb (· - ·))

/-- FMUL: the product rounded once, ties up. -/
def execFmul (core : Fin 4) (rd ra rb : BitVec 4) (s : State) : Out :=
  .next <| runInstr s core 1 (fixOp rd ra rb fun a b => roundDiv (a * b) 65536)

/-- The quotient of two FIX values in multiples of 2^−16, rounded once, ties up. -/
def fixQuotient (a b : Int) : Int := if b < 0 then roundDiv (-(a * 65536)) b.natAbs else roundDiv (a * 65536) b.natAbs

/-- FDIV: DIVZERO on a divisor of 0. -/
def execFdiv (core : Fin 4) (rd ra rb : BitVec 4) (s : State) : Out :=
  .next <| runInstr s core 1 (binOp tagFix tagFix tagFix rd ra rb fun s c a b =>
    checked s [trapIf (b == 0) (trapOf trDivZero)] fun _ => fixResult s c rd (fixQuotient a.toInt b.toInt))

/-- FCMP. -/
def execFcmp (core : Fin 4) (ra rb : BitVec 4) (s : State) : Out :=
  .next <| runInstr s core 1 (cmpOp tagFix ra rb flagsSub)

/-- ITOF. -/
def execItof (core : Fin 4) (rd ra : BitVec 4) (s : State) : Out :=
  .next <| runInstr s core 1 (unOp tagInt tagFix rd ra fun s c a => fixResult s c rd (a.toInt * 65536))

/-- FTOI: rounds toward minus infinity. -/
def execFtoi (core : Fin 4) (rd ra : BitVec 4) (s : State) : Out :=
  .next <| runInstr s core 1 (unOp tagFix tagInt rd ra fun s c a =>
    resultOp s c rd tagInt (a.sshiftRight 16) (flagsNZ (a.sshiftRight 16)))

end Sys2Proof.Machine
end

