-- ==== Sys2Proof/Machine/MbControl.lean ====
section
/-! DEFINITION. Control flow, control registers, waiting, the repeat prefix, the coprocessor block, traps and interrupt entry,
and the core control commands (R218, R316 to R329, R344 to R353). -/

namespace Sys2Proof.Machine

/-! ### NOP, waiting, traps -/

/-- NOP. -/
def execNop (core : Fin 4) (s : State) : Out := .next <| runInstr s core 1 fun s c => goOn s c

/-- WAIT: the coalesced edges of the core's sources are released, and issue stops (R344, R363). -/
def execWait (core : Fin 4) (s : State) : Out :=
  .next <| runControl s core 1 fun s c => (s, .next { c with waiting := true } fun s => waitFlush s core.val)

/-- WAIT_WAKE: a request above IPL ends WAIT: taken where IE = 1, else the next instruction issues (R344). -/
def waitWake (s : State) (n : Nat) : State :=
  let c := coreOf s n
  if !c.waiting || !coresClocked s || !coreRun s n || coreLocked s n || c.benchHalt || !aboveIpl s n then s
  else if srIe c.sr then interruptEntry s n
  else setCore s n { c with waiting := false }

/-- WAIT_WAKE. -/
def execWaitWake (core : Fin 4) (s : State) : Out := .next (waitWake s core.val)

/-- SYNC: the core waits until its earlier stores have applied at the scan die; those on the house die have (R313, R344). -/
def execSync (core : Fin 4) (s : State) : Out :=
  .next <| runControl s core 1 fun s c => goOn s { c with syncing := !sourceQuiet s (.core core) }

/-- SYNC_DONE: the last of them has applied; one discarded while the bridge is DOWN counts as applied. -/
def execSyncDone (core : Fin 4) (s : State) : Out :=
  .next <|
    let c := coreOf s core.val
    if c.syncing && sourceQuiet s (.core core) then setCore s core.val { c with syncing := false } else s

/-- TRAP: to vector 16 + N; the frame's PC is the next instruction's (R319, R321). -/
def execTrap (core : Fin 4) (k : BitVec 4) (s : State) : Out :=
  .next <|
    if (coreOf s core.val).repeating then s
    else issue s core.val fun s =>
      let c := coreOf s core.val
      let f := fetchTrap s core.val c.pc 1
      match f.2 with
      | some t => takeTrap f.1 core.val t c.pc
      | none => takeSoftTrap f.1 core.val (trapOf (16 + k.toNat)) c.pc

/-- The primary opcodes of R336. -/
def definedOpcodes : List Nat :=
  [0x00, 0x01, 0x02, 0x03, 0x04, 0x05, 0x06, 0x07, 0x10, 0x11, 0x12, 0x13, 0x14, 0x15, 0x16, 0x17, 0x18, 0x19] ++
    (List.range 14).map (0x20 + ·) ++ (List.range 13).map (0x40 + ·) ++ (List.range 11).map (0x50 + ·) ++
    (List.range 7).map (0x60 + ·) ++ (List.range 5).map (0x68 + ·) ++ [0x70, 0x71, 0x72, 0x73] ++
    (List.range 5).map (0x78 + ·) ++ (List.range 6).map (0x80 + ·) ++ [0xE0, 0xE1, 0xE2, 0xE3]

/-- A primary opcode of R336. -/
def isDefined (op : BitVec 8) : Bool := definedOpcodes.contains op.toNat

/-- The trap of an opcode that is not defined, or whose unit is absent: COPABSENT for 0xE0 to 0xEF without the coprocessor,
else UNDEF (R218, R335). -/
def opcodeTrap (s : State) (op : BitVec 8) : Option Trap :=
  if 0xE0 ≤ op.toNat && op.toNat ≤ 0xEF && !hasRcop s.variant then some (trapOf trCopAbsent)
  else if isDefined op then none
  else some (trapOf trUndef)

/-- UNDEFINED_OPCODE. -/
def execUndefinedOpcode (core : Fin 4) (op : BitVec 8) (s : State) : Out :=
  .next <|
    match opcodeTrap s op with
    | some t => runInstr s core 1 fun s _ => (s, .trap t)
    | none => s

/-! ### Frames (R323, R325, R351) -/

/-- The word at a stack address as a frame restore reads it: whole from house or local SRAM, and 32 bits tagged INT from any
other target (R301), which no frame word that is CODE can come from. -/
def stackRead (s : State) (n : Fin 4) (a : BitVec 24) : State × Tagged :=
  let r := loadWord s n a false
  (r.1, match r.2 with
    | .word w => w
    | .bridge _ => intWord 0)

/-- Reads `k` words from an address up. -/
def stackReads (s : State) (n : Fin 4) (a : BitVec 24) : Nat → State × List Tagged
  | 0 => (s, [])
  | k + 1 =>
    let r := stackRead s n a
    let q := stackReads r.1 n (a + 1) k
    (q.1, r.2 :: q.2)

/-- The first address of `k` words that no load may name. -/
def loadRunTrap (s : State) (n : Nat) (a : BitVec 24) : Nat → Option Trap
  | 0 => none
  | k + 1 =>
    match loadTrap s n a with
    | some t => some t
    | none => loadRunTrap s n (a + 1) k

/-- SR as a frame restores it: its reserved bits stay 0 (R316). -/
def restoredSr (w : Tagged) : Word := payload w &&& 0xFFFF8F1F#32

/-- The core as RETI restores it from the 12 words of its frame (R323, R325). -/
def restoreFrame (c : Core) (ws : List Tagged) : Core :=
  let w (i : Nat) : Tagged := ws.getD i 0
  let c := { c with sr := restoredSr (w 1), rc := (payload (w 2)).setWidth 16, bk := banksOf (w 3),
                    pc := addrOf (w 0) }
  let c := (List.range 4).foldl (fun c i => putReg c (BitVec.ofNat 4 i) (w (4 + i))) c
  let c := (List.range 4).foldl (fun c i => putReg c (BitVec.ofNat 4 (8 + i)) (w (8 + i))) c
  putReg c rSP (addrWord (addrOf (regOf c rSP) + 12))

/-- The request that a frame's SR would take: RETI tail-chains into it (R325). -/
def tailSource (s : State) (n : Nat) (sr : Word) : Option Nat := offerTo (setCore s n { coreOf s n with sr := sr }) n

/-- RETI with its frame read: the tail-chain, or the restored core. -/
def leaveFrame (s : State) (n : Nat) (ws : List Tagged) : State :=
  let sr := restoredSr (ws.getD 1 0)
  match tailSource s n sr with
  | some src => enterVector s n (64 + src) sr (some (src, getF s (HIC_SRCCFG_LEVEL src))) none
  | none => setCore s n (restoreFrame (coreOf s n) ws)

/-- Words 0 and 1 of a frame that cannot be read whole: each where a load may name it, else a word that no tag trap falls on, as
the ADDR trap of the access then does. -/
def frameHead (s : State) (n : Fin 4) (a : BitVec 24) : State × List Tagged :=
  let one := fun (s : State) (a : BitVec 24) (tag : BitVec 4) =>
    if (loadTrap s n.val a).isSome then (s, tagged tag 0) else stackRead s n a
  let w0 := one s a tagCode
  let w1 := one w0.1 (a + 1) tagInt
  (w1.1, [w0.2, w1.2])

/-- RETI (R325): frame words 1 and 0 must be INT and CODE. Their tag traps come before the ADDR trap of any word (R319). -/
def execReti (core : Fin 4) (s : State) : Out :=
  .next <|
    if (coreOf s core.val).repeating then s
    else issue s core.val fun s =>
      let c := coreOf s core.val
      let f := fetchTrap s core.val c.pc 1
      let sp := addrOf (regOf c rSP)
      match firstTrap [f.2, tagTrap 2 [tagAddr] (regOf c rSP)] with
      | some t => takeTrap f.1 core.val t c.pc
      | none =>
        let bad := loadRunTrap f.1 core.val sp 12
        let r := if bad.isSome then frameHead f.1 core sp else stackReads f.1 core sp 12
        match firstTrap [tagTrap 0 [tagInt] (r.2.getD 1 0), tagTrap 1 [tagCode] (r.2.getD 0 0), bad] with
        | some t => takeTrap r.1 core.val t c.pc
        | none => leaveFrame r.1 core.val r.2

/-! ### Control registers (R316, R317) -/

/-- A control register as it reads. -/
def controlWord (c : Core) (n : Nat) (cr : BitVec 4) : Tagged :=
  match cr.toNat with
  | 0 => intWord c.sr
  | 1 => addrWord c.vtab
  | 2 => addrWord c.slim
  | 3 => intWord c.tcause
  | 4 => intWord c.taddr
  | 5 => intWord (BitVec.ofNat 32 n)
  | _ => intWord 0

/-- MFC. -/
def execMfc (core : Fin 4) (rd cr : BitVec 4) (s : State) : Out :=
  .next <| runControl s core 1 fun s c => writeResult s c rd (controlWord c core.val cr)

/-- Tags that MTC accepts. -/
def controlTags (cr : BitVec 4) : List (BitVec 4) :=
  match cr.toNat with
  | 0 => [tagInt]
  | 1 | 2 => [tagAddr]
  | _ => anyTag

/-- Writes a control register: the RW fields of SR, VTAB with its low bits 0, SLIM; the others ignore it. The second part says
that HS_RSVWR counts the write: a reserved field of SR written as nonzero, or a number from 6 up. -/
def putControl (c : Core) (cr : BitVec 4) (w : Word) : Core × Bool :=
  match cr.toNat with
  | 0 => ({ c with sr := (c.sr &&& ~~~ 0x00000F1F#32) ||| (w &&& 0x00000F1F#32) }, (w &&& 0x000070E0#32) != 0)
  | 1 => ({ c with vtab := (w &&& 0x00FFFE00#32).setWidth 24 }, false)
  | 2 => ({ c with slim := w.setWidth 24 }, false)
  | 3 | 4 | 5 => (c, false)
  | _ => (c, true)

/-- MTC. -/
def execMtc (core : Fin 4) (ra cr : BitVec 4) (s : State) : Out :=
  .next <| runControl s core 1 fun s c =>
    checked s [tagTrap 0 (controlTags cr) (regOf c ra)] fun _ =>
      let r := putControl c cr (payload (regOf c ra))
      (s, .next r.1 fun s => if r.2 then countReserved s else s)

/-! ### The repeat prefix (R347, R348) -/

/-- Opcodes that REP cannot prefix. -/
def repRefuses (op : BitVec 8) : Bool :=
  let o := op.toNat
  (0x01 ≤ o && o ≤ 0x07) || (0x80 ≤ o && o ≤ 0x85) || (0xE0 ≤ o && o ≤ 0xE3)

/-- Words of the instruction behind the prefix: LDC alone has an extension. -/
def repLength (op : BitVec 8) : Nat := if op = 0x13 then 2 else 1

/-- The core after REP: with RA = 0, RPT takes RC, and a count of 0 skips the prefixed instruction; with RA = 1 the repeat goes
on. -/
def startRepeat (c : Core) (op : BitVec 8) : Core :=
  if c.sr.getLsbD 15 then { c with repeating := true }
  else if c.rc = 0 then { c with sr := setRepeat c.sr 0 0, pc := c.pc + 1 + BitVec.ofNat 24 (repLength op) }
  else { c with sr := setRepeat c.sr c.rc.toNat 1, repeating := true }

/-- REP, before an instruction of opcode `op`. An opcode that the prefix cannot carry or that is undefined traps at the
prefix. -/
def execRep (core : Fin 4) (op : BitVec 8) (s : State) : Out :=
  .next <|
    if (coreOf s core.val).repeating then s
    else issue s core.val fun s =>
      let c := coreOf s core.val
      let f := fetchTrap s core.val c.pc 2
      match firstTrap [f.2, if repRefuses op then none else opcodeTrap s op, rsvenc (repRefuses op)] with
      | some t => takeTrap f.1 core.val t c.pc
      | none => setCore f.1 core.val (startRepeat c op)

/-! ### Jumps (R346, R350, R351) -/

/-- The condition of a branch; 0xF is none. -/
def branchTaken (sr : Word) (cond : BitVec 4) : Bool :=
  let c := flagC sr
  let z := flagZ sr
  let n := flagN sr
  let v := flagV sr
  match cond.toNat with
  | 0x0 => true
  | 0x1 => z
  | 0x2 => !z
  | 0x3 => n != v
  | 0x4 => n == v
  | 0x5 => !z && n == v
  | 0x6 => z || n != v
  | 0x7 => c
  | 0x8 => !c
  | 0x9 => c && !z
  | 0xA => !c || z
  | 0xB => n
  | 0xC => !n
  | 0xD => v
  | 0xE => !v
  | _ => false

/-- BR: to the address after it plus DISP24 where the condition holds. -/
def execBr (core : Fin 4) (cond : BitVec 4) (disp : BitVec 24) (s : State) : Out :=
  .next <| runControl s core 1 fun s c =>
    checked s [rsvenc (decide (cond = 0xF))] fun _ =>
      if branchTaken c.sr cond then (s, .jump c (c.pc + 1 + disp)) else goOn s c

/-- JMP: to the extension address. -/
def execJmp (core : Fin 4) (ext : Word) (s : State) : Out :=
  .next <| runControl s core 2 fun s c =>
    checked s [rsvenc (bitsOf ext 31 24 != 0)] fun _ => (s, .jump c (ext.setWidth 24))

/-- JMPR: to a CODE register. -/
def execJmpr (core : Fin 4) (ra : BitVec 4) (s : State) : Out :=
  .next <| runControl s core 1 fun s c =>
    checked s [tagTrap 0 [tagCode] (regOf c ra)] fun _ => (s, .jump c (addrOf (regOf c ra)))

/-- The registers that MASK names, lowest bit first; none stands for the bank word (R350). -/
def maskRegs (mask : BitVec 16) : List (Option (BitVec 4)) :=
  ((List.range 16).filter fun i => mask.getLsbD i).map fun i => if i = 15 then none else some (BitVec.ofNat 4 i)

/-- The words of a call frame, lowest address first: return address, mask, registers from the lowest bit up (R350). -/
def callWords (c : Core) (mask : BitVec 16) (ret : BitVec 24) : List Tagged :=
  [tagged tagCode (ret.setWidth 32), intWord (mask.setWidth 32)] ++
    (maskRegs mask).map fun r => match r with
      | some r => regOf c r
      | none => bankWord c

/-- The lowest of `k` pushed words that may not be written: ADDR before STACK (R319, R326). -/
def pushTrap (s : State) (n : Nat) (c : Core) (sp : BitVec 24) (k : Nat) : Option Trap :=
  let as' := (List.range k).map fun i => sp + BitVec.ofNat 24 i
  match as'.findSome? fun a => storeTrap s n a with
  | some t => some t
  | none => as'.findSome? fun a => stackTrap n c rSP a

/-- The pushes of a call and its jump. -/
def callTo (s : State) (n : Fin 4) (c : Core) (mask : BitVec 16) (ret to' : BitVec 24) (opnd : Nat) : State × Ending :=
  let ws := callWords c mask ret
  let sp := addrOf (regOf c rSP) - BitVec.ofNat 24 ws.length
  checked s [tagTrap opnd [tagAddr] (regOf c rSP), pushTrap s n.val c sp ws.length] fun _ =>
    (storeRun s n.val sp ws, .jump (putReg c rSP (addrWord sp)) to')

/-- CALL. -/
def execCall (core : Fin 4) (mask : BitVec 16) (ext : Word) (s : State) : Out :=
  .next <| runControl s core 2 fun s c =>
    checked s [rsvenc (bitsOf ext 31 24 != 0)] fun _ => callTo s core c mask (c.pc + 2) (ext.setWidth 24) 0

/-- CALLR. -/
def execCallr (core : Fin 4) (rt : BitVec 4) (mask : BitVec 16) (s : State) : Out :=
  .next <| runControl s core 1 fun s c =>
    checked s [tagTrap 0 [tagCode] (regOf c rt)] fun _ => callTo s core c mask (c.pc + 1) (addrOf (regOf c rt)) 1

/-- A call frame's registers restored, unchecked (R307, R351). -/
def restoreCall (c : Core) : List (Option (BitVec 4)) → List Tagged → Core
  | some r :: rs, w :: ws => restoreCall (putReg c r w) rs ws
  | none :: rs, w :: ws => restoreCall { c with bk := banksOf w } rs ws
  | _, _ => c

/-- The TAG trap of RET, whatever tag it meets (R351). -/
def retTrap (opnd : Nat) (want : BitVec 4) (w : Tagged) : Option Trap :=
  trapIf (decide (tagOf w ≠ want))
    { vector := trTag, opnd := opnd, want := want.toNat, seen := (tagOf w).toNat }

/-- RET (R351). -/
def retBody (n : Fin 4) : CoreBody := fun s c =>
  let sp := addrOf (regOf c rSP)
  checked s [tagTrap 2 [tagAddr] (regOf c rSP), loadRunTrap s n.val sp 2] fun _ =>
    let h := stackReads s n sp 2
    let w0 := h.2.getD 0 0
    let w1 := h.2.getD 1 0
    checked h.1 [retTrap 0 tagCode w0, retTrap 1 tagInt w1] fun _ =>
      let rs := maskRegs ((payload w1).setWidth 16)
      checked h.1 [loadRunTrap h.1 n.val (sp + 2) rs.length] fun _ =>
        let b := stackReads h.1 n (sp + 2) rs.length
        (b.1, .jump (putReg (restoreCall c rs b.2) rSP (addrWord (sp + 2 + BitVec.ofNat 24 rs.length))) (addrOf w0))

/-- RET. -/
def execRet (core : Fin 4) (s : State) : Out := .next <| runControl s core 1 (retBody core)

/-! ### The coprocessor block (R218, R219, R352, R353) -/

/-- TRCLR: a counted PW that empties the shadow immediate list. -/
def execTrclr (core : Fin 4) (s : State) : Out :=
  .next <| runControl s core 1 fun s c =>
    checked s [copAbsent s] fun _ => (s, .next c fun s => issueToScan s (.immClear (.core core)))

/-- TRPUT: a counted PW that appends the entry of four registers, from V0 or V4 on. -/
def execTrput (core : Fin 4) (ra : BitVec 4) (s : State) : Out :=
  .next <| runControl s core 1 fun s c =>
    let w (i : Nat) : Tagged := regOf c (ra + BitVec.ofNat 4 i)
    checked s ([copAbsent s, rsvenc (ra != 0 && ra != 4)] ++ (List.range 4).map fun i => tagTrap i [tagInt] (w i)) fun _ =>
      (s, .next c fun s =>
        issueToScan s (.immPut (.core core) (payload (w 0)) (payload (w 1)) (payload (w 2)) (payload (w 3))))

/-- TRGET: an override value of a module line, through the bridge. -/
def execTrget (core : Fin 4) (rd ra : BitVec 4) (tgt : BitVec 3) (unit : BitVec 4) (stream : BitVec 2) (s : State) : Out :=
  .next <| runControl s core 1 fun s c =>
    checked s [copAbsent s, rsvenc (5 ≤ tgt.toNat || unit = 15), tagTrap 0 [tagInt] (regOf c ra), destTrap rd tagInt]
      fun _ =>
        let l := bitsOf (payload (regOf c ra)) 8 0
        (s, .wait { target := .override stream.toNat unit.toNat tgt.toNat l, addr := 0, use := .tagged rd tagInt } 4)

/-- TRWALK: the position at which the last walk completed, through the bridge. -/
def execTrwalk (core : Fin 4) (rd : BitVec 4) (s : State) : Out :=
  .next <| runControl s core 1 fun s _ =>
    checked s [copAbsent s, destTrap rd tagBeam] fun _ =>
      (s, .wait { target := .walkDone, addr := 0, use := .tagged rd tagBeam } 4)

/-! ### Interrupts, reset, run -/

/-- INTERRUPT_ENTRY (R322). -/
def execInterruptEntry (core : Fin 4) (s : State) : Out := .next (interruptEntry s core.val)

end Sys2Proof.Machine
end

