-- ==== Sys2Proof/Machine/MbMedia.lean ====
section
/-! DEFINITION. Pixel, beam and accumulator instructions of the Mbophor cores: opcodes 0x68 to 0x7C (R336, R341 to R343). -/

namespace Sys2Proof.Machine

/-! ### Pixels (R341) -/

/-- Channel of a pixel: 0 B, 1 G, 2 R, 3 A (R109). -/
def channel (p : Word) (ch : Nat) : Nat := bitsOf p (8 * ch + 7) (8 * ch)

/-- A pixel from its channels. -/
def pixelOf (f : Nat → Nat) : Word := BitVec.ofNat 32 (f 0 + f 1 * 2 ^ 8 + f 2 * 2 ^ 16 + f 3 * 2 ^ 24)

/-- `n ÷ 255`, rounded with ties up. -/
def over255 (n : Nat) : Nat := (2 * n + 255) / 510

/-- An instruction on two pixels. -/
def pixelOp (rd ra rb : BitVec 4) (f : Word → Word → Word) : CoreBody :=
  binOp tagPixel tagPixel tagPixel rd ra rb fun s c a b => resultOp s c rd tagPixel (f a b) {}

/-- PADD saturates at 255. -/
def addPixels (a b : Word) : Word := pixelOf fun i => min 255 (channel a i + channel b i)

/-- PMUL. -/
def mulPixels (a b : Word) : Word := pixelOf fun i => over255 (channel a i * channel b i)

/-- POVER: `a` over `b`. -/
def overPixels (a b : Word) : Word :=
  let α := channel a 3
  pixelOf fun i =>
    if i = 3 then α + over255 (channel b 3 * (255 - α)) else over255 (α * channel a i + (255 - α) * channel b i)

/-- PADD. -/
def execPadd (core : Fin 4) (rd ra rb : BitVec 4) (s : State) : Out :=
  .next <| runInstr s core 1 (pixelOp rd ra rb addPixels)

/-- PMUL. -/
def execPmul (core : Fin 4) (rd ra rb : BitVec 4) (s : State) : Out :=
  .next <| runInstr s core 1 (pixelOp rd ra rb mulPixels)

/-- POVER. -/
def execPover (core : Fin 4) (rd ra rb : BitVec 4) (s : State) : Out :=
  .next <| runInstr s core 1 (pixelOp rd ra rb overPixels)

/-- PEXT: one channel as INT. -/
def execPext (core : Fin 4) (rd ra : BitVec 4) (ch : BitVec 2) (s : State) : Out :=
  .next <| runInstr s core 1 (unOp tagPixel tagInt rd ra fun s c a =>
    resultOp s c rd tagInt (BitVec.ofNat 32 (channel a ch.toNat)) {})

/-- PINS: RB's low byte into one channel of RA. -/
def execPins (core : Fin 4) (rd ra rb : BitVec 4) (ch : BitVec 2) (s : State) : Out :=
  .next <| runInstr s core 1 (binOp tagPixel tagInt tagPixel rd ra rb fun s c a b =>
    resultOp s c rd tagPixel (putBits a (8 * ch.toNat + 7) (8 * ch.toNat) (bitsOf b 7 0)) {})

/-! ### Beam positions (R342) -/

/-- Fields of a BEAM word (R300). -/
def beamLine (w : Word) : Nat := bitsOf w 31 16
def beamFrac (w : Word) : Nat := bitsOf w 15 8
def beamFrame (w : Word) : Nat := bitsOf w 7 0

/-- The difference of two BEAM words in fractions, before saturation. -/
def beamDifference (tl : Nat) (a b : Word) : Int :=
  let df : Int := ((beamFrame a : Int) - beamFrame b + 128) % 256 - 128
  (df * tl + beamLine a - beamLine b) * 256 + beamFrac a - beamFrac b

/-- It saturates at ±(2³¹ − 1). -/
def beamSaturated (i : Int) : Word := BitVec.ofInt 32 (clampInt (-(2 ^ 31 - 1)) (2 ^ 31 - 1) i)

/-- It lies beyond that. -/
def beamBeyond (i : Int) : Bool := decide (i < -(2 ^ 31 - 1) ∨ 2 ^ 31 - 1 < i)

/-- A BEAM word moved on by a number of fractions: the word, and whether its line index is 65,536 or more. -/
def beamSum (tl : Nat) (a b : Word) : Word × Bool :=
  let total : Int := (beamLine a * 256 + beamFrac a : Nat) + b.toInt
  let n := (total % (tl * 256 : Nat)).toNat
  let frame := ((beamFrame a + total / (tl * 256 : Nat)) % 256).toNat
  if 65536 ≤ n / 256 then (BitVec.ofNat 32 (beamWord 0xFFFF 0xFF frame), true)
  else (BitVec.ofNat 32 (beamWord (n / 256) n frame), false)

/-- TL as the house die has it (R342). -/
def houseLines (s : State) : Nat := s.bridge.lastLine + 1

/-- BCMP: N and Z of the same difference. -/
def execBcmp (core : Fin 4) (ra rb : BitVec 4) (s : State) : Out :=
  .next <| runInstr s core 1 (cmpOp tagBeam ra rb fun a b =>
    flagsNZ (beamSaturated (beamDifference (houseLines s) a b)))

/-- BDIFF. -/
def execBdiff (core : Fin 4) (rd ra rb : BitVec 4) (s : State) : Out :=
  .next <| runInstr s core 1 (binOp tagBeam tagBeam tagInt rd ra rb fun s c a b =>
    let d := beamDifference (houseLines s) a b
    resultOp s c rd tagInt (beamSaturated d) (flagsNZV (beamSaturated d) (beamBeyond d)))

/-- BADD. -/
def execBadd (core : Fin 4) (rd ra rb : BitVec 4) (s : State) : Out :=
  .next <| runInstr s core 1 (binOp tagBeam tagInt tagBeam rd ra rb fun s c a b =>
    let r := beamSum (houseLines s) a b
    resultOp s c rd tagBeam r.1 { v := some r.2 })

/-- BNOW: the beam position through the bridge; the core stalls as for a load. -/
def execBnow (core : Fin 4) (rd : BitVec 4) (s : State) : Out :=
  .next <| runInstr s core 1 fun s _ =>
    checked s [destTrap rd tagBeam] fun _ =>
      (s, .wait { target := .beamNow, addr := 0, use := .tagged rd tagBeam } 4)

/-! ### Accumulators (R343) -/

/-- An accumulator. -/
def accOf (c : Core) (q : Bool) : BitVec 72 := c.q.toList.getD (b2n q) 0

/-- Replaces an accumulator. -/
def putAcc (c : Core) (q : Bool) (v : BitVec 72) : Core := { c with q := c.q.setIfInBounds (b2n q) v }

/-- A product is added to an accumulator, modulo 2^72. -/
def macOp (tag ra rb : BitVec 4) (q : Bool) : CoreBody := fun s c =>
  checked s [tagTrap 0 [tag] (regOf c ra), tagTrap 1 [tag] (regOf c rb)] fun _ =>
    goOn s (putAcc c q (accOf c q + BitVec.ofInt 72 ((payload (regOf c ra)).toInt * (payload (regOf c rb)).toInt)))

/-- MAC. -/
def execMac (core : Fin 4) (ra rb : BitVec 4) (q : Bool) (s : State) : Out :=
  .next <| runInstr s core 1 (macOp tagInt ra rb q)

/-- FMAC. -/
def execFmac (core : Fin 4) (ra rb : BitVec 4) (q : Bool) (s : State) : Out :=
  .next <| runInstr s core 1 (macOp tagFix ra rb q)

/-- MTQ: an INT sign-extended, a FIX shifted left 16 bits as well. -/
def execMtq (core : Fin 4) (ra : BitVec 4) (q : Bool) (s : State) : Out :=
  .next <| runInstr s core 1 fun s c =>
    let w := regOf c ra
    checked s [tagTrap 0 [tagInt, tagFix] w] fun _ =>
      let v := (payload w).signExtend 72
      goOn s (putAcc c q (if tagOf w = tagFix then v <<< 16 else v))

/-- MFQ: the accumulator shifted right arithmetically and saturated, as INT or FIX; V where it saturates. -/
def execMfq (core : Fin 4) (rd : BitVec 4) (q : Bool) (shift : BitVec 5) (t : Bool) (s : State) : Out :=
  .next <| runInstr s core 1 fun s c =>
    let i := ((accOf c q).sshiftRight shift.toNat).toInt
    let tag := if t then tagFix else tagInt
    checked s [destTrap rd tag] fun _ => resultOp s c rd tag (saturateQ i) { v := some (beyondQ i) }
where
  /-- The signed 32-bit range. -/
  saturateQ (i : Int) : Word := BitVec.ofInt 32 (clampInt (-(2 ^ 31)) (2 ^ 31 - 1) i)
  /-- Beyond it. -/
  beyondQ (i : Int) : Bool := decide (i < -(2 ^ 31) ∨ 2 ^ 31 - 1 < i)

/-- CLRQ. -/
def execClrq (core : Fin 4) (q : Bool) (s : State) : Out :=
  .next <| runInstr s core 1 fun s c => goOn s (putAcc c q 0)

end Sys2Proof.Machine
end

