-- ==== Sys2Proof/Machine/MbMove.lean ====
section
/-! DEFINITION. Moves, loads, stores and exchanges of the Mbophor cores: opcodes 0x10 to 0x2D (R301 to R312, R326, R334 to
R336, R339, R345, R349). -/

namespace Sys2Proof.Machine

/-! ### Register moves -/

/-- MOV: a register of tag 1 to 7 is copied with its tag. -/
def execMov (core : Fin 4) (rd ra : BitVec 4) (s : State) : Out :=
  .next <| runInstr s core 1 fun s c =>
    checked s [tagTrap 0 anyTag (regOf c ra)] fun _ => writeResult s c rd (regOf c ra)

/-- MOVR: all 36 bits are copied, without a check. -/
def execMovr (core : Fin 4) (rd ra : BitVec 4) (s : State) : Out :=
  .next <| runInstr s core 1 fun s c => writeResult s c rd (regOf c ra)

/-- LDI: a sign-extended immediate as INT. -/
def execLdi (core : Fin 4) (rd : BitVec 4) (imm : BitVec 20) (s : State) : Out :=
  .next <| runInstr s core 1 fun s c => writeResult s c rd (intWord (imm.signExtend 32))

/-- A tag that LDC and RETAG refuse: 0, 8 to 15, or ADDR or CODE over a payload beyond 24 bits. -/
def retagBad (tag : BitVec 4) (w : Word) : Bool :=
  tag = 0 || 8 ≤ tag.toNat || ((tag = tagAddr || tag = tagCode) && bitsOf w 31 24 != 0)

/-- LDC: the extension payload with the named tag. -/
def execLdc (core : Fin 4) (rd tag : BitVec 4) (ext : Word) (s : State) : Out :=
  .next <| runInstr s core 2 fun s c =>
    checked s [rsvenc (retagBad tag ext)] fun _ => writeResult s c rd (tagged tag ext)

/-- RETAG: a payload with a new tag. -/
def execRetag (core : Fin 4) (rd ra tag : BitVec 4) (s : State) : Out :=
  .next <| runInstr s core 1 fun s c =>
    let w := payload (regOf c ra)
    checked s [rsvenc (retagBad tag w), tagTrap 0 anyTag (regOf c ra)] fun _ => writeResult s c rd (tagged tag w)

/-- GETTAG: the tag as INT. -/
def execGettag (core : Fin 4) (rd ra : BitVec 4) (s : State) : Out :=
  .next <| runInstr s core 1 fun s c => writeResult s c rd (intWord ((tagOf (regOf c ra)).setWidth 32))

/-- MFRC: RC as INT. -/
def execMfrc (core : Fin 4) (rd : BitVec 4) (s : State) : Out :=
  .next <| runInstr s core 1 fun s c => writeResult s c rd (intWord (c.rc.setWidth 32))

/-- MTRC: RC from an INT operand; RPT of a repeat stays (R349). -/
def execMtrc (core : Fin 4) (ra : BitVec 4) (s : State) : Out :=
  .next <| runInstr s core 1 fun s c =>
    checked s [tagTrap 0 [tagInt] (regOf c ra)] fun _ => goOn s { c with rc := (payload (regOf c ra)).setWidth 16 }

/-- MFBK: a bank register as INT. -/
def execMfbk (core : Fin 4) (rd : BitVec 4) (k : BitVec 2) (s : State) : Out :=
  .next <| runInstr s core 1 fun s c =>
    writeResult s c rd (intWord ((c.bk.toList.getD k.toNat 0).setWidth 32))

/-- MTBK: a bank register from an INT operand. -/
def execMtbk (core : Fin 4) (ra : BitVec 4) (k : BitVec 2) (s : State) : Out :=
  .next <| runInstr s core 1 fun s c =>
    checked s [tagTrap 0 [tagInt] (regOf c ra)] fun _ =>
      goOn s { c with bk := c.bk.setIfInBounds k.toNat ((payload (regOf c ra)).setWidth 8) }

/-! ### Short loads and stores -/

/-- A load by short address. -/
def shortLoad (n : Fin 4) (r : BitVec 4) (bank : BitVec 2) (short : BitVec 16) (wholeRom : Bool) : CoreBody := fun s c =>
  let a := shortAddress c bank short
  checked s [loadTrap s n.val a] fun _ => loadFor s n c a wholeRom (.register r false 0 0)

/-- The tag check of a raw store: none where the target keeps whole words (R336). -/
def rawStoreTrap (n opnd : Nat) (a : BitVec 24) (w : Tagged) : Option Trap :=
  if isTaggedPlace n a then none else tagTrap opnd anyTag w

/-- LD: the word enters its register without a check of its tag (R303). -/
def execLd (core : Fin 4) (r : BitVec 4) (bank : BitVec 2) (short : BitVec 16) (s : State) : Out :=
  .next <| runInstr s core 1 (shortLoad core r bank short false)

/-- ST. -/
def execSt (core : Fin 4) (r : BitVec 4) (bank : BitVec 2) (short : BitVec 16) (s : State) : Out :=
  .next <| runInstr s core 1 fun s c =>
    let a := shortAddress c bank short
    checked s [tagTrap 0 anyTag (regOf c r), storeTrap s core.val a] fun _ =>
      (s, .next c fun s => coreStore s core a (regOf c r))

/-- LDR: as LD, and all 36 bits from the boot ROM. -/
def execLdr (core : Fin 4) (r : BitVec 4) (bank : BitVec 2) (short : BitVec 16) (s : State) : Out :=
  .next <| runInstr s core 1 (shortLoad core r bank short true)

/-- STR: raw to house and local SRAM. -/
def execStr (core : Fin 4) (r : BitVec 4) (bank : BitVec 2) (short : BitVec 16) (s : State) : Out :=
  .next <| runInstr s core 1 fun s c =>
    let a := shortAddress c bank short
    checked s [rawStoreTrap core.val 0 a (regOf c r), storeTrap s core.val a] fun _ =>
      (s, .next c fun s => coreStore s core a (regOf c r))

/-! ### Loads and stores through a pointer -/

/-- MODE 0b11 of FX. -/
def modeBad (mode : BitVec 2) : Option Trap := rsvenc (decide (mode = 3))

/-- A core with BASE updated (R334). -/
def updateBase (c : Core) (base : BitVec 4) (v : Option (BitVec 24)) : Core :=
  match v with
  | some a => putReg c base (addrWord a)
  | none => c

/-- A load through a pointer. -/
def pointerLoad (n : Fin 4) (r base : BitVec 4) (mode : BitVec 2) (off : BitVec 18) (wholeRom : Bool) : CoreBody := fun s c =>
  let f := fxAddress (addrOf (regOf c base)) mode off
  checked s [modeBad mode, tagTrap 0 [tagAddr] (regOf c base), loadTrap s n.val f.1] fun _ =>
    loadFor s n c f.1 wholeRom (.register r f.2.isSome base (f.2.getD 0))

/-- A store through a pointer; `raw` leaves the tag unchecked where the target keeps whole words. -/
def pointerStore (n : Fin 4) (r base : BitVec 4) (mode : BitVec 2) (off : BitVec 18) (raw : Bool) : CoreBody := fun s c =>
  let f := fxAddress (addrOf (regOf c base)) mode off
  let w := regOf c r
  checked s [modeBad mode, tagTrap 0 [tagAddr] (regOf c base),
      if raw then rawStoreTrap n.val 1 f.1 w else tagTrap 1 anyTag w, storeTrap s n.val f.1, stackTrap n.val c base f.1]
    fun _ => (s, .next (updateBase c base f.2) fun s => coreStore s n f.1 w)

/-- LDX. -/
def execLdx (core : Fin 4) (r base : BitVec 4) (mode : BitVec 2) (off : BitVec 18) (s : State) : Out :=
  .next <| runInstr s core 1 (pointerLoad core r base mode off false)

/-- STX. -/
def execStx (core : Fin 4) (r base : BitVec 4) (mode : BitVec 2) (off : BitVec 18) (s : State) : Out :=
  .next <| runInstr s core 1 (pointerStore core r base mode off false)

/-- LDRX: the raw load, whole from the boot ROM. -/
def execLdrx (core : Fin 4) (r base : BitVec 4) (mode : BitVec 2) (off : BitVec 18) (s : State) : Out :=
  .next <| runInstr s core 1 (pointerLoad core r base mode off true)

/-- STRX. -/
def execStrx (core : Fin 4) (r base : BitVec 4) (mode : BitVec 2) (off : BitVec 18) (s : State) : Out :=
  .next <| runInstr s core 1 (pointerStore core r base mode off true)

/-- LEA: BASE + OFF18 as ADDR; only MODE 0b00 is defined. -/
def execLea (core : Fin 4) (r base : BitVec 4) (mode : BitVec 2) (off : BitVec 18) (s : State) : Out :=
  .next <| runInstr s core 1 fun s c =>
    checked s [rsvenc (decide (mode ≠ 0)), tagTrap 0 [tagAddr] (regOf c base)] fun _ =>
      writeResult s c r (addrWord (fxAddress (addrOf (regOf c base)) mode off).1)

/-! ### Exchanges and the memory move (R345) -/

/-- XCHG: R and a word of house or local SRAM change places, all 36 bits; a word that cannot be read gives R POISON and stays (R383). -/
def execXchg (core : Fin 4) (r base : BitVec 4) (mode : BitVec 2) (off : BitVec 18) (s : State) : Out :=
  .next <| runInstr s core 1 fun s c =>
    let f := fxAddress (addrOf (regOf c base)) mode off
    checked s [modeBad mode, tagTrap 0 [tagAddr] (regOf c base),
        trapIf (!isTaggedPlace core.val f.1) (trapAt trAddr f.1)] fun _ =>
      let m := readRaw s core.val f.1
      let old := m.2.getD poison
      checked m.1 [pointerTrap r 0xF old, stackTrap core.val c base f.1] fun _ =>
        (m.1, .next (putReg (updateBase c base f.2) r old) fun s =>
          if m.2.isSome then coreStore s core f.1 (regOf c r) else s)

/-- CAS: compares all 36 bits of a word with RD; where they are equal it writes RB and sets Z, else it clears Z; RD takes the old
word. A word that cannot be read equals nothing, and RD takes POISON (R383). -/
def execCas (core : Fin 4) (rd ra rb : BitVec 4) (s : State) : Out :=
  .next <| runInstr s core 1 fun s c =>
    let a := addrOf (regOf c ra)
    checked s [tagTrap 0 [tagAddr] (regOf c ra), trapIf (!isTaggedPlace core.val a) (trapAt trAddr a)] fun _ =>
      let m := readRaw s core.val a
      let old := m.2.getD poison
      let eq := decide (m.2 = some (regOf c rd))
      checked m.1 [pointerTrap rd 0xF old, if eq then stackTrap core.val c ra a else none] fun _ =>
        (m.1, .next (putReg (withFlags c { z := some eq }) rd old) fun s =>
          if eq then coreStore s core a (regOf c rb) else s)

/-- MOVM: copies the raw word at RA to RD and adds 1 to both; by R301 where it comes from or goes to a place of 32-bit words. -/
def execMovm (core : Fin 4) (rd ra : BitVec 4) (s : State) : Out :=
  .next <| runInstr s core 1 fun s c =>
    let src := addrOf (regOf c ra)
    let dst := addrOf (regOf c rd)
    checked s [tagTrap 0 [tagAddr] (regOf c rd), tagTrap 1 [tagAddr] (regOf c ra), loadTrap s core.val src,
        storeTrap s core.val dst, stackTrap core.val c rd dst] fun _ => loadFor s core c src false (.move rd ra)

/-- PUSH: SP falls by 1 and the register is stored raw there (R305, R326). -/
def execPush (core : Fin 4) (ra : BitVec 4) (s : State) : Out :=
  .next <| runInstr s core 1 fun s c =>
    let a := addrOf (regOf c rSP) - 1
    checked s [tagTrap 1 [tagAddr] (regOf c rSP), storeTrap s core.val a, stackTrap core.val c rSP a] fun _ =>
      (s, .next (putReg c rSP (addrWord a)) fun s => coreStore s core a (regOf c ra))

/-- POP: the word at SP is loaded raw and SP rises by 1. -/
def execPop (core : Fin 4) (rd : BitVec 4) (s : State) : Out :=
  .next <| runInstr s core 1 fun s c =>
    let a := addrOf (regOf c rSP)
    checked s [tagTrap 0 [tagAddr] (regOf c rSP), loadTrap s core.val a] fun _ => loadFor s core c a false (.pop rd)

/-- LOAD_RETURN: the data of a stalled load returns (R313). -/
def execLoadReturn (core : Fin 4) (s : State) : Out := .next (loadReturn s core)

end Sys2Proof.Machine
end

