-- ==== Sys2Proof/Machine/Boot.lean ====
section
/-! DEFINITION. Resets as a whole and the boot that follows them: the power-on reset, the house-die reset, the boot sequence
and the images (R31, R527, R531, R557, R572, R574, R590 to R593). -/

namespace Sys2Proof.Machine

/-! ### What a boot does (R590) -/

/-- The boot record (R574, R584): reset cause, 0x1000:02, PCYC. -/
def bootRecord (s : State) (cause : Nat) : State :=
  record s .info 0x0001 cause s.dresser.version.toNat s.recorder.pcyc 0

/-- The dresser applies the persistent entries, the security state is what the seal mark and the island hold, and the boot
record is written. The first report will name the reset, 0 that of both dies and 1 that of the house die alone, and its cause
(R442). -/
def bootSteps (s : State) (scan : Bool) (cause : Nat) : State :=
  let s := { s with weave := { s.weave with resetNamed := some (if scan then 0 else 1, cause) } }
  bootRecord (bootDictionary (bootSecurity s) scan) cause

/-- A boot begins: the image is not chosen yet. -/
def startBoot (s : State) : State :=
  { s with power := { s.power with booting := true },
           dresser := { s.dresser with bootStatus := 0, version := 0 } }

/-- HOUSE_DIE_RESET: the house die is reset and boots again; the scan die goes on (R31). The spec gives its boot record no
cause. -/
def houseDieReset (s : State) : State :=
  let f := takeFresh (startBoot (houseReset s))
  bootSteps f.2 false (Config.freeNat f.1)

/-! ### The power-on reset -/

/-- Both dies are reset (R31); the power state is RUN, and the debug state closes (R531). The geometry table goes with the house die,
and the module's area with it; SC_EGSTAT.LOOP shows the loop state that the reset sets to idle (R199, R556). -/
def bothReset (s : State) : State :=
  let old := s
  let s := { s with bridge := .reset, area := none }
  let s := scanRegsReset (scanBlocksReset s)
  let s := houseRegsReset s
  let s := houseBlocksReset { s with twin := .reset }
  let s := houseCoresReset (houseMemoryReset (houseRecorderReset s))
  let s := showLoop (padsHouseReset old (holdPorts old s))
  let s := resetReg (resetReg (resetReg s HS_PWRCTL) HS_PWRSTAT) SEC_ALMCFG
  { s with
    power := { Power.reset with supply := .running, image := none, vinLow := s.power.vinLow },
    dresser := { s.dresser with lockups := 0 } }

/-- A power-on reset of both dies with its cause: 0 input power-up, 1 RESET_N, 2 the exit from OFF-AWAIT. The recorder takes up
its counts where power was lost (R572); PCYC rises. Where the house clocks stood still, each set wake latch gives its edge (R364). -/
def powerOnReset (s : State) (cause : Nat) : State :=
  let stopped := s.hic.clocksStopped || cause != 1
  let s := startBoot (bothReset s)
  let s := if cause = 1 then s else recorderResume s
  let s := { s with recorder := { s.recorder with pcyc := min 0xFFFFFF (s.recorder.pcyc + 1), bootCause := cause } }
  let s := repairDie (repairDie (islandLog s) false) true
  let s := debugClose (setF s SEC_UNLK_FAILS 0)
  let s := houseEdges s
  bootSteps (if stopped then clocksResume s else s) true cause

/-- OFF-AWAIT ends: a power-on reset with the island kept, WAKEEV and LASTWAKE (R535, R538, R543). -/
def leaveOffAwait (s : State) (w : Nat) : State :=
  let s := powerOnReset s 2
  raiseEvent (setF s HS_PWRSTAT_LASTWAKE w) 209 HS_PWRSTAT_WAKEEV

/-- What an edge on a wake source, or the end of a transition, leads to in OFF-AWAIT (R538). -/
def thenWake (s : State) : State :=
  match s.power.wakePending with
  | some w => if s.power.offAwait then leaveOffAwait s w else s
  | none => s

/-- RESET_PIN: RESET_N low for 1 µs gives a power-on reset and resets the pad set-up and locks (R557). -/
def resetPin (s : State) : State := powerOnReset (padsIslandReset s) 1

/-- SOFT_START_DONE: both dies leave reset and the boot sequence begins (R563, R590). -/
def softStartDone (s : State) : State := if s.power.supply = .softStart then powerOnReset s 0 else s

/-! ### Boot images (R591, R592) -/

/-- The fields of an image header that the boot ROM uses. -/
structure ImageHeader where
  magic : Nat
  version : Nat
  seqNo : Nat
  len : Nat
  load : Nat
  entry : Nat
  varmask : Nat
deriving DecidableEq, Repr

/-- The header of slot `k`. -/
def imageHeader (s : State) (k : Nat) : ImageHeader :=
  let bs := mramBytes s (0x200000 * k) 32
  { magic := leAt bs 0 4, version := leAt bs 4 4, seqNo := leAt bs 8 4, len := leAt bs 12 4, load := leAt bs 16 4,
    entry := leAt bs 20 4, varmask := leAt bs 24 4 }

/-- VARIANT of HS_ID (R3). -/
def variantNumber : Variant → Nat
  | .zw8460 => 1
  | .zw8440 => 2
  | .zw8420 => 3

/-- The header meets the format (R592): "RHAL", LEN, the place of the body, ENTRY, VARMASK. -/
def headerGood (v : Variant) (h : ImageHeader) : Bool :=
  h.magic = 0x4C414852 && h.len % 5 = 0 && 5 ≤ h.len && h.len ≤ 2096895 && h.load + h.len / 5 ≤ 0x80000 &&
    h.load ≤ h.entry && h.entry < h.load + h.len / 5 && bitAt h.varmask (variantNumber v - 1)

/-- The body of slot `k`. -/
def imageBody (s : State) (k len : Nat) : List Byte := mramBytes s (0x200000 * k + 256) len

/-- The key is the part's and its signature over bytes 0 to 127 verifies. -/
def imageSigned (s : State) (k : Nat) : Bool :=
  let b := 0x200000 * k
  let key := mramBytes s (b + 64) 64
  Crypto.sha256 key = Config.firmwareHash && Crypto.ecdsaOk (mramBytes s b 128) key (mramBytes s (b + 128) 64)

/-- Verifies slot `k`: 1 valid, 2 key or signature failed, 3 format, digest or read failed; the checks in the order of R592. -/
def verifySlot (s : State) (k : Nat) : State × Nat :=
  let b := 0x200000 * k / 32
  let r := readBlocks s b 8
  let h := imageHeader s k
  if !r.2 || !headerGood s.variant h then (r.1, 3)
  else if !imageSigned s k then (r.1, 2)
  else
    let q := readBlocks r.1 (b + 8) ((h.len + 31) / 32)
    if q.2 && Crypto.sha256 (imageBody s k h.len) = mramBytes s (0x200000 * k + 32) 32 then (q.1, 1) else (q.1, 3)

/-- Copies the words of a body into house SRAM from a word address, raw: five bytes to a word (R591). -/
def copyBody (s : State) (a : Nat) : Nat → List Byte → State
  | 0, _ => s
  | n + 1, bs =>
    let w := tagged (BitVec.ofNat 4 (leAt bs 4 1)) (BitVec.ofNat 32 (leAt bs 0 4))
    copyBody (sramStore s 0 a w) (a + 1) n (bs.drop 5)

/-- House firmware starts on core 0 (R592). -/
def startFirmware (s : State) (h : ImageHeader) (status : Nat) : State :=
  let c := Core.reset (BitVec.ofNat 24 h.entry)
  let c := putReg (putReg c rSP (addrWord 0x304000)) 0 (intWord (BitVec.ofNat 32 status))
  let s := setCore s 0 { c with slim := 0x300000, benchHalt := (coreOf s 0).benchHalt, breaks := (coreOf s 0).breaks }
  { s with dresser := { s.dresser with version := BitVec.ofNat 32 h.version } }

/-- The slot that is tried first: the higher SEQ, slot 0 where they are equal. -/
def firstSlot (s : State) : Nat := if (imageHeader s 0).seqNo < (imageHeader s 1).seqNo then 1 else 0

/-- Boot status of R594: the booted slot, or 3 for recovery, and what each slot's check gave. -/
def bootStatusOf (slot first r other : Nat) : Nat :=
  let r0 := if first = 0 then r else other
  let r1 := if first = 0 then other else r
  slot + r0 * 4 + r1 * 16

/-- The boot sequence ends with slot `k` booted. -/
def bootFrom (s : State) (k status : Nat) : State :=
  let h := imageHeader s k
  let s := copyBody s h.load (h.len / 5) (imageBody s k h.len)
  startFirmware { s with dresser := { s.dresser with bootStatus := BitVec.ofNat 8 status } } h status

/-- BOOT_COMPLETE: the slots are verified in their order; a valid one starts, or the module is in recovery (R592). -/
def bootComplete (s : State) : State :=
  if !s.power.booting || !houseOn s then s
  else
    let s := { s with power := { s.power with booting := false } }
    let k := firstSlot s
    let a := verifySlot s k
    if a.2 = 1 then bootFrom a.1 k (bootStatusOf k k 1 0)
    else
      let b := verifySlot a.1 (1 - k)
      if b.2 = 1 then bootFrom b.1 (1 - k) (bootStatusOf (1 - k) k a.2 1)
      else { b.1 with dresser := { b.1.dresser with bootStatus := BitVec.ofNat 8 (bootStatusOf 3 k a.2 b.2) } }

end Sys2Proof.Machine
end

