-- ==== Sys2Proof/Machine/RowOps.lean ====
section
/-! DEFINITION. What the commands share: which die must be powered, writes of one register with a bit set, and dictionary
writes that are commands of their own. -/

namespace Sys2Proof.Machine

/-- A command of the house die: nothing happens while it is off (R534). -/
def whenHouse (s : State) (f : State → State) : Out := .next (if houseOn s then f s else s)

/-- A command of the scan die. -/
def whenScan (s : State) (f : State → State) : Out := .next (if scanOn s then f s else s)

/-- A word with a field set to all ones. -/
def withOnes (w : Word) (f : Fld) : Word := w ||| fieldMask f.hi f.lo

/-- A word with a field cleared. -/
def withZeros (w : Word) (f : Fld) : Word := w &&& ~~~ fieldMask f.hi f.lo

/-- A register write applies at its die; on the scan die it is credited to its source (R12, R176). -/
def rowWrite (s : State) (src : Src) (a : Nat) (w : Word) : Out :=
  if isScanAddr a then whenScan s fun s => creditScene (regWrite s src a w) src a
  else whenHouse s fun s => regWrite s src a w

/-- A write that sets one bit field and leaves the register's other fields as they are (log entry 4): the form of the commands
that only clear or invalidate. -/
def bitWrite (s : State) (f : Fld) : Out :=
  let m := fieldMask f.hi f.lo
  if isScanAddr f.addr then whenScan s fun s => creditScene (regWriteBits s .dresser f.addr m m) .dresser f.addr
  else whenHouse s fun s => regWriteBits s .dresser f.addr m m

/-- A register read at its die. -/
def rowRead (s : State) (src : Src) (a : Nat) : Out :=
  if isScanAddr a then whenScan s fun s => (regRead s src a).1 else whenHouse s fun s => (regRead s src a).1

/-- A dictionary write that comes as a command of its own (R503). -/
def askWrite (s : State) (cls : PortClass) (egr : Bool) (index sub : Nat) (data : List Byte) : Out :=
  whenHouse s fun s => submit s (plainRequest cls egr 2 index sub data)

end Sys2Proof.Machine
end

