-- ==== Sys2Proof/Machine/RowsAudio.lean ====
section
/-! DEFINITION. The commands of audio (R468 to R493). -/

namespace Sys2Proof.Machine

/-- AUDIO_SAMPLE (R470 to R485). -/
def execAudioSample (s : State) : Out := whenHouse s audioSample

/-- VOICE_FETCH: the unit that holds source sample `k` of a voice is read (R472). -/
def execVoiceFetch (voice : BitVec 8) (k : Word) (s : State) : Out := whenHouse s fun s => voiceFetch s voice.toNat k.toNat

/-- D48_SAMPLE (R479). -/
def execD48Sample (s : State) : Out := whenHouse s d48Sample

/-- CODEC_FRAME: the two samples of an input frame, and whether its LRCK lies within ±1,000 ppm (R469, R480). -/
def execCodecFrame (left right : BitVec 24) (near : Bool) (s : State) : Out :=
  whenHouse s fun s => codecFrame s left right near

/-- AUDIO_EVENT_PUSH: a write of AU_EVCMD (R476). -/
def execAudioEventPush (src : Src) (val : Word) (s : State) : Out := rowWrite s src AU_EVCMD val

/-- AUDIO_EVENT_DUE (R477). -/
def execAudioEventDue (s : State) : Out := whenHouse s eventDue

/-- VOICE_START: a write of AU_VvCTL with RUN = 1 (R470, R493). -/
def execVoiceStart (src : Src) (voice : BitVec 8) (val : Word) (s : State) : Out :=
  rowWrite s src (AU_VCTL voice.toNat) (withOnes val (AU_VCTL_RUN voice.toNat))

/-- VOICE_STOP: a write of AU_VvCTL with RUN = 0 (R470, R493). -/
def execVoiceStop (src : Src) (voice : BitVec 8) (val : Word) (s : State) : Out :=
  rowWrite s src (AU_VCTL voice.toNat) (withZeros val (AU_VCTL_RUN voice.toNat))

/-- STREAM_SIZE_WRITE: a write of AU_STRnS (R492). -/
def execStreamSizeWrite (src : Src) (n : Fin 8) (val : Word) (s : State) : Out := rowWrite s src (AU_STRS n.val) val

/-- AUDIO_CNTCLR: a write of AU_CTL with CNTCLR = 1 (R488). -/
def execAudioCntclr (s : State) : Out := bitWrite s AU_CTL_CNTCLR

end Sys2Proof.Machine
end

