-- ==== Sys2Proof/Machine/Beacons.lean ====
section
/-! DEFINITION. Beacons: an anchor's sending, and the check, forwarding and use of a received one (R66 to R71). -/

namespace Sys2Proof.Machine

/-- The state that an anchor's beacon carries (R67); none outside LOCKED, HOLDOVER and FREE. -/
def beaconState (s : State) : Option Nat :=
  if beamState s = bmLocked then some 0 else if beamState s = bmHoldover then some 1
  else if beamState s = bmFree then some 2 else none

/-- A beacon payload with its CRC (R67). -/
def sealBeacon (bs : List Byte) : List Byte := bs.take 28 ++ leBytes 4 (crc32 (bs.take 28)).toNat

/-- An anchor that is sending emits a beacon at a line index that is a multiple of 256; `corr` is the time from the start of
the line to the departure of its first symbol (R64, R66 to R68). -/
def beaconSend (s : State) (corr : Nat) : State :=
  let role := anchorRole s
  match beaconState s with
  | none => s
  | some st =>
    if role = 0 || s.beam.followsOther || s.beam.line % 256 != 0 || !bridgeUp s then s
    else
      let bs := leBytes 8 (posWord s.beam.frame s.beam.line 0).toNat ++ leBytes 4 corr ++ leBytes 4 (s.beam.line % 131072) ++
        leBytes 2 (getF s WV_ID_MID + role * 16384) ++ leBytes 1 st ++ [0] ++ leBytes 4 (regWord s WV_GEPOCH).toNat ++
        leBytes 4 s.beam.bseq.toNat
      let s := { s with beam := { s.beam with bseq := s.beam.bseq + 1 } }
      (originate s (makePacket 1 (BitVec.ofNat 14 (role - 1)) false 3 0 0 2 0 (sealBeacon bs))).1

/-- Whether a beacon is discarded (R71): its CRC, its epoch, its anchor, its residence of more than 50 µs, or a link without
a measured delay. -/
def beaconRefused (s : State) (arrival : Nat) (b : List Byte) (residence : Nat) : Bool :=
  b.length < 32 || (crc32 (b.take 28)).toNat != leAt b 28 4 || leAt b 20 4 != (regWord s WV_GEPOCH).toNat ||
    !s.weave.anchors.contains (BitVec.ofNat 16 (leAt b 16 2)) || 3200000 < residence ||
    !flag s (WV_PORTSTAT_DLYV arrival)

/-- A beacon as it leaves: CORR grown by the link delay and the residence, HOPS by one (R68). DESIGN CHOICE (log entry 50): a hop
count of 255 stays. -/
def forwardedBeacon (b : List Byte) (delay residence : Nat) : List Byte :=
  let corr := leAt b 8 4 + delay + residence
  let ix := leAt b 12 4
  let hops := min 255 (natBits ix 31 24 + 1)
  sealBeacon (b.take 8 ++ leBytes 4 corr ++ leBytes 4 (ix % 16777216 + hops * 16777216) ++ (b.drop 16).take 12)

/-- What tracking uses of a beacon (R67, R69): the true position at arrival is STAMP plus CORR and the link delay. -/
def beaconFix (s : State) (b : List Byte) (delay stamp : Nat) : BeaconFix :=
  let line := natBits (leAt b 12 4) 16 0
  { anchor := natBits (leAt b 16 2) 15 14, hops := natBits (leAt b 12 4) 31 24, state := leAt b 18 1,
    frame := BitVec.ofNat 32 (leAt b 4 4),
    time := ((line * 256 * framePeriod s * 25 / (1024 * frameLines s) + leAt b 8 4 + delay : Nat) : Int),
    stamp := stamp }

/-- A beacon goes to the beam block with its stamp, as a PW of source 0x08 (R40, R45, R51). -/
def beaconToBeam (s : State) (b : BeaconFix) : State := issueToScan s (.beacon b)

/-- The oldest received beacon is checked, forwarded along its group and used by the beam block (R68 to R71). -/
def beaconReceive (s : State) (residence : Nat) : State :=
  match s.weave.beacons with
  | [] => s
  | (arrival, x) :: rest =>
    let pkt := x.pkt
    let s := { s with weave := { s.weave with beacons := rest } }
    let b := pkt.payload
    if beaconRefused s arrival b residence then countF s SC_BEACNT_DISCARD 1
    else
      let delay := getF s (WV_PORTDLY_DELAY arrival)
      let fix := beaconFix s b delay x.stamp
      if pkt.dkind != 1 then beaconToBeam s fix
      else
        match groupEntry s (natBits pkt.dest.toNat 7 0) with
        | none => s
        | some (_, out) =>
          let copy := { pkt with payload := forwardedBeacon b delay residence }
          let s := (out.filter fun p => p != arrival && p != 7).foldl
            (fun s p => enqueueOut s p { pkt := copy, copy := true, arrival }) s
          if out.contains 7 then beaconToBeam s fix else s

end Sys2Proof.Machine
end

