-- ==== Sys2Proof/Machine/RowsBeam.lean ====
section
/-! DEFINITION. The wall beam's commands (R57 to R101). -/

namespace Sys2Proof.Machine

/-- FRAME_PULSE: the selected edge of an anchor's frame pulse, with the frame period measured at it in units of SC_BEAMPER
(R61 to R64). -/
def execFramePulse (period : Word) (s : State) : Out := whenScan s fun s => framePulse s period.toNat

/-- LINE_CLOCK_EDGE (R61). -/
def execLineClockEdge (s : State) : Out := whenScan s lineClockEdge

/-- FRAME_COUNT_SET: a write of 0x2015:00 (R63). -/
def execFrameCountSet (cls : PortClass) (egr : Bool) (count : Word) (s : State) : Out :=
  askWrite s cls egr 0x2015 0 (leBytes 4 count.toNat)

/-- BEACON_SEND: an anchor sends a beacon with its time correction `corr` (R66, R67). -/
def execBeaconSend (corr : BitVec 32) (s : State) : Out := whenScan s fun s => beaconSend s corr.toNat

/-- BEACON_RECEIVE: the oldest received beacon, after a residence in 1/64 ns (R68 to R73). -/
def execBeaconReceive (residence : BitVec 32) (s : State) : Out := whenScan s fun s => beaconReceive s residence.toNat

/-- HOLDOVER_ENTRY (R74). -/
def execHoldoverEntry (s : State) : Out := whenScan s holdoverEntry

/-- FREE_ENTRY (R78). -/
def execFreeEntry (s : State) : Out := whenScan s enterFree

/-- ANCHOR_CHANGE (R72). -/
def execAnchorChange (s : State) : Out := whenScan s anchorChange

/-- FRAME_START: the beam reaches line index 0; a waiting frame count is taken, the epochs are compared with the partner's, and
D96 locks where it may (R57, R65, R451, R468). -/
def execFrameStart (s : State) : Out := whenScan s fun s =>
  if beamState s = bmOff then s else d96Frame (compareEpochs (beamFrameStart s))

/-- WATERMARK_FIRE (R93). -/
def execWatermarkFire (n : Fin 4) (s : State) : Out := whenScan s fun s => watermarkFire s n.val

/-- BEAM_ENABLE: a write of SC_BEAMCTL that sets or clears EN (R94). -/
def execBeamEnable (src : Src) (val : Word) (s : State) : Out := rowWrite s src SC_BEAMCTL val

/-- REACQ: a write of SC_BEAMCTL with REACQ = 1 (R94). -/
def execReacq (src : Src) (val : Word) (s : State) : Out := rowWrite s src SC_BEAMCTL (withOnes val SC_BEAMCTL_REACQ)

/-- BEACNT_CLEAR: a write of SC_BEAMCTL with CNTCLR = 1 (R94). -/
def execBeacntClear (s : State) : Out := bitWrite s SC_BEAMCTL_CNTCLR

/-- BEAM_FORMAT_WRITE: a write of SC_BEAMPER, or else of SC_BEAMFMT (R95). -/
def execBeamFormatWrite (src : Src) (per : Bool) (val : Word) (s : State) : Out :=
  rowWrite s src (if per then SC_BEAMPER else SC_BEAMFMT) val

/-- BEAMPOS_LO_READ (R96). -/
def execBeamposLoRead (src : Src) (s : State) : Out := rowRead s src SC_BEAMPOS_LO

end Sys2Proof.Machine
end

