-- ==== Sys2Proof/Machine/Bench.lean ====
section
/-! DEFINITION. The bench port: its instructions by debug state, boundary scan, word access to the house address map, core
debugging (R528, R532, R533, R540). -/

namespace Sys2Proof.Machine

/-! ### Instructions and states -/

/-- The debug state is OPEN-CUSTOMER or OPEN-FACTORY. -/
def benchOpen (s : State) : Bool := debugState s != 0

/-- The debug state is OPEN-FACTORY. -/
def benchFactory (s : State) : Bool := debugState s = 2

/-- What the bench port shifts out. -/
def benchOut (s : State) (bytes : List Byte) : State := emit s (.bench bytes)

/-- An instruction other than EXTEST, CLAMP and HIGHZ ends the boundary-scan test that is in force. -/
def leaveBoundary (s : State) : State := { s with hutch := { s.hutch with boundary := .off } }

/-- The bypass register: what is shifted in leaves one bit later, after a 0 (R528, as IEEE 1149.1). -/
def bypass (s : State) (data : List Byte) : State :=
  benchOut (leaveBoundary s) (leBytes data.length (2 * leNat data))

/-- What the bench port shifts in with an instruction: bytes, or as many whose layout in its data register the spec leaves open. -/
inductive Shifted where
  | bytes (data : List Byte)
  | unlaid (len : Nat)
deriving DecidableEq, Repr

/-- An instruction that the state does not allow acts as BYPASS on what is shifted in (R528). -/
def asBypass (s : State) : Shifted → State
  | .bytes data => bypass s data
  | .unlaid len =>
    let r := freeBytes s len
    bypass r.1 r.2

/-- A bench instruction of a powered part that has its condition; else it acts as BYPASS. -/
def benchWhen (s : State) (allowed : Bool) (shifted : Shifted) (f : State → State) : State :=
  if houseOn s && allowed then f (leaveBoundary s) else if s.power.island then asBypass s shifted else s

/-- The identification code (R528). -/
def idcode (s : State) : Nat :=
  let part := match s.variant with
    | .zw8460 => 0x8460
    | .zw8440 => 0x8440
    | .zw8420 => 0x8420
  1 * 2 ^ 28 + part * 2 ^ 12 + 0x2B5 * 2 + 1

/-- The boundary register as captured: the spec does not lay it out, so its bits are free. -/
def captureBoundary (s : State) (len : Nat) : State :=
  let r := freeBytes s len
  benchOut r.1 r.2

/-- The level of the OWN_A land: the interlock's, or high under a boundary-scan test (R533). -/
def ownALand (s : State) : Bool := s.drive.ownA || s.hutch.boundary != .off

/-- A boundary-scan instruction (R533). -/
def boundaryScan (s : State) (b : Boundary) (data : List Byte) : State :=
  if houseOn s && benchOpen s then { s with hutch := { s.hutch with boundary := b } }
  else if s.power.island then asBypass s (.bytes data) else s

/-! ### MEMAP -/

/-- The addresses that MEMAP leaves out: the hutch's block (R528). -/
def benchExcluded (a : BitVec 24) : Bool := 0x107000 ≤ a.toNat && a.toNat < 0x108000

/-- Codes of R443 with which an access ends. -/
abbrev codeDone : Nat := 1
abbrev codePoisoned : Nat := 4
abbrev codeTimedOut : Nat := 5

/-- An access that is answered: status, then the word in five bytes. -/
def benchWord (s : State) (w : Tagged) : State := benchOut s (leBytes 4 codeDone ++ leBytes 5 w.toNat)

/-- A read that met an uncorrectable error: its status, then POISON (R383, R443). -/
def benchBad (s : State) : State := benchOut s (leBytes 4 codePoisoned ++ leBytes 5 poison.toNat)

/-- An access that ends with a status. -/
def benchStatus (s : State) (status : Nat) : State := benchOut s (leBytes 4 status)

/-- The answer of a memory that may not be readable. -/
def benchCell (s : State) (w : Option Tagged) : State :=
  match w with
  | some w => benchWord s w
  | none => benchBad s

/-- MEMAP's operands in an instruction that acts as BYPASS: address, word and the kind of the access. -/
abbrev memapShift : Shifted := .unlaid 9

/-- Bytes of a word of 32 bits as a read gives them. -/
def intBytes (bs : List Byte) : Tagged := intWord (BitVec.ofNat 32 (leNat bs))

/-- A read through the bridge goes out as a request of source 0x04, behind that source's writes, and its answer is shifted out when
it comes (R38, R42); with the scan die off or the bridge DOWN it fails with TIMED_OUT (R51, R540). -/
def benchBridgeRead (s : State) (t : Target) : State :=
  if !scanOn s || bridgeDown s then benchStatus s codeTimedOut
  else
    issueToScan { s with hutch := { s.hutch with benchReads := s.hutch.benchReads ++ [t] } } (.readRequest .dresser t 4)

/-- The answers to the bench port's reads that have come are shifted out, in order; reads that the bridge has lost end with TIMED_OUT.
`fuel` bounds their number. -/
def benchAnswers (s : State) : Nat → State
  | 0 => s
  | fuel + 1 =>
    match s.hutch.benchReads with
    | [] => s
    | t :: ts =>
      let drop (s : State) : State := { s with hutch := { s.hutch with benchReads := ts } }
      match takeAnswer s .dresser t with
      | some (s, bs, failed) => benchAnswers (benchCell (drop s) (if failed then none else some (intBytes bs))) fuel
      | none => if targetLost s .dresser t then benchAnswers (benchStatus (drop s) codeTimedOut) fuel else s

/-- The dresser and the bench port go on with what has come through the bridge. -/
def sourceGoesOn (s : State) : State := benchAnswers (pumpAll s) (s.hutch.benchReads.length + 1)

/-- A write through the bridge. -/
def benchBridgeWrite (s : State) (m : Msg) : State :=
  if !scanOn s || bridgeDown s then benchStatus (issueToScan s m) codeTimedOut
  else benchStatus (issueToScan s m) codeDone

/-- MRAM areas that the bench port may write: all but the island block, and the egress library while its layer is active (R175,
R522). -/
def benchMramStore (s : State) (a : Nat) (v : Word) : State :=
  if (0x5FFE00 ≤ a && a < 0x600000) || (0x700000 ≤ a && flag s SC_EGSTAT_ACTIVE) then countF s HS_MEMSTAT_MRREF 1 else mramPut s a (leBytes 4 v.toNat)

/-- A MEMAP read at a word address, with the windows and the local SRAM of core `n` (R309 to R312). An unmapped word has no
contents, so what is shifted out is free. -/
def benchRead (s : State) (n : Fin 4) (direct : Bool) (a : BitVec 24) : State :=
  match placeOf n.val a with
  | .sram m x =>
    let r := sramLoad s m x
    benchCell r.1 r.2
  | .rom => benchWord s (Config.bootRom (a.toNat - 0x1F0000))
  | .mram w =>
    if benchFactory s then
      let r := mramLoad s (mramWindow s n.val w)
      benchCell r.1 (r.2.map intWord)
    else asBypass s memapShift
  | .houseReg =>
    if benchExcluded a then asBypass s memapShift
    else
      let r := regRead s (.core n) a.toNat
      benchWord r.1 (intWord r.2)
  | .scanReg => benchBridgeRead s (.register a.toNat)
  | .dram win w =>
    match windowByte s n.val win w with
    | none => captureBoundary s 9
    | some b =>
      if direct && benchFactory s then
        if !scanOn s then benchStatus s codeTimedOut
        else benchCell (touchUnits s (unitsOf b 4) (srcId .dresser))
          (if extentBad s b 4 then none else some (intBytes (dramBytes s b 4)))
      else benchBridgeRead s (.dram b)
  | .unmapped => captureBoundary s 9

/-- A MEMAP write. The direct path writes DRAM beside the DRAM controller: no guard window, no cache and no scene count sees it
(R136, R528). -/
def benchWrite (s : State) (n : Fin 4) (direct : Bool) (a : BitVec 24) (w : Tagged) : State :=
  match placeOf n.val a with
  | .sram m x => benchStatus (sramStore s m x w) codeDone
  | .mram k =>
    if benchFactory s then benchStatus (benchMramStore s (mramWindow s n.val k) (payload w)) codeDone
    else asBypass s memapShift
  | .houseReg =>
    if benchExcluded a then asBypass s memapShift else benchStatus (regWrite s (.core n) a.toNat (payload w)) codeDone
  | .scanReg =>
    if isStaged a.toNat then benchStatus (regWriteBase s .dresser a.toNat (payload w)) codeDone
    else benchBridgeWrite s (.regWrite .dresser a.toNat (payload w))
  | .dram win k =>
    match windowByte s n.val win k with
    | none => benchStatus s codeDone
    | some b =>
      let bytes := leBytes 4 (payload w).toNat
      if direct && benchFactory s then
        if scanOn s then benchStatus (writeExtent s (srcId .dresser) b bytes) codeDone else benchStatus s codeTimedOut
      else benchBridgeWrite s (.dramWrite .dresser b bytes)
  | .rom | .unmapped => benchStatus s codeDone

/-! ### COREDBG -/

/-- A register of a core. -/
def readCoreReg (c : Core) : CoreReg → BitVec 72
  | .word r => (regOf c r).zeroExtend 72
  | .acc q => if q then c.q[1] else c.q[0]
  | .pc => c.pc.zeroExtend 72
  | .sr => c.sr.zeroExtend 72
  | .rc => c.rc.zeroExtend 72
  | .bk => (bankWord c).zeroExtend 72
  | .vtab => c.vtab.zeroExtend 72
  | .slim => c.slim.zeroExtend 72
  | .tcause => c.tcause.zeroExtend 72
  | .taddr => c.taddr.zeroExtend 72

/-- A core with a register replaced. -/
def writeCoreReg (c : Core) (v : BitVec 72) : CoreReg → Core
  | .word r => putReg c r (v.setWidth 36)
  | .acc q => { c with q := if q then c.q.set 1 v else c.q.set 0 v }
  | .pc => { c with pc := v.setWidth 24 }
  | .sr => { c with sr := v.setWidth 32 }
  | .rc => { c with rc := v.setWidth 16 }
  | .bk => { c with bk := banksOf (v.setWidth 36) }
  | .vtab => { c with vtab := v.setWidth 24 }
  | .slim => { c with slim := v.setWidth 24 }
  | .tcause => { c with tcause := v.setWidth 32 }
  | .taddr => { c with taddr := v.setWidth 24 |>.setWidth 32 }

/-- COREDBG: halt, resume, a step, breakpoints and register access (R528). -/
def coreDebug (s : State) (n : Fin 4) (op : CoreDebug) : State :=
  let c := coreOf s n.val
  match op with
  | .halt => setCore s n.val { c with benchHalt := true }
  | .resume => setCore s n.val { c with benchHalt := false, passing := true, stepping := false }
  | .step => setCore s n.val { c with benchHalt := false, passing := true, stepping := true }
  | .setBreak a => setCore s n.val { c with breaks := if c.breaks.contains a then c.breaks else c.breaks ++ [a] }
  | .clearBreak a => setCore s n.val { c with breaks := c.breaks.filter (· != a) }
  | .read r => benchOut s (leBytes 9 (readCoreReg c r).toNat)
  | .write r v => setCore s n.val (writeCoreReg c v r)

/-! ### SCANTEST -/

/-- SCANTEST: the scan die is taken apart by its own test; the scene is lost with the DRAM that held it, and what the test
reports is free (R528). -/
def scanTest (s : State) : State :=
  let s := if scanOn s then scanReset { s with dram := { s.dram with bytes := [], units := [] } } else s
  captureBoundary s 4

end Sys2Proof.Machine
end

