-- ==== Sys2Proof/Machine/RowsBridge.lean ====
section
/-! DEFINITION. Register writes, resets, the die bridge and its messages (R12 to R17, R31, R37 to R55). -/

namespace Sys2Proof.Machine

/-! ### Registers -/

/-- A house word address of a register block (R309). -/
def isRegisterAddr (a : BitVec 24) : Bool :=
  match placeOf 0 a with
  | .houseReg | .scanReg => true
  | _ => false

/-- REGISTER_WRITE: a register write at its destination, by access code; an address outside the register blocks names no
register. -/
def execRegisterWrite (src : Src) (addr : BitVec 24) (val : Word) (s : State) : Out :=
  if isRegisterAddr addr then rowWrite s src addr.toNat val else .next s

/-- RSVWR_CLEAR: a write of HS_RSVWR with CLEAR = 1; it clears before the same write's reserved bits count (R15, R16). -/
def execRsvwrClear (s : State) : Out := bitWrite s HS_RSVWR_CLEAR

/-! ### Resets -/

/-- POWER_ON_RESET of a powered part (R31). -/
def execPowerOnReset (s : State) : Out := .next (if s.power.supply = .running then powerOnReset s 0 else s)

/-- HOUSE_DIE_RESET (R31). -/
def execHouseDieReset (s : State) : Out := whenHouse s houseDieReset

/-- SCAN_DIE_RESET (R31). -/
def execScanDieReset (s : State) : Out := whenScan s scanReset

/-- FRAME_STORE_CLEAR_DONE: both banks have been written 0, and composition may write (R226). -/
def execFrameStoreClearDone (s : State) : Out :=
  whenScan s fun s => { s with drive := { s.drive with clearing := false } }

/-! ### Flits -/

/-- BRIDGE_FLIT_RECEIVE at the die `dest`: the flit numbered `seq`, its CRC good or not (R47); a READ that waits for its answer goes
on with it. -/
def execBridgeFlitReceive (dest : Die) (seq : BitVec 10) (crcOk : Bool) (s : State) : Out :=
  whenScan s fun s => sourceGoesOn (receiveFlit s dest seq crcOk)

/-- BRIDGE_NAK_RECEIVE: a NAK of the direction to `dest` reaches its sender (R47). -/
def execBridgeNakReceive (dest : Die) (seq : BitVec 10) (s : State) : Out := whenScan s fun s => receiveNak s dest seq

/-- BRIDGE_ACK_RECEIVE: flits up to `seq` are acknowledged (R48); the dresser goes on where it waited. -/
def execBridgeAckReceive (dest : Die) (seq : BitVec 10) (s : State) : Out := whenScan s fun s => pumpAll (receiveAck s dest seq)

/-- BRIDGE_LINK_FAULT (R49). -/
def execBridgeLinkFault (cause : BridgeFault) (s : State) : Out := whenScan s fun s => bridgeFault s cause

/-- BRIDGE_RETRAIN: a write of HS_BRCTL with RETRAIN = 1 (R53). -/
def execBridgeRetrain (src : Src) (val : Word) (s : State) : Out :=
  rowWrite s src HS_BRCTL (withOnes val HS_BRCTL_RETRAIN)

/-- BRIDGE_CNTCLR: a write of HS_BRCTL with CNTCLR = 1 (R53). -/
def execBridgeCntclr (s : State) : Out := bitWrite s HS_BRCTL_CNTCLR

/-- A training or retraining runs, or is due after a reset (R51). -/
def trainingRuns (s : State) : Bool :=
  bridgeState s = brTraining || bridgeState s = brRetraining ||
    (bridgeState s = brDown && s.bridge.trainAfterReset && !s.bridge.poweredDown)

/-- What the end of a training sets in motion: with the bridge UP the decoders' keys that differ are loaded (log entry 93) and the
dresser goes on; with it DOWN the fatal fault "bridge down" is reported (R50, R455, R520). -/
def afterTraining (s : State) : State :=
  if bridgeUp s then sourceGoesOn (reloadDecoders s)
  else if bridgeState s = brDown then sourceGoesOn (fatalFault s 2)
  else s

/-- BRIDGE_TRAINING_DONE: a training ends, with the lanes in use of each direction where it ends on 4 (R50). -/
def execBridgeTrainingDone (ok : Bool) (lanesHs lanesSh : BitVec 8) (s : State) : Out :=
  whenScan s fun s => if trainingRuns s then afterTraining (trainingDone s ok lanesHs lanesSh) else s

/-! ### Messages -/

/-- PW_APPLY: the next message that may apply at a die (R41, R44, R180). -/
def execPwApply (dest : Die) (s : State) : Out :=
  match dest with
  | .scan => whenScan s applyAtScan
  | .house => whenHouse s applyAtHouse

/-- RD_REQUEST: the next read that may go at the scan die (R42). -/
def execRdRequest (s : State) : Out := whenScan s rdRequest

/-- READ_TIMEOUT: a read issued while the bridge is DOWN fails 20 µs after its issue (R51). -/
def execReadTimeout (reader : Reader) (s : State) : Out := whenHouse s fun s => sourceGoesOn (readTimeout s reader)

/-- CM_ARRIVAL: the next CM at the scan die (R43, R179). -/
def execCmArrival (s : State) : Out := whenScan s cmArrival

end Sys2Proof.Machine
end

