-- ==== Sys2Proof/Machine/RowsCommit.lean ====
section
/-! DEFINITION. The commands of commits and fences, and of the egress layer (R171 to R200, R556). -/

namespace Sys2Proof.Machine

/-! ### Commits -/

/-- CMGO: a write of WCOUNT to SC_CMGO sends the source's staged commit (R178). The write acts on the house side of the bridge
as it is issued. -/
def execCmgo (src : Src) (val : Word) (s : State) : Out := whenHouse s fun s => regWrite s src SC_CMGO val

/-- ADMISSION of the source's held commit (R184). -/
def execAdmission (src : Src) (s : State) : Out := whenScan s fun s => admitCommit s src

/-- COMMIT_DEADLINE of the source's held commit (R179). -/
def execCommitDeadline (src : Src) (s : State) : Out := whenScan s fun s => deadlineCommit s src

/-- The source's admitted commit is accepted once its frame is next, with those of its instant, and the binding rows that changed
are sent (R179, R182, R474). -/
def acceptAndBind (s : State) (src : Src) : State :=
  match commitAt s src .admitted with
  | none => s
  | some c =>
    let s' := acceptReady s src
    if s'.comp.accepted = s.comp.accepted then s' else sendBindings s' (targetFrame s c.tframe)

/-- COMMIT_ACCEPT (R179). -/
def execCommitAccept (src : Src) (s : State) : Out := whenScan s fun s => acceptAndBind s src

/-- FENCEQ_READ (R198). -/
def execFenceqRead (src : Src) (s : State) : Out := rowRead s src SC_FENCEQ

/-- CMCNT_CLEAR: a write of SC_CMEV with CNTCLR = 1 (R197). -/
def execCmcntClear (s : State) : Out := bitWrite s SC_CMEV_CNTCLR

/-! ### The egress layer -/

/-- A sample of the EGRESS pad; a change of the loop state is an edge on wake source 5 (R538, R556). -/
def loopSample (s : State) (code : BitVec 10) : State :=
  let s' := egressSample s code
  if s'.pads.loop = s.pads.loop then s' else thenWake (wakeEdge s' 5 true)

/-- EGRESS_SAMPLE (R556). -/
def execEgressSample (code : BitVec 10) (s : State) : Out := whenHouse s fun s => loopSample s code

/-- EGRESS_COMMAND: a write of 0x3401:00 (R173). -/
def execEgressCommand (cls : PortClass) (egr : Bool) (val : Byte) (s : State) : Out := askWrite s cls egr 0x3401 0 [val]

/-- EGRESS_LIBRARY_WRITE: a write of 0x3402:00 (R175). -/
def execEgressLibraryWrite (cls : PortClass) (egr : Bool) (data : List Byte) (s : State) : Out :=
  askWrite s cls egr 0x3402 0 data

/-- EGRESS_LIBRARY_VERIFY (R172). -/
def execEgressLibraryVerify (s : State) : Out := whenHouse s verifyLibrary

/-- EGCTL_LOCK: a write of SC_EGCTL with LOCK = 1 (R199). -/
def execEgctlLock (src : Src) (val : Word) (s : State) : Out := rowWrite s src SC_EGCTL (withOnes val SC_EGCTL_LOCK)

end Sys2Proof.Machine
end

