-- ==== Sys2Proof/Machine/RowsCompose.lean ====
section
/-! DEFINITION. The commands of composition, flips, the scene memory and the trestle (R82 to R91, R106 to R136, R150, R211 to
R221, R385). -/

namespace Sys2Proof.Machine

/-! ### Composition and flips -/

/-- COMPOSE_START of a pass of a frame (R82). -/
def execComposeStart (frame : Word) (feed : BitVec 2) (s : State) : Out := whenScan s fun s => composeStart s frame feed.toNat

/-- A cluster line is composed; a line that every region has composed is signed (R150, R452). -/
def composeAndSign (s : State) (k l : Nat) (calLate : Bool) : State :=
  let bank := !frontBank s l
  let s' := composeLine s k l calLate
  match s.comp.composing with
  | some (frame, pass) => if !lineDone s l && lineDone s' l then signLine s' frame pass l bank else s'
  | none => s'

/-- CLUSTER_LINE_COMPOSE: the line of a region; `calLate` says that its calibration records have not arrived (R150, R232). -/
def execClusterLineCompose (region : BitVec 2) (line : BitVec 9) (calLate : Bool) (s : State) : Out :=
  whenScan s fun s => composeAndSign s region.toNat line.toNat calLate

/-- COMPOSE_END: a concealment run that has reached CFRAMES is the fatal fault "render memory" (R179, R385, R455). -/
def execComposeEnd (s : State) : Out := whenScan s fun s =>
  let r := composeEnd s
  if r.2 then fatalFault r.1 0 else r.1

/-- LINE_FLIP (R90). -/
def execLineFlip (frame : Word) (line : BitVec 9) (s : State) : Out := whenScan s fun s => lineFlip s frame line.toNat

/-- GLOBAL_FLIP (R91). -/
def execGlobalFlip (frame : Word) (s : State) : Out := whenScan s fun s => globalFlip s frame

/-- FEED_FLIP (R269). -/
def execFeedFlip (frame : Word) (feed : BitVec 2) (s : State) : Out := whenScan s fun s => feedFlip s frame feed.toNat

/-! ### Scene memory -/

/-- DRAM_WRITE_APPLY: a write of a source at the DRAM controller (R105, R106); it stalls while the sorter's queue is full
(R127). -/
def execDramWriteApply (src : Src) (addr : Word) (data : List Byte) (s : State) : Out :=
  whenScan s fun s => if sorterFull s addr.toNat data.length then s else applyDramWrite s src addr.toNat data

/-- OBJECT_EVALUATE (R127). -/
def execObjectEvaluate (s : State) : Out := whenScan s objectEvaluate

/-- OBJECT_TABLE_WRITE: a write of SC_OBJCTL, or else of SC_OBJBASE (R131). -/
def execObjectTableWrite (src : Src) (ctl : Bool) (val : Word) (s : State) : Out :=
  rowWrite s src (if ctl then SC_OBJCTL else SC_OBJBASE) val

/-- Evaluates what waits in the sorter's queue; `fuel` bounds the number. -/
def drainSorter (s : State) : Nat → State
  | 0 => s
  | fuel + 1 => drainSorter (objectEvaluate s) fuel

/-- A rescan ends: every entry has been evaluated, SCAN clears, and the writes that waited are evaluated (R131). -/
def rescanDone (s : State) : State :=
  if s.scene.rescan.isNone then s
  else
    let s := (List.range (objectCount s)).foldl evaluateEntry s
    let s := setF { s with scene := { s.scene with rescan := none } } SC_OBJSTAT_SCAN 0
    drainSorter s s.scene.queue.length

/-- RESCAN_DONE (R131). -/
def execRescanDone (s : State) : Out := whenScan s rescanDone

/-- PATTERN_CACHE_INVALIDATE: a write of SC_PCCTL with INVAL = 1 (R136). -/
def execPatternCacheInvalidate (s : State) : Out := bitWrite s SC_PCCTL_INVAL

/-- PATTERN_CACHE_CNTCLR: a write of SC_PCCTL with CNTCLR = 1 (R141). -/
def execPatternCacheCntclr (s : State) : Out := bitWrite s SC_PCCTL_CNTCLR

/-! ### The trestle -/

/-- TRESTLE_WALK: the walk of a stream for a frame starts (R210, R211). -/
def execTrestleWalk (stream : BitVec 2) (frame : Word) (s : State) : Out :=
  whenScan s fun s => startWalk s stream.toNat frame

/-- WALK_DONE (R212). -/
def execWalkDone (s : State) : Out := whenScan s finishWalk

/-- TRESTLE_CNTCLR: a write of SC_TRCTL with CNTCLR = 1 (R221). -/
def execTrestleCntclr (s : State) : Out := bitWrite s SC_TRCTL_CNTCLR

end Sys2Proof.Machine
end

