-- ==== Sys2Proof/Machine/RowsDict.lean ====
section
/-! DEFINITION. The commands of the object dictionary, its transports and its result entries (R495 to R517, R593). -/

namespace Sys2Proof.Machine

/-! ### Requests -/

/-- DICTIONARY_READ: a READ request of a class (R501). -/
def execDictionaryRead (cls : PortClass) (egr : Bool) (index : BitVec 16) (sub : Byte) (s : State) : Out :=
  whenHouse s fun s => submit s (plainRequest cls egr 1 index.toNat sub.toNat [])

/-- DICTIONARY_WRITE: a WRITE request of a class, with its value whole (R503). -/
def execDictionaryWrite (cls : PortClass) (egr : Bool) (index : BitVec 16) (sub : Byte) (data : List Byte) (s : State) : Out :=
  askWrite s cls egr index.toNat sub.toNat data

/-- DESCRIBE (R500). -/
def execDescribe (cls : PortClass) (egr : Bool) (index : BitVec 16) (sub : Byte) (s : State) : Out :=
  whenHouse s fun s => submit s (plainRequest cls egr 3 index.toNat sub.toNat [])

/-- FIRMWARE_ANSWER: a write of HS_ODFWANS (R501). -/
def execFirmwareAnswer (src : Src) (val : Word) (s : State) : Out := rowWrite s src HS_ODFWANS val

/-- FIRMWARE_ANSWER_TIMEOUT (R501). -/
def execFirmwareAnswerTimeout (s : State) : Out := whenHouse s fun s => pumpAll (firmwareTimeout s)

/-- HOUSE_REQUEST_GO: a write of HS_ODCTL with GO = 1 (R502). -/
def execHouseRequestGo (src : Src) (val : Word) (s : State) : Out := rowWrite s src HS_ODCTL (withOnes val HS_ODCTL_GO)

/-- DRESSER_CNTCLR: a write of HS_ODCTL with CNTCLR = 1 (R516). -/
def execDresserCntclr (s : State) : Out := bitWrite s HS_ODCTL_CNTCLR

/-- STORE_VOID: a write of 0x5A to 0x1030:00 (R505). -/
def execStoreVoid (cls : PortClass) (egr : Bool) (s : State) : Out := askWrite s cls egr 0x1030 0 [0x5A]

/-! ### Result entries -/

/-- The index of a result entry: the seal of the recorder, or the check of the store (R506, R583, R505). -/
def resultIndex (sealing : Bool) : Nat := if sealing then 0x8020 else 0x8300

/-- RESULT_TRIGGER: a write of TRIGGER (R506). -/
def execResultTrigger (cls : PortClass) (egr : Bool) (sealing : Bool) (val : Byte) (s : State) : Out :=
  askWrite s cls egr (resultIndex sealing) 0 [val]

/-- RESULT_READY (R506). -/
def execResultReady (sealing : Bool) (s : State) : Out := whenHouse s fun s => resultReady s sealing

/-- RESULT_TAKE: a read of TAKE (R506). -/
def execResultTake (cls : PortClass) (egr : Bool) (sealing : Bool) (s : State) : Out :=
  whenHouse s fun s => submit s (plainRequest cls egr 1 (resultIndex sealing) 2 [])

/-! ### The service bus -/

/-- SERVICE_REQUEST: a request frame (R510). -/
def execServiceRequest (id : BitVec 29) (data : List Byte) (s : State) : Out := whenHouse s fun s => serviceRequest s id data

/-- SEGMENT: a segment frame (R511). -/
def execSegment (id : BitVec 29) (data : List Byte) (s : State) : Out := whenHouse s fun s => segment s id data

/-- SERVICE_ACK: an ACK frame (R511). -/
def execServiceAck (id : BitVec 29) (data : List Byte) (s : State) : Out := whenHouse s fun s => serviceAck s id data

/-- SERVICE_ABORT: an ABORT frame (R510). -/
def execServiceAbort (id : BitVec 29) (data : List Byte) (s : State) : Out := whenHouse s fun s => serviceAbort s id data

/-- TRANSFER_TIMEOUT (R512). -/
def execTransferTimeout (s : State) : Out := whenHouse s transferTimeout

/-- BUS_OFF: the bus goes off, or has recovered (R515). -/
def execBusOff (event : BusEvent) (s : State) : Out := whenHouse s fun s => busOff s event

/-! ### The fabric -/

/-- FABRIC_REQUEST: the oldest item on QID 1 (R513). -/
def execFabricRequest (s : State) : Out := whenHouse s fabricRequest

/-- STAGING_TIMEOUT (R514). -/
def execStagingTimeout (slot : Fin 4) (s : State) : Out := whenHouse s fun s => stagingTimeout s slot

/-- DRESSER_COMMIT: a write of 0x3003:01 (R517). -/
def execDresserCommit (cls : PortClass) (egr : Bool) (epoch : Word) (s : State) : Out :=
  askWrite s cls egr 0x3003 1 (leBytes 4 epoch.toNat)

/-! ### Keys and images -/

/-- KEY_AGREEMENT: a write of 0x7004:01 (R519). -/
def execKeyAgreement (cls : PortClass) (egr : Bool) (point : List Byte) (s : State) : Out := askWrite s cls egr 0x7004 1 point

/-- CONTENT_KEY_WRITE: a write of 0x7010 at the subindex of a slot (R520). -/
def execContentKeyWrite (cls : PortClass) (egr : Bool) (slot : Fin 32) (wrapped : List Byte) (s : State) : Out :=
  askWrite s cls egr 0x7010 slot.val wrapped

/-- SEAL_KEY_WRITE: a write of 0x7011:00 (R520). -/
def execSealKeyWrite (cls : PortClass) (egr : Bool) (wrapped : List Byte) (s : State) : Out :=
  askWrite s cls egr 0x7011 0 wrapped

/-- IMAGE_WRITE: a write of 0x1040:00 (R593). -/
def execImageWrite (cls : PortClass) (egr : Bool) (image : List Byte) (s : State) : Out := askWrite s cls egr 0x1040 0 image

/-- HOUSE_RESET_REQUEST: a write of 0x5A to 0x1040:02; the reset follows 1 ms after the reply (R593). -/
def execHouseResetRequest (cls : PortClass) (egr : Bool) (s : State) : Out := askWrite s cls egr 0x1040 2 [0x5A]

end Sys2Proof.Machine
end

