-- ==== Sys2Proof/Machine/RowsDrive.lean ====
section
/-! DEFINITION. The commands of the plane generators, the harness interlock, feeds, and the block copier (R236 to R296). -/

namespace Sys2Proof.Machine

/-! ### Refresh -/

/-- REFRESH_CYCLE_START: cycle `cycle` of a frame (R236, R266). -/
def execRefreshCycleStart (frame : Word) (cycle : BitVec 6) (s : State) : Out :=
  whenScan s fun s => refreshCycleStart s frame cycle.toNat

/-- ROW_SLOT_START (R237, R241). -/
def execRowSlotStart (row : BitVec 6) (s : State) : Out := whenScan s fun s => rowSlotStart s row.toNat

/-- PLANE_SLOT_START: plane slot `n` of the row slot (R238). -/
def execPlaneSlotStart (n : BitVec 5) (s : State) : Out := whenScan s fun s => planeSlotStart s n.toNat

/-- A word of SC_PGCTL with RUN of a region set or cleared. -/
def runWord (val : Word) (region : Fin 4) (on : Bool) : Word :=
  let m : Word := 1#32 <<< (SC_PGCTL_RUN.lo + region.val)
  if on then val ||| m else val &&& ~~~ m

/-- RUN_START: a write of SC_PGCTL that sets the RUN bit of a region (R249). -/
def execRunStart (src : Src) (region : Fin 4) (val : Word) (s : State) : Out :=
  rowWrite s src SC_PGCTL (runWord val region true)

/-- RUN_STOP: a write of SC_PGCTL that clears the RUN bit of a region (R249). -/
def execRunStop (src : Src) (region : Fin 4) (val : Word) (s : State) : Out :=
  rowWrite s src SC_PGCTL (runWord val region false)

/-- PG_CNTCLR: a write of SC_PGCTL with CNTCLR = 1 (R258). -/
def execPgCntclr (s : State) : Out := bitWrite s SC_PGCTL_CNTCLR

/-- CAL_CNTCLR: a write of SC_CALCTL with CNTCLR = 1 (R260). -/
def execCalCntclr (s : State) : Out := bitWrite s SC_CALCTL_CNTCLR

/-! ### The interlock -/

/-- CLAIM: a write of SC_OWNCTL (R253). -/
def execClaim (src : Src) (val : Word) (s : State) : Out := rowWrite s src SC_OWNCTL val

/-- OWN_B_CHANGE: the partner's claim input takes a level (R253). While the scan die is off, PARTNER shows it after power-up
(R263). -/
def execOwnBChange (high : Bool) (s : State) : Out :=
  .next (if scanOn s then ownBChange s high else setF s SC_OWNSTAT_PARTNER (b2n high))

/-- TARB_EXPIRY: OWN_B has been low for TARB; a twinned module that becomes HOLDING reports it (R253, R458). -/
def execTarbExpiry (s : State) : Out := whenScan s fun s =>
  let r := tarbExpiry s
  if r.2 then takeoverDone r.1 else r.1

/-- FEED_CNTCLR: a write of SC_FEEDCTL with CNTCLR = 1 (R279). -/
def execFeedCntclr (s : State) : Out := bitWrite s SC_FEEDCTL_CNTCLR

/-! ### The block copier -/

/-- COPY_GO: a write of CPY_CTL with GO = 1 (R282). -/
def execCopyGo (src : Src) (val : Word) (s : State) : Out := rowWrite s src CPY_CTL (withOnes val CPY_CTL_GO)

/-- COPY_ROW_RELEASE (R291). -/
def execCopyRowRelease (s : State) : Out := whenScan s copyRowRelease

/-- COPY_SEGMENT (R286). -/
def execCopySegment (s : State) : Out := whenScan s copySegment

/-- COPY_ROW_DONE (R290). -/
def execCopyRowDone (s : State) : Out := whenScan s copyRowDone

/-- COPY_ABORT: a write of CPY_CTL with ABORT = 1 (R294). -/
def execCopyAbort (src : Src) (val : Word) (s : State) : Out := rowWrite s src CPY_CTL (withOnes val CPY_CTL_ABORT)

/-- COPY_CNTCLR: a write of CPY_CTL with CNTCLR = 1 (R296). -/
def execCopyCntclr (s : State) : Out := bitWrite s CPY_CTL_CNTCLR

end Sys2Proof.Machine
end

