-- ==== Sys2Proof/Machine/RowsHouse.lean ====
section
/-! DEFINITION. The commands of the cores' control, the interrupt controller, the timers, the DMA engine, memory scrub and
initialisation (R329, R357 to R377, R386 to R398). -/

namespace Sys2Proof.Machine

/-! ### Cores and interrupts -/

/-- A word of HS_CORECTL with bit `core` of a field set or cleared. -/
def coreBit (val : Word) (f : Fld) (core : Fin 4) (on : Bool) : Word :=
  let m : Word := 1#32 <<< (f.lo + core.val)
  if on then val ||| m else val &&& ~~~ m

/-- CORE_RESET: a write of HS_CORECTL with the RESET bit of a core at 1 (R329, R330). -/
def execCoreReset (src : Src) (core : Fin 4) (val : Word) (s : State) : Out :=
  rowWrite s src HS_CORECTL (coreBit val HS_CORECTL_RESET core true)

/-- CORE_RUN: a write of HS_CORECTL that gives the RUN bit of a core a value (R329). -/
def execCoreRun (src : Src) (core : Fin 4) (run : Bool) (val : Word) (s : State) : Out :=
  rowWrite s src HS_CORECTL (coreBit val HS_CORECTL_RUN core run)

/-- HIC_SOURCE_EDGE: the oldest edge of a source is taken in (R357, R358, R362). -/
def execHicSourceEdge (n : BitVec 8) (s : State) : Out := whenHouse s fun s => takeEdge s n.toNat

/-- COALESCE_TIMEOUT of a source (R362). -/
def execCoalesceTimeout (n : BitVec 8) (s : State) : Out := whenHouse s fun s => coalesceTimeout s n.toNat

/-- HIC_FORCE: a write of HIC_FORCEw (R366). -/
def execHicForce (src : Src) (word : Fin 8) (val : Word) (s : State) : Out := rowWrite s src (HIC_FORCE word.val) val

/-- HIC_CNTCLR: a write of HIC_CTL with CNTCLR = 1 (R366). -/
def execHicCntclr (s : State) : Out := bitWrite s HIC_CTL_CNTCLR

/-- WAKE_LATCH: an edge, rising or falling, on a wake source while the house clocks are stopped; the latch is the island's (R364). -/
def execWakeLatch (w : WakeEdge) (s : State) : Out :=
  .next (if s.power.island && s.hic.clocksStopped && wakeDefined s w.source.val w.rising then latchWake s w.source.val else s)

/-! ### Timers -/

/-- TIMER_ENABLE: a write of HS_TMRnCTL with EN = 1 (R367). -/
def execTimerEnable (src : Src) (n : Fin 8) (val : Word) (s : State) : Out :=
  rowWrite s src (HS_TMRCTL n.val) (withOnes val (HS_TMRCTL_EN n.val))

/-- TIMER_EXPIRY (R367). -/
def execTimerExpiry (n : Fin 8) (s : State) : Out := whenHouse s fun s => timerExpiry s n.val

/-! ### DMA -/

/-- DMA_START: a write of DMA_CHnCTL with START = 1 (R377). -/
def execDmaStart (src : Src) (n : Fin 32) (val : Word) (s : State) : Out :=
  rowWrite s src (DMA_CHCTL n.val) (withOnes val (DMA_CHCTL_START n.val))

/-- DMA_BURST: the engine moves one released burst (R372, R373). -/
def execDmaBurst (s : State) : Out := whenHouse s dmaBurst

/-- DMA_COMPLETE of a channel (R374). -/
def execDmaComplete (n : Fin 32) (s : State) : Out := whenHouse s fun s => dmaComplete s n.val

/-- DMA_ABORT: a write of DMA_CHnCTL with ABORT = 1 (R375). -/
def execDmaAbort (src : Src) (n : Fin 32) (val : Word) (s : State) : Out :=
  rowWrite s src (DMA_CHCTL n.val) (withOnes val (DMA_CHCTL_ABORT n.val))

/-! ### Memory -/

/-- HOUSE_SCRUB_READ (R391). -/
def execHouseScrubRead (s : State) : Out := whenHouse s houseScrub

/-- DRAM_SCRUB_READ (R392). -/
def execDramScrubRead (s : State) : Out := whenScan s dramScrub

/-- MRAM_SCRUB_READ (R392). -/
def execMramScrubRead (s : State) : Out := whenHouse s mramScrub

/-- MEMINIT: a write of HS_MEMINIT with GO = 1 (R388). -/
def execMeminit (src : Src) (val : Word) (s : State) : Out := rowWrite s src HS_MEMINIT (withOnes val HS_MEMINIT_GO)

/-- MEMINIT_DONE (R388). -/
def execMeminitDone (s : State) : Out := whenHouse s meminitDone

/-- WMAP_SET: a write of HS_WMAPi (R386). -/
def execWmapSet (src : Src) (i : Fin 16) (val : Word) (s : State) : Out := rowWrite s src (HS_WMAP i.val) val

/-- MEM_CNTCLR: a write of HS_MEMCTL with CNTCLR = 1 (R397). -/
def execMemCntclr (s : State) : Out := bitWrite s HS_MEMCTL_CNTCLR

/-- ECC_CNTCLR: a write of SC_ECCCTL with CNTCLR = 1 (R398). -/
def execEccCntclr (s : State) : Out := bitWrite s SC_ECCCTL_CNTCLR

end Sys2Proof.Machine
end

