-- ==== Sys2Proof/Machine/RowsPower.lean ====
section
/-! DEFINITION. The commands of power states, the supply, the pads and the boot (R534 to R567, R590 to R593). -/

namespace Sys2Proof.Machine

/-- A command of a part whose converters run, in any power state. -/
def whenRunning (s : State) (f : State → State) : Out := .next (if s.power.supply = .running then f s else s)

/-- A command of the always-on island. -/
def whenIsland (s : State) (f : State → State) : Out := .next (if s.power.island then f s else s)

/-! ### Power states -/

/-- POWER_REQUEST: a write of HS_PWRCTL, or of 0x7020:00 (R535, R543). -/
def execPowerRequest (via : Via) (req : BitVec 2) (s : State) : Out :=
  match via with
  | .register src => rowWrite s src HS_PWRCTL (req.zeroExtend 32)
  | .entry cls egr => askWrite s cls egr 0x7020 0 [req.zeroExtend 8]

/-- POWER_TRANSITION_DONE (R535). -/
def execPowerTransitionDone (s : State) : Out := whenRunning s fun s => thenWake (transitionDone s)

/-- WAKE: an edge, rising or falling, on a wake source (R364, R538). -/
def execWake (w : WakeEdge) (s : State) : Out := whenIsland s fun s => thenWake (wakeEdge s w.source.val w.rising)

/-- ISLAND_TIMER_EXPIRY (R538). -/
def execIslandTimerExpiry (s : State) : Out := whenIsland s fun s => thenWake (islandExpiry s)

/-! ### Pads -/

/-- PAD_LOCK_KEY: a write of PAD_CTL (R553). -/
def execPadLockKey (src : Src) (val : Word) (s : State) : Out := rowWrite s src PAD_CTL val

/-- PAD_LOCK: a write of PAD_LOCKw (R553). -/
def execPadLock (src : Src) (word : Fin 16) (val : Word) (s : State) : Out := rowWrite s src (PAD_LOCK word.val) val

/-- HOLD_RELEASE: a write of PAD_CTL with HOLDREL = 1 (R554). -/
def execHoldRelease (src : Src) (val : Word) (s : State) : Out := rowWrite s src PAD_CTL (withOnes val PAD_CTL_HOLDREL)

/-- PAD_CNTCLR: a write of PAD_CTL with CNTCLR = 1 (R567). -/
def execPadCntclr (s : State) : Out := bitWrite s PAD_CTL_CNTCLR

/-- ADC_CONVERT: a write of PAD_ASEL (R548). -/
def execAdcConvert (src : Src) (val : Word) (s : State) : Out := rowWrite s src PAD_ASEL val

/-- ADC_DONE with the code converted (R548). -/
def execAdcDone (code : BitVec 10) (s : State) : Out := whenHouse s fun s => adcDone s code

/-- BANK_VIO_WRITE: a write of PAD_BANKk (R547). -/
def execBankVioWrite (src : Src) (bank : Fin 4) (val : Word) (s : State) : Out := rowWrite s src (PAD_BANK bank.val) val

/-- UART_RECEIVE (R550). -/
def execUartReceive (byte : Byte) (s : State) : Out := whenHouse s fun s => uartReceive s byte

/-- UART_READ: a read of PAD_UART (R567). -/
def execUartRead (src : Src) (s : State) : Out := rowRead s src PAD_UART

/-- UART_TRANSMIT: a write of PAD_UART (R567). -/
def execUartTransmit (src : Src) (val : Word) (s : State) : Out := rowWrite s src PAD_UART val

/-- BANK_RAIL_SLEW_END (R547). -/
def execBankRailSlewEnd (bank : Fin 4) (s : State) : Out := whenHouse s fun s => bankSlewEnd s bank.val

/-- PAD_FUNCTION_HOLD_END of a pad (R551). -/
def execPadFunctionHoldEnd (pad : Fin 512) (s : State) : Out := whenHouse s fun s => padHoldEnd s pad.val

/-- UART_BYTE_TRANSMITTED (R550). -/
def execUartByteTransmitted (s : State) : Out := whenHouse s uartByteSent

/-! ### The supply and resets -/

/-- RESET_PIN (R557). -/
def execResetPin (s : State) : Out := whenRunning s resetPin

/-- VIN_RISE: the input rises through UVLO, with the slot straps (R557, R563). -/
def execVinRise (slot : BitVec 6) (s : State) : Out := .next (vinRise s slot)

/-- CONVERTER_START (R563). -/
def execConverterStart (s : State) : Out := .next (converterStart s)

/-- SOFT_START_DONE (R563, R590). -/
def execSoftStartDone (s : State) : Out := .next (softStartDone s)

/-- INPUT_LOSS_WARNING with the input voltage in 10 mV (R562). -/
def execInputLossWarning (vin : BitVec 16) (s : State) : Out := whenHouse s fun s => inputLoss s vin

/-- INPUT_RECOVERY (R562). -/
def execInputRecovery (vin : BitVec 16) (s : State) : Out := whenHouse s fun s => inputRecovery s vin

/-- INPUT_SHUTDOWN (R562). -/
def execInputShutdown (s : State) : Out := whenHouse s inputShutdown

/-- ISLAND_POWER_LOSS (R527). -/
def execIslandPowerLoss (s : State) : Out := .next (islandLoss s)

/-- THERMAL_THRESHOLD with the temperatures of the dies in °C (R565). -/
def execThermalThreshold (tscan thouse : BitVec 8) (s : State) : Out := whenHouse s fun s => thermal s tscan thouse

/-- BOOT_COMPLETE (R592). -/
def execBootComplete (s : State) : Out := whenHouse s bootComplete

end Sys2Proof.Machine
end

