-- ==== Sys2Proof/Machine/RowsRecorder.lean ====
section
/-! DEFINITION. The commands of the event recorder, the calendar and the performance counters (R570 to R588). -/

namespace Sys2Proof.Machine

/-- RECORD_WRITE: the record at the head of the queue is written; `stored` says whether its read-back agreed (R575). -/
def execRecordWrite (stored : Bool) (s : State) : Out := whenHouse s fun s => writeRecord s stored

/-- TOKEN_REFILL (R579). -/
def execTokenRefill (s : State) : Out := whenHouse s refillToken

/-- CONTROL_SLOT_WRITE (R573). -/
def execControlSlotWrite (s : State) : Out := whenHouse s controlSlot

/-- RECORD_SELECT: a write of HS_RECCURL (R580). -/
def execRecordSelect (src : Src) (val : Word) (s : State) : Out := rowWrite s src HS_RECCURL val

/-- RECORD_NEXT: a write of HS_RECCTL with NEXT = 1 (R580). -/
def execRecordNext (src : Src) (val : Word) (s : State) : Out := rowWrite s src HS_RECCTL (withOnes val HS_RECCTL_NEXT)

/-- RECTOTL_READ (R588). -/
def execRectotlRead (src : Src) (s : State) : Out := rowRead s src HS_RECTOTL

/-- RECORDER_CLEAR: a write of 0x8002:00 (R582). -/
def execRecorderClear (cls : PortClass) (egr : Bool) (val : Byte) (s : State) : Out := askWrite s cls egr 0x8002 0 [val]

/-- RECORD_PUT: a write of HS_RECPUT4 (R585). -/
def execRecordPut (src : Src) (val : Word) (s : State) : Out := rowWrite s src (HS_RECPUT 3) val

/-- RECORDER_CNTCLR: a write of HS_RECCTL with CNTCLR = 1 (R588). -/
def execRecorderCntclr (s : State) : Out := bitWrite s HS_RECCTL_CNTCLR

/-- CALENDAR_SET: a write of 0x8010:00 (R571). -/
def execCalendarSet (cls : PortClass) (egr : Bool) (val : BitVec 64) (s : State) : Out :=
  askWrite s cls egr 0x8010 0 (leBytes 8 val.toNat)

/-- PERF_CLEAR: a write of SC_PERFnSEL with CLR = 1 (R587). -/
def execPerfClear (src : Src) (n : Fin 4) (val : Word) (s : State) : Out :=
  rowWrite s src (SC_PERFSEL n.val) (withOnes val (SC_PERFSEL_CLR n.val))

/-- PERF_LO_READ: a read of SC_PERFnLO (R587). -/
def execPerfLoRead (src : Src) (n : Fin 4) (s : State) : Out := rowRead s src (SC_PERFLO n.val)

end Sys2Proof.Machine
end

