-- ==== Sys2Proof/Machine/RowsSecurity.lean ====
section
/-! DEFINITION. The commands of security, of the debug state and of the bench port (R519 to R533, R542). -/

namespace Sys2Proof.Machine

/-! ### Alarms -/

/-- An alarm, and what a rail out of tolerance does to the harness: the active of a pair releases at once (R455, R457). -/
def alarmRelease (s : State) (n : Nat) : State :=
  let s := alarm s n
  if n = 2 && scanOn s && s.twin.latched then released (setF s SC_OWNCTL_CLAIM 0) else s

/-- ALARM: the condition of a source holds (R523, R524). -/
def execAlarm (source : Fin 6) (s : State) : Out := .next (thenWake (alarmRelease s source.val))

/-- ALARM_SOURCE_INACTIVE (R542). -/
def execAlarmSourceInactive (source : Fin 6) (s : State) : Out := .next (alarmInactive s source.val)

/-- GUARD_CLEAR: a write of SEC_CMD with GUARDCLR = 1, or of 1 to 0x7000:01 (R526). -/
def execGuardClear (via : Via) (val : Word) (s : State) : Out :=
  match via with
  | .register src => rowWrite s src SEC_CMD (withOnes val SEC_CMD_GUARDCLR)
  | .entry cls egr => askWrite s cls egr 0x7000 1 [1]

/-- SEAL_CLEAR: a write of 1 to 0x7000:02 (R526). -/
def execSealClear (cls : PortClass) (egr : Bool) (s : State) : Out := askWrite s cls egr 0x7000 2 [1]

/-- ALARM_CONFIG_LOCK: a write of SEC_ALMCFG with LOCK = 1 (R542). -/
def execAlarmConfigLock (src : Src) (val : Word) (s : State) : Out :=
  rowWrite s src SEC_ALMCFG (withOnes val SEC_ALMCFG_LOCK)

/-! ### The debug state -/

/-- NONCE_READ: a read of 0x7002:01 (R529). -/
def execNonceRead (cls : PortClass) (egr : Bool) (s : State) : Out :=
  whenHouse s fun s => submit s (plainRequest cls egr 1 0x7002 1 [])

/-- NONCE_EXPIRY (R529). -/
def execNonceExpiry (s : State) : Out := whenHouse s nonceExpiry

/-- UNLOCK_TOKEN: a write of 0x7002:02, with the alarm source whose condition comes while the token is verified (R529). -/
def execUnlockToken (cls : PortClass) (egr : Bool) (token : TokenWrite) (s : State) : Out :=
  match token.during with
  | none => askWrite s cls egr 0x7002 2 token.token
  | some n => whenHouse s fun s =>
    let s := alarmRelease s n.val
    let s := submit { s with hutch := { s.hutch with alarmed := true } } (plainRequest cls egr 2 0x7002 2 token.token)
    thenWake { s with hutch := { s.hutch with alarmed := false } }

/-- DEBUG_CLOSE: a write of 1 to 0x7002:03 (R531). -/
def execDebugClose (cls : PortClass) (egr : Bool) (s : State) : Out := askWrite s cls egr 0x7002 3 [1]

/-- LEASE_EXPIRY (R531). -/
def execLeaseExpiry (s : State) : Out := whenHouse s leaseExpiry

/-! ### The bench port -/

/-- BYPASS: the data is shifted through; in OFF-AWAIT the island answers (R528, R540). -/
def execBypass (data : List Byte) (s : State) : Out := .next (if s.power.island then bypass s data else s)

/-- IDCODE; in OFF-AWAIT the island answers (R528, R540). -/
def execIdcode (s : State) : Out :=
  .next (if s.power.island then benchOut (leaveBoundary s) (leBytes 4 (idcode s)) else s)

/-- SAMPLE_PRELOAD: the pads are captured and a pattern preloaded (R528). -/
def execSamplePreload (data : List Byte) (s : State) : Out :=
  .next (benchWhen s true (.bytes data) fun s => captureBoundary { s with hutch := { s.hutch with preload := data } } data.length)

/-- BCHREQ: a dictionary request of class BENCH; the dresser judges it by the debug state (R528). -/
def execBchreq (cmd : Byte) (index : BitVec 16) (sub : Byte) (data : List Byte) (s : State) : Out :=
  .next (benchWhen s true (.unlaid (4 + data.length)) fun s => submit s (plainRequest .bench true cmd.toNat index.toNat sub.toNat data))

/-- EXTEST with the pattern that its cells take (R533). -/
def execExtest (data : List Byte) (s : State) : Out :=
  .next (if houseOn s && benchOpen s then
    captureBoundary (boundaryScan { s with hutch := { s.hutch with preload := data } } .extest data) data.length
  else boundaryScan s .extest data)

/-- CLAMP (R533). -/
def execClamp (s : State) : Out := .next (boundaryScan s .clamp [])

/-- HIGHZ (R533). -/
def execHighz (s : State) : Out := .next (boundaryScan s .highz [])

/-- INJECT: a packet stamped BENCH with EGR 1 enters the weave as one that the module originates (R405, R532). -/
def execInject (packet : Packet) (s : State) : Out :=
  .next (benchWhen s (benchOpen s) (.bytes (headerBytes packet ++ packet.payload)) fun s => (originateAs s 3 true packet).1)

/-- MEMAP: a word access to the house address map as core `view` sees it; `direct` asks for the DRAM direct path (R528). -/
def execMemap (view : Fin 4) (direct write : Bool) (addr : BitVec 24) (val : Tagged) (s : State) : Out :=
  .next (benchWhen s (benchOpen s) memapShift fun s =>
    if write then benchWrite s view direct addr val else benchRead s view direct addr)

/-- COREDBG (R528). -/
def execCoredbg (core : Fin 4) (op : CoreDebug) (s : State) : Out :=
  .next (benchWhen s (benchOpen s) (.unlaid 10) fun s => coreDebug s core op)

/-- SCANTEST (R528). -/
def execScantest (s : State) : Out := .next (benchWhen s (benchFactory s) (.unlaid 0) scanTest)

end Sys2Proof.Machine
end

