-- ==== Sys2Proof/Machine/RowsTwin.lean ====
section
/-! DEFINITION. The commands of twin supervision and takeover (R445 to R464). -/

namespace Sys2Proof.Machine

/-- HEARTBEAT_SEND (R449). -/
def execHeartbeatSend (s : State) : Out := whenHouse s heartbeatSend

/-- HEARTBEAT_RECEIVE: the oldest heartbeat delivered (R449). -/
def execHeartbeatReceive (s : State) : Out := whenHouse s heartbeatReceive

/-- HEARTBEAT_MISS: the fourth in a row (R450). -/
def execHeartbeatMiss (s : State) : Out := whenHouse s heartbeatMiss

/-- LINE_SIGNATURE_RECEIVE: the oldest signature delivered (R453). -/
def execLineSignatureReceive (s : State) : Out := whenHouse s signatureReceive

/-- SIGNATURE_EXPIRY (R453). -/
def execSignatureExpiry (s : State) : Out := whenHouse s signatureExpiry

/-- SELF_CHECK_DONE: the outcome of the line self-check, which the spec leaves to the hardware (R454). -/
def execSelfCheckDone (pass : Bool) (s : State) : Out := whenHouse s fun s => selfCheckDone s pass

/-- SELF_CHECK_RESULT: the partner's result (R454). -/
def execSelfCheckResult (s : State) : Out := whenHouse s selfCheckResult

/-- SELF_CHECK_TIMEOUT (R454). -/
def execSelfCheckTimeout (s : State) : Out := whenHouse s selfCheckTimeout

/-- BRIDGE_OUTAGE_TIMEOUT: the bridge has been outside UP for 25 µs (R455). -/
def execBridgeOutageTimeout (s : State) : Out := whenScan s bridgeOutage

/-- TAKE: a write of WV_TWCTL with TAKE = 1, or of 1 to 0x6021:00 (R459, R466). `val` is the register word otherwise. -/
def execTake (via : Via) (val : Word) (s : State) : Out :=
  match via with
  | .register src => rowWrite s src WV_TWCTL (withOnes val WV_TWCTL_TAKE)
  | .entry cls egr => askWrite s cls egr 0x6021 0 [1]

/-- YIELD: a write of WV_TWCTL with YIELD = 1, or of 2 to 0x6021:00 (R459, R466). -/
def execYield (via : Via) (val : Word) (s : State) : Out :=
  match via with
  | .register src => rowWrite s src WV_TWCTL (withOnes val WV_TWCTL_YIELD)
  | .entry cls egr => askWrite s cls egr 0x6021 0 [2]

/-- TAKE_REQUEST: the oldest take request delivered (R459). -/
def execTakeRequest (s : State) : Out := whenHouse s takeRequest

/-- PATCH_REQUEST: the oldest patch request delivered (R461). -/
def execPatchRequest (s : State) : Out := whenHouse s patchRequest

/-- PATCH_DATA: the oldest patch packet delivered (R461, R462). -/
def execPatchData (s : State) : Out := whenHouse s patchData

/-- PATCH_TIMEOUT of a queue (R461). -/
def execPatchTimeout (qid : BitVec 14) (s : State) : Out := whenHouse s fun s => patchTimeout s qid

/-- TWIN_CNTCLR: a write of WV_TWCTL with CNTCLR = 1 (R464). -/
def execTwinCntclr (s : State) : Out := bitWrite s WV_TWCTL_CNTCLR

end Sys2Proof.Machine
end

