-- ==== Sys2Proof/Machine/RowsWeave.lean ====
section
/-! DEFINITION. The commands of the weave: links, hellos, packets, positions, geometry, routes and drawers (R70, R401 to R438). -/

namespace Sys2Proof.Machine

/-! ### Links -/

/-- LINK_SIGNAL_DETECT on a port (R401). -/
def execLinkSignalDetect (port : Fin 7) (s : State) : Out := whenHouse s fun s => linkSignal s port.val

/-- LINK_TRAINING_DONE: the lanes lock, or the training fails (R401). -/
def execLinkTrainingDone (port : Fin 7) (ok : Bool) (s : State) : Out := whenHouse s fun s => linkTrained s port.val ok

/-- LINK_TRAINING_RETRY (R401). -/
def execLinkTrainingRetry (port : Fin 7) (s : State) : Out := whenHouse s fun s => linkRetry s port.val

/-- LINK_DELAY_MEASURED: the one-way delay in 1/64 ns (R70). -/
def execLinkDelayMeasured (port : Fin 7) (delay : Word) (s : State) : Out :=
  whenHouse s fun s => linkDelay s port.val delay.toNat

/-- HELLO_SEND (R409). -/
def execHelloSend (port : Fin 7) (s : State) : Out := whenHouse s fun s => helloSend s port.val

/-- HELLO_RECEIVE (R410, R411). -/
def execHelloReceive (port : Fin 7) (hello : Hello) (s : State) : Out := whenHouse s fun s => helloReceive s port.val hello

/-- HELLO_TIMEOUT (R401). -/
def execHelloTimeout (port : Fin 7) (s : State) : Out := whenHouse s fun s => helloTimeout s port.val

/-- LINK_FRAME_RECEIVE: a frame with its number, its acknowledgement, its credit returns and its packet (R402). -/
def execLinkFrameReceive (port : Fin 7) (seq : BitVec 12) (ack : LinkReturns) (crcOk : Bool) (packet : Packet) (s : State) : Out :=
  whenHouse s fun s => linkFrame s port.val seq ack.ack ack.credits crcOk packet

/-- LINK_NAK_RECEIVE (R402). -/
def execLinkNakReceive (port : Fin 7) (seq : BitVec 12) (s : State) : Out := whenHouse s fun s => linkNak s port.val seq

/-- PORT_RETRAIN by a cause (R403). -/
def execPortRetrain (port : Fin 7) (cause : PortFault) (s : State) : Out := whenHouse s fun s => portRetrain s port.val cause

/-- PORT_RETRAIN_CMD: a write of WV_PORTnCFG with RETRAIN = 1 (R437). -/
def execPortRetrainCmd (src : Src) (port : Fin 7) (val : Word) (s : State) : Out :=
  rowWrite s src (WV_PORTCFG port.val) (withOnes val (WV_PORTCFG_RETRAIN port.val))

/-- PORT_RETRAIN_DONE (R401). -/
def execPortRetrainDone (port : Fin 7) (ok : Bool) (s : State) : Out := whenHouse s fun s => portRetrained s port.val ok

/-- PACKET_RECEIVE: the oldest packet that a port has accepted is examined (R405, R406, R416). -/
def execPacketReceive (port : Fin 7) (s : State) : Out := whenHouse s fun s => packetReceive s port.val

/-- LINKHOLD_EXPIRY (R419). -/
def execLinkholdExpiry (port : Fin 7) (s : State) : Out := whenHouse s fun s => linkholdExpiry s port.val

/-- VIDLOAD_MEASURE: the VIDEO load of a port over 1 ms (R434). -/
def execVidloadMeasure (port : Fin 7) (load : BitVec 7) (s : State) : Out := whenHouse s fun s => videoLoad s port.val load.toNat

/-! ### Position, geometry and routes -/

/-- POSITION_WRITE: a write of WV_POS or of 0x6000:01 (R411, R439). -/
def execPositionWrite (via : Via) (val : Word) (s : State) : Out :=
  match via with
  | .register src => rowWrite s src WV_POS val
  | .entry cls egr => askWrite s cls egr 0x6000 1 (leBytes 4 val.toNat)

/-- GEOMETRY_ITEM (R414). -/
def execGeometryItem (s : State) : Out := whenHouse s geometryItem

/-- GEOMETRY_ACTIVATE (R414). -/
def execGeometryActivate (s : State) : Out := whenHouse s geometryActivate

/-- GEOMETRY_ACTIVATION_DONE (R415). -/
def execGeometryActivationDone (s : State) : Out := whenHouse s geometryActivationDone

/-- ROUTE_PLAN_ITEM (R420). -/
def execRoutePlanItem (s : State) : Out := whenHouse s routePlanItem

/-- ROUTE_ENTRY_WRITE: a write of WV_RTDATA (R436). -/
def execRouteEntryWrite (src : Src) (val : Word) (s : State) : Out := rowWrite s src WV_RTDATA val

/-- WEAVE_CNTCLR: a write of WV_CTL with CNTCLR = 1 (R436). -/
def execWeaveCntclr (s : State) : Out := bitWrite s WV_CTL_CNTCLR

/-! ### Drawers -/

/-- DRAWER_ITEM: the drawer engine takes the oldest item for a queue (R423 to R431). -/
def execDrawerItem (s : State) : Out := whenHouse s drawerItem

/-- GAP_TIMEOUT of a queue (R427). -/
def execGapTimeout (qid : BitVec 14) (s : State) : Out := whenHouse s fun s => gapTimeout s qid

/-- A word of WV_DRCMD with a command code (R438). -/
def drawerCmdWord (val : Word) (code : Nat) : Word := putBits val WV_DRCMD_CMD.hi WV_DRCMD_CMD.lo code

/-- DRAWER_ENABLE: a write of WV_DRCMD with ENABLE (R438). -/
def execDrawerEnable (src : Src) (val : Word) (s : State) : Out := rowWrite s src WV_DRCMD (drawerCmdWord val 1)

/-- DRAWER_DISABLE: a write of WV_DRCMD with DISABLE (R438). -/
def execDrawerDisable (src : Src) (val : Word) (s : State) : Out := rowWrite s src WV_DRCMD (drawerCmdWord val 2)

/-- DRAWER_HEAD_WRITE: a write of WV_DRPTR (R428, R438). -/
def execDrawerHeadWrite (src : Src) (val : Word) (s : State) : Out := rowWrite s src WV_DRPTR val

/-- OUT_ITEM_SEND: the engine takes the next slot of an OUT ring (R425). -/
def execOutItemSend (qid : BitVec 14) (s : State) : Out := whenHouse s fun s => outItemSend s qid

/-- SLICE_DECODE: a free decoder takes the slice at the head of a VIDEO ring (R433). -/
def execSliceDecode (qid : BitVec 14) (s : State) : Out := whenScan s fun s => sliceDecode s qid

end Sys2Proof.Machine
end

