-- ==== Sys2Proof/Machine/Dispatch.lean ====
section
/-! DEFINITION. What each command does: one direct call per command. -/

namespace Sys2Proof.Machine

def exec (i : Instr) (s : State) : Host.Outcome State Fault Refusal :=
  match i with
  | .registerWrite src addr val => Sys2Proof.Machine.execRegisterWrite src addr val s
  | .rsvwrClear => Sys2Proof.Machine.execRsvwrClear s
  | .powerOnReset => Sys2Proof.Machine.execPowerOnReset s
  | .houseDieReset => Sys2Proof.Machine.execHouseDieReset s
  | .scanDieReset => Sys2Proof.Machine.execScanDieReset s
  | .frameStoreClearDone => Sys2Proof.Machine.execFrameStoreClearDone s
  | .bridgeFlitReceive dest seq crcOk => Sys2Proof.Machine.execBridgeFlitReceive dest seq crcOk s
  | .bridgeNakReceive dest seq => Sys2Proof.Machine.execBridgeNakReceive dest seq s
  | .bridgeAckReceive dest seq => Sys2Proof.Machine.execBridgeAckReceive dest seq s
  | .bridgeLinkFault cause => Sys2Proof.Machine.execBridgeLinkFault cause s
  | .bridgeRetrain src val => Sys2Proof.Machine.execBridgeRetrain src val s
  | .bridgeCntclr => Sys2Proof.Machine.execBridgeCntclr s
  | .bridgeTrainingDone ok lanesHs lanesSh => Sys2Proof.Machine.execBridgeTrainingDone ok lanesHs lanesSh s
  | .pwApply dest => Sys2Proof.Machine.execPwApply dest s
  | .rdRequest => Sys2Proof.Machine.execRdRequest s
  | .readTimeout reader => Sys2Proof.Machine.execReadTimeout reader s
  | .framePulse period => Sys2Proof.Machine.execFramePulse period s
  | .lineClockEdge => Sys2Proof.Machine.execLineClockEdge s
  | .frameCountSet cls egr count => Sys2Proof.Machine.execFrameCountSet cls egr count s
  | .beaconSend corr => Sys2Proof.Machine.execBeaconSend corr s
  | .beaconReceive residence => Sys2Proof.Machine.execBeaconReceive residence s
  | .holdoverEntry => Sys2Proof.Machine.execHoldoverEntry s
  | .freeEntry => Sys2Proof.Machine.execFreeEntry s
  | .anchorChange => Sys2Proof.Machine.execAnchorChange s
  | .frameStart => Sys2Proof.Machine.execFrameStart s
  | .watermarkFire n => Sys2Proof.Machine.execWatermarkFire n s
  | .beamEnable src val => Sys2Proof.Machine.execBeamEnable src val s
  | .reacq src val => Sys2Proof.Machine.execReacq src val s
  | .beacntClear => Sys2Proof.Machine.execBeacntClear s
  | .beamFormatWrite src per val => Sys2Proof.Machine.execBeamFormatWrite src per val s
  | .beamposLoRead src => Sys2Proof.Machine.execBeamposLoRead src s
  | .composeStart frame feed => Sys2Proof.Machine.execComposeStart frame feed s
  | .clusterLineCompose region line calLate => Sys2Proof.Machine.execClusterLineCompose region line calLate s
  | .composeEnd => Sys2Proof.Machine.execComposeEnd s
  | .lineFlip frame line => Sys2Proof.Machine.execLineFlip frame line s
  | .globalFlip frame => Sys2Proof.Machine.execGlobalFlip frame s
  | .feedFlip frame feed => Sys2Proof.Machine.execFeedFlip frame feed s
  | .dramWriteApply src addr data => Sys2Proof.Machine.execDramWriteApply src addr data s
  | .objectEvaluate => Sys2Proof.Machine.execObjectEvaluate s
  | .objectTableWrite src ctl val => Sys2Proof.Machine.execObjectTableWrite src ctl val s
  | .rescanDone => Sys2Proof.Machine.execRescanDone s
  | .patternCacheInvalidate => Sys2Proof.Machine.execPatternCacheInvalidate s
  | .patternCacheCntclr => Sys2Proof.Machine.execPatternCacheCntclr s
  | .cmgo src val => Sys2Proof.Machine.execCmgo src val s
  | .cmArrival => Sys2Proof.Machine.execCmArrival s
  | .admission src => Sys2Proof.Machine.execAdmission src s
  | .commitDeadline src => Sys2Proof.Machine.execCommitDeadline src s
  | .commitAccept src => Sys2Proof.Machine.execCommitAccept src s
  | .fenceqRead src => Sys2Proof.Machine.execFenceqRead src s
  | .cmcntClear => Sys2Proof.Machine.execCmcntClear s
  | .egressSample code => Sys2Proof.Machine.execEgressSample code s
  | .egressCommand cls egr val => Sys2Proof.Machine.execEgressCommand cls egr val s
  | .egressLibraryWrite cls egr data => Sys2Proof.Machine.execEgressLibraryWrite cls egr data s
  | .egressLibraryVerify => Sys2Proof.Machine.execEgressLibraryVerify s
  | .egctlLock src val => Sys2Proof.Machine.execEgctlLock src val s
  | .trestleWalk stream frame => Sys2Proof.Machine.execTrestleWalk stream frame s
  | .walkDone => Sys2Proof.Machine.execWalkDone s
  | .trestleCntclr => Sys2Proof.Machine.execTrestleCntclr s
  | .refreshCycleStart frame cycle => Sys2Proof.Machine.execRefreshCycleStart frame cycle s
  | .rowSlotStart row => Sys2Proof.Machine.execRowSlotStart row s
  | .planeSlotStart n => Sys2Proof.Machine.execPlaneSlotStart n s
  | .runStart src region val => Sys2Proof.Machine.execRunStart src region val s
  | .runStop src region val => Sys2Proof.Machine.execRunStop src region val s
  | .pgCntclr => Sys2Proof.Machine.execPgCntclr s
  | .calCntclr => Sys2Proof.Machine.execCalCntclr s
  | .claim src val => Sys2Proof.Machine.execClaim src val s
  | .ownBChange high => Sys2Proof.Machine.execOwnBChange high s
  | .tarbExpiry => Sys2Proof.Machine.execTarbExpiry s
  | .feedCntclr => Sys2Proof.Machine.execFeedCntclr s
  | .copyGo src val => Sys2Proof.Machine.execCopyGo src val s
  | .copyRowRelease => Sys2Proof.Machine.execCopyRowRelease s
  | .copySegment => Sys2Proof.Machine.execCopySegment s
  | .copyRowDone => Sys2Proof.Machine.execCopyRowDone s
  | .copyAbort src val => Sys2Proof.Machine.execCopyAbort src val s
  | .copyCntclr => Sys2Proof.Machine.execCopyCntclr s
  | .nop core => Sys2Proof.Machine.execNop core s
  | .wait core => Sys2Proof.Machine.execWait core s
  | .waitWake core => Sys2Proof.Machine.execWaitWake core s
  | .sync core => Sys2Proof.Machine.execSync core s
  | .syncDone core => Sys2Proof.Machine.execSyncDone core s
  | .trap core k => Sys2Proof.Machine.execTrap core k s
  | .reti core => Sys2Proof.Machine.execReti core s
  | .mfc core rd cr => Sys2Proof.Machine.execMfc core rd cr s
  | .mtc core ra cr => Sys2Proof.Machine.execMtc core ra cr s
  | .rep core op => Sys2Proof.Machine.execRep core op s
  | .mov core rd ra => Sys2Proof.Machine.execMov core rd ra s
  | .movr core rd ra => Sys2Proof.Machine.execMovr core rd ra s
  | .ldi core rd imm => Sys2Proof.Machine.execLdi core rd imm s
  | .ldc core rd tag ext => Sys2Proof.Machine.execLdc core rd tag ext s
  | .retag core rd ra tag => Sys2Proof.Machine.execRetag core rd ra tag s
  | .gettag core rd ra => Sys2Proof.Machine.execGettag core rd ra s
  | .mfrc core rd => Sys2Proof.Machine.execMfrc core rd s
  | .mtrc core ra => Sys2Proof.Machine.execMtrc core ra s
  | .mfbk core rd k => Sys2Proof.Machine.execMfbk core rd k s
  | .mtbk core ra k => Sys2Proof.Machine.execMtbk core ra k s
  | .ld core r bank short => Sys2Proof.Machine.execLd core r bank short s
  | .st core r bank short => Sys2Proof.Machine.execSt core r bank short s
  | .ldr core r bank short => Sys2Proof.Machine.execLdr core r bank short s
  | .str core r bank short => Sys2Proof.Machine.execStr core r bank short s
  | .ldx core r base mode off => Sys2Proof.Machine.execLdx core r base mode off s
  | .stx core r base mode off => Sys2Proof.Machine.execStx core r base mode off s
  | .ldrx core r base mode off => Sys2Proof.Machine.execLdrx core r base mode off s
  | .strx core r base mode off => Sys2Proof.Machine.execStrx core r base mode off s
  | .lea core r base mode off => Sys2Proof.Machine.execLea core r base mode off s
  | .xchg core r base mode off => Sys2Proof.Machine.execXchg core r base mode off s
  | .cas core rd ra rb => Sys2Proof.Machine.execCas core rd ra rb s
  | .movm core rd ra => Sys2Proof.Machine.execMovm core rd ra s
  | .push core ra => Sys2Proof.Machine.execPush core ra s
  | .pop core rd => Sys2Proof.Machine.execPop core rd s
  | .loadReturn core => Sys2Proof.Machine.execLoadReturn core s
  | .add core rd ra rb => Sys2Proof.Machine.execAdd core rd ra rb s
  | .sub core rd ra rb => Sys2Proof.Machine.execSub core rd ra rb s
  | .and core rd ra rb => Sys2Proof.Machine.execAnd core rd ra rb s
  | .or core rd ra rb => Sys2Proof.Machine.execOr core rd ra rb s
  | .xor core rd ra rb => Sys2Proof.Machine.execXor core rd ra rb s
  | .shl core rd ra rb => Sys2Proof.Machine.execShl core rd ra rb s
  | .shr core rd ra rb => Sys2Proof.Machine.execShr core rd ra rb s
  | .sar core rd ra rb => Sys2Proof.Machine.execSar core rd ra rb s
  | .mul core rd ra rb => Sys2Proof.Machine.execMul core rd ra rb s
  | .divs core rd ra rb => Sys2Proof.Machine.execDivs core rd ra rb s
  | .divu core rd ra rb => Sys2Proof.Machine.execDivu core rd ra rb s
  | .cmp core ra rb => Sys2Proof.Machine.execCmp core ra rb s
  | .neg core rd ra => Sys2Proof.Machine.execNeg core rd ra s
  | .addi core rd ra imm => Sys2Proof.Machine.execAddi core rd ra imm s
  | .andi core rd ra imm => Sys2Proof.Machine.execAndi core rd ra imm s
  | .ori core rd ra imm => Sys2Proof.Machine.execOri core rd ra imm s
  | .xori core rd ra imm => Sys2Proof.Machine.execXori core rd ra imm s
  | .shli core rd ra imm => Sys2Proof.Machine.execShli core rd ra imm s
  | .shri core rd ra imm => Sys2Proof.Machine.execShri core rd ra imm s
  | .sari core rd ra imm => Sys2Proof.Machine.execSari core rd ra imm s
  | .cmpi core ra imm => Sys2Proof.Machine.execCmpi core ra imm s
  | .adda core rd ra rb => Sys2Proof.Machine.execAdda core rd ra rb s
  | .suba core rd ra rb => Sys2Proof.Machine.execSuba core rd ra rb s
  | .cmpeq core ra rb => Sys2Proof.Machine.execCmpeq core ra rb s
  | .fadd core rd ra rb => Sys2Proof.Machine.execFadd core rd ra rb s
  | .fsub core rd ra rb => Sys2Proof.Machine.execFsub core rd ra rb s
  | .fmul core rd ra rb => Sys2Proof.Machine.execFmul core rd ra rb s
  | .fdiv core rd ra rb => Sys2Proof.Machine.execFdiv core rd ra rb s
  | .fcmp core ra rb => Sys2Proof.Machine.execFcmp core ra rb s
  | .itof core rd ra => Sys2Proof.Machine.execItof core rd ra s
  | .ftoi core rd ra => Sys2Proof.Machine.execFtoi core rd ra s
  | .padd core rd ra rb => Sys2Proof.Machine.execPadd core rd ra rb s
  | .pmul core rd ra rb => Sys2Proof.Machine.execPmul core rd ra rb s
  | .pover core rd ra rb => Sys2Proof.Machine.execPover core rd ra rb s
  | .pext core rd ra ch => Sys2Proof.Machine.execPext core rd ra ch s
  | .pins core rd ra rb ch => Sys2Proof.Machine.execPins core rd ra rb ch s
  | .bcmp core ra rb => Sys2Proof.Machine.execBcmp core ra rb s
  | .bdiff core rd ra rb => Sys2Proof.Machine.execBdiff core rd ra rb s
  | .badd core rd ra rb => Sys2Proof.Machine.execBadd core rd ra rb s
  | .bnow core rd => Sys2Proof.Machine.execBnow core rd s
  | .mac core ra rb q => Sys2Proof.Machine.execMac core ra rb q s
  | .fmac core ra rb q => Sys2Proof.Machine.execFmac core ra rb q s
  | .mtq core ra q => Sys2Proof.Machine.execMtq core ra q s
  | .mfq core rd q shift t => Sys2Proof.Machine.execMfq core rd q shift t s
  | .clrq core q => Sys2Proof.Machine.execClrq core q s
  | .br core cond disp => Sys2Proof.Machine.execBr core cond disp s
  | .jmp core ext => Sys2Proof.Machine.execJmp core ext s
  | .jmpr core ra => Sys2Proof.Machine.execJmpr core ra s
  | .call core mask ext => Sys2Proof.Machine.execCall core mask ext s
  | .callr core rt mask => Sys2Proof.Machine.execCallr core rt mask s
  | .ret core => Sys2Proof.Machine.execRet core s
  | .trclr core => Sys2Proof.Machine.execTrclr core s
  | .trput core ra => Sys2Proof.Machine.execTrput core ra s
  | .trget core rd ra tgt unit stream => Sys2Proof.Machine.execTrget core rd ra tgt unit stream s
  | .trwalk core rd => Sys2Proof.Machine.execTrwalk core rd s
  | .undefinedOpcode core op => Sys2Proof.Machine.execUndefinedOpcode core op s
  | .interruptEntry core => Sys2Proof.Machine.execInterruptEntry core s
  | .coreReset src core val => Sys2Proof.Machine.execCoreReset src core val s
  | .coreRun src core run val => Sys2Proof.Machine.execCoreRun src core run val s
  | .hicSourceEdge n => Sys2Proof.Machine.execHicSourceEdge n s
  | .coalesceTimeout n => Sys2Proof.Machine.execCoalesceTimeout n s
  | .hicForce src word val => Sys2Proof.Machine.execHicForce src word val s
  | .hicCntclr => Sys2Proof.Machine.execHicCntclr s
  | .wakeLatch w => Sys2Proof.Machine.execWakeLatch w s
  | .timerEnable src n val => Sys2Proof.Machine.execTimerEnable src n val s
  | .timerExpiry n => Sys2Proof.Machine.execTimerExpiry n s
  | .dmaStart src n val => Sys2Proof.Machine.execDmaStart src n val s
  | .dmaBurst => Sys2Proof.Machine.execDmaBurst s
  | .dmaComplete n => Sys2Proof.Machine.execDmaComplete n s
  | .dmaAbort src n val => Sys2Proof.Machine.execDmaAbort src n val s
  | .houseScrubRead => Sys2Proof.Machine.execHouseScrubRead s
  | .dramScrubRead => Sys2Proof.Machine.execDramScrubRead s
  | .mramScrubRead => Sys2Proof.Machine.execMramScrubRead s
  | .meminit src val => Sys2Proof.Machine.execMeminit src val s
  | .meminitDone => Sys2Proof.Machine.execMeminitDone s
  | .wmapSet src ix val => Sys2Proof.Machine.execWmapSet src ix val s
  | .memCntclr => Sys2Proof.Machine.execMemCntclr s
  | .eccCntclr => Sys2Proof.Machine.execEccCntclr s
  | .linkSignalDetect port => Sys2Proof.Machine.execLinkSignalDetect port s
  | .linkTrainingDone port ok => Sys2Proof.Machine.execLinkTrainingDone port ok s
  | .linkTrainingRetry port => Sys2Proof.Machine.execLinkTrainingRetry port s
  | .linkDelayMeasured port delay => Sys2Proof.Machine.execLinkDelayMeasured port delay s
  | .helloSend port => Sys2Proof.Machine.execHelloSend port s
  | .helloReceive port hello => Sys2Proof.Machine.execHelloReceive port hello s
  | .helloTimeout port => Sys2Proof.Machine.execHelloTimeout port s
  | .linkFrameReceive port seq ack crcOk packet => Sys2Proof.Machine.execLinkFrameReceive port seq ack crcOk packet s
  | .linkNakReceive port seq => Sys2Proof.Machine.execLinkNakReceive port seq s
  | .portRetrain port cause => Sys2Proof.Machine.execPortRetrain port cause s
  | .portRetrainCmd src port val => Sys2Proof.Machine.execPortRetrainCmd src port val s
  | .portRetrainDone port ok => Sys2Proof.Machine.execPortRetrainDone port ok s
  | .packetReceive port => Sys2Proof.Machine.execPacketReceive port s
  | .linkholdExpiry port => Sys2Proof.Machine.execLinkholdExpiry port s
  | .vidloadMeasure port load => Sys2Proof.Machine.execVidloadMeasure port load s
  | .positionWrite via val => Sys2Proof.Machine.execPositionWrite via val s
  | .geometryItem => Sys2Proof.Machine.execGeometryItem s
  | .geometryActivate => Sys2Proof.Machine.execGeometryActivate s
  | .geometryActivationDone => Sys2Proof.Machine.execGeometryActivationDone s
  | .routePlanItem => Sys2Proof.Machine.execRoutePlanItem s
  | .routeEntryWrite src val => Sys2Proof.Machine.execRouteEntryWrite src val s
  | .weaveCntclr => Sys2Proof.Machine.execWeaveCntclr s
  | .drawerItem => Sys2Proof.Machine.execDrawerItem s
  | .gapTimeout qid => Sys2Proof.Machine.execGapTimeout qid s
  | .drawerEnable src val => Sys2Proof.Machine.execDrawerEnable src val s
  | .drawerDisable src val => Sys2Proof.Machine.execDrawerDisable src val s
  | .drawerHeadWrite src val => Sys2Proof.Machine.execDrawerHeadWrite src val s
  | .outItemSend qid => Sys2Proof.Machine.execOutItemSend qid s
  | .sliceDecode qid => Sys2Proof.Machine.execSliceDecode qid s
  | .heartbeatSend => Sys2Proof.Machine.execHeartbeatSend s
  | .heartbeatReceive => Sys2Proof.Machine.execHeartbeatReceive s
  | .heartbeatMiss => Sys2Proof.Machine.execHeartbeatMiss s
  | .lineSignatureReceive => Sys2Proof.Machine.execLineSignatureReceive s
  | .signatureExpiry => Sys2Proof.Machine.execSignatureExpiry s
  | .selfCheckDone pass => Sys2Proof.Machine.execSelfCheckDone pass s
  | .selfCheckResult => Sys2Proof.Machine.execSelfCheckResult s
  | .selfCheckTimeout => Sys2Proof.Machine.execSelfCheckTimeout s
  | .bridgeOutageTimeout => Sys2Proof.Machine.execBridgeOutageTimeout s
  | .take via val => Sys2Proof.Machine.execTake via val s
  | .yield via val => Sys2Proof.Machine.execYield via val s
  | .takeRequest => Sys2Proof.Machine.execTakeRequest s
  | .patchRequest => Sys2Proof.Machine.execPatchRequest s
  | .patchData => Sys2Proof.Machine.execPatchData s
  | .patchTimeout qid => Sys2Proof.Machine.execPatchTimeout qid s
  | .twinCntclr => Sys2Proof.Machine.execTwinCntclr s
  | .audioSample => Sys2Proof.Machine.execAudioSample s
  | .voiceFetch voice k => Sys2Proof.Machine.execVoiceFetch voice k s
  | .d48Sample => Sys2Proof.Machine.execD48Sample s
  | .codecFrame left right near => Sys2Proof.Machine.execCodecFrame left right near s
  | .audioEventPush src val => Sys2Proof.Machine.execAudioEventPush src val s
  | .audioEventDue => Sys2Proof.Machine.execAudioEventDue s
  | .voiceStart src voice val => Sys2Proof.Machine.execVoiceStart src voice val s
  | .voiceStop src voice val => Sys2Proof.Machine.execVoiceStop src voice val s
  | .streamSizeWrite src n val => Sys2Proof.Machine.execStreamSizeWrite src n val s
  | .audioCntclr => Sys2Proof.Machine.execAudioCntclr s
  | .dictionaryRead cls egr index sub => Sys2Proof.Machine.execDictionaryRead cls egr index sub s
  | .dictionaryWrite cls egr index sub data => Sys2Proof.Machine.execDictionaryWrite cls egr index sub data s
  | .describe cls egr index sub => Sys2Proof.Machine.execDescribe cls egr index sub s
  | .firmwareAnswer src val => Sys2Proof.Machine.execFirmwareAnswer src val s
  | .firmwareAnswerTimeout => Sys2Proof.Machine.execFirmwareAnswerTimeout s
  | .houseRequestGo src val => Sys2Proof.Machine.execHouseRequestGo src val s
  | .dresserCntclr => Sys2Proof.Machine.execDresserCntclr s
  | .storeVoid cls egr => Sys2Proof.Machine.execStoreVoid cls egr s
  | .resultTrigger cls egr sealing val => Sys2Proof.Machine.execResultTrigger cls egr sealing val s
  | .resultReady sealing => Sys2Proof.Machine.execResultReady sealing s
  | .resultTake cls egr sealing => Sys2Proof.Machine.execResultTake cls egr sealing s
  | .serviceRequest id data => Sys2Proof.Machine.execServiceRequest id data s
  | .segment id data => Sys2Proof.Machine.execSegment id data s
  | .serviceAck id data => Sys2Proof.Machine.execServiceAck id data s
  | .serviceAbort id data => Sys2Proof.Machine.execServiceAbort id data s
  | .transferTimeout => Sys2Proof.Machine.execTransferTimeout s
  | .busOff event => Sys2Proof.Machine.execBusOff event s
  | .fabricRequest => Sys2Proof.Machine.execFabricRequest s
  | .stagingTimeout slot => Sys2Proof.Machine.execStagingTimeout slot s
  | .dresserCommit cls egr epoch => Sys2Proof.Machine.execDresserCommit cls egr epoch s
  | .keyAgreement cls egr point => Sys2Proof.Machine.execKeyAgreement cls egr point s
  | .contentKeyWrite cls egr slot wrapped => Sys2Proof.Machine.execContentKeyWrite cls egr slot wrapped s
  | .sealKeyWrite cls egr wrapped => Sys2Proof.Machine.execSealKeyWrite cls egr wrapped s
  | .alarm source => Sys2Proof.Machine.execAlarm source s
  | .guardClear via val => Sys2Proof.Machine.execGuardClear via val s
  | .sealClear cls egr => Sys2Proof.Machine.execSealClear cls egr s
  | .alarmConfigLock src val => Sys2Proof.Machine.execAlarmConfigLock src val s
  | .nonceRead cls egr => Sys2Proof.Machine.execNonceRead cls egr s
  | .nonceExpiry => Sys2Proof.Machine.execNonceExpiry s
  | .unlockToken cls egr token => Sys2Proof.Machine.execUnlockToken cls egr token s
  | .debugClose cls egr => Sys2Proof.Machine.execDebugClose cls egr s
  | .leaseExpiry => Sys2Proof.Machine.execLeaseExpiry s
  | .bypass data => Sys2Proof.Machine.execBypass data s
  | .idcode => Sys2Proof.Machine.execIdcode s
  | .samplePreload data => Sys2Proof.Machine.execSamplePreload data s
  | .bchreq cmd index sub data => Sys2Proof.Machine.execBchreq cmd index sub data s
  | .extest data => Sys2Proof.Machine.execExtest data s
  | .clamp => Sys2Proof.Machine.execClamp s
  | .highz => Sys2Proof.Machine.execHighz s
  | .inject packet => Sys2Proof.Machine.execInject packet s
  | .memap view direct write addr val => Sys2Proof.Machine.execMemap view direct write addr val s
  | .coredbg core op => Sys2Proof.Machine.execCoredbg core op s
  | .scantest => Sys2Proof.Machine.execScantest s
  | .powerRequest via req => Sys2Proof.Machine.execPowerRequest via req s
  | .powerTransitionDone => Sys2Proof.Machine.execPowerTransitionDone s
  | .wake w => Sys2Proof.Machine.execWake w s
  | .islandTimerExpiry => Sys2Proof.Machine.execIslandTimerExpiry s
  | .padLockKey src val => Sys2Proof.Machine.execPadLockKey src val s
  | .padLock src word val => Sys2Proof.Machine.execPadLock src word val s
  | .holdRelease src val => Sys2Proof.Machine.execHoldRelease src val s
  | .padCntclr => Sys2Proof.Machine.execPadCntclr s
  | .adcConvert src val => Sys2Proof.Machine.execAdcConvert src val s
  | .adcDone code => Sys2Proof.Machine.execAdcDone code s
  | .bankVioWrite src bank val => Sys2Proof.Machine.execBankVioWrite src bank val s
  | .uartReceive byte => Sys2Proof.Machine.execUartReceive byte s
  | .uartRead src => Sys2Proof.Machine.execUartRead src s
  | .uartTransmit src val => Sys2Proof.Machine.execUartTransmit src val s
  | .resetPin => Sys2Proof.Machine.execResetPin s
  | .vinRise slot => Sys2Proof.Machine.execVinRise slot s
  | .converterStart => Sys2Proof.Machine.execConverterStart s
  | .softStartDone => Sys2Proof.Machine.execSoftStartDone s
  | .inputLossWarning vin => Sys2Proof.Machine.execInputLossWarning vin s
  | .inputRecovery vin => Sys2Proof.Machine.execInputRecovery vin s
  | .inputShutdown => Sys2Proof.Machine.execInputShutdown s
  | .thermalThreshold tscan thouse => Sys2Proof.Machine.execThermalThreshold tscan thouse s
  | .recordWrite stored => Sys2Proof.Machine.execRecordWrite stored s
  | .tokenRefill => Sys2Proof.Machine.execTokenRefill s
  | .controlSlotWrite => Sys2Proof.Machine.execControlSlotWrite s
  | .recordSelect src val => Sys2Proof.Machine.execRecordSelect src val s
  | .recordNext src val => Sys2Proof.Machine.execRecordNext src val s
  | .rectotlRead src => Sys2Proof.Machine.execRectotlRead src s
  | .recorderClear cls egr val => Sys2Proof.Machine.execRecorderClear cls egr val s
  | .recordPut src val => Sys2Proof.Machine.execRecordPut src val s
  | .recorderCntclr => Sys2Proof.Machine.execRecorderCntclr s
  | .calendarSet cls egr val => Sys2Proof.Machine.execCalendarSet cls egr val s
  | .perfClear src n val => Sys2Proof.Machine.execPerfClear src n val s
  | .perfLoRead src n => Sys2Proof.Machine.execPerfLoRead src n s
  | .bootComplete => Sys2Proof.Machine.execBootComplete s
  | .imageWrite cls egr image => Sys2Proof.Machine.execImageWrite cls egr image s
  | .houseResetRequest cls egr => Sys2Proof.Machine.execHouseResetRequest cls egr s
  | .alarmSourceInactive source => Sys2Proof.Machine.execAlarmSourceInactive source s
  | .islandPowerLoss => Sys2Proof.Machine.execIslandPowerLoss s
  | .bankRailSlewEnd bank => Sys2Proof.Machine.execBankRailSlewEnd bank s
  | .padFunctionHoldEnd pad => Sys2Proof.Machine.execPadFunctionHoldEnd pad s
  | .uartByteTransmitted => Sys2Proof.Machine.execUartByteTransmitted s

end Sys2Proof.Machine
end

