-- ==== Sys2Proof/Machine/Tick.lean ====
section
/-! DEFINITION. One TCXO period of 25 ns: what a block with nothing pending does by its clocks alone (log entry 3). -/

namespace Sys2Proof.Machine

/-- The bridge starts to train after a reset of either die (R50, R51). -/
def trainTick (s : State) : State :=
  if scanOn s && bridgeState s = brDown && s.bridge.trainAfterReset && !s.bridge.poweredDown then
    setF { s with bridge := { s.bridge with trainAfterReset := false } } HS_BRSTAT_STATE brTraining
  else s

/-- The scan die's clocks: the beam counter, its slew, the time without a reference, and 15 render clocks (R57, R75, R101,
R587). -/
def scanTick (s : State) : State := perfCount (holdTick (slewTick (beamTick s))) 0 15

/-- OPSEC advances while the house die runs (R572). -/
def opsecTick (s : State) : State :=
  let r := s.recorder
  if r.opTicks + 1 < 40000000 then { s with recorder := { r with opTicks := r.opTicks + 1 } }
  else { s with recorder := { r with opTicks := 0, opsec := min 0xFFFFFFFF (r.opsec + 1) } }

/-- A calendar that is set advances (R571). -/
def calendarTick (s : State) : State :=
  let r := s.recorder
  if !flag s HS_RECSTAT_CALV then s
  else if r.calTicks + 1 < 40000000 then { s with recorder := { r with calTicks := r.calTicks + 1 } }
  else { s with recorder := { r with calTicks := 0, calSec := (r.calSec + 1) % 2 ^ 32 } }

/-- A house reset that 0x1040:02 asked for comes when its millisecond has passed (R593). -/
def resetTick (s : State) : State :=
  match s.dresser.resetAt with
  | some t => if t ≤ s.now then houseDieReset s else s
  | none => s

/-- The house die's clocks. -/
def houseTick (s : State) : State := resetTick (initTick (calendarTick (opsecTick (timerTick s))))

/-- One TCXO period of the part. -/
def idleTick (s : State) : State :=
  let s := trainTick { s with now := s.now + 1 }
  let s := if scanOn s then scanTick s else s
  let s := if houseOn s then houseTick s else s
  if s.power.island then islandTick s else s

end Sys2Proof.Machine
end

