-- ==== Sys2Proof/Safety.lean ====
section
/-! DEFINITION. What the statements speak of: a command's answer, a core that is about to issue, and how it goes on. -/

namespace Sys2Proof.Machine

/-- The command answers a next state of which `P` holds. -/
def Answers (c : Instr) (s : State) (P : State → Prop) : Prop := ∃ t, exec c s = .next t ∧ P t

/-- Core `n` issues an instruction of `len` words: nothing holds it, no breakpoint of the bench port stands at its PC, it is not
stepped, and its words are fetched good. -/
structure Issues (s : State) (n : Fin 4) (len : Nat) : Prop where
  issues : coreIssues s n.val = true
  free : (coreOf s n.val).breaks.contains (coreOf s n.val).pc = false
  passing : (coreOf s n.val).passing = false
  stepping : (coreOf s n.val).stepping = false
  fetched : fetchTrap s n.val (instrAddr (coreOf s n.val)) len = (s, none)

/-- The same outside a repeat. -/
structure IssuesAlone (s : State) (n : Fin 4) (len : Nat) : Prop extends Issues s n len where
  alone : (coreOf s n.val).repeating = false

/-- A register of a core. -/
def reg (s : State) (n : Fin 4) (r : BitVec 4) : Tagged := regOf (coreOf s n.val) r

/-- Only core `n` changes: it becomes `c` and goes on past an instruction of `len` words. -/
def goesOn (s : State) (n : Fin 4) (len : Nat) (c : Core) : State := setCore s n.val (advance c len)

/-- Core `n` writes one register and the flags that the instruction lists, and goes on. -/
def writes (s : State) (n : Fin 4) (len : Nat) (rd : BitVec 4) (w : Tagged) (f : Flags) : State :=
  goesOn s n len (putReg (withFlags (coreOf s n.val) f) rd w)

/-- Core `n` writes one register, no flag, and goes on. -/
def loads (s : State) (n : Fin 4) (len : Nat) (rd : BitVec 4) (w : Tagged) : State :=
  goesOn s n len (putReg (coreOf s n.val) rd w)

/-- A word that may go to a register: any to V0 to V7; to a P register or SP an address of 24 bits tagged ADDR (R307). -/
def Fits (r : BitVec 4) (w : Tagged) : Prop := isPointer r = true → ∃ a, w = addrWord a

/-- Word address `a` names, for core `n`, a word of house SRAM or of its local SRAM that a load reads as `w`, with no error. -/
def Holds (s : State) (n : Fin 4) (a : BitVec 24) (w : Tagged) : Prop :=
  ∃ m x, placeOf n.val a = .sram m x ∧ sramLoad s m x = (s, some w)

/-- A store through `base` may go to the word of tagged memory at `a`: through SP, not below SLIM (R326). -/
def Storable (s : State) (n : Fin 4) (base : BitVec 4) (a : BitVec 24) : Prop :=
  isTaggedPlace n.val a = true ∧ (base = rSP → (coreOf s n.val).slim.toNat ≤ a.toNat)

/-- The short address of a bank register (R308). -/
def short (s : State) (n : Fin 4) (bank : BitVec 2) (low : BitVec 16) : BitVec 24 :=
  BitVec.ofNat 24 ((coreOf s n.val).bk[bank.toNat].toNat * 65536 + low.toNat)

/-- The access address of a pointer form with MODE (R334). -/
def pointed (mode : BitVec 2) (base : BitVec 24) (off : BitVec 18) : BitVec 24 :=
  if mode = 1 then base else base + off.signExtend 24

/-- A core with BASE as a pointer form with MODE leaves it (R334). -/
def based (c : Core) (mode : BitVec 2) (r : BitVec 4) (base : BitVec 24) (off : BitVec 18) : Core :=
  if mode = 0 then c else putReg c r (addrWord (base + off.signExtend 24))

/-- The dresser is free: no request waits for its turn, none stands before house firmware or reads through the bridge (R501), and
no write of the dresser waits for credits of the bridge (R48). -/
def DresserFree (s : State) : Prop :=
  s.dresser.queue = [] ∧ s.dresser.firmware = none ∧ s.dresser.reading = none ∧ stalledAtBridge s .dresser = false

/-- Neither the dresser nor the bench port has anything to go on with when the bridge does. -/
def NothingWaits (s : State) : Prop :=
  s.dresser.queue = [] ∧ s.dresser.reading = none ∧ s.hutch.benchReads = []

/-- A request that came as a command is answered, and counted (R507, R516). -/
def Replies (s t : State) (status typ : Nat) (v : List Byte) : Prop :=
  t.sent = s.sent ++ [.answer status typ v] ∧ getF t HS_ODCNT_SERVED = (getF s HS_ODCNT_SERVED + 1) % 65536 ∧
    getF t HS_ODCNT_REFUSED = if status = stOk then getF s HS_ODCNT_REFUSED else min 65535 (getF s HS_ODCNT_REFUSED + 1)

/-- It has no other effect. -/
def OnlyReplies (s t : State) (status typ : Nat) (v : List Byte) : Prop :=
  Replies s t status typ v ∧ (∀ k, k ≠ HS_ODCNT → regWord t k = regWord s k) ∧ { t with regs := s.regs, sent := s.sent } = s

/-- A dictionary write of a class, with its value whole, passes every check of R499 with no request before it, and is stored
where its entry is persistent (R504). -/
structure Accepted (s : State) (cls : PortClass) (egr : Bool) (index sub : Nat) (v : List Byte) : Prop where
  house : houseOn s = true
  free : DresserFree s
  request : checkRequest s (plainRequest cls egr 2 index sub v) = stOk
  value : ∀ e, entryAt index sub = some e → checkValue s e v = stOk ∧ (e.persistent = true → Config.storeFails s.fresh = false)

end Sys2Proof.Machine
end

