-- ==== Sys2Proof/Certificates/Slice0/Obligations.lean ====
section
/-! DEFINITION. The statements for the provers: one `def Obligations.<Name> : Prop` each. Each is about every state and every
operand that meets its hypotheses; what a statement leaves to the model's choice is said in its docstring. -/

open Sys2Proof Sys2Proof.Machine

/-- A step of a block with a command pending takes the command at the front of its queue and runs it with the rest of the queue
(model choice, log entry 3: the queue is the model's). -/
def Obligations.StepRunsCommand : Prop :=
  ∀ (s : State) (c : Instr) (rest : List Instr), step { s with pending := c :: rest } = exec c { s with pending := rest }

/-- Every step answers a next state: no command of the table stops the model; it takes one command from the queue and changes
nothing else of it. A step of a block with nothing pending lets one TCXO period pass (model choice, log entry 3): it answers
a next state in which the time is one further; the canonical forms, the variant and the empty queue stay. With a die off,
what its clocks drive stays; with the house die on and no reset of it asked for, OPSEC goes one on with every 40,000,000th
period, saturating (R572). -/
def Obligations.StepsAnswer : Prop :=
  (∀ (s : State), ∃ t, step s = .next t ∧ t.pending = s.pending.tail) ∧
  ∀ (s : State), s.pending = [] → ∃ t, step s = .next t ∧ t.pending = [] ∧ t.variant = s.variant ∧ (s.wf → t.wf) ∧
    (scanOn s = false → s.dresser.resetAt = none → t.beam = s.beam ∧ t.perf = s.perf) ∧
    (houseOn s = false → t.now = s.now + 1 ∧ t.timers = s.timers ∧ t.recorder = s.recorder) ∧
    (houseOn s = true → s.dresser.resetAt = none → t.now = s.now + 1 ∧
      t.recorder.opTicks = (if s.recorder.opTicks + 1 < 40000000 then s.recorder.opTicks + 1 else 0) ∧
      t.recorder.opsec = if s.recorder.opTicks + 1 < 40000000 then s.recorder.opsec else min 0xFFFFFFFF (s.recorder.opsec + 1))

/-- The module after reset: the beam is OFF, the bridge DOWN, the interlock RELEASED, no composition and no copy runs, every
plane generator is stopped, every core but core 0 is held; HS_ID reads the capability word of the variant; memories and the
register file are in canonical form. -/
def Obligations.ResetValues : Prop :=
  ∀ s, s = State.reset →
  (∀ a, regWord s a = regDefault a ∧ appliedWord s a = regDefault a) ∧
  beamState s = bmOff ∧ bridgeDown s = true ∧ ownState s = ownReleased ∧ s.comp.composing = none ∧ s.copier = none ∧
  getF s SC_PGCTL_RUN = 0 ∧ getF s HS_RSVWR_COUNT = 0 ∧ getF s HS_RSVWR_SAT = 0 ∧ getF s HS_CORECTL_RUN = 1 ∧
  getF s HS_BRCTL_ERRTHR = 4 ∧ getF s HS_BRCTL_ALLOW4 = 1 ∧ getF s (HS_CORESTART_START 0) = 0x1F0000 ∧
  getF s (HIC_SRCCFG_CCOUNT 255) = 1 ∧ getF s SEC_ALMCFG_LEVEL = 0x559 ∧ (regRead s (.core 0) 0x100000).2 = 0x01F44443 ∧
  (∀ n < 4, (coreOf s n).pc = 0x1F0000) ∧ s.pending = [] ∧ s.wf

/-- HEADLINE. Every step from a state whose register file, SRAM, MRAM and DRAM are in canonical form (addresses strictly rising,
no entry equal to what an unlisted address reads as) leaves such a state. -/
def Obligations.StepKeepsCanonical : Prop :=
  ∀ (s t : State), s.wf → step s = .next t → t.wf

/-- HS_ID reads the capability word of the variant, which no step changes: with STEP = 1 it is 0x01F44443 on the ZW-8460,
0x01E22242 on the ZW-8440 and 0x01010021 on the ZW-8420 (R4). -/
def Obligations.CapabilityWord : Prop :=
  (∀ (s : State) (src : Src), (regRead s src HS_ID).2 = match s.variant with
    | .zw8460 => 0x01F44443#32
    | .zw8440 => 0x01E22242#32
    | .zw8420 => 0x01010021#32) ∧
  ∀ (s t : State) (src : Src), step s = .next t → (regRead t src HS_ID).2 = (regRead s src HS_ID).2

/-- A register of the tables that has no effect beyond its fields and no copies is written by its access codes (R12, R13, R14): a
RW or RWL field takes the value written where the field accepts it and stays otherwise; RO and WO fields stay; a W1C field
clears and a W1S field sets the bits written as 1; bits that no field names stay; and HS_RSVWR.COUNT counts the write once,
saturating, where a reserved bit or a value that is not accepted was written. Every other register keeps its word; but a
write of a RWL field is a scene write, which may end a commit and so write the commit's result registers (R176, R179). -/
def Obligations.RegisterWriteCodes : Prop :=
  ∀ (s : State) (src : Src) (addr : BitVec 24) (w : Word) (r : RegSpec) (idx : List Nat),
    let a := addr.toNat
    (if isScanAddr a then scanOn s else houseOn s) = true → isRegisterAddr addr = true → regSpecAt a = some (r, idx) →
    r.hook = .none → r.copies = .one → registerPresent s.variant r idx = true →
    ∃ t, exec (.registerWrite src addr w) s = .next t ∧
      (∀ f ∈ r.fields,
        let old := bitsOf (regWord s a) f.hi f.lo
        let new := bitsOf w f.hi f.lo
        bitsOf (regWord t a) f.hi f.lo = match f.access with
          | .rw | .rwl => if allowed s.variant f.allow new then new else old
          | .ro | .wo => old
          | .w1c => old &&& (2 ^ (f.hi + 1 - f.lo) - 1 - new)
          | .w1s => old ||| new) ∧
      regWord t a &&& ~~~ namedBits r.fields = regWord s a &&& ~~~ namedBits r.fields ∧
      getF t HS_RSVWR_COUNT = min 0xFFFFFF (getF s HS_RSVWR_COUNT + if w &&& ~~~ namedBits r.fields = 0 ∧
        ∀ f ∈ r.fields, f.access = .rw ∨ f.access = .rwl → allowed s.variant f.allow (bitsOf w f.hi f.lo) = true then 0 else 1) ∧
      ∀ k, k ≠ a → k ≠ HS_RSVWR → isSceneRegister r = false ∨ ¬ (0x220700 ≤ k ∧ k < 0x220720) → regWord t k = regWord s k

/-- Registers of an absent unit read zero, and writes to them are ignored and not counted (R6): all that such a write does is, in
the pad block, to break its source's lock sequence as any other write there (R553). -/
def Obligations.AbsentRegisters : Prop :=
  ∀ (s : State) (src : Src) (a : Nat) (w : Word) (r : RegSpec) (idx : List Nat),
    regSpecAt a = some (r, idx) → registerPresent s.variant r idx = false →
    regRead s src a = (s, 0) ∧ regWrite s src a w = (if isPadBlock a then setLockStep s src 0 else s) ∧
      { regWrite s src a w with pads := s.pads } = s

/-- Each count-clear row on a powered module: the counters that its register's table names read 0 afterwards, and every other
register keeps its word, but for the status that the row's own register recomputes. The write sets that bit alone (log entry
4). -/
def Obligations.CounterClears : Prop :=
  ∀ (s : State), scanOn s = true →
    let zero (c : Instr) (fs : List Fld) : Prop := ∃ t, exec c s = .next t ∧ ∀ f ∈ fs, getF t f = 0
    let clears (c : Instr) (fs : List Fld) (also : List Nat) : Prop := ∃ t, exec c s = .next t ∧ (∀ f ∈ fs, getF t f = 0) ∧
      ∀ k, k ∉ fs.map (·.addr) → k ∉ also → regWord t k = regWord s k
    clears .rsvwrClear [HS_RSVWR_COUNT, HS_RSVWR_SAT] [] ∧
    clears .bridgeCntclr [HS_BRERR_DROPPED, HS_BRERR_REPLAYS, HS_BRERR_CRCERR] [] ∧
    clears .hicCntclr [HIC_STAT_MERGED] [] ∧
    clears .weaveCntclr ([WV_FWDCNT_NOROUTE, WV_FWDCNT_MCIN, WV_FWDCNT_HOPX, WV_FWDCNT_MCDROP, WV_ENGCNT_BADHDR, WV_ENGCNT_BADQ,
      WV_ENGCNT_VIDDROP, WV_ENGCNT_AUTHFAIL] ++ (List.range 7).map WV_PORTERR_CRCERR ++ (List.range 7).map WV_PORTERR_REPLAYS ++
      (List.range 7).map WV_PORTERR_RETRAINS) [HS_RSVWR] ∧
    (hasTwin s.variant = true → clears .twinCntclr [WV_TWCNT_MMFR, WV_TWCNT_PATCHED, WV_TWCNT_PATCHMISS, WV_TWCNT_HBMISS] []) ∧
    (hasAudio s.variant = true → clears .audioCntclr [AU_CNT_STARVE, AU_CNT_UNDER, AU_CNT_EVLATE, AU_CNT_BADEV] [AU_STAT]) ∧
    clears .dresserCntclr [HS_ODCNT_REFUSED, HS_ODCNT_SERVED] [] ∧
    clears .recorderCntclr [HS_RECCNT_DROPPED, HS_RECCNT_PUTREF, HS_RECCNT_STOREFAIL] [] ∧
    clears .padCntclr [PAD_STAT_LOCKDROP] [] ∧
    clears .memCntclr [HS_CECNT_UE, HS_CECNT_CE, HS_MEMSTAT_MRREF] [] ∧
    clears .eccCntclr [SC_ECCCNT_UE, SC_ECCCNT_CE, SC_ECCCONC_LASTF, SC_ECCCONC_TOTAL] [] ∧
    clears .beacntClear [SC_BEACNT_DISCARD, SC_BEACNT_OUTLIER, SC_BEACNT_ACCEPT] [] ∧
    clears .patternCacheCntclr ([SC_SCENECNT_BADADDR] ++ (List.range 8).map SC_PCSTAT_FILL ++ (List.range 8).map SC_PCSTAT_REFETCH)
      [] ∧
    clears .cmcntClear [SC_CMCNT_REFUSED, SC_CMCNT_ACCEPTED] [] ∧
    clears .pgCntclr [SC_PGCNT_CFGDROP] [SC_PGCTL] ∧
    clears .copyCntclr [CPY_CNT_OPS, CPY_CNT_BUSYWR, CPY_CNT_ERRS] [] ∧
    zero .trestleCntclr [SC_TRSTAT_BADOP, SC_TRSTAT_ORDERERR, SC_TRSTAT_TGTERR] ∧
    zero .calCntclr [SC_CALSTAT_LATE] ∧
    zero .feedCntclr [SC_FEEDSTAT_LATEPASS]

/-- ADD, SUB, AND, OR, XOR and MUL on two INT registers, into V0 to V7: the result modulo 2^32, the flags of the row and no
others, and nothing else changes but PC (R336 to R338). V is 0 for AND, OR and XOR (R337; log entry 41). -/
def Obligations.IntegerArithmetic : Prop :=
  ∀ (s : State) (n : Fin 4) (rd ra rb : BitVec 4) (a b : Word), Issues s n 1 → isPointer rd = false →
    reg s n ra = intWord a → reg s n rb = intWord b →
    exec (.add n rd ra rb) s = .next (writes s n 1 rd (intWord (a + b))
      { n := some (a + b).msb, z := some (a + b == 0), v := some (decide ((a + b).toInt ≠ a.toInt + b.toInt)),
        c := some (decide (2 ^ 32 ≤ a.toNat + b.toNat)) }) ∧
    exec (.sub n rd ra rb) s = .next (writes s n 1 rd (intWord (a - b))
      { n := some (a - b).msb, z := some (a - b == 0), v := some (decide ((a - b).toInt ≠ a.toInt - b.toInt)),
        c := some (decide (b.toNat ≤ a.toNat)) }) ∧
    exec (.and n rd ra rb) s = .next (writes s n 1 rd (intWord (a &&& b))
      { n := some (a &&& b).msb, z := some (a &&& b == 0), v := some false }) ∧
    exec (.or n rd ra rb) s = .next (writes s n 1 rd (intWord (a ||| b))
      { n := some (a ||| b).msb, z := some (a ||| b == 0), v := some false }) ∧
    exec (.xor n rd ra rb) s = .next (writes s n 1 rd (intWord (a ^^^ b))
      { n := some (a ^^^ b).msb, z := some (a ^^^ b == 0), v := some false }) ∧
    exec (.mul n rd ra rb) s = .next (writes s n 1 rd (intWord (a * b))
      { n := some (a * b).msb, z := some (a * b == 0), v := some (decide ((a * b).toInt ≠ a.toInt * b.toInt)) })

/-- SHL, SHR and SAR, and their immediate forms: the count is bits [4:0] of the second operand; C is the last bit shifted out, or
0 for a count of 0; V is 0 (R336 to R338; log entry 41). -/
def Obligations.Shifts : Prop :=
  ∀ (s : State) (n : Fin 4) (rd ra rb : BitVec 4) (imm : BitVec 20) (a b : Word), Issues s n 1 → isPointer rd = false →
    reg s n ra = intWord a → reg s n rb = intWord b →
    let k := b.toNat % 32
    let j := imm.toNat % 32
    let shl (k : Nat) := writes s n 1 rd (intWord (a <<< k))
      { n := some (a <<< k).msb, z := some (a <<< k == 0), v := some false, c := some (decide (0 < k) && a.getLsbD (32 - k)) }
    let shr (k : Nat) := writes s n 1 rd (intWord (a >>> k))
      { n := some (a >>> k).msb, z := some (a >>> k == 0), v := some false, c := some (decide (0 < k) && a.getLsbD (k - 1)) }
    let sar (k : Nat) := writes s n 1 rd (intWord (a.sshiftRight k))
      { n := some (a.sshiftRight k).msb, z := some (a.sshiftRight k == 0), v := some false,
        c := some (decide (0 < k) && a.getLsbD (k - 1)) }
    exec (.shl n rd ra rb) s = .next (shl k) ∧ exec (.shli n rd ra imm) s = .next (shl j) ∧
    exec (.shr n rd ra rb) s = .next (shr k) ∧ exec (.shri n rd ra imm) s = .next (shr j) ∧
    exec (.sar n rd ra rb) s = .next (sar k) ∧ exec (.sari n rd ra imm) s = .next (sar j)

/-- ADDI, ANDI, ORI, XORI with the sign-extended immediate, NEG; ADDI, ADDA and LEA on addresses, modulo 2^24 and without flags,
into any register (R334, R336, R337, R339). -/
def Obligations.ImmediatesAndAddresses : Prop :=
  ∀ (s : State) (n : Fin 4) (rd pd ra rb pa : BitVec 4) (imm : BitVec 20) (off : BitVec 18) (a b : Word) (p : BitVec 24),
    Issues s n 1 → isPointer rd = false →
    reg s n ra = intWord a → reg s n rb = intWord b → reg s n pa = addrWord p →
    let i : Word := imm.signExtend 32
    exec (.addi n rd ra imm) s = .next (writes s n 1 rd (intWord (a + i))
      { n := some (a + i).msb, z := some (a + i == 0), v := some (decide ((a + i).toInt ≠ a.toInt + i.toInt)),
        c := some (decide (2 ^ 32 ≤ a.toNat + i.toNat)) }) ∧
    exec (.andi n rd ra imm) s = .next (writes s n 1 rd (intWord (a &&& i))
      { n := some (a &&& i).msb, z := some (a &&& i == 0), v := some false }) ∧
    exec (.ori n rd ra imm) s = .next (writes s n 1 rd (intWord (a ||| i))
      { n := some (a ||| i).msb, z := some (a ||| i == 0), v := some false }) ∧
    exec (.xori n rd ra imm) s = .next (writes s n 1 rd (intWord (a ^^^ i))
      { n := some (a ^^^ i).msb, z := some (a ^^^ i == 0), v := some false }) ∧
    exec (.neg n rd ra) s = .next (writes s n 1 rd (intWord (0 - a))
      { n := some (0 - a).msb, z := some (0 - a == 0), v := some (decide (a = 0x80000000#32)), c := some (decide (a = 0)) }) ∧
    exec (.addi n pd pa imm) s = .next (loads s n 1 pd (addrWord (p + imm.signExtend 24))) ∧
    exec (.adda n pd pa rb) s = .next (loads s n 1 pd (addrWord (p + b.setWidth 24))) ∧
    exec (.lea n pd pa 0 off) s = .next (loads s n 1 pd (addrWord (p + off.signExtend 24)))

/-- CMP, CMPI, FCMP, SUBA and CMPEQ: the flags of a difference, where C says that no borrow occurs; SUBA gives the difference of
two addresses as INT; CMPEQ writes Z alone (R336, R337, R339). -/
def Obligations.Comparisons : Prop :=
  ∀ (s : State) (n : Fin 4) (rd ra rb fa fb pa pb xa xb : BitVec 4) (imm : BitVec 20) (a b u v : Word) (p q : BitVec 24)
    (t : BitVec 4), Issues s n 1 → isPointer rd = false →
    reg s n ra = intWord a → reg s n rb = intWord b → reg s n fa = tagged tagFix a → reg s n fb = tagged tagFix b →
    reg s n pa = addrWord p → reg s n pb = addrWord q → 1 ≤ t.toNat → t.toNat ≤ 7 →
    reg s n xa = tagged t u → reg s n xb = tagged t v →
    let diff (a b : Word) : Flags :=
      { n := some (a - b).msb, z := some (a == b), v := some (decide ((a - b).toInt ≠ a.toInt - b.toInt)),
        c := some (decide (b.toNat ≤ a.toNat)) }
    let flags (f : Flags) := goesOn s n 1 (withFlags (coreOf s n.val) f)
    let x : Word := p.setWidth 32
    let y : Word := q.setWidth 32
    exec (.cmp n ra rb) s = .next (flags (diff a b)) ∧
    exec (.cmpi n ra imm) s = .next (flags (diff a (imm.signExtend 32))) ∧
    exec (.fcmp n fa fb) s = .next (flags (diff a b)) ∧
    exec (.suba n rd pa pb) s = .next (writes s n 1 rd (intWord (x - y)) (diff x y)) ∧
    exec (.cmpeq n xa xb) s = .next (flags { z := some (u == v) })

/-- DIVS and DIVU by a divisor other than 0: the quotient truncated toward zero; DIVS of 0x8000_0000 by −1 gives 0x8000_0000 and
sets V (R336 to R338). -/
def Obligations.Division : Prop :=
  ∀ (s : State) (n : Fin 4) (rd ra rb : BitVec 4) (a b : Word), Issues s n 1 → isPointer rd = false →
    reg s n ra = intWord a → reg s n rb = intWord b → b ≠ 0 →
    let q : Word := if a = 0x80000000#32 ∧ b = 0xFFFFFFFF#32 then 0x80000000#32 else BitVec.ofInt 32 (a.toInt.tdiv b.toInt)
    let u : Word := BitVec.ofNat 32 (a.toNat / b.toNat)
    exec (.divs n rd ra rb) s = .next (writes s n 1 rd (intWord q)
      { n := some q.msb, z := some (q == 0), v := some (decide (a = 0x80000000#32 ∧ b = 0xFFFFFFFF#32)) }) ∧
    exec (.divu n rd ra rb) s = .next (writes s n 1 rd (intWord u) { n := some u.msb, z := some (u == 0) })

/-- FADD, FSUB, FMUL, FDIV and ITOF: the exact result in multiples of 2^−16, rounded once with ties up, saturated to the FIX
range with V set; FTOI rounds toward minus infinity (R336, R337, R340). -/
def Obligations.FixedPoint : Prop :=
  ∀ (s : State) (n : Fin 4) (rd ra rb fa fb : BitVec 4) (a x y : Word), Issues s n 1 → isPointer rd = false →
    reg s n ra = intWord a → reg s n fa = tagged tagFix x → reg s n fb = tagged tagFix y →
    let out (i : Int) : State :=
      let w : Word := if i < -(2 ^ 31) then 0x80000000#32 else if 2 ^ 31 - 1 < i then 0x7FFFFFFF#32 else BitVec.ofInt 32 i
      writes s n 1 rd (tagged tagFix w)
        { n := some w.msb, z := some (w == 0), v := some (decide (i < -(2 ^ 31) ∨ 2 ^ 31 - 1 < i)) }
    let near (num : Int) (den : Int) : Int := (2 * num + den) / (2 * den)
    let t : Word := BitVec.ofInt 32 (x.toInt / 65536)
    exec (.fadd n rd fa fb) s = .next (out (x.toInt + y.toInt)) ∧
    exec (.fsub n rd fa fb) s = .next (out (x.toInt - y.toInt)) ∧
    exec (.fmul n rd fa fb) s = .next (out (near (x.toInt * y.toInt) 65536)) ∧
    (y ≠ 0 → exec (.fdiv n rd fa fb) s = .next (out (near (x.toInt * 65536 * y.toInt.sign) (y.toInt * y.toInt.sign)))) ∧
    exec (.itof n rd ra) s = .next (out (a.toInt * 65536)) ∧
    exec (.ftoi n rd fa) s = .next (writes s n 1 rd (intWord t) { n := some t.msb, z := some (t == 0) })

/-- The pixel instructions, channel by channel: PADD saturates at 255; PMUL and POVER divide by 255, rounded with ties up; PEXT
gives a channel as INT and PINS writes RB's low byte into one; none writes a flag (R336, R341). -/
def Obligations.Pixels : Prop :=
  ∀ (s : State) (n : Fin 4) (rd ra rb ia : BitVec 4) (ch : BitVec 2) (a b x : Word), Issues s n 1 → isPointer rd = false →
    reg s n ra = tagged tagPixel a → reg s n rb = tagged tagPixel b → reg s n ia = intWord x →
    let c (w : Word) (i : Nat) : Nat := w.toNat / 2 ^ (8 * i) % 256
    let gives (row : Instr) (f : Nat → Nat) : Prop :=
      ∃ w, exec row s = .next (loads s n 1 rd (tagged tagPixel w)) ∧ ∀ i < 4, c w i = f i
    gives (.padd n rd ra rb) (fun i => min 255 (c a i + c b i)) ∧
    gives (.pmul n rd ra rb) (fun i => (2 * (c a i * c b i) + 255) / 510) ∧
    gives (.pover n rd ra rb) (fun i =>
      if i = 3 then c a 3 + (2 * (c b 3 * (255 - c a 3)) + 255) / 510
      else (2 * (c a 3 * c a i + (255 - c a 3) * c b i) + 255) / 510) ∧
    gives (.pins n rd ra ia ch) (fun i => if i = ch.toNat then x.toNat % 256 else c a i) ∧
    exec (.pext n rd ra ch) s = .next (loads s n 1 rd (intWord (BitVec.ofNat 32 (c a ch.toNat))))

/-- The beam instructions, with the TL lines to a frame of the house die's copy: BDIFF is (df × TL + line_a − line_b) × 256 +
frac_a − frac_b, saturated at ±(2³¹ − 1); BCMP writes N and Z of it; BADD adds fractions, carrying into LINE modulo TL and
into the frame byte modulo 256, and a line index of 65,536 or more reads as LINE 0xFFFF, FRAC 0xFF with V set (R336, R342). -/
def Obligations.BeamArithmetic : Prop :=
  ∀ (s : State) (n : Fin 4) (rd ra rb ia : BitVec 4) (a b x : Word), Issues s n 1 → isPointer rd = false →
    reg s n ra = tagged tagBeam a → reg s n rb = tagged tagBeam b → reg s n ia = intWord x →
    let tl : Int := houseLines s
    let line (w : Word) : Int := (w.toNat / 65536 : Nat)
    let frac (w : Word) : Int := (w.toNat / 256 % 256 : Nat)
    let frame (w : Word) : Int := (w.toNat % 256 : Nat)
    let df : Int := (frame a - frame b + 128) % 256 - 128
    let d : Int := (df * tl + line a - line b) * 256 + frac a - frac b
    let m : Int := 2 ^ 31 - 1
    let w : Word := BitVec.ofInt 32 (if d < -m then -m else if m < d then m else d)
    let total : Int := line a * 256 + frac a + x.toInt
    let l : Int := total % (tl * 256) / 256
    let f : Int := (frame a + total / (tl * 256)) % 256
    let sum : Word :=
      BitVec.ofInt 32 (if 65536 ≤ l then 0xFFFF * 65536 + 0xFF * 256 + f else l * 65536 + total % (tl * 256) % 256 * 256 + f)
    exec (.bdiff n rd ra rb) s = .next (writes s n 1 rd (intWord w)
      { n := some w.msb, z := some (w == 0), v := some (decide (d < -m ∨ m < d)) }) ∧
    exec (.bcmp n ra rb) s = .next (goesOn s n 1 (withFlags (coreOf s n.val) { n := some w.msb, z := some (w == 0) })) ∧
    exec (.badd n rd ra ia) s =
      .next (writes s n 1 rd (tagged tagBeam sum) { v := some (decide (65536 ≤ l)) })

/-- The accumulators, modulo 2^72: MAC and FMAC add a signed product, MTQ puts an INT sign-extended and a FIX 16 bits further
left, MFQ takes a shifted value saturated to 32 bits with V set where it saturates, CLRQ clears (R336, R343). -/
def Obligations.Accumulators : Prop :=
  ∀ (s : State) (n : Fin 4) (rd ra rb fa fb : BitVec 4) (q t : Bool) (shift : BitVec 5) (a b x y : Word),
    Issues s n 1 → isPointer rd = false →
    reg s n ra = intWord a → reg s n rb = intWord b → reg s n fa = tagged tagFix x → reg s n fb = tagged tagFix y →
    let c := coreOf s n.val
    let acc : BitVec 72 := if q then c.q[1] else c.q[0]
    let put (v : BitVec 72) : State := goesOn s n 1 { c with q := if q then #v[c.q[0], v] else #v[v, c.q[1]] }
    let i : Int := acc.toInt / 2 ^ shift.toNat
    let w : Word := BitVec.ofInt 32 (if i < -(2 ^ 31) then -(2 ^ 31) else if 2 ^ 31 - 1 < i then 2 ^ 31 - 1 else i)
    exec (.mac n ra rb q) s = .next (put (acc + BitVec.ofInt 72 (a.toInt * b.toInt))) ∧
    exec (.fmac n fa fb q) s = .next (put (acc + BitVec.ofInt 72 (x.toInt * y.toInt))) ∧
    exec (.mtq n ra q) s = .next (put (BitVec.ofInt 72 a.toInt)) ∧
    exec (.mtq n fa q) s = .next (put (BitVec.ofInt 72 (x.toInt * 65536))) ∧
    exec (.mfq n rd q shift t) s = .next (writes s n 1 rd (tagged (if t then tagFix else tagInt) w)
      { v := some (decide (i < -(2 ^ 31) ∨ 2 ^ 31 - 1 < i)) }) ∧
    exec (.clrq n q) s = .next (put 0)

/-- The register moves: MOV of a word of tag 1 to 7 and MOVR of any 36 bits, where the destination accepts the word; LDI, LDC,
RETAG and GETTAG; RC and the bank registers (R303, R307, R336). -/
def Obligations.RegisterMoves : Prop :=
  ∀ (s : State) (n : Fin 4) (rd vd ra xa ia tag : BitVec 4) (imm : BitVec 20) (ext a : Word) (k : BitVec 2) (w x : Tagged),
    Issues s n 1 → Issues s n 2 → isPointer vd = false →
    reg s n ra = w → Fits rd w → 1 ≤ (tagOf x).toNat → (tagOf x).toNat ≤ 7 → reg s n xa = x → Fits rd x →
    reg s n ia = intWord a → 1 ≤ tag.toNat → tag.toNat ≤ 7 →
    (tag = tagAddr ∨ tag = tagCode → ext.toNat < 2 ^ 24 ∧ (payload x).toNat < 2 ^ 24) →
    Fits rd (tagged tag ext) → Fits rd (tagged tag (payload x)) →
    let c := coreOf s n.val
    let bank : BitVec 8 := c.bk[k.toNat]
    exec (.movr n rd ra) s = .next (loads s n 1 rd w) ∧
    exec (.mov n rd xa) s = .next (loads s n 1 rd x) ∧
    exec (.ldi n vd imm) s = .next (loads s n 1 vd (intWord (imm.signExtend 32))) ∧
    exec (.ldc n rd tag ext) s = .next (loads s n 2 rd (tagged tag ext)) ∧
    exec (.retag n rd xa tag) s = .next (loads s n 1 rd (tagged tag (payload x))) ∧
    exec (.gettag n vd ra) s = .next (loads s n 1 vd (intWord ((tagOf w).setWidth 32))) ∧
    exec (.mfrc n vd) s = .next (loads s n 1 vd (intWord (c.rc.setWidth 32))) ∧
    exec (.mtrc n ia) s = .next (goesOn s n 1 { c with rc := a.setWidth 16 }) ∧
    exec (.mfbk n vd k) s = .next (loads s n 1 vd (intWord (bank.setWidth 32))) ∧
    exec (.mtbk n ia k) s = .next (goesOn s n 1 { c with bk := c.bk.set k.toNat (a.setWidth 8) })

/-- LD, LDR, LDX, LDRX and POP from house or local SRAM: the word goes whole and unchecked to a register that accepts it, BASE is
updated as MODE says, POP raises SP by 1; no flag changes (R301, R303, R305, R308, R334, R336). -/
def Obligations.LoadsFromSram : Prop :=
  ∀ (s : State) (n : Fin 4) (r base : BitVec 4) (bank mode : BitVec 2) (low : BitVec 16) (off : BitVec 18)
    (p sp : BitVec 24) (u v w : Tagged), Issues s n 1 →
    Holds s n (short s n bank low) u → Fits r u →
    reg s n base = addrWord p → mode ≠ 3 → Holds s n (pointed mode p off) v → Fits r v →
    reg s n rSP = addrWord sp → Holds s n sp w → Fits r w →
    let c := coreOf s n.val
    let indexed := goesOn s n 1 (putReg (based c mode base p off) r v)
    exec (.ld n r bank low) s = .next (loads s n 1 r u) ∧
    exec (.ldr n r bank low) s = .next (loads s n 1 r u) ∧
    exec (.ldx n r base mode off) s = .next indexed ∧
    exec (.ldrx n r base mode off) s = .next indexed ∧
    exec (.pop n r) s = .next (goesOn s n 1 (putReg (putReg c rSP (addrWord (sp + 1))) r w))

/-- ST, STR, STX, STRX and PUSH to house or local SRAM: the word is stored whole at the address, after BASE or SP is updated, and
nothing else changes but PC; ST and STX ask for a tag of 1 to 7, STR, STRX and PUSH store raw (R301, R305, R308, R326, R334,
R336). What such a store leaves: the word reads back, every other word of SRAM, MRAM, DRAM and every register but the map
word of its page is as it was, and the page's map bit is set (R386). -/
def Obligations.StoresToSram : Prop :=
  (∀ (s : State) (n : Fin 4) (a : BitVec 24) (m x : Nat) (w : Tagged), placeOf n.val a = .sram m x →
    let t := storeTagged s n.val a w
    sramCell t m x = .good w ∧ sramLoad t m x = (t, some w) ∧
    (∀ k y, (k, y) ≠ (m, x) → sramCell t k y = sramCell s k y) ∧
    (∀ b, mramByte t b = mramByte s b) ∧ t.dram = s.dram ∧ t.cores = s.cores ∧
    (∀ k, k ≠ HS_WMAP (x / 1024 / 32) → regWord t k = regWord s k) ∧ (m = 0 → pageMarked t (x / 1024) = true)) ∧
  ∀ (s : State) (n : Fin 4) (r x base : BitVec 4) (bank mode : BitVec 2) (low : BitVec 16) (off : BitVec 18)
    (p sp : BitVec 24), Issues s n 1 →
    1 ≤ (tagOf (reg s n r)).toNat → (tagOf (reg s n r)).toNat ≤ 7 →
    Storable s n 0 (short s n bank low) →
    reg s n base = addrWord p → mode ≠ 3 → Storable s n base (pointed mode p off) →
    reg s n rSP = addrWord sp → Storable s n rSP (sp - 1) →
    let c := coreOf s n.val
    let a := short s n bank low
    let b := pointed mode p off
    let u := goesOn s n 1 (based c mode base p off)
    exec (.st n r bank low) s = .next (storeTagged (goesOn s n 1 c) n.val a (reg s n r)) ∧
    exec (.str n x bank low) s = .next (storeTagged (goesOn s n 1 c) n.val a (reg s n x)) ∧
    exec (.stx n r base mode off) s = .next (storeTagged u n.val b (reg s n r)) ∧
    exec (.strx n x base mode off) s = .next (storeTagged u n.val b (reg s n x)) ∧
    exec (.push n x) s =
      .next (storeTagged (goesOn s n 1 (putReg c rSP (addrWord (sp - 1)))) n.val (sp - 1) (reg s n x))

/-- XCHG, CAS and MOVM on house and local SRAM. XCHG exchanges a register and a word; CAS writes RB where the word equals RD in
all 36 bits, sets Z, and gives RD the old word, else it clears Z; MOVM copies a raw word and adds 1 to both addresses (R345). -/
def Obligations.Exchanges : Prop :=
  ∀ (s : State) (n : Fin 4) (r base rd ra rb da sa : BitVec 4) (mode : BitVec 2) (off : BitVec 18) (p a d f : BitVec 24)
    (u v w : Tagged), Issues s n 1 →
    reg s n base = addrWord p → mode ≠ 3 → Storable s n base (pointed mode p off) → Holds s n (pointed mode p off) u →
    Fits r u →
    reg s n ra = addrWord a → Storable s n ra a → Holds s n a v → Fits rd v →
    reg s n da = addrWord d → reg s n sa = addrWord f → Storable s n da d → Holds s n f w →
    let c := coreOf s n.val
    exec (.xchg n r base mode off) s =
      .next (storeTagged (goesOn s n 1 (putReg (based c mode base p off) r u)) n.val (pointed mode p off) (reg s n r)) ∧
    (v = reg s n rd → exec (.cas n rd ra rb) s =
      .next (storeTagged (goesOn s n 1 (putReg (withFlags c { z := some true }) rd v)) n.val a (reg s n rb))) ∧
    (v ≠ reg s n rd → exec (.cas n rd ra rb) s = .next (goesOn s n 1 (putReg (withFlags c { z := some false }) rd v))) ∧
    exec (.movm n da sa) s =
      .next (storeTagged (goesOn s n 1 (putReg (putReg c da (addrWord (d + 1))) sa (addrWord (f + 1)))) n.val d w)

/-- What the scan die answers or takes: a load of a scan-die register, BNOW, TRGET and TRWALK leave the core stalled on a read
that is sent over the bridge; a store, TRCLR and TRPUT send a posted write of the core's (R218, R301, R313, R342, R352). -/
def Obligations.ScanAccesses : Prop :=
  ∀ (s : State) (n : Fin 4) (r base rd la ra : BitVec 4) (bank mode : BitVec 2) (low : BitVec 16) (off : BitVec 18)
    (tgt : BitVec 3) (unit : BitVec 4) (stream : BitVec 2) (p : BitVec 24) (l w0 w1 w2 w3 : Word), IssuesAlone s n 1 →
    hasRcop s.variant = true → isPointer rd = false →
    1 ≤ (tagOf (reg s n r)).toNat → (tagOf (reg s n r)).toNat ≤ 7 →
    placeOf n.val (short s n bank low) = .scanReg → isStaged (short s n bank low).toNat = false →
    reg s n base = addrWord p → mode ≠ 3 → placeOf n.val (pointed mode p off) = .scanReg →
    tgt.toNat ≤ 4 → unit.toNat ≤ 14 → reg s n la = intWord l →
    ra = 0 ∨ ra = 4 → reg s n ra = intWord w0 → reg s n (ra + 1) = intWord w1 → reg s n (ra + 2) = intWord w2 →
    reg s n (ra + 3) = intWord w3 →
    let c := coreOf s n.val
    let a := short s n bank low
    let b := pointed mode p off
    let waits (t : Target) (addr : Word) (u : LoadUse) : State :=
      issueToScan (setCore s n.val { c with stalled := some { target := t, addr := addr, use := u } })
        (.readRequest (.core n) t 4)
    let posts (m : Msg) : State := issueToScan (goesOn s n 1 c) m
    exec (.ld n r bank low) s = .next (waits (.register a.toNat) (a.setWidth 32) (.register r false 0 0)) ∧
    exec (.ldx n r base mode off) s = .next (waits (.register b.toNat) (b.setWidth 32)
      (.register r (mode != 0) base (if mode = 0 then 0 else p + off.signExtend 24))) ∧
    exec (.bnow n rd) s = .next (waits .beamNow 0 (.tagged rd tagBeam)) ∧
    exec (.trget n rd la tgt unit stream) s =
      .next (waits (.override stream.toNat unit.toNat tgt.toNat (l.toNat % 512)) 0 (.tagged rd tagInt)) ∧
    exec (.trwalk n rd) s = .next (waits .walkDone 0 (.tagged rd tagBeam)) ∧
    exec (.st n r bank low) s = .next (posts (.regWrite (.core n) a.toNat (payload (reg s n r)))) ∧
    exec (.trclr n) s = .next (posts (.immClear (.core n))) ∧
    exec (.trput n ra) s = .next (posts (.immPut (.core n) w0 w1 w2 w3))

/-- NOP, BR, JMP, JMPR, MFC, MTC, WAIT, SYNC and their ends. BR jumps to the address after it plus DISP24 where its condition
holds; MTC writes the RW fields of SR, VTAB or SLIM, ignores TCAUSE, TADDR and CORE, and counts a reserved field of SR
written as nonzero; WAIT releases the coalesced edges and holds the core until a request above IPL, taken where IE = 1; SYNC
holds it until its stores have applied (R316, R317, R336, R344, R346). -/
def Obligations.ControlInstructions : Prop :=
  ∀ (s : State) (n : Fin 4) (vd ia pa ca cond : BitVec 4) (disp : BitVec 24) (ext a p w : Word), IssuesAlone s n 1 →
    IssuesAlone s n 2 → isPointer vd = false → cond ≠ 15 → ext.toNat < 2 ^ 24 →
    reg s n ia = intWord a → reg s n pa = tagged tagAddr p → reg s n ca = tagged tagCode w →
    let core := coreOf s n.val
    let c := core.sr.getLsbD 11
    let z := core.sr.getLsbD 10
    let neg := core.sr.getLsbD 9
    let v := core.sr.getLsbD 8
    let taken : Bool :=
      [true, z, !z, neg != v, neg == v, !z && neg == v, z || neg != v, c, !c, c && !z, !c || z, neg, !neg, v, !v][cond.toNat]!
    let sr : State := goesOn s n 1 { core with sr := (core.sr &&& 0xFFFFF0E0#32) ||| (a &&& 0x00000F1F#32) }
    exec (.nop n) s = .next (goesOn s n 1 core) ∧
    exec (.br n cond disp) s =
      .next (if taken then setCore s n.val { core with pc := core.pc + 1 + disp } else goesOn s n 1 core) ∧
    exec (.jmp n ext) s = .next (setCore s n.val { core with pc := ext.setWidth 24 }) ∧
    exec (.jmpr n ca) s = .next (setCore s n.val { core with pc := w.setWidth 24 }) ∧
    exec (.mfc n vd 0) s = .next (loads s n 1 vd (intWord core.sr)) ∧
    exec (.mfc n vd 1) s = .next (loads s n 1 vd (addrWord core.vtab)) ∧
    exec (.mfc n vd 2) s = .next (loads s n 1 vd (addrWord core.slim)) ∧
    exec (.mfc n vd 3) s = .next (loads s n 1 vd (intWord core.tcause)) ∧
    exec (.mfc n vd 4) s = .next (loads s n 1 vd (intWord core.taddr)) ∧
    exec (.mfc n vd 5) s = .next (loads s n 1 vd (intWord (BitVec.ofNat 32 n.val))) ∧
    exec (.mtc n ia 0) s = .next (if a &&& 0x000070E0#32 = 0 then sr else countReserved sr) ∧
    exec (.mtc n pa 1) s = .next (goesOn s n 1 { core with vtab := (p &&& 0x00FFFE00#32).setWidth 24 }) ∧
    exec (.mtc n pa 2) s = .next (goesOn s n 1 { core with slim := p.setWidth 24 }) ∧
    exec (.mtc n ia 3) s = .next (goesOn s n 1 core) ∧
    exec (.wait n) s = .next (waitFlush (goesOn s n 1 { core with waiting := true }) n.val) ∧
    exec (.sync n) s = .next (goesOn s n 1 { core with syncing := !sourceQuiet s (.core n) })

/-- WAIT_WAKE with IE = 0 lets the next instruction issue, and with IE = 1 enters the interrupt; SYNC_DONE goes on once nothing
of the core's is on its way to the scan die (R344). -/
def Obligations.WaitsEnd : Prop :=
  ∀ (s : State) (n : Fin 4),
    let c := coreOf s n.val
    (coresClocked s = true → coreRun s n.val = true → coreLocked s n.val = false → c.benchHalt = false → c.waiting = true →
      aboveIpl s n.val = true →
      (c.sr.getLsbD 4 = false → exec (.waitWake n) s = .next (setCore s n.val { c with waiting := false })) ∧
      (c.sr.getLsbD 4 = true → exec (.waitWake n) s = exec (.interruptEntry n) s)) ∧
    (c.syncing = true → sourceQuiet s (.core n) = true →
      exec (.syncDone n) s = .next (setCore s n.val { c with syncing := false }))

/-- REP before an instruction that it may carry: with RA = 0 it loads RPT from RC, skips the instruction where that is 0 and else
starts the repeat with RA = 1; with RA = 1 it goes on without reloading. An iteration lowers RPT by 1; the last one clears RA
and moves PC past the prefix and the instruction (R316, R347). -/
def Obligations.Repeats : Prop :=
  (∀ (s : State) (n : Fin 4) (op : BitVec 8), IssuesAlone s n 2 →
    isDefined op = true → ¬ (0x01 ≤ op.toNat ∧ op.toNat ≤ 0x07) → ¬ 0x80 ≤ op.toNat →
    let c := coreOf s n.val
    let k : BitVec 24 := if op = 0x13 then 3 else 2
    (c.sr.getLsbD 15 = false → c.rc = 0 →
      exec (.rep n op) s = .next (setCore s n.val { c with sr := c.sr &&& 0x00007FFF#32, pc := c.pc + k })) ∧
    (c.sr.getLsbD 15 = false → c.rc ≠ 0 → exec (.rep n op) s = .next (setCore s n.val
      { c with sr := (c.sr &&& 0x00007FFF#32) ||| (c.rc.setWidth 32 <<< 16) ||| 0x00008000#32, repeating := true })) ∧
    (c.sr.getLsbD 15 = true → exec (.rep n op) s = .next (setCore s n.val { c with repeating := true }))) ∧
  ∀ (c : Core) (len : Nat), c.repeating = true → c.sr.getLsbD 15 = true →
    (2 ≤ (c.sr >>> 16).toNat → advance c len = { c with sr := c.sr - 0x00010000#32 }) ∧
    ((c.sr >>> 16).toNat = 1 → advance c len =
      { c with sr := c.sr &&& 0x00007FFF#32, pc := c.pc + 1 + BitVec.ofNat 24 len, repeating := false })

/-- CALL and CALLR push the registers of MASK, the mask and the return address below SP, lowest set bit lowest, and jump; RET
takes them back and jumps to the return address (R350, R351). -/
def Obligations.Calls : Prop :=
  ∀ (s : State) (n : Fin 4) (mask : BitVec 16) (ext w : Word) (rt : BitVec 4) (sp q : BitVec 24) (m : Word)
    (ws : List Tagged), IssuesAlone s n 1 → IssuesAlone s n 2 → ext.toNat < 2 ^ 24 → reg s n rt = tagged tagCode w →
    reg s n rSP = addrWord sp →
    let c := coreOf s n.val
    let named : List Nat := (List.range 16).filter fun i => mask.getLsbD i
    let frame (ret : BitVec 24) : List Tagged := [tagged tagCode (ret.setWidth 32), intWord (mask.setWidth 32)] ++
      named.map fun i => if i = 15 then bankWord c else regOf c (BitVec.ofNat 4 i)
    let low : BitVec 24 := sp - BitVec.ofNat 24 (named.length + 2)
    let back : List Nat := (List.range 16).filter fun i => m.getLsbD i
    ((∀ i < named.length + 2, Storable s n rSP (low + BitVec.ofNat 24 i)) →
      let called (ret a : BitVec 24) : State :=
        setCore (storeRun s n.val low (frame ret)) n.val { putReg c rSP (addrWord low) with pc := a }
      exec (.call n mask ext) s = .next (called (c.pc + 2) (ext.setWidth 24)) ∧
      exec (.callr n rt mask) s = .next (called (c.pc + 1) (w.setWidth 24))) ∧
    (Holds s n sp (tagged tagCode (q.setWidth 32)) → Holds s n (sp + 1) (intWord m) → ws.length = back.length →
      (∀ i < ws.length, Holds s n (sp + 2 + BitVec.ofNat 24 i) (ws.getD i 0)) →
      exec (.ret n) s = .next (setCore s n.val
        { putReg (restoreCall c (back.map fun i => if i = 15 then none else some (BitVec.ofNat 4 i)) ws) rSP
            (addrWord (sp + 2 + BitVec.ofNat 24 ws.length)) with pc := q }))

/-- TRAP N goes to vector 16 + N (what its frame holds is in EntryFrame); an opcode that is not defined traps UNDEF, and one of
the coprocessor block COPABSENT where the part has none; an interrupt that the controller offers enters vector 64 + its
source (R218, R319, R321, R322, R335). -/
def Obligations.TrapsAndInterrupts : Prop :=
  ∀ (s : State) (n : Fin 4) (k : BitVec 4) (op : BitVec 8) (src : Nat), IssuesAlone s n 1 →
    let c := coreOf s n.val
    exec (.trap n k) s = .next (takeSoftTrap s n.val { vector := 16 + k.toNat } c.pc) ∧
    (op.toNat < 0xE0 → isDefined op = false → exec (.undefinedOpcode n op) s = .next (takeTrap s n.val { vector := 1 } c.pc)) ∧
    (0xE0 ≤ op.toNat → op.toNat ≤ 0xEF → hasRcop s.variant = false →
      exec (.undefinedOpcode n op) s = .next (takeTrap s n.val { vector := 9 } c.pc)) ∧
    (offerTo s n.val = some src →
      exec (.interruptEntry n) s = .next (enter s n.val (64 + src) c.pc (some (src, getF s (HIC_SRCCFG_LEVEL src))) none))

/-- What a trap or interrupt entry leaves: TCAUSE and TADDR of a trap; the frame's PC is the trapping instruction's, for TRAP N
the next one's; the 12 words of the frame below SP, lowest first PC, SR, RC, the banks, V0 to V3, P0 to P3; SP at its lowest
word; PC from the vector; in SR only IPL and IE are left of the old value, with IPL the level of an interrupt, which is
acknowledged (R318 to R323, R361). -/
def Obligations.EntryFrame : Prop :=
  ∀ (s : State) (n : Fin 4) (t : Trap) (pc a sp : BitVec 24) (v src level : Nat), level < 16 → reg s n rSP = addrWord sp →
    (∀ i < 12, Storable s n rSP (sp - 12 + BitVec.ofNat 24 i)) → fetchable n.val a = true →
    let frame (c : Core) : List Tagged :=
      [tagged tagCode (pc.setWidth 32), intWord c.sr, intWord (c.rc.setWidth 32), bankWord c,
        regOf c 0, regOf c 1, regOf c 2, regOf c 3, regOf c 8, regOf c 9, regOf c 10, regOf c 11]
    let pushed (c : Core) : State :=
      setCore (storeRun (setCore s n.val c) n.val (sp - 12) (frame c)) n.val (putReg c rSP (addrWord (sp - 12)))
    let entered (s : State) (c : Core) (sr : Word) : State :=
      setCore s n.val { putReg c rSP (addrWord (sp - 12)) with pc := a, sr := sr, repeating := false, waiting := false }
    let holds (u : State) (c : Core) (v : Nat) : Prop :=
      readRaw u n.val (c.vtab + BitVec.ofNat 24 v) = (u, some (tagged tagCode (a.setWidth 32)))
    let c := coreOf s n.val
    let d := { c with tcause := t.cause, taddr := t.addr, stalled := none }
    (holds (pushed d) c t.vector → takeTrap s n.val t pc = entered (pushed d) d (c.sr &&& 0x0000001F#32)) ∧
    (holds (pushed d) c t.vector →
      takeSoftTrap s n.val t (pc - 1) = entered (pushed d) d (c.sr &&& 0x0000001F#32)) ∧
    (holds (pushed c) c v → enter s n.val v pc (some (src, level)) none =
      entered (acknowledge (pushed c) src n.val) c ((c.sr &&& 0x00000010#32) ||| BitVec.ofNat 32 level))

/-- RETI takes back what its frame holds: PC, SR but its reserved fields, RC, the banks, V0 to V3, P0 to P3, and SP above the
frame (R316, R323, R325). -/
def Obligations.ReturnFromFrame : Prop :=
  ∀ (s : State) (n : Fin 4) (sp pc : BitVec 24) (sr rc bk : Word) (w4 w5 w6 w7 w8 w9 wa wb : Tagged), IssuesAlone s n 1 →
    reg s n rSP = addrWord sp →
    (∀ i < 12, Holds s n (sp + BitVec.ofNat 24 i)
      ([tagged tagCode (pc.setWidth 32), intWord sr, intWord rc, intWord bk, w4, w5, w6, w7, w8, w9, wa, wb].getD i 0)) →
    tailSource s n.val (sr &&& 0xFFFF8F1F#32) = none →
    ∃ d : Core, exec (.reti n) s = .next (setCore s n.val d) ∧
      d.pc = pc ∧ d.sr = sr &&& 0xFFFF8F1F#32 ∧ d.rc = rc.setWidth 16 ∧
      d.bk = #v[bk.setWidth 8, (bk >>> 8).setWidth 8, (bk >>> 16).setWidth 8, (bk >>> 24).setWidth 8] ∧
      regOf d 0 = w4 ∧ regOf d 1 = w5 ∧ regOf d 2 = w6 ∧ regOf d 3 = w7 ∧
      regOf d 8 = w8 ∧ regOf d 9 = w9 ∧ regOf d 10 = wa ∧ regOf d 11 = wb ∧ regOf d 15 = addrWord (sp + 12) ∧
      (∀ r ∈ ([4, 5, 6, 7, 12, 13, 14] : List (BitVec 4)), regOf d r = regOf (coreOf s n.val) r) ∧
      d.q = (coreOf s n.val).q ∧ d.vtab = (coreOf s n.val).vtab ∧ d.slim = (coreOf s n.val).slim

/-- LOAD_RETURN: the oldest answer to the core's read goes, tagged INT, to the register that the load named, or POISON where it
failed; the answer leaves the receive buffer and the core goes on (R38, R301, R304, R313). -/
def Obligations.LoadReturns : Prop :=
  ∀ (s : State) (n : Fin 4) (r : BitVec 4) (w : LoadWait) (b : Core) (older newer : List Msg) (data : List Byte) (failed : Bool),
    coreOf s n.val = { b with stalled := some w } → w.use = .register r false 0 0 → isPointer r = false →
    s.bridge.toHouse.arrived = older ++ .readResponse (.core n) w.target data failed :: newer →
    (∀ d f, Msg.readResponse (.core n) w.target d f ∉ older) →
    let word : Tagged := if failed then tagged tagPoison 0 else intWord (BitVec.ofNat 32 (leAt data 0 4))
    exec (.loadReturn n) s = .next
      (setCore (setArrivedHouse s (older ++ newer)) n.val
        (advance (putReg { b with stalled := none } r word) 1))

/-- The operand checks of R302 and R307, for the integer rows: an operand that is UNSET, POISON or of another tag traps at its
own vector with its number and the tags wanted and seen, operand 0 before operand 1; an INT result cannot go to a P register
or SP; a divisor of 0 traps DIVZERO. Nothing of the instruction has had an effect (R302, R307, R318, R319, R338). -/
def Obligations.OperandTraps : Prop :=
  ∀ (s : State) (n : Fin 4) (rd ra rb : BitVec 4) (row : Fin 4 → BitVec 4 → BitVec 4 → BitVec 4 → Instr), Issues s n 1 →
    row ∈ [Instr.add, Instr.sub, Instr.and, Instr.or, Instr.xor, Instr.shl, Instr.shr, Instr.sar, Instr.mul, Instr.divs,
      Instr.divu] →
    let vector (t : BitVec 4) : Nat := if t = 0 then 4 else if t = 15 then 5 else 3
    let trap (t : Trap) : Prop := exec (row n rd ra rb) s = .next (takeTrap s n.val t (coreOf s n.val).pc)
    let x := tagOf (reg s n ra)
    let y := tagOf (reg s n rb)
    (x ≠ 1 → trap { vector := vector x, opnd := 0, want := 1, seen := x.toNat }) ∧
    (x = 1 → y ≠ 1 → trap { vector := vector y, opnd := 1, want := 1, seen := y.toNat }) ∧
    (x = 1 → y = 1 → isPointer rd = true → trap { vector := 3, opnd := 15, want := 3, seen := 1 }) ∧
    (x = 1 → reg s n rb = intWord 0 → isPointer rd = false → row = Instr.divs ∨ row = Instr.divu → trap { vector := 10 })

/-- Flits of an UP bridge: the expected flit with a good CRC is accepted, and the messages that end in it; a bad CRC is counted,
and a discarded flit NAKs the expected number, once until that number comes again; a NAK of a flit in the replay buffer
counts a replay; an acknowledgement frees what it covers, and what waits goes on, up to 512 flits and as its classes have
credits: no message is dropped, and those of a source keep their order (R39, R44, R47, R48, R49, R54, R55). The dresser and
the bench port wait for nothing that would go on with it. -/
def Obligations.FlitsAndAcks : Prop :=
  ∀ (s : State) (dest : Die) (seq : BitVec 10) (f : Flit), scanOn s = true → bridgeUp s = true → NothingWaits s →
    let d := bridgeDir s dest
    let discarded : BridgeDir :=
      if d.nakRun ≠ 0 ∧ seq ≠ d.expect then d else { d with nakRun := d.nakRun + 1, lastNak := d.expect }
    (d.replay.find? (fun x => x.seq = seq) = some f →
      (seq = d.expect → Answers (.bridgeFlitReceive dest seq true) s fun t =>
        bridgeDir t dest = { d with expect := d.expect + 1, nakRun := 0,
                                    arrived := d.arrived ++ (f.parts.filter (·.last)).map (·.msg) } ∧
        regWord t HS_BRERR = regWord s HS_BRERR) ∧
      (seq ≠ d.expect → Answers (.bridgeFlitReceive dest seq true) s fun t =>
        bridgeDir t dest = discarded ∧ regWord t HS_BRERR = regWord s HS_BRERR) ∧
      Answers (.bridgeFlitReceive dest seq false) s (fun t =>
        bridgeDir t dest = discarded ∧ getF t HS_BRERR_CRCERR = min 0xFFF (getF s HS_BRERR_CRCERR + 1) ∧
        getF t HS_BRERR_REPLAYS = getF s HS_BRERR_REPLAYS ∧ getF t HS_BRERR_DROPPED = getF s HS_BRERR_DROPPED) ∧
      Answers (.bridgeNakReceive dest seq) s fun t =>
        bridgeDir t dest = d ∧ getF t HS_BRSTAT_REPLAYED = 1 ∧ getF t HS_BRERR_REPLAYS = min 0xFFF (getF s HS_BRERR_REPLAYS + 1) ∧
        bridgeState t = bridgeState s) ∧
    ∀ (before after : List Flit), d.replay = before ++ f :: after → f.seq = seq → (∀ x ∈ before, x.seq ≠ seq) →
      (∀ x ∈ f :: before, x.seq ≠ d.expect) → after.length ≤ 512 →
      Answers (.bridgeAckReceive dest seq) s fun t =>
        let e := bridgeDir t dest
        (∃ sent, e.replay = after ++ sent) ∧ e.replay.length ≤ 512 ∧ e.arrived = d.arrived ∧
        (e.replay.length = 512 ∨ (packFlit 60 (e.credits (match dest with | .scan => 0 | .house => 1)) [] e.waiting).1 = []) ∧
        (∀ k, (e.replay.flatMap (·.parts) ++ e.waiting).filter (fun p => msgLink p.msg = k) =
          (after.flatMap (·.parts) ++ d.waiting).filter fun p => msgLink p.msg = k) ∧
        ∀ k, regWord t k = regWord s k

/-- The bridge's training. A write of RETRAIN and a link fault whose cause holds take an UP bridge to RETRAINING at 8 lanes;
RETRAIN takes a DOWN bridge to TRAINING. A training that succeeds ends in UP8, or on four lanes of each direction in UP4
where 4 lanes are under training, with RETRAINED (and NARROWED) set, the lanes shown, and a replay of what a direction has
not acknowledged; of two failures at 8 lanes the first tries again and the second, with ALLOW4, falls back to 4; the second
at 4 lanes, and a failure at 8 without ALLOW4, end in DOWN with DOWNEV (R49 to R54). The dresser and the bench port wait for
nothing that would go on at the end. -/
def Obligations.BridgeTraining : Prop :=
  ∀ (s : State) (src : Src) (val : Word) (cause : BridgeFault) (hs sh : BitVec 8), scanOn s = true → NothingWaits s →
    let training := bridgeState s = brTraining ∨ bridgeState s = brRetraining
    (bridgeUp s = true → Answers (.bridgeRetrain src val) s fun t => bridgeState t = brRetraining ∧ t.bridge.width = 8) ∧
    (bridgeState s = brDown → s.bridge.poweredDown = false → Answers (.bridgeRetrain src val) s fun t =>
      bridgeState t = brTraining ∧ t.bridge.width = 8) ∧
    (bridgeUp s = true → linkFaultHolds s cause = true → Answers (.bridgeLinkFault cause) s fun t =>
      bridgeState t = brRetraining ∧ t.bridge.width = 8 ∧ t.bridge.failures = 0) ∧
    (training → s.bridge.width = 8 → Answers (.bridgeTrainingDone true hs sh) s fun t =>
      bridgeState t = brUp8 ∧ getF t HS_BRSTAT_LANES_HS = 0xFF ∧ getF t HS_BRSTAT_LANES_SH = 0xFF ∧
      getF t HS_BRSTAT_RETRAINED = 1 ∧
      (s.bridge.toScan.replay ≠ [] ∨ s.bridge.toHouse.replay ≠ [] → getF t HS_BRSTAT_REPLAYED = 1)) ∧
    (training → s.bridge.width = 4 → fourLanes hs = true → fourLanes sh = true →
      Answers (.bridgeTrainingDone true hs sh) s fun t =>
        bridgeState t = brUp4 ∧ getF t HS_BRSTAT_LANES_HS = hs.toNat ∧ getF t HS_BRSTAT_LANES_SH = sh.toNat ∧
        getF t HS_BRSTAT_RETRAINED = 1 ∧ getF t HS_BRSTAT_NARROWED = 1) ∧
    (training → s.bridge.width = 8 → getF s HS_BRCTL_ALLOW4 = 1 → Answers (.bridgeTrainingDone false hs sh) s fun t =>
      bridgeState t = brTraining ∧
      (t.bridge.failures, t.bridge.width) = if s.bridge.failures = 0 then (1, 8) else (0, 4)) ∧
    (training → s.bridge.width = 4 → s.bridge.failures = 0 → Answers (.bridgeTrainingDone false hs sh) s fun t =>
      bridgeState t = brTraining ∧ t.bridge.failures = 1 ∧ t.bridge.width = 4) ∧
    (training → s.twin.latched = false →
      (s.bridge.width = 4 ∧ 1 ≤ s.bridge.failures) ∨ (s.bridge.width = 8 ∧ getF s HS_BRCTL_ALLOW4 = 0) →
      Answers (.bridgeTrainingDone false hs sh) s fun t => bridgeState t = brDown ∧ getF t HS_BRSTAT_DOWNEV = 1)

/-- What messages do at their destination (R41 to R44, R51, R179): a register write of a core applies at the scan die; an edge
and a record of the scan die reach the house die; a read request is answered after the writes before it; a CM without a fault
at its arrival is held with what its source's open counter has counted; a core's read that the DOWN bridge holds ends in
BUSERR. -/
def Obligations.MessagesApply : Prop :=
  ∀ (s : State) (n : Fin 4) (a len : Nat) (v epoch : Word) (t16 : BitVec 16) (st : BitVec 2) (wc : BitVec 24) (e : Nat) (r : Rec)
    (rest : List Msg), scanOn s = true →
    let free := ∀ m ∈ s.bridge.toScan.arrived, waitsBehind s m = false
    let u := setArrived (setArrived s s.bridge.toScan.arrived) rest
    (s.bridge.toScan.arrived = .regWrite (.core n) a v :: rest → free → isSceneAddr a = false →
      exec (.pwApply .scan) s = .next (pumpAll (regWrite u (.core n) a v))) ∧
    (s.bridge.toHouse.arrived = .edge e :: rest → exec (.pwApply .house) s = .next
      { setArrivedHouse s rest with hic := { s.hic with edges := s.hic.edges ++ [e] } }) ∧
    (s.bridge.toHouse.arrived = .record r :: rest →
      exec (.pwApply .house) s = .next (enqueueRecord (setArrivedHouse s rest) r 0)) ∧
    (s.comp.behind = [] → s.bridge.toScan.arrived = .readRequest (.core n) (.register a) len :: rest →
      let r := regRead (setArrived s rest) (.core n) a
      exec .rdRequest s = .next (sendToHouse r.1 (.readResponse (.core n) (.register a) (leBytes 4 r.2.toNat) false))) ∧
    (s.bridge.toScan.arrived = .commit (.core n) epoch t16 st wc none :: rest → free →
      let c : Commit :=
        { src := .core n, epoch := epoch, tframe := t16, stream := st, wcount := wc.toNat,
          counted := ((findCounter s (.core n)).map (·.count)).getD 0, uncounted := ((findCounter s (.core n)).map (·.lost)).getD false,
          inval := s.comp.invalMark.contains (.core n), reply := none, stage := .held, headers := [] }
      let held : State := { u with comp := { u.comp with
        counters := u.comp.counters.filter fun x => !decide (x.src = .core n),
        invalMark := u.comp.invalMark.filter fun x => !decide (x = .core n), commits := u.comp.commits ++ [c] } }
      arrivalFailure held c = none → exec .cmArrival s = .next held) ∧
    (∀ w, (coreOf s n.val).stalled = some w → bridgeDown s = true → exec (.readTimeout (.core n)) s = .next
      (sourceGoesOn (takeTrap (busAddr (dropReads s (.core n)) w).1 n.val
        { vector := trBuserr, addr := (busAddr (dropReads s (.core n)) w).2 } (coreOf s n.val).pc)))

/-- SCAN_DIE_RESET: the scan die's blocks, shadows and applied values are at reset, its registers too but for PARTNER and LOOP;
the bridge is DOWN; commits end, and the house side keeps none but those whose CM or whose report is on its way; DRAM keeps
its bytes; HS_RSVWR, the cores, timers and DMA channels go on (R17, R31, R601). `stops` is the model's own count of the times
that the beam has stopped. And FRAME_STORE_CLEAR_DONE ends the clearing of the frame store (R226). -/
def Obligations.ScanDieReset : Prop :=
  ∀ (s : State), scanOn s = true →
    (Answers .scanDieReset s fun t =>
      bridgeState t = brDown ∧ t.beam = { Beam.reset with stops := s.beam.stops + 1 } ∧ t.scene = .reset ∧ t.trestle = .reset ∧
      t.drive = .reset ∧ t.copier = none ∧ t.applied = [] ∧ t.comp.commits = [] ∧
      ((∀ c ∈ s.bridge.commits, crossesYet s c = false ∧ reportCame s c = false) → t.bridge.commits = []) ∧
      t.dram.bytes = s.dram.bytes ∧ t.cores = s.cores ∧
      t.timers = s.timers ∧ t.dma = s.dma ∧ t.mem.sram = s.mem.sram ∧ regWord t HS_RSVWR = regWord s HS_RSVWR ∧
      ∀ a, isScanAddr a = true → a ≠ SC_OWNSTAT → a ≠ SC_EGSTAT → regWord t a = regDefault a) ∧
    exec .frameStoreClearDone s = .next { s with drive := { s.drive with clearing := false } }

/-- HOUSE_DIE_RESET and POWER_ON_RESET leave a state from which the boot steps of R590 run. After a house-die reset the scan die
stands as it was, registers, shadows, applied values and DRAM alike, but that it sees the egress loop idle (R31, R199); house
timers, DMA channels, requests and local SRAM are at reset (`skip` is the model's own count of a channel's writes that had
crossed), the first 16 pages of house SRAM hold UNSET, every core stands at its reset START and core 0 alone has RUN = 1, and
HS_RSVWR reads 0 (R17, R31, R306, R329, R376, R386). After a power-on reset both dies are so, the alarm levels are unlocked
(R542), FAILS is 0, the debug state is CLOSED (R531), and PCYC is one more than the last control slot's (R572). -/
def Obligations.HouseAndPowerReset : Prop :=
  ∀ (s : State),
    let house (u : State) : Prop :=
      u.timers = Vector.replicate 8 0 ∧ (∀ n : Fin 32, { u.dma[n] with skip := 0 } = DmaCh.reset) ∧ u.dresser.queue = [] ∧
      u.mem.locals = Vector.replicate 4 [] ∧ (∀ x < 16384, sramCell u 0 x = .good 0) ∧
      (∀ n < 4, coreOf u n = Core.reset 0x1F0000) ∧ getF u HS_CORECTL_RUN = 1 ∧ getF u HS_RSVWR_COUNT = 0 ∧
      bridgeState u = brDown ∧ u.power.booting = true
    (houseOn s = true → ∃ u cause, exec .houseDieReset s = .next (bootSteps u false cause) ∧ house u ∧
      u.beam = s.beam ∧ u.scene = s.scene ∧ u.comp = s.comp ∧ u.drive = s.drive ∧ u.copier = s.copier ∧ u.dram = s.dram ∧
      u.applied = s.applied ∧ (s.pads.loop ≠ 0 → s.power.scanOff = false → getF u SC_EGSTAT_LOOP = 0 ∧ getF u SC_EGSTAT_LOOPEV = 1) ∧
      ∀ a, isScanAddr a = true → a ≠ SC_EGSTAT → regWord u a = regWord s a) ∧
    (s.power.supply = .running → ∃ u, exec .powerOnReset s = .next (bootSteps u true 0) ∧ house u ∧
      u.beam = { Beam.reset with stops := s.beam.stops + 1 } ∧ u.scene = .reset ∧ u.drive = .reset ∧ u.copier = none ∧ u.applied = [] ∧
      getF u SEC_ALMCFG_LEVEL = 0x559 ∧ getF u SEC_ALMCFG_LOCK = 0 ∧ getF u SEC_UNLK_FAILS = 0 ∧ debugState u = 0 ∧
      u.recorder.pcyc = min 0xFFFFFF (((lastSlot s).map (·.pcyc)).getD 0 + 1))

/-- SC_BEAMPOS_LO (0x21_0003) returns BEAMPOS [31:0] and its read latches BEAMPOS [63:32] into SC_BEAMPOS_HI (0x21_0004); a read
of HI alone returns the last latched value; both are RO with reset 0 (R96). -/
def Obligations.BeamPosition : Prop :=
  (∀ (s : State) (src : Src), scanOn s = true → ∃ t, exec (.beamposLoRead src) s = .next t ∧
    regRead s src 0x210003 = (t, (beamPos s).setWidth 32) ∧ regRead t src 0x210004 = (t, ((beamPos s) >>> 32).setWidth 32)) ∧
  (∀ (s : State) (src : Src), regRead s src 0x210004 = (s, regWord s 0x210004)) ∧
  (∀ (s : State) (src : Src) (a : Nat) (w : Word), a = 0x210003 ∨ a = 0x210004 → ∀ k, regWord (regWrite s src a w) k = regWord s k) ∧
  regWord State.reset 0x210003 = 0 ∧ regWord State.reset 0x210004 = 0

/-- The beam block's states (R72, R74, R78, R94, R95): EN written 1 or REACQ enters ACQUIRE, EN written 0 enters OFF and stops
composition; a write of the format while EN = 1 enters ACQUIRE; a follower that loses its beacons goes from LOCKED to
HOLDOVER, and after the holdover time to FREE, with their events; a module whose anchor falls silent follows the other one it
hears. -/
def Obligations.BeamStates : Prop :=
  ∀ (s : State) (src : Src) (val : Word) (h : Heard), scanOn s = true →
    (getF s SC_BEAMCTL_EN = 0 → val.getLsbD 0 = true → Answers (.beamEnable src val) s fun t =>
      beamState t = bmAcquire ∧ getF t SC_BEAMCTL_EN = 1 ∧ t.beam.source = none) ∧
    (getF s SC_BEAMCTL_EN = 1 → val.getLsbD 0 = false → Answers (.beamEnable src val) s fun t =>
      beamState t = bmOff ∧ getF t SC_BEAMCTL_EN = 0 ∧ t.comp.composing = none) ∧
    (val.getLsbD 0 = true → Answers (.reacq src val) s fun t =>
      beamState t = bmAcquire ∧ getF t SC_BEAMCTL_EN = 1 ∧ t.beam.goodRun = 0) ∧
    (Answers (.beamFormatWrite src true val) s fun t =>
      regWord t SC_BEAMPER = val ∧ beamState t = if getF s SC_BEAMCTL_EN = 1 then bmAcquire else beamState s) ∧
    (Answers (.beamFormatWrite src false val) s fun t =>
      getF t SC_BEAMFMT_ACTIVE = bitsOf val 15 0 ∧
      getF t SC_BEAMFMT_BLANK = (if bitsOf val 28 16 ≤ 4096 then bitsOf val 28 16 else getF s SC_BEAMFMT_BLANK) ∧
      beamState t = if getF s SC_BEAMCTL_EN = 1 then bmAcquire else beamState s) ∧
    (beamState s = bmLocked → anchorRole s = 0 → Answers .holdoverEntry s fun t =>
      beamState t = bmHoldover ∧ getF t SC_BEAMSTAT_HOLDEV = 1) ∧
    (beamState s = bmHoldover → Answers .freeEntry s fun t => beamState t = bmFree ∧ getF t SC_BEAMSTAT_FREEEV = 1) ∧
    (s.beam.source = some 1 → heardLately s 2 = some h → Answers .anchorChange s fun t =>
      t.beam.source = some 2 ∧ t.beam.heardPrimary = none ∧ getF t SC_BEAMSTAT_HOPS = min 255 (h.hops + 1) ∧
      getF t SC_BEAMSTAT_SRCALT = 1 ∧ getF t SC_BEAMSTAT_FARHOP = (if 160 < h.hops + 1 then 1 else 0) ∧
      (h.state < 3 → getF t SC_BEAMSTAT_SRCSTATE = h.state))

/-- What tracks the beam (R61, R62, R66, R69, R71, R74, R75): a frame pulse of a locked anchor is slewed out, its error shown and
its period learned where it is within 100 ppm; one that is not does not lock; the fifth good one in ACQUIRE locks; a line
clock edge aligns the counter or, more than 10 ns off, sets REFMIS; an anchor sends a numbered beacon; a received one that is
refused is counted, another goes with its arrival stamp through the bridge to the beam block, which slews out one of the
followed anchor and counts it. -/
def Obligations.BeamReference : Prop :=
  ∀ (s : State) (period : Word) (corr res : BitVec 32) (arrival : Nat) (x : Item) (rest : List (Nat × Item)) (b : BeaconFix)
      (later : List Msg) (st g : Nat),
    scanOn s = true → framePeriod s ≠ 0 →
    let e := pulseError s
    let d := nearest (-(beamUnits s : Nat)) (256 * framePeriod s)
    let far := 640 * 1024 * frameLines s < d.natAbs * 25
    let fix := beaconFix s x.pkt.payload (getF s (WV_PORTDLY_DELAY arrival)) x.stamp
    (anchorRole s ≠ 0 → s.beam.followsOther = false → s.beam.frameSet = none →
      (beamState s = bmLocked → Answers (.framePulse period) s fun t =>
        t.beam.slew = e ∧ getF t SC_BEAMERR_PHERR = unsignedOf 32 (clampInt (-2147483647) 2147483647 e) ∧ beamState t = bmLocked ∧
        t.beam.period = if periodGood s period.toNat then period.toNat * 65536 else s.beam.period) ∧
      (beamState s = bmAcquire → periodGood s period.toNat = false → Answers (.framePulse period) s fun t =>
        beamState t = bmAcquire ∧ getF t SC_BEAMSTAT_REFMIS = 1 ∧ t.beam.goodRun = 0) ∧
      (beamState s = bmAcquire → periodGood s period.toNat = true → s.beam.goodRun = 4 → e.natAbs ≤ 320 →
        Answers (.framePulse period) s fun t => beamState t = bmLocked ∧ getF t SC_BEAMSTAT_LOCKEV = 1) ∧
      (getF s SC_BEAMCTL_REFLC = 1 → beamRuns s = true →
        (far → exec .lineClockEdge s = .next (setF s SC_BEAMSTAT_REFMIS 1)) ∧
        (¬ far → exec .lineClockEdge s = .next (beamMove s d))) ∧
      (beaconState s = some st → s.beam.line % 256 = 0 → bridgeUp s = true → Answers (.beaconSend corr) s fun t =>
        t.beam.bseq = s.beam.bseq + 1)) ∧
    (s.weave.beacons = (arrival, x) :: rest →
      (beaconRefused s arrival x.pkt.payload res.toNat = true → Answers (.beaconReceive res) s fun t =>
        t.weave.beacons = rest ∧ getF t SC_BEACNT_DISCARD = min 255 (getF s SC_BEACNT_DISCARD + 1)) ∧
      (beaconRefused s arrival x.pkt.payload res.toNat = false →
        groupEntry s (natBits x.pkt.dest.toNat 7 0) = some (g, [7]) → exec (.beaconReceive res) s =
          .next (issueToScan { s with weave := { s.weave with beacons := rest } } (.beacon fix)))) ∧
    (s.bridge.toScan.arrived = .beacon b :: later → (∀ m ∈ s.bridge.toScan.arrived, waitsBehind s m = false) → NothingWaits s →
      beamState s = bmLocked → anchorRole s = 0 → s.beam.source = some b.anchor → getF s SC_BEAMCTL_STEPTHR = 0 →
      Answers (.pwApply .scan) s fun t =>
        t.beam.slew = (beaconError s b).1 ∧ getF t SC_BEACNT_ACCEPT = (getF s SC_BEACNT_ACCEPT + 1) % 65536)

/-- What the beam passes (R57, R65, R93): a frame start takes the next frame count, but where a shift of the counter has taken it
already, and lets the watermarks fire anew; a watermark fires once in a frame at its position, gives its interrupt source an
edge, and with ONCE clears its EN. -/
def Obligations.BeamCrossings : Prop :=
  ∀ (s : State) (n : Fin 4) (f : Nat), scanOn s = true →
    (beamState s ≠ bmOff → s.beam.adopt = none → s.beam.begun = true → Answers .frameStart s fun t =>
      t.beam.frame = s.beam.frame + 1 ∧ t.beam.line = 0 ∧ t.beam.frac = 0 ∧ t.beam.fired = Vector.replicate 4 false) ∧
    (beamState s ≠ bmOff → s.beam.adopt = none → s.beam.begun = false → Answers .frameStart s fun t =>
      t.beam = { s.beam with begun := true }) ∧
    (watermarkFracs s n.val = some f → beamState s ≠ bmOff → watermarkFired s n.val = false → Answers (.watermarkFire n) s fun t =>
      watermarkFired t n.val = true ∧ beamReached t s.beam.frame f = true ∧
      getF t (SC_BEAMWM_EN n.val) = (if getF s (SC_BEAMWM_ONCE n.val) = 1 then 0 else 1) ∧
      (if bridgeDown s then t.hic.scanHeld = s.hic.scanHeld ++ [49 + n.val]
       else t.bridge = (sendToHouse s (.edge (49 + n.val))).bridge))

/-- Composition of a pass (R82, R174, R179, R212, R224, R268, R271). COMPOSE_START begins the pass whose turn it is once the beam
runs, the frame store is clear and its walk is complete, and takes the egress state for the frame; with the walk outstanding
the pass is held back. CLUSTER_LINE_COMPOSE composes one line of a region, once, and writes only the back bank of that line
in that region's columns. COMPOSE_END ends the pass: the next feed's pass follows, and after the last the frame is composed;
with CTHR = 0 every frame raises CRUN, and none is a fatal fault (R385). -/
def Obligations.Composition : Prop :=
  ∀ (s : State) (a : Area) (frame : Word) (feed region : BitVec 2) (line : BitVec 9) (late : Bool) (st : Nat),
    scanOn s = true → s.area = some a →
    (beamRuns s = true → s.drive.clearing = false → s.comp.composing = none → feed.toNat < feeds s .applied →
      passInOrder s frame feed.toNat = true →
      (walkReady s feed.toNat frame = true → Answers (.composeStart frame feed) s fun t =>
        t.comp.composing = some (frame, feed.toNat) ∧ t.comp.linesDone = [] ∧
        (feed = 0 → t.comp.shown = { active := flag s SC_EGSTAT_ACTIVE, entry := getF s SC_EGSTAT_ENTRY } ∧ t.comp.concealed = 0)) ∧
      (walkReady s feed.toNat frame = false → Answers (.composeStart frame feed) s fun t =>
        t.comp.composing = none ∧ t.trestle.composeHeld = some feed.toNat)) ∧
    (lineAwaited s region.toNat line.toNat = true → s.comp.composing = some (frame, st) →
      sideboardWaits s a st region.toNat line.toNat = false →
      Answers (.clusterLineCompose region line late) s fun t =>
        t.comp.linesDone = (region.toNat, line.toNat) :: s.comp.linesDone ∧ t.comp.composing = some (frame, st) ∧
        ∀ bank l col ch, l < 512 → col < 1024 → ch < 4 → bank = frontBank s line.toNat ∨ l ≠ line.toNat ∨ col / 256 ≠ region.toNat →
          sget t.drive.store 0 (storeKey bank l col ch) = sget s.drive.store 0 (storeKey bank l col ch)) ∧
    (s.comp.composing = some (frame, st) → passDone s = true →
      (st + 1 < feeds s .applied → Answers .composeEnd s fun t =>
        t.comp.composing = none ∧ t.comp.nextPass = some (frame, st + 1) ∧ t.comp.lastComposed = s.comp.lastComposed) ∧
      (feeds s .applied ≤ st + 1 → getF s SC_ECCCTL_CTHR = 0 → Answers .composeEnd s fun t =>
        t.comp.composing = none ∧ t.comp.nextPass = none ∧ t.comp.lastComposed = some frame ∧
        getF t SC_ECCSTAT_CRUN = min (2 ^ SC_ECCSTAT_CRUN.width - 1) (getF s SC_ECCSTAT_CRUN + 1) ∧
        getF t SC_ECCSTAT_FATAL = getF s SC_ECCSTAT_FATAL))

/-- Flips (R80, R86, R90, R91, R269, R279): at its flip position for a pass, the first time it comes, a complete module line
changes its front bank, with CURFEED, and a line that is not complete keeps it and is late, with LATELINE. In ROLLING lines
flip one by one; in GLOBAL every line flips at once, and with two or more feeds at each feed's flip position. -/
def Obligations.Flips : Prop :=
  ∀ (s : State) (a : Area) (frame : Word) (l : BitVec 9) (feed : BitVec 2), scanOn s = true → s.area = some a → beamRuns s = true →
    let flipped (t : State) (pass : Nat) (lines : Nat → Prop) : Prop :=
      ∀ k < 512, (lines k ∧ k ∈ s.drive.ready → frontBank t k = !frontBank s k ∧ getF t SC_FEEDSTAT_CURFEED = pass) ∧
        (¬ (lines k ∧ k ∈ s.drive.ready) → frontBank t k = frontBank s k) ∧
        (lines k ∧ k ∉ s.drive.ready → (k, frame, pass) ∈ t.drive.late ∧ getF t SC_BEAMSTAT_LATELINE = 1)
    let first (pass : Nat) : Prop := ∀ k < a.h, flippedAlready s k frame pass = false
    (modeGlobal s = false → l.toNat < a.h → flippedAlready s l.toNat frame 0 = false →
      Answers (.lineFlip frame l) s fun t => flipped t 0 (· = l.toNat)) ∧
    (modeGlobal s = true → feeds s .applied = 1 → first 0 → Answers (.globalFlip frame) s fun t => flipped t 0 (· < a.h)) ∧
    (modeGlobal s = true → 2 ≤ feeds s .applied → feed.toNat < feeds s .applied → first feed.toNat →
      Answers (.feedFlip frame feed) s fun t => flipped t feed.toNat (· < a.h))

/-- The scene memory (R105, R106, R120, R127, R131, R136): a DRAM write over good units stores its bytes and no others; a write
beyond the top is discarded and counted; a write stalls while the sorter's queue has no room for its entries; the sorter
evaluates the entry at the head of its queue, and an entry with EN = 0 leaves the shadow set; a write of the table's
registers starts a rescan, which ends with nothing waiting; INVAL empties the caches. -/
def Obligations.SceneMemory : Prop :=
  ∀ (s : State) (src : Src) (addr val : Word) (data : List Byte) (ctl : Bool) (e : SortEntry) (es : List SortEntry),
    scanOn s = true →
    (sorterFull s addr.toNat data.length = false → egressBase s = 0 → addr.toNat + data.length ≤ 0xF8000000 →
      (∀ u ∈ unitsOf addr.toNat data.length, unitState s u = .good) → Answers (.dramWriteApply src addr data) s fun t =>
        (∀ i < data.length, dramByte t (addr.toNat + i) = data.getD i 0) ∧
        ∀ b, b < addr.toNat ∨ addr.toNat + data.length ≤ b → dramByte t b = dramByte s b) ∧
    (sorterFull s addr.toNat data.length = false → 0xF8000000 ≤ addr.toNat → Answers (.dramWriteApply src addr data) s fun t =>
      getF t SC_SCENECNT_BADADDR = min 0xFFFF (getF s SC_SCENECNT_BADADDR + 1) ∧ t.dram = s.dram) ∧
    (sorterFull s addr.toNat data.length = true → exec (.dramWriteApply src addr data) s = .next s) ∧
    (s.scene.rescan = none → s.scene.queue = e :: es → Answers .objectEvaluate s fun t =>
      t.scene.queue = es ∧ (e.entry < objectCount s → unitState s (objectBase s / 64 + e.entry) = .good →
        bitAt (dramNat s (objectBase s + 64 * e.entry + 12) 4) 31 = false → sfind t.scene.shadow e.entry = none)) ∧
    (Answers (.objectTableWrite src ctl val) s fun t =>
      t.scene.rescan = some 0 ∧ t.scene.shadow = [] ∧ getF t SC_OBJSTAT_SCAN = 1) ∧
    (s.scene.rescan.isSome = true → Answers .rescanDone s fun t =>
      t.scene.rescan = none ∧ t.scene.queue = [] ∧ getF t SC_OBJSTAT_SCAN = 0) ∧
    (Answers .patternCacheInvalidate s fun t => t.scene.cache = Vector.replicate 8 [])

/-- A walk, once it is its turn, gathers for its stream and frame the entries of the stream's lists, each list checked by itself,
in the order of their lines; when it is done it becomes the stream's line table, and its frame and the number of entries read
are shown (R203 to R206, R211, R214, R217, R221). -/
def Obligations.TrestleWalks : Prop :=
  ∀ (s : State) (st : BitVec 2) (frame : Word) (w : Walk), scanOn s = true →
    let lists := (streamLists s st.toNat).map (readList s st.toNat)
    (walkDue s st.toNat frame = true → Answers (.trestleWalk st frame) s fun t => ∃ v, t.trestle.walking = some v ∧
      v.stream = st.toNat ∧ v.frame = frame ∧ v.read = (lists.map (·.read)).sum ∧
      v.entries.Perm (lists.flatMap (·.kept)) ∧ v.entries.Pairwise (fun x y => x.line ≤ y.line)) ∧
    (walkDue s st.toNat frame = false → exec (.trestleWalk st frame) s = .next s) ∧
    (s.trestle.walking = some w → w.stream < 4 → Answers .walkDone s fun t =>
      t.trestle.walking = none ∧ t.trestle.tables.toList.getD w.stream none = some w ∧
      t.trestle.valid.toList.getD w.stream none = some w.frame ∧ t.trestle.donePos = beamPos s ∧
      getF t SC_TRWALK_FRAME = w.frame.toNat % 65536 ∧ getF t SC_TRWALK_ENTRIES = w.read % 2 ^ SC_TRWALK_ENTRIES.width)

/-- Commits, fences and the egress layer (R78, R172, R173, R178, R179, R181, R182, R183, R184, R190, R197 to R199, R556). A write
of SC_CMGO by a core or the dresser while the bridge is UP sends the commit that the source staged, and the house side keeps
it until it is reported. ADMISSION of a held commit whose writes are complete, once D(T - 1) has passed, admits it where no
check fails, and refuses it with the first failing check's reason otherwise; one that is not complete stays held, and is
refused as incomplete once D(T) has passed. Admitted commits of one frame T are accepted in one instant once frame T - 1 is
composed: every shadow they cover becomes the applied value, and each result is reported. A refusal applies nothing. A read
of SC_FENCEQ removes the oldest retirement. The loop takes a band after ten samples in it; verification keeps which entries
are valid; a write with LOCK = 1 locks SC_EGCTL, which a locked or active layer ignores. -/
def Obligations.CommitsAndEgress : Prop :=
  ∀ (s : State) (src : Src) (val : Word) (c : Commit) (e : Retirement) (es : List Retirement) (code : BitVec 10),
    scanOn s = true →
    let st := c.stream.toNat
    let shown (t : State) (reason : Nat) : Prop :=
      getF t (SC_CMRES_REASON st) = reason ∧ getF t (SC_CMRES_SOURCE st) = srcId c.src ∧
      getF t (SC_CMRES_TFRAME st) = c.tframe.toNat ∧ getF t (SC_CMEPR_EPOCH st) = c.epoch.toNat
    let refused (t : State) (reason : Nat) : Prop :=
      t.comp.commits = s.comp.commits.erase c ∧ t.applied = s.applied ∧
      t.comp.refused = min 0xFFFFFFFF (s.comp.refused + 1) ∧ t.comp.accepted = s.comp.accepted ∧ shown t reason
    (stagesCommit src = true → bridgeUp s = true →
      let w0 := regWord s (sourceKey (srcId src) SC_CMCMD0)
      let w1 := regWord s (sourceKey (srcId src) SC_CMCMD1)
      Answers (.cmgo src val) s fun t =>
        t.bridge.commits = s.bridge.commits ++
          [{ src := src, epoch := w0, tframe := w1.setWidth 16, stream := (w1 >>> 16).setWidth 2, reply := none }] ∧
        ∀ k, ((t.bridge.toScan.replay.flatMap (·.parts)) ++ t.bridge.toScan.waiting).filter (fun p => msgLink p.msg = k) =
          (((s.bridge.toScan.replay.flatMap (·.parts)) ++ s.bridge.toScan.waiting).filter fun p => msgLink p.msg = k) ++
            (piecesOf (.commit src w0 (w1.setWidth 16) ((w1 >>> 16).setWidth 2) (val.setWidth 24) none)).filter
              fun p => msgLink p.msg = k) ∧
    (commitAt s src .held = some c →
      let ready := c.counted = c.wcount ∧ deadlinePassed s (targetFrame s c.tframe - 1) = true
      (¬ ready → exec (.admission src) s = .next s) ∧
      (ready → admissionFailure s st = none → Answers (.admission src) s fun t =>
        t.applied = s.applied ∧ t.comp.commits = s.comp.commits.map fun x =>
          if x = c then { c with stage := .admitted, headers := captureHeaders s st } else x) ∧
      (∀ r f, ready → admissionFailure s st = some (r, f) → Answers (.admission src) s fun t => refused t r.code) ∧
      (c.counted < c.wcount → deadlinePassed s (targetFrame s c.tframe) = true → Answers (.commitDeadline src) s fun t =>
        refused t Reason.incomplete.code)) ∧
    ((∀ x ∈ s.comp.commits, x.src = src → incomplete s x = false) → exec (.commitDeadline src) s = .next s) ∧
    (s.wf → commitAt s src .admitted = some c →
      let all := s.comp.commits.filter fun x => x.stage = .admitted && x.tframe = c.tframe
      let may := frameComposed s (targetFrame s c.tframe - 1) = true ∧
        ¬ (beamState s = bmFree ∧ getF s SC_BEAMCTL_FREEACT = 2)
      (¬ may → exec (.commitAccept src) s = .next s) ∧
      (may → Answers (.commitAccept src) s fun t =>
        (∀ a, appliedWord t a = if all.any (fun x => coveredBy x.stream.toNat a) then regWord s a else appliedWord s a) ∧
        t.comp.commits = s.comp.commits.filter (fun x => !(x.stage = .admitted && x.tframe = c.tframe)) ∧
        t.comp.accepted = s.comp.accepted + all.length ∧
        (all = [c] → shown t 0 ∧ getF t (SC_CMEPA_EPOCH st) = c.epoch.toNat))) ∧
    (s.comp.fenceQueue = e :: es → Answers (.fenceqRead src) s fun t =>
      t.comp.fenceQueue = es ∧ getF t SC_FENCESTAT_DEPTH = es.length % 2 ^ SC_FENCESTAT_DEPTH.width) ∧
    (let band := loopBand code.toNat
     let run := if band = s.pads.band then min 10 (s.pads.bandRun + 1) else 1
     Answers (.egressSample code) s fun t =>
      getF t PAD_EGSTAT_CODE = code.toNat ∧ t.pads.band = band ∧ t.pads.bandRun = run ∧
      t.pads.loop = (if band < 4 ∧ run = 10 then band else s.pads.loop) ∧
      (band < 4 → run = 10 → band ≠ s.pads.loop → getF t SC_EGSTAT_LOOP = band ∧ getF t SC_EGSTAT_LOOPEV = 1)) ∧
    (Answers .egressLibraryVerify s fun t =>
      t.comp.libraryKeyValid = (!mramBad s 0x700000 64 && s.hutch.egressHash = some (Crypto.sha256 (mramBytes s 0x700000 64))) ∧
      t.comp.library = (if t.comp.libraryKeyValid then validEntries s else []) ∧ t.mem.sram = s.mem.sram ∧
      ∀ b, mramByte t b = mramByte s b) ∧
    (if flag s SC_EGCTL_LOCK || flag s SC_EGSTAT_ACTIVE then Answers (.egctlLock src val) s fun t =>
      t.comp = s.comp ∧ ∀ k, k ≠ HS_RSVWR → regWord t k = regWord s k
     else Answers (.egctlLock src val) s fun t => getF t SC_EGCTL_LOCK = 1 ∧ getF t SC_EGCTL_INEN = bitsOf val 0 0 ∧
      getF t SC_EGCTL_INENTRY = bitsOf val 6 2 ∧ getF t SC_EGCTL_FAULTACT = bitsOf val 7 7)

/-- Refresh, the plane generators and the harness interlock (R236 to R241, R249, R250, R253, R254, R263, R266). A refresh cycle
takes GAIN and DBITS, the RUN bits while the beam runs, and whether it is lit; a row slot starts with its dead time, OE
inactive, and takes the row read before, or reads its own row where a step of the beam led elsewhere; a plane slot shows the
row on the ROW outputs, latches what was shifted, gives OE its steps where the cycle is lit and not dark, and releases or
drives the ports. A region whose RUN bit rises generates if no check of R249 fails, and is reported otherwise; RUN falls at
once. CLAIM, OWN_B and the expiry of TARB move the interlock; without a plane slot boundary to come, what waits for one is
done at once (log entry 113). -/
def Obligations.RefreshAndInterlock : Prop :=
  ∀ (s : State) (src : Src) (frame val : Word) (cycle row : BitVec 6) (n : BitVec 5) (k : Fin 4) (f : Nat × Option Nat),
    scanOn s = true →
    let d := s.drive
    let last := row.toNat + 1 = muxRows s
    let active := getF s SC_PGSTAT_ACTIVE &&& getF s SC_PGCTL_RUN &&& (15 ^^^ d.stopping)
    let here := setF s SC_PGSTAT_ACTIVE active
    let u := if runMask s = 0 then setF (setF s SC_PGCTL_CH4 (bitsOf val 1 1)) SC_PGCTL_ROWMODE (bitsOf val 2 2) else s
    (d.clearing = false → cycle.toNat < refreshes s → Answers (.refreshCycleStart frame cycle) s fun t =>
      t.drive.cycleFrame = frame ∧ t.drive.cycle = cycle.toNat ∧ t.drive.row = 0 ∧ t.drive.plane = none ∧
      t.drive.cycleBanks = d.nextBanks ∧
      t.drive.lit = cycleLit s cycle.toNat ∧ t.drive.dark = emissionDark s ∧ t.drive.gain = getF s SC_PGGAIN_GAIN ∧
      t.drive.dbits = getF s SC_PGGAIN_DBITS ∧ getF t SC_PGSTAT_ACTIVE = if beamRuns s then getF s SC_PGCTL_RUN else 0) ∧
    (d.clearing = false → row.toNat < muxRows s → Answers (.rowSlotStart row) s fun t =>
      t.drive.row = row.toNat ∧ t.drive.rowOut = (if getF s SC_PGTIME_RDEAD = 0 then row.toNat else d.rowOut) ∧
      t.drive.plane = none ∧ t.drive.oeSteps = 0 ∧
      t.drive.rowImage = (if d.nextFor = some (d.cycleFrame, d.cycle, row.toNat) then d.nextImage
        else readRow here (rowBank here d.cycleBanks) row.toNat d.gain d.dbits d.cycleFrame.toNat d.cycle) ∧
      t.drive.nextBanks = (if last then d.front else d.nextBanks) ∧
      t.drive.stopping = 0 ∧ getF t SC_PGSTAT_ACTIVE = active) ∧
    (d.clearing = false → n.toNat < planeCount s → Answers (.planeSlotStart n) s fun t =>
      t.drive.plane = some n.toNat ∧ t.drive.rowOut = d.row ∧ t.drive.latched = d.shifting ∧
      t.drive.oeSteps = (if d.lit && !d.dark then
        oePulse (planeCount s) (getF s SC_PGTIME_LIT) (planeCount s - 1 - n.toNat) d.cycleFrame.toNat d.cycle (refreshes s)
        else 0) ∧
      (d.releaseAtSlot = true → s.twin.rearm = false → flag s SC_OWNCTL_CLAIM = false ∨ d.clearsClaim = true →
        ownState t = ownReleased ∧ getF t SC_OWNSTAT_DRIVING = 0 ∧ t.drive.ownA = false ∧ t.drive.releaseAtSlot = false) ∧
      (d.releaseAtSlot = false → ownState s = ownHolding → ownB s = false → getF t SC_OWNSTAT_DRIVING = 1)) ∧
    (k.val < regionCount s.variant → bitsOf val 0 0 = 0 →
      (runMask s ≠ 0 → bitsOf val 1 1 = getF s SC_PGCTL_CH4 ∧ bitsOf val 2 2 = getF s SC_PGCTL_ROWMODE) →
      (bitAt (runMask s) k = true ∨ runFailure u k = none → Answers (.runStart src k val) s fun t =>
        bitAt (getF t SC_PGCTL_RUN) k = true) ∧
      (bitAt (runMask s) k = false → runFailure u k = some f → Answers (.runStart src k val) s fun t =>
        bitAt (getF t SC_PGCTL_RUN) k = false ∧ getF t SC_PGSTAT_FAILEV = 1 ∧
        (bitsOf val 11 8 = 0 → getF t SC_PGSTAT_FAIL = f.1))) ∧
    (Answers (.runStop src k val) s fun t => bitAt (getF t SC_PGCTL_RUN) k = false) ∧
    (s.twin.failed = false → val.getLsbD 0 = true → ownState s = ownReleased → Answers (.claim src val) s fun t =>
      getF t SC_OWNCTL_CLAIM = 1 ∧ t.drive.ownA = (d.ownA || !ownB s) ∧
      ownState t = if ownB s then ownWaiting else ownClaiming) ∧
    (s.twin.rearm = false → val.getLsbD 0 = false → ownState s ≠ ownReleased → Answers (.claim src val) s fun t => getF t SC_OWNCTL_CLAIM = 0 ∧
      if flag s SC_OWNSTAT_DRIVING && anyRunning s && beamRuns s then t.drive.releaseAtSlot = true ∧ ownState t = ownState s
      else ownState t = ownReleased ∧ getF t SC_OWNSTAT_DRIVING = 0 ∧ t.drive.ownA = false) ∧
    (s.twin.failed = true → val.getLsbD 0 = true → Answers (.claim src val) s fun t =>
      getF t SC_OWNCTL_CLAIM = 0 ∧ ownState t = ownState s ∧ t.drive = s.drive) ∧
    (s.twin.rearm = false → d.releaseAtSlot = false →
      (ownState s = ownClaiming → getF s SC_OWNCTL_TIEWIN = 0 → Answers (.ownBChange true) s fun t =>
        ownState t = ownWaiting ∧ t.drive.ownA = false ∧ getF t SC_OWNSTAT_TIEEV = 1 ∧ getF t SC_OWNSTAT_PARTNER = 1) ∧
      (ownState s = ownHolding → Answers (.ownBChange true) s fun t => ownState t = ownContested ∧
        getF t SC_OWNSTAT_DRIVING = 0 ∧ getF t SC_OWNSTAT_DUALEV = 1 ∧ getF t SC_OWNSTAT_PARTNER = 1) ∧
      (ownState s = ownWaiting → d.withdrawn = none → Answers (.ownBChange false) s fun t =>
        ownState t = ownClaiming ∧ t.drive.ownA = true ∧ getF t SC_OWNSTAT_PARTNER = 0) ∧
      (ownState s = ownClaiming ∨ ownState s = ownContested → ownB s = false → Answers .tarbExpiry s fun t =>
        ownState t = ownHolding ∧ getF t SC_OWNSTAT_TAKEEV = 1 ∧
        getF t SC_OWNSTAT_DRIVING = if beamRuns s then getF s SC_OWNSTAT_DRIVING else 1))

/-- The block copier (R282 to R286, R290, R291, R294 to R296). GO with the copier idle latches and checks the operands: it
starts, or reports the first failing check; while it is busy GO only counts. A paced row is released by the beam. A segment
is copied or filled whole, and a source unit that cannot be read ends the operation with nothing written. A row done counts,
and the last one ends the operation with its event. ABORT ends it at the end of the segment, at once while the row waits, and
not once every segment is written. -/
def Obligations.BlockCopier : Prop :=
  ∀ (s : State) (src : Src) (val : Word) (o : CopyOp), scanOn s = true →
    let wanted : CopyOp :=
      { copyOperands s with op := bitsOf val 6 4, bpp := bitsOf val 8 7, xdir := val.getLsbD 9, ydir := val.getLsbD 10,
                            pace := val.getLsbD 11 }
    let failed (t : State) (err : Nat) : Prop :=
      t.copier = none ∧ getF t CPY_STAT_ERR = err ∧ getF t CPY_STAT_ERREV = 1 ∧ getF t CPY_STAT_BUSY = 0
    (s.copier = none → val.getLsbD 1 = false →
      (copyError s wanted = 0 → Answers (.copyGo src val) s fun t => t.copier = some wanted ∧ getF t CPY_STAT_BUSY = 1 ∧
        getF t CPY_STAT_ERR = 0 ∧ getF t CPY_STAT_ROWSDONE = 0) ∧
      (copyError s wanted ≠ 0 → Answers (.copyGo src val) s fun t => failed t (copyError s wanted))) ∧
    (s.copier = none → Answers (.copyAbort src val) s fun t => t.copier = none ∧ regWord t CPY_STAT = regWord s CPY_STAT) ∧
    (s.copier = some o →
      (val.getLsbD 1 = false → val.getLsbD 31 = false → Answers (.copyGo src val) s fun t => t.copier = some o ∧
        getF t CPY_CNT_BUSYWR = min 255 (getF s CPY_CNT_BUSYWR + 1) ∧ regWord t CPY_STAT = regWord s CPY_STAT) ∧
      (let last := o.segments ≤ o.g ∧ o.h ≤ o.k + 1
       (last → Answers (.copyAbort src val) s fun t => t.copier = some o ∧ regWord t CPY_STAT = regWord s CPY_STAT) ∧
       (¬ last → rowReleased s o = true → Answers (.copyAbort src val) s fun t => t.copier = some { o with abort := true }) ∧
       (¬ last → rowReleased s o = false → Answers (.copyAbort src val) s fun t => failed t 7)) ∧
      (o.pace = false → exec .copyRowRelease s = .next s) ∧
      (o.pace = true → Answers .copyRowRelease s fun t =>
        t.copier = some { o with released := true } ∧ bitsOf (copyStatWord t) 30 30 = 0) ∧
      (let lo := o.segment.1
       let len := o.segment.2 * o.bytes
       let from_ := o.addr false o.row lo
       let dest := o.addr true o.row lo
       rowReleased s o = true → o.g < o.segments → sorterFull s dest len = false →
        (o.op ≠ 2 → egressBase s = 0 → dest + len ≤ 0xF8000000 → (∀ u ∈ unitsOf dest len, unitState s u = .good) →
          (o.reads = true → ∀ u ∈ unitsOf from_ len, unitState s u = .good) → Answers .copySegment s fun t =>
            (∀ i < o.segment.2, dramBytes t (dest + i * o.bytes) o.bytes =
              if o.reads then dramBytes s (from_ + i * o.bytes) o.bytes else leBytes o.bytes o.fill) ∧
            (∀ b, b < dest ∨ dest + len ≤ b → dramByte t b = dramByte s b) ∧
            if o.abort ∧ o.g + 1 ≠ o.segments then failed t 7
            else t.copier = some { o with released := true, g := o.g + 1 }) ∧
        (o.reads = true → (unitsOf from_ len).any (unitBad s) = true → Answers .copySegment s fun t => failed t 6)) ∧
      (o.segments ≤ o.g → Answers .copyRowDone s fun t => getF t CPY_STAT_ROWSDONE = (o.k + 1) % 32768 ∧
        if o.abort then failed t 7
        else if o.k + 1 = o.h then
          t.copier = none ∧ getF t CPY_STAT_BUSY = 0 ∧ getF t CPY_STAT_DONEEV = 1 ∧
          getF t CPY_CNT_OPS = (getF s CPY_CNT_OPS + 1) % 65536
        else t.copier = some { o with k := o.k + 1, g := 0, released := false }))

/-- The control of the cores, the interrupt controller and the timers (R306, R329, R330, R357, R358, R362, R364 to R367, R372). A
core that is reset stands at its START address out of lockup; RUN follows the write, and HALTED once the core is at a
boundary. An edge on a source without coalescing makes it pending, or merges; with coalescing it is held until its count or
its time; a forced bit is an edge; an enabled wake latch catches an edge while the clocks stand. A timer starts with its
period as EN rises, and as it expires gives an edge and a credit to the channels that pace on it. -/
def Obligations.CoresInterruptsTimers : Prop :=
  ∀ (s : State) (src : Src) (val : Word) (core : Fin 4) (run : Bool) (n : BitVec 8) (word : Fin 8) (w : Fin 32),
    houseOn s = true →
    let k := n.toNat
    let coalesced := 1 < coalesceCount s k ∨ getF s (HIC_SRCCFG_CTIME k) ≠ 0
    let count := heldEdges s k + 1
    (Answers (.coreReset src core val) s fun t =>
      coreOf t core = Core.reset (BitVec.ofNat 24 (getF s (HS_CORESTART_START core))) ∧ coreLocked t core = false ∧
      getF t HS_CORECTL_RUN = bitsOf val 3 0 ∧
      ∀ m : Fin 4, m ≠ core → val.getLsbD (8 + m) = false → coreOf t m = coreOf s m ∧ coreLocked t m = coreLocked s m) ∧
    (Answers (.coreRun src core run val) s fun t => coreRun t core = run ∧
      (∀ m : Fin 4, m ≠ core → coreRun t m = val.getLsbD m) ∧
      (run = true → coresClocked s = true → (coreOf s core).benchHalt = false → (coreStatWord t).getLsbD (4 + core) = false) ∧
      (run = false → (coreOf s core).stalled = none → (coreOf s core).syncing = false → coreStalled t core = false →
        (coreStatWord t).getLsbD (4 + core) = true)) ∧
    (k ∉ s.hic.edges → exec (.hicSourceEdge n) s = .next s) ∧
    (k ∈ s.hic.edges → sourcePresent s k = true →
      (¬ coalesced → isPending s k = false → Answers (.hicSourceEdge n) s fun t =>
        isPending t k = true ∧ t.hic.edges = s.hic.edges.erase k ∧ regWord t HIC_STAT = regWord s HIC_STAT) ∧
      (¬ coalesced → isPending s k = true → Answers (.hicSourceEdge n) s fun t =>
        isPending t k = true ∧ t.hic.edges = s.hic.edges.erase k ∧ getF t HIC_STAT_LASTMERGE = k ∧
        getF t HIC_STAT_MERGED = min 0xFFFF (getF s HIC_STAT_MERGED + 1)) ∧
      (coalesced → count < coalesceCount s k → getF s (HIC_SRCCFG_CUNIT k) = 0 ∨ getF s (HIC_SRCCFG_CTIME k) = 0 →
        Answers (.hicSourceEdge n) s fun t => heldEdges t k = count ∧ isPending t k = isPending s k) ∧
      (coalesced → coalesceCount s k ≤ count → Answers (.hicSourceEdge n) s fun t =>
        heldEdges t k = 0 ∧ isPending t k = true)) ∧
    (getF s (HIC_SRCCFG_CTIME k) ≠ 0 ∧ heldEdges s k ≠ 0 → Answers (.coalesceTimeout n) s fun t =>
      heldEdges t k = 0 ∧ isPending t k = true) ∧
    (getF s (HIC_SRCCFG_CTIME k) = 0 ∨ heldEdges s k = 0 → exec (.coalesceTimeout n) s = .next s) ∧
    (Answers (.hicForce src word val) s fun t => t.hic.edges =
      s.hic.edges ++ ((List.range 32).filter fun b => val.getLsbD b).map fun b => 32 * word.val + b) ∧
    (∀ (z : State) (rising : Bool),
      let caught := z.power.island && z.hic.clocksStopped && wakeDefined z w rising
      (caught = true → Answers (.wakeLatch ⟨w, rising⟩) z fun t => ∀ i, bitAt (getF t HIC_WAKELAT_LAT) i =
        (bitAt (getF z HIC_WAKELAT_LAT) i || (decide (i = w.val) && bitAt (getF z HIC_WAKEEN_EN) i))) ∧
      (caught = false → exec (.wakeLatch ⟨w, rising⟩) z = .next z)) ∧
    ∀ i : Fin 8,
      (Answers (.timerEnable src i val) s fun t => getF t (HS_TMRCTL_EN i) = 1 ∧
        getF t (HS_TMRCTL_ONESHOT i) = bitsOf val 1 1 ∧
        t.timers[i] = if flag s (HS_TMRCTL_EN i) then s.timers[i] else getF s (HS_TMRPER_PER i)) ∧
      (flag s (HS_TMRCTL_EN i) = false → exec (.timerExpiry i) s = .next s) ∧
      (flag s (HS_TMRCTL_EN i) = true → Answers (.timerExpiry i) s fun t => t.hic.edges = s.hic.edges ++ [32 + i.val] ∧
        (if flag s (HS_TMRCTL_ONESHOT i) then getF t (HS_TMRCTL_EN i) = 0 ∧ t.timers[i] = 0
         else getF t (HS_TMRCTL_EN i) = 1 ∧ t.timers[i] = getF s (HS_TMRPER_PER i)) ∧
        let ch := dmaCh s w
        ch.phase = .moving → ch.field 0 11 9 = 1 → ch.field 0 14 12 = i.val →
          if ch.credits < 255 then dmaCh t w = { ch with credits := ch.credits + 1 }
          else dmaCh t w = ch ∧ getF t (DMA_CHSTAT_LOSTTRIG w) = min 255 (getF s (DMA_CHSTAT_LOSTTRIG w) + 1))

/-- The DMA engine and the house die's memory block (R369 to R377, R386, R388, R391, R392). START reads and checks the
descriptor: the channel moves, or halts with cause 1 where a field is refused; a busy channel counts it. A burst of house
SRAM moves its elements in order; after the last one, with its writes applied, the channel finishes or halts. ABORT halts it
with cause 7, once nothing of it is on its way. The patrols correct what they read and go on; the initialiser writes the
words of its pages that it has not reached as UNSET and marks each page that it ends; the map takes bits and gives none up. -/
def Obligations.DmaAndMemory : Prop :=
  ∀ (s : State) (src : Src) (n : Fin 32) (val : Word) (ws : List Word) (i : Fin 16) (place : Nat), houseOn s = true →
    let c := dmaCh s n
    let cur := getF s (DMA_CHDESC_ADDR n)
    let loaded : DmaCh := { c with phase := .moving, desc := ws, inDram := false, moved := 0, applied := 0, credits := 0,
                                   bursts := 0, f0 := s.beam.frame, asked := 0, released := 0, stops := s.beam.stops }
    let halted (t : State) (cause : Nat) : Prop := (dmaCh t n).phase = .idle ∧ getF t (DMA_CHSTAT_CAUSE n) = cause ∧
      getF t (DMA_CHSTAT_HALTEV n) = 1 ∧ getF t (DMA_CHSTAT_BUSY n) = 0
    let u := (List.range 32).foldl dmaSettle s
    let b := dmaCh u n
    let k := min (b.field 3 31 24 + 1) (b.count - b.moved)
    let at_ (dst : Bool) (j : Nat) := b.element dst (b.moved + j)
    (c.phase = .idle → dmaHeldByAudio s n = false → val.getLsbD 8 = false → cur % 8 = 0 → cur < 0x80000 → ws.length = 8 →
      (∀ j < 8, ∃ w, sramLoad s 0 (cur + j) = (s, some w) ∧ payload w = ws.getD j 0 ∧ 1 ≤ (tagOf w).toNat ∧
        (tagOf w).toNat ≤ 7) →
      (loaded.refused n = none → loaded.endBad false = none → loaded.endBad true = none →
        (loaded.field 0 11 9 = 2 → beamRuns s = true) → Answers (.dmaStart src n val) s fun t => dmaCh t n = loaded ∧
          getF t (DMA_CHSTAT_BUSY n) = 1 ∧ getF t (DMA_CHSTAT_CAUSE n) = 0 ∧ getF t (DMA_CHSTAT_DONES n) = 0 ∧
          getF t (DMA_CHCUR_ADDR n) = cur) ∧
      (loaded.refused n ≠ none → dmaQuiet s n = true → Answers (.dmaStart src n val) s fun t => halted t 1)) ∧
    (c.phase ≠ .idle → val.getLsbD 1 = false → Answers (.dmaStart src n val) s fun t => dmaCh t n = c ∧
      getF t HS_RSVWR_COUNT = min 0xFFFFFF (getF s HS_RSVWR_COUNT + 1)) ∧
    (dmaEngaged u = true ∨ dmaChoice u = none → exec .dmaBurst s = .next u) ∧
    (dmaEngaged u = false → dmaChoice u = some n.val → b.field 0 1 0 = 0 → b.field 0 3 2 = 0 →
      (∀ j < k, at_ false j < 0x80000 ∧ at_ true j < 0x80000 ∧ pageMarked u (at_ false j / 1024) = true ∧
        ∃ w, sramCell u 0 (at_ false j) = .good w ∧ (b.field 0 8 8 = 1 ∨ (1 ≤ (tagOf w).toNat ∧ (tagOf w).toNat ≤ 7))) →
      Answers .dmaBurst s fun t =>
        t.dmaLast.toList.getD (getF u (DMA_CHCTL_PRIO n)) 31 = n.val ∧ (dmaCh t n).moved = b.moved + k ∧
        (dmaCh t n).applied = b.applied + k ∧ (dmaCh t n).bursts = b.bursts + 1 ∧
        (dmaCh t n).phase = (if b.count ≤ b.moved + k then .applying else .moving) ∧
        ((∀ x y, x < k → y < k → at_ false x ≠ at_ true y) → (∀ x y, x < y → y < k → at_ true x ≠ at_ true y) →
          ∀ j < k, ∀ w, sramCell u 0 (at_ false j) = .good w → sramCell t 0 (at_ true j) =
            .good (if b.field 0 8 8 = 1 then w else intWord (swapWord (b.field 0 7 6) (payload w))))) ∧
    (c.phase = .applying → dmaQuiet s n = true → c.applied < c.count → Answers (.dmaComplete n) s fun t => halted t 6) ∧
    (c.phase = .written ∨ (c.phase = .applying ∧ dmaQuiet s n = true ∧ c.count ≤ c.applied ∧ c.wb = false) →
      c.field 0 23 23 = 1 → Answers (.dmaComplete n) s fun t => (dmaCh t n).phase = .idle ∧
        getF t (DMA_CHSTAT_BUSY n) = 0 ∧ getF t (DMA_CHSTAT_DONES n) = (getF s (DMA_CHSTAT_DONES n) + 1) % 65536 ∧
        t.hic.edges = s.hic.edges ++ if c.field 0 20 20 = 1 then [n.val] else []) ∧
    (c.phase ≠ .idle → (∀ x y, c.phase ≠ .halting x y) →
      (dmaQuiet s n = true → c.asked = 0 → Answers (.dmaAbort src n val) s fun t => halted t 7) ∧
      (dmaQuiet s n = false ∨ c.asked ≠ 0 → bridgeDown s = false → Answers (.dmaAbort src n val) s fun t =>
        dmaCh t n = { c with phase := .halting 7 (getF s (DMA_CHCUR_ADDR n)) } ∧ getF t (DMA_CHSTAT_BUSY n) = getF s (DMA_CHSTAT_BUSY n))) ∧
    (getF s HS_MEMCTL_SCRUBEN = 0 → exec .houseScrubRead s = .next s) ∧
    (getF s HS_MEMCTL_SCRUBEN = 1 → Answers .houseScrubRead s fun t =>
      let p := patrolFrom s 512 s.mem.patrol
      t.mem.patrol = (if p + 1 < 589824 then p + 1 else 0) ∧
      (589824 ≤ p + 1 → getF t HS_MEMSTAT_PASSEV = 1) ∧
      ∀ w, p < 524288 → pageMarked s (p / 1024) = true → sramCell s 0 p = .single w → sramCell t 0 p = .good w ∧
        getF t HS_CECNT_CE = min 0xFFFF (getF s HS_CECNT_CE + 1)) ∧
    (scanOn s = true → getF s SC_ECCCTL_DSCRUBEN = 1 → scrubNext s s.dram.scrubUnit = some place →
      Answers .dramScrubRead s fun t => t.dram.scrubUnit = place + 1 ∧
        (unitState s (place % 2 ^ 32) = .single → unitState t (place % 2 ^ 32) = .good ∧
          getF t SC_ECCCNT_CE = min 0xFFFF (getF s SC_ECCCNT_CE + 1))) ∧
    (Answers .mramScrubRead s fun t => t.mem.mramPatrol = (s.mem.mramPatrol + 1) % 262144 ∧
      (blockState s s.mem.mramPatrol = .corrected → blockState t s.mem.mramPatrol = .good)) ∧
    (getF s HS_MEMSTAT_INITBUSY = 0 → bitsOf val 8 0 ≤ bitsOf val 17 9 → Answers (.meminit src val) s fun t =>
      getF t HS_MEMSTAT_INITBUSY = 1 ∧ getF t HS_MEMINIT_FIRST = bitsOf val 8 0 ∧ getF t HS_MEMINIT_LAST = bitsOf val 17 9 ∧
      t.mem.initPages = (BitVec.ofNat 9 (bitsOf val 8 0), BitVec.ofNat 9 (bitsOf val 17 9)) ∧
      t.mem.initNext = 1024 * bitsOf val 8 0) ∧
    (getF s HS_MEMSTAT_INITBUSY = 1 ∨ bitsOf val 17 9 < bitsOf val 8 0 → Answers (.meminit src val) s fun t =>
      t.mem = s.mem ∧ regWord t HS_MEMINIT = regWord s HS_MEMINIT ∧
      getF t HS_RSVWR_COUNT = min 0xFFFFFF (getF s HS_RSVWR_COUNT + 1)) ∧
    (getF s HS_MEMSTAT_INITBUSY = 1 → Answers .meminitDone s fun t => getF t HS_MEMSTAT_INITBUSY = 0 ∧
      ∀ x, if s.mem.initNext ≤ x ∧ x / 1024 ≤ s.mem.initPages.2.toNat
        then sramCell t 0 x = .good 0 ∧ pageMarked t (x / 1024) = true
        else sramCell t 0 x = sramCell s 0 x) ∧
    (Answers (.wmapSet src i val) s fun t => regWord t (HS_WMAP i) = regWord s (HS_WMAP i) ||| val ∧
      ∀ a, a ≠ HS_WMAP i → regWord t a = regWord s a)

/-- Weave links (R401 to R406, R409 to R412, R416 to R419, R434, R437). A port trains from DOWN on a signal, comes to HELLO, and
to UP or FENCED by what the hello says; four missed hellos take it DOWN. An expected frame is accepted; a bad CRC is counted
and NAKed, another number NAKed; a NAK resends from its number. A fault that holds, or the command, retrains an UP link. A
packet is delivered here, forwarded or discarded with its count; a link that stays down for LINKHOLD gives its packets back,
and multicast copies are dropped. -/
def Obligations.Links : Prop :=
  ∀ (s : State) (port : Fin 7) (src : Src) (val delay : Word) (ok : Bool) (h : Hello) (seq ack : BitVec 12) (credits : Word) (pkt : Packet)
    (i : Item) (rest : List Item) (cause : PortFault) (load : BitVec 7) (q : Nat), houseOn s = true → portPresent s.variant port = true →
    let p := port.val
    let x := portOf s p
    let live := portState s p = ptHello ∨ portState s p = ptUp ∨ portState s p = ptFenced
    let retrained (t : State) : Prop := portState t p = ptRetrain ∧ getF t (WV_PORTSTAT_DLYV p) = 0 ∧
      getF t (WV_PORTERR_RETRAINS p) = min 255 (getF s (WV_PORTERR_RETRAINS p) + 1)
    let items := x.replay.map (·.item) ++ x.queue
    (portState s p = ptDown → flag s (WV_PORTCFG_EN p) = true → Answers (.linkSignalDetect port) s fun t =>
      portState t p = ptTraining ∧ (portOf t p).nextSeq = 0 ∧ (portOf t p).expect = 0 ∧ (portOf t p).replay = [] ∧
      (portOf t p).queue = items ∧ (portOf t p).used = Vector.replicate 4 0) ∧
    (portState s p = ptTraining → Answers (.linkTrainingDone port true) s fun t =>
      portState t p = ptHello ∧ getF t (WV_PORTSTAT_LANES p) = portLanes x p ∧ (portOf t p).failures = 0) ∧
    (portState s p = ptTraining → Answers (.linkTrainingDone port false) s fun t => portState t p = ptDown ∧
      (portOf t p).failures = x.failures + 1 ∧ (portOf t p).oneLane =
        (x.oneLane || (p != 6 && decide (1 ≤ x.failures) && flag s (WV_PORTCFG_ALLOW1 p)))) ∧
    (x.failures = 0 → exec (.linkTrainingRetry port) s = .next s) ∧
    (x.failures ≠ 0 → portState s p = ptDown → flag s (WV_PORTCFG_EN p) = true → Answers (.linkTrainingRetry port) s fun t =>
      portState t p = ptTraining) ∧
    (portState s p = ptUp → Answers (.linkDelayMeasured port delay) s fun t =>
      getF t (WV_PORTDLY_DELAY p) = delay.toNat % 2 ^ 24 ∧ getF t (WV_PORTSTAT_DLYV p) = 1) ∧
    (live → exec (.helloSend port) s = .next { s with sent := s.sent ++ [.hello p (ownHello s p Config.serialNumber)] }) ∧
    (live → helloFence s p h = 0 → Answers (.helloReceive port h) s fun t => portState t p = ptUp ∧
      getF t (WV_PORTSTAT_FENCE p) = 0 ∧ (portOf t p).hello = some h ∧ getF t (WV_PORTSTAT_NDIST p) = h.dist.toNat) ∧
    (live → helloFence s p h ≠ 0 → Answers (.helloReceive port h) s fun t => portState t p = ptFenced ∧
      getF t (WV_PORTSTAT_FENCE p) = helloFence s p h ∧ (portState s p ≠ ptFenced → getF t (WV_PORTSTAT_FENCEEV p) = 1)) ∧
    (live → Answers (.helloTimeout port) s fun t => portState t p = ptDown ∧ getF t (WV_PORTSTAT_LANES p) = 0 ∧
      getF t (WV_PORTSTAT_DLYV p) = 0 ∧ (portOf t p).hello = none ∧
      (portState s p = ptUp → getF t (WV_PORTSTAT_DOWNEV p) = 1)) ∧
    (portState s p = ptUp →
      (Answers (.linkFrameReceive port x.expect ⟨ack, credits⟩ true pkt) s fun t => (portOf t p).expect = x.expect + 1 ∧
        (portOf t p).arrived = x.arrived ++ [itemNow s pkt] ∧ (portOf t p).nakRun = 0) ∧
      (seq ≠ x.expect → Answers (.linkFrameReceive port seq ⟨ack, credits⟩ true pkt) s fun t => (portOf t p).expect = x.expect ∧
        (portOf t p).arrived = x.arrived ∧ t.sent = s.sent ++ [.nak p x.expect]) ∧
      (Answers (.linkFrameReceive port seq ⟨ack, credits⟩ false pkt) s fun t => (portOf t p).expect = x.expect ∧
        (portOf t p).arrived = x.arrived ∧ t.sent = s.sent ++ [.nak p x.expect] ∧
        getF t (WV_PORTERR_CRCERR p) = min 0xFFF (getF s (WV_PORTERR_CRCERR p) + 1)) ∧
      ((x.replay.any fun f => f.seq = seq) = true → Answers (.linkNakReceive port seq) s fun t =>
        getF t (WV_PORTERR_REPLAYS p) = min 0xFFF (getF s (WV_PORTERR_REPLAYS p) + 1) ∧
        (portOf t p).replay = x.replay ∧ (portOf t p).queue = x.queue ∧
        t.sent = s.sent ++ (x.replay.dropWhile fun f => f.seq != seq).map fun f => .frame p f.seq x.expect f.credits f.item.onWire) ∧
      (portFaultHolds s p cause = true → Answers (.portRetrain port cause) s retrained) ∧
      (portFaultHolds s p cause = false → exec (.portRetrain port cause) s = .next s) ∧
      (val.getLsbD 0 = true → Answers (.portRetrainCmd src port val) s retrained)) ∧
    (portState s p = ptRetrain → Answers (.portRetrainDone port ok) s fun t =>
      portState t p = if ok then ptHello else ptDown) ∧
    (x.arrived = i :: rest →
      let at_ : Packet := if p = 4 || p = 5 then stampRiser s p i.pkt else i.pkt
      let here : Item := { i with pkt := at_ }
      (headerRefused p i.pkt = true → Answers (.packetReceive port) s fun t => (portOf t p).arrived = rest ∧
        getF t WV_ENGCNT_BADHDR = min 255 (getF s WV_ENGCNT_BADHDR + 1) ∧ t.weave.inbox = s.weave.inbox ∧ t.sent = s.sent) ∧
      (headerRefused p i.pkt = false → i.pkt.hoplim = 0 → Answers (.packetReceive port) s fun t => (portOf t p).arrived = rest ∧
        getF t WV_FWDCNT_HOPX = min 255 (getF s WV_FWDCNT_HOPX + 1) ∧ t.weave.inbox = s.weave.inbox ∧ t.sent = s.sent) ∧
      (headerRefused p i.pkt = false → i.pkt.hoplim ≠ 0 → i.pkt.dkind = 0 →
        (ownMid s = some i.pkt.dest → Answers (.packetReceive port) s fun t => (portOf t p).arrived = rest ∧
          t.weave.inbox = s.weave.inbox ++ (if isBeacon i.pkt then [] else [(p, here)]) ∧
          t.weave.beacons = s.weave.beacons ++ if isBeacon i.pkt then [(p, here)] else []) ∧
        (ownMid s ≠ some i.pkt.dest → unicastPort s i.pkt.dest p = none → Answers (.packetReceive port) s fun t =>
          getF t WV_FWDCNT_NOROUTE = min 255 (getF s WV_FWDCNT_NOROUTE + 1) ∧ t.weave.inbox = s.weave.inbox ∧ t.sent = s.sent) ∧
        (ownMid s ≠ some i.pkt.dest → unicastPort s i.pkt.dest p = some q →
          let y := portOf s q
          y.queue = [] → y.room { pkt := at_, copy := false, arrival := p } = true →
          vcCount y.used i.pkt.vc.toNat ≤ Config.linkBuffers q i.pkt.vc.toNat →
          Answers (.packetReceive port) s fun t => t.weave.inbox = s.weave.inbox ∧ t.sent = s.sent ++
            [.frame q y.nextSeq y.expect y.creditWord { at_ with hoplim := i.pkt.hoplim - 1 }]))) ∧
    (portState s p = ptUp → exec (.linkholdExpiry port) s = .next s) ∧
    (portState s p ≠ ptUp → (∀ i ∈ items, i.copy = true) → Answers (.linkholdExpiry port) s fun t =>
      (portOf t p).replay = [] ∧ (portOf t p).queue = [] ∧
      getF t WV_FWDCNT_MCDROP = min 255 (getF s WV_FWDCNT_MCDROP + items.length)) ∧
    (Answers (.vidloadMeasure port load) s fun t => getF t (WV_PORTSTAT_VIDLOAD p) = load.toNat ∧
      getF t (WV_PORTSTAT_VIDOVEV p) = if 80 < load.toNat then 1 else getF s (WV_PORTSTAT_VIDOVEV p))

/-- Positions, geometry, routes and drawers (R411, R413 to R415, R417, R420, R423 to R433, R436, R438). A position is taken, or
conflicts with the one held. Geometry entries are noted for their epoch; an activation reads them back through the bridge,
and once all have come gives the module its MID and area or is refused. A route entry is replaced whole. An item that its
queue does not accept is counted; an accepted one is delivered in SEQ order, held, or counted as a copy; a gap that times out
is lost. A descriptor sets its queue up or leaves it disabled, when its read is answered (log entry 58); HEAD and TAIL follow
their writes; an OUT slot is sent, one of a DRAM ring after its reads, and passed once its packet waits in no output queue
(log entry 111); a complete slice is decoded or counted, or waits for the sorter. -/
def Obligations.RoutesAndDrawers : Prop :=
  ∀ (s s₁ s₂ : State) (src : Src) (val : Word) (p : Packet) (ps : List Packet) (a : Activation) (e : GeoEntry) (q : BitVec 14)
    (at' arrival : Nat) (i : Item) (bs : List Byte) (failed : Bool) (cs : List Chunk) (f : Fld) (r : OutRead), houseOn s = true →
    let d := drawerOf s q
    let same := flag s WV_POS_POSV = false ∨ (bitsOf val 13 0 = getF s WV_POS_COL ∧ bitsOf val 29 16 = getF s WV_POS_ROW ∧
      val.getLsbD 30 = flag s WV_POS_SIDE)
    let first := leAt p.payload 4 2
    let epoch := leAt p.payload 0 4
    let outOfReach := !bridgeUp s || dramTop < getF s WV_GEOBASE_BASE * 524288
    let refused (t : State) : Prop := t.weave.activating = none ∧ t.weave.table = s.weave.table ∧
      t.area = s.area ∧ regWord t WV_GEPOCH = regWord s WV_GEPOCH ∧ getF t WV_STAT_GEOREFEV = 1
    let endsWith (a : Activation) : Prop :=
      (acceptedEntry s a a.entries = none → Answers .geometryActivationDone s refused) ∧
      (acceptedEntry s a a.entries = some e → Answers .geometryActivationDone s fun t => t.weave.activating = none ∧
        t.weave.table = some (inactiveTable s) ∧ t.area = some e.area ∧ regWord t WV_GEPOCH = a.epoch ∧
        getF t WV_ID_MID = e.1 % 16384 ∧ getF t WV_ID_MIDV = 1 ∧ getF t WV_STAT_GEOEV = 1)
    let head : BitVec 16 := BitVec.ofNat 16 ((d.head.toNat + 1) % max 1 d.slots.toNat)
    (same → Answers (.positionWrite (.register src) val) s fun t => getF t WV_POS_POSV = 1 ∧
      getF t WV_POS_COL = bitsOf val 13 0 ∧ getF t WV_POS_ROW = bitsOf val 29 16 ∧ flag t WV_POS_SIDE = val.getLsbD 30 ∧
      getF t WV_STAT_POSEV = 1) ∧
    (¬ same → Answers (.positionWrite (.register src) val) s fun t =>
      regWord t WV_POS = regWord s WV_POS ∧ getF t WV_STAT_CONFEV = 1) ∧
    (s.weave.geoWaiting = p :: ps → s.weave.activating = none → isActivation p = false →
      (16 + 16 * geoCount p ≤ p.payload.length → geoCount p ≤ 127 → Answers .geometryItem s fun t => t.weave.geoWaiting = ps ∧
        ∀ i < geoCount p, first + i < 16384 → first + i ∈ sget t.weave.loading [] (leAt p.payload 0 4)) ∧
      (p.payload.length < 16 + 16 * geoCount p ∨ 127 < geoCount p → Answers .geometryItem s fun t =>
        t.weave.geoWaiting = ps ∧ t.weave.loading = s.weave.loading ∧
        getF t WV_ENGCNT_BADQ = min 255 (getF s WV_ENGCNT_BADQ + 1))) ∧
    (s.weave.geoWaiting = p :: ps → s.weave.activating = none → isActivation p = true →
      Answers .geometryActivate s fun t => t.weave.geoWaiting = ps ∧ t.weave.activating =
        some { epoch := BitVec.ofNat 32 epoch, total := leAt p.payload 8 2, anchors := namedAnchors p, failed := outOfReach,
               reading := if outOfReach then [] else sget s.weave.loading [] epoch, entries := [] }) ∧
    (s.weave.activating = some a →
      (a.failed = true ∨ bridgeUp s = false → Answers .geometryActivationDone s refused) ∧
      (a.failed = false → bridgeUp s = true → (a.reading = [] → endsWith a) ∧ ∀ mid mids, a.reading = mid :: mids →
        let answer := takeAnswer s (.scene 3) (.dram (entryAddr s mid))
        (answer = none → exec .geometryActivationDone s = .next s) ∧
        (mids = [] → answer = some (s₁, bs, failed) → endsWith { a with
          reading := [], failed := failed, entries := a.entries ++ [(mid, (List.range 4).map fun i => leAt bs (4 * i) 4)] }))) ∧
    (takeQueue s 4 = some (s₁, i) → windowItem s₁ 4 i = (s₂, [p]) → p.payload.length = 4 →
      natBits (leAt p.payload 0 4) 15 14 = 0 → Answers .routePlanItem s fun t =>
        sget t.weave.routes 0 (natBits (leAt p.payload 0 4) 13 0) = BitVec.ofNat 16 (natBits (leAt p.payload 0 4) 31 16)) ∧
    (Answers (.routeEntryWrite src val) s fun t => sget t.weave.routes 0 (getF s WV_RTSEL_MID) = val.setWidth 16 ∧
      ∀ m, m ≠ getF s WV_RTSEL_MID → sget t.weave.routes 0 m = sget s.weave.routes 0 m) ∧
    (let s₀ := s
     let s := settleEnables s s.weave.enabling.length
     let d := drawerOf s q
     takeInbox s (fun x => (32 ≤ x.2.pkt.qid.toNat || videoless s x.2.pkt || !itemAccepted s x.1 x.2.pkt) && !itemStalls s x.2.pkt) =
       some (s₁, arrival, i) → i.pkt.qid = q →
      (videoless s i.pkt = true → Answers .drawerItem s₀ fun t =>
        getF t WV_ENGCNT_VIDDROP = min 255 (getF s WV_ENGCNT_VIDDROP + 1) ∧ t.weave.drawers = s.weave.drawers) ∧
      (videoless s i.pkt = false → itemAccepted s arrival i.pkt = false → Answers .drawerItem s₀ fun t =>
        getF t WV_ENGCNT_BADQ = min 255 (getF s WV_ENGCNT_BADQ + 1) ∧ t.weave.drawers = s.weave.drawers) ∧
      (videoless s i.pkt = false → itemAccepted s arrival i.pkt = true → d.noSpace = false →
        let dist := (i.pkt.seq - d.next).toNat
        let isHeld := d.held.any fun x => x.pkt.seq = i.pkt.seq
        (dist = 0 → d.held = [] → d.notFound = [] → d.lossSlots = [] → Answers .drawerItem s₀ fun t =>
          (drawerOf t q).next = d.next + 1 ∧ (d.mode = drIn → (drawerOf t q).tail =
            BitVec.ofNat 16 ((d.tail.toNat + 1) % max 1 d.slots.toNat))) ∧
        (1 ≤ dist → dist ≤ 63 → isHeld = false → Answers .drawerItem s₀ fun t =>
          drawerOf t q = { d with held := d.held ++ [i] }) ∧
        (32768 ≤ dist ∨ (1 ≤ dist ∧ dist ≤ 63 ∧ isHeld = true) → Answers .drawerItem s₀ fun t =>
          drawerOf t q = { d with dup := min (d.dup + 1) 0xFFFF }))) ∧
    (d.enabled = true → d.held ≠ [] → d.gapTime ≠ 0 → d.asked = [] → d.notFound = [] → heldNext d = none →
      partnerMid s = none → Answers (.gapTimeout q) s fun t =>
        (drawerOf t q).lost = min 0xFFFF (d.lost + 1) ∧ getF t WV_STAT_LOSSEV = 1) ∧
    (d.enabled = false ∨ d.held = [] ∨ d.gapTime = 0 → exec (.gapTimeout q) s = .next s) ∧
    (selectedQid s = q → 32 ≤ q.toNat →
      (Answers (.drawerEnable src val) s fun t => t.weave.drawers = s.weave.drawers ∧
        t.weave.enabling = s.weave.enabling ++ [(q, getF s WV_DRDT_BASE * 4096 + 32 * q.toNat)]) ∧
      (Answers (.drawerDisable src val) s fun t => drawerOf t q = { d with enabled := false }) ∧
      (d.mode = drIn → d.slots ≠ 0 → bitsOf val 15 0 < d.slots.toNat → Answers (.drawerHeadWrite src val) s fun t =>
        (drawerOf t q).head = BitVec.ofNat 16 (bitsOf val 15 0)) ∧
      (d.mode = drOut → bitsOf val 31 16 < d.slots.toNat → Answers (.drawerHeadWrite src val) s fun t =>
        drawerOf t q = { d with tail := BitVec.ofNat 16 (bitsOf val 31 16) })) ∧
    (s.weave.enabling = [(q, at')] → takeAnswer s (.scene q) (.dram at') = some (s₁, bs, failed) → s.weave.inbox = [] →
      let w := (List.range 8).map fun i => BitVec.ofNat 32 (leAt bs (4 * i) 4)
      (failed = false → descriptorRefused w = false → Answers .drawerItem s fun t => t.weave.enabling = [] ∧
        drawerOf t q = drawerFrom w d.issued) ∧
      (failed = true ∨ descriptorRefused w = true → Answers .drawerItem s fun t => t.weave.enabling = [] ∧
        drawerOf t q = { d with enabled := false } ∧ getF t WV_ENGCNT_BADQ = min 255 (getF s WV_ENGCNT_BADQ + 1))) ∧
    (let idle := d.enabled = false ∨ d.mode ≠ drOut ∨ d.head = d.tail
     let off := if r.head.isNone then 0 else 16 + r.got.length
     let answer := takeAnswer s .video (.dram (d.base.toNat + d.head.toNat * d.slotBytes + off))
     let len := natBits (leAt bs 4 4) 11 0
     let gone (t : State) : Prop := ((drawerOf t q).head = head ∧ (drawerOf t q).sending = none) ∨
       ((drawerOf t q).head = d.head ∧ (drawerOf t q).sending ≠ none ∧ outWaits t q = true)
     (idle → exec (.outItemSend q) s = .next s) ∧
     (∀ x, ¬ idle → d.sending = some x → (outWaits s q = true → exec (.outItemSend q) s = .next s) ∧
       (outWaits s q = false → Answers (.outItemSend q) s fun t =>
         drawerOf t q = { d with head := head, sending := none, next := if x.lost then d.next else d.next + 1 })) ∧
     (¬ idle → d.sending = none → d.inDram = false → Answers (.outItemSend q) s fun t => gone t) ∧
     (¬ idle → d.sending = none → d.inDram = true →
       (s.weave.outRead = none → stalledAtBridge s .video = false → Answers (.outItemSend q) s fun t =>
         t.weave.outRead = some { qid := q, head := none, left := 0, got := [] } ∧ t.weave.drawers = s.weave.drawers) ∧
       (s.weave.outRead = some r → r.qid ≠ q ∨ answer = none → exec (.outItemSend q) s = .next s) ∧
       (s.weave.outRead = some r → r.qid = q → answer = some (s₁, bs, failed) →
         (r.head = none → failed = false → 1 ≤ len → len ≤ 2048 → Answers (.outItemSend q) s fun t =>
           t.weave.outRead = some { r with head := some bs, left := len } ∧ t.weave.drawers = s.weave.drawers) ∧
         (failed = true ∨ (r.head = none ∧ 2048 < len) →
           Answers (.outItemSend q) s fun t => t.weave.outRead = none ∧ (drawerOf t q).head = head) ∧
         (failed = false → (r.head = none ∧ len = 0) ∨ (r.head ≠ none ∧ r.left ≤ bs.length) →
           Answers (.outItemSend q) s fun t => t.weave.outRead = none ∧ gone t)))) ∧
    (scanOn s = true → d.enabled = true → d.mode = drVideo → bridgeUp s = true → sourceQuiet s .video = true →
      let r := gatherSlice s d [] (ringCount d)
      (r.2 = none ∨ (∃ c, r.2 = some cs ∧ sliceOf r.1 cs = .inl c ∧ sliceStalls r.1 c = true) →
        exec (.sliceDecode q) s = .next s) ∧
      (r.2 = some cs → (∀ c, sliceOf r.1 cs = .inl c → sliceStalls r.1 c = false) → Answers (.sliceDecode q) s fun t =>
        (drawerOf t q).head = BitVec.ofNat 16 ((d.head.toNat + cs.length) % d.slots.toNat) ∧
        (d.held = [] → sliceOf r.1 cs = .inr f → getF t f = min 255 (getF s f + 1)) ∧
        ∀ c, sliceOf r.1 cs = .inl c → t.dram.bytes = (writeSlice r.1 c).dram.bytes))

/-- The twin pair (R446 to R466). A supervised module sends numbered heartbeats by T and keeps the partner's; the fourth miss in
a row makes it SILENT, also after a cut of T (log entry 85). Line signatures that differ lengthen the run of frames and start
the self-check at MMFRAMES; both results, or the lack of one in time, give CHK. A bridge outage is reported, and with its
FATREL bit releases a twinned module's harness. TAKE and YIELD act where they are in order and set CMDREFEV otherwise. A
patch request for an item that the log does not hold is answered so; patched items enter their queue, and what is not
supplied in time is lost. -/
def Obligations.TwinPair : Prop :=
  ∀ (s s₁ : State) (p : Packet) (src : Src) (val : Word) (pass theirs : Bool) (q : BitVec 14) (k : Nat) (m : BitVec 14) (a : Signature),
    houseOn s = true →
    let d := drawerOf s q
    let beat : Beat :=
      { state := p.payload.getD 8 0, fault := p.payload.getD 9 0, check := p.payload.getD 10 0,
        epochs := #v[BitVec.ofNat 32 (leAt p.payload 12 4), BitVec.ofNat 32 (leAt p.payload 16 4),
          BitVec.ofNat 32 (leAt p.payload 20 4), BitVec.ofNat 32 (leAt p.payload 24 4)] }
    let signatures := (List.range (leAt p.payload 6 2)).map fun i =>
      ({ frame := BitVec.ofNat 16 (leAt p.payload 0 2), pass := BitVec.ofNat 2 (leAt p.payload 2 1),
         line := BitVec.ofNat 16 (leAt p.payload 4 2 + i), crc := BitVec.ofNat 32 (leAt p.payload (8 + 4 * i) 4), since := s.now } : Signature)
    let sends (u t : State) (qid : BitVec 14) (payload : List Byte) : Prop :=
      let x := portOf u 6
      partnerMid u = some m → x.queue = [] → (∀ i : Queued, i.pkt.payload = payload → x.room i = true) →
        vcCount x.used 2 ≤ Config.linkBuffers 6 2 →
        ∃ pkt, t.sent = u.sent ++ [.frame 6 x.nextSeq x.expect x.creditWord pkt] ∧ pkt.dest = m ∧ pkt.qid = qid ∧ pkt.vc = 2 ∧
          pkt.cls = 1 ∧ pkt.seq = sget u.twin.sent 0 qid.toNat ∧ pkt.payload = payload
    let yields (u t : State) : Prop := t.twin.rearm = true ∧
      if flag u SC_OWNSTAT_DRIVING && anyRunning u && beamRuns u then
        t.drive.releaseAtSlot = true ∧ t.drive.clearsClaim = true ∧ ownState t = ownState u
      else ownState t = ownReleased ∧ getF t SC_OWNSTAT_DRIVING = 0 ∧ getF t SC_OWNCTL_CLAIM = 0
    (supervised s = true → Answers .heartbeatSend s fun t => t.twin.hbSeq = s.twin.hbSeq + 1 ∧
      sends s t 16 (heartbeatBytes { s with twin := { s.twin with hbSeq := s.twin.hbSeq + 1 } })) ∧
    (supervised s = false → exec .heartbeatSend s = .next s) ∧
    (takeTwin s 16 = some (s₁, [p]) → supervised s₁ = true → Answers .heartbeatReceive s fun t =>
      t.twin.partner = some beat ∧ getF t WV_TWSTAT_SILENT = 0) ∧
    (listens s = true → silent s = false → Answers .heartbeatMiss s fun t => getF t WV_TWSTAT_SILENT = 1 ∧
      getF t WV_TWSTAT_SILENTEV = 1 ∧ getF t WV_TWCNT_HBMISS = min 255 (getF s WV_TWCNT_HBMISS + 1)) ∧
    (listens s = false ∨ silent s = true → exec .heartbeatMiss s = .next s) ∧
    (takeTwin s 17 = some (s₁, [p]) → comparesLines s₁ = true → 1 ≤ leAt p.payload 6 2 → leAt p.payload 6 2 ≤ 32 →
      ((∀ x ∈ s.twin.own, ∀ y ∈ s.twin.theirs ++ signatures, x.sameLine y = false) → Answers .lineSignatureReceive s fun t =>
        t.twin.theirs = s.twin.theirs ++ signatures ∧ t.twin.own = s.twin.own ∧ t.twin.run = s.twin.run) ∧
      (s.twin.own = [a] → s.twin.theirs = [] → signatures.length = 1 → a.sameLine (signatures.headD a) = true →
        a.crc ≠ (signatures.headD a).crc → s.twin.comparing = some (a.frame, false) → Answers .lineSignatureReceive s fun t =>
          t.twin.run = s.twin.run + 1 ∧ getF t WV_TWCNT_MMFR = min 255 (getF s WV_TWCNT_MMFR + 1) ∧
          t.twin.checking = (s.twin.checking ||
            (!s.twin.checkHeld && decide (max 1 (getF s WV_TWCTL_MMFRAMES) ≤ s.twin.run + 1))))) ∧
    (exec .signatureExpiry s = .next { s with twin := { s.twin with
      own := s.twin.own.filter fun g => !g.old s, theirs := s.twin.theirs.filter fun g => !g.old s } }) ∧
    (s.twin.checking = false → exec (.selfCheckDone pass) s = .next s) ∧
    (s.twin.checking = true →
      (s.twin.ownResult = none → s.twin.theirResult = none → Answers (.selfCheckDone pass) s fun t =>
        t.twin.ownResult = some pass ∧ t.twin.checking = true ∧ getF t WV_TWSTAT_CHKEV = 1 ∧
        sends s t 21 (leBytes 1 (if pass then 1 else 2))) ∧
      (s.twin.ownResult = none → s.twin.theirResult = some theirs → Answers (.selfCheckDone pass) s fun t =>
        t.twin.checking = false ∧ t.twin.run = 0 ∧ getF t WV_TWSTAT_CHKEV = 1 ∧ getF t WV_TWSTAT_CHK =
          if pass then (if theirs then 1 else 3) else if theirs then 2 else 4) ∧
      (takeTwin s 21 = some (s₁, [p]) → leAt p.payload 0 1 % 4 = (if theirs then 1 else 2) → s.twin.ownResult = none →
        Answers .selfCheckResult s fun t => t.twin.theirResult = some theirs ∧ t.twin.checking = true) ∧
      (s.twin.ownResult = some pass → s.twin.theirResult = none → Answers .selfCheckTimeout s fun t =>
        t.twin.checking = false ∧ t.twin.run = 0 ∧ getF t WV_TWSTAT_CHK = 5)) ∧
    (scanOn s = true → bridgeUp s = true → exec .bridgeOutageTimeout s = .next s) ∧
    (scanOn s = true → bridgeUp s = false → Answers .bridgeOutageTimeout s fun t =>
      bitAt (getF t SC_TWREL_FAULT) 2 = true ∧ (s.twin.latched = true → bitAt (getF s SC_TWREL_FATREL) 2 = true →
        if flag s SC_OWNSTAT_DRIVING && anyRunning s && beamRuns s then
          t.drive.releaseAtSlot = true ∧ t.drive.clearsClaim = true ∧ t.twin.failAtRelease = true
        else ownState t = ownReleased ∧ getF t SC_OWNCTL_CLAIM = 0 ∧ t.twin.failed = true)) ∧
    (hasTwin s.variant = true →
      (val.getLsbD 1 = false → takeAllowed s = true → Answers (.take (.register src) val) s fun t => sends s t 20 []) ∧
      (takeAllowed s = false → Answers (.take (.register src) val) s fun t => getF t WV_TWSTAT_CMDREFEV = 1) ∧
      (val.getLsbD 2 = false → yieldAllowed s = true → ownB s = false → Answers (.yield (.register src) val) s (yields s)) ∧
      (yieldAllowed s = false → Answers (.yield (.register src) val) s fun t => getF t WV_TWSTAT_CMDREFEV = 1)) ∧
    (takeTwin s 20 = some (s₁, [p]) → (twinRole s₁ ≠ 1 → exec .takeRequest s = .next s₁) ∧
      (yieldAllowed s₁ = true → ownB s₁ = false → Answers .takeRequest s (yields s₁))) ∧
    (takeTwin s 18 = some (s₁, [p]) → supervised s₁ = true → leAt p.payload 4 2 = 1 →
      let qid := BitVec.ofNat 14 (leAt p.payload 0 2)
      let seq := BitVec.ofNat 16 (leAt p.payload 2 2)
      s.twin.log.reverse.find? (fun x => x.qid = qid && x.seq = seq) = none → Answers .patchRequest s fun t =>
        sends s₁ t 19 (notFoundHead qid seq)) ∧
    (takeTwin s 19 = some (s₁, [p]) →
      (∀ h, s.twin.patchHead = some h → Answers .patchData s fun t => t.twin.patchHead = none ∧
        ((drawerOf s₁ h.qid).mode ≠ drScene → getF t WV_ENGCNT_BADQ = min 255 (getF s₁ WV_ENGCNT_BADQ + 1)) ∧
        ((drawerOf s₁ h.qid).mode = drScene → itemAccepted s₁ 6 { h with payload := p.payload } = true →
          (h.seq - (drawerOf s₁ h.qid).next).toNat < 32768 → ((drawerOf s₁ h.qid).held.any fun x => x.pkt.seq = h.seq) = false →
          getF t WV_TWCNT_PATCHED = min 255 (getF s₁ WV_TWCNT_PATCHED + 1))) ∧
      (s.twin.patchHead = none → (packetOf p.payload []).kind ≠ 5 → Answers .patchData s fun t =>
        t.twin.patchHead = some (packetOf p.payload []))) ∧
    (d.asked = [] → exec (.patchTimeout q) s = .next s) ∧
    (d.mode = drScene → d.held = [] → d.lossSlots = [] → 1 ≤ k → k ≤ 63 → d.asked = seqRun d.next k →
      Answers (.patchTimeout q) s fun t => (drawerOf t q).next = d.next + BitVec.ofNat 16 k ∧ (drawerOf t q).asked = [] ∧
        (drawerOf t q).lost = min 0xFFFF (d.lost + k) ∧ (drawerOf t q).damaged = true ∧
        getF t WV_TWCNT_PATCHMISS = min 255 (getF s WV_TWCNT_PATCHMISS + k))

/-- Audio (R468 to R479, R490 to R493). A D96 sample advances every playing voice by its STEP, loops it, or ends it with its bit
in AU_VEND; due events leave the queue at it, binding rows whose time has come apply, and muted outputs give 0. A D48 sample
reads one word of each ring, or underruns; a codec frame gives its pair and locks the converter. All stand still while the
unit is off or in HIBERNATE. A fetch of samples is a read through the bridge, kept when it is answered (log entry 88). Events
queue up to 512, and become due on their position, or late. Starting a voice puts it at 0; a ring's size write empties it. -/
def Obligations.Audio : Prop :=
  ∀ (s : State) (v : BitVec 8) (k : Word) (left right : BitVec 24) (near : Bool) (src : Src) (val : Word) (n : Fin 8)
    (u : State) (bs : List Byte) (failed : Bool),
    houseOn s = true →
    let i := v.toNat
    let len := getF s (AU_VLEN_LEN i)
    let p := (voiceOf s i).pos + getF s (AU_VSTEP_STEP i)
    let span := (len - getF s (AU_VLOOP_LOOPST i)) * 65536
    let a := (getF s (AU_VSTART_START i) / 2 * 2 + 2 * k.toNat) % 2 ^ 32
    let size := getF s (AU_STRS_SIZE n)
    let rp := getF s (AU_STRP_RP n)
    let pushed (t : State) (h : Nat) (x : Int) : Prop := audioHistory t h = (x :: audioHistory s h).take 64
    (audioRuns s = false → exec .audioSample s = .next s ∧ exec (.voiceFetch v k) s = .next s ∧ exec .d48Sample s = .next s ∧
      exec (.codecFrame left right near) s = .next s ∧ exec .audioEventDue s = .next s) ∧
    (audioRuns s = true →
      (Answers .audioSample s fun t => t.audio.phase = s.audio.phase + 1 ∧ t.audio.samples = s.audio.samples + 1 ∧
        t.audio.events = s.audio.events.drop s.audio.due ∧ t.audio.due = 0 ∧
        (getF s AU_CTL_D96SRC = 0 → t.audio.rows = s.audio.rows.filter fun r => !rowDue s r) ∧
        (∀ o : Fin 8, getF s (AU_OUT_MUTE o) = 1 → t.audio.out[o] = 0) ∧
        (s.audio.due = 0 → getF s (AU_VCTL_RUN i) = 0 → voiceOf t i = voiceOf (settleFetches s) i) ∧
        (s.audio.due = 0 → getF s (AU_VCTL_RUN i) = 1 →
          if p < len * 65536 then (voiceOf t i).pos = p ∧ getF t (AU_VCTL_RUN i) = 1
          else if getF s (AU_VCTL_LOOP i) = 1 ∧ getF s (AU_VLOOP_LOOPST i) < len then
            (voiceOf t i).pos = p - span * ((p - len * 65536) / span + 1) ∧ getF t (AU_VCTL_RUN i) = 1
          else (len ≠ 0 → (voiceOf t i).pos = p) ∧ getF t (AU_VCTL_RUN i) = 0 ∧ bitAt (getF t (AU_VEND_END (i / 32))) (i % 32) = true)) ∧
      (s.audio.asked = [] → bridgeDown s = true ∨ stalledAtBridge s audioSrc = true → exec (.voiceFetch v k) s = .next s) ∧
      (s.audio.asked = [] → bridgeDown s = false → stalledAtBridge s audioSrc = false → Answers (.voiceFetch v k) s fun t =>
        t.audio.asked = [(i, (sampleUnit s i k.toNat).1)] ∧ t.audio.voices = s.audio.voices) ∧
      (s.audio.asked = [(i, a / 64)] → takeAnswer s audioSrc (.dram (64 * (a / 64))) = some (u, bs, failed) →
        getF s (AU_VCTL_FMT i) = 0 → Answers (.voiceFetch v k) s fun t => (voiceOf t i).pos = (voiceOf s i).pos ∧
          sourceSample t i k.toNat = if failed then none else some (signedOf 16 (leAt bs (a % 64) 2))) ∧
      (Answers .d48Sample s fun t => t.audio.phase = 0 ∧
        (size = 0 → pushed t n 0) ∧
        (size ≠ 0 → rp = getF s (AU_STRW_WP n) → pushed t n 0 ∧ getF t AU_STAT_UNDEREV = 1 ∧ getF t (AU_STRP_RP n) = rp) ∧
        (size ≠ 0 → rp ≠ getF s (AU_STRW_WP n) → getF t (AU_STRP_RP n) = (rp + 1) % size ∧
          ∀ w, getF s (AU_STRB_BASE n) + rp < 0x80000 → pageMarked s ((getF s (AU_STRB_BASE n) + rp) / 1024) = true →
            sramCell s 0 (getF s (AU_STRB_BASE n) + rp) = .good w → tagOf w ≠ 0xF →
              pushed t n (signedOf 24 (payload w).toNat))) ∧
      (getF s AU_CTL_I2SEN = 1 → Answers (.codecFrame left right near) s fun t => pushed t 8 left.toInt ∧ pushed t 9 right.toInt ∧
        getF t AU_STAT_BRLOCK = if getF s AU_CTL_CODECM = 1 then getF s AU_STAT_BRLOCK else if near then 1 else 0) ∧
      (getF s AU_CTL_I2SEN = 0 → exec (.codecFrame left right near) s = .next s)) ∧
    (s.audio.events[s.audio.due]? = none → exec .audioEventDue s = .next s) ∧
    (∀ e, audioRuns s = true → s.audio.events[s.audio.due]? = some e →
      (7 ≤ e.op.toNat → Answers .audioEventDue s fun t => t.audio.events = s.audio.events.eraseIdx s.audio.due ∧
        t.audio.due = s.audio.due ∧ getF t AU_STAT_BADEVEV = 1 ∧ getF t AU_CNT_BADEV = min 255 (getF s AU_CNT_BADEV + 1)) ∧
      (e.op.toNat < 7 → beamRuns s = true →
        let ahead := (e.frame - s.beam.frame.setWidth 8).toInt
        (ahead < 0 → Answers .audioEventDue s fun t => t.audio.due = s.audio.due + 1 ∧ t.audio.events = s.audio.events ∧
          getF t AU_STAT_EVLATEEV = 1 ∧ getF t AU_CNT_EVLATE = min 255 (getF s AU_CNT_EVLATE + 1)) ∧
        (ahead = 0 → e.line.toNat < frameLines s → Answers .audioEventDue s fun t => t.audio.due = s.audio.due + 1 ∧
          t.audio.events = s.audio.events ∧ beamReached t s.beam.frame (e.line.toNat * 256 : Nat) = true) ∧
        (0 < ahead → exec .audioEventDue s = .next s))) ∧
    (hasAudio s.variant = true →
      (s.audio.events.length < 512 → Answers (.audioEventPush src val) s fun t => t.audio.events = s.audio.events ++
          [{ frame := BitVec.ofNat 8 (getF s AU_EVPOS_FRAME), line := BitVec.ofNat 17 (getF s AU_EVPOS_LINE),
             op := BitVec.ofNat 4 (bitsOf val 11 8), voice := BitVec.ofNat 8 (bitsOf val 7 0), value := regWord s AU_EVVAL }] ∧
        getF t AU_STAT_EVDEPTH = s.audio.events.length + 1) ∧
      (512 ≤ s.audio.events.length → Answers (.audioEventPush src val) s fun t => t.audio.events = s.audio.events ∧
        getF t AU_STAT_EVFULL = 1) ∧
      (Answers (.voiceStart src v val) s fun t => getF t (AU_VCTL_RUN i) = 1 ∧ (voiceOf t i).pos = 0 ∧
        getF t (AU_VCTL_BUS i) = bitsOf val 4 3 ∧ ∀ j, j ≠ i → voiceOf t j = voiceOf s j) ∧
      (Answers (.voiceStop src v val) s fun t => getF t (AU_VCTL_RUN i) = 0 ∧ getF t (AU_VCTL_LOOP i) = bitsOf val 1 1 ∧
        ∀ j, voiceOf t j = voiceOf s j) ∧
      (Answers (.streamSizeWrite src n val) s fun t => getF t (AU_STRS_SIZE n) = bitsOf val 15 0 ∧
        getF t (AU_STRP_RP n) = getF s (AU_STRW_WP n)))

/-- Dictionary requests and their transports (R499 to R503, R506, R507, R509 to R516). A request that comes as a command, to the
free dresser, is answered with its status, type and value and counted: refused, it has no other effect; DESCRIBE gives the
descriptor, a read of register fields their value, from the scan die through the bridge, and a write of one field sets it,
where it takes the value, and stores it. One for house firmware is placed in HS_ODFW and waits for HS_ODFWANS or its timeout;
while it waits, requests queue. HOUSE, service and fabric requests are answered in their own registers, frames and counts;
transfers, acknowledgements, aborts and timeouts act on the open transfer; bus errors move the error counts (PRESUMED from
ISO 11898-1, log entry 119). -/
def Obligations.DictionaryRequests : Prop :=
  ∀ (s : State) (cls : PortClass) (egr : Bool) (index : BitVec 16) (sub : Byte) (data : List Byte) (src : Src) (val : Word)
    (id : BitVec 29) (slot : Fin 4) (sealing : Bool), houseOn s = true →
    let i := index.toNat
    let j := sub.toNat
    let ask (cmd : Nat) (v : List Byte) := plainRequest cls egr cmd i j v
    let typ := answerType i j
    let frame (u t : State) (bytes : List Byte) : Prop :=
      t.sent = u.sent ++ [.service (0xD * 2 ^ 25 + 2 ^ 24 + serviceAddress u) bytes]
    let onBus := getF s HS_SVCCTL_EN = 1 ∧ getF s HS_SVCSTAT_BSTATE ≠ 2
    let running (r : ResultState) (t : State) : Prop := (if sealing then t.dresser.sealing else t.dresser.verifying) = r
    let result := if sealing then 0x8020 else 0x8300
    let plainHouseField (u : State) (e : Entry) (f : Fld) (r : RegSpec) (idx : List Nat) : Prop :=
      e.body = .fields [⟨f, 0⟩] ∧ isScanAddr f.addr = false ∧ regSpecAt f.addr = some (r, idx) ∧ r.hook = .none ∧
        r.copies = .one ∧ registerPresent u.variant r idx = true ∧ f.addr ≠ HS_ODCNT
    let takes (u : State) (f : Fld) (r : RegSpec) (n : Nat) (is : Bool) : Prop :=
      ∃ g ∈ r.fields, g.hi = f.hi ∧ g.lo = f.lo ∧ g.access = .rw ∧ allowed u.variant g.allow n = is
    let counted (u t : State) (refused : Nat) : Prop := getF t HS_ODCNT_SERVED = (getF u HS_ODCNT_SERVED + 1) % 65536 ∧
      getF t HS_ODCNT_REFUSED = min 65535 (getF u HS_ODCNT_REFUSED + refused)
    let reply (u t : State) (p : Packet) (status more total : Nat) (v : List Byte) : Prop :=
      ∀ port, p.sport = 0 → ownMid u ≠ some p.smid → unicastPort u p.smid 7 = some port →
        let x := portOf u port
        x.queue = [] → (∀ i : Queued, i.pkt.payload.length = 16 + v.length → x.room i = true) →
        vcCount x.used 2 ≤ Config.linkBuffers port 2 →
        ∃ pkt, t.sent = u.sent ++ [.frame port x.nextSeq x.expect x.creditWord pkt] ∧
          pkt.dest = p.smid ∧ pkt.qid.toNat = leAt p.payload 6 2 % 16384 ∧ pkt.kind = 4 ∧ pkt.ctx = p.ctx ∧
          pkt.seq = p.seq ∧ pkt.payload = [BitVec.ofNat 8 (leAt p.payload 0 1 + 0x80),
            BitVec.ofNat 8 (leAt p.payload 1 1 / 2 * 2 + more)] ++ leBytes 2 (leAt p.payload 2 2) ++
            [BitVec.ofNat 8 (leAt p.payload 4 1), BitVec.ofNat 8 (answerType (leAt p.payload 2 2) (leAt p.payload 4 1)), 0, 0] ++
            leBytes 4 status ++ leBytes 4 total ++ v
    (DresserFree s → isFirmwareIndex i = false →
      (checkRequest s (ask 1 []) ≠ stOk → Answers (.dictionaryRead cls egr index sub) s fun t =>
        OnlyReplies s t (checkRequest s (ask 1 [])) typ []) ∧
      (checkRequest s (ask 2 data) ≠ stOk → Answers (.dictionaryWrite cls egr index sub data) s fun t =>
        OnlyReplies s t (checkRequest s (ask 2 data)) typ []) ∧
      (checkRequest s (ask 3 []) ≠ stOk → Answers (.describe cls egr index sub) s fun t =>
        OnlyReplies s t (checkRequest s (ask 3 [])) typ []) ∧
      ∀ e, entryAt i j = some e →
        (checkRequest s (ask 3 []) = stOk → Answers (.describe cls egr index sub) s fun t =>
          OnlyReplies s t stOk typ (descriptor e)) ∧
        (∀ ps, e.body = .fields ps → checkRequest s (ask 1 []) = stOk → storePoisoned s e i j = false →
          (onScanDie e = false → Answers (.dictionaryRead cls egr index sub) s fun t =>
            OnlyReplies s t stOk typ (leBytes e.len (piecesValue s ps))) ∧
          (onScanDie e = true → bridgeDown s = false → Answers (.dictionaryRead cls egr index sub) s fun t =>
            t.dresser.reading = some (ask 1 []) ∧ t.dresser.queue = [] ∧ t.sent = s.sent)) ∧
        (checkRequest s (ask 2 data) = stOk → checkValue s e data ≠ stOk →
          Answers (.dictionaryWrite cls egr index sub data) s fun t => OnlyReplies s t (checkValue s e data) typ []) ∧
        (checkRequest s (ask 2 data) = stOk → checkValue s e data = stOk → e.persistent = true → Config.storeFails s.fresh = true →
          Answers (.dictionaryWrite cls egr index sub data) s fun t => Replies s t stStoreFailed typ [] ∧
            getF t HS_ODSTAT_STOREEV = 1 ∧ { t.dresser with stored := s.dresser.stored } = s.dresser ∧
            currentRecord t i j = currentRecord s i j) ∧
        ∀ f r idx, plainHouseField s e f r idx → Accepted s cls egr i j data →
          (takes s f r (leNat data) true → Answers (.dictionaryWrite cls egr index sub data) s fun t =>
            Replies s t stOk typ [] ∧ getF t f = leNat data ∧
            (inStore e = true → (currentRecord t i j).map (·.2.value) = some data)) ∧
          (takes s f r (leNat data) false → Answers (.dictionaryWrite cls egr index sub data) s fun t =>
            Replies s t stOk typ [] ∧ getF t f = getF s f ∧
            getF t HS_RSVWR_COUNT = min 0xFFFFFF (getF s HS_RSVWR_COUNT + 1))) ∧
    (∀ q e s₁ bs failed, s.dresser.reading = some q → s.dresser.queue = [] → s.dresser.firmware = none → q.route = .plain →
      entryAt q.index q.sub = some e → takeAnswer s .dresser (.entry q.index q.sub) = some (s₁, bs, failed) →
      Answers .firmwareAnswerTimeout s fun t => t.dresser.reading = none ∧
        if failed then Replies s t stStorePoisoned e.typ [] else Replies s t stOk e.typ bs) ∧
    (DresserFree s → isFirmwareIndex i = true → firmwareCheck s i = stOk → Answers (.dictionaryRead cls egr index sub) s fun t =>
      t.dresser.firmware = some (ask 1 []) ∧ t.sent = s.sent ∧ getF t HS_ODFW0_CMD = 1 ∧ getF t HS_ODFW0_INDEX = i ∧
      getF t HS_ODFW0_SUB = j ∧ getF t HS_ODFW1_VALID = 1 ∧ getF t HS_ODFW1_CLASS = classCode cls ∧
      getF t HS_ODFW1_EGR = b2n egr ∧ getF t HS_ODSTAT_FWEV = 1) ∧
    (s.dresser.firmware = none → exec (.firmwareAnswer src val) s = .next s ∧ exec .firmwareAnswerTimeout s = .next (pumpAll s)) ∧
    (∀ r, s.dresser.firmware = some r → s.dresser.reading = none →
      exec (.dictionaryRead cls egr index sub) s =
        .next { s with dresser := { s.dresser with queue := s.dresser.queue ++ [ask 1 []] } } ∧
      (s.dresser.queue = [] → r.route = .plain →
        (val ≠ 0 → Answers (.firmwareAnswer src val) s fun t => (∃ y, Replies s t val.toNat y []) ∧
          t.dresser.firmware = none ∧ getF t HS_ODFW1_VALID = 0) ∧
        (∀ w, val = 0 → r.cmd = 1 → 1 ≤ getF s HS_ODFW1_LEN → getF s HS_ODFW1_LEN ≤ 4 → 1 ≤ getF s HS_ODSTG_PAGES →
          pageMarked s (getF s HS_ODSTG_FIRST) = true → sramCell s 0 (1024 * getF s HS_ODSTG_FIRST) = .good w →
          Answers (.firmwareAnswer src val) s fun t => (∃ y, Replies s t stOk y
            ((leBytes 4 (payload w).toNat).take (getF s HS_ODFW1_LEN))) ∧ t.dresser.firmware = none) ∧
        Answers .firmwareAnswerTimeout s fun t => Replies s t stHouseUnavailable 0 [] ∧ t.dresser.firmware = none ∧
          getF t HS_ODFW1_VALID = 0)) ∧
    (let ix := getF s HS_ODREQ_INDEX
     let sb := getF s HS_ODREQ_SUB
     let base := getF s HS_ODBUF_BUF
     (getF s HS_ODSTAT_BUSY = 1 → Answers (.houseRequestGo src val) s fun t => t.dresser = s.dresser ∧ t.sent = s.sent ∧
        getF t HS_RSVWR_COUNT = min 0xFFFFFF (getF s HS_RSVWR_COUNT + 1)) ∧
     (getF s HS_ODSTAT_BUSY = 0 → DresserFree s → getF s HS_ODREQ_CMD = 3 → isFirmwareIndex ix = false →
        let c := checkRequest s (plainRequest .house false 3 ix sb [])
        (c ≠ stOk → Answers (.houseRequestGo src val) s fun t => getF t HS_ODRES_STATUS = c ∧ getF t HS_ODSTAT_BUSY = 0 ∧
          getF t HS_ODSTAT_DONEEV = 1 ∧ t.mem = s.mem) ∧
        ∀ e, c = stOk → entryAt ix sb = some e → 8 ≤ getF s HS_ODLEN_LEN → base + 1 < 0x80000 →
          Answers (.houseRequestGo src val) s fun t => getF t HS_ODRES_STATUS = stOk ∧ getF t HS_ODLEN_LEN = 8 ∧
            getF t HS_ODSTAT_BUSY = 0 ∧ getF t HS_ODSTAT_DONEEV = 1 ∧
            ∀ x < 2, sramCell t 0 (base + x) = .good (intWord (BitVec.ofNat 32 (leAt (descriptor e) (4 * x) 4))))) ∧
    (∀ v, running (.running v) s → Answers (.resultReady sealing) s (running (.ready v))) ∧
    ((∀ v, ¬ running (.running v) s) → exec (.resultReady sealing) s = .next s) ∧
    (DresserFree s → checkRequest s (plainRequest cls egr 1 result 2 []) = stOk →
      (∀ v, running (.ready v) s → Answers (.resultTake cls egr sealing) s fun t =>
        Replies s t stOk (answerType result 2) v ∧ running .empty t) ∧
      ((∀ v, ¬ running (.ready v) s) → Answers (.resultTake cls egr sealing) s fun t =>
        OnlyReplies s t stNotReady (answerType result 2) [])) ∧
    (frameForMe s id = false → exec (.serviceRequest id data) s = .next s ∧ exec (.segment id data) s = .next s ∧
      exec (.serviceAck id data) s = .next s ∧ exec (.serviceAbort id data) s = .next s) ∧
    (frameForMe s id = true → onBus →
      let tag : Byte := BitVec.ofNat 8 (leAt data 1 1)
      let cmd := leAt data 0 1
      let ix := leAt data 2 2
      let sb := leAt data 4 1
      let reply (t : State) (status : Nat) (v : List Byte) : Prop := frame s t ([BitVec.ofNat 8 (cmd + 0x80), tag] ++
        leBytes 2 ix ++ [BitVec.ofNat 8 sb, 0, BitVec.ofNat 8 v.length, BitVec.ofNat 8 (answerType ix sb)] ++ leBytes 4 status ++ v)
      (s.dresser.transfer ≠ none → 8 ≤ data.length → 1 ≤ cmd → cmd ≤ 3 → Answers (.serviceRequest id data) s fun t =>
        reply t stBusy [] ∧ t.dresser = s.dresser) ∧
      (s.dresser.transfer = none → DresserFree s → 8 ≤ data.length → isFirmwareIndex ix = false →
        let c := checkRequest s (plainRequest .service false cmd ix sb [])
        (cmd = 1 ∨ cmd = 3 → c ≠ stOk →
          Answers (.serviceRequest id data) s fun t => reply t c [] ∧ t.dresser = s.dresser) ∧
        ∀ e, cmd = 3 → c = stOk → entryAt ix sb = some e → Answers (.serviceRequest id data) s fun t =>
          reply t stOk (descriptor e) ∧ t.dresser = s.dresser) ∧
      ∀ x, s.dresser.transfer = some x → tag = x.tag →
        (cmd = 5 → x.write = true →
          (leAt data 2 2 ≠ x.next → Answers (.segment id data) s fun t => t.dresser = s.dresser ∧
            frame s t ([0x06, x.tag] ++ leBytes 2 x.next ++ leBytes 4 stOk)) ∧
          (leAt data 2 2 = x.next → 60 * (x.next + 1) < x.total → Answers (.segment id data) s fun t =>
            t.dresser.transfer = some { x with data := x.data ++ (data.drop 4).take 60, next := x.next + 1 } ∧
            if (x.next + 1) % 16 = 0 then frame s t ([0x06, x.tag] ++ leBytes 2 (x.next + 1) ++ leBytes 4 stOk)
            else t.sent = s.sent)) ∧
        (cmd = 6 → x.write = false →
          (x.sent < leAt data 2 2 → Answers (.serviceAck id data) s fun t => t.dresser.transfer = none ∧
            frame s t ([0x04, x.tag, 0, 0] ++ leBytes 4 stSequence)) ∧
          (leAt data 2 2 ≤ x.sent → leAt data 4 4 ≠ stOk ∨ leAt data 2 2 = (x.total + 59) / 60 →
            Answers (.serviceAck id data) s fun t => t.dresser.transfer = none ∧ t.sent = s.sent) ∧
          (leAt data 2 2 ≤ x.sent → leAt data 4 4 = stOk → leAt data 2 2 + 1 = (x.total + 59) / 60 →
            (x.data.drop (60 * leAt data 2 2)).length = 60 → Answers (.serviceAck id data) s fun t =>
              t.dresser.transfer = some { x with sent := leAt data 2 2 + 1 } ∧
              frame s t ([0x05, x.tag] ++ leBytes 2 (leAt data 2 2) ++ x.data.drop (60 * leAt data 2 2)))) ∧
        (cmd = 4 → Answers (.serviceAbort id data) s fun t => t.dresser.transfer = none ∧ t.sent = s.sent)) ∧
    (s.dresser.transfer = none → exec .transferTimeout s = .next s) ∧
    (∀ x, s.dresser.transfer = some x → onBus → Answers .transferTimeout s fun t => t.dresser.transfer = none ∧
      frame s t ([0x04, x.tag, 0, 0] ++ leBytes 4 stTransferTimeout)) ∧
    (let tec := getF s HS_SVCSTAT_TEC
     let rec_ := getF s HS_SVCSTAT_REC
     let off := getF s HS_SVCSTAT_BSTATE = 2
     let counts (event : BusEvent) (te re : Nat) : Prop := Answers (.busOff event) s fun t => getF t HS_SVCSTAT_TEC = te ∧
       getF t HS_SVCSTAT_REC = re ∧ getF t HS_SVCSTAT_BSTATE = if 128 ≤ te ∨ 128 ≤ re then 1 else 0
     (∀ event, getF s HS_SVCCTL_EN = 0 ∨ (off ∧ event ≠ .recovered) ∨ (¬ off ∧ event = .recovered) →
        exec (.busOff event) s = .next s) ∧
     (getF s HS_SVCCTL_EN = 1 →
       (off → counts .recovered 0 0) ∧
       (¬ off → (247 < tec → Answers (.busOff .sendError) s fun t => getF t HS_SVCSTAT_BSTATE = 2 ∧ getF t HS_ODSTAT_BUSOFFEV = 1) ∧
         (tec ≤ 247 → counts .sendError (tec + 8) rec_) ∧ counts .sent (tec - 1) rec_ ∧
         counts .receiveError tec (min 255 (rec_ + 1)) ∧ counts .dominantAfterFlag tec (min 255 (rec_ + 8)) ∧
         (rec_ < 128 → counts .received tec (rec_ - 1)) ∧
         (128 ≤ rec_ → Answers (.busOff .received) s fun t => 119 ≤ getF t HS_SVCSTAT_REC ∧ getF t HS_SVCSTAT_REC ≤ 127)))) ∧
    (takeWindow s 1 = none → exec .fabricRequest s = .next s) ∧
    (∀ u p, takeWindow s 1 = some (u, [p]) →
      let r := fabricRequestOf p
      (p.payload.length < 16 → Answers .fabricRequest s fun t =>
        getF t WV_ENGCNT_BADQ = min 255 (getF u WV_ENGCNT_BADQ + 1) ∧ t.sent = u.sent) ∧
      (16 ≤ p.payload.length → DresserFree u → r.cmd = 1 ∨ r.cmd = 3 → isFirmwareIndex r.index = false → checkRequest u r ≠ stOk →
        Answers .fabricRequest s fun t => t.dresser = u.dresser ∧
          counted u t 1 ∧ reply u t p (checkRequest u r) 0 0 []) ∧
      ∀ e, 16 ≤ p.payload.length → DresserFree u → entryAt r.index r.sub = some e → isFirmwareIndex r.index = false →
        checkRequest u r = stOk →
        (r.cmd = 3 → Answers .fabricRequest s fun t => t.dresser = u.dresser ∧ counted u t 0 ∧
          reply u t p stOk 0 8 (descriptor e)) ∧
        (∀ ps, r.cmd = 1 → e.body = .fields ps → onScanDie e = false → storePoisoned u e r.index r.sub = false → r.offset ≤ e.len →
          let v := leBytes e.len (piecesValue u ps)
          let part := (v.drop r.offset).take (min r.len 2032)
          Answers .fabricRequest s fun t => t.dresser = u.dresser ∧ counted u t 0 ∧
            reply u t p stOk (if r.offset + part.length < e.len then 1 else 0) e.len part) ∧
        (r.cmd = 2 → leAt p.payload 1 1 % 4 = 3 → r.offset = 0 →
          (checkValue u e r.data ≠ stOk → Answers .fabricRequest s fun t => t.dresser = u.dresser ∧ counted u t 1 ∧
            reply u t p (checkValue u e r.data) 0 0 []) ∧
          ∀ f g idx, plainHouseField u e f g idx → takes u f g (leNat r.data) true → Accepted u r.cls r.egr r.index r.sub r.data →
            Answers .fabricRequest s fun t => getF t f = leNat r.data ∧ counted u t 0)) ∧
    (Answers (.stagingTimeout slot) s fun t => t.dresser = { s.dresser with stagings := s.dresser.stagings.eraseIdx slot } ∧
      t.regs = s.regs)

/-- Writes of entries with an effect of their own, accepted with no request before them (R63, R173, R200, R411, R459, R505, R506,
R517, R519, R520, R526, R529, R531, R535, R543, R571, R582, R583, R593): each does what its entry says, and is answered OK;
or its entry refuses it and nothing but the answer follows. Keys are refused outside NORMAL and CLOSED, and where they do not
unwrap; clears where a source is still active; a token before its time, without a nonce, not good, or whose verification an
alarm ends. -/
def Obligations.DictionaryEffects : Prop :=
  ∀ (s : State) (cls : PortClass) (egr : Bool) (w : Word) (v : Byte) (v64 : BitVec 64) (data : List Byte) (slot : Fin 32)
    (req : BitVec 2) (sealing : Bool) (source : Fin 6),
    let done (c : Instr) (i j : Nat) (x : List Byte) (P : State → Prop) : Prop :=
      Accepted s cls egr i j x → Answers c s fun t => Replies s t stOk (answerType i j) [] ∧ P t
    let refuses (c : Instr) (i j : Nat) (x : List Byte) (status : Nat) (P : State → Prop) : Prop :=
      Accepted s cls egr i j x → Answers c s fun t => Replies s t status (answerType i j) [] ∧ P t
    let placed (t : State) (a len : Nat) : Prop := ∀ x, mramByte t x = if a ≤ x ∧ x < a + len then data.getD (x - a) 0 else mramByte s x
    let same : Prop := flag s WV_POS_POSV = false ∨ (bitsOf w 13 0 = getF s WV_POS_COL ∧ bitsOf w 29 16 = getF s WV_POS_ROW ∧
      w.getLsbD 30 = flag s WV_POS_SIDE)
    let recent := ∃ x, s.hutch.failedAt = some x ∧ s.now < x + 40000000
    let target := leAt data 0 1
    let asked (c : Instr) (i j : Nat) (status : Nat) : Prop := houseOn s = true → DresserFree s →
      Answers c s fun t => OnlyReplies s t status (answerType i j) []
    let right (i j : Nat) : Prop := indexPresent s.variant i = true ∧ ∀ e, entryAt i j = some e →
      entryPresent s.variant e = true ∧ rightCheck (plainRequest cls egr 2 i j data) e = stOk
    let fitting (i j : Nat) : Prop := checkRequest s (plainRequest cls egr 2 i j data) = stOk ∧
      ∀ e, entryAt i j = some e → lengthFits e data.length = true
    (bridgeDown s = false → done (.frameCountSet cls egr w) 0x2015 0 (leBytes 4 w.toNat) fun t =>
      t.beam.frameSet = some w ∧ t.dresser.frameCount = w) ∧
    (bridgeDown s = false → done (.egressCommand cls egr v) 0x3401 0 [v] fun t =>
      t.comp.egressCommand = (if v = 0 then none else some (v.toNat - 1)) ∧ (v ≠ 0 → getF t SC_EGSTAT_ACTIVE = 1)) ∧
    (bridgeDown s = true → done (.egressCommand cls egr v) 0x3401 0 [v] fun t =>
      t.comp.egressCommand = s.comp.egressCommand ∧ getF t HS_BRERR_DROPPED = min 255 (getF s HS_BRERR_DROPPED + 1)) ∧
    (done (.egressLibraryWrite cls egr data) 0x3402 0 data fun t => t.dresser.libraryLen = data.length ∧ placed t 0x700000 0x100000) ∧
    (done (.storeVoid cls egr) 0x1030 0 [0x5A] fun t => t.dresser.stored = []) ∧
    (sealing = false → done (.resultTrigger cls egr sealing v) 0x8300 0 [v] fun t =>
      t.dresser.verifying = .running (leBytes 4 (verifyStore s).2)) ∧
    (∀ key, sealing = true → s.hutch.sealKey = some key → done (.resultTrigger cls egr sealing v) 0x8020 0 [v] fun t =>
      t.dresser.sealing = .running (sealValue s key)) ∧
    (bridgeUp s = true → done (.dresserCommit cls egr w) 0x3003 1 (leBytes 4 w.toNat) fun t =>
      t.dresser.epoch = w ∧ t.dresser.counted = 0 ∧ t.bridge.commits = s.bridge.commits ++
        [{ src := .dresser, epoch := w, tframe := s.dresser.stagedCommit.setWidth 16,
           stream := (s.dresser.stagedCommit >>> 16).setWidth 2, reply := none }]) ∧
    (∀ k, agreedKey data = some k → done (.keyAgreement cls egr data) 0x7004 1 data fun t => t.hutch.kek = some k) ∧
    (agreedKey data = none → refuses (.keyAgreement cls egr data) 0x7004 1 data stRange fun t => t.hutch = s.hutch) ∧
    (keysLocked s = true → (right 0x7010 slot → asked (.contentKeyWrite cls egr slot data) 0x7010 slot stLocked) ∧
      (right 0x7011 0 → asked (.sealKeyWrite cls egr data) 0x7011 0 stLocked)) ∧
    (keysLocked s = false →
      (unwrapped s data = none →
        (fitting 0x7010 slot → asked (.contentKeyWrite cls egr slot data) 0x7010 slot stRange) ∧
        (fitting 0x7011 0 → asked (.sealKeyWrite cls egr data) 0x7011 0 stRange)) ∧
      ∀ k, unwrapped s data = some k →
        done (.contentKeyWrite cls egr slot data) 0x7010 slot data (fun t => t.hutch.content[slot] = k ∧
          bitAt (getF t SEC_KEYST_LOADED) slot = k.isSome ∧ ∀ m : Fin 32, m ≠ slot → t.hutch.content[m] = s.hutch.content[m] ∧
            bitAt (getF t SEC_KEYST_LOADED) m = bitAt (getF s SEC_KEYST_LOADED) m) ∧
        done (.sealKeyWrite cls egr data) 0x7011 0 data fun t => t.hutch.sealKey = k ∧
          t.hutch.wrappedSeal = if k.isSome then some data else none) ∧
    (done (.imageWrite cls egr data) 0x1040 0 data fun t => placed t (0x200000 * imageSlot s) data.length) ∧
    (done (.houseResetRequest cls egr) 0x1040 2 [0x5A] fun t => t.dresser.resetAt = some (s.now + 40000)) ∧
    (done (.recorderClear cls egr v) 0x8002 0 [v] fun t =>
      (s.recorder.queue = [] → s.recorder.clears = [] → t.recorder.clears = [] ∧ t.recorder.floor = s.recorder.total ∧
        t.recorder.pincnt = (if v = 2 then 0 else s.recorder.pincnt) ∧
        (s.recorder.dropped = 0 → 0 < s.recorder.tokens → t.recorder.tokens = s.recorder.tokens - 1 ∧
          ∃ r, t.recorder.queue = [r] ∧ r.code = 0x0002 ∧ r.p0 = v.setWidth 32)) ∧
      (s.recorder.queue ≠ [] → (∀ c ∈ s.recorder.clears, c.ahead ≠ 0) → t.recorder.floor = s.recorder.floor ∧
        t.recorder.queue = s.recorder.queue ∧ t.recorder.clears = s.recorder.clears ++
          [{ value := v.toNat, cls := classCode cls, smid := 0, ahead := s.recorder.queue.length }])) ∧
    (done (.calendarSet cls egr v64) 0x8010 0 (leBytes 8 v64.toNat) fun t => t.recorder.calSec = v64.toNat / 2 ^ 32 ∧
      t.recorder.calTicks = v64.toNat % 2 ^ 32 * 40 ∧ getF t HS_RECSTAT_CALV = 1) ∧
    (if getF s SEC_STAT_ACTIVE ≠ 0 then refuses (.sealClear cls egr) 0x7000 2 [1] stRefusedNow fun t => secState t = secState s
     else if secState s ≠ secSeal then done (.sealClear cls egr) 0x7000 2 [1] fun t => secState t = secState s
     else done (.sealClear cls egr) 0x7000 2 [1] fun t => secState t = secNormal ∧ t.hutch.sealMark = false) ∧
    (if guardSourceActive s then
       refuses (.guardClear (.entry cls egr) w) 0x7000 1 [1] stRefusedNow fun t => secState t = secState s
     else if secState s ≠ secGuard then done (.guardClear (.entry cls egr) w) 0x7000 1 [1] fun t => secState t = secState s
     else done (.guardClear (.entry cls egr) w) 0x7000 1 [1] fun t => secState t = secNormal) ∧
    (recent → refuses (.unlockToken cls egr ⟨data, none⟩) 0x7002 2 data stRefusedNow fun t =>
      t.hutch = { s.hutch with nonce := none } ∧ debugState t = debugState s) ∧
    (¬ recent →
      (s.hutch.nonce = none → refuses (.unlockToken cls egr ⟨data, none⟩) 0x7002 2 data stRefusedNow fun t =>
        t.hutch.failedAt = some s.now ∧ debugState t = debugState s) ∧
      ∀ n, s.hutch.nonce = some n →
        (target ≠ 1 → target ≠ 2 → refuses (.unlockToken cls egr ⟨data, none⟩) 0x7002 2 data stRefusedNow fun t =>
          t.hutch.nonce = none ∧ t.hutch.failedAt = some s.now ∧ debugState t = debugState s) ∧
        (target = 1 ∨ target = 2 →
          (debugState s = 2 ∨ s.hutch.alarmed = true → refuses (.unlockToken cls egr ⟨data, none⟩) 0x7002 2 data stRefusedNow fun t =>
            t.hutch = { s.hutch with nonce := none } ∧ debugState t = debugState s) ∧
          (debugState s ≠ 2 → s.hutch.alarmed = false → tokenGood s n data = false → refuses (.unlockToken cls egr ⟨data, none⟩) 0x7002 2 data stRange fun t =>
            t.hutch.nonce = none ∧ t.hutch.failedAt = some s.now ∧ debugState t = debugState s ∧
            getF t SEC_UNLK_FAILS = if max 1 (getF s SEC_UNLK_LIMIT) ≤ getF s SEC_UNLK_FAILS + 1 then 0
              else getF s SEC_UNLK_FAILS + 1) ∧
          (debugState s ≠ 2 → s.hutch.alarmed = false → tokenGood s n data = true → done (.unlockToken cls egr ⟨data, none⟩) 0x7002 2 data fun t =>
            debugState t = target ∧ t.hutch.nonce = none ∧ getF t SEC_UNLK_FAILS = 0 ∧ getF t SEC_STAT_DBGEV = 1 ∧
            t.hutch.leased = (getF s SEC_UNLK_LEASE != 0) ∧ (∀ m : Fin 32, t.hutch.content[m] = none) ∧
            (target = 2 → t.hutch.kek = none ∧ t.hutch.sealKey = none)))) ∧
    (let u := alarmRelease s source
     let u := { u with hutch := { u.hutch with alarmed := true } }
     ∀ n, ¬ recent → s.hutch.nonce = some n → target = 1 ∨ target = 2 → Accepted u cls egr 0x7002 2 data →
       Answers (.unlockToken cls egr ⟨data, some source⟩) s fun t => Replies u t stRefusedNow (answerType 0x7002 2) [] ∧
         t.hutch = { u.hutch with nonce := none, alarmed := false } ∧ debugState t = debugState s ∧
         getF t SEC_UNLK_FAILS = getF s SEC_UNLK_FAILS) ∧
    (done (.debugClose cls egr) 0x7002 3 [1] fun t => debugState t = 0 ∧
      (debugState s ≠ 0 → t.hutch.leased = false ∧ getF t SEC_STAT_DBGEV = 1)) ∧
    (houseOn s = true → DresserFree s → checkRequest s (plainRequest cls egr 1 0x7002 1 []) = stOk →
      Answers (.nonceRead cls egr) s fun t => ∃ n, n.length = 32 ∧ Replies s t stOk (answerType 0x7002 1) n ∧
        t.hutch.nonce = some n) ∧
    (Accepted s cls egr 0x7020 0 [req.zeroExtend 8] → Answers (.powerRequest (.entry cls egr) req) s fun t =>
      Replies s t (powerRequest s req.toNat).2 (answerType 0x7020 0) [] ∧ t.power = (powerRequest s req.toNat).1.power) ∧
    (Accepted s cls egr 0x6021 0 [1] → Answers (.take (.entry cls egr) w) s fun t =>
      Replies (takeHarness s) t (if takeAllowed s then stOk else stRefusedNow) (answerType 0x6021 0) []) ∧
    (Accepted s cls egr 0x6021 0 [2] → Answers (.yield (.entry cls egr) w) s fun t =>
      Replies (yieldHarness s) t (if yieldAllowed s then stOk else stRefusedNow) (answerType 0x6021 0) []) ∧
    done (.positionWrite (.entry cls egr) w) 0x6000 1 (leBytes 4 w.toNat) fun t =>
      if same then getF t WV_POS_POSV = 1 ∧ getF t WV_POS_COL = bitsOf w 13 0 ∧ getF t WV_POS_ROW = bitsOf w 29 16 ∧
        flag t WV_POS_SIDE = w.getLsbD 30
      else regWord t WV_POS = regWord s WV_POS ∧ getF t WV_STAT_CONFEV = 1

/-- Alarms and the debug state (R523 to R526, R529, R531, R542). A source raises the state to its level, erasing the content
keys, and at SEAL every key, and stands in LATCHED and ACTIVE; what nothing watches raises none; ACTIVE follows the
condition; in OFF-AWAIT an enabled wake source would end that state. GUARDCLR clears GUARD while no source of that level is
active, else sets ALMEV. LOCK fixes the levels, which refuse 0b11 and what lies below a source's minimum. A nonce expires;
the lease closes the debug state. -/
def Obligations.AlarmsAndDebug : Prop :=
  ∀ (s : State) (source : Fin 6) (src : Src) (val : Word),
    let n := source.val
    let level := alarmLevel s n
    let watched := s.power.island = true ∧ (houseOn s = true ∨ watchedInAwait n = true)
    let stays := s.power.offAwait = false ∨ (s.power.wakePending = none ∧ bitAt (getF s HIC_WAKEEN_EN) 16 = false)
    (watched → stays → Answers (.alarm source) s fun t =>
      bitAt (getF t SEC_STAT_LATCHED) n = true ∧ bitAt (getF t SEC_STAT_ACTIVE) n = true ∧ getF t SEC_STAT_ALMEV = 1 ∧
      secState t = max (secState s) level ∧ debugState t = debugState s ∧
      (secState s < level → (∀ m : Fin 32, t.hutch.content[m] = none) ∧ getF t SEC_KEYST_LOADED = 0 ∧
        (level = secSeal → t.hutch.kek = none ∧ t.hutch.sealKey = none ∧ t.hutch.wrappedSeal = none ∧ t.hutch.sealMark = true)) ∧
      (level ≤ secState s → t.hutch.content = s.hutch.content ∧ t.hutch.kek = s.hutch.kek) ∧
      (houseOn s = false → t.hutch.alarmLog = (s.hutch.alarmLog ++ [(n, level, secState t)]).drop (s.hutch.alarmLog.length - 3)) ∧
      (n = 2 → scanOn s = true → s.twin.latched = true → s.twin.rearm = false → getF t SC_OWNCTL_CLAIM = 0)) ∧
    (¬ watched → stays → n ≠ 2 → exec (.alarm source) s = .next s) ∧
    (s.power.island = true → Answers (.alarmSourceInactive source) s fun t =>
      (∀ i < 6, bitAt (getF t SEC_STAT_ACTIVE) i = (bitAt (getF s SEC_STAT_ACTIVE) i && i != n)) ∧
      getF t SEC_STAT_LATCHED = getF s SEC_STAT_LATCHED ∧ secState t = secState s ∧ t.hutch = s.hutch) ∧
    (houseOn s = true →
      (Answers (.guardClear (.register src) val) s fun t =>
        if guardSourceActive s then secState t = secState s ∧ getF t SEC_STAT_ALMEV = 1
        else if secState s ≠ secGuard then secState t = secState s
        else secState t = secNormal) ∧
      (Answers (.alarmConfigLock src val) s fun t => getF t SEC_ALMCFG_LOCK = 1 ∧ ∀ i < 6,
        natBits (getF t SEC_ALMCFG_LEVEL) (2 * i + 1) (2 * i) =
          let v := bitsOf val (2 * i + 1) (2 * i)
          if getF s SEC_ALMCFG_LOCK = 1 ∨ v = 3 ∨ (i = 1 ∧ v = 0) then natBits (getF s SEC_ALMCFG_LEVEL) (2 * i + 1) (2 * i)
          else v) ∧
      exec .nonceExpiry s = .next { s with hutch := { s.hutch with nonce := none } } ∧
      (s.hutch.leased = false → exec .leaseExpiry s = .next s) ∧
      (s.hutch.leased = true → debugState s ≠ 0 → Answers .leaseExpiry s fun t => debugState t = 0 ∧ t.hutch.leased = false ∧
        getF t SEC_STAT_DBGEV = 1))

/-- The bench port (R405, R528, R532, R533). BYPASS shifts its data by one bit; IDCODE answers on every powered part;
SAMPLE_PRELOAD, EXTEST, CLAMP and HIGHZ set the boundary scan; a request of class BENCH is answered like any other; INJECT
sends a packet stamped BENCH with EGR; MEMAP reads and writes words of SRAM, and reads the scan die through the bridge;
COREDBG halts, runs and steps a core and reaches its registers; SCANTEST loses DRAM. An instruction that the debug state does
not allow acts as BYPASS; how operands of no stated layout are shifted is free (log entry 67). -/
def Obligations.BenchPort : Prop :=
  ∀ (s : State) (data : List Byte) (cmd : Byte) (index : BitVec 16) (sub : Byte) (pkt : Packet) (core : Fin 4) (direct : Bool)
    (addr : BitVec 24) (w : Tagged) (r : CoreReg) (v : BitVec 72), s.power.island = true →
    let off : State := { s with hutch := { s.hutch with boundary := .off } }
    let out (t : State) (bs : List Byte) : Prop := t.sent = s.sent ++ [.bench bs]
    let some_ (t : State) (len : Nat) : Prop := ∃ bs, bs.length = len ∧ out t bs
    let c := coreOf s core
    exec (.bypass data) s = .next { off with sent := s.sent ++ [.bench (leBytes data.length (2 * leNat data))] } ∧
    (exec .idcode s = .next { off with sent := s.sent ++ [.bench (leBytes 4 (match s.variant with
      | .zw8460 => 0x1846056B
      | .zw8440 => 0x1844056B
      | .zw8420 => 0x1842056B))] }) ∧
    (houseOn s = true → Answers (.samplePreload data) s fun t => t.hutch = { off.hutch with preload := data } ∧ some_ t data.length) ∧
    (houseOn s = true → DresserFree s → isFirmwareIndex index.toNat = false →
      let ask := plainRequest .bench true cmd.toNat index.toNat sub.toNat data
      let typ := answerType index.toNat sub.toNat
      (checkRequest s ask ≠ stOk → Answers (.bchreq cmd index sub data) s fun t =>
        Replies s t (checkRequest s ask) typ [] ∧ t.hutch = off.hutch) ∧
      ∀ e, cmd = 3 → checkRequest s ask = stOk → entryAt index.toNat sub.toNat = some e →
        Answers (.bchreq cmd index sub data) s fun t => Replies s t stOk typ (descriptor e) ∧ t.hutch = off.hutch) ∧
    (let shifts (c : Instr) (len : Nat) : Prop := Answers c s fun t => ∃ bs, bs.length = len ∧
       t = { off with sent := s.sent ++ [.bench (leBytes len (2 * leNat bs))], fresh := s.fresh + 1 }
     (benchOpen s = false → exec (.extest data) s = exec (.bypass data) s ∧ exec .clamp s = exec (.bypass []) s ∧
        exec .highz s = exec (.bypass []) s ∧ exec (.inject pkt) s = exec (.bypass (headerBytes pkt ++ pkt.payload)) s ∧
        shifts (.memap core direct false addr w) 9 ∧ shifts (.memap core direct true addr w) 9 ∧ shifts (.coredbg core .halt) 10) ∧
     (benchFactory s = false → shifts .scantest 0) ∧
     (houseOn s = true → benchOpen s = true → placeOf core.val addr = .houseReg → 0x107000 ≤ addr.toNat → addr.toNat < 0x108000 →
        shifts (.memap core direct false addr w) 9 ∧ shifts (.memap core direct true addr w) 9)) ∧
    (houseOn s = true → benchOpen s = true →
      (Answers (.extest data) s fun t => t.hutch = { s.hutch with preload := data, boundary := .extest } ∧ some_ t data.length) ∧
      exec .clamp s = .next { s with hutch := { s.hutch with boundary := .clamp } } ∧
      exec .highz s = .next { s with hutch := { s.hutch with boundary := .highz } } ∧
      (∀ port, pkt.dkind = 0 → ownMid s ≠ some pkt.dest → unicastPort s pkt.dest 7 = some port →
        let x := portOf s port
        x.queue = [] → (∀ i : Queued, i.pkt.payload = pkt.payload → x.room i = true) →
        vcCount x.used pkt.vc.toNat ≤ Config.linkBuffers port pkt.vc.toNat → Answers (.inject pkt) s fun t => ∃ m p,
          t.sent = s.sent ++ [.frame port x.nextSeq x.expect x.creditWord { pkt with cls := 3, egr := true, smid := m, sport := p }]) ∧
      (∀ m x, placeOf core.val addr = .sram m x →
        (Answers (.memap core direct true addr w) s fun t => sramCell t m x = .good w ∧ out t (leBytes 4 1) ∧
          ∀ m' x', (m', x') ≠ (m, x) → m' ≤ 4 → sramCell t m' x' = sramCell s m' x') ∧
        (∀ old, (m = 0 → pageMarked s (x / 1024) = true) → sramCell s m x = .good old →
          Answers (.memap core direct false addr w) s fun t => out t (leBytes 4 1 ++ leBytes 5 old.toNat) ∧ t.mem = s.mem)) ∧
      (placeOf core.val addr = .scanReg →
        (scanOn s = false ∨ bridgeDown s = true → Answers (.memap core direct false addr w) s fun t => out t (leBytes 4 5)) ∧
        (scanOn s = true → bridgeDown s = false → Answers (.memap core direct false addr w) s fun t =>
          t.hutch.benchReads = s.hutch.benchReads ++ [.register addr.toNat] ∧ t.sent = s.sent)) ∧
      (Answers (.coredbg core .halt) s fun t => coreOf t core = { c with benchHalt := true } ∧ ∀ m : Fin 4, m ≠ core → coreOf t m = coreOf s m) ∧
      (Answers (.coredbg core .resume) s fun t => (coreOf t core).benchHalt = false ∧ (coreOf t core).stepping = false ∧
        (coreOf t core).pc = c.pc) ∧
      (Answers (.coredbg core .step) s fun t => (coreOf t core).benchHalt = false ∧ (coreOf t core).stepping = true ∧
        (coreOf t core).pc = c.pc) ∧
      (Answers (.coredbg core (.setBreak addr)) s fun t => (coreOf t core).breaks.contains addr = true) ∧
      (Answers (.coredbg core (.clearBreak addr)) s fun t => (coreOf t core).breaks.contains addr = false) ∧
      (Answers (.coredbg core (.read r)) s fun t => out t (leBytes 9 (readCoreReg c r).toNat) ∧ t.cores = s.cores) ∧
      (Answers (.coredbg core (.write .pc v)) s fun t => coreOf t core = { c with pc := v.setWidth 24 }) ∧
      ∀ q, Answers (.coredbg core (.write (.acc q) v)) s fun t => readCoreReg (coreOf t core) (.acc q) = v) ∧
    (houseOn s = true → benchFactory s = true → Answers .scantest s fun t =>
      (∃ bs, bs.length = 4 ∧ t.sent.getLast? = some (.bench bs)) ∧ (scanOn s = true → t.dram.bytes = [] ∧ bridgeState t = brDown))

/-- Power states, the supply, resets and the boot (R364, R527, R534 to R543, R557, R562, R563, R565, R590 to R592). A request
starts a transition, is ignored where it names the present state, or is refused with REFEV; the transition ends in its state,
with the scan die off in HIBERNATE and everything but the island off in OFF-AWAIT. An enabled wake source ends either, or is
kept through an entry. The input's rise, converter start and soft start follow one another to a power-on reset; its loss
warns, recovers, or shuts down. A boot takes the valid image with the higher SEQ, or is in recovery. -/
def Obligations.PowerAndBoot : Prop :=
  ∀ (s : State) (src : Src) (req : BitVec 2) (w : Fin 32) (rising : Bool) (slot : BitVec 6) (vin : BitVec 16) (ts th : BitVec 8),
    let st := getF s HS_PWRSTAT_STATE
    let r := req.toNat
    let refused := (r = pwHibernate ∧ (getF s HS_PWRIMG_BASE = 0 ∨ flag s SC_EGSTAT_ACTIVE = true)) ∨
      (r = pwOffAwait ∧ flag s SC_EGSTAT_ACTIVE = true)
    let enabled := bitAt (getF s HIC_WAKEEN_EN) w = true
    let latches (n : Nat) := bitAt (getF s HIC_WAKEEN_EN) n = true
    let stays := s.power.offAwait = false ∨ s.power.wakePending = none
    let defined := wakeDefined s w rising
    let old := max (signedOf 8 (getF s HS_THERM_TSCAN)) (signedOf 8 (getF s HS_THERM_THOUSE))
    let hot := max ts.toInt th.toInt
    let v : State := { s with power := { s.power with booting := false } }
    let k := firstSlot v
    let a := verifySlot v k
    let b := verifySlot a.1 (1 - k)
    let started (u t : State) (k status : Nat) : Prop :=
      let h := imageHeader u k
      t.dresser.bootStatus = BitVec.ofNat 8 status ∧ t.dresser.version = BitVec.ofNat 32 h.version ∧ t.power.booting = false ∧
      (coreOf t 0).pc = BitVec.ofNat 24 h.entry ∧ (coreOf t 0).slim = 0x300000 ∧ regOf (coreOf t 0) rSP = addrWord 0x304000 ∧
      regOf (coreOf t 0) 0 = intWord (BitVec.ofNat 32 status) ∧ ∀ i < h.len / 5, sramCell t 0 (h.load + i) = .good
        (tagged (BitVec.ofNat 4 (leAt (imageBody u k h.len) (5 * i + 4) 1)) (BitVec.ofNat 32 (leAt (imageBody u k h.len) (5 * i) 4)))
    (houseOn s = true →
      (s.power.target ≠ none → ¬ latches 17 → Answers (.powerRequest (.register src) req) s fun t =>
        t.power = s.power ∧ getF t HS_PWRSTAT_REFEV = 1) ∧
      (s.power.target = none →
        (r = st → Answers (.powerRequest (.register src) req) s fun t => t.power = s.power ∧ regWord t HS_PWRSTAT = regWord s HS_PWRSTAT) ∧
        (r ≠ st → refused → ¬ latches 17 → Answers (.powerRequest (.register src) req) s fun t =>
          t.power = s.power ∧ getF t HS_PWRSTAT_REFEV = 1) ∧
        (r ≠ st → ¬ refused → Answers (.powerRequest (.register src) req) s fun t => t.power = { s.power with target := some r } ∧
          getF t HS_PWRCTL_REQ = r ∧ getF t HS_PWRSTAT_BUSY = 1 ∧ getF t HS_PWRSTAT_STATE = st))) ∧
    (s.power.supply = .running → s.power.island = true →
      (s.power.target = none → stays → exec .powerTransitionDone s = .next s) ∧
      (s.power.target = some r → r ≤ 1 → st ≠ pwHibernate → Answers .powerTransitionDone s fun t => getF t HS_PWRSTAT_STATE = r ∧
        getF t HS_PWRSTAT_BUSY = 0 ∧ t.power = { s.power with target := none, wakePending := none } ∧ t.mem = s.mem) ∧
      (s.power.target = some r → r ≤ 1 → st = pwHibernate → Answers .powerTransitionDone s fun t => getF t HS_PWRSTAT_STATE = r ∧
        t.power.scanOff = false ∧ t.power.target = none ∧ getF t HS_PWRSTAT_WAKEEV = 1) ∧
      (s.power.target = some 2 → Answers .powerTransitionDone s fun t => getF t HS_PWRSTAT_STATE = 2 ∧ t.power.scanOff = true ∧
        match s.power.wakePending with
        | none => t.power.target = none ∧ getF t HS_PWRSTAT_BUSY = 0
        | some x => t.power.target = some 0 ∧ getF t HS_PWRSTAT_BUSY = 1 ∧ getF t HS_PWRSTAT_LASTWAKE = x % 32) ∧
      (s.power.target = some 3 → s.power.wakePending = none → debugState s = 0 ∨ ¬ latches 16 → Answers .powerTransitionDone s fun t => t.power.offAwait = true ∧
        t.power.scanOff = true ∧ t.power.target = none ∧ t.hic.clocksStopped = true ∧ t.mem.sram = [] ∧ t.dram.bytes = [] ∧
        t.dram.units = [] ∧ debugState t = 0 ∧ houseOn t = false) ∧
      (defined = false → stays → exec (.wake ⟨w, rising⟩) s = .next s) ∧
      (defined = true → s.power.offAwait = true → s.power.wakePending = none →
        enabled ∨ (w.val = 5 ∧ s.power.inenAtEntry = true) → ∃ u,
        exec (.wake ⟨w, rising⟩) s = .next (raiseEvent (setF (bootSteps u true 2) HS_PWRSTAT_LASTWAKE w) 209 HS_PWRSTAT_WAKEEV) ∧
        u.power.offAwait = false ∧ u.power.scanOff = false ∧ u.power.booting = true ∧ u.recorder.bootCause = 2 ∧
        u.hic.clocksStopped = false) ∧
      (defined = true → s.power.offAwait = false → s.power.target = none → s.hic.clocksStopped = false →
        (st = pwHibernate → enabled ∨ (w.val = 5 ∧ s.power.inenAtEntry = true) → Answers (.wake ⟨w, rising⟩) s fun t =>
          t.power.target = some 0 ∧ getF t HS_PWRCTL_REQ = 0 ∧ getF t HS_PWRSTAT_LASTWAKE = w ∧ t.hic.edges = s.hic.edges ++ [192 + w.val]) ∧
        (st ≠ pwHibernate → Answers (.wake ⟨w, rising⟩) s fun t => t.power = s.power ∧ t.regs = s.regs ∧
          t.hic.edges = s.hic.edges ++ [192 + w.val])) ∧
      (s.power.offAwait = false → s.power.target = none → s.hic.clocksStopped = false →
        (getF s HS_ISLTMR_SECONDS ≠ 0 → st ≠ pwHibernate → Answers .islandTimerExpiry s fun t => getF t HS_ISLTMR_SECONDS = 0 ∧
          t.hic.edges = s.hic.edges ++ [194])) ∧
      (defined = true → s.power.offAwait = false → s.power.wakePending = none → enabled → (s.power.target = some 2 ∨ s.power.target = some 3) →
        Answers (.wake ⟨w, rising⟩) s fun t => t.power = { s.power with wakePending := some w.val }) ∧
      (getF s HS_ISLTMR_SECONDS = 0 → stays → exec .islandTimerExpiry s = .next s) ∧
      ∃ u, exec .resetPin s = .next (bootSteps u true 1) ∧ u.power.booting = true ∧ u.recorder.bootCause = 1 ∧ u.pads.latched = [] ∧
        debugState u = 0 ∧ ∀ p : Fin 512, regWord u (PAD_CFG p) = regDefault (PAD_CFG p)) ∧
    (if s.power.supply = .off then Answers (.vinRise slot) s fun t => getF t HS_SUPPLY_SLOT = slot.toNat ∧
        t.power = { s.power with supply := .delay, island := true }
     else exec (.vinRise slot) s = .next s) ∧
    (if s.power.supply = .delay then exec .converterStart s = .next { s with power := { s.power with supply := .softStart } }
     else exec .converterStart s = .next s) ∧
    (s.power.supply ≠ .softStart → exec .softStartDone s = .next s) ∧
    (s.power.supply = .softStart → ∃ u, exec .softStartDone s = .next (bootSteps u true 0) ∧ u.power.supply = .running ∧
      u.power.booting = true ∧ u.recorder.bootCause = 0) ∧
    (houseOn s = true →
      (Answers (.inputLossWarning vin) s fun t => getF t HS_SUPPLY_VIN = vin.toNat ∧ getF t HS_SUPPLY_WARN = 1 ∧
        (getF s HS_SUPPLY_WARN = 0 → getF t HS_SUPPLY_WARNEV = 1 ∧ t.power.vinLow = true)) ∧
      (Answers (.inputRecovery vin) s fun t => getF t HS_SUPPLY_VIN = vin.toNat ∧ t.power.vinLow = false ∧
        if s.power.vinLow then getF t HS_SUPPLY_WARN = 0 ∧ getF t HS_SUPPLY_RECOVEV = 1
        else getF t HS_SUPPLY_WARN = getF s HS_SUPPLY_WARN) ∧
      (s.power.vinLow = false → exec .inputShutdown s = .next s) ∧
      (s.power.vinLow = true → Answers .inputShutdown s fun t => t.power.supply = .off ∧ t.power.scanOff = true ∧
        t.power.target = none ∧ t.power.vinLow = false ∧ t.hic.clocksStopped = true ∧ t.mem.sram = [] ∧ t.dram.bytes = [] ∧
        t.hutch.kek = s.hutch.kek ∧ t.hutch.content = s.hutch.content ∧ t.hutch.sealMark = s.hutch.sealMark) ∧
      (Answers (.thermalThreshold ts th) s fun t => getF t HS_THERM_TSCAN = ts.toNat ∧ getF t HS_THERM_THOUSE = th.toNat ∧
        (125 ≤ hot → getF t HS_THERM_TDARK = 1 ∧ (old < 125 ∨ getF s HS_THERM_TDARK = 0 → getF t HS_THERM_TDARKEV = 1)) ∧
        (hot < 105 → getF t HS_THERM_TDARK = 0) ∧
        (105 ≤ hot → hot < 125 → getF t HS_THERM_TDARK = getF s HS_THERM_TDARK) ∧
        (115 ≤ hot → old < 115 → getF t HS_THERM_TWARNEV = 1)) ∧
      (s.power.booting = false → exec .bootComplete s = .next s) ∧
      (s.power.booting = true →
        (a.2 = 1 → Answers .bootComplete s fun t => started a.1 t k (bootStatusOf k k 1 0)) ∧
        (a.2 ≠ 1 → b.2 = 1 → Answers .bootComplete s fun t => started b.1 t (1 - k) (bootStatusOf (1 - k) k a.2 1)) ∧
        (a.2 ≠ 1 → b.2 ≠ 1 → Answers .bootComplete s fun t => t.dresser.bootStatus = BitVec.ofNat 8 (bootStatusOf 3 k a.2 b.2) ∧
          t.cores = s.cores ∧ t.power.booting = false))) ∧
    Answers .islandPowerLoss s fun t => t.power.island = false ∧ t.power.supply = .off ∧ t.hutch.kek = none ∧
      t.hutch.sealKey = none ∧ t.hutch.nonce = none ∧ (∀ m : Fin 32, t.hutch.content[m] = none) ∧
      t.hutch.sealMark = s.hutch.sealMark ∧ t.hutch.alarmLog = s.hutch.alarmLog ∧ secState t = (if s.hutch.sealMark then secSeal else secNormal) ∧ t.mem.sram = [] ∧
      t.pads = .reset

/-- The pad block (R547, R548, R550, R551, R553, R554, R567). The two keys in order, then the lock word, lock the named bonded
pads; any other order counts as a dropped lock. Released latches leave none held. A conversion is VALID once its code has
come. A bank whose rail changes slews until its end; a pad's hold ends. The UART takes and gives bytes in order, 16 at most;
with the input buffer of its pad off what it takes is free (log entry 112). -/
def Obligations.Pads : Prop :=
  ∀ (s : State) (src : Src) (val : Word) (word : Fin 16) (bank : Fin 4) (pad : Fin 512) (code : BitVec 10) (byte : Byte),
    houseOn s = true →
    let key := bitsOf val 7 0
    let locked := padRegLocked s (PAD_BANK bank) = true ∧ getF s (PAD_BANK_VIO bank) ≠ bitsOf val 0 0
    let changes := getF s (PAD_BANK_VIO bank) ≠ bitsOf val 0 0 ∧ bank.val ∉ s.pads.slewing
    (Answers (.padLockKey src val) s fun t => lockStep t src =
      if key = 0x5A then 1 else if key = 0xA5 ∧ lockStep s src = 1 then 2 else 0) ∧
    (lockStep s src = 2 → padBonded s.variant (32 * word) = true →
      Answers (.padLock src word val) s fun t => lockStep t src = 0 ∧ ∀ b < 32,
        getF t (PAD_CFG_LOCKED (32 * word + b)) = (if val.getLsbD b && padBonded s.variant (32 * word + b) then 1
          else getF s (PAD_CFG_LOCKED (32 * word + b)))) ∧
    (lockStep s src ≠ 2 → padBonded s.variant (32 * word) = true → Answers (.padLock src word val) s fun t => lockStep t src = 0 ∧
      getF t PAD_STAT_LOCKDROP = min 65535 (getF s PAD_STAT_LOCKDROP + 1) ∧
      ∀ p : Fin 512, regWord t (PAD_CFG p) = regWord s (PAD_CFG p)) ∧
    (Answers (.holdRelease src val) s fun t => t.pads.latched = [] ∧ getF t PAD_STAT_HELD = 0) ∧
    (Answers (.adcConvert src val) s fun t => t.pads.converting = true ∧ getF t PAD_AVAL_VALID = 0 ∧
      getF t PAD_ASEL_PAD = bitsOf val 8 0) ∧
    (s.pads.converting = true → Answers (.adcDone code) s fun t => t.pads.converting = false ∧
      getF t PAD_AVAL_CODE = code.toNat ∧ getF t PAD_AVAL_VALID = 1) ∧
    (s.pads.converting = false → exec (.adcDone code) s = .next s) ∧
    (bank.val < regionCount s.variant →
      (locked → Answers (.bankVioWrite src bank val) s fun t => getF t (PAD_BANK_VIO bank) = getF s (PAD_BANK_VIO bank) ∧
        getF t PAD_STAT_LOCKDROP = min 65535 (getF s PAD_STAT_LOCKDROP + 1) ∧ t.pads.slewing = s.pads.slewing) ∧
      (¬ locked → Answers (.bankVioWrite src bank val) s fun t => getF t (PAD_BANK_VIO bank) = bitsOf val 0 0 ∧
        t.pads.slewing = if changes then bank.val :: s.pads.slewing else s.pads.slewing)) ∧
    (exec (.bankRailSlewEnd bank) s = .next { s with pads := { s.pads with slewing := s.pads.slewing.filter (· != bank.val) } }) ∧
    (exec (.padFunctionHoldEnd pad) s = .next { s with pads := { s.pads with holds := s.pads.holds.filter fun x => x.1 != pad.val } }) ∧
    (let rx := (uartPads s).2
     let listens := getF s PAD_MUXEN_UARTEN = 1 ∧ padBonded s.variant rx = true ∧ getF s (PAD_CFG_AMODE rx) = 0
     let taken (b : Byte) := if s.pads.uartRx.length < 16 then s.pads.uartRx ++ [b] else s.pads.uartRx
     (¬ listens → exec (.uartReceive byte) s = .next s) ∧
     (listens → inputBuffered s rx = true → exec (.uartReceive byte) s = .next { s with pads := { s.pads with uartRx := taken byte } }) ∧
     (listens → inputBuffered s rx = false → Answers (.uartReceive byte) s fun t =>
        t.pads.uartRx = s.pads.uartRx ∨ ∃ b, t.pads.uartRx = taken b)) ∧
    (exec (.uartRead src) s = .next { s with pads := { s.pads with uartRx := s.pads.uartRx.drop 1 } }) ∧
    (Answers (.uartTransmit src val) s fun t => (bitsOf val 19 16 ≤ 1 → getF t PAD_UART_BAUD = bitsOf val 19 16) ∧
      t.pads.uartTx = if s.pads.uartTx.length < 16 then s.pads.uartTx ++ [val.setWidth 8] else s.pads.uartTx) ∧
    (s.pads.uartTx = [] ∨ getF s PAD_MUXEN_UARTEN = 0 → exec .uartByteTransmitted s = .next s) ∧
    ∀ b bs, s.pads.uartTx = b :: bs → getF s PAD_MUXEN_UARTEN = 1 →
      exec .uartByteTransmitted s = .next { s with pads := { s.pads with uartTx := bs }, sent := s.sent ++ [.uart b] }

/-- The recorder and the performance counters (R570 to R577, R579, R580, R585, R587, R588). The record at the head of the queue
goes, with its CRC and VALID, to the pinned slot that is next where it is an ALARM, or to the general slot that TOTAL names;
a failed store leaves zeros, counted; the clears that wait behind later records go on waiting. A token comes each
millisecond, and pays for the record of what was dropped, where there is room. The window shows the record that NUM names. A
firmware record is queued where its class and code are firmware's and there is room. A counter cleared is 0; a read latches
its upper bits. -/
def Obligations.RecorderAndCounters : Prop :=
  ∀ (s : State) (src : Src) (val : Word) (n : Fin 4) (r : Rec) (rs : List Rec), houseOn s = true →
    let c := s.recorder
    let pins := r.cls = .alarm ∧ c.pincnt < 512
    let slot := if pins then 0x404000 + 32 * c.pincnt else 0x408000 + 32 * (c.total % 15360)
    let written := if pins then recordBytes r 0 else recordBytes { r with overpin := r.cls = .alarm } (c.total / 15360 % 256)
    let counts (t : State) : Prop := if pins then t.recorder.pincnt = c.pincnt + 1 ∧ t.recorder.total = c.total
      else t.recorder.total = (c.total + 1) % 2 ^ 48 ∧ t.recorder.pincnt = c.pincnt
    let shows (t : State) (num : Nat) : Prop := ∀ view, view = recordView s (flag s HS_RECCURH_VIEW) num →
      getF t HS_RECSTAT_CURST = view.1 ∧ ∀ i < 8, regWord t (HS_RECWIN i) = view.2.getD i 0
    let high := if flag s HS_RECCURH_VIEW then 0 else getF s HS_RECCURH_NUMH * 2 ^ 32
    let next := getF s HS_RECCURL_NUML + getF s HS_RECCURH_NUMH * 2 ^ 32 + 1
    let code := getF s HS_RECPUT0_CODE
    let cls := getF s HS_RECPUT0_CLASS
    let room := 0 < c.tokens ∧ c.queue.length < 56
    let control : ControlSlot :=
      { seq := c.slotSeq + 1, total := c.total, floor := c.floor, opsec := c.opsec, pcyc := c.pcyc, pincnt := c.pincnt }
    let slots := c.slots.setIfInBounds ((c.slotSeq + 1) % 2) (some control)
    (c.queue = [] → ∀ ok, exec (.recordWrite ok) s = .next s) ∧
    (c.queue = r :: rs → c.dropped = 0 → (∀ k ∈ c.clears, 1 < k.ahead) →
      (Answers (.recordWrite true) s fun t => t.recorder.queue = rs ∧ counts t ∧
        mramBytes t slot 32 = written ++ leBytes 2 0x5AA5 ∧
        (bitAt (getF s HS_RECCTL_IRQMASK) r.cls.code = true → getF t HS_RECSTAT_RECEV = 1)) ∧
      (Answers (.recordWrite false) s fun t => counts t ∧ mramBytes t slot 32 = List.replicate 32 0 ∧
        getF t HS_RECCNT_STOREFAIL = min 255 (getF s HS_RECCNT_STOREFAIL + 1) ∧ getF t HS_RECSTAT_STOREEV = 1)) ∧
    (c.dropped = 0 ∨ 56 ≤ c.queue.length → exec .tokenRefill s = .next { s with recorder := { c with tokens := min 64 (c.tokens + 1) } }) ∧
    (c.dropped ≠ 0 → c.queue.length < 56 → Answers .tokenRefill s fun t => t.recorder.dropped = 0 ∧
      t.recorder.tokens = min 64 (c.tokens + 1) - 1 ∧ ∃ x, t.recorder.queue = c.queue ++ [x] ∧ x.code = 0x0003 ∧
        x.p0 = BitVec.ofNat 32 c.dropped) ∧
    (exec .controlSlotWrite s = .next { s with recorder := { c with slotSeq := c.slotSeq + 1, slots := slots } }) ∧
    (Answers (.recordSelect src val) s fun t => regWord t HS_RECCURL = val ∧ shows t (val.toNat + high)) ∧
    (Answers (.recordNext src val) s fun t => getF t HS_RECCURL_NUML = next % 2 ^ 32 ∧ getF t HS_RECCURH_NUMH = next / 2 ^ 32 % 2 ^ 16 ∧
      shows t (next % 2 ^ 32 + if flag s HS_RECCURH_VIEW then 0 else next / 2 ^ 32 % 2 ^ 16 * 2 ^ 32)) ∧
    (Answers (.rectotlRead src) s fun t => getF t HS_RECTOTH_TOTAL = c.total / 2 ^ 32 % 2 ^ 16 ∧ t.recorder = c) ∧
    (let good := cls ≤ 3 ∨ cls = 5
     (good → 0x8000 ≤ code → c.dropped = 0 → room → Answers (.recordPut src val) s fun t => ∃ x, t.recorder.queue = c.queue ++ [x] ∧
        x.cls.code = cls ∧ x.code = code ∧ x.p0 = regWord s (HS_RECPUT 0) ∧ x.p1 = regWord s (HS_RECPUT 1) ∧
        x.p2 = regWord s (HS_RECPUT 2) ∧ x.p3 = val ∧ t.recorder.tokens = c.tokens - 1) ∧
     (¬ good ∨ code < 0x8000 → Answers (.recordPut src val) s fun t => t.recorder = c ∧
        getF t HS_RECCNT_PUTREF = min 255 (getF s HS_RECCNT_PUTREF + 1)) ∧
     (good → 0x8000 ≤ code → ¬ room → Answers (.recordPut src val) s fun t => t.recorder.queue = c.queue ∧
        t.recorder.dropped = c.dropped + 1 ∧ getF t HS_RECCNT_DROPPED = min 65535 (getF s HS_RECCNT_DROPPED + 1) ∧
        getF t HS_RECSTAT_DROPEV = 1)) ∧
    (scanOn s = true →
      (Answers (.perfClear src n val) s fun t => t.perf[n] = 0 ∧ getF t (SC_PERFSEL_EN n) = bitsOf val 31 31 ∧
        (bitsOf val 7 0 ≤ 6 → getF t (SC_PERFSEL_EVENT n) = bitsOf val 7 0) ∧
        ∀ m : Fin 4, m ≠ n → t.perf[m] = s.perf[m]) ∧
      Answers (.perfLoRead src n) s fun t => getF t (SC_PERFHI_COUNT n) = s.perf[n].toNat / 2 ^ 32 ∧ t.perf = s.perf)
end

