-- ==== Sys2Proof/Laws/Bits.lean ====
section
/-! SUPPORT. Laws of bit fields: reading a field that was put, and another field of the same word. -/

namespace Sys2Proof.Machine

theorem fieldMask_getLsbD (hi lo i : Nat) (h : lo ≤ hi) (h' : hi < 32) :
    (fieldMask hi lo).getLsbD i = (decide (lo ≤ i) && decide (i ≤ hi)) := by
  unfold fieldMask
  rw [BitVec.getLsbD_shiftLeft, BitVec.getLsbD_ofNat, Nat.testBit_two_pow_sub_one]
  by_cases h1 : lo ≤ i <;> by_cases h2 : i ≤ hi <;> simp [h1, h2] <;> omega

theorem bitsOf_testBit (w : Word) (hi lo i : Nat) (h : lo ≤ hi) (h' : hi < 32) :
    (bitsOf w hi lo).testBit i = (decide (i + lo ≤ hi) && w.getLsbD (i + lo)) := by
  unfold bitsOf
  rw [← BitVec.getLsbD, BitVec.getLsbD_ushiftRight, BitVec.getLsbD_and, fieldMask_getLsbD hi lo _ h h', Nat.add_comm lo i]
  by_cases h1 : i + lo ≤ hi <;> simp [h1]

theorem putBits_getLsbD (w : Word) (hi lo v i : Nat) (h : lo ≤ hi) (h' : hi < 32) :
    (putBits w hi lo v).getLsbD i =
      if lo ≤ i ∧ i ≤ hi then v.testBit (i - lo) else w.getLsbD i := by
  unfold putBits
  rw [BitVec.getLsbD_or, BitVec.getLsbD_and, BitVec.getLsbD_and, BitVec.getLsbD_not, fieldMask_getLsbD hi lo i h h',
    BitVec.getLsbD_shiftLeft, BitVec.getLsbD_ofNat]
  by_cases h3 : i < 32
  · have h4 : i - lo < 32 := by omega
    by_cases h1 : lo ≤ i
    · have h5 : ¬ i < lo := by omega
      by_cases h2 : i ≤ hi <;> simp [h1, h2, h3, h4, h5]
    · simp [h1, h3]
  · have h2 : ¬ i ≤ hi := by omega
    simp [h2, h3, BitVec.getLsbD_of_ge w i (by omega)]

/-- A field that was put reads as what was put, cut to its width. -/
theorem bitsOf_putBits_same (w : Word) (hi lo v : Nat) (h : lo ≤ hi) (h' : hi < 32) :
    bitsOf (putBits w hi lo v) hi lo = v % 2 ^ (hi + 1 - lo) := by
  apply Nat.eq_of_testBit_eq
  intro i
  rw [bitsOf_testBit _ hi lo i h h', putBits_getLsbD w hi lo v _ h h', Nat.testBit_mod_two_pow]
  by_cases h1 : i + lo ≤ hi
  · have : i < hi + 1 - lo := by omega
    simp [h1, this]
  · have : ¬ i < hi + 1 - lo := by omega
    simp [h1, this]

/-- A field that shares no bit with the one that was put reads as before. -/
theorem bitsOf_putBits_ne (w : Word) (hi lo hi' lo' v : Nat) (h : lo ≤ hi) (h' : hi < 32) (g : lo' ≤ hi') (g' : hi' < 32)
    (d : hi < lo' ∨ hi' < lo) : bitsOf (putBits w hi lo v) hi' lo' = bitsOf w hi' lo' := by
  apply Nat.eq_of_testBit_eq
  intro i
  rw [bitsOf_testBit _ hi' lo' i g g', bitsOf_testBit _ hi' lo' i g g', putBits_getLsbD w hi lo v _ h h']
  by_cases h1 : i + lo' ≤ hi'
  · have : ¬ (lo ≤ i + lo' ∧ i + lo' ≤ hi) := by omega
    simp [h1, this]
  · simp [h1]

/-- A field lies below the power of two of its width. -/
theorem bitsOf_lt (w : Word) (hi lo : Nat) (h : lo ≤ hi) (h' : hi < 32) : bitsOf w hi lo < 2 ^ (hi + 1 - lo) := by
  apply Nat.lt_pow_two_of_testBit
  intro i hi'
  rw [bitsOf_testBit _ hi lo i h h']
  have : ¬ i + lo ≤ hi := by omega
  simp [this]

end Sys2Proof.Machine
end

