-- ==== Sys2Proof/Laws/Cores.lean ====
section
/-! SUPPORT. Laws of the cores: registers, tags, the operand checks that pass, and how an instruction that issues runs. -/

namespace Sys2Proof.Machine

@[simp] theorem payload_tagged (t : BitVec 4) (w : Word) : payload (tagged t w) = w := by
  unfold payload tagged
  exact BitVec.extractLsb'_append_eq_right

@[simp] theorem tagOf_tagged (t : BitVec 4) (w : Word) : tagOf (tagged t w) = t := by
  unfold tagOf tagged
  exact BitVec.extractLsb'_append_eq_left

@[simp] theorem payload_intWord (w : Word) : payload (intWord w) = w := payload_tagged _ _
@[simp] theorem tagOf_intWord (w : Word) : tagOf (intWord w) = tagInt := tagOf_tagged _ _
@[simp] theorem tagOf_addrWord (a : BitVec 24) : tagOf (addrWord a) = tagAddr := tagOf_tagged _ _
@[simp] theorem payload_addrWord (a : BitVec 24) : payload (addrWord a) = a.setWidth 32 := payload_tagged _ _

@[simp] theorem addrOf_addrWord (a : BitVec 24) : addrOf (addrWord a) = a := by
  unfold addrOf
  rw [payload_addrWord]
  simp

/-- An operand of an accepted tag passes its check. -/
theorem tagTrap_none {k : Nat} {l : List (BitVec 4)} {w : Tagged} (h0 : tagOf w ≠ tagUnset) (h1 : tagOf w ≠ tagPoison)
    (h : l.contains (tagOf w) = true) : tagTrap k l w = none := by
  unfold tagTrap
  simp only [h0, h1, h, if_true, if_false, Option.map_none]

/-- Any word may go to V0 to V7. -/
@[simp] theorem pointerTrap_v {r : BitVec 4} (h : isPointer r = false) (k : Nat) (w : Tagged) : pointerTrap r k w = none := by
  simp [pointerTrap, h]

/-- An address of 24 bits has nothing above. -/
theorem bitsOf_address (a : BitVec 24) : bitsOf (a.setWidth 32) 31 24 = 0 := by
  apply Nat.eq_of_testBit_eq
  intro i
  rw [bitsOf_testBit _ 31 24 i (by omega) (by omega), BitVec.getLsbD_setWidth, BitVec.getLsbD_of_ge a (i + 24) (by omega)]
  simp

/-- An address of 24 bits may go anywhere. -/
@[simp] theorem pointerTrap_addr (r : BitVec 4) (k : Nat) (a : BitVec 24) : pointerTrap r k (addrWord a) = none := by
  unfold pointerTrap
  rw [tagTrap_none (by simp) (by simp) (by simp)]
  simp only [payload_addrWord, bitsOf_address, if_true, ite_self]

theorem pointerTrap_fits {r : BitVec 4} {w : Tagged} (h : Fits r w) (k : Nat) : pointerTrap r k w = none := by
  cases hp : isPointer r with
  | false => exact pointerTrap_v hp k w
  | true =>
    obtain ⟨a, rfl⟩ := h hp
    exact pointerTrap_addr r k a

@[simp] theorem destTrap_v {r : BitVec 4} (h : isPointer r = false) (t : BitVec 4) : destTrap r t = none := pointerTrap_v h _ _

@[simp] theorem destTrap_addr (r : BitVec 4) : destTrap r tagAddr = none := pointerTrap_addr r _ 0

/-- Checks that all pass. -/
@[simp] theorem checked_nil (s : State) (k : Unit → State × Ending) : checked s [] k = k () := rfl

@[simp] theorem checked_none (s : State) (l : List (Option Trap)) (k : Unit → State × Ending) :
    checked s (none :: l) k = checked s l k := rfl

/-- An instruction that issues is its body's end. -/
theorem runInstr_issues {s : State} {n : Fin 4} {len : Nat} (h : Issues s n len) (body : CoreBody) :
    runInstr s n len body =
      finish (body s (coreOf s n.val)).1 n len (coreOf s n.val).pc (body s (coreOf s n.val)).2 := by
  unfold runInstr issue
  have hf := h.free
  simp only [h.issues, h.passing, h.stepping, h.fetched, hf, Bool.not_true, Bool.false_and, Bool.or_self, Bool.false_eq_true,
    if_false]

theorem runControl_issues {s : State} {n : Fin 4} {len : Nat} (h : IssuesAlone s n len) (body : CoreBody) :
    runControl s n len body =
      finish (body s (coreOf s n.val)).1 n len (coreOf s n.val).pc (body s (coreOf s n.val)).2 := by
  unfold runControl
  simp only [h.alone, Bool.false_eq_true, if_false]
  exact runInstr_issues h.toIssues body

end Sys2Proof.Machine
end

