-- ==== Sys2Proof/Laws/SMap.lean ====
section
/-! SUPPORT. Laws of sparse stores: a read after a write, other keys untouched, the canonical form kept. -/

namespace Sys2Proof.Machine

variable {α : Type}

theorem sfind_cons (k : Nat) (v : α) (m : SMap α) (a : Nat) : sfind ((k, v) :: m) a = if a = k then some v else sfind m a := rfl

theorem sfind_append (m n : SMap α) (a : Nat) : sfind (m ++ n) a = (sfind m a).or (sfind n a) := by
  induction m with
  | nil => simp [sfind]
  | cons e m ih =>
    obtain ⟨k, v⟩ := e
    by_cases h : a = k
    · simp [sfind, h]
    · simp [sfind, h, ih]

/-- Filtering by a test on keys that `a` passes leaves what is found at `a`. -/
theorem sfind_filter_pos (m : SMap α) (p : Nat → Bool) (a : Nat) (h : p a = true) :
    sfind (m.filter fun e => p e.1) a = sfind m a := by
  induction m with
  | nil => rfl
  | cons e m ih =>
    obtain ⟨k, v⟩ := e
    by_cases hk : p k = true
    · rw [List.filter_cons_of_pos (by simpa using hk), sfind_cons, sfind_cons, ih]
    · rw [List.filter_cons_of_neg (by simpa using hk), sfind_cons, ih]
      have : a ≠ k := fun e => hk (e ▸ h)
      simp [this]

/-- Filtering by a test on keys that `a` fails leaves nothing at `a`. -/
theorem sfind_filter_neg (m : SMap α) (p : Nat → Bool) (a : Nat) (h : p a = false) :
    sfind (m.filter fun e => p e.1) a = none := by
  induction m with
  | nil => rfl
  | cons e m ih =>
    obtain ⟨k, v⟩ := e
    by_cases hk : p k = true
    · have : a ≠ k := fun e => by simp [e, hk] at h
      rw [List.filter_cons_of_pos (by simpa using hk), sfind_cons, ih]
      simp [this]
    · rw [List.filter_cons_of_neg (by simpa using hk), ih]

theorem sfind_serase_same (m : SMap α) (a : Nat) : sfind (serase m a) a = none :=
  sfind_filter_neg m (fun k => k != a) a (by simp)

theorem sfind_serase_ne (m : SMap α) (a b : Nat) (h : b ≠ a) : sfind (serase m a) b = sfind m b :=
  sfind_filter_pos m (fun k => k != a) b (by simpa using h)

theorem sfind_sinsert_same (m : SMap α) (a : Nat) (x : α) : sfind (sinsert m a x) a = some x := by
  rw [sinsert, sfind_append, sfind_filter_neg m (fun k => decide (k < a)) a (by simp)]
  simp [sfind]

theorem sfind_sinsert_ne (m : SMap α) (a b : Nat) (x : α) (h : b ≠ a) : sfind (sinsert m a x) b = sfind m b := by
  rw [sinsert, sfind_append, sfind_cons, if_neg h]
  by_cases hb : b < a
  · rw [sfind_filter_pos m (fun k => decide (k < a)) b (by simpa using hb),
      sfind_filter_neg m (fun k => decide (a < k)) b (by simp; omega)]
    simp
  · rw [sfind_filter_neg m (fun k => decide (k < a)) b (by simpa using hb),
      sfind_filter_pos m (fun k => decide (a < k)) b (by simp; omega)]
    simp

/-- A read after a write to the same key gives the value written. -/
theorem sget_sput_same [DecidableEq α] (m : SMap α) (d : α) (a : Nat) (x : α) : sget (sput m d a x) d a = x := by
  unfold sget sput
  split
  · next h => rw [sfind_serase_same]; simp [h]
  · rw [sfind_sinsert_same]; rfl

/-- A write leaves every other key as it was. -/
theorem sget_sput_ne [DecidableEq α] (m : SMap α) (d e : α) (a b : Nat) (x : α) (h : b ≠ a) :
    sget (sput m d a x) e b = sget m e b := by
  unfold sget sput
  split
  · rw [sfind_serase_ne m a b h]
  · rw [sfind_sinsert_ne m a b x h]

theorem sget_serase_same (m : SMap α) (d : α) (a : Nat) : sget (serase m a) d a = d := by
  unfold sget; rw [sfind_serase_same]; rfl

theorem sget_serase_ne (m : SMap α) (d : α) (a b : Nat) (h : b ≠ a) : sget (serase m a) d b = sget m d b := by
  unfold sget; rw [sfind_serase_ne m a b h]

/-! ### The canonical form -/

theorem swf_nil [DecidableEq α] (d : Nat → α) : swf d ([] : SMap α) := ⟨List.Pairwise.nil, by simp⟩

/-- Keeping some entries keeps the form. -/
theorem swf_filter [DecidableEq α] {d : Nat → α} {m : SMap α} (h : swf d m) (p : Nat × α → Bool) : swf d (m.filter p) :=
  ⟨h.1.filter p, fun e he => h.2 e (List.mem_filter.mp he).1⟩

theorem swf_serase [DecidableEq α] {d : Nat → α} {m : SMap α} (h : swf d m) (a : Nat) : swf d (serase m a) :=
  swf_filter h _

theorem swf_sinsert [DecidableEq α] {d : Nat → α} {m : SMap α} (h : swf d m) (a : Nat) (x : α) (hx : x ≠ d a) :
    swf d (sinsert m a x) := by
  constructor
  · refine List.pairwise_append.mpr ⟨h.1.filter _, List.pairwise_cons.mpr ⟨?_, h.1.filter _⟩, ?_⟩
    · intro e he; simpa using (List.mem_filter.mp he).2
    · intro e he f hf
      have h1 : e.1 < a := by simpa using (List.mem_filter.mp he).2
      rcases List.mem_cons.mp hf with rfl | hf
      · exact h1
      · have h2 : a < f.1 := by simpa using (List.mem_filter.mp hf).2
        omega
  · intro e he
    rcases List.mem_append.mp he with he | he
    · exact h.2 e (List.mem_filter.mp he).1
    · rcases List.mem_cons.mp he with rfl | he
      · exact hx
      · exact h.2 e (List.mem_filter.mp he).1

/-- A write keeps the canonical form. -/
theorem swf_sput [DecidableEq α] {d : Nat → α} {m : SMap α} (h : swf d m) (a : Nat) (x : α) : swf d (sput m (d a) a x) := by
  unfold sput
  split
  · exact swf_serase h a
  · next hx => exact swf_sinsert h a x hx

end Sys2Proof.Machine
end

