-- ==== Sys2Proof/Laws/State.lean ====
section
/-! SUPPORT. Laws of the register file and of the state's updates: what a register or field write leaves, and what a later read
of a register or field gives. -/

namespace Sys2Proof.Machine

/-! ### A register write changes the register file alone -/

@[simp] theorem setRegWord_variant (s : State) (k : Nat) (w : Word) : (setRegWord s k w).variant = s.variant := rfl
@[simp] theorem setRegWord_applied (s : State) (k : Nat) (w : Word) : (setRegWord s k w).applied = s.applied := rfl
@[simp] theorem setRegWord_bridge (s : State) (k : Nat) (w : Word) : (setRegWord s k w).bridge = s.bridge := rfl
@[simp] theorem setRegWord_beam (s : State) (k : Nat) (w : Word) : (setRegWord s k w).beam = s.beam := rfl
@[simp] theorem setRegWord_scene (s : State) (k : Nat) (w : Word) : (setRegWord s k w).scene = s.scene := rfl
@[simp] theorem setRegWord_comp (s : State) (k : Nat) (w : Word) : (setRegWord s k w).comp = s.comp := rfl
@[simp] theorem setRegWord_trestle (s : State) (k : Nat) (w : Word) : (setRegWord s k w).trestle = s.trestle := rfl
@[simp] theorem setRegWord_drive (s : State) (k : Nat) (w : Word) : (setRegWord s k w).drive = s.drive := rfl
@[simp] theorem setRegWord_copier (s : State) (k : Nat) (w : Word) : (setRegWord s k w).copier = s.copier := rfl
@[simp] theorem setRegWord_dram (s : State) (k : Nat) (w : Word) : (setRegWord s k w).dram = s.dram := rfl
@[simp] theorem setRegWord_perf (s : State) (k : Nat) (w : Word) : (setRegWord s k w).perf = s.perf := rfl
@[simp] theorem setRegWord_hic (s : State) (k : Nat) (w : Word) : (setRegWord s k w).hic = s.hic := rfl
@[simp] theorem setRegWord_timers (s : State) (k : Nat) (w : Word) : (setRegWord s k w).timers = s.timers := rfl
@[simp] theorem setRegWord_recorder (s : State) (k : Nat) (w : Word) : (setRegWord s k w).recorder = s.recorder := rfl
@[simp] theorem setRegWord_mem (s : State) (k : Nat) (w : Word) : (setRegWord s k w).mem = s.mem := rfl
@[simp] theorem setRegWord_cores (s : State) (k : Nat) (w : Word) : (setRegWord s k w).cores = s.cores := rfl
@[simp] theorem setRegWord_dma (s : State) (k : Nat) (w : Word) : (setRegWord s k w).dma = s.dma := rfl
@[simp] theorem setRegWord_dmaLast (s : State) (k : Nat) (w : Word) : (setRegWord s k w).dmaLast = s.dmaLast := rfl
@[simp] theorem setRegWord_weave (s : State) (k : Nat) (w : Word) : (setRegWord s k w).weave = s.weave := rfl
@[simp] theorem setRegWord_twin (s : State) (k : Nat) (w : Word) : (setRegWord s k w).twin = s.twin := rfl
@[simp] theorem setRegWord_audio (s : State) (k : Nat) (w : Word) : (setRegWord s k w).audio = s.audio := rfl
@[simp] theorem setRegWord_dresser (s : State) (k : Nat) (w : Word) : (setRegWord s k w).dresser = s.dresser := rfl
@[simp] theorem setRegWord_hutch (s : State) (k : Nat) (w : Word) : (setRegWord s k w).hutch = s.hutch := rfl
@[simp] theorem setRegWord_power (s : State) (k : Nat) (w : Word) : (setRegWord s k w).power = s.power := rfl
@[simp] theorem setRegWord_pads (s : State) (k : Nat) (w : Word) : (setRegWord s k w).pads = s.pads := rfl
@[simp] theorem setRegWord_held (s : State) (k : Nat) (w : Word) : (setRegWord s k w).held = s.held := rfl
@[simp] theorem setRegWord_area (s : State) (k : Nat) (w : Word) : (setRegWord s k w).area = s.area := rfl
@[simp] theorem setRegWord_sent (s : State) (k : Nat) (w : Word) : (setRegWord s k w).sent = s.sent := rfl
@[simp] theorem setRegWord_now (s : State) (k : Nat) (w : Word) : (setRegWord s k w).now = s.now := rfl
@[simp] theorem setRegWord_fresh (s : State) (k : Nat) (w : Word) : (setRegWord s k w).fresh = s.fresh := rfl
@[simp] theorem setRegWord_pending (s : State) (k : Nat) (w : Word) : (setRegWord s k w).pending = s.pending := rfl

@[simp] theorem setF_variant (s : State) (g : Fld) (v : Nat) : (setF s g v).variant = s.variant := rfl
@[simp] theorem setF_applied (s : State) (g : Fld) (v : Nat) : (setF s g v).applied = s.applied := rfl
@[simp] theorem setF_bridge (s : State) (g : Fld) (v : Nat) : (setF s g v).bridge = s.bridge := rfl
@[simp] theorem setF_beam (s : State) (g : Fld) (v : Nat) : (setF s g v).beam = s.beam := rfl
@[simp] theorem setF_scene (s : State) (g : Fld) (v : Nat) : (setF s g v).scene = s.scene := rfl
@[simp] theorem setF_comp (s : State) (g : Fld) (v : Nat) : (setF s g v).comp = s.comp := rfl
@[simp] theorem setF_trestle (s : State) (g : Fld) (v : Nat) : (setF s g v).trestle = s.trestle := rfl
@[simp] theorem setF_drive (s : State) (g : Fld) (v : Nat) : (setF s g v).drive = s.drive := rfl
@[simp] theorem setF_copier (s : State) (g : Fld) (v : Nat) : (setF s g v).copier = s.copier := rfl
@[simp] theorem setF_dram (s : State) (g : Fld) (v : Nat) : (setF s g v).dram = s.dram := rfl
@[simp] theorem setF_perf (s : State) (g : Fld) (v : Nat) : (setF s g v).perf = s.perf := rfl
@[simp] theorem setF_hic (s : State) (g : Fld) (v : Nat) : (setF s g v).hic = s.hic := rfl
@[simp] theorem setF_timers (s : State) (g : Fld) (v : Nat) : (setF s g v).timers = s.timers := rfl
@[simp] theorem setF_recorder (s : State) (g : Fld) (v : Nat) : (setF s g v).recorder = s.recorder := rfl
@[simp] theorem setF_mem (s : State) (g : Fld) (v : Nat) : (setF s g v).mem = s.mem := rfl
@[simp] theorem setF_cores (s : State) (g : Fld) (v : Nat) : (setF s g v).cores = s.cores := rfl
@[simp] theorem setF_dma (s : State) (g : Fld) (v : Nat) : (setF s g v).dma = s.dma := rfl
@[simp] theorem setF_dmaLast (s : State) (g : Fld) (v : Nat) : (setF s g v).dmaLast = s.dmaLast := rfl
@[simp] theorem setF_weave (s : State) (g : Fld) (v : Nat) : (setF s g v).weave = s.weave := rfl
@[simp] theorem setF_twin (s : State) (g : Fld) (v : Nat) : (setF s g v).twin = s.twin := rfl
@[simp] theorem setF_audio (s : State) (g : Fld) (v : Nat) : (setF s g v).audio = s.audio := rfl
@[simp] theorem setF_dresser (s : State) (g : Fld) (v : Nat) : (setF s g v).dresser = s.dresser := rfl
@[simp] theorem setF_hutch (s : State) (g : Fld) (v : Nat) : (setF s g v).hutch = s.hutch := rfl
@[simp] theorem setF_power (s : State) (g : Fld) (v : Nat) : (setF s g v).power = s.power := rfl
@[simp] theorem setF_pads (s : State) (g : Fld) (v : Nat) : (setF s g v).pads = s.pads := rfl
@[simp] theorem setF_held (s : State) (g : Fld) (v : Nat) : (setF s g v).held = s.held := rfl
@[simp] theorem setF_area (s : State) (g : Fld) (v : Nat) : (setF s g v).area = s.area := rfl
@[simp] theorem setF_sent (s : State) (g : Fld) (v : Nat) : (setF s g v).sent = s.sent := rfl
@[simp] theorem setF_now (s : State) (g : Fld) (v : Nat) : (setF s g v).now = s.now := rfl
@[simp] theorem setF_fresh (s : State) (g : Fld) (v : Nat) : (setF s g v).fresh = s.fresh := rfl
@[simp] theorem setF_pending (s : State) (g : Fld) (v : Nat) : (setF s g v).pending = s.pending := rfl

@[simp] theorem countF_variant (s : State) (g : Fld) (v : Nat) : (countF s g v).variant = s.variant := rfl
@[simp] theorem countF_applied (s : State) (g : Fld) (v : Nat) : (countF s g v).applied = s.applied := rfl
@[simp] theorem countF_bridge (s : State) (g : Fld) (v : Nat) : (countF s g v).bridge = s.bridge := rfl
@[simp] theorem countF_beam (s : State) (g : Fld) (v : Nat) : (countF s g v).beam = s.beam := rfl
@[simp] theorem countF_scene (s : State) (g : Fld) (v : Nat) : (countF s g v).scene = s.scene := rfl
@[simp] theorem countF_comp (s : State) (g : Fld) (v : Nat) : (countF s g v).comp = s.comp := rfl
@[simp] theorem countF_trestle (s : State) (g : Fld) (v : Nat) : (countF s g v).trestle = s.trestle := rfl
@[simp] theorem countF_drive (s : State) (g : Fld) (v : Nat) : (countF s g v).drive = s.drive := rfl
@[simp] theorem countF_copier (s : State) (g : Fld) (v : Nat) : (countF s g v).copier = s.copier := rfl
@[simp] theorem countF_dram (s : State) (g : Fld) (v : Nat) : (countF s g v).dram = s.dram := rfl
@[simp] theorem countF_perf (s : State) (g : Fld) (v : Nat) : (countF s g v).perf = s.perf := rfl
@[simp] theorem countF_hic (s : State) (g : Fld) (v : Nat) : (countF s g v).hic = s.hic := rfl
@[simp] theorem countF_timers (s : State) (g : Fld) (v : Nat) : (countF s g v).timers = s.timers := rfl
@[simp] theorem countF_recorder (s : State) (g : Fld) (v : Nat) : (countF s g v).recorder = s.recorder := rfl
@[simp] theorem countF_mem (s : State) (g : Fld) (v : Nat) : (countF s g v).mem = s.mem := rfl
@[simp] theorem countF_cores (s : State) (g : Fld) (v : Nat) : (countF s g v).cores = s.cores := rfl
@[simp] theorem countF_dma (s : State) (g : Fld) (v : Nat) : (countF s g v).dma = s.dma := rfl
@[simp] theorem countF_dmaLast (s : State) (g : Fld) (v : Nat) : (countF s g v).dmaLast = s.dmaLast := rfl
@[simp] theorem countF_weave (s : State) (g : Fld) (v : Nat) : (countF s g v).weave = s.weave := rfl
@[simp] theorem countF_twin (s : State) (g : Fld) (v : Nat) : (countF s g v).twin = s.twin := rfl
@[simp] theorem countF_audio (s : State) (g : Fld) (v : Nat) : (countF s g v).audio = s.audio := rfl
@[simp] theorem countF_dresser (s : State) (g : Fld) (v : Nat) : (countF s g v).dresser = s.dresser := rfl
@[simp] theorem countF_hutch (s : State) (g : Fld) (v : Nat) : (countF s g v).hutch = s.hutch := rfl
@[simp] theorem countF_power (s : State) (g : Fld) (v : Nat) : (countF s g v).power = s.power := rfl
@[simp] theorem countF_pads (s : State) (g : Fld) (v : Nat) : (countF s g v).pads = s.pads := rfl
@[simp] theorem countF_held (s : State) (g : Fld) (v : Nat) : (countF s g v).held = s.held := rfl
@[simp] theorem countF_area (s : State) (g : Fld) (v : Nat) : (countF s g v).area = s.area := rfl
@[simp] theorem countF_sent (s : State) (g : Fld) (v : Nat) : (countF s g v).sent = s.sent := rfl
@[simp] theorem countF_now (s : State) (g : Fld) (v : Nat) : (countF s g v).now = s.now := rfl
@[simp] theorem countF_fresh (s : State) (g : Fld) (v : Nat) : (countF s g v).fresh = s.fresh := rfl
@[simp] theorem countF_pending (s : State) (g : Fld) (v : Nat) : (countF s g v).pending = s.pending := rfl

@[simp] theorem orF_variant (s : State) (g : Fld) (v : Nat) : (orF s g v).variant = s.variant := rfl
@[simp] theorem orF_applied (s : State) (g : Fld) (v : Nat) : (orF s g v).applied = s.applied := rfl
@[simp] theorem orF_bridge (s : State) (g : Fld) (v : Nat) : (orF s g v).bridge = s.bridge := rfl
@[simp] theorem orF_beam (s : State) (g : Fld) (v : Nat) : (orF s g v).beam = s.beam := rfl
@[simp] theorem orF_scene (s : State) (g : Fld) (v : Nat) : (orF s g v).scene = s.scene := rfl
@[simp] theorem orF_comp (s : State) (g : Fld) (v : Nat) : (orF s g v).comp = s.comp := rfl
@[simp] theorem orF_trestle (s : State) (g : Fld) (v : Nat) : (orF s g v).trestle = s.trestle := rfl
@[simp] theorem orF_drive (s : State) (g : Fld) (v : Nat) : (orF s g v).drive = s.drive := rfl
@[simp] theorem orF_copier (s : State) (g : Fld) (v : Nat) : (orF s g v).copier = s.copier := rfl
@[simp] theorem orF_dram (s : State) (g : Fld) (v : Nat) : (orF s g v).dram = s.dram := rfl
@[simp] theorem orF_perf (s : State) (g : Fld) (v : Nat) : (orF s g v).perf = s.perf := rfl
@[simp] theorem orF_hic (s : State) (g : Fld) (v : Nat) : (orF s g v).hic = s.hic := rfl
@[simp] theorem orF_timers (s : State) (g : Fld) (v : Nat) : (orF s g v).timers = s.timers := rfl
@[simp] theorem orF_recorder (s : State) (g : Fld) (v : Nat) : (orF s g v).recorder = s.recorder := rfl
@[simp] theorem orF_mem (s : State) (g : Fld) (v : Nat) : (orF s g v).mem = s.mem := rfl
@[simp] theorem orF_cores (s : State) (g : Fld) (v : Nat) : (orF s g v).cores = s.cores := rfl
@[simp] theorem orF_dma (s : State) (g : Fld) (v : Nat) : (orF s g v).dma = s.dma := rfl
@[simp] theorem orF_dmaLast (s : State) (g : Fld) (v : Nat) : (orF s g v).dmaLast = s.dmaLast := rfl
@[simp] theorem orF_weave (s : State) (g : Fld) (v : Nat) : (orF s g v).weave = s.weave := rfl
@[simp] theorem orF_twin (s : State) (g : Fld) (v : Nat) : (orF s g v).twin = s.twin := rfl
@[simp] theorem orF_audio (s : State) (g : Fld) (v : Nat) : (orF s g v).audio = s.audio := rfl
@[simp] theorem orF_dresser (s : State) (g : Fld) (v : Nat) : (orF s g v).dresser = s.dresser := rfl
@[simp] theorem orF_hutch (s : State) (g : Fld) (v : Nat) : (orF s g v).hutch = s.hutch := rfl
@[simp] theorem orF_power (s : State) (g : Fld) (v : Nat) : (orF s g v).power = s.power := rfl
@[simp] theorem orF_pads (s : State) (g : Fld) (v : Nat) : (orF s g v).pads = s.pads := rfl
@[simp] theorem orF_held (s : State) (g : Fld) (v : Nat) : (orF s g v).held = s.held := rfl
@[simp] theorem orF_area (s : State) (g : Fld) (v : Nat) : (orF s g v).area = s.area := rfl
@[simp] theorem orF_sent (s : State) (g : Fld) (v : Nat) : (orF s g v).sent = s.sent := rfl
@[simp] theorem orF_now (s : State) (g : Fld) (v : Nat) : (orF s g v).now = s.now := rfl
@[simp] theorem orF_fresh (s : State) (g : Fld) (v : Nat) : (orF s g v).fresh = s.fresh := rfl
@[simp] theorem orF_pending (s : State) (g : Fld) (v : Nat) : (orF s g v).pending = s.pending := rfl

@[simp] theorem resetReg_variant (s : State) (k : Nat) : (resetReg s k).variant = s.variant := rfl
@[simp] theorem resetReg_applied (s : State) (k : Nat) : (resetReg s k).applied = s.applied := rfl
@[simp] theorem resetReg_bridge (s : State) (k : Nat) : (resetReg s k).bridge = s.bridge := rfl
@[simp] theorem resetReg_beam (s : State) (k : Nat) : (resetReg s k).beam = s.beam := rfl
@[simp] theorem resetReg_scene (s : State) (k : Nat) : (resetReg s k).scene = s.scene := rfl
@[simp] theorem resetReg_comp (s : State) (k : Nat) : (resetReg s k).comp = s.comp := rfl
@[simp] theorem resetReg_trestle (s : State) (k : Nat) : (resetReg s k).trestle = s.trestle := rfl
@[simp] theorem resetReg_drive (s : State) (k : Nat) : (resetReg s k).drive = s.drive := rfl
@[simp] theorem resetReg_copier (s : State) (k : Nat) : (resetReg s k).copier = s.copier := rfl
@[simp] theorem resetReg_dram (s : State) (k : Nat) : (resetReg s k).dram = s.dram := rfl
@[simp] theorem resetReg_perf (s : State) (k : Nat) : (resetReg s k).perf = s.perf := rfl
@[simp] theorem resetReg_hic (s : State) (k : Nat) : (resetReg s k).hic = s.hic := rfl
@[simp] theorem resetReg_timers (s : State) (k : Nat) : (resetReg s k).timers = s.timers := rfl
@[simp] theorem resetReg_recorder (s : State) (k : Nat) : (resetReg s k).recorder = s.recorder := rfl
@[simp] theorem resetReg_mem (s : State) (k : Nat) : (resetReg s k).mem = s.mem := rfl
@[simp] theorem resetReg_cores (s : State) (k : Nat) : (resetReg s k).cores = s.cores := rfl
@[simp] theorem resetReg_dma (s : State) (k : Nat) : (resetReg s k).dma = s.dma := rfl
@[simp] theorem resetReg_dmaLast (s : State) (k : Nat) : (resetReg s k).dmaLast = s.dmaLast := rfl
@[simp] theorem resetReg_weave (s : State) (k : Nat) : (resetReg s k).weave = s.weave := rfl
@[simp] theorem resetReg_twin (s : State) (k : Nat) : (resetReg s k).twin = s.twin := rfl
@[simp] theorem resetReg_audio (s : State) (k : Nat) : (resetReg s k).audio = s.audio := rfl
@[simp] theorem resetReg_dresser (s : State) (k : Nat) : (resetReg s k).dresser = s.dresser := rfl
@[simp] theorem resetReg_hutch (s : State) (k : Nat) : (resetReg s k).hutch = s.hutch := rfl
@[simp] theorem resetReg_power (s : State) (k : Nat) : (resetReg s k).power = s.power := rfl
@[simp] theorem resetReg_pads (s : State) (k : Nat) : (resetReg s k).pads = s.pads := rfl
@[simp] theorem resetReg_held (s : State) (k : Nat) : (resetReg s k).held = s.held := rfl
@[simp] theorem resetReg_area (s : State) (k : Nat) : (resetReg s k).area = s.area := rfl
@[simp] theorem resetReg_sent (s : State) (k : Nat) : (resetReg s k).sent = s.sent := rfl
@[simp] theorem resetReg_now (s : State) (k : Nat) : (resetReg s k).now = s.now := rfl
@[simp] theorem resetReg_fresh (s : State) (k : Nat) : (resetReg s k).fresh = s.fresh := rfl
@[simp] theorem resetReg_pending (s : State) (k : Nat) : (resetReg s k).pending = s.pending := rfl

/-! ### An update of another part leaves the registers -/

@[simp] theorem regWord_with_variant (s : State) (x : Variant) (k : Nat) : regWord { s with variant := x } k = regWord s k := rfl
@[simp] theorem getF_with_variant (s : State) (x : Variant) (g : Fld) : getF { s with variant := x } g = getF s g := rfl
@[simp] theorem regWord_with_applied (s : State) (x : SMap Word) (k : Nat) : regWord { s with applied := x } k = regWord s k := rfl
@[simp] theorem getF_with_applied (s : State) (x : SMap Word) (g : Fld) : getF { s with applied := x } g = getF s g := rfl
@[simp] theorem regWord_with_bridge (s : State) (x : Bridge) (k : Nat) : regWord { s with bridge := x } k = regWord s k := rfl
@[simp] theorem getF_with_bridge (s : State) (x : Bridge) (g : Fld) : getF { s with bridge := x } g = getF s g := rfl
@[simp] theorem regWord_with_beam (s : State) (x : Beam) (k : Nat) : regWord { s with beam := x } k = regWord s k := rfl
@[simp] theorem getF_with_beam (s : State) (x : Beam) (g : Fld) : getF { s with beam := x } g = getF s g := rfl
@[simp] theorem regWord_with_scene (s : State) (x : Scene) (k : Nat) : regWord { s with scene := x } k = regWord s k := rfl
@[simp] theorem getF_with_scene (s : State) (x : Scene) (g : Fld) : getF { s with scene := x } g = getF s g := rfl
@[simp] theorem regWord_with_comp (s : State) (x : Composition) (k : Nat) : regWord { s with comp := x } k = regWord s k := rfl
@[simp] theorem getF_with_comp (s : State) (x : Composition) (g : Fld) : getF { s with comp := x } g = getF s g := rfl
@[simp] theorem regWord_with_trestle (s : State) (x : Trestle) (k : Nat) : regWord { s with trestle := x } k = regWord s k := rfl
@[simp] theorem getF_with_trestle (s : State) (x : Trestle) (g : Fld) : getF { s with trestle := x } g = getF s g := rfl
@[simp] theorem regWord_with_drive (s : State) (x : Drive) (k : Nat) : regWord { s with drive := x } k = regWord s k := rfl
@[simp] theorem getF_with_drive (s : State) (x : Drive) (g : Fld) : getF { s with drive := x } g = getF s g := rfl
@[simp] theorem regWord_with_copier (s : State) (x : Option CopyOp) (k : Nat) : regWord { s with copier := x } k = regWord s k := rfl
@[simp] theorem getF_with_copier (s : State) (x : Option CopyOp) (g : Fld) : getF { s with copier := x } g = getF s g := rfl
@[simp] theorem regWord_with_dram (s : State) (x : Dram) (k : Nat) : regWord { s with dram := x } k = regWord s k := rfl
@[simp] theorem getF_with_dram (s : State) (x : Dram) (g : Fld) : getF { s with dram := x } g = getF s g := rfl
@[simp] theorem regWord_with_perf (s : State) (x : PerfCounts) (k : Nat) : regWord { s with perf := x } k = regWord s k := rfl
@[simp] theorem getF_with_perf (s : State) (x : PerfCounts) (g : Fld) : getF { s with perf := x } g = getF s g := rfl
@[simp] theorem regWord_with_hic (s : State) (x : Hic) (k : Nat) : regWord { s with hic := x } k = regWord s k := rfl
@[simp] theorem getF_with_hic (s : State) (x : Hic) (g : Fld) : getF { s with hic := x } g = getF s g := rfl
@[simp] theorem regWord_with_timers (s : State) (x : Vector Nat 8) (k : Nat) : regWord { s with timers := x } k = regWord s k := rfl
@[simp] theorem getF_with_timers (s : State) (x : Vector Nat 8) (g : Fld) : getF { s with timers := x } g = getF s g := rfl
@[simp] theorem regWord_with_recorder (s : State) (x : Recorder) (k : Nat) : regWord { s with recorder := x } k = regWord s k := rfl
@[simp] theorem getF_with_recorder (s : State) (x : Recorder) (g : Fld) : getF { s with recorder := x } g = getF s g := rfl
@[simp] theorem regWord_with_mem (s : State) (x : Memory) (k : Nat) : regWord { s with mem := x } k = regWord s k := rfl
@[simp] theorem getF_with_mem (s : State) (x : Memory) (g : Fld) : getF { s with mem := x } g = getF s g := rfl
@[simp] theorem regWord_with_cores (s : State) (x : Vector Core 4) (k : Nat) : regWord { s with cores := x } k = regWord s k := rfl
@[simp] theorem getF_with_cores (s : State) (x : Vector Core 4) (g : Fld) : getF { s with cores := x } g = getF s g := rfl
@[simp] theorem regWord_with_dma (s : State) (x : Vector DmaCh 32) (k : Nat) : regWord { s with dma := x } k = regWord s k := rfl
@[simp] theorem getF_with_dma (s : State) (x : Vector DmaCh 32) (g : Fld) : getF { s with dma := x } g = getF s g := rfl
@[simp] theorem regWord_with_dmaLast (s : State) (x : Vector Nat 4) (k : Nat) : regWord { s with dmaLast := x } k = regWord s k := rfl
@[simp] theorem getF_with_dmaLast (s : State) (x : Vector Nat 4) (g : Fld) : getF { s with dmaLast := x } g = getF s g := rfl
@[simp] theorem regWord_with_weave (s : State) (x : Weave) (k : Nat) : regWord { s with weave := x } k = regWord s k := rfl
@[simp] theorem getF_with_weave (s : State) (x : Weave) (g : Fld) : getF { s with weave := x } g = getF s g := rfl
@[simp] theorem regWord_with_twin (s : State) (x : Twin) (k : Nat) : regWord { s with twin := x } k = regWord s k := rfl
@[simp] theorem getF_with_twin (s : State) (x : Twin) (g : Fld) : getF { s with twin := x } g = getF s g := rfl
@[simp] theorem regWord_with_audio (s : State) (x : Audio) (k : Nat) : regWord { s with audio := x } k = regWord s k := rfl
@[simp] theorem getF_with_audio (s : State) (x : Audio) (g : Fld) : getF { s with audio := x } g = getF s g := rfl
@[simp] theorem regWord_with_dresser (s : State) (x : Dresser) (k : Nat) : regWord { s with dresser := x } k = regWord s k := rfl
@[simp] theorem getF_with_dresser (s : State) (x : Dresser) (g : Fld) : getF { s with dresser := x } g = getF s g := rfl
@[simp] theorem regWord_with_hutch (s : State) (x : Hutch) (k : Nat) : regWord { s with hutch := x } k = regWord s k := rfl
@[simp] theorem getF_with_hutch (s : State) (x : Hutch) (g : Fld) : getF { s with hutch := x } g = getF s g := rfl
@[simp] theorem regWord_with_power (s : State) (x : Power) (k : Nat) : regWord { s with power := x } k = regWord s k := rfl
@[simp] theorem getF_with_power (s : State) (x : Power) (g : Fld) : getF { s with power := x } g = getF s g := rfl
@[simp] theorem regWord_with_pads (s : State) (x : Pads) (k : Nat) : regWord { s with pads := x } k = regWord s k := rfl
@[simp] theorem getF_with_pads (s : State) (x : Pads) (g : Fld) : getF { s with pads := x } g = getF s g := rfl
@[simp] theorem regWord_with_held (s : State) (x : List Msg) (k : Nat) : regWord { s with held := x } k = regWord s k := rfl
@[simp] theorem getF_with_held (s : State) (x : List Msg) (g : Fld) : getF { s with held := x } g = getF s g := rfl
@[simp] theorem regWord_with_area (s : State) (x : Option Area) (k : Nat) : regWord { s with area := x } k = regWord s k := rfl
@[simp] theorem getF_with_area (s : State) (x : Option Area) (g : Fld) : getF { s with area := x } g = getF s g := rfl
@[simp] theorem regWord_with_sent (s : State) (x : List Sent) (k : Nat) : regWord { s with sent := x } k = regWord s k := rfl
@[simp] theorem getF_with_sent (s : State) (x : List Sent) (g : Fld) : getF { s with sent := x } g = getF s g := rfl
@[simp] theorem regWord_with_now (s : State) (x : Nat) (k : Nat) : regWord { s with now := x } k = regWord s k := rfl
@[simp] theorem getF_with_now (s : State) (x : Nat) (g : Fld) : getF { s with now := x } g = getF s g := rfl
@[simp] theorem regWord_with_fresh (s : State) (x : Nat) (k : Nat) : regWord { s with fresh := x } k = regWord s k := rfl
@[simp] theorem getF_with_fresh (s : State) (x : Nat) (g : Fld) : getF { s with fresh := x } g = getF s g := rfl
@[simp] theorem regWord_with_pending (s : State) (x : List Instr) (k : Nat) : regWord { s with pending := x } k = regWord s k := rfl
@[simp] theorem getF_with_pending (s : State) (x : List Instr) (g : Fld) : getF { s with pending := x } g = getF s g := rfl

/-! ### Reads after writes -/

/-- A register reads as what was last stored in it. -/
@[simp] theorem regWord_setRegWord_same (s : State) (k : Nat) (w : Word) : regWord (setRegWord s k w) k = w :=
  sget_sput_same s.regs (regDefault k) k w

/-- Storing a register leaves every other one. -/
theorem regWord_setRegWord_ne (s : State) (k k' : Nat) (w : Word) (h : k' ≠ k) : regWord (setRegWord s k w) k' = regWord s k' :=
  sget_sput_ne s.regs (regDefault k) (regDefault k') k k' w h

/-- A register that is reset reads its reset value. -/
@[simp] theorem regWord_resetReg_same (s : State) (k : Nat) : regWord (resetReg s k) k = regDefault k :=
  sget_serase_same s.regs (regDefault k) k

theorem regWord_resetReg_ne (s : State) (k k' : Nat) (h : k' ≠ k) : regWord (resetReg s k) k' = regWord s k' :=
  sget_serase_ne s.regs (regDefault k') k k' h

/-- A field whose bits lie in a register word. -/
abbrev Fld.fits (g : Fld) : Prop := g.lo ≤ g.hi ∧ g.hi < 32

/-- Two fields without a common bit. -/
abbrev Fld.apart (f g : Fld) : Prop := g.addr ≠ f.addr ∨ f.hi < g.lo ∨ g.hi < f.lo

/-- A field reads as what was last put in it, cut to its width. -/
theorem getF_setF_same (s : State) (f : Fld) (v : Nat) (h : f.fits) : getF (setF s f v) f = v % 2 ^ (f.hi + 1 - f.lo) := by
  unfold getF setF
  rw [regWord_setRegWord_same, bitsOf_putBits_same _ _ _ _ h.1 h.2]

/-- Putting a field leaves every field apart from it. -/
theorem getF_setF_ne (s : State) (f g : Fld) (v : Nat) (hf : f.fits) (hg : g.fits) (h : f.apart g) :
    getF (setF s f v) g = getF s g := by
  unfold getF setF
  by_cases ha : g.addr = f.addr
  · rw [ha, regWord_setRegWord_same, bitsOf_putBits_ne _ _ _ _ _ _ hf.1 hf.2 hg.1 hg.2 (h.resolve_left (fun n => n ha))]
  · rw [regWord_setRegWord_ne _ _ _ _ ha]

/-- Putting a field leaves every other register. -/
theorem regWord_setF_ne (s : State) (f : Fld) (v k : Nat) (h : k ≠ f.addr) : regWord (setF s f v) k = regWord s k :=
  regWord_setRegWord_ne s _ _ _ h

/-- A field is below the power of two of its width. -/
theorem getF_lt (s : State) (f : Fld) (h : f.fits) : getF s f < 2 ^ (f.hi + 1 - f.lo) := bitsOf_lt _ _ _ h.1 h.2

/-- A count field after a count: the sum, held at its greatest value (R17 and the count fields of the tables). -/
theorem getF_countF_same (s : State) (f : Fld) (n : Nat) (h : f.fits) :
    getF (countF s f n) f = min (getF s f + n) (2 ^ (f.hi + 1 - f.lo) - 1) := by
  unfold countF
  rw [getF_setF_same s f _ h]
  unfold satAdd Fld.width
  have : 0 < 2 ^ (f.hi + 1 - f.lo) := Nat.two_pow_pos _
  exact Nat.mod_eq_of_lt (by omega)

theorem getF_countF_ne (s : State) (f g : Fld) (n : Nat) (hf : f.fits) (hg : g.fits) (h : f.apart g) :
    getF (countF s f n) g = getF s g := getF_setF_ne s f g _ hf hg h

theorem getF_orF_ne (s : State) (f g : Fld) (n : Nat) (hf : f.fits) (hg : g.fits) (h : f.apart g) :
    getF (orF s f n) g = getF s g := getF_setF_ne s f g _ hf hg h

/-- Bits set in a field that fit it. -/
theorem getF_orF_same (s : State) (f : Fld) (n : Nat) (h : f.fits) (hn : n < 2 ^ (f.hi + 1 - f.lo)) :
    getF (orF s f n) f = getF s f ||| n := by
  unfold orF
  rw [getF_setF_same s f _ h]
  exact Nat.mod_eq_of_lt (Nat.or_lt_two_pow (getF_lt s f h) hn)

/-! ### The canonical form of the register file -/

theorem swf_setRegWord {s : State} (h : swf regDefault s.regs) (k : Nat) (w : Word) : swf regDefault (setRegWord s k w).regs :=
  swf_sput h k w

theorem swf_setF {s : State} (h : swf regDefault s.regs) (f : Fld) (v : Nat) : swf regDefault (setF s f v).regs :=
  swf_setRegWord h _ _

end Sys2Proof.Machine
end

