-- ==== Sys2Proof/Laws/Kept.lean ====
section
/-! SUPPORT. What no command changes or breaks: the variant, the queue, and the canonical form of the register file and of the
memories. The lemmas that follow this file say it of every operation, in the form that chains. -/

namespace Sys2Proof.Machine

/-- From `s` to `t` the variant and the queue stay, and the canonical forms are kept. -/
structure Kept (s t : State) : Prop where
  variant : t.variant = s.variant
  pending : t.pending = s.pending
  wf : s.wf → t.wf

theorem Kept.refl (s : State) : Kept s s := ⟨rfl, rfl, id⟩

theorem Kept.trans {a b c : State} (h : Kept a b) (k : Kept b c) : Kept a c :=
  ⟨k.variant.trans h.variant, k.pending.trans h.pending, k.wf ∘ h.wf⟩

/-- What `Kept s₀` asks of the parts of a state. -/
def Parts (s₀ : State) (variant : Variant) (pending : List Instr) (regs : SMap Word) (mem : Memory) (dram : Dram) : Prop :=
  variant = s₀.variant ∧ pending = s₀.pending ∧ (s₀.wf → swf regDefault regs ∧ mem.wf ∧ dram.wf)

theorem kept_mk {s₀ : State} {variant regs applied bridge beam scene comp trestle drive copier dram perf hic timers recorder mem
    cores dma dmaLast weave twin audio dresser hutch power pads held area sent now fresh pending} :
    Kept s₀ { variant, regs, applied, bridge, beam, scene, comp, trestle, drive, copier, dram, perf, hic, timers, recorder, mem,
              cores, dma, dmaLast, weave, twin, audio, dresser, hutch, power, pads, held, area, sent, now, fresh, pending } ↔
      Parts s₀ variant pending regs mem dram :=
  ⟨fun h => ⟨h.variant, h.pending, h.wf⟩, fun h => ⟨h.1, h.2.1, h.2.2⟩⟩

/-- An update of other parts. -/
theorem Parts.of {s₀ s : State} (h : Kept s₀ s) : Parts s₀ s.variant s.pending s.regs s.mem s.dram :=
  ⟨h.variant, h.pending, h.wf⟩

/-- An update of the register file. -/
theorem Parts.ofRegs {s₀ s : State} (h : Kept s₀ s) {r : SMap Word} (hr : swf regDefault s.regs → swf regDefault r) :
    Parts s₀ s.variant s.pending r s.mem s.dram :=
  ⟨h.variant, h.pending, fun w => ⟨hr (h.wf w).1, (h.wf w).2⟩⟩

/-- An update of the house die's memories. -/
theorem Parts.ofMem {s₀ s : State} (h : Kept s₀ s) {m : Memory} (hm : s.mem.wf → m.wf) :
    Parts s₀ s.variant s.pending s.regs m s.dram :=
  ⟨h.variant, h.pending, fun w => ⟨(h.wf w).1, hm (h.wf w).2.1, (h.wf w).2.2⟩⟩

/-- An update of DRAM. -/
theorem Parts.ofDram {s₀ s : State} (h : Kept s₀ s) {d : Dram} (hd : s.dram.wf → d.wf) :
    Parts s₀ s.variant s.pending s.regs s.mem d :=
  ⟨h.variant, h.pending, fun w => ⟨(h.wf w).1, (h.wf w).2.1, hd (h.wf w).2.2⟩⟩

theorem Kept.foldl {s₀ s : State} {α : Type} (h : Kept s₀ s) (l : List α) (f : State → α → State)
    (hf : ∀ t x, Kept s₀ t → Kept s₀ (f t x)) : Kept s₀ (l.foldl f s) := by
  induction l generalizing s with
  | nil => exact h
  | cons x l ih => exact ih (hf s x h)

theorem Kept.foldl_fst {s₀ : State} {α β : Type} (l : List α) (f : State × β → α → State × β) {p : State × β}
    (h : Kept s₀ p.1) (hf : ∀ p x, Kept s₀ p.1 → Kept s₀ (f p x).1) : Kept s₀ (l.foldl f p).1 := by
  induction l generalizing p with
  | nil => exact h
  | cons x l ih => exact ih (hf p x h)

theorem setRegWord_kept {s₀ s : State} (h : Kept s₀ s) (k : Nat) (w : Word) : Kept s₀ (setRegWord s k w) :=
  ⟨h.variant, h.pending, fun x => ⟨swf_setRegWord (h.wf x).1 k w, (h.wf x).2⟩⟩

theorem setF_kept {s₀ s : State} (h : Kept s₀ s) (f : Fld) (v : Nat) : Kept s₀ (setF s f v) := setRegWord_kept h _ _

theorem resetReg_kept {s₀ s : State} (h : Kept s₀ s) (k : Nat) : Kept s₀ (resetReg s k) :=
  ⟨h.variant, h.pending, fun x => ⟨swf_serase (h.wf x).1 k, (h.wf x).2⟩⟩

/-- What a command's meaning keeps. -/
def OutKept (s₀ : State) (o : Host.Outcome State Fault Refusal) : Prop := ∀ t, o = .next t → Kept s₀ t

theorem next_kept {s₀ t : State} (h : Kept s₀ t) : OutKept s₀ (.next t) := fun _ e => by cases e; exact h

/-- What an operation keeps that may do nothing. -/
def OptKept (s₀ : State) (o : Option State) : Prop := ∀ t, o = some t → Kept s₀ t

theorem some_kept {s₀ t : State} (h : Kept s₀ t) : OptKept s₀ (some t) := fun _ e => by cases e; exact h

theorem none_kept {s₀ : State} : OptKept s₀ none := fun _ e => nomatch e

end Sys2Proof.Machine
end

