-- ==== Sys2Proof/Laws/KeptBlocks.lean ====
section
/-! SUPPORT. What is kept (`Kept`): the bridge, the recorder, the memories, the host interrupt controller, scene and commit. -/

namespace Sys2Proof.Machine

/-! ### Regs -/

theorem countWrapF_kept {s₀ s : State} (h : Kept s₀ s) (f n) :
    Kept s₀ (countWrapF s f n) := by
  unfold countWrapF
  try dsimp only
  repeat' first
      | with_reducible assumption | with_reducible apply setF_kept

theorem countF_kept {s₀ s : State} (h : Kept s₀ s) (f n) :
    Kept s₀ (countF s f n) := by
  unfold countF
  try dsimp only
  repeat' first
      | with_reducible assumption | with_reducible apply setF_kept

theorem countReserved_kept {s₀ s : State} (h : Kept s₀ s) :
    Kept s₀ (countReserved s) := by
  unfold countReserved
  try dsimp only
  repeat' first
      | with_reducible assumption | with_reducible apply countF_kept | with_reducible apply setF_kept | split

theorem writeFields_kept {s₀ s : State} (h : Kept s₀ s) (r idx key w) :
    Kept s₀ (writeFields s r idx key w) := by
  unfold writeFields
  try dsimp only
  repeat' first
      | with_reducible assumption | with_reducible apply countReserved_kept | with_reducible apply setRegWord_kept | split

theorem orF_kept {s₀ s : State} (h : Kept s₀ s) (f bits) :
    Kept s₀ (orF s f bits) := by
  unfold orF
  try dsimp only
  repeat' first
      | with_reducible assumption | with_reducible apply setF_kept

/-! ### Ops -/

theorem startTransition_kept {s₀ s : State} (h : Kept s₀ s) (r) :
    Kept s₀ (startTransition s r) := by
  unfold startTransition
  try dsimp only
  repeat' first
      | with_reducible assumption | with_reducible apply setF_kept | (simp only [kept_mk]; with_reducible apply Parts.of)

theorem wakeFromHibernate_kept {s₀ s : State} (h : Kept s₀ s) (w) :
    Kept s₀ (wakeFromHibernate s w) := by
  unfold wakeFromHibernate
  try dsimp only
  repeat' first
      | with_reducible assumption | with_reducible apply setF_kept | with_reducible apply startTransition_kept

theorem noteWake_kept {s₀ s : State} (h : Kept s₀ s) (w) :
    Kept s₀ (noteWake s w) := by
  unfold noteWake
  try dsimp only
  repeat' first
      | with_reducible assumption | with_reducible apply wakeFromHibernate_kept
      | (simp only [kept_mk]; with_reducible apply Parts.of) | split

theorem latchWake_kept {s₀ s : State} (h : Kept s₀ s) (w) :
    Kept s₀ (latchWake s w) := by
  unfold latchWake
  try dsimp only
  repeat' first
      | with_reducible assumption | with_reducible apply orF_kept | split

theorem drainToHouse_kept {s₀ s : State} (h : Kept s₀ s) :
    Kept s₀ (drainToHouse s) := by
  unfold drainToHouse
  try dsimp only
  repeat' first
      | with_reducible assumption | (simp only [kept_mk]; with_reducible apply Parts.of) | split

theorem sendToHouse_kept {s₀ s : State} (h : Kept s₀ s) (m) :
    Kept s₀ (sendToHouse s m) := by
  unfold sendToHouse
  try dsimp only
  repeat' first
      | with_reducible assumption | with_reducible apply drainToHouse_kept
      | (simp only [kept_mk]; with_reducible apply Parts.of)

theorem pulse_kept {s₀ s : State} (h : Kept s₀ s) (n) :
    Kept s₀ (pulse s n) := by
  unfold pulse
  try dsimp only
  repeat' first
      | with_reducible assumption | with_reducible apply latchWake_kept | with_reducible apply noteWake_kept
      | with_reducible apply sendToHouse_kept | (simp only [kept_mk]; with_reducible apply Parts.of) | split

theorem raiseBits_kept {s₀ s : State} (h : Kept s₀ s) (n f bits) :
    Kept s₀ (raiseBits s n f bits) := by
  unfold raiseBits
  try dsimp only
  repeat' first
      | with_reducible assumption | with_reducible apply orF_kept | with_reducible apply pulse_kept | split

theorem raiseEvent_kept {s₀ s : State} (h : Kept s₀ s) (n f) :
    Kept s₀ (raiseEvent s n f) := by
  unfold raiseEvent
  try dsimp only
  repeat' first
      | with_reducible assumption | with_reducible apply raiseBits_kept

theorem recordScan_kept {s₀ s : State} (h : Kept s₀ s) (cls code p0 p1 p2 p3) :
    Kept s₀ (recordScan s cls code p0 p1 p2 p3) := by
  unfold recordScan
  try dsimp only
  repeat' first
      | with_reducible assumption | with_reducible apply sendToHouse_kept | (simp only [kept_mk]; with_reducible apply Parts.of)
      | split

theorem noteScanUE_kept {s₀ s : State} (h : Kept s₀ s) (addr macroNo req) :
    Kept s₀ (noteScanUE s addr macroNo req) := by
  unfold noteScanUE
  try dsimp only
  repeat' first
      | with_reducible assumption | with_reducible apply countF_kept | with_reducible apply raiseEvent_kept
      | with_reducible apply recordScan_kept | with_reducible apply setF_kept
      | (simp only [kept_mk]; with_reducible apply Parts.of) | (simp only [kept_mk]; refine Parts.ofDram ?_ (fun h => h))
      | split

theorem countCorrection_kept {s₀ s : State} (h : Kept s₀ s) (m row) :
    Kept s₀ (countCorrection s m row).1 := by
  unfold countCorrection
  simp only [kept_mk]
  exact Parts.ofMem h fun w => ⟨w.1, w.2.1, w.2.2.1, w.2.2.2.1, swf_sput (d := fun _ => 0) w.2.2.2.2 (m * 65536 + row % 65536)
    (sget s.mem.corrections 0 (m * 65536 + row % 65536) + 1)⟩

theorem setUnit_kept {s₀ s : State} (h : Kept s₀ s) (u x) :
    Kept s₀ (setUnit s u x) := by
  unfold setUnit
  simp only [kept_mk]
  exact Parts.ofDram h fun w => ⟨w.1, swf_sput w.2 u x⟩

theorem setDramByte_kept {s₀ s : State} (h : Kept s₀ s) (a b) :
    Kept s₀ (setDramByte s a b) := by
  unfold setDramByte
  simp only [kept_mk]
  exact Parts.ofDram h fun w => ⟨swf_sput w.1 a b, w.2⟩

theorem setDramBytes_kept {s₀ s : State} (h : Kept s₀ s) (a x2) :
    Kept s₀ (setDramBytes s a x2) := by
  induction x2 generalizing s a with
  | nil =>
    unfold setDramBytes
    try dsimp only
    repeat' first
        | with_reducible assumption
  | cons e l ih =>
    unfold setDramBytes
    try dsimp only
    repeat' first
        | with_reducible assumption | with_reducible apply ih | with_reducible apply setDramByte_kept

theorem materialize_kept {s₀ s : State} (h : Kept s₀ s) (u) :
    Kept s₀ (materialize s u) := by
  unfold materialize
  try dsimp only
  repeat' first
      | with_reducible assumption | with_reducible apply setDramBytes_kept

theorem noteDramUE_kept {s₀ s : State} (h : Kept s₀ s) (u req) :
    Kept s₀ (noteDramUE s u req) := by
  unfold noteDramUE
  try dsimp only
  repeat' first
      | with_reducible assumption | with_reducible apply noteScanUE_kept

theorem perfAdd_kept {s₀ s : State} (h : Kept s₀ s) (event k n) :
    Kept s₀ (perfAdd s event k n) := by
  unfold perfAdd
  try dsimp only
  repeat' first
      | with_reducible assumption | with_reducible apply setF_kept | (simp only [kept_mk]; with_reducible apply Parts.of)
      | split

theorem perfCount_kept {s₀ s : State} (h : Kept s₀ s) (event k) :
    Kept s₀ (perfCount s event k) := by
  unfold perfCount
  try dsimp only
  repeat' first
      | with_reducible assumption | with_reducible apply perfAdd_kept
      | (with_reducible apply Kept.foldl; rotate_left 1; intro _ _ _; rotate_left 1)

theorem noteScanCE_kept {s₀ s : State} (h : Kept s₀ s) :
    Kept s₀ (noteScanCE s) := by
  unfold noteScanCE
  try dsimp only
  repeat' first
      | with_reducible assumption | with_reducible apply countF_kept | with_reducible apply raiseEvent_kept

theorem touchUnit_kept {s₀ s : State} (h : Kept s₀ s) (u req) :
    Kept s₀ (touchUnit s u req) := by
  unfold touchUnit
  try dsimp only
  repeat' first
      | with_reducible assumption | with_reducible apply noteDramUE_kept | with_reducible apply noteScanCE_kept
      | with_reducible apply perfCount_kept | with_reducible apply setUnit_kept | split

theorem writeUnit_kept {s₀ s : State} (h : Kept s₀ s) (req a bs) :
    Kept s₀ (writeUnit s req a bs) := by
  unfold writeUnit
  try dsimp only
  repeat' first
      | with_reducible assumption | with_reducible apply materialize_kept | with_reducible apply noteDramUE_kept
      | with_reducible apply perfCount_kept | with_reducible apply setDramBytes_kept | with_reducible apply setUnit_kept
      | with_reducible apply touchUnit_kept | split

theorem writeExtentFuel_kept {s₀ s : State} (h : Kept s₀ s) (req x2 x3 x4) :
    Kept s₀ (writeExtentFuel s req x2 x3 x4) := by
  induction x2 generalizing s req x3 x4 with
  | zero =>
    unfold writeExtentFuel
    try dsimp only
    repeat' first
        | with_reducible assumption
  | succ n ih =>
    unfold writeExtentFuel
    try dsimp only
    repeat' first
        | with_reducible assumption | with_reducible apply ih | with_reducible apply writeUnit_kept | split

theorem writeExtent_kept {s₀ s : State} (h : Kept s₀ s) (req a bs) :
    Kept s₀ (writeExtent s req a bs) := by
  unfold writeExtent
  try dsimp only
  repeat' first
      | with_reducible assumption | with_reducible apply writeExtentFuel_kept

theorem pushRecord_kept {s₀ s : State} (h : Kept s₀ s) (r) :
    Kept s₀ (pushRecord s r) := by
  unfold pushRecord
  try dsimp only
  repeat' first
      | with_reducible assumption | (simp only [kept_mk]; with_reducible apply Parts.of)

theorem useToken_kept {s₀ s : State} (h : Kept s₀ s) :
    Kept s₀ (useToken s) := by
  unfold useToken
  try dsimp only
  repeat' first
      | with_reducible assumption | (simp only [kept_mk]; with_reducible apply Parts.of)

theorem flushDrops_kept {s₀ s : State} (h : Kept s₀ s) :
    Kept s₀ (flushDrops s) := by
  unfold flushDrops
  try dsimp only
  repeat' first
      | with_reducible assumption | with_reducible apply pushRecord_kept | with_reducible apply useToken_kept
      | (simp only [kept_mk]; with_reducible apply Parts.of) | split

theorem readScanUnit_kept {s₀ s : State} (h : Kept s₀ s) (c macroNo key req) :
    Kept s₀ (readScanUnit s c macroNo key req) := by
  unfold readScanUnit
  try dsimp only
  repeat' first
      | with_reducible assumption | with_reducible apply countCorrection_kept | with_reducible apply noteScanCE_kept
      | with_reducible apply noteScanUE_kept | with_reducible apply recordScan_kept | split

theorem dropRecord_kept {s₀ s : State} (h : Kept s₀ s) :
    Kept s₀ (dropRecord s) := by
  unfold dropRecord
  try dsimp only
  repeat' first
      | with_reducible assumption | with_reducible apply countF_kept | with_reducible apply flushDrops_kept
      | with_reducible apply raiseEvent_kept | (simp only [kept_mk]; with_reducible apply Parts.of)

theorem putLimit_kept {s₀ s : State} (h : Kept s₀ s) (l) :
    Kept s₀ (putLimit s l) := by
  unfold putLimit
  try dsimp only
  repeat' first
      | with_reducible assumption | (simp only [kept_mk]; with_reducible apply Parts.of)

theorem enqueueLimited_send_kept {s₀ s : State} (h : Kept s₀ s) (cause r folded) :
    Kept s₀ (enqueueLimited.send cause s r folded) := by
  unfold enqueueLimited.send
  try dsimp only
  repeat' first
      | with_reducible assumption | with_reducible apply dropRecord_kept | with_reducible apply pushRecord_kept
      | with_reducible apply putLimit_kept | split

theorem enqueueLimited_kept {s₀ s : State} (h : Kept s₀ s) (r cause) :
    Kept s₀ (enqueueLimited s r cause) := by
  unfold enqueueLimited
  try dsimp only
  repeat' first
      | with_reducible assumption | with_reducible apply dropRecord_kept | with_reducible apply enqueueLimited_send_kept
      | with_reducible apply putLimit_kept | split

theorem enqueueRecord_kept {s₀ s : State} (h : Kept s₀ s) (r cause) :
    Kept s₀ (enqueueRecord s r cause) := by
  unfold enqueueRecord
  try dsimp only
  repeat' first
      | with_reducible assumption | with_reducible apply dropRecord_kept | with_reducible apply enqueueLimited_kept
      | with_reducible apply flushDrops_kept | with_reducible apply pushRecord_kept | with_reducible apply useToken_kept | split

theorem record_kept {s₀ s : State} (h : Kept s₀ s) (cls code p0 p1 p2 p3 cause) :
    Kept s₀ (record s cls code p0 p1 p2 p3 cause) := by
  unfold record
  try dsimp only
  repeat' first
      | with_reducible assumption | with_reducible apply enqueueRecord_kept

theorem drainToScan_kept {s₀ s : State} (h : Kept s₀ s) :
    Kept s₀ (drainToScan s) := by
  unfold drainToScan
  try dsimp only
  repeat' first
      | with_reducible assumption | (simp only [kept_mk]; with_reducible apply Parts.of) | split

theorem takeFresh_kept {s₀ s : State} (h : Kept s₀ s) :
    Kept s₀ (takeFresh s).2 := by
  unfold takeFresh
  try dsimp only
  repeat' first
      | with_reducible assumption | (simp only [kept_mk]; with_reducible apply Parts.of)

theorem touchUnits_kept {s₀ s : State} (h : Kept s₀ s) (us req) :
    Kept s₀ (touchUnits s us req) := by
  unfold touchUnits
  try dsimp only
  repeat' first
      | with_reducible assumption | with_reducible apply touchUnit_kept
      | (with_reducible apply Kept.foldl; rotate_left 1; intro _ _ _; rotate_left 1)

theorem sendToScan_kept {s₀ s : State} (h : Kept s₀ s) (m) :
    Kept s₀ (sendToScan s m) := by
  unfold sendToScan
  try dsimp only
  repeat' first
      | with_reducible assumption | with_reducible apply drainToScan_kept | (simp only [kept_mk]; with_reducible apply Parts.of)

/-! ### BeamPos -/

theorem beamMove_kept {s₀ s : State} (h : Kept s₀ s) (n) :
    Kept s₀ (beamMove s n) := by
  unfold beamMove
  try dsimp only
  repeat' first
      | with_reducible assumption | (simp only [kept_mk]; with_reducible apply Parts.of) | split

theorem beamShift_kept {s₀ s : State} (h : Kept s₀ s) (d) :
    Kept s₀ (beamShift s d) := by
  unfold beamShift
  try dsimp only
  repeat' first
      | with_reducible assumption | with_reducible apply beamMove_kept

theorem beamAdvanceTo_kept {s₀ s : State} (h : Kept s₀ s) (frame fracs) :
    Kept s₀ (beamAdvanceTo s frame fracs) := by
  unfold beamAdvanceTo
  try dsimp only
  repeat' first
      | with_reducible assumption | (simp only [kept_mk]; with_reducible apply Parts.of) | split

/-! ### Scene -/

theorem setCache_kept {s₀ s : State} (h : Kept s₀ s) (n c) :
    Kept s₀ (setCache s n c) := by
  unfold setCache
  try dsimp only
  repeat' first
      | with_reducible assumption | (simp only [kept_mk]; with_reducible apply Parts.of)

theorem noteQueue_kept {s₀ s : State} (h : Kept s₀ s) :
    Kept s₀ (noteQueue s) := by
  unfold noteQueue
  try dsimp only
  repeat' first
      | with_reducible assumption | with_reducible apply setF_kept

theorem queueWrites_kept {s₀ s : State} (h : Kept s₀ s) (ns credit) :
    Kept s₀ (queueWrites s ns credit) := by
  unfold queueWrites
  try dsimp only
  repeat' first
      | with_reducible assumption | with_reducible apply noteQueue_kept | (simp only [kept_mk]; with_reducible apply Parts.of)

theorem invalidateUnits_kept {s₀ s : State} (h : Kept s₀ s) (us) :
    Kept s₀ (invalidateUnits s us) := by
  unfold invalidateUnits
  try dsimp only
  repeat' first
      | with_reducible assumption | (simp only [kept_mk]; with_reducible apply Parts.of)

theorem noteGuard_kept {s₀ s : State} (h : Kept s₀ s) (writer a us) :
    Kept s₀ (noteGuard s writer a us) := by
  unfold noteGuard
  try dsimp only
  repeat' first
      | with_reducible assumption | with_reducible apply countF_kept | with_reducible apply raiseEvent_kept
      | with_reducible apply recordScan_kept | with_reducible apply setF_kept | split

theorem applyPart_kept {s₀ s : State} (h : Kept s₀ s) (w p) :
    Kept s₀ (applyPart s w p) := by
  unfold applyPart
  try dsimp only
  repeat' first
      | with_reducible assumption | with_reducible apply invalidateUnits_kept | with_reducible apply noteGuard_kept
      | with_reducible apply writeExtent_kept | split

theorem readHeld_kept {s₀ s : State} (h : Kept s₀ s) (n req h) :
    Kept s₀ (readHeld s n req h) := by
  unfold readHeld
  try dsimp only
  repeat' first
      | with_reducible assumption | with_reducible apply readScanUnit_kept | with_reducible apply setCache_kept
      | (with_reducible apply Kept.foldl; rotate_left 1; intro _ _ _; rotate_left 1)

theorem noteShadow_kept {s₀ s : State} (h : Kept s₀ s) :
    Kept s₀ (noteShadow s) := by
  unfold noteShadow
  try dsimp only
  repeat' first
      | with_reducible assumption | with_reducible apply setF_kept

theorem startRescan_kept {s₀ s : State} (h : Kept s₀ s) :
    Kept s₀ (startRescan s) := by
  unfold startRescan
  try dsimp only
  repeat' first
      | with_reducible assumption | with_reducible apply noteShadow_kept | with_reducible apply setF_kept
      | (simp only [kept_mk]; with_reducible apply Parts.of)

theorem noteBinding_kept {s₀ s : State} (h : Kept s₀ s) (n o) :
    Kept s₀ (noteBinding s n o) := by
  unfold noteBinding
  try dsimp only
  repeat' first
      | with_reducible assumption | (simp only [kept_mk]; with_reducible apply Parts.of) | split

theorem installUnit_kept {s₀ s : State} (h : Kept s₀ s) (n h) :
    Kept s₀ (installUnit s n h) := by
  unfold installUnit
  try dsimp only
  repeat' first
      | with_reducible assumption | with_reducible apply setCache_kept

theorem fetchUnit_kept {s₀ s : State} (h : Kept s₀ s) (n u req) :
    Kept s₀ (fetchUnit s n u req) := by
  unfold fetchUnit
  try dsimp only
  repeat' first
      | with_reducible assumption | with_reducible apply countWrapF_kept | with_reducible apply installUnit_kept
      | with_reducible apply perfCount_kept | with_reducible apply touchUnit_kept
      | (simp only [kept_mk]; with_reducible apply Parts.of) | split

theorem cacheRead_kept {s₀ s : State} (h : Kept s₀ s) (n req u) :
    Kept s₀ (cacheRead s n req u) := by
  unfold cacheRead
  try dsimp only
  repeat' first
      | with_reducible assumption | with_reducible apply countF_kept | with_reducible apply fetchUnit_kept
      | with_reducible apply readHeld_kept | split

theorem invalidateAll_kept {s₀ s : State} (h : Kept s₀ s) :
    Kept s₀ (invalidateAll s) := by
  unfold invalidateAll
  try dsimp only
  repeat' first
      | with_reducible assumption | (simp only [kept_mk]; with_reducible apply Parts.of)

theorem putShadow_kept {s₀ s : State} (h : Kept s₀ s) (n o) :
    Kept s₀ (putShadow s n o) := by
  unfold putShadow
  try dsimp only
  repeat' first
      | with_reducible assumption | with_reducible apply noteShadow_kept | (simp only [kept_mk]; with_reducible apply Parts.of)

theorem badEntry_kept {s₀ s : State} (h : Kept s₀ s) :
    Kept s₀ (badEntry s) := by
  unfold badEntry
  try dsimp only
  repeat' first
      | with_reducible assumption | with_reducible apply countF_kept | with_reducible apply raiseEvent_kept

theorem evaluateEntry_kept {s₀ s : State} (h : Kept s₀ s) (n) :
    Kept s₀ (evaluateEntry s n) := by
  unfold evaluateEntry
  try dsimp only
  repeat' first
      | with_reducible assumption | with_reducible apply badEntry_kept | with_reducible apply noteBinding_kept
      | with_reducible apply putShadow_kept | with_reducible apply recordScan_kept | with_reducible apply touchUnit_kept | split

theorem prefetchUnit_kept {s₀ s : State} (h : Kept s₀ s) (n req u) :
    Kept s₀ (prefetchUnit s n req u) := by
  unfold prefetchUnit
  try dsimp only
  repeat' first
      | with_reducible assumption | with_reducible apply fetchUnit_kept | with_reducible apply setCache_kept | split

theorem agentRead_kept {s₀ s : State} (h : Kept s₀ s) (n req u) :
    Kept s₀ (agentRead s n req u) := by
  unfold agentRead
  try dsimp only
  repeat' first
      | with_reducible assumption | with_reducible apply fetchUnit_kept | with_reducible apply readHeld_kept | split

theorem cacheView_kept {s₀ s : State} (h : Kept s₀ s) (n) :
    Kept s₀ (cacheView s n) := by
  unfold cacheView
  try dsimp only
  repeat' first
      | with_reducible assumption | with_reducible apply setDramBytes_kept | with_reducible apply setUnit_kept
      | (with_reducible apply Kept.foldl; rotate_left 1; intro _ _ _; rotate_left 1)

theorem dramWrite_kept {s₀ s : State} (h : Kept s₀ s) (w credit a bs) :
    Kept s₀ (dramWrite s w credit a bs) := by
  unfold dramWrite
  try dsimp only
  repeat' first
      | with_reducible assumption | with_reducible apply applyPart_kept | with_reducible apply countF_kept
      | with_reducible apply queueWrites_kept | (with_reducible apply Kept.foldl; rotate_left 1; intro _ _ _; rotate_left 1)
      | split

/-! ### WeaveSend -/

theorem countBadQ_kept {s₀ s : State} (h : Kept s₀ s) :
    Kept s₀ (countBadQ s) := by
  unfold countBadQ
  try dsimp only
  repeat' first
      | with_reducible assumption | with_reducible apply countF_kept

theorem countNoRoute_kept {s₀ s : State} (h : Kept s₀ s) :
    Kept s₀ (countNoRoute s) := by
  unfold countNoRoute
  try dsimp only
  repeat' first
      | with_reducible assumption | with_reducible apply countF_kept

theorem emit_kept {s₀ s : State} (h : Kept s₀ s) (x) :
    Kept s₀ (emit s x) := by
  unfold emit
  try dsimp only
  repeat' first
      | with_reducible assumption | (simp only [kept_mk]; with_reducible apply Parts.of)

theorem emitFrame_kept {s₀ s : State} (h : Kept s₀ s) (p f) :
    Kept s₀ (emitFrame s p f) := by
  unfold emitFrame
  try dsimp only
  repeat' first
      | with_reducible assumption | with_reducible apply emit_kept

theorem setPort_kept {s₀ s : State} (h : Kept s₀ s) (p x) :
    Kept s₀ (setPort s p x) := by
  unfold setPort
  try dsimp only
  repeat' first
      | with_reducible assumption | (simp only [kept_mk]; with_reducible apply Parts.of)

theorem sendFrame_kept {s₀ s : State} (h : Kept s₀ s) (p q) :
    Kept s₀ (sendFrame s p q) := by
  unfold sendFrame
  try dsimp only
  repeat' first
      | with_reducible assumption | with_reducible apply emitFrame_kept | with_reducible apply setPort_kept

theorem drainPort_kept {s₀ s : State} (h : Kept s₀ s) (p x2) :
    Kept s₀ (drainPort s p x2) := by
  induction x2 generalizing s p with
  | zero =>
    unfold drainPort
    try dsimp only
    repeat' first
        | with_reducible assumption
  | succ n ih =>
    unfold drainPort
    try dsimp only
    repeat' first
        | with_reducible assumption | with_reducible apply ih | with_reducible apply sendFrame_kept
        | with_reducible apply setPort_kept | split

theorem enqueueOut_kept {s₀ s : State} (h : Kept s₀ s) (p q) :
    Kept s₀ (enqueueOut s p q) := by
  unfold enqueueOut
  try dsimp only
  repeat' first
      | with_reducible assumption | with_reducible apply drainPort_kept | with_reducible apply setPort_kept

theorem forwardUnicast_kept {s₀ s : State} (h : Kept s₀ s) (arrival pkt slot) :
    Kept s₀ (forwardUnicast s arrival pkt slot).1 := by
  unfold forwardUnicast
  try dsimp only
  repeat' first
      | with_reducible assumption | with_reducible apply countNoRoute_kept | with_reducible apply enqueueOut_kept | split

theorem keepBeacon_kept {s₀ s : State} (h : Kept s₀ s) (arrival x) :
    Kept s₀ (keepBeacon s arrival x) := by
  unfold keepBeacon
  try dsimp only
  repeat' first
      | with_reducible assumption | (simp only [kept_mk]; with_reducible apply Parts.of)

theorem deliverLocal_kept {s₀ s : State} (h : Kept s₀ s) (arrival x) :
    Kept s₀ (deliverLocal s arrival x) := by
  unfold deliverLocal
  try dsimp only
  repeat' first
      | with_reducible assumption | with_reducible apply keepBeacon_kept | (simp only [kept_mk]; with_reducible apply Parts.of)
      | split

theorem multicast_kept {s₀ s : State} (h : Kept s₀ s) (arrival x slot) :
    Kept s₀ (multicast s arrival x slot) := by
  unfold multicast
  try dsimp only
  repeat' first
      | with_reducible assumption | with_reducible apply countF_kept | with_reducible apply deliverLocal_kept
      | with_reducible apply enqueueOut_kept | with_reducible apply keepBeacon_kept
      | (with_reducible apply Kept.foldl; rotate_left 1; intro _ _ _; rotate_left 1) | split

theorem routePacket_kept {s₀ s : State} (h : Kept s₀ s) (arrival x slot) :
    Kept s₀ (routePacket s arrival x slot).1 := by
  unfold routePacket
  try dsimp only
  repeat' first
      | with_reducible assumption | with_reducible apply countNoRoute_kept | with_reducible apply deliverLocal_kept
      | with_reducible apply enqueueOut_kept | with_reducible apply forwardUnicast_kept | with_reducible apply multicast_kept
      | split

theorem originateAs_kept {s₀ s : State} (h : Kept s₀ s) (cls egr pkt slot) :
    Kept s₀ (originateAs s cls egr pkt slot).1 := by
  unfold originateAs
  try dsimp only
  repeat' first
      | with_reducible assumption | with_reducible apply routePacket_kept

theorem originate_kept {s₀ s : State} (h : Kept s₀ s) (pkt slot) :
    Kept s₀ (originate s pkt slot).1 := by
  unfold originate
  try dsimp only
  repeat' first
      | with_reducible assumption | with_reducible apply originateAs_kept

theorem reportItem_kept {s₀ s : State} (h : Kept s₀ s) (payload) :
    Kept s₀ (reportItem s payload) := by
  unfold reportItem
  try dsimp only
  repeat' first
      | with_reducible assumption | with_reducible apply originate_kept | (simp only [kept_mk]; with_reducible apply Parts.of)

theorem resetReport_kept {s₀ s : State} (h : Kept s₀ s) :
    Kept s₀ (resetReport s) := by
  unfold resetReport
  try dsimp only
  repeat' first
      | with_reducible assumption | with_reducible apply reportItem_kept | (simp only [kept_mk]; with_reducible apply Parts.of)
      | split

theorem sendReport_kept {s₀ s : State} (h : Kept s₀ s) (payload) :
    Kept s₀ (sendReport s payload) := by
  unfold sendReport
  try dsimp only
  repeat' first
      | with_reducible assumption | with_reducible apply reportItem_kept | with_reducible apply resetReport_kept

theorem postResult_kept {s₀ s : State} (h : Kept s₀ s) (r payload) :
    Kept s₀ (postResult s r payload) := by
  unfold postResult
  try dsimp only
  repeat' first
      | with_reducible assumption | with_reducible apply originate_kept

/-! ### Commit -/

theorem invalidateSideboard_kept {s₀ s : State} (h : Kept s₀ s) :
    Kept s₀ (invalidateSideboard s) := by
  unfold invalidateSideboard
  try dsimp only
  repeat' first
      | with_reducible assumption | with_reducible apply setF_kept | (simp only [kept_mk]; with_reducible apply Parts.of)
      | split

theorem dropCommit_kept {s₀ s : State} (h : Kept s₀ s) (c) :
    Kept s₀ (dropCommit s c) := by
  unfold dropCommit
  try dsimp only
  repeat' first
      | with_reducible assumption | (simp only [kept_mk]; with_reducible apply Parts.of) | split

theorem releaseBehind_kept {s₀ s : State} (h : Kept s₀ s) (src) :
    Kept s₀ (releaseBehind s src) := by
  unfold releaseBehind
  try dsimp only
  repeat' first
      | with_reducible assumption | (simp only [kept_mk]; with_reducible apply Parts.of)

theorem reportRegisters_kept {s₀ s : State} (h : Kept s₀ s) (c reason f) :
    Kept s₀ (reportRegisters s c reason f) := by
  unfold reportRegisters
  try dsimp only
  repeat' first
      | with_reducible assumption | with_reducible apply countF_kept | with_reducible apply countWrapF_kept
      | with_reducible apply raiseBits_kept | with_reducible apply setF_kept | with_reducible apply setRegWord_kept
      | (simp only [kept_mk]; with_reducible apply Parts.of) | split

theorem sendOrHold_kept {s₀ s : State} (h : Kept s₀ s) (m) :
    Kept s₀ (sendOrHold s m) := by
  unfold sendOrHold
  try dsimp only
  repeat' first
      | with_reducible assumption | with_reducible apply sendToHouse_kept | (simp only [kept_mk]; with_reducible apply Parts.of)
      | split

theorem sendResult_kept {s₀ s : State} (h : Kept s₀ s) (c reason) :
    Kept s₀ (sendResult s c reason) := by
  unfold sendResult
  try dsimp only
  repeat' first
      | with_reducible assumption | with_reducible apply sendOrHold_kept | split

theorem refuseCommit_kept {s₀ s : State} (h : Kept s₀ s) (c reason f) :
    Kept s₀ (refuseCommit s c reason f) := by
  unfold refuseCommit
  try dsimp only
  repeat' first
      | with_reducible assumption | with_reducible apply dropCommit_kept | with_reducible apply recordScan_kept
      | with_reducible apply releaseBehind_kept | with_reducible apply reportRegisters_kept
      | with_reducible apply sendResult_kept | (simp only [kept_mk]; with_reducible apply Parts.of) | split

theorem refuseNow_kept {s₀ s : State} (h : Kept s₀ s) (c reason) :
    Kept s₀ (refuseNow s c reason) := by
  unfold refuseNow
  try dsimp only
  repeat' first
      | with_reducible assumption | with_reducible apply refuseCommit_kept

theorem commitArrives_kept {s₀ s : State} (h : Kept s₀ s) (src epoch tframe stream wcount reply) :
    Kept s₀ (commitArrives s src epoch tframe stream wcount reply) := by
  unfold commitArrives
  try dsimp only
  repeat' first
      | with_reducible assumption | with_reducible apply refuseNow_kept | (simp only [kept_mk]; with_reducible apply Parts.of)
      | split

theorem judgeStep_kept {s₀ s : State} (h : Kept s₀ s) :
    Kept s₀ (judgeStep s) := by
  unfold judgeStep
  try dsimp only
  repeat' first
      | with_reducible assumption | with_reducible apply refuseNow_kept
      | (with_reducible apply Kept.foldl; rotate_left 1; intro _ _ _; rotate_left 1) | split

theorem applyShadows_kept {s₀ s : State} (h : Kept s₀ s) (st) :
    Kept s₀ (applyShadows s st) := by
  unfold applyShadows
  try dsimp only
  repeat' first
      | with_reducible assumption | (simp only [kept_mk]; with_reducible apply Parts.of)

theorem lastRead_kept {s₀ s : State} (h : Kept s₀ s) :
    Kept s₀ (lastRead s).1 := by
  unfold lastRead
  try dsimp only
  repeat' first
      | with_reducible assumption | with_reducible apply takeFresh_kept | split

theorem retireFence_kept {s₀ s : State} (h : Kept s₀ s) (n) :
    Kept s₀ (retireFence s n) := by
  unfold retireFence
  try dsimp only
  repeat' first
      | with_reducible assumption | with_reducible apply lastRead_kept | with_reducible apply raiseEvent_kept
      | with_reducible apply setF_kept | (simp only [kept_mk]; with_reducible apply Parts.of) | split

theorem acceptCommit_kept {s₀ s : State} (h : Kept s₀ s) (c) :
    Kept s₀ (acceptCommit s c) := by
  unfold acceptCommit
  try dsimp only
  repeat' first
      | with_reducible assumption | with_reducible apply applyShadows_kept | with_reducible apply dropCommit_kept
      | with_reducible apply invalidateSideboard_kept | with_reducible apply releaseBehind_kept
      | with_reducible apply reportRegisters_kept | with_reducible apply retireFence_kept | with_reducible apply sendResult_kept
      | with_reducible apply setF_kept | (with_reducible apply Kept.foldl; rotate_left 1; intro _ _ _; rotate_left 1)
      | (simp only [kept_mk]; with_reducible apply Parts.of) | split

theorem putCounter_kept {s₀ s : State} (h : Kept s₀ s) (c) :
    Kept s₀ (putCounter s c) := by
  unfold putCounter
  try dsimp only
  repeat' first
      | with_reducible assumption | (simp only [kept_mk]; with_reducible apply Parts.of)

theorem countOpen_kept {s₀ s : State} (h : Kept s₀ s) (src) :
    Kept s₀ (countOpen s src) := by
  unfold countOpen
  try dsimp only
  repeat' first
      | with_reducible assumption | with_reducible apply putCounter_kept | split

theorem creditCommit_kept {s₀ s : State} (h : Kept s₀ s) (c) :
    Kept s₀ (creditCommit s c) := by
  unfold creditCommit
  try dsimp only
  repeat' first
      | with_reducible assumption | with_reducible apply refuseNow_kept | (simp only [kept_mk]; with_reducible apply Parts.of)
      | split

theorem creditWrite_kept {s₀ s : State} (h : Kept s₀ s) (src) :
    Kept s₀ (creditWrite s src) := by
  unfold creditWrite
  try dsimp only
  repeat' first
      | with_reducible assumption | with_reducible apply countOpen_kept | with_reducible apply creditCommit_kept
      | with_reducible apply refuseNow_kept | split

theorem objectEvaluate_kept {s₀ s : State} (h : Kept s₀ s) :
    Kept s₀ (objectEvaluate s) := by
  unfold objectEvaluate
  try dsimp only
  repeat' first
      | with_reducible assumption | with_reducible apply creditWrite_kept | with_reducible apply evaluateEntry_kept
      | with_reducible apply noteQueue_kept | (with_reducible apply Kept.foldl; rotate_left 1; intro _ _ _; rotate_left 1)
      | (simp only [kept_mk]; with_reducible apply Parts.of) | split

theorem makeRoom_kept {s₀ s : State} (h : Kept s₀ s) (a len x3) :
    Kept s₀ (makeRoom s a len x3) := by
  induction x3 generalizing s a len with
  | zero =>
    unfold makeRoom
    try dsimp only
    repeat' first
        | with_reducible assumption
  | succ n ih =>
    unfold makeRoom
    try dsimp only
    repeat' first
        | with_reducible assumption | with_reducible apply ih | with_reducible apply objectEvaluate_kept | split

theorem acceptReady_kept {s₀ s : State} (h : Kept s₀ s) (src) :
    Kept s₀ (acceptReady s src) := by
  unfold acceptReady
  try dsimp only
  repeat' first
      | with_reducible assumption | with_reducible apply acceptCommit_kept
      | (with_reducible apply Kept.foldl; rotate_left 1; intro _ _ _; rotate_left 1) | split

theorem admitCommit_kept {s₀ s : State} (h : Kept s₀ s) (src) :
    Kept s₀ (admitCommit s src) := by
  unfold admitCommit
  try dsimp only
  repeat' first
      | with_reducible assumption | with_reducible apply refuseCommit_kept | with_reducible apply touchUnits_kept
      | (simp only [kept_mk]; with_reducible apply Parts.of) | split

theorem deadlineCommit_kept {s₀ s : State} (h : Kept s₀ s) (src) :
    Kept s₀ (deadlineCommit s src) := by
  unfold deadlineCommit
  try dsimp only
  repeat' first
      | with_reducible assumption | with_reducible apply refuseNow_kept | split

theorem composesFromHere_kept {s₀ s : State} (h : Kept s₀ s) :
    Kept s₀ (composesFromHere s) := by
  unfold composesFromHere
  try dsimp only
  repeat' first
      | with_reducible assumption | (simp only [kept_mk]; with_reducible apply Parts.of)

/-! ### Memory -/

theorem noteHouseCE_kept {s₀ s : State} (h : Kept s₀ s) (mem a) :
    Kept s₀ (noteHouseCE s mem a) := by
  unfold noteHouseCE
  try dsimp only
  repeat' first
      | with_reducible assumption | with_reducible apply countF_kept | with_reducible apply raiseEvent_kept
      | with_reducible apply setRegWord_kept

theorem noteHouseUE_aux {s₀ t : State} (k : Kept s₀ t) (x : Nat) :
    Kept s₀ (if t.mem.lastRecorded = some x then t
      else record { t with mem := { t.mem with lastRecorded := some x } } .fault 0x5001 x 0 0 0) := by
  split
  · exact k
  · refine record_kept ?_ _ _ _ _ _ _ _
    simp only [kept_mk]
    exact Parts.ofMem k fun w => w

theorem noteHouseUE_kept {s₀ s : State} (h : Kept s₀ s) (mem a : Nat) : Kept s₀ (noteHouseUE s mem a) :=
  noteHouseUE_aux (raiseEvent_kept (setRegWord_kept (countF_kept h _ _) _ _) _ _) (memAddr mem a)

theorem touchBlock_kept {s₀ s : State} (h : Kept s₀ s) (b) :
    Kept s₀ (touchBlock s b).1 := by
  unfold touchBlock
  split
  · exact h
  · refine noteHouseCE_kept ?_ _ _
    simp only [kept_mk]
    exact Parts.ofMem h fun w => ⟨w.1, w.2.1, w.2.2.1, swf_sput (d := fun _ => BlockState.good) w.2.2.2.1 b .good, w.2.2.2.2⟩
  · exact noteHouseUE_kept h _ _

theorem loadWindow_kept {s₀ s : State} (h : Kept s₀ s) :
    Kept s₀ (loadWindow s) := by
  unfold loadWindow
  try dsimp only
  repeat' first
      | with_reducible assumption | with_reducible apply setF_kept | with_reducible apply setRegWord_kept
      | with_reducible apply touchBlock_kept | (with_reducible apply Kept.foldl; rotate_left 1; intro _ _ _; rotate_left 1)
      | split

theorem nextRecord_kept {s₀ s : State} (h : Kept s₀ s) :
    Kept s₀ (nextRecord s) := by
  unfold nextRecord
  try dsimp only
  repeat' first
      | with_reducible assumption | with_reducible apply loadWindow_kept | with_reducible apply setF_kept

theorem controlSlot_kept {s₀ s : State} (h : Kept s₀ s) :
    Kept s₀ (controlSlot s) := by
  unfold controlSlot
  try dsimp only
  repeat' first
      | with_reducible assumption | (simp only [kept_mk]; with_reducible apply Parts.of)

theorem mramPut_kept {s₀ s : State} (h : Kept s₀ s) (a x2) :
    Kept s₀ (mramPut s a x2) := by
  induction x2 generalizing s a with
  | nil => exact h
  | cons e l ih =>
    unfold mramPut
    apply ih
    simp only [kept_mk]
    exact Parts.ofMem h fun w => ⟨w.1, w.2.1, swf_sput (d := fun _ => (0 : Byte)) w.2.2.1 a e,
      swf_sput (d := fun _ => BlockState.good) w.2.2.2.1 (a / 32) .good, w.2.2.2.2⟩

theorem notePinned_kept {s₀ s : State} (h : Kept s₀ s) (n) :
    Kept s₀ (notePinned s n) := by
  unfold notePinned
  try dsimp only
  repeat' first
      | with_reducible assumption | with_reducible apply setF_kept | (simp only [kept_mk]; with_reducible apply Parts.of)

theorem recordClear_kept {s₀ s : State} (h : Kept s₀ s) (c) :
    Kept s₀ (recordClear s c) := by
  unfold recordClear
  try dsimp only
  repeat' first
      | with_reducible assumption | with_reducible apply dropRecord_kept | with_reducible apply flushDrops_kept
      | with_reducible apply useToken_kept | (simp only [kept_mk]; with_reducible apply Parts.of) | split

theorem carryOutClear_kept {s₀ s : State} (h : Kept s₀ s) (c) :
    Kept s₀ (carryOutClear s c) := by
  unfold carryOutClear
  try dsimp only
  repeat' first
      | with_reducible assumption | with_reducible apply controlSlot_kept | with_reducible apply mramPut_kept
      | with_reducible apply notePinned_kept | with_reducible apply recordClear_kept
      | (with_reducible apply Kept.foldl; rotate_left 1; intro _ _ _; rotate_left 1)
      | (simp only [kept_mk]; with_reducible apply Parts.of) | split

theorem applyClears_kept {s₀ s : State} (h : Kept s₀ s) :
    Kept s₀ (applyClears s) := by
  unfold applyClears
  try dsimp only
  repeat' first
      | with_reducible assumption | with_reducible apply carryOutClear_kept
      | (with_reducible apply Kept.foldl; rotate_left 1; intro _ _ _; rotate_left 1)
      | (simp only [kept_mk]; with_reducible apply Parts.of)

theorem putRecord_kept {s₀ s : State} (h : Kept s₀ s) (a r lap) :
    Kept s₀ (putRecord s a r lap) := by
  unfold putRecord
  try dsimp only
  repeat' first
      | with_reducible assumption | with_reducible apply mramPut_kept

theorem storeFailed_kept {s₀ s : State} (h : Kept s₀ s) (a) :
    Kept s₀ (storeFailed s a) := by
  unfold storeFailed
  try dsimp only
  repeat' first
      | with_reducible assumption | with_reducible apply countF_kept | with_reducible apply raiseEvent_kept
      | with_reducible apply record_kept

theorem writeGeneral_kept {s₀ s : State} (h : Kept s₀ s) (r ok) :
    Kept s₀ (writeGeneral s r ok) := by
  unfold writeGeneral
  try dsimp only
  repeat' first
      | with_reducible assumption | with_reducible apply controlSlot_kept | with_reducible apply mramPut_kept
      | with_reducible apply putRecord_kept | with_reducible apply storeFailed_kept
      | (simp only [kept_mk]; with_reducible apply Parts.of) | split

theorem writePinned_kept {s₀ s : State} (h : Kept s₀ s) (r ok) :
    Kept s₀ (writePinned s r ok) := by
  unfold writePinned
  try dsimp only
  repeat' first
      | with_reducible assumption | with_reducible apply mramPut_kept | with_reducible apply notePinned_kept
      | with_reducible apply putRecord_kept | with_reducible apply raiseEvent_kept | with_reducible apply storeFailed_kept
      | split

theorem writeRecord_kept {s₀ s : State} (h : Kept s₀ s) (ok) :
    Kept s₀ (writeRecord s ok) := by
  unfold writeRecord
  try dsimp only
  repeat' first
      | with_reducible assumption | with_reducible apply applyClears_kept | with_reducible apply flushDrops_kept
      | with_reducible apply raiseEvent_kept | with_reducible apply writeGeneral_kept | with_reducible apply writePinned_kept
      | (simp only [kept_mk]; with_reducible apply Parts.of) | split

theorem noteRow16_kept {s₀ s : State} (h : Kept s₀ s) (mem a) :
    Kept s₀ (noteRow16 s mem a) := by
  unfold noteRow16
  try dsimp only
  repeat' first
      | with_reducible assumption | with_reducible apply countCorrection_kept | with_reducible apply record_kept | split

theorem setCell_kept {s₀ s : State} (h : Kept s₀ s) (mem a c) :
    Kept s₀ (setCell s mem a c) := by
  unfold setCell
  split
  · simp only [kept_mk]
    exact Parts.ofMem h fun w => ⟨swf_sput w.1 _ _, w.2⟩
  · simp only [kept_mk]
    refine Parts.ofMem h fun w => ⟨w.1, fun l hl => ?_, w.2.2⟩
    have hd : swf (fun _ => SramCell.good 0) (s.mem.locals.toList.getD (mem - 1) []) := by
      rw [List.getD_eq_getElem?_getD]
      cases he : s.mem.locals.toList[mem - 1]? with
      | none => exact swf_nil _
      | some x => exact w.2.1 x (List.mem_of_getElem? he)
    rw [Vector.toList_setIfInBounds] at hl
    rcases List.mem_or_eq_of_mem_set hl with hl | rfl
    · exact w.2.1 l hl
    · exact swf_sput hd _ _

theorem sramLoad_kept {s₀ s : State} (h : Kept s₀ s) (mem a) :
    Kept s₀ (sramLoad s mem a).1 := by
  unfold sramLoad
  try dsimp only
  repeat' first
      | with_reducible assumption | with_reducible apply noteHouseCE_kept | with_reducible apply noteHouseUE_kept
      | with_reducible apply noteRow16_kept | with_reducible apply setCell_kept | split

theorem houseScrub_kept {s₀ s : State} (h : Kept s₀ s) :
    Kept s₀ (houseScrub s) := by
  unfold houseScrub
  try dsimp only
  repeat' first
      | with_reducible assumption | with_reducible apply raiseEvent_kept | with_reducible apply sramLoad_kept
      | (simp only [kept_mk]; with_reducible apply Parts.of) | (simp only [kept_mk]; refine Parts.ofMem ?_ (fun h => h)) | split

theorem markPage_kept {s₀ s : State} (h : Kept s₀ s) (p) :
    Kept s₀ (markPage s p) := by
  unfold markPage
  try dsimp only
  repeat' first
      | with_reducible assumption | with_reducible apply setRegWord_kept

theorem swf_fillCells {m : SMap SramCell} (h : swf (fun _ => SramCell.unwritten) m) (lo n : Nat) :
    swf (fun _ => SramCell.unwritten) (fillCells m lo n) := by
  unfold fillCells
  constructor
  · refine List.pairwise_append.mpr ⟨List.pairwise_append.mpr ⟨h.1.filter _, ?_, ?_⟩, h.1.filter _, ?_⟩
    · rw [List.pairwise_map]
      exact List.pairwise_lt_range.imp fun h => by simpa using h
    · intro e he f hf
      obtain ⟨i, -, rfl⟩ := List.mem_map.mp hf
      have : e.1 < lo := by simpa using (List.mem_filter.mp he).2
      show e.1 < lo + i
      omega
    · intro e he f hf
      have h2 : lo + n ≤ f.1 := by simpa using (List.mem_filter.mp hf).2
      rcases List.mem_append.mp he with he | he
      · have : e.1 < lo := by simpa using (List.mem_filter.mp he).2
        omega
      · obtain ⟨i, hi, rfl⟩ := List.mem_map.mp he
        have : i < n := List.mem_range.mp hi
        show lo + i < f.1
        omega
  · intro e he
    rcases List.mem_append.mp he with he | he
    · rcases List.mem_append.mp he with he | he
      · exact h.2 e (List.mem_filter.mp he).1
      · obtain ⟨i, -, rfl⟩ := List.mem_map.mp he
        simp
    · exact h.2 e (List.mem_filter.mp he).1

theorem initWords_kept {s₀ s : State} (h : Kept s₀ s) (n) :
    Kept s₀ (initWords s n) := by
  unfold initWords
  try dsimp only
  split
  · exact h
  · refine Kept.foldl ?_ _ _ fun t x k => markPage_kept k x
    simp only [kept_mk]
    exact Parts.ofMem h fun w => ⟨swf_fillCells w.1 _ _, w.2⟩

theorem initTick_kept {s₀ s : State} (h : Kept s₀ s) :
    Kept s₀ (initTick s) := by
  unfold initTick
  try dsimp only
  repeat' first
      | with_reducible assumption | with_reducible apply initWords_kept | split

theorem sramStore_kept {s₀ s : State} (h : Kept s₀ s) (mem a w) :
    Kept s₀ (sramStore s mem a w) := by
  unfold sramStore
  try dsimp only
  repeat' first
      | with_reducible assumption | with_reducible apply markPage_kept | with_reducible apply setCell_kept | split

theorem readBlocks_kept {s₀ s : State} (h : Kept s₀ s) (b x2) :
    Kept s₀ (readBlocks s b x2).1 := by
  induction x2 generalizing s b with
  | zero =>
    unfold readBlocks
    try dsimp only
    repeat' first
        | with_reducible assumption
  | succ n ih =>
    unfold readBlocks
    try dsimp only
    repeat' first
        | with_reducible assumption | with_reducible apply ih | with_reducible apply touchBlock_kept

theorem readExtent_kept {s₀ s : State} (h : Kept s₀ s) (a len) :
    Kept s₀ (readExtent s a len).1 := by
  unfold readExtent
  try dsimp only
  repeat' first
      | with_reducible assumption | with_reducible apply readBlocks_kept

theorem meminitDone_kept {s₀ s : State} (h : Kept s₀ s) :
    Kept s₀ (meminitDone s) := by
  unfold meminitDone
  try dsimp only
  repeat' first
      | with_reducible assumption | with_reducible apply initWords_kept | with_reducible apply setF_kept | split

theorem dramScrub_kept {s₀ s : State} (h : Kept s₀ s) :
    Kept s₀ (dramScrub s) := by
  unfold dramScrub
  try dsimp only
  repeat' first
      | with_reducible assumption | with_reducible apply touchUnit_kept | (simp only [kept_mk]; with_reducible apply Parts.of)
      | (simp only [kept_mk]; refine Parts.ofDram ?_ (fun h => h)) | split

theorem putFirmware_put_kept {s₀ s : State} (h : Kept s₀ s) (cls c p) :
    Kept s₀ (putFirmware.put s cls c p) := by
  unfold putFirmware.put
  try dsimp only
  repeat' first
      | with_reducible assumption | with_reducible apply countF_kept | with_reducible apply dropRecord_kept
      | with_reducible apply flushDrops_kept | with_reducible apply pushRecord_kept | with_reducible apply useToken_kept | split

theorem mramLoad_kept {s₀ s : State} (h : Kept s₀ s) (a) :
    Kept s₀ (mramLoad s a).1 := by
  unfold mramLoad
  try dsimp only
  repeat' first
      | with_reducible assumption | with_reducible apply takeFresh_kept | with_reducible apply touchBlock_kept | split

theorem putFirmware_kept {s₀ s : State} (h : Kept s₀ s) :
    Kept s₀ (putFirmware s) := by
  unfold putFirmware
  try dsimp only
  repeat' first
      | with_reducible assumption | with_reducible apply countF_kept | with_reducible apply putFirmware_put_kept | split

theorem mramScrub_kept {s₀ s : State} (h : Kept s₀ s) :
    Kept s₀ (mramScrub s) := by
  unfold mramScrub
  try dsimp only
  repeat' first
      | with_reducible assumption | with_reducible apply touchBlock_kept | (simp only [kept_mk]; with_reducible apply Parts.of)
      | (simp only [kept_mk]; refine Parts.ofMem ?_ (fun h => h))

theorem refillToken_kept {s₀ s : State} (h : Kept s₀ s) :
    Kept s₀ (refillToken s) := by
  unfold refillToken
  try dsimp only
  repeat' first
      | with_reducible assumption | with_reducible apply flushDrops_kept | (simp only [kept_mk]; with_reducible apply Parts.of)

theorem meminitGo_kept {s₀ s : State} (h : Kept s₀ s) :
    Kept s₀ (meminitGo s) := by
  unfold meminitGo
  refine setF_kept ?_ _ _
  simp only [kept_mk]
  refine Parts.ofMem ?_ (fun h => h)
  exact h

theorem askClear_kept {s₀ s : State} (h : Kept s₀ s) (v cls smid) :
    Kept s₀ (askClear s v cls smid) := by
  unfold askClear
  try dsimp only
  repeat' first
      | with_reducible assumption | with_reducible apply applyClears_kept | (simp only [kept_mk]; with_reducible apply Parts.of)

/-! ### Trestle -/

theorem readTable_kept {s₀ s : State} (h : Kept s₀ s) (st l) :
    Kept s₀ (readTable s st l) := by
  unfold readTable
  try dsimp only
  repeat' first
      | with_reducible assumption | with_reducible apply raiseEvent_kept | with_reducible apply readScanUnit_kept
      | (simp only [kept_mk]; with_reducible apply Parts.of) | split

theorem noteImm_kept {s₀ s : State} (h : Kept s₀ s) :
    Kept s₀ (noteImm s) := by
  unfold noteImm
  try dsimp only
  repeat' first
      | with_reducible assumption | with_reducible apply setF_kept

theorem immPut_kept {s₀ s : State} (h : Kept s₀ s) (e) :
    Kept s₀ (immPut s e) := by
  unfold immPut
  try dsimp only
  repeat' first
      | with_reducible assumption | with_reducible apply noteImm_kept | with_reducible apply raiseEvent_kept
      | (simp only [kept_mk]; with_reducible apply Parts.of) | split

theorem readListUnit_kept {s₀ s : State} (h : Kept s₀ s) (u) :
    Kept s₀ (readListUnit s u) := by
  unfold readListUnit
  try dsimp only
  repeat' first
      | with_reducible assumption | with_reducible apply raiseEvent_kept | with_reducible apply recordScan_kept
      | with_reducible apply touchUnit_kept | split

theorem startWalk_kept {s₀ s : State} (h : Kept s₀ s) (st frame) :
    Kept s₀ (startWalk s st frame) := by
  unfold startWalk
  try dsimp only
  repeat' first
      | with_reducible assumption | with_reducible apply countF_kept | with_reducible apply readListUnit_kept
      | (with_reducible apply Kept.foldl; rotate_left 1; intro _ _ _; rotate_left 1)
      | (simp only [kept_mk]; with_reducible apply Parts.of) | split

theorem finishWalk_kept {s₀ s : State} (h : Kept s₀ s) :
    Kept s₀ (finishWalk s) := by
  unfold finishWalk
  try dsimp only
  repeat' first
      | with_reducible assumption | with_reducible apply setF_kept | (simp only [kept_mk]; with_reducible apply Parts.of)
      | split

theorem immClear_kept {s₀ s : State} (h : Kept s₀ s) :
    Kept s₀ (immClear s) := by
  unfold immClear
  try dsimp only
  repeat' first
      | with_reducible assumption | with_reducible apply noteImm_kept | (simp only [kept_mk]; with_reducible apply Parts.of)

/-! ### Hic -/

theorem setDma_kept {s₀ s : State} (h : Kept s₀ s) (n c) :
    Kept s₀ (setDma s n c) := by
  unfold setDma
  try dsimp only
  repeat' first
      | with_reducible assumption | (simp only [kept_mk]; with_reducible apply Parts.of)

theorem dmaTrigger_kept {s₀ s : State} (h : Kept s₀ s) (pace isIt) :
    Kept s₀ (dmaTrigger s pace isIt) := by
  unfold dmaTrigger
  try dsimp only
  repeat' first
      | with_reducible assumption | with_reducible apply countF_kept | with_reducible apply setDma_kept
      | (with_reducible apply Kept.foldl; rotate_left 1; intro _ _ _; rotate_left 1) | split

theorem timerTick_kept {s₀ s : State} (h : Kept s₀ s) :
    Kept s₀ (timerTick s) := by
  unfold timerTick
  try dsimp only
  repeat' first
      | with_reducible assumption | (simp only [kept_mk]; with_reducible apply Parts.of)

theorem setTimer_kept {s₀ s : State} (h : Kept s₀ s) (n left) :
    Kept s₀ (setTimer s n left) := by
  unfold setTimer
  try dsimp only
  repeat' first
      | with_reducible assumption | (simp only [kept_mk]; with_reducible apply Parts.of)

theorem timerWritten_kept {s₀ s : State} (h : Kept s₀ s) (n was) :
    Kept s₀ (timerWritten s n was) := by
  unfold timerWritten
  try dsimp only
  repeat' first
      | with_reducible assumption | with_reducible apply setTimer_kept | split

theorem wakeEdge_kept {s₀ s : State} (h : Kept s₀ s) (w rising) :
    Kept s₀ (wakeEdge s w rising) := by
  unfold wakeEdge
  try dsimp only
  repeat' first
      | with_reducible assumption | with_reducible apply pulse_kept | split

theorem pendCleared_kept {s₀ s : State} (h : Kept s₀ s) :
    Kept s₀ (pendCleared s) := by
  unfold pendCleared
  try dsimp only
  repeat' first
      | with_reducible assumption | (simp only [kept_mk]; with_reducible apply Parts.of)

theorem clocksResume_kept {s₀ s : State} (h : Kept s₀ s) :
    Kept s₀ (clocksResume s) := by
  unfold clocksResume
  try dsimp only
  repeat' first
      | with_reducible assumption | (simp only [kept_mk]; with_reducible apply Parts.of)

theorem setPending_kept {s₀ s : State} (h : Kept s₀ s) (n) :
    Kept s₀ (setPending s n) := by
  unfold setPending
  try dsimp only
  repeat' first
      | with_reducible assumption | with_reducible apply countF_kept | with_reducible apply setF_kept
      | with_reducible apply setRegWord_kept | split

theorem releaseEdges_kept {s₀ s : State} (h : Kept s₀ s) (n) :
    Kept s₀ (releaseEdges s n) := by
  unfold releaseEdges
  try dsimp only
  repeat' first
      | with_reducible assumption | with_reducible apply setPending_kept | (simp only [kept_mk]; with_reducible apply Parts.of)
      | split

theorem coalesceTimeout_kept {s₀ s : State} (h : Kept s₀ s) (n) :
    Kept s₀ (coalesceTimeout s n) := by
  unfold coalesceTimeout
  try dsimp only
  repeat' first
      | with_reducible assumption | with_reducible apply releaseEdges_kept | split

theorem releaseReached_kept {s₀ s : State} (h : Kept s₀ s) (n) :
    Kept s₀ (releaseReached s n) := by
  unfold releaseReached
  try dsimp only
  repeat' first
      | with_reducible assumption | with_reducible apply releaseEdges_kept | split

theorem waitFlush_kept {s₀ s : State} (h : Kept s₀ s) (core) :
    Kept s₀ (waitFlush s core) := by
  unfold waitFlush
  try dsimp only
  repeat' first
      | with_reducible assumption | with_reducible apply releaseEdges_kept
      | (with_reducible apply Kept.foldl; rotate_left 1; intro _ _ _; rotate_left 1)
      | (simp only [kept_mk]; with_reducible apply Parts.of)

theorem eventLine_kept {s₀ s : State} (h : Kept s₀ s) (l) :
    Kept s₀ (eventLine s l) := by
  unfold eventLine
  try dsimp only
  repeat' first
      | with_reducible assumption | with_reducible apply dmaTrigger_kept | split

theorem timerExpiry_kept {s₀ s : State} (h : Kept s₀ s) (n) :
    Kept s₀ (timerExpiry s n) := by
  unfold timerExpiry
  try dsimp only
  repeat' first
      | with_reducible assumption | with_reducible apply eventLine_kept | with_reducible apply pulse_kept
      | with_reducible apply setF_kept | with_reducible apply setTimer_kept | split

theorem releaseLineHolds_kept {s₀ s : State} (h : Kept s₀ s) :
    Kept s₀ (releaseLineHolds s) := by
  unfold releaseLineHolds
  try dsimp only
  repeat' first
      | with_reducible assumption | with_reducible apply releaseEdges_kept
      | (with_reducible apply Kept.foldl; rotate_left 1; intro _ _ _; rotate_left 1) | split

theorem hicEdge_kept {s₀ s : State} (h : Kept s₀ s) (n) :
    Kept s₀ (hicEdge s n) := by
  unfold hicEdge
  try dsimp only
  repeat' first
      | with_reducible assumption | with_reducible apply releaseReached_kept | with_reducible apply setPending_kept
      | (simp only [kept_mk]; with_reducible apply Parts.of) | split

theorem clearPending_kept {s₀ s : State} (h : Kept s₀ s) (n) :
    Kept s₀ (clearPending s n) := by
  unfold clearPending
  try dsimp only
  repeat' first
      | with_reducible assumption | with_reducible apply setRegWord_kept

theorem setCore_kept {s₀ s : State} (h : Kept s₀ s) (n c) :
    Kept s₀ (setCore s n c) := by
  unfold setCore
  try dsimp only
  repeat' first
      | with_reducible assumption | (simp only [kept_mk]; with_reducible apply Parts.of)

theorem takeEdge_kept {s₀ s : State} (h : Kept s₀ s) (n) :
    Kept s₀ (takeEdge s n) := by
  unfold takeEdge
  try dsimp only
  repeat' first
      | with_reducible assumption | with_reducible apply hicEdge_kept | (simp only [kept_mk]; with_reducible apply Parts.of)
      | split

theorem hicForce_kept {s₀ s : State} (h : Kept s₀ s) (w v) :
    Kept s₀ (hicForce s w v) := by
  unfold hicForce
  try dsimp only
  repeat' first
      | with_reducible assumption | (with_reducible apply Kept.foldl; rotate_left 1; intro _ _ _; rotate_left 1)
      | (simp only [kept_mk]; with_reducible apply Parts.of) | split

theorem acknowledge_kept {s₀ s : State} (h : Kept s₀ s) (n core) :
    Kept s₀ (acknowledge s n core) := by
  unfold acknowledge
  try dsimp only
  repeat' first
      | with_reducible assumption | with_reducible apply clearPending_kept
      | (simp only [kept_mk]; with_reducible apply Parts.of)

/-! ### Bridge -/

theorem postBridgeDown_kept {s₀ s : State} (h : Kept s₀ s) (reply epoch stream tframe) :
    Kept s₀ (postBridgeDown s reply epoch stream tframe) := by
  unfold postBridgeDown
  try dsimp only
  repeat' first
      | with_reducible assumption | with_reducible apply postResult_kept | split

theorem discardDown_kept {s₀ s : State} (h : Kept s₀ s) (m) :
    Kept s₀ (discardDown s m) := by
  unfold discardDown
  try dsimp only
  repeat' first
      | with_reducible assumption | with_reducible apply countF_kept | with_reducible apply postBridgeDown_kept
      | (simp only [kept_mk]; with_reducible apply Parts.of) | split

theorem spoilActivation_kept {s₀ s : State} (h : Kept s₀ s) :
    Kept s₀ (spoilActivation s) := by
  unfold spoilActivation
  try dsimp only
  repeat' first
      | with_reducible assumption | (simp only [kept_mk]; with_reducible apply Parts.of)

theorem startTraining_kept {s₀ s : State} (h : Kept s₀ s) :
    Kept s₀ (startTraining s) := by
  unfold startTraining
  try dsimp only
  repeat' first
      | with_reducible assumption | with_reducible apply setF_kept | with_reducible apply spoilActivation_kept
      | (simp only [kept_mk]; with_reducible apply Parts.of)

theorem bridgeFault_kept {s₀ s : State} (h : Kept s₀ s) (f) :
    Kept s₀ (bridgeFault s f) := by
  unfold bridgeFault
  try dsimp only
  repeat' first
      | with_reducible assumption | with_reducible apply startTraining_kept | split

theorem noteCrcError_kept {s₀ s : State} (h : Kept s₀ s) :
    Kept s₀ (noteCrcError s) := by
  unfold noteCrcError
  try dsimp only
  repeat' first
      | with_reducible assumption | (simp only [kept_mk]; with_reducible apply Parts.of)

theorem recordBridge_kept {s₀ s : State} (h : Kept s₀ s) :
    Kept s₀ (recordBridge s) := by
  unfold recordBridge
  try dsimp only
  repeat' first
      | with_reducible assumption | with_reducible apply record_kept

theorem holdUnaccepted_kept {s₀ s : State} (h : Kept s₀ s) :
    Kept s₀ (holdUnaccepted s) := by
  unfold holdUnaccepted
  try dsimp only
  repeat' first
      | with_reducible assumption | (with_reducible apply Kept.foldl; rotate_left 1; intro _ _ _; rotate_left 1)
      | (simp only [kept_mk]; with_reducible apply Parts.of) | split

theorem bridgeGoesDown_kept {s₀ s : State} (h : Kept s₀ s) (poweredDown) :
    Kept s₀ (bridgeGoesDown s poweredDown) := by
  unfold bridgeGoesDown
  try dsimp only
  repeat' first
      | with_reducible assumption | with_reducible apply discardDown_kept | with_reducible apply holdUnaccepted_kept
      | with_reducible apply raiseEvent_kept | with_reducible apply recordBridge_kept | with_reducible apply setF_kept
      | with_reducible apply spoilActivation_kept | (with_reducible apply Kept.foldl; rotate_left 1; intro _ _ _; rotate_left 1)
      | (simp only [kept_mk]; with_reducible apply Parts.of) | split

theorem resend_kept {s₀ s : State} (h : Kept s₀ s) (dest) :
    Kept s₀ (resend s dest) := by
  unfold resend
  try dsimp only
  repeat' first
      | with_reducible assumption | with_reducible apply countF_kept | with_reducible apply setF_kept | split

theorem sendHeld_kept {s₀ s : State} (h : Kept s₀ s) :
    Kept s₀ (sendHeld s) := by
  unfold sendHeld
  try dsimp only
  repeat' first
      | with_reducible assumption | with_reducible apply sendToHouse_kept
      | (with_reducible apply Kept.foldl; rotate_left 1; intro _ _ _; rotate_left 1)
      | (simp only [kept_mk]; with_reducible apply Parts.of)

theorem bridgeTrained_kept {s₀ s : State} (h : Kept s₀ s) (lanesHs lanesSh) :
    Kept s₀ (bridgeTrained s lanesHs lanesSh) := by
  unfold bridgeTrained
  try dsimp only
  repeat' first
      | with_reducible assumption | with_reducible apply drainToHouse_kept | with_reducible apply drainToScan_kept
      | with_reducible apply raiseEvent_kept | with_reducible apply recordBridge_kept | with_reducible apply resend_kept
      | with_reducible apply sendHeld_kept | with_reducible apply setF_kept
      | (simp only [kept_mk]; with_reducible apply Parts.of) | split

theorem trainingDone_kept {s₀ s : State} (h : Kept s₀ s) (ok lanesHs lanesSh) :
    Kept s₀ (trainingDone s ok lanesHs lanesSh) := by
  unfold trainingDone
  try dsimp only
  repeat' first
      | with_reducible assumption | with_reducible apply bridgeGoesDown_kept | with_reducible apply bridgeTrained_kept
      | with_reducible apply setF_kept | (simp only [kept_mk]; with_reducible apply Parts.of) | split

theorem setArrived_kept {s₀ s : State} (h : Kept s₀ s) (ms) :
    Kept s₀ (setArrived s ms) := by
  unfold setArrived
  try dsimp only
  repeat' first
      | with_reducible assumption | with_reducible apply drainToScan_kept | (simp only [kept_mk]; with_reducible apply Parts.of)

theorem drainTo_kept {s₀ s : State} (h : Kept s₀ s) (x1) :
    Kept s₀ (drainTo s x1) := by
  unfold drainTo
  try dsimp only
  repeat' first
      | with_reducible assumption | with_reducible apply drainToHouse_kept | with_reducible apply drainToScan_kept | split

theorem dropReads_kept {s₀ s : State} (h : Kept s₀ s) (src) :
    Kept s₀ (dropReads s src) := by
  unfold dropReads
  try dsimp only
  repeat' first
      | with_reducible assumption | (simp only [kept_mk]; with_reducible apply Parts.of)

theorem bridgeRetrain_kept {s₀ s : State} (h : Kept s₀ s) :
    Kept s₀ (bridgeRetrain s) := by
  unfold bridgeRetrain
  try dsimp only
  repeat' first
      | with_reducible assumption | with_reducible apply startTraining_kept | split

theorem endCommits_kept {s₀ s : State} (h : Kept s₀ s) :
    Kept s₀ (endCommits s) := by
  unfold endCommits
  try dsimp only
  repeat' first
      | with_reducible assumption | with_reducible apply postBridgeDown_kept | with_reducible apply record_kept
      | (with_reducible apply Kept.foldl; rotate_left 1; intro _ _ _; rotate_left 1)
      | (simp only [kept_mk]; with_reducible apply Parts.of)

theorem setBridgeDir_kept {s₀ s : State} (h : Kept s₀ s) (dest d) :
    Kept s₀ (setBridgeDir s dest d) := by
  unfold setBridgeDir
  try dsimp only
  repeat' first
      | with_reducible assumption | (simp only [kept_mk]; with_reducible apply Parts.of) | split

theorem issueToScan_kept {s₀ s : State} (h : Kept s₀ s) (m) :
    Kept s₀ (issueToScan s m) := by
  unfold issueToScan
  try dsimp only
  repeat' first
      | with_reducible assumption | with_reducible apply discardDown_kept | with_reducible apply sendToScan_kept | split

theorem setArrivedHouse_kept {s₀ s : State} (h : Kept s₀ s) (ms) :
    Kept s₀ (setArrivedHouse s ms) := by
  unfold setArrivedHouse
  try dsimp only
  repeat' first
      | with_reducible assumption | with_reducible apply drainToHouse_kept
      | (simp only [kept_mk]; with_reducible apply Parts.of)

theorem dropAnswers_kept {s₀ s : State} (h : Kept s₀ s) (src) :
    Kept s₀ (dropAnswers s src) := by
  unfold dropAnswers
  try dsimp only
  repeat' first
      | with_reducible assumption | with_reducible apply setArrivedHouse_kept

theorem receiveFlit_kept {s₀ s : State} (h : Kept s₀ s) (dest seq crcOk) :
    Kept s₀ (receiveFlit s dest seq crcOk) := by
  unfold receiveFlit
  try dsimp only
  repeat' first
      | with_reducible assumption | with_reducible apply countF_kept | with_reducible apply noteCrcError_kept
      | with_reducible apply perfCount_kept | with_reducible apply setBridgeDir_kept | split

theorem bridgeClear_kept {s₀ s : State} (h : Kept s₀ s) :
    Kept s₀ (bridgeClear s) := by
  unfold bridgeClear
  try dsimp only
  repeat' first
      | with_reducible assumption | with_reducible apply setRegWord_kept

theorem receiveNak_kept {s₀ s : State} (h : Kept s₀ s) (dest seq) :
    Kept s₀ (receiveNak s dest seq) := by
  unfold receiveNak
  try dsimp only
  repeat' first
      | with_reducible assumption | with_reducible apply countF_kept | with_reducible apply setF_kept | split

theorem takeAnswer_kept {s₀ s : State} (h : Kept s₀ s) (src target) :
    ∀ r, takeAnswer s src target = some r → Kept s₀ r.1 := by
  intro r hr
  unfold takeAnswer at hr
  dsimp only at hr
  split at hr
  · cases hr
    exact setArrivedHouse_kept h _
  · cases hr

theorem receiveAck_kept {s₀ s : State} (h : Kept s₀ s) (dest seq) :
    Kept s₀ (receiveAck s dest seq) := by
  unfold receiveAck
  try dsimp only
  repeat' first
      | with_reducible assumption | with_reducible apply drainTo_kept | with_reducible apply setBridgeDir_kept | split

end Sys2Proof.Machine
end

