-- ==== Sys2Proof/Laws/KeptWeave.lean ====
section
/-! SUPPORT. What is kept (`Kept`): the weave, the twin, composition, the drive, audio, pads, security. -/

namespace Sys2Proof.Machine

/-! ### Weave -/

theorem noteParent_kept {s₀ s : State} (h : Kept s₀ s) :
    Kept s₀ (noteParent s) := by
  unfold noteParent
  try dsimp only
  repeat' first
      | with_reducible assumption | with_reducible apply setF_kept
      | (with_reducible apply Kept.foldl; rotate_left 1; intro _ _ _; rotate_left 1)

theorem noteLost_kept {s₀ s : State} (h : Kept s₀ s) (q) :
    Kept s₀ (noteLost s q) := by
  unfold noteLost
  try dsimp only
  repeat' first
      | with_reducible assumption | (simp only [kept_mk]; with_reducible apply Parts.of)

theorem forwardAgain_route_kept {s₀ s : State} (h : Kept s₀ s) (q) :
    Kept s₀ (forwardAgain.route s q) := by
  unfold forwardAgain.route
  try dsimp only
  repeat' first
      | with_reducible assumption | with_reducible apply noteLost_kept | with_reducible apply routePacket_kept | split

theorem forwardAgain_kept {s₀ s : State} (h : Kept s₀ s) (p) :
    Kept s₀ (forwardAgain s p) := by
  unfold forwardAgain
  try dsimp only
  repeat' first
      | with_reducible assumption | with_reducible apply countF_kept | with_reducible apply countNoRoute_kept
      | with_reducible apply forwardAgain_route_kept | with_reducible apply record_kept | with_reducible apply setPort_kept
      | (with_reducible apply Kept.foldl; rotate_left 1; intro _ _ _; rotate_left 1) | split

theorem resendFrames_kept {s₀ s : State} (h : Kept s₀ s) (p fs) :
    Kept s₀ (resendFrames s p fs) := by
  unfold resendFrames
  try dsimp only
  repeat' first
      | with_reducible assumption | with_reducible apply emitFrame_kept
      | (with_reducible apply Kept.foldl; rotate_left 1; intro _ _ _; rotate_left 1)

theorem resendUnacked_kept {s₀ s : State} (h : Kept s₀ s) (p) :
    Kept s₀ (resendUnacked s p) := by
  unfold resendUnacked
  try dsimp only
  repeat' first
      | with_reducible assumption | with_reducible apply countF_kept | with_reducible apply resendFrames_kept | split

theorem setPortState_kept {s₀ s : State} (h : Kept s₀ s) (p st) :
    Kept s₀ (setPortState s p st) := by
  unfold setPortState
  try dsimp only
  repeat' first
      | with_reducible assumption | with_reducible apply drainPort_kept | with_reducible apply forwardAgain_kept
      | with_reducible apply noteParent_kept | with_reducible apply raiseEvent_kept | with_reducible apply setF_kept
      | with_reducible apply resendUnacked_kept | split

theorem closeTwinQueues_kept {s₀ s : State} (h : Kept s₀ s) :
    Kept s₀ (closeTwinQueues s) := by
  unfold closeTwinQueues
  try dsimp only
  repeat' first
      | with_reducible assumption | (simp only [kept_mk]; with_reducible apply Parts.of)

theorem linkSignal_kept {s₀ s : State} (h : Kept s₀ s) (p) :
    Kept s₀ (linkSignal s p) := by
  unfold linkSignal
  try dsimp only
  repeat' first
      | with_reducible assumption | with_reducible apply setPort_kept | with_reducible apply setPortState_kept | split

theorem fencePort_kept {s₀ s : State} (h : Kept s₀ s) (p code) :
    Kept s₀ (fencePort s p code) := by
  unfold fencePort
  try dsimp only
  repeat' first
      | with_reducible assumption | with_reducible apply raiseEvent_kept | with_reducible apply record_kept
      | with_reducible apply setF_kept | with_reducible apply setPortState_kept | split

theorem videoLoad_kept {s₀ s : State} (h : Kept s₀ s) (p load) :
    Kept s₀ (videoLoad s p load) := by
  unfold videoLoad
  try dsimp only
  repeat' first
      | with_reducible assumption | with_reducible apply raiseEvent_kept | with_reducible apply setF_kept | split

theorem weaveClear_kept {s₀ s : State} (h : Kept s₀ s) :
    Kept s₀ (weaveClear s) := by
  unfold weaveClear
  try dsimp only
  repeat' first
      | with_reducible assumption | with_reducible apply setRegWord_kept
      | (with_reducible apply Kept.foldl; rotate_left 1; intro _ _ _; rotate_left 1)

theorem linkNak_kept {s₀ s : State} (h : Kept s₀ s) (p seq) :
    Kept s₀ (linkNak s p seq) := by
  unfold linkNak
  try dsimp only
  repeat' first
      | with_reducible assumption | with_reducible apply countF_kept | with_reducible apply resendFrames_kept
      | with_reducible apply setPort_kept | split

theorem portDown_kept {s₀ s : State} (h : Kept s₀ s) (p) :
    Kept s₀ (portDown s p) := by
  unfold portDown
  try dsimp only
  repeat' first
      | with_reducible assumption | with_reducible apply closeTwinQueues_kept | with_reducible apply setF_kept
      | with_reducible apply setPort_kept | with_reducible apply setPortState_kept | split

theorem helloTimeout_kept {s₀ s : State} (h : Kept s₀ s) (p) :
    Kept s₀ (helloTimeout s p) := by
  unfold helloTimeout
  try dsimp only
  repeat' first
      | with_reducible assumption | with_reducible apply portDown_kept | split

theorem takePosition_kept {s₀ s : State} (h : Kept s₀ s) (col row side) :
    Kept s₀ (takePosition s col row side) := by
  unfold takePosition
  try dsimp only
  repeat' first
      | with_reducible assumption | with_reducible apply raiseEvent_kept | with_reducible apply setF_kept

theorem startRetrain_kept {s₀ s : State} (h : Kept s₀ s) (p) :
    Kept s₀ (startRetrain s p) := by
  unfold startRetrain
  try dsimp only
  repeat' first
      | with_reducible assumption | with_reducible apply countF_kept | with_reducible apply setF_kept
      | with_reducible apply setPort_kept | with_reducible apply setPortState_kept

theorem portRetrained_kept {s₀ s : State} (h : Kept s₀ s) (p ok) :
    Kept s₀ (portRetrained s p ok) := by
  unfold portRetrained
  try dsimp only
  repeat' first
      | with_reducible assumption | with_reducible apply portDown_kept | with_reducible apply setPort_kept
      | with_reducible apply setPortState_kept | split

theorem linkRetry_kept {s₀ s : State} (h : Kept s₀ s) (p) :
    Kept s₀ (linkRetry s p) := by
  unfold linkRetry
  try dsimp only
  repeat' first
      | with_reducible assumption | with_reducible apply linkSignal_kept | split

theorem portRetrainCmd_kept {s₀ s : State} (h : Kept s₀ s) (p) :
    Kept s₀ (portRetrainCmd s p) := by
  unfold portRetrainCmd
  try dsimp only
  repeat' first
      | with_reducible assumption | with_reducible apply startRetrain_kept | split

theorem linkTrained_kept {s₀ s : State} (h : Kept s₀ s) (p ok) :
    Kept s₀ (linkTrained s p ok) := by
  unfold linkTrained
  try dsimp only
  repeat' first
      | with_reducible assumption | with_reducible apply portDown_kept | with_reducible apply setF_kept
      | with_reducible apply setPort_kept | with_reducible apply setPortState_kept | split

theorem linkholdExpiry_kept {s₀ s : State} (h : Kept s₀ s) (p) :
    Kept s₀ (linkholdExpiry s p) := by
  unfold linkholdExpiry
  try dsimp only
  repeat' first
      | with_reducible assumption | with_reducible apply forwardAgain_kept | split

theorem helloSend_kept {s₀ s : State} (h : Kept s₀ s) (p) :
    Kept s₀ (helloSend s p) := by
  unfold helloSend
  try dsimp only
  repeat' first
      | with_reducible assumption | with_reducible apply emit_kept | split

theorem positionWrite_kept {s₀ s : State} (h : Kept s₀ s) (w) :
    Kept s₀ (positionWrite s w) := by
  unfold positionWrite
  try dsimp only
  repeat' first
      | with_reducible assumption | with_reducible apply raiseEvent_kept | with_reducible apply takePosition_kept | split

theorem portRetrain_kept {s₀ s : State} (h : Kept s₀ s) (p f) :
    Kept s₀ (portRetrain s p f) := by
  unfold portRetrain
  try dsimp only
  repeat' first
      | with_reducible assumption | with_reducible apply startRetrain_kept | split

theorem helloReceive_kept {s₀ s : State} (h : Kept s₀ s) (p h) :
    Kept s₀ (helloReceive s p h) := by
  unfold helloReceive
  try dsimp only
  repeat' first
      | with_reducible assumption | with_reducible apply fencePort_kept | with_reducible apply noteParent_kept
      | with_reducible apply setF_kept | with_reducible apply setPort_kept | with_reducible apply setPortState_kept
      | with_reducible apply takePosition_kept | split

theorem packetReceive_kept {s₀ s : State} (h : Kept s₀ s) (p) :
    Kept s₀ (packetReceive s p) := by
  unfold packetReceive
  try dsimp only
  repeat' first
      | with_reducible assumption | with_reducible apply countF_kept | with_reducible apply routePacket_kept
      | with_reducible apply setPort_kept | split

theorem portEnables_kept {s₀ s : State} (h : Kept s₀ s) :
    Kept s₀ (portEnables s) := by
  unfold portEnables
  try dsimp only
  repeat' first
      | with_reducible assumption | with_reducible apply portDown_kept
      | (with_reducible apply Kept.foldl; rotate_left 1; intro _ _ _; rotate_left 1) | split

theorem linkDelay_kept {s₀ s : State} (h : Kept s₀ s) (p delay) :
    Kept s₀ (linkDelay s p delay) := by
  unfold linkDelay
  try dsimp only
  repeat' first
      | with_reducible assumption | with_reducible apply setF_kept | split

theorem linkFrame_kept {s₀ s : State} (h : Kept s₀ s) (p seq ack credits crcOk pkt) :
    Kept s₀ (linkFrame s p seq ack credits crcOk pkt) := by
  unfold linkFrame
  try dsimp only
  repeat' first
      | with_reducible assumption | with_reducible apply countF_kept | with_reducible apply drainPort_kept
      | with_reducible apply emit_kept | with_reducible apply setPort_kept | split

/-! ### Drawers -/

theorem endOutRead_kept {s₀ s : State} (h : Kept s₀ s) (q) :
    Kept s₀ (endOutRead s q) := by
  unfold endOutRead
  try dsimp only
  repeat' first
      | with_reducible assumption | (simp only [kept_mk]; with_reducible apply Parts.of) | split

theorem setDrawer_kept {s₀ s : State} (h : Kept s₀ s) (q d) :
    Kept s₀ (setDrawer s q d) := by
  unfold setDrawer
  try dsimp only
  repeat' first
      | with_reducible assumption | (simp only [kept_mk]; with_reducible apply Parts.of)

theorem drawerDisable_kept {s₀ s : State} (h : Kept s₀ s) :
    Kept s₀ (drawerDisable s) := by
  unfold drawerDisable
  try dsimp only
  repeat' first
      | with_reducible assumption | with_reducible apply countReserved_kept | with_reducible apply endOutRead_kept
      | with_reducible apply setDrawer_kept | split

theorem sendLoss_kept {s₀ s : State} (h : Kept s₀ s) (q first n) :
    Kept s₀ (sendLoss s q first n) := by
  unfold sendLoss
  try dsimp only
  repeat' first
      | with_reducible assumption | with_reducible apply originate_kept

theorem declareLost_kept {s₀ s : State} (h : Kept s₀ s) (q k) :
    Kept s₀ (declareLost s q k) := by
  unfold declareLost
  try dsimp only
  repeat' first
      | with_reducible assumption | with_reducible apply countF_kept | with_reducible apply raiseEvent_kept
      | with_reducible apply sendLoss_kept | with_reducible apply setDrawer_kept | split

theorem issueCommit_kept {s₀ s : State} (h : Kept s₀ s) (src epoch tframe stream wcount reply) :
    Kept s₀ (issueCommit s src epoch tframe stream wcount reply) := by
  unfold issueCommit
  try dsimp only
  repeat' first
      | with_reducible assumption | with_reducible apply issueToScan_kept | with_reducible apply sendResults_kept
      | (simp only [kept_mk]; with_reducible apply Parts.of)

theorem commitPacket_kept {s₀ s : State} (h : Kept s₀ s) (q p) :
    Kept s₀ (commitPacket s q p) := by
  unfold commitPacket
  try dsimp only
  repeat' first
      | with_reducible assumption | with_reducible apply issueCommit_kept | with_reducible apply postResult_kept
      | with_reducible apply record_kept | with_reducible apply sendResults_kept | with_reducible apply setDrawer_kept | split

theorem loadPps_kept {s₀ s : State} (h : Kept s₀ s) (p) :
    Kept s₀ (loadPps s p) := by
  unfold loadPps
  try dsimp only
  repeat' first
      | with_reducible assumption | with_reducible apply countF_kept | (simp only [kept_mk]; with_reducible apply Parts.of)
      | split

theorem storeWords_kept {s₀ s : State} (h : Kept s₀ s) (a x2) :
    Kept s₀ (storeWords s a x2) := by
  induction x2 generalizing s a with
  | nil =>
    unfold storeWords
    try dsimp only
    repeat' first
        | with_reducible assumption
  | cons e l ih =>
    unfold storeWords
    try dsimp only
    repeat' first
        | with_reducible assumption | with_reducible apply ih | with_reducible apply sramStore_kept | split

theorem storeLogRows_kept {s₀ s : State} (h : Kept s₀ s) (rows first x3 x4) :
    Kept s₀ (storeLogRows s rows first x3 x4) := by
  induction x4 generalizing s rows first x3 with
  | nil =>
    unfold storeLogRows
    try dsimp only
    repeat' first
        | with_reducible assumption
  | cons e l ih =>
    unfold storeLogRows
    try dsimp only
    repeat' first
        | with_reducible assumption | with_reducible apply ih | with_reducible apply storeWords_kept

theorem logItem_kept {s₀ s : State} (h : Kept s₀ s) (p) :
    Kept s₀ (logItem s p) := by
  unfold logItem
  try dsimp only
  repeat' first
      | with_reducible assumption | with_reducible apply storeLogRows_kept
      | (simp only [kept_mk]; with_reducible apply Parts.of) | split

theorem issueRun_kept {s₀ s : State} (h : Kept s₀ s) (src x2 x3 x4) :
    Kept s₀ (issueRun s src x2 x3 x4).1 := by
  induction x2 generalizing s src x3 x4 with
  | zero =>
    unfold issueRun
    try dsimp only
    repeat' first
        | with_reducible assumption
  | succ n ih =>
    unfold issueRun
    try dsimp only
    repeat' first
        | with_reducible assumption | with_reducible apply ih | with_reducible apply issueToScan_kept | split

theorem issueDram_kept {s₀ s : State} (h : Kept s₀ s) (src a bs) :
    Kept s₀ (issueDram s src a bs).1 := by
  unfold issueDram
  try dsimp only
  repeat' first
      | with_reducible assumption | with_reducible apply issueRun_kept

theorem writeRing_kept {s₀ s : State} (h : Kept s₀ s) (d n off bs) :
    Kept s₀ (writeRing s d n off bs) := by
  unfold writeRing
  try dsimp only
  repeat' first
      | with_reducible assumption | with_reducible apply issueDram_kept | with_reducible apply storeWords_kept | split

theorem pushSlot_kept {s₀ s : State} (h : Kept s₀ s) (q bs) :
    Kept s₀ (pushSlot s q bs) := by
  unfold pushSlot
  try dsimp only
  repeat' first
      | with_reducible assumption | with_reducible apply pulse_kept | with_reducible apply setDrawer_kept
      | with_reducible apply writeRing_kept | split

theorem ringItem_kept {s₀ s : State} (h : Kept s₀ s) (q x) :
    Kept s₀ (ringItem s q x) := by
  unfold ringItem
  try dsimp only
  repeat' first
      | with_reducible assumption | with_reducible apply pushSlot_kept | split

theorem countIssued_kept {s₀ s : State} (h : Kept s₀ s) (q n) :
    Kept s₀ (countIssued s q n) := by
  unfold countIssued
  try dsimp only
  repeat' first
      | with_reducible assumption | with_reducible apply setDrawer_kept

theorem damage_kept {s₀ s : State} (h : Kept s₀ s) (q) :
    Kept s₀ (damage s q) := by
  unfold damage
  try dsimp only
  repeat' first
      | with_reducible assumption | with_reducible apply setDrawer_kept

theorem issueRegs_kept {s₀ s : State} (h : Kept s₀ s) (src a x3) :
    Kept s₀ (issueRegs s src a x3) := by
  induction x3 generalizing s src a with
  | nil =>
    unfold issueRegs
    try dsimp only
    repeat' first
        | with_reducible assumption
  | cons e l ih =>
    unfold issueRegs
    try dsimp only
    repeat' first
        | with_reducible assumption | with_reducible apply ih | with_reducible apply issueToScan_kept

theorem sceneRecords_kept {s₀ s : State} (h : Kept s₀ s) (q x2 x3) :
    Kept s₀ (sceneRecords s q x2 x3) := by
  induction x2 generalizing s q x3 with
  | zero =>
    unfold sceneRecords
    try dsimp only
    repeat' first
        | with_reducible assumption
  | succ n ih =>
    unfold sceneRecords
    try dsimp only
    repeat' first
        | with_reducible assumption | with_reducible apply ih | with_reducible apply countBadQ_kept
        | with_reducible apply countIssued_kept | with_reducible apply damage_kept | with_reducible apply issueDram_kept
        | with_reducible apply issueRegs_kept | split

theorem deliverItem_kept {s₀ s : State} (h : Kept s₀ s) (q x) :
    Kept s₀ (deliverItem s q x) := by
  unfold deliverItem
  try dsimp only
  repeat' first
      | with_reducible assumption | with_reducible apply commitPacket_kept | with_reducible apply loadPps_kept
      | with_reducible apply logItem_kept | with_reducible apply ringItem_kept | with_reducible apply sceneRecords_kept
      | with_reducible apply setDrawer_kept | split

theorem lossSlot_kept {s₀ s : State} (h : Kept s₀ s) (q n) :
    Kept s₀ (lossSlot s q n) := by
  unfold lossSlot
  try dsimp only
  repeat' first
      | with_reducible assumption | with_reducible apply pushSlot_kept

theorem flushLoss_kept {s₀ s : State} (h : Kept s₀ s) (q x2) :
    Kept s₀ (flushLoss s q x2) := by
  induction x2 generalizing s q with
  | zero =>
    unfold flushLoss
    try dsimp only
    repeat' first
        | with_reducible assumption
  | succ n ih =>
    unfold flushLoss
    try dsimp only
    repeat' first
        | with_reducible assumption | with_reducible apply ih | with_reducible apply lossSlot_kept
        | with_reducible apply setDrawer_kept | split

theorem passNext_kept {s₀ s : State} (h : Kept s₀ s) (q) :
    Kept s₀ (passNext s q) := by
  unfold passNext
  try dsimp only
  repeat' first
      | with_reducible assumption | with_reducible apply setDrawer_kept

theorem settle_kept {s₀ s : State} (h : Kept s₀ s) (q x2) :
    Kept s₀ (settle s q x2).1 := by
  induction x2 generalizing s q with
  | zero =>
    unfold settle
    try dsimp only
    repeat' first
        | with_reducible assumption
  | succ n ih =>
    unfold settle
    try dsimp only
    repeat' first
        | with_reducible assumption | with_reducible apply ih | with_reducible apply declareLost_kept
        | with_reducible apply deliverItem_kept | with_reducible apply flushLoss_kept | with_reducible apply passNext_kept
        | split

theorem patchTimeout_kept {s₀ s : State} (h : Kept s₀ s) (q) :
    Kept s₀ (patchTimeout s q) := by
  unfold patchTimeout
  try dsimp only
  repeat' first
      | with_reducible assumption | with_reducible apply setDrawer_kept | with_reducible apply settle_kept | split

theorem drawerEnable_kept {s₀ s : State} (h : Kept s₀ s) :
    Kept s₀ (drawerEnable s) := by
  unfold drawerEnable
  try dsimp only
  repeat' first
      | with_reducible assumption | with_reducible apply countReserved_kept | with_reducible apply issueToScan_kept
      | (simp only [kept_mk]; with_reducible apply Parts.of) | split

theorem takeInbox_kept {s₀ s : State} (h : Kept s₀ s) (t) :
    ∀ r, takeInbox s t = some r → Kept s₀ r.1 := by
  intro r hr
  unfold takeInbox at hr
  split at hr
  · cases hr
  · cases hr
    simp only [kept_mk]
    exact Parts.of h

theorem askOut_kept {s₀ s : State} (h : Kept s₀ s) (q off left) :
    Kept s₀ (askOut s q off left) := by
  unfold askOut
  try dsimp only
  repeat' first
      | with_reducible assumption | with_reducible apply issueToScan_kept

theorem dropOutRead_kept {s₀ s : State} (h : Kept s₀ s) :
    Kept s₀ (dropOutRead s) := by
  unfold dropOutRead
  try dsimp only
  repeat' first
      | with_reducible assumption | (simp only [kept_mk]; with_reducible apply Parts.of)

theorem finishOut_kept {s₀ s : State} (h : Kept s₀ s) (q w0 w3 status seq) :
    Kept s₀ (finishOut s q w0 w3 status seq) := by
  unfold finishOut
  try dsimp only
  repeat' first
      | with_reducible assumption | with_reducible apply pulse_kept | with_reducible apply setDrawer_kept
      | with_reducible apply writeRing_kept | split

theorem settleOut_kept {s₀ s : State} (h : Kept s₀ s) (q x) :
    Kept s₀ (settleOut s q x) := by
  unfold settleOut
  try dsimp only
  repeat' first
      | with_reducible assumption | with_reducible apply finishOut_kept | with_reducible apply setDrawer_kept | split

theorem sendOut_kept {s₀ s : State} (h : Kept s₀ s) (q w0 ctx w3 body) :
    Kept s₀ (sendOut s q w0 ctx w3 body) := by
  unfold sendOut
  try dsimp only
  repeat' first
      | with_reducible assumption | with_reducible apply settleOut_kept | with_reducible apply originate_kept
      | with_reducible apply setDrawer_kept

theorem outReadAnswer_kept {s₀ s : State} (h : Kept s₀ s) (r) :
    Kept s₀ (outReadAnswer s r) := by
  unfold outReadAnswer
  try dsimp only
  repeat' first
      | with_reducible assumption | with_reducible apply askOut_kept | with_reducible apply dropOutRead_kept
      | with_reducible apply finishOut_kept | with_reducible apply sendOut_kept | with_reducible apply takeAnswer_kept
      | refine takeAnswer_kept ?_ _ _ (_, _, _) (by with_reducible assumption)
      | (simp only [kept_mk]; with_reducible apply Parts.of) | split

theorem outFromDram_kept {s₀ s : State} (h : Kept s₀ s) (q) :
    Kept s₀ (outFromDram s q) := by
  unfold outFromDram
  try dsimp only
  repeat' first
      | with_reducible assumption | with_reducible apply askOut_kept | with_reducible apply dropAnswers_kept
      | with_reducible apply outReadAnswer_kept | (simp only [kept_mk]; with_reducible apply Parts.of) | split

theorem twinPacket_kept {s₀ s : State} (h : Kept s₀ s) (pmid qid payload) :
    Kept s₀ (twinPacket s pmid qid payload) := by
  unfold twinPacket
  try dsimp only
  repeat' first
      | with_reducible assumption | with_reducible apply enqueueOut_kept | (simp only [kept_mk]; with_reducible apply Parts.of)

theorem takeQueue_kept {s₀ s : State} (h : Kept s₀ s) (q) :
    ∀ r, takeQueue s q = some r → Kept s₀ r.1 := by
  intro r hr
  unfold takeQueue at hr
  obtain ⟨x, hx, rfl⟩ := Option.map_eq_some_iff.mp hr
  exact takeInbox_kept h _ _ hx

theorem drawerPointer_kept {s₀ s : State} (h : Kept s₀ s) (w) :
    Kept s₀ (drawerPointer s w) := by
  unfold drawerPointer
  try dsimp only
  repeat' first
      | with_reducible assumption | with_reducible apply countReserved_kept | with_reducible apply setDrawer_kept
      | with_reducible apply settle_kept | split

theorem engineRead_kept {s₀ s : State} (h : Kept s₀ s) (req a len) :
    Kept s₀ (engineRead s req a len).1 := by
  unfold engineRead
  try dsimp only
  repeat' first
      | with_reducible assumption | with_reducible apply touchUnits_kept | split

theorem readRing_kept {s₀ s : State} (h : Kept s₀ s) (d n off len) :
    Kept s₀ (readRing s d n off len).1 := by
  unfold readRing
  try dsimp only
  repeat' first
      | with_reducible assumption | with_reducible apply engineRead_kept | with_reducible apply sramLoad_kept
      | (with_reducible apply Kept.foldl_fst; rotate_left 1; intro _ _ _; rotate_left 1) | split

theorem outFromHouse_kept {s₀ s : State} (h : Kept s₀ s) (q) :
    Kept s₀ (outFromHouse s q) := by
  unfold outFromHouse
  try dsimp only
  repeat' first
      | with_reducible assumption | with_reducible apply finishOut_kept | with_reducible apply readRing_kept
      | with_reducible apply sendOut_kept | split

theorem openTwinQueue_kept {s₀ s : State} (h : Kept s₀ s) (x) :
    Kept s₀ (openTwinQueue s x) := by
  unfold openTwinQueue
  try dsimp only
  repeat' first
      | with_reducible assumption | with_reducible apply setDrawer_kept | (simp only [kept_mk]; with_reducible apply Parts.of)
      | split

theorem advanceWindow_kept {s₀ s : State} (h : Kept s₀ s) (q target x3) :
    Kept s₀ (advanceWindow s q target x3).1 := by
  induction x3 generalizing s q target with
  | zero =>
    unfold advanceWindow
    try dsimp only
    repeat' first
        | with_reducible assumption
  | succ n ih =>
    unfold advanceWindow
    try dsimp only
    repeat' first
        | with_reducible assumption | with_reducible apply ih | with_reducible apply declareLost_kept
        | with_reducible apply deliverItem_kept | with_reducible apply flushLoss_kept | with_reducible apply passNext_kept
        | split

theorem countDup_kept {s₀ s : State} (h : Kept s₀ s) (q) :
    Kept s₀ (countDup s q) := by
  unfold countDup
  try dsimp only
  repeat' first
      | with_reducible assumption | with_reducible apply setDrawer_kept

theorem discardFull_kept {s₀ s : State} (h : Kept s₀ s) :
    Kept s₀ (discardFull s) := by
  unfold discardFull
  try dsimp only
  repeat' first
      | with_reducible assumption | with_reducible apply raiseEvent_kept

theorem windowItem_kept {s₀ s : State} (h : Kept s₀ s) (q x) :
    Kept s₀ (windowItem s q x).1 := by
  unfold windowItem
  try dsimp only
  repeat' first
      | with_reducible assumption | with_reducible apply advanceWindow_kept | with_reducible apply countDup_kept
      | with_reducible apply deliverItem_kept | with_reducible apply discardFull_kept | with_reducible apply passNext_kept
      | with_reducible apply setDrawer_kept | with_reducible apply settle_kept | split

theorem takeTwin_kept {s₀ s : State} (h : Kept s₀ s) (q) :
    ∀ r, takeTwin s q = some r → Kept s₀ r.1 := by
  intro r e
  obtain ⟨t, ht, rfl⟩ := Option.map_eq_some_iff.mp e
  exact windowItem_kept (openTwinQueue_kept (takeQueue_kept h q _ ht) _) _ _

theorem outItemSend_kept {s₀ s : State} (h : Kept s₀ s) (q) :
    Kept s₀ (outItemSend s q) := by
  unfold outItemSend
  try dsimp only
  repeat' first
      | with_reducible assumption | with_reducible apply settleOut_kept | with_reducible apply outFromDram_kept
      | with_reducible apply outFromHouse_kept | split

theorem takeWindow_kept {s₀ s : State} (h : Kept s₀ s) (q) :
    ∀ r, takeWindow s q = some r → Kept s₀ r.1 := by
  intro r e
  obtain ⟨t, ht, rfl⟩ := Option.map_eq_some_iff.mp e
  exact windowItem_kept (takeQueue_kept h q _ ht) _ _

theorem leaveDisabled_kept {s₀ s : State} (h : Kept s₀ s) (q) :
    Kept s₀ (leaveDisabled s q) := by
  unfold leaveDisabled
  try dsimp only
  repeat' first
      | with_reducible assumption | with_reducible apply countBadQ_kept | with_reducible apply setDrawer_kept

theorem enableWith_kept {s₀ s : State} (h : Kept s₀ s) (q bs failed) :
    Kept s₀ (enableWith s q bs failed) := by
  unfold enableWith
  try dsimp only
  repeat' first
      | with_reducible assumption | with_reducible apply endOutRead_kept | with_reducible apply leaveDisabled_kept
      | with_reducible apply setDrawer_kept | split

theorem settleEnables_kept {s₀ s : State} (h : Kept s₀ s) (x1) :
    Kept s₀ (settleEnables s x1) := by
  induction x1 generalizing s  with
  | zero =>
    unfold settleEnables
    try dsimp only
    repeat' first
        | with_reducible assumption
  | succ n ih =>
    unfold settleEnables
    try dsimp only
    repeat' first
        | with_reducible assumption | with_reducible apply ih | with_reducible apply enableWith_kept
        | with_reducible apply takeAnswer_kept | refine takeAnswer_kept ?_ _ _ (_, _, _) (by with_reducible assumption)
        | (simp only [kept_mk]; with_reducible apply Parts.of) | split

theorem drawerItem_kept {s₀ s : State} (h : Kept s₀ s) :
    Kept s₀ (drawerItem s) := by
  unfold drawerItem
  try dsimp only
  repeat' first
      | with_reducible assumption | with_reducible apply countBadQ_kept | with_reducible apply countF_kept
      | with_reducible apply settleEnables_kept | with_reducible apply takeInbox_kept | with_reducible apply windowItem_kept
      | refine takeInbox_kept ?_ _ (_, _, _) (by with_reducible assumption) | split

theorem drawerTimedOut_kept {s₀ s : State} (h : Kept s₀ s) (src) :
    Kept s₀ (drawerTimedOut s src) := by
  unfold drawerTimedOut
  try dsimp only
  repeat' first
      | with_reducible assumption | with_reducible apply dropOutRead_kept | with_reducible apply dropReads_kept
      | with_reducible apply leaveDisabled_kept | (simp only [kept_mk]; with_reducible apply Parts.of) | split

theorem sendPatchRequest_kept {s₀ s : State} (h : Kept s₀ s) (q pmid) :
    Kept s₀ (sendPatchRequest s q pmid) := by
  unfold sendPatchRequest
  try dsimp only
  repeat' first
      | with_reducible assumption | with_reducible apply setDrawer_kept | with_reducible apply twinPacket_kept

theorem gapTimeout_kept {s₀ s : State} (h : Kept s₀ s) (q) :
    Kept s₀ (gapTimeout s q) := by
  unfold gapTimeout
  try dsimp only
  repeat' first
      | with_reducible assumption | with_reducible apply declareLost_kept | with_reducible apply sendPatchRequest_kept
      | with_reducible apply settle_kept | split

theorem drawerCommand_kept {s₀ s : State} (h : Kept s₀ s) (w) :
    Kept s₀ (drawerCommand s w) := by
  unfold drawerCommand
  try dsimp only
  repeat' first
      | with_reducible assumption | with_reducible apply countReserved_kept | with_reducible apply drawerDisable_kept
      | with_reducible apply drawerEnable_kept | split

/-! ### Compose -/

theorem fetchScrolls_kept {s₀ s : State} (h : Kept s₀ s) (a st k l) :
    Kept s₀ (fetchScrolls s a st k l) := by
  unfold fetchScrolls
  try dsimp only
  repeat' first
      | with_reducible assumption | with_reducible apply agentRead_kept | with_reducible apply cacheView_kept
      | with_reducible apply raiseEvent_kept | (with_reducible apply Kept.foldl; rotate_left 1; intro _ _ _; rotate_left 1)
      | (simp only [kept_mk]; with_reducible apply Parts.of) | split

theorem fetchLine_kept {s₀ s : State} (h : Kept s₀ s) (a st k l) :
    Kept s₀ (fetchLine s a st k l) := by
  unfold fetchLine
  try dsimp only
  repeat' first
      | with_reducible assumption | with_reducible apply fetchScrolls_kept | with_reducible apply prefetchUnit_kept
      | (with_reducible apply Kept.foldl; rotate_left 1; intro _ _ _; rotate_left 1) | split

theorem fetchRecords_kept {s₀ s : State} (h : Kept s₀ s) (a st k l) :
    Kept s₀ (fetchRecords s a st k l) := by
  unfold fetchRecords
  try dsimp only
  repeat' first
      | with_reducible assumption | with_reducible apply setF_kept | with_reducible apply touchUnits_kept
      | (simp only [kept_mk]; with_reducible apply Parts.of) | split

theorem fetchFirst_kept {s₀ s : State} (h : Kept s₀ s) (a st) :
    Kept s₀ (fetchFirst s a st) := by
  unfold fetchFirst
  try dsimp only
  repeat' first
      | with_reducible assumption | with_reducible apply fetchLine_kept | with_reducible apply fetchRecords_kept
      | (with_reducible apply Kept.foldl; rotate_left 1; intro _ _ _; rotate_left 1)

theorem frameTakes_kept {s₀ s : State} (h : Kept s₀ s) :
    Kept s₀ (frameTakes s) := by
  unfold frameTakes
  try dsimp only
  repeat' first
      | with_reducible assumption | with_reducible apply setF_kept | (simp only [kept_mk]; with_reducible apply Parts.of)

theorem composeStart_kept {s₀ s : State} (h : Kept s₀ s) (frame feed) :
    Kept s₀ (composeStart s frame feed) := by
  unfold composeStart
  try dsimp only
  repeat' first
      | with_reducible assumption | with_reducible apply beamAdvanceTo_kept | with_reducible apply fetchFirst_kept
      | with_reducible apply frameTakes_kept | with_reducible apply setF_kept
      | (simp only [kept_mk]; with_reducible apply Parts.of) | split

theorem toggleBank_kept {s₀ s : State} (h : Kept s₀ s) (l) :
    Kept s₀ (toggleBank s l) := by
  unfold toggleBank
  try dsimp only
  repeat' first
      | with_reducible assumption | (simp only [kept_mk]; with_reducible apply Parts.of)

theorem flipTo_kept {s₀ s : State} (h : Kept s₀ s) (l feed) :
    Kept s₀ (flipTo s l feed) := by
  unfold flipTo
  try dsimp only
  repeat' first
      | with_reducible assumption | with_reducible apply setF_kept | with_reducible apply toggleBank_kept

theorem missFlip_kept {s₀ s : State} (h : Kept s₀ s) (l frame feed) :
    Kept s₀ (missFlip s l frame feed) := by
  unfold missFlip
  try dsimp only
  repeat' first
      | with_reducible assumption | with_reducible apply countF_kept | with_reducible apply raiseEvent_kept
      | with_reducible apply setF_kept | (simp only [kept_mk]; with_reducible apply Parts.of) | split

theorem flipLine_kept {s₀ s : State} (h : Kept s₀ s) (frame feed l) :
    Kept s₀ (flipLine s frame feed l) := by
  unfold flipLine
  try dsimp only
  repeat' first
      | with_reducible assumption | with_reducible apply flipTo_kept | with_reducible apply missFlip_kept
      | (simp only [kept_mk]; with_reducible apply Parts.of) | split

theorem lineFlip_kept {s₀ s : State} (h : Kept s₀ s) (frame l) :
    Kept s₀ (lineFlip s frame l) := by
  unfold lineFlip
  try dsimp only
  repeat' first
      | with_reducible assumption | with_reducible apply beamAdvanceTo_kept | with_reducible apply flipLine_kept | split

theorem bufferRecords_kept {s₀ s : State} (h : Kept s₀ s) (k rs) :
    Kept s₀ (bufferRecords s k rs) := by
  unfold bufferRecords
  try dsimp only
  repeat' first
      | with_reducible assumption | (with_reducible apply Kept.foldl; rotate_left 1; intro _ _ _; rotate_left 1)
      | (simp only [kept_mk]; with_reducible apply Parts.of) | split

theorem lineReads_kept {s₀ s : State} (h : Kept s₀ s) (n d) :
    Kept s₀ (lineReads s n d) := by
  unfold lineReads
  try dsimp only
  repeat' first
      | with_reducible assumption | with_reducible apply cacheRead_kept | with_reducible apply touchUnits_kept
      | (with_reducible apply Kept.foldl; rotate_left 1; intro _ _ _; rotate_left 1)

theorem noteConcealed_kept {s₀ s : State} (h : Kept s₀ s) (n) :
    Kept s₀ (noteConcealed s n) := by
  unfold noteConcealed
  try dsimp only
  repeat' first
      | with_reducible assumption | with_reducible apply countF_kept | with_reducible apply perfCount_kept
      | with_reducible apply raiseEvent_kept | (simp only [kept_mk]; with_reducible apply Parts.of) | split

theorem readStore_kept {s₀ s : State} (h : Kept s₀ s) (bank line col req) :
    Kept s₀ (readStore s bank line col req) := by
  unfold readStore
  try dsimp only
  repeat' first
      | with_reducible assumption | with_reducible apply readScanUnit_kept
      | (simp only [kept_mk]; with_reducible apply Parts.of) | split

theorem concealReads_kept {s₀ s : State} (h : Kept s₀ s) (l px bad) :
    Kept s₀ (concealReads s l px bad) := by
  unfold concealReads
  try dsimp only
  repeat' first
      | with_reducible assumption | with_reducible apply readStore_kept
      | (with_reducible apply Kept.foldl; rotate_left 1; intro _ _ _; rotate_left 1) | split

theorem concealmentRun_kept {s₀ s : State} (h : Kept s₀ s) :
    Kept s₀ (concealmentRun s) := by
  unfold concealmentRun
  try dsimp only
  repeat' first
      | with_reducible assumption | with_reducible apply countF_kept | with_reducible apply setF_kept | split

theorem flipAll_kept {s₀ s : State} (h : Kept s₀ s) (a frame feed) :
    Kept s₀ (flipAll s a frame feed) := by
  unfold flipAll
  try dsimp only
  repeat' first
      | with_reducible assumption | with_reducible apply flipLine_kept
      | (with_reducible apply Kept.foldl; rotate_left 1; intro _ _ _; rotate_left 1)

theorem globalFlip_kept {s₀ s : State} (h : Kept s₀ s) (frame) :
    Kept s₀ (globalFlip s frame) := by
  unfold globalFlip
  try dsimp only
  repeat' first
      | with_reducible assumption | with_reducible apply beamAdvanceTo_kept | with_reducible apply flipAll_kept | split

theorem writeSideboard_kept {s₀ s : State} (h : Kept s₀ s) (v a st k l) :
    Kept s₀ (writeSideboard v s a st k l) := by
  unfold writeSideboard
  try dsimp only
  repeat' first
      | with_reducible assumption | with_reducible apply dramWrite_kept | with_reducible apply makeRoom_kept | split

theorem sideboardFrame_kept {s₀ s : State} (h : Kept s₀ s) :
    Kept s₀ (sideboardFrame s) := by
  unfold sideboardFrame
  try dsimp only
  repeat' first
      | with_reducible assumption | with_reducible apply setF_kept | (simp only [kept_mk]; with_reducible apply Parts.of)
      | split

theorem putStore_kept {s₀ s : State} (h : Kept s₀ s) (bank line col ws) :
    Kept s₀ (putStore s bank line col ws) := by
  unfold putStore
  try dsimp only
  repeat' first
      | with_reducible assumption | (with_reducible apply Kept.foldl; rotate_left 1; intro _ _ _; rotate_left 1)
      | (simp only [kept_mk]; with_reducible apply Parts.of)

theorem readRecord_kept {s₀ s : State} (h : Kept s₀ s) (k x) :
    Kept s₀ (readRecord s k x) := by
  unfold readRecord
  try dsimp only
  repeat' first
      | with_reducible assumption | with_reducible apply readScanUnit_kept
      | (simp only [kept_mk]; with_reducible apply Parts.of) | split

theorem lineComplete_kept {s₀ s : State} (h : Kept s₀ s) (l frame feed) :
    Kept s₀ (lineComplete s l frame feed) := by
  unfold lineComplete
  try dsimp only
  repeat' first
      | with_reducible assumption | with_reducible apply flipTo_kept | (simp only [kept_mk]; with_reducible apply Parts.of)
      | split

theorem noteLate_kept {s₀ s : State} (h : Kept s₀ s) (k) :
    Kept s₀ (noteLate s k) := by
  unfold noteLate
  try dsimp only
  repeat' first
      | with_reducible assumption | with_reducible apply countF_kept | with_reducible apply orF_kept
      | with_reducible apply raiseEvent_kept

theorem readLineBuffer_kept {s₀ s : State} (h : Kept s₀ s) (n k) :
    Kept s₀ (readLineBuffer s n k) := by
  unfold readLineBuffer
  try dsimp only
  repeat' first
      | with_reducible assumption | with_reducible apply readScanUnit_kept
      | (with_reducible apply Kept.foldl; rotate_left 1; intro _ _ _; rotate_left 1)
      | (simp only [kept_mk]; with_reducible apply Parts.of)

theorem storeLine_kept {s₀ s : State} (h : Kept s₀ s) (l px bad) :
    Kept s₀ (storeLine s l px bad) := by
  unfold storeLine
  try dsimp only
  repeat' first
      | with_reducible assumption | with_reducible apply putStore_kept
      | (with_reducible apply Kept.foldl; rotate_left 1; intro _ _ _; rotate_left 1)

theorem takeRecords_kept {s₀ s : State} (h : Kept s₀ s) (k l) :
    Kept s₀ (takeRecords s k l).1 := by
  unfold takeRecords
  try dsimp only
  repeat' first
      | with_reducible assumption | (simp only [kept_mk]; with_reducible apply Parts.of) | split

theorem composeLine_kept {s₀ s : State} (h : Kept s₀ s) (k l calLate) :
    Kept s₀ (composeLine s k l calLate) := by
  unfold composeLine
  try dsimp only
  repeat' first
      | with_reducible assumption | with_reducible apply bufferRecords_kept | with_reducible apply cacheView_kept
      | with_reducible apply concealReads_kept | with_reducible apply fetchLine_kept | with_reducible apply fetchRecords_kept
      | with_reducible apply lineComplete_kept | with_reducible apply lineReads_kept | with_reducible apply noteConcealed_kept
      | with_reducible apply noteLate_kept | with_reducible apply perfCount_kept | with_reducible apply readLineBuffer_kept
      | with_reducible apply readRecord_kept | with_reducible apply readTable_kept | with_reducible apply storeLine_kept
      | with_reducible apply takeRecords_kept | with_reducible apply writeSideboard_kept
      | (with_reducible apply Kept.foldl; rotate_left 1; intro _ _ _; rotate_left 1)
      | (simp only [kept_mk]; with_reducible apply Parts.of) | split

theorem feedFlip_kept {s₀ s : State} (h : Kept s₀ s) (frame feed) :
    Kept s₀ (feedFlip s frame feed) := by
  unfold feedFlip
  try dsimp only
  repeat' first
      | with_reducible assumption | with_reducible apply beamAdvanceTo_kept | with_reducible apply flipAll_kept | split

theorem composeEnd_kept {s₀ s : State} (h : Kept s₀ s) :
    Kept s₀ (composeEnd s).1 := by
  unfold composeEnd
  try dsimp only
  repeat' first
      | with_reducible assumption | with_reducible apply concealmentRun_kept | with_reducible apply raiseEvent_kept
      | with_reducible apply recordScan_kept | with_reducible apply setF_kept | with_reducible apply sideboardFrame_kept
      | (simp only [kept_mk]; with_reducible apply Parts.of) | split

/-! ### Drive -/

theorem driveIfHolding_kept {s₀ s : State} (h : Kept s₀ s) :
    Kept s₀ (driveIfHolding s) := by
  unfold driveIfHolding
  try dsimp only
  repeat' first
      | with_reducible assumption | with_reducible apply setF_kept | split

theorem setOwnA_kept {s₀ s : State} (h : Kept s₀ s) (b) :
    Kept s₀ (setOwnA s b) := by
  unfold setOwnA
  try dsimp only
  repeat' first
      | with_reducible assumption | (simp only [kept_mk]; with_reducible apply Parts.of)

theorem startClaim_kept {s₀ s : State} (h : Kept s₀ s) :
    Kept s₀ (startClaim s) := by
  unfold startClaim
  try dsimp only
  repeat' first
      | with_reducible assumption | with_reducible apply setF_kept | with_reducible apply setOwnA_kept
      | (simp only [kept_mk]; with_reducible apply Parts.of)

theorem claimHarness_kept {s₀ s : State} (h : Kept s₀ s) :
    Kept s₀ (claimHarness s) := by
  unfold claimHarness
  try dsimp only
  repeat' first
      | with_reducible assumption | with_reducible apply setF_kept | with_reducible apply startClaim_kept
      | (simp only [kept_mk]; with_reducible apply Parts.of) | split

theorem released_kept {s₀ s : State} (h : Kept s₀ s) :
    Kept s₀ (released s) := by
  unfold released
  try dsimp only
  repeat' first
      | with_reducible assumption | with_reducible apply claimHarness_kept | with_reducible apply setF_kept
      | with_reducible apply setOwnA_kept | (simp only [kept_mk]; with_reducible apply Parts.of) | split

theorem slotBoundary_kept {s₀ s : State} (h : Kept s₀ s) :
    Kept s₀ (slotBoundary s) := by
  unfold slotBoundary
  try dsimp only
  repeat' first
      | with_reducible assumption | with_reducible apply driveIfHolding_kept | with_reducible apply released_kept | split

theorem beamDark_kept {s₀ s : State} (h : Kept s₀ s) :
    Kept s₀ (beamDark s) := by
  unfold beamDark
  try dsimp only
  repeat' first
      | with_reducible assumption | with_reducible apply setF_kept | with_reducible apply slotBoundary_kept

theorem settleRelease_kept {s₀ s : State} (h : Kept s₀ s) :
    Kept s₀ (settleRelease s) := by
  unfold settleRelease
  try dsimp only
  repeat' first
      | with_reducible assumption | with_reducible apply released_kept | split

theorem releaseAtBoundary_kept {s₀ s : State} (h : Kept s₀ s) :
    Kept s₀ (releaseAtBoundary s) := by
  unfold releaseAtBoundary
  try dsimp only
  repeat' first
      | with_reducible assumption | with_reducible apply released_kept | (simp only [kept_mk]; with_reducible apply Parts.of)
      | split

theorem boundaryRelease_kept {s₀ s : State} (h : Kept s₀ s) :
    Kept s₀ (boundaryRelease s) := by
  unfold boundaryRelease
  try dsimp only
  repeat' first
      | with_reducible assumption | with_reducible apply releaseAtBoundary_kept
      | (simp only [kept_mk]; with_reducible apply Parts.of)

theorem noteRow_kept {s₀ s : State} (h : Kept s₀ s) (bank row) :
    Kept s₀ (noteRow s bank row) := by
  unfold noteRow
  try dsimp only
  repeat' first
      | with_reducible assumption | with_reducible apply readStore_kept
      | (with_reducible apply Kept.foldl; rotate_left 1; intro _ _ _; rotate_left 1)

theorem slotRow_kept {s₀ s : State} (h : Kept s₀ s) (row) :
    Kept s₀ (slotRow s row) := by
  unfold slotRow
  try dsimp only
  repeat' first
      | with_reducible assumption | with_reducible apply noteRow_kept | (simp only [kept_mk]; with_reducible apply Parts.of)
      | split

theorem planeSlotStart_kept {s₀ s : State} (h : Kept s₀ s) (n) :
    Kept s₀ (planeSlotStart s n) := by
  unfold planeSlotStart
  try dsimp only
  repeat' first
      | with_reducible assumption | with_reducible apply slotBoundary_kept
      | (simp only [kept_mk]; with_reducible apply Parts.of) | split

theorem countCfgDrop_kept {s₀ s : State} (h : Kept s₀ s) :
    Kept s₀ (countCfgDrop s) := by
  unfold countCfgDrop
  try dsimp only
  repeat' first
      | with_reducible assumption | with_reducible apply countF_kept

theorem reportRunFailure_kept {s₀ s : State} (h : Kept s₀ s) (f) :
    Kept s₀ (reportRunFailure s f) := by
  unfold reportRunFailure
  try dsimp only
  repeat' first
      | with_reducible assumption | with_reducible apply raiseEvent_kept | with_reducible apply setF_kept | split

theorem runWrite_kept {s₀ s : State} (h : Kept s₀ s) (mask) :
    Kept s₀ (runWrite s mask) := by
  unfold runWrite
  try dsimp only
  repeat' first
      | with_reducible assumption | with_reducible apply reportRunFailure_kept | with_reducible apply setF_kept
      | (simp only [kept_mk]; with_reducible apply Parts.of) | split

theorem pgctlWrite_kept {s₀ s : State} (h : Kept s₀ s) (w) :
    Kept s₀ (pgctlWrite s w) := by
  unfold pgctlWrite
  try dsimp only
  repeat' first
      | with_reducible assumption | with_reducible apply countCfgDrop_kept | with_reducible apply runWrite_kept
      | with_reducible apply setF_kept | split

theorem rowSlotStart_kept {s₀ s : State} (h : Kept s₀ s) (row) :
    Kept s₀ (rowSlotStart s row) := by
  unfold rowSlotStart
  try dsimp only
  repeat' first
      | with_reducible assumption | with_reducible apply noteRow_kept | with_reducible apply setF_kept
      | with_reducible apply slotRow_kept | (simp only [kept_mk]; with_reducible apply Parts.of) | split

theorem rearm_kept {s₀ s : State} (h : Kept s₀ s) :
    Kept s₀ (rearm s) := by
  unfold rearm
  try dsimp only
  repeat' first
      | with_reducible assumption | with_reducible apply claimHarness_kept | with_reducible apply setF_kept
      | (simp only [kept_mk]; with_reducible apply Parts.of) | split

theorem ownBChange_kept {s₀ s : State} (h : Kept s₀ s) (high) :
    Kept s₀ (ownBChange s high) := by
  unfold ownBChange
  try dsimp only
  repeat' first
      | with_reducible assumption | with_reducible apply raiseEvent_kept | with_reducible apply rearm_kept
      | with_reducible apply recordScan_kept | with_reducible apply released_kept | with_reducible apply setF_kept
      | with_reducible apply setOwnA_kept | with_reducible apply startClaim_kept
      | (simp only [kept_mk]; with_reducible apply Parts.of) | split

theorem claimWritten_kept {s₀ s : State} (h : Kept s₀ s) :
    Kept s₀ (claimWritten s) := by
  unfold claimWritten
  try dsimp only
  repeat' first
      | with_reducible assumption | with_reducible apply claimHarness_kept | with_reducible apply releaseAtBoundary_kept
      | with_reducible apply setF_kept | split

theorem refreshCycleStart_kept {s₀ s : State} (h : Kept s₀ s) (frame j) :
    Kept s₀ (refreshCycleStart s frame j) := by
  unfold refreshCycleStart
  try dsimp only
  repeat' first
      | with_reducible assumption | with_reducible apply beamAdvanceTo_kept | with_reducible apply setF_kept
      | (simp only [kept_mk]; with_reducible apply Parts.of) | split

theorem tarbExpiry_kept {s₀ s : State} (h : Kept s₀ s) :
    Kept s₀ (tarbExpiry s).1 := by
  unfold tarbExpiry
  try dsimp only
  repeat' first
      | with_reducible assumption | with_reducible apply driveIfHolding_kept | with_reducible apply raiseEvent_kept
      | with_reducible apply setF_kept | split

theorem holdUnusedRegions_kept {s₀ s : State} (h : Kept s₀ s) :
    Kept s₀ (holdUnusedRegions s) := by
  unfold holdUnusedRegions
  try dsimp only
  repeat' first
      | with_reducible assumption | with_reducible apply setF_kept | with_reducible apply settleRelease_kept

/-! ### PadDrive -/

theorem holdChanged_kept {s₀ s : State} (h : Kept s₀ s) (old ps) :
    Kept s₀ (holdChanged old s ps) := by
  unfold holdChanged
  try dsimp only
  repeat' first
      | with_reducible assumption | with_reducible apply takeFresh_kept | (simp only [kept_mk]; with_reducible apply Parts.of)
      | split

theorem holdPorts_kept {s₀ s : State} (h : Kept s₀ s) (old) :
    Kept s₀ (holdPorts old s) := by
  unfold holdPorts
  try dsimp only
  repeat' first
      | with_reducible assumption | with_reducible apply holdChanged_kept

/-! ### Geometry -/

theorem passSlice_kept {s₀ s : State} (h : Kept s₀ s) (q n) :
    Kept s₀ (passSlice s q n) := by
  unfold passSlice
  try dsimp only
  repeat' first
      | with_reducible assumption | with_reducible apply setDrawer_kept | with_reducible apply settle_kept

theorem writeSlice_kept {s₀ s : State} (h : Kept s₀ s) (c) :
    Kept s₀ (writeSlice s c) := by
  unfold writeSlice
  try dsimp only
  repeat' first
      | with_reducible assumption | with_reducible apply dramWrite_kept | with_reducible apply makeRoom_kept
      | (with_reducible apply Kept.foldl; rotate_left 1; intro _ _ _; rotate_left 1)

theorem takeArea_kept {s₀ s : State} (h : Kept s₀ s) (a) :
    Kept s₀ (takeArea s a) := by
  unfold takeArea
  try dsimp only
  repeat' first
      | with_reducible assumption | with_reducible apply composesFromHere_kept | with_reducible apply holdPorts_kept
      | with_reducible apply holdUnusedRegions_kept | with_reducible apply invalidateSideboard_kept
      | with_reducible apply startRescan_kept | (simp only [kept_mk]; with_reducible apply Parts.of) | split

theorem activateTable_kept {s₀ s : State} (h : Kept s₀ s) (a es e) :
    Kept s₀ (activateTable s a es e) := by
  unfold activateTable
  try dsimp only
  repeat' first
      | with_reducible assumption | with_reducible apply raiseEvent_kept | with_reducible apply setF_kept
      | with_reducible apply setRegWord_kept | with_reducible apply takeArea_kept
      | (simp only [kept_mk]; with_reducible apply Parts.of)

theorem setRoute_kept {s₀ s : State} (h : Kept s₀ s) (mid e) :
    Kept s₀ (setRoute s mid e) := by
  unfold setRoute
  try dsimp only
  repeat' first
      | with_reducible assumption | (simp only [kept_mk]; with_reducible apply Parts.of)

theorem readChunk_kept {s₀ s : State} (h : Kept s₀ s) (d n) :
    Kept s₀ (readChunk s d n).1 := by
  unfold readChunk
  try dsimp only
  repeat' first
      | with_reducible assumption | with_reducible apply readRing_kept | split

theorem gatherSlice_kept {s₀ s : State} (h : Kept s₀ s) (d acc x3) :
    Kept s₀ (gatherSlice s d acc x3).1 := by
  induction x3 generalizing s d acc with
  | zero =>
    unfold gatherSlice
    try dsimp only
    repeat' first
        | with_reducible assumption
  | succ n ih =>
    unfold gatherSlice
    try dsimp only
    repeat' first
        | with_reducible assumption | with_reducible apply ih | with_reducible apply readChunk_kept | split

theorem sliceDecode_kept {s₀ s : State} (h : Kept s₀ s) (q) :
    Kept s₀ (sliceDecode s q) := by
  unfold sliceDecode
  try dsimp only
  repeat' first
      | with_reducible assumption | with_reducible apply countF_kept | with_reducible apply gatherSlice_kept
      | with_reducible apply passSlice_kept | with_reducible apply writeSlice_kept | split

theorem routeWrite_kept {s₀ s : State} (h : Kept s₀ s) (w) :
    Kept s₀ (routeWrite s w) := by
  unfold routeWrite
  try dsimp only
  repeat' first
      | with_reducible assumption | with_reducible apply setRoute_kept

theorem takeEntries_kept {s₀ s : State} (h : Kept s₀ s) (a x2) :
    Kept s₀ (takeEntries s a x2).1 := by
  induction x2 generalizing s a with
  | zero =>
    unfold takeEntries
    try dsimp only
    repeat' first
        | with_reducible assumption
  | succ n ih =>
    unfold takeEntries
    try dsimp only
    repeat' first
        | with_reducible assumption | with_reducible apply ih | with_reducible apply takeAnswer_kept
        | refine takeAnswer_kept ?_ _ _ (_, _, _) (by with_reducible assumption) | split

theorem admitGeometry_kept {s₀ s : State} (h : Kept s₀ s) :
    Kept s₀ (admitGeometry s) := by
  unfold admitGeometry
  try dsimp only
  repeat' first
      | with_reducible assumption | with_reducible apply takeWindow_kept
      | exact takeWindow_kept h _ (_, _) (by with_reducible assumption) | (simp only [kept_mk]; with_reducible apply Parts.of)
      | split

theorem geometryActivate_kept {s₀ s : State} (h : Kept s₀ s) :
    Kept s₀ (geometryActivate s) := by
  unfold geometryActivate
  try dsimp only
  repeat' first
      | with_reducible assumption | with_reducible apply admitGeometry_kept | with_reducible apply issueToScan_kept
      | (with_reducible apply Kept.foldl; rotate_left 1; intro _ _ _; rotate_left 1)
      | (simp only [kept_mk]; with_reducible apply Parts.of) | split

theorem writeEntries_kept {s₀ s : State} (h : Kept s₀ s) (epoch first n bs) :
    Kept s₀ (writeEntries s epoch first n bs) := by
  unfold writeEntries
  try dsimp only
  repeat' first
      | with_reducible assumption | with_reducible apply issueDram_kept
      | (with_reducible apply Kept.foldl; rotate_left 1; intro _ _ _; rotate_left 1)
      | (simp only [kept_mk]; with_reducible apply Parts.of) | split

theorem geometryItem_kept {s₀ s : State} (h : Kept s₀ s) :
    Kept s₀ (geometryItem s) := by
  unfold geometryItem
  try dsimp only
  repeat' first
      | with_reducible assumption | with_reducible apply admitGeometry_kept | with_reducible apply countBadQ_kept
      | with_reducible apply writeEntries_kept | (simp only [kept_mk]; with_reducible apply Parts.of) | split

theorem routeRecord_kept {s₀ s : State} (h : Kept s₀ s) (v) :
    Kept s₀ (routeRecord s v) := by
  unfold routeRecord
  try dsimp only
  repeat' first
      | with_reducible assumption | with_reducible apply countBadQ_kept | with_reducible apply setRegWord_kept
      | with_reducible apply setRoute_kept | split

theorem routeRecords_kept {s₀ s : State} (h : Kept s₀ s) (p) :
    Kept s₀ (routeRecords s p) := by
  unfold routeRecords
  try dsimp only
  repeat' first
      | with_reducible assumption | with_reducible apply routeRecord_kept
      | (with_reducible apply Kept.foldl; rotate_left 1; intro _ _ _; rotate_left 1)

theorem routePlanItem_kept {s₀ s : State} (h : Kept s₀ s) :
    Kept s₀ (routePlanItem s) := by
  unfold routePlanItem
  try dsimp only
  repeat' first
      | with_reducible assumption | with_reducible apply routeRecords_kept | with_reducible apply takeWindow_kept
      | exact takeWindow_kept h _ (_, _) (by with_reducible assumption)
      | (with_reducible apply Kept.foldl; rotate_left 1; intro _ _ _; rotate_left 1) | split

theorem geometryActivationDone_kept {s₀ s : State} (h : Kept s₀ s) :
    Kept s₀ (geometryActivationDone s) := by
  unfold geometryActivationDone
  try dsimp only
  repeat' first
      | with_reducible assumption | with_reducible apply activateTable_kept | with_reducible apply dropReads_kept
      | with_reducible apply raiseEvent_kept | with_reducible apply takeEntries_kept
      | (simp only [kept_mk]; with_reducible apply Parts.of) | split

/-! ### Twin -/

theorem eachTwin_kept {s₀ s : State} (h : Kept s₀ s) (q) (f : State → Packet → State) (hf : ∀ t p, Kept s₀ t → Kept s₀ (f t p)) :
    Kept s₀ (eachTwin s q f) := by
  unfold eachTwin
  split
  · exact h
  · next e => exact Kept.foldl (takeTwin_kept h q _ e) _ _ hf

theorem enterFailed_kept {s₀ s : State} (h : Kept s₀ s) :
    Kept s₀ (enterFailed s) := by
  unfold enterFailed
  try dsimp only
  repeat' first
      | with_reducible assumption | with_reducible apply boundaryRelease_kept
      | (simp only [kept_mk]; with_reducible apply Parts.of)

theorem reportFault_kept {s₀ s : State} (h : Kept s₀ s) (bit) :
    Kept s₀ (reportFault s bit) := by
  unfold reportFault
  try dsimp only
  repeat' first
      | with_reducible assumption | with_reducible apply orF_kept | with_reducible apply raiseEvent_kept | split

theorem fatalFault_kept {s₀ s : State} (h : Kept s₀ s) (bit) :
    Kept s₀ (fatalFault s bit) := by
  unfold fatalFault
  try dsimp only
  repeat' first
      | with_reducible assumption | with_reducible apply enterFailed_kept | with_reducible apply reportFault_kept | split

theorem recordTwin_kept {s₀ s : State} (h : Kept s₀ s) (what) :
    Kept s₀ (recordTwin s what) := by
  unfold recordTwin
  try dsimp only
  repeat' first
      | with_reducible assumption | with_reducible apply record_kept

theorem checkOutcome_kept {s₀ s : State} (h : Kept s₀ s) (own theirs) :
    Kept s₀ (checkOutcome s own theirs) := by
  unfold checkOutcome
  try dsimp only
  repeat' first
      | with_reducible assumption | with_reducible apply enterFailed_kept | with_reducible apply fatalFault_kept
      | with_reducible apply raiseEvent_kept | with_reducible apply recordTwin_kept | with_reducible apply reportFault_kept
      | with_reducible apply setF_kept | (simp only [kept_mk]; with_reducible apply Parts.of) | split

theorem settleCheck_kept {s₀ s : State} (h : Kept s₀ s) :
    Kept s₀ (settleCheck s) := by
  unfold settleCheck
  try dsimp only
  repeat' first
      | with_reducible assumption | with_reducible apply checkOutcome_kept | split

theorem takeCheckResult_kept {s₀ s : State} (h : Kept s₀ s) (p) :
    Kept s₀ (takeCheckResult s p) := by
  unfold takeCheckResult
  try dsimp only
  repeat' first
      | with_reducible assumption | with_reducible apply settleCheck_kept | (simp only [kept_mk]; with_reducible apply Parts.of)
      | split

theorem selfCheckResult_kept {s₀ s : State} (h : Kept s₀ s) :
    Kept s₀ (selfCheckResult s) := by
  unfold selfCheckResult
  try dsimp only
  repeat' first
      | with_reducible assumption | with_reducible apply eachTwin_kept | with_reducible apply takeCheckResult_kept
      | (with_reducible intro _)

theorem selfCheckTimeout_kept {s₀ s : State} (h : Kept s₀ s) :
    Kept s₀ (selfCheckTimeout s) := by
  unfold selfCheckTimeout
  try dsimp only
  repeat' first
      | with_reducible assumption | with_reducible apply checkOutcome_kept | split

theorem patchItem_kept {s₀ s : State} (h : Kept s₀ s) (p) :
    Kept s₀ (patchItem s p) := by
  unfold patchItem
  try dsimp only
  repeat' first
      | with_reducible assumption | with_reducible apply countBadQ_kept | with_reducible apply countF_kept
      | with_reducible apply windowItem_kept | split

theorem patchMissing_kept {s₀ s : State} (h : Kept s₀ s) (q n) :
    Kept s₀ (patchMissing s q n) := by
  unfold patchMissing
  try dsimp only
  repeat' first
      | with_reducible assumption | with_reducible apply setDrawer_kept | with_reducible apply settle_kept | split

theorem takePatch_kept {s₀ s : State} (h : Kept s₀ s) (p) :
    Kept s₀ (takePatch s p) := by
  unfold takePatch
  try dsimp only
  repeat' first
      | with_reducible assumption | with_reducible apply patchItem_kept | with_reducible apply patchMissing_kept
      | (simp only [kept_mk]; with_reducible apply Parts.of) | split

theorem patchData_kept {s₀ s : State} (h : Kept s₀ s) :
    Kept s₀ (patchData s) := by
  unfold patchData
  try dsimp only
  repeat' first
      | with_reducible assumption | with_reducible apply eachTwin_kept | with_reducible apply takePatch_kept
      | (with_reducible intro _)

theorem startCheck_kept {s₀ s : State} (h : Kept s₀ s) :
    Kept s₀ (startCheck s) := by
  unfold startCheck
  try dsimp only
  repeat' first
      | with_reducible assumption | (simp only [kept_mk]; with_reducible apply Parts.of) | split

theorem compareLine_kept {s₀ s : State} (h : Kept s₀ s) (frame same) :
    Kept s₀ (compareLine s frame same) := by
  unfold compareLine
  try dsimp only
  repeat' first
      | with_reducible assumption | with_reducible apply countF_kept | with_reducible apply startCheck_kept
      | (simp only [kept_mk]; with_reducible apply Parts.of) | split

theorem matchLines_kept {s₀ s : State} (h : Kept s₀ s) (x1) :
    Kept s₀ (matchLines s x1) := by
  induction x1 generalizing s  with
  | zero =>
    unfold matchLines
    try dsimp only
    repeat' first
        | with_reducible assumption
  | succ n ih =>
    unfold matchLines
    try dsimp only
    repeat' first
        | with_reducible assumption | with_reducible apply ih | with_reducible apply compareLine_kept
        | (simp only [kept_mk]; with_reducible apply Parts.of) | split

theorem takeSignatures_kept {s₀ s : State} (h : Kept s₀ s) (p) :
    Kept s₀ (takeSignatures s p) := by
  unfold takeSignatures
  try dsimp only
  repeat' first
      | with_reducible assumption | with_reducible apply matchLines_kept | (simp only [kept_mk]; with_reducible apply Parts.of)
      | split

theorem signatureReceive_kept {s₀ s : State} (h : Kept s₀ s) :
    Kept s₀ (signatureReceive s) := by
  unfold signatureReceive
  try dsimp only
  repeat' first
      | with_reducible assumption | with_reducible apply eachTwin_kept | with_reducible apply takeSignatures_kept
      | (with_reducible intro _)

theorem commandRefused_kept {s₀ s : State} (h : Kept s₀ s) :
    Kept s₀ (commandRefused s) := by
  unfold commandRefused
  try dsimp only
  repeat' first
      | with_reducible assumption | with_reducible apply raiseEvent_kept

theorem twinSend_kept {s₀ s : State} (h : Kept s₀ s) (qid payload) :
    Kept s₀ (twinSend s qid payload) := by
  unfold twinSend
  try dsimp only
  repeat' first
      | with_reducible assumption | with_reducible apply twinPacket_kept | split

theorem signLine_kept {s₀ s : State} (h : Kept s₀ s) (frame pass l bank) :
    Kept s₀ (signLine s frame pass l bank) := by
  unfold signLine
  try dsimp only
  repeat' first
      | with_reducible assumption | with_reducible apply matchLines_kept | with_reducible apply twinSend_kept
      | (simp only [kept_mk]; with_reducible apply Parts.of) | split

theorem signatureExpiry_kept {s₀ s : State} (h : Kept s₀ s) :
    Kept s₀ (signatureExpiry s) := by
  unfold signatureExpiry
  try dsimp only
  repeat' first
      | with_reducible assumption | (simp only [kept_mk]; with_reducible apply Parts.of)

theorem yieldHarness_kept {s₀ s : State} (h : Kept s₀ s) :
    Kept s₀ (yieldHarness s) := by
  unfold yieldHarness
  try dsimp only
  repeat' first
      | with_reducible assumption | with_reducible apply boundaryRelease_kept | with_reducible apply commandRefused_kept
      | (simp only [kept_mk]; with_reducible apply Parts.of) | split

theorem takeRequest_kept {s₀ s : State} (h : Kept s₀ s) :
    Kept s₀ (takeRequest s) := by
  unfold takeRequest
  try dsimp only
  repeat' first
      | with_reducible assumption | with_reducible apply eachTwin_kept | with_reducible apply yieldHarness_kept | split
      | (with_reducible intro _)

theorem heartbeatMiss_kept {s₀ s : State} (h : Kept s₀ s) :
    Kept s₀ (heartbeatMiss s) := by
  unfold heartbeatMiss
  try dsimp only
  repeat' first
      | with_reducible assumption | with_reducible apply countF_kept | with_reducible apply raiseEvent_kept
      | with_reducible apply recordTwin_kept | with_reducible apply setF_kept | split

theorem takeBeat_kept {s₀ s : State} (h : Kept s₀ s) (p) :
    Kept s₀ (takeBeat s p) := by
  unfold takeBeat
  try dsimp only
  repeat' first
      | with_reducible assumption | with_reducible apply setF_kept | (simp only [kept_mk]; with_reducible apply Parts.of)
      | split

theorem heartbeatReceive_kept {s₀ s : State} (h : Kept s₀ s) :
    Kept s₀ (heartbeatReceive s) := by
  unfold heartbeatReceive
  try dsimp only
  repeat' first
      | with_reducible assumption | with_reducible apply eachTwin_kept | with_reducible apply takeBeat_kept
      | (with_reducible intro _)

theorem takeHarness_kept {s₀ s : State} (h : Kept s₀ s) :
    Kept s₀ (takeHarness s) := by
  unfold takeHarness
  try dsimp only
  repeat' first
      | with_reducible assumption | with_reducible apply commandRefused_kept | with_reducible apply twinSend_kept | split

theorem powerGoodLoss_kept {s₀ s : State} (h : Kept s₀ s) :
    Kept s₀ (powerGoodLoss s) := by
  unfold powerGoodLoss
  try dsimp only
  repeat' first
      | with_reducible assumption | with_reducible apply fatalFault_kept

theorem answerPatch_kept {s₀ s : State} (h : Kept s₀ s) (q n) :
    Kept s₀ (answerPatch s q n) := by
  unfold answerPatch
  try dsimp only
  repeat' first
      | with_reducible assumption | with_reducible apply twinSend_kept | split

theorem takeoverDone_kept {s₀ s : State} (h : Kept s₀ s) :
    Kept s₀ (takeoverDone s) := by
  unfold takeoverDone
  try dsimp only
  repeat' first
      | with_reducible assumption | with_reducible apply raiseEvent_kept | with_reducible apply recordTwin_kept
      | with_reducible apply sendReport_kept | split

theorem selfCheckDone_kept {s₀ s : State} (h : Kept s₀ s) (pass) :
    Kept s₀ (selfCheckDone s pass) := by
  unfold selfCheckDone
  try dsimp only
  repeat' first
      | with_reducible assumption | with_reducible apply raiseEvent_kept | with_reducible apply settleCheck_kept
      | with_reducible apply twinSend_kept | (simp only [kept_mk]; with_reducible apply Parts.of) | split

theorem bridgeOutage_kept {s₀ s : State} (h : Kept s₀ s) :
    Kept s₀ (bridgeOutage s) := by
  unfold bridgeOutage
  try dsimp only
  repeat' first
      | with_reducible assumption | with_reducible apply fatalFault_kept | split

theorem answerRequest_kept {s₀ s : State} (h : Kept s₀ s) (p) :
    Kept s₀ (answerRequest s p) := by
  unfold answerRequest
  try dsimp only
  repeat' first
      | with_reducible assumption | with_reducible apply answerPatch_kept
      | (with_reducible apply Kept.foldl; rotate_left 1; intro _ _ _; rotate_left 1) | split

theorem patchRequest_kept {s₀ s : State} (h : Kept s₀ s) :
    Kept s₀ (patchRequest s) := by
  unfold patchRequest
  try dsimp only
  repeat' first
      | with_reducible assumption | with_reducible apply answerRequest_kept | with_reducible apply eachTwin_kept
      | (with_reducible intro _)

theorem compareEpochs_kept {s₀ s : State} (h : Kept s₀ s) :
    Kept s₀ (compareEpochs s) := by
  unfold compareEpochs
  try dsimp only
  repeat' first
      | with_reducible assumption | with_reducible apply setF_kept | (simp only [kept_mk]; with_reducible apply Parts.of)
      | split

theorem heartbeatSend_kept {s₀ s : State} (h : Kept s₀ s) :
    Kept s₀ (heartbeatSend s) := by
  unfold heartbeatSend
  try dsimp only
  repeat' first
      | with_reducible assumption | with_reducible apply twinSend_kept | (simp only [kept_mk]; with_reducible apply Parts.of)
      | split

/-! ### CoreBase -/

theorem reportLocked_kept {s₀ s : State} (h : Kept s₀ s) :
    Kept s₀ (reportLocked s) := by
  unfold reportLocked
  try dsimp only
  repeat' first
      | with_reducible assumption | with_reducible apply issueToScan_kept | split

theorem lockup_kept {s₀ s : State} (h : Kept s₀ s) (n vector) :
    Kept s₀ (lockup s n vector) := by
  unfold lockup
  try dsimp only
  repeat' first
      | with_reducible assumption | with_reducible apply orF_kept | with_reducible apply raiseBits_kept
      | with_reducible apply record_kept | with_reducible apply reportLocked_kept
      | (simp only [kept_mk]; with_reducible apply Parts.of)

theorem readRaw_kept {s₀ s : State} (h : Kept s₀ s) (n a) :
    Kept s₀ (readRaw s n a).1 := by
  unfold readRaw
  try dsimp only
  repeat' first
      | with_reducible assumption | with_reducible apply sramLoad_kept | split

theorem readVector_kept {s₀ s : State} (h : Kept s₀ s) (n v) :
    Kept s₀ (readVector s n v).1 := by
  unfold readVector
  try dsimp only
  repeat' first
      | with_reducible assumption | with_reducible apply readRaw_kept | split

theorem storeTagged_kept {s₀ s : State} (h : Kept s₀ s) (n a w) :
    Kept s₀ (storeTagged s n a w) := by
  unfold storeTagged
  try dsimp only
  repeat' first
      | with_reducible assumption | with_reducible apply sramStore_kept | split

theorem enterVector_kept {s₀ s : State} (h : Kept s₀ s) (n v sr request origin) :
    Kept s₀ (enterVector s n v sr request origin) := by
  unfold enterVector
  try dsimp only
  repeat' first
      | with_reducible assumption | with_reducible apply acknowledge_kept | with_reducible apply lockup_kept
      | with_reducible apply readVector_kept | with_reducible apply setCore_kept | with_reducible apply storeTagged_kept | split

theorem resetCore_kept {s₀ s : State} (h : Kept s₀ s) (n) :
    Kept s₀ (resetCore s n) := by
  unfold resetCore
  try dsimp only
  repeat' first
      | with_reducible assumption | with_reducible apply resetReg_kept | with_reducible apply setCore_kept
      | with_reducible apply setF_kept | (with_reducible apply Kept.foldl; rotate_left 1; intro _ _ _; rotate_left 1)

theorem storeRun_kept {s₀ s : State} (h : Kept s₀ s) (n a x3) :
    Kept s₀ (storeRun s n a x3) := by
  induction x3 generalizing s n a with
  | nil =>
    unfold storeRun
    try dsimp only
    repeat' first
        | with_reducible assumption
  | cons e l ih =>
    unfold storeRun
    try dsimp only
    repeat' first
        | with_reducible assumption | with_reducible apply ih | with_reducible apply storeTagged_kept

theorem enter_kept {s₀ s : State} (h : Kept s₀ s) (n v pc request origin) :
    Kept s₀ (enter s n v pc request origin) := by
  unfold enter
  try dsimp only
  repeat' first
      | with_reducible assumption | with_reducible apply enterVector_kept | with_reducible apply lockup_kept
      | with_reducible apply setCore_kept | with_reducible apply storeRun_kept | split

theorem takeTrap_kept {s₀ s : State} (h : Kept s₀ s) (n t pc) :
    Kept s₀ (takeTrap s n t pc) := by
  unfold takeTrap
  try dsimp only
  repeat' first
      | with_reducible assumption | with_reducible apply enter_kept | with_reducible apply setCore_kept

theorem coreControl_kept {s₀ s : State} (h : Kept s₀ s) (old w) :
    Kept s₀ (coreControl old s w) := by
  unfold coreControl
  try dsimp only
  repeat' first
      | with_reducible assumption | with_reducible apply reportLocked_kept | with_reducible apply resetCore_kept
      | (with_reducible apply Kept.foldl; rotate_left 1; intro _ _ _; rotate_left 1) | split

theorem interruptEntry_kept {s₀ s : State} (h : Kept s₀ s) (n) :
    Kept s₀ (interruptEntry s n) := by
  unfold interruptEntry
  try dsimp only
  repeat' first
      | with_reducible assumption | with_reducible apply enter_kept | split

theorem takeSoftTrap_kept {s₀ s : State} (h : Kept s₀ s) (n t pc) :
    Kept s₀ (takeSoftTrap s n t pc) := by
  unfold takeSoftTrap
  try dsimp only
  repeat' first
      | with_reducible assumption | with_reducible apply enter_kept | with_reducible apply setCore_kept

/-! ### Audio -/

theorem voiceStop_kept {s₀ s : State} (h : Kept s₀ s) (v) :
    Kept s₀ (voiceStop s v) := by
  unfold voiceStop
  try dsimp only
  repeat' first
      | with_reducible assumption | with_reducible apply setF_kept

theorem setVoice_kept {s₀ s : State} (h : Kept s₀ s) (v x) :
    Kept s₀ (setVoice s v x) := by
  unfold setVoice
  try dsimp only
  repeat' first
      | with_reducible assumption | with_reducible apply setF_kept | (simp only [kept_mk]; with_reducible apply Parts.of)

theorem applyRows_kept {s₀ s : State} (h : Kept s₀ s) :
    Kept s₀ (applyRows s) := by
  unfold applyRows
  try dsimp only
  repeat' first
      | with_reducible assumption | (simp only [kept_mk]; with_reducible apply Parts.of)

theorem noteEvents_kept {s₀ s : State} (h : Kept s₀ s) :
    Kept s₀ (noteEvents s) := by
  unfold noteEvents
  try dsimp only
  repeat' first
      | with_reducible assumption | with_reducible apply setF_kept

theorem eventPush_kept {s₀ s : State} (h : Kept s₀ s) (w) :
    Kept s₀ (eventPush s w) := by
  unfold eventPush
  try dsimp only
  repeat' first
      | with_reducible assumption | with_reducible apply noteEvents_kept | with_reducible apply raiseEvent_kept
      | (simp only [kept_mk]; with_reducible apply Parts.of) | split

theorem keepUnit_kept {s₀ s : State} (h : Kept s₀ s) (v u bs) :
    Kept s₀ (keepUnit s v u bs) := by
  unfold keepUnit
  try dsimp only
  repeat' first
      | with_reducible assumption | with_reducible apply setVoice_kept

theorem streamSize_kept {s₀ s : State} (h : Kept s₀ s) (n) :
    Kept s₀ (streamSize s n) := by
  unfold streamSize
  try dsimp only
  repeat' first
      | with_reducible assumption | with_reducible apply setF_kept

theorem noteGains_kept {s₀ s : State} (h : Kept s₀ s) :
    Kept s₀ (noteGains s) := by
  unfold noteGains
  try dsimp only
  repeat' first
      | with_reducible assumption | with_reducible apply setF_kept
      | (with_reducible apply Kept.foldl; rotate_left 1; intro _ _ _; rotate_left 1) | split

theorem lrckLost_kept {s₀ s : State} (h : Kept s₀ s) :
    Kept s₀ (lrckLost s) := by
  unfold lrckLost
  try dsimp only
  repeat' first
      | with_reducible assumption | with_reducible apply raiseEvent_kept | with_reducible apply setF_kept
      | (simp only [kept_mk]; with_reducible apply Parts.of) | split

theorem fetchAhead_kept {s₀ s : State} (h : Kept s₀ s) (v k) :
    Kept s₀ (fetchAhead s v k) := by
  unfold fetchAhead
  try dsimp only
  repeat' first
      | with_reducible assumption | with_reducible apply keepUnit_kept | with_reducible apply touchUnits_kept | split

theorem starve_kept {s₀ s : State} (h : Kept s₀ s) :
    Kept s₀ (starve s).1 := by
  unfold starve
  try dsimp only
  repeat' first
      | with_reducible assumption | with_reducible apply countF_kept | with_reducible apply raiseEvent_kept

theorem fetchedSample_kept {s₀ s : State} (h : Kept s₀ s) (v k) :
    Kept s₀ (fetchedSample s v k).1 := by
  unfold fetchedSample
  try dsimp only
  repeat' first
      | with_reducible assumption | with_reducible apply fetchAhead_kept | with_reducible apply starve_kept | split

theorem forgetFetches_kept {s₀ s : State} (h : Kept s₀ s) :
    Kept s₀ (forgetFetches s) := by
  unfold forgetFetches
  repeat' first
      | with_reducible assumption | (simp only [kept_mk]; with_reducible apply Parts.of) | split

theorem d96Check_kept {s₀ s : State} (h : Kept s₀ s) :
    Kept s₀ (d96Check s) := by
  unfold d96Check
  try dsimp only
  repeat' first
      | with_reducible assumption | with_reducible apply raiseEvent_kept | with_reducible apply setF_kept
      | (simp only [kept_mk]; with_reducible apply Parts.of) | split

theorem sampleZero_kept {s₀ s : State} (h : Kept s₀ s) :
    Kept s₀ (sampleZero s) := by
  unfold sampleZero
  try dsimp only
  repeat' first
      | with_reducible assumption | (simp only [kept_mk]; with_reducible apply Parts.of)

theorem d96Frame_kept {s₀ s : State} (h : Kept s₀ s) :
    Kept s₀ (d96Frame s) := by
  unfold d96Frame
  try dsimp only
  repeat' first
      | with_reducible assumption | with_reducible apply d96Check_kept | with_reducible apply sampleZero_kept
      | with_reducible apply setF_kept | split

theorem voiceStart_kept {s₀ s : State} (h : Kept s₀ s) (v) :
    Kept s₀ (voiceStart s v) := by
  unfold voiceStart
  try dsimp only
  repeat' first
      | with_reducible assumption | with_reducible apply setF_kept | with_reducible apply setVoice_kept

theorem voiceControl_kept {s₀ s : State} (h : Kept s₀ s) (v) :
    Kept s₀ (voiceControl s v) := by
  unfold voiceControl
  try dsimp only
  repeat' first
      | with_reducible assumption | with_reducible apply voiceStart_kept | with_reducible apply voiceStop_kept | split

theorem pushHistory_kept {s₀ s : State} (h : Kept s₀ s) (n x) :
    Kept s₀ (pushHistory s n x) := by
  unfold pushHistory
  try dsimp only
  repeat' first
      | with_reducible assumption | (simp only [kept_mk]; with_reducible apply Parts.of)

theorem streamSample_kept {s₀ s : State} (h : Kept s₀ s) (n) :
    Kept s₀ (streamSample s n) := by
  unfold streamSample
  try dsimp only
  repeat' first
      | with_reducible assumption | with_reducible apply countF_kept | with_reducible apply pushHistory_kept
      | with_reducible apply raiseEvent_kept | with_reducible apply setF_kept | with_reducible apply sramLoad_kept | split

theorem d48Sample_kept {s₀ s : State} (h : Kept s₀ s) :
    Kept s₀ (d48Sample s) := by
  unfold d48Sample
  try dsimp only
  repeat' first
      | with_reducible assumption | with_reducible apply setF_kept | with_reducible apply streamSample_kept
      | (with_reducible apply Kept.foldl; rotate_left 1; intro _ _ _; rotate_left 1)
      | (simp only [kept_mk]; with_reducible apply Parts.of) | split

theorem setSelection_kept {s₀ s : State} (h : Kept s₀ s) (f x) :
    Kept s₀ (setSelection s f x) := by
  unfold setSelection
  try dsimp only
  repeat' first
      | with_reducible assumption | with_reducible apply countReserved_kept | with_reducible apply setF_kept | split

theorem audioControl_kept {s₀ s : State} (h : Kept s₀ s) (w) :
    Kept s₀ (audioControl s w) := by
  unfold audioControl
  try dsimp only
  repeat' first
      | with_reducible assumption | with_reducible apply d96Check_kept | with_reducible apply setRegWord_kept | split

theorem executeEvent_kept {s₀ s : State} (h : Kept s₀ s) (e) :
    Kept s₀ (executeEvent s e) := by
  unfold executeEvent
  try dsimp only
  repeat' first
      | with_reducible assumption | with_reducible apply setF_kept | with_reducible apply setSelection_kept
      | with_reducible apply voiceStart_kept | with_reducible apply voiceStop_kept | split

theorem executeDue_kept {s₀ s : State} (h : Kept s₀ s) :
    Kept s₀ (executeDue s) := by
  unfold executeDue
  try dsimp only
  repeat' first
      | with_reducible assumption | with_reducible apply executeEvent_kept | with_reducible apply noteEvents_kept
      | (with_reducible apply Kept.foldl; rotate_left 1; intro _ _ _; rotate_left 1)
      | (simp only [kept_mk]; with_reducible apply Parts.of)

theorem lockedSample_kept {s₀ s : State} (h : Kept s₀ s) :
    Kept s₀ (lockedSample s) := by
  unfold lockedSample
  try dsimp only
  repeat' first
      | with_reducible assumption | with_reducible apply beamAdvanceTo_kept
      | (simp only [kept_mk]; with_reducible apply Parts.of) | split

theorem settleFetches_kept {s₀ s : State} (h : Kept s₀ s) :
    Kept s₀ (settleFetches s) := by
  unfold settleFetches keepUnit
  try dsimp only
  repeat' first
      | with_reducible assumption | with_reducible apply setVoice_kept | with_reducible apply takeAnswer_kept
      | (with_reducible apply Kept.foldl; rotate_left 1; intro _ _ _; rotate_left 1)
      | refine takeAnswer_kept ?_ _ _ (_, _, _) (by with_reducible assumption)
      | (simp only [kept_mk]; with_reducible apply Parts.of) | split

theorem voiceEnd_kept {s₀ s : State} (h : Kept s₀ s) (v) :
    Kept s₀ (voiceEnd s v) := by
  unfold voiceEnd
  try dsimp only
  repeat' first
      | with_reducible assumption | with_reducible apply orF_kept | with_reducible apply raiseEvent_kept
      | with_reducible apply voiceStop_kept

theorem voiceValue_kept {s₀ s : State} (h : Kept s₀ s) (v) :
    Kept s₀ (voiceValue s v).1 := by
  unfold voiceValue
  try dsimp only
  repeat' first
      | with_reducible assumption | with_reducible apply fetchedSample_kept | split

theorem voiceSample_kept {s₀ s : State} (h : Kept s₀ s) (v) :
    Kept s₀ (voiceSample s v).1 := by
  unfold voiceSample
  try dsimp only
  repeat' first
      | with_reducible assumption | with_reducible apply setVoice_kept | with_reducible apply voiceEnd_kept
      | with_reducible apply voiceValue_kept | split

theorem voicesSample_kept {s₀ s : State} (h : Kept s₀ s) :
    Kept s₀ (voicesSample s).1 := by
  unfold voicesSample
  try dsimp only
  repeat' first
      | with_reducible assumption | with_reducible apply voiceSample_kept
      | (with_reducible apply Kept.foldl_fst; rotate_left 1; intro _ _ _; rotate_left 1)

theorem audioSample_kept {s₀ s : State} (h : Kept s₀ s) :
    Kept s₀ (audioSample s) := by
  unfold audioSample
  try dsimp only
  repeat' first
      | with_reducible assumption | with_reducible apply applyRows_kept | with_reducible apply d96Check_kept
      | with_reducible apply emit_kept | with_reducible apply executeDue_kept | with_reducible apply lockedSample_kept
      | with_reducible apply lrckLost_kept | with_reducible apply noteGains_kept | with_reducible apply settleFetches_kept
      | with_reducible apply voicesSample_kept | (with_reducible apply Kept.foldl; rotate_left 1; intro _ _ _; rotate_left 1)
      | (simp only [kept_mk]; with_reducible apply Parts.of) | split

theorem eventDue_kept {s₀ s : State} (h : Kept s₀ s) :
    Kept s₀ (eventDue s) := by
  unfold eventDue
  try dsimp only
  repeat' first
      | with_reducible assumption | with_reducible apply beamAdvanceTo_kept | with_reducible apply countF_kept
      | with_reducible apply noteEvents_kept | with_reducible apply raiseEvent_kept
      | (simp only [kept_mk]; with_reducible apply Parts.of) | split

theorem sendBindings_kept {s₀ s : State} (h : Kept s₀ s) (frame) :
    Kept s₀ (sendBindings s frame) := by
  unfold sendBindings
  try dsimp only
  repeat' first
      | with_reducible assumption | with_reducible apply sendOrHold_kept
      | (with_reducible apply Kept.foldl; rotate_left 1; intro _ _ _; rotate_left 1)
      | (simp only [kept_mk]; with_reducible apply Parts.of) | split

theorem codecFrame_kept {s₀ s : State} (h : Kept s₀ s) (left right near) :
    Kept s₀ (codecFrame s left right near) := by
  unfold codecFrame
  try dsimp only
  repeat' first
      | with_reducible assumption | with_reducible apply pushHistory_kept | with_reducible apply raiseEvent_kept
      | with_reducible apply setF_kept | (simp only [kept_mk]; with_reducible apply Parts.of) | split

theorem voiceFetch_kept {s₀ s : State} (h : Kept s₀ s) (v k) :
    Kept s₀ (voiceFetch s v k) := by
  unfold voiceFetch
  try dsimp only
  repeat' first
      | with_reducible assumption | with_reducible apply issueToScan_kept | with_reducible apply forgetFetches_kept
      | with_reducible apply settleFetches_kept | (simp only [kept_mk]; with_reducible apply Parts.of) | split

/-! ### Egress -/

theorem refreshEgress_kept {s₀ s : State} (h : Kept s₀ s) :
    Kept s₀ (refreshEgress s) := by
  unfold refreshEgress
  try dsimp only
  repeat' first
      | with_reducible assumption | with_reducible apply raiseEvent_kept | with_reducible apply setF_kept | split

theorem showLoop_kept {s₀ s : State} (h : Kept s₀ s) :
    Kept s₀ (showLoop s) := by
  unfold showLoop
  try dsimp only
  repeat' first
      | with_reducible assumption | with_reducible apply setF_kept

theorem loopChanges_kept {s₀ s : State} (h : Kept s₀ s) (band) :
    Kept s₀ (loopChanges s band) := by
  unfold loopChanges
  try dsimp only
  repeat' first
      | with_reducible assumption | with_reducible apply refreshEgress_kept | with_reducible apply setF_kept
      | with_reducible apply showLoop_kept | (simp only [kept_mk]; with_reducible apply Parts.of) | split

theorem egressSample_kept {s₀ s : State} (h : Kept s₀ s) (code) :
    Kept s₀ (egressSample s code) := by
  unfold egressSample
  try dsimp only
  repeat' first
      | with_reducible assumption | with_reducible apply loopChanges_kept | with_reducible apply setF_kept
      | (simp only [kept_mk]; with_reducible apply Parts.of) | split

theorem egressCommand_kept {s₀ s : State} (h : Kept s₀ s) (v) :
    Kept s₀ (egressCommand s v) := by
  unfold egressCommand
  try dsimp only
  repeat' first
      | with_reducible assumption | with_reducible apply refreshEgress_kept
      | (simp only [kept_mk]; with_reducible apply Parts.of)

theorem verifyLibrary_kept {s₀ s : State} (h : Kept s₀ s) :
    Kept s₀ (verifyLibrary s) := by
  unfold verifyLibrary
  try dsimp only
  repeat' first
      | with_reducible assumption | with_reducible apply issueDram_kept | with_reducible apply readExtent_kept
      | (with_reducible apply Kept.foldl; rotate_left 1; intro _ _ _; rotate_left 1)
      | (simp only [kept_mk]; with_reducible apply Parts.of) | split

/-! ### Hutch -/

theorem sealKeyWrite_kept {s₀ s : State} (h : Kept s₀ s) (w) :
    Kept s₀ (sealKeyWrite s w).1 := by
  unfold sealKeyWrite
  try dsimp only
  repeat' first
      | with_reducible assumption | (simp only [kept_mk]; with_reducible apply Parts.of) | split

theorem keyAgreement_kept {s₀ s : State} (h : Kept s₀ s) (point) :
    Kept s₀ (keyAgreement s point).1 := by
  unfold keyAgreement
  try dsimp only
  repeat' first
      | with_reducible assumption | (simp only [kept_mk]; with_reducible apply Parts.of) | split

theorem alarmInactive_kept {s₀ s : State} (h : Kept s₀ s) (n) :
    Kept s₀ (alarmInactive s n) := by
  unfold alarmInactive
  try dsimp only
  repeat' first
      | with_reducible assumption | with_reducible apply setF_kept | split

theorem islandLog_kept {s₀ s : State} (h : Kept s₀ s) :
    Kept s₀ (islandLog s) := by
  unfold islandLog
  try dsimp only
  repeat' first
      | with_reducible assumption | with_reducible apply enqueueRecord_kept
      | (with_reducible apply Kept.foldl; rotate_left 1; intro _ _ _; rotate_left 1)
      | (simp only [kept_mk]; with_reducible apply Parts.of)

theorem discardDecoding_kept {s₀ s : State} (h : Kept s₀ s) (cleared) :
    Kept s₀ (discardDecoding s cleared) := by
  unfold discardDecoding
  try dsimp only
  repeat' first
      | with_reducible assumption | with_reducible apply countF_kept | with_reducible apply gatherSlice_kept
      | with_reducible apply passSlice_kept | (with_reducible apply Kept.foldl; rotate_left 1; intro _ _ _; rotate_left 1)
      | split

theorem loadDecoders_kept {s₀ s : State} (h : Kept s₀ s) (slot k) :
    Kept s₀ (loadDecoders s slot k) := by
  unfold loadDecoders
  try dsimp only
  repeat' first
      | with_reducible assumption | with_reducible apply discardDecoding_kept
      | (simp only [kept_mk]; with_reducible apply Parts.of) | split

theorem setDebug_kept {s₀ s : State} (h : Kept s₀ s) (d target) :
    Kept s₀ (setDebug s d target) := by
  unfold setDebug
  try dsimp only
  repeat' first
      | with_reducible assumption | with_reducible apply raiseEvent_kept | with_reducible apply record_kept
      | with_reducible apply setF_kept

theorem eraseContent_kept {s₀ s : State} (h : Kept s₀ s) :
    Kept s₀ (eraseContent s) := by
  unfold eraseContent
  try dsimp only
  repeat' first
      | with_reducible assumption | with_reducible apply discardDecoding_kept | with_reducible apply setF_kept
      | (simp only [kept_mk]; with_reducible apply Parts.of)

theorem eraseAll_kept {s₀ s : State} (h : Kept s₀ s) :
    Kept s₀ (eraseAll s) := by
  unfold eraseAll
  try dsimp only
  repeat' first
      | with_reducible assumption | with_reducible apply eraseContent_kept
      | (simp only [kept_mk]; with_reducible apply Parts.of)

theorem sealWindows_kept {s₀ s : State} (h : Kept s₀ s) :
    Kept s₀ (sealWindows s) := by
  unfold sealWindows
  try dsimp only
  repeat' first
      | with_reducible assumption | with_reducible apply countBadQ_kept | with_reducible apply setDrawer_kept
      | (with_reducible apply Kept.foldl; rotate_left 1; intro _ _ _; rotate_left 1) | split

theorem raiseSecurity_kept {s₀ s : State} (h : Kept s₀ s) (level) :
    Kept s₀ (raiseSecurity s level) := by
  unfold raiseSecurity
  try dsimp only
  repeat' first
      | with_reducible assumption | with_reducible apply eraseAll_kept | with_reducible apply eraseContent_kept
      | with_reducible apply sealWindows_kept | with_reducible apply setF_kept
      | (simp only [kept_mk]; with_reducible apply Parts.of) | split

theorem recordAlarm_kept {s₀ s : State} (h : Kept s₀ s) (source level) :
    Kept s₀ (recordAlarm s source level) := by
  unfold recordAlarm
  try dsimp only
  repeat' first
      | with_reducible assumption | with_reducible apply record_kept | (simp only [kept_mk]; with_reducible apply Parts.of)
      | split

theorem raiseAlarm_kept {s₀ s : State} (h : Kept s₀ s) (n) :
    Kept s₀ (raiseAlarm s n) := by
  unfold raiseAlarm
  try dsimp only
  repeat' first
      | with_reducible assumption | with_reducible apply orF_kept | with_reducible apply raiseEvent_kept
      | with_reducible apply raiseSecurity_kept | with_reducible apply recordAlarm_kept

theorem alarm_kept {s₀ s : State} (h : Kept s₀ s) (n) :
    Kept s₀ (alarm s n) := by
  unfold alarm
  try dsimp only
  repeat' first
      | with_reducible assumption | with_reducible apply orF_kept | with_reducible apply raiseAlarm_kept | split

theorem bootSecurity_kept {s₀ s : State} (h : Kept s₀ s) :
    Kept s₀ (bootSecurity s) := by
  unfold bootSecurity
  try dsimp only
  repeat' first
      | with_reducible assumption | with_reducible apply enqueueRecord_kept | with_reducible apply setF_kept
      | (simp only [kept_mk]; with_reducible apply Parts.of) | split

theorem nonceExpiry_kept {s₀ s : State} (h : Kept s₀ s) :
    Kept s₀ (nonceExpiry s) := by
  unfold nonceExpiry
  try dsimp only
  repeat' first
      | with_reducible assumption | (simp only [kept_mk]; with_reducible apply Parts.of)

theorem debugOpen_kept {s₀ s : State} (h : Kept s₀ s) (target) :
    Kept s₀ (debugOpen s target) := by
  unfold debugOpen
  try dsimp only
  repeat' first
      | with_reducible assumption | with_reducible apply eraseAll_kept | with_reducible apply eraseContent_kept
      | with_reducible apply setDebug_kept | with_reducible apply setF_kept
      | (simp only [kept_mk]; with_reducible apply Parts.of) | split

theorem holdShown_kept {s₀ s : State} (h : Kept s₀ s) :
    Kept s₀ (holdShown s) := by
  unfold holdShown
  try dsimp only
  repeat' first
      | with_reducible assumption | (simp only [kept_mk]; with_reducible apply Parts.of)

theorem clearSecurity_kept {s₀ s : State} (h : Kept s₀ s) :
    Kept s₀ (clearSecurity s) := by
  unfold clearSecurity
  try dsimp only
  repeat' first
      | with_reducible assumption | with_reducible apply holdShown_kept | with_reducible apply record_kept
      | with_reducible apply setF_kept | with_reducible apply takeFresh_kept
      | (simp only [kept_mk]; with_reducible apply Parts.of)

theorem guardClear_kept {s₀ s : State} (h : Kept s₀ s) :
    Kept s₀ (guardClear s).1 := by
  unfold guardClear
  try dsimp only
  repeat' first
      | with_reducible assumption | with_reducible apply clearSecurity_kept | split

theorem secCommand_kept {s₀ s : State} (h : Kept s₀ s) (w) :
    Kept s₀ (secCommand s w) := by
  unfold secCommand
  try dsimp only
  repeat' first
      | with_reducible assumption | with_reducible apply guardClear_kept | with_reducible apply raiseEvent_kept | split

theorem nonceRead_kept {s₀ s : State} (h : Kept s₀ s) :
    Kept s₀ (nonceRead s).1 := by
  unfold nonceRead
  try dsimp only
  repeat' first
      | with_reducible assumption | with_reducible apply takeFresh_kept | (simp only [kept_mk]; with_reducible apply Parts.of)

theorem sendKey_kept {s₀ s : State} (h : Kept s₀ s) (slot k) :
    Kept s₀ (sendKey s slot k) := by
  unfold sendKey
  try dsimp only
  repeat' first
      | with_reducible assumption | with_reducible apply issueToScan_kept | split

theorem setContent_kept {s₀ s : State} (h : Kept s₀ s) (slot k) :
    Kept s₀ (setContent s slot k) := by
  unfold setContent
  try dsimp only
  repeat' first
      | with_reducible assumption | with_reducible apply sendKey_kept | with_reducible apply setF_kept
      | (simp only [kept_mk]; with_reducible apply Parts.of)

theorem contentKeyWrite_kept {s₀ s : State} (h : Kept s₀ s) (slot w) :
    Kept s₀ (contentKeyWrite s slot w).1 := by
  unfold contentKeyWrite
  try dsimp only
  repeat' first
      | with_reducible assumption | with_reducible apply setContent_kept | split

theorem reloadDecoders_kept {s₀ s : State} (h : Kept s₀ s) :
    Kept s₀ (reloadDecoders s) := by
  unfold reloadDecoders
  try dsimp only
  repeat' first
      | with_reducible assumption | with_reducible apply sendKey_kept
      | (with_reducible apply Kept.foldl; rotate_left 1; intro _ _ _; rotate_left 1) | split

theorem debugClose_kept {s₀ s : State} (h : Kept s₀ s) :
    Kept s₀ (debugClose s) := by
  unfold debugClose
  try dsimp only
  repeat' first
      | with_reducible assumption | with_reducible apply setDebug_kept | with_reducible apply takeFresh_kept
      | (simp only [kept_mk]; with_reducible apply Parts.of) | split

theorem leaseExpiry_kept {s₀ s : State} (h : Kept s₀ s) :
    Kept s₀ (leaseExpiry s) := by
  unfold leaseExpiry
  try dsimp only
  repeat' first
      | with_reducible assumption | with_reducible apply debugClose_kept | split

theorem unlockFails_kept {s₀ s : State} (h : Kept s₀ s) :
    Kept s₀ (unlockFails s) := by
  unfold unlockFails
  try dsimp only
  repeat' first
      | with_reducible assumption | with_reducible apply raiseAlarm_kept | with_reducible apply setF_kept
      | (simp only [kept_mk]; with_reducible apply Parts.of) | split

theorem unlockToken_kept {s₀ s : State} (h : Kept s₀ s) (tok) :
    Kept s₀ (unlockToken s tok).1 := by
  unfold unlockToken
  try dsimp only
  repeat' first
      | with_reducible assumption | with_reducible apply debugOpen_kept | with_reducible apply nonceExpiry_kept
      | with_reducible apply unlockFails_kept | split

theorem sealClear_kept {s₀ s : State} (h : Kept s₀ s) :
    Kept s₀ (sealClear s).1 := by
  unfold sealClear
  try dsimp only
  repeat' first
      | with_reducible assumption | with_reducible apply clearSecurity_kept | split

/-! ### Pads -/

theorem releaseLatches_kept {s₀ s : State} (h : Kept s₀ s) :
    Kept s₀ (releaseLatches s) := by
  unfold releaseLatches
  try dsimp only
  repeat' first
      | with_reducible assumption | with_reducible apply setF_kept | (simp only [kept_mk]; with_reducible apply Parts.of)

theorem padsHouseReset_kept {s₀ s : State} (h : Kept s₀ s) (old) :
    Kept s₀ (padsHouseReset old s) := by
  unfold padsHouseReset
  try dsimp only
  repeat' first
      | with_reducible assumption | with_reducible apply holdChanged_kept | (simp only [kept_mk]; with_reducible apply Parts.of)

theorem adcDone_kept {s₀ s : State} (h : Kept s₀ s) (code) :
    Kept s₀ (adcDone s code) := by
  unfold adcDone
  try dsimp only
  repeat' first
      | with_reducible assumption | with_reducible apply setF_kept | (simp only [kept_mk]; with_reducible apply Parts.of)
      | split

theorem latchPads_kept {s₀ s : State} (h : Kept s₀ s) :
    Kept s₀ (latchPads s) := by
  unfold latchPads
  try dsimp only
  repeat' first
      | with_reducible assumption | with_reducible apply setF_kept | with_reducible apply takeFresh_kept
      | (simp only [kept_mk]; with_reducible apply Parts.of) | split

theorem gpinWord_kept {s₀ s : State} (h : Kept s₀ s) (w) :
    Kept s₀ (gpinWord s w).1 := by
  unfold gpinWord
  try dsimp only
  repeat' first
      | with_reducible assumption | with_reducible apply takeFresh_kept

theorem setLockStep_kept {s₀ s : State} (h : Kept s₀ s) (src n) :
    Kept s₀ (setLockStep s src n) := by
  unfold setLockStep
  try dsimp only
  repeat' first
      | with_reducible assumption | (simp only [kept_mk]; with_reducible apply Parts.of)

theorem uartByte_kept {s₀ s : State} (h : Kept s₀ s) (b) :
    Kept s₀ (uartByte s b) := by
  unfold uartByte
  try dsimp only
  repeat' first
      | with_reducible assumption | (simp only [kept_mk]; with_reducible apply Parts.of) | split

theorem uartReceive_kept {s₀ s : State} (h : Kept s₀ s) (b) :
    Kept s₀ (uartReceive s b) := by
  unfold uartReceive
  try dsimp only
  repeat' first
      | with_reducible assumption | with_reducible apply takeFresh_kept | with_reducible apply uartByte_kept | split

theorem countLockDrop_kept {s₀ s : State} (h : Kept s₀ s) :
    Kept s₀ (countLockDrop s) := by
  unfold countLockDrop
  try dsimp only
  repeat' first
      | with_reducible assumption | with_reducible apply countF_kept

theorem uartRead_kept {s₀ s : State} (h : Kept s₀ s) :
    Kept s₀ (uartRead s).1 := by
  unfold uartRead
  try dsimp only
  repeat' first
      | with_reducible assumption | (simp only [kept_mk]; with_reducible apply Parts.of)

theorem uartTransmit_kept {s₀ s : State} (h : Kept s₀ s) (w) :
    Kept s₀ (uartTransmit s w) := by
  unfold uartTransmit
  try dsimp only
  repeat' first
      | with_reducible assumption | with_reducible apply setF_kept | (simp only [kept_mk]; with_reducible apply Parts.of)
      | split

theorem padLockWrite_kept {s₀ s : State} (h : Kept s₀ s) (src w v) :
    Kept s₀ (padLockWrite s src w v) := by
  unfold padLockWrite
  try dsimp only
  repeat' first
      | with_reducible assumption | with_reducible apply countLockDrop_kept | with_reducible apply setF_kept
      | with_reducible apply setLockStep_kept | with_reducible apply setRegWord_kept
      | (with_reducible apply Kept.foldl; rotate_left 1; intro _ _ _; rotate_left 1) | split

theorem padsIslandReset_kept {s₀ s : State} (h : Kept s₀ s) :
    Kept s₀ (padsIslandReset s) := by
  unfold padsIslandReset
  simp only [kept_mk]
  exact Parts.ofRegs h fun w => swf_filter w _

theorem bankSlewEnd_kept {s₀ s : State} (h : Kept s₀ s) (k) :
    Kept s₀ (bankSlewEnd s k) := by
  unfold bankSlewEnd
  try dsimp only
  repeat' first
      | with_reducible assumption | (simp only [kept_mk]; with_reducible apply Parts.of)

theorem uartByteSent_kept {s₀ s : State} (h : Kept s₀ s) :
    Kept s₀ (uartByteSent s) := by
  unfold uartByteSent
  try dsimp only
  repeat' first
      | with_reducible assumption | with_reducible apply emit_kept | (simp only [kept_mk]; with_reducible apply Parts.of)
      | split

theorem bankVio_kept {s₀ s : State} (h : Kept s₀ s) (k was) :
    Kept s₀ (bankVio s k was) := by
  unfold bankVio
  try dsimp only
  repeat' first
      | with_reducible assumption | (simp only [kept_mk]; with_reducible apply Parts.of) | split

theorem adcConvert_kept {s₀ s : State} (h : Kept s₀ s) :
    Kept s₀ (adcConvert s) := by
  unfold adcConvert
  try dsimp only
  repeat' first
      | with_reducible assumption | with_reducible apply setF_kept | (simp only [kept_mk]; with_reducible apply Parts.of)

theorem padHoldEnd_kept {s₀ s : State} (h : Kept s₀ s) (p) :
    Kept s₀ (padHoldEnd s p) := by
  unfold padHoldEnd
  try dsimp only
  repeat' first
      | with_reducible assumption | (simp only [kept_mk]; with_reducible apply Parts.of)

theorem lockKey_kept {s₀ s : State} (h : Kept s₀ s) (src w) :
    Kept s₀ (lockKey s src w) := by
  unfold lockKey
  try dsimp only
  repeat' first
      | with_reducible assumption | with_reducible apply setLockStep_kept

end Sys2Proof.Machine
end

