-- ==== Sys2Proof/Laws/KeptPower.lean ====
section
/-! SUPPORT. What is kept (`Kept`): resets, the copier, the beam, power, register accesses. -/

namespace Sys2Proof.Machine

/-! ### Resets -/

theorem scanRegsReset_kept {s₀ s : State} (h : Kept s₀ s) :
    Kept s₀ (scanRegsReset s) := by
  unfold scanRegsReset
  refine showLoop_kept (setF_kept ?_ _ _)
  simp only [kept_mk]
  exact ⟨h.variant, h.pending, fun w => ⟨swf_filter (h.wf w).1 _,
    ⟨(h.wf w).2.1.1, (h.wf w).2.1.2.1, (h.wf w).2.1.2.2.1, (h.wf w).2.1.2.2.2.1, swf_filter (h.wf w).2.1.2.2.2.2 _⟩,
    (h.wf w).2.2⟩⟩

theorem houseEdges_kept {s₀ s : State} (h : Kept s₀ s) :
    Kept s₀ (houseEdges s) := by
  unfold houseEdges
  try dsimp only
  repeat' first
      | with_reducible assumption | (simp only [kept_mk]; with_reducible apply Parts.of)

theorem repairMacro_kept {s₀ s : State} (h : Kept s₀ s) (m) :
    Kept s₀ (repairMacro s m).1 := by
  unfold repairMacro
  try dsimp only
  repeat' first
      | with_reducible assumption | with_reducible apply touchBlock_kept

theorem repairDie_kept {s₀ s : State} (h : Kept s₀ s) (scan) :
    Kept s₀ (repairDie s scan) := by
  unfold repairDie
  try dsimp only
  repeat' first
      | with_reducible assumption | with_reducible apply countF_kept | with_reducible apply raiseEvent_kept
      | with_reducible apply repairMacro_kept | (with_reducible apply Kept.foldl; rotate_left 1; intro _ _ _; rotate_left 1)
      | split

theorem bridgeLosesScan_kept {s₀ s : State} (h : Kept s₀ s) (poweredDown) :
    Kept s₀ (bridgeLosesScan s poweredDown) := by
  unfold bridgeLosesScan
  try dsimp only
  repeat' first
      | with_reducible assumption | with_reducible apply bridgeGoesDown_kept
      | (simp only [kept_mk]; with_reducible apply Parts.of) | split

theorem scanBlocksReset_kept {s₀ s : State} (h : Kept s₀ s) :
    Kept s₀ (scanBlocksReset s) := by
  unfold scanBlocksReset
  try dsimp only
  repeat' first
      | with_reducible assumption | with_reducible apply releaseLineHolds_kept
      | (simp only [kept_mk]; with_reducible apply Parts.of) | (simp only [kept_mk]; refine Parts.ofDram ?_ (fun h => h))

theorem scanLost_kept {s₀ s : State} (h : Kept s₀ s) (poweredDown) :
    Kept s₀ (scanLost s poweredDown) := by
  unfold scanLost
  try dsimp only
  repeat' first
      | with_reducible assumption | with_reducible apply bridgeLosesScan_kept | with_reducible apply endCommits_kept
      | with_reducible apply holdPorts_kept | with_reducible apply scanBlocksReset_kept
      | with_reducible apply scanRegsReset_kept

theorem scanReset_kept {s₀ s : State} (h : Kept s₀ s) :
    Kept s₀ (scanReset s) := by
  unfold scanReset
  try dsimp only
  repeat' first
      | with_reducible assumption | with_reducible apply repairDie_kept | with_reducible apply scanLost_kept

theorem swf_keptEntry {m : SMap Word} (h : swf regDefault m) : swf regDefault (m.filterMap keptEntry) := by
  have key : ∀ e f, keptEntry e = some f → f.1 = e.1 := by
    intro e f hf
    unfold keptEntry at hf
    split at hf
    · cases hf; rfl
    · dsimp only at hf
      split at hf
      · cases hf
      · cases hf; rfl
  constructor
  · rw [List.pairwise_filterMap]
    refine h.1.imp fun hl e' he f' hf => ?_
    rw [key _ e' he, key _ f' hf]
    exact hl
  · intro f hf
    obtain ⟨e, he, hef⟩ := List.mem_filterMap.mp hf
    unfold keptEntry at hef
    split at hef
    · cases hef; exact h.2 _ he
    · dsimp only at hef
      split at hef
      · cases hef
      · next hn =>
        cases hef
        rw [Bool.or_eq_true, decide_eq_true_eq, decide_eq_true_eq, not_or] at hn
        exact hn.2

theorem houseRegsReset_kept {s₀ s : State} (h : Kept s₀ s) : Kept s₀ (houseRegsReset s) := by
  unfold houseRegsReset
  refine notePinned_kept ?_ _
  simp only [kept_mk]
  exact Parts.ofRegs h fun w => swf_keptEntry w

theorem houseBlocksReset_kept {s₀ s : State} (h : Kept s₀ s) :
    Kept s₀ (houseBlocksReset s) := by
  unfold houseBlocksReset
  try dsimp only
  repeat' first
      | with_reducible assumption | (simp only [kept_mk]; with_reducible apply Parts.of)

theorem recorderResume_kept {s₀ s : State} (h : Kept s₀ s) :
    Kept s₀ (recorderResume s) := by
  unfold recorderResume
  try dsimp only
  repeat' first
      | with_reducible assumption | with_reducible apply notePinned_kept | (simp only [kept_mk]; with_reducible apply Parts.of)

theorem houseMemoryReset_kept {s₀ s : State} (h : Kept s₀ s) :
    Kept s₀ (houseMemoryReset s) := by
  unfold houseMemoryReset
  refine setRegWord_kept ?_ _ _
  simp only [kept_mk]
  refine Parts.ofMem h fun w => ⟨swf_fillCells w.1 _ _, fun l hl => ?_, w.2.2.1, w.2.2.2.1, swf_filter w.2.2.2.2 _⟩
  have : l = [] := by simpa using hl
  exact this ▸ swf_nil _

theorem houseRecorderReset_kept {s₀ s : State} (h : Kept s₀ s) :
    Kept s₀ (houseRecorderReset s) := by
  unfold houseRecorderReset
  try dsimp only
  repeat' first
      | with_reducible assumption | (simp only [kept_mk]; with_reducible apply Parts.of)

theorem bridgeLosesHouse_kept {s₀ s : State} (h : Kept s₀ s) :
    Kept s₀ (bridgeLosesHouse s) := by
  unfold bridgeLosesHouse
  try dsimp only
  repeat' first
      | with_reducible assumption | with_reducible apply holdUnaccepted_kept
      | (simp only [kept_mk]; with_reducible apply Parts.of)

theorem houseCoresReset_kept {s₀ s : State} (h : Kept s₀ s) :
    Kept s₀ (houseCoresReset s) := by
  unfold houseCoresReset
  try dsimp only
  repeat' first
      | with_reducible assumption | (simp only [kept_mk]; with_reducible apply Parts.of)

theorem houseReset_kept {s₀ s : State} (h : Kept s₀ s) :
    Kept s₀ (houseReset s) := by
  unfold houseReset
  try dsimp only
  repeat' first
      | with_reducible assumption | with_reducible apply bridgeLosesHouse_kept | with_reducible apply houseBlocksReset_kept
      | with_reducible apply houseCoresReset_kept | with_reducible apply houseEdges_kept
      | with_reducible apply houseMemoryReset_kept | with_reducible apply houseRecorderReset_kept
      | with_reducible apply houseRegsReset_kept | with_reducible apply islandLog_kept | with_reducible apply loopChanges_kept
      | with_reducible apply padsHouseReset_kept | with_reducible apply repairDie_kept
      | (simp only [kept_mk]; with_reducible apply Parts.of) | split

/-! ### Copier -/

theorem copyFails_kept {s₀ s : State} (h : Kept s₀ s) (err) :
    Kept s₀ (copyFails s err) := by
  unfold copyFails
  try dsimp only
  repeat' first
      | with_reducible assumption | with_reducible apply countF_kept | with_reducible apply raiseEvent_kept
      | with_reducible apply setF_kept | (simp only [kept_mk]; with_reducible apply Parts.of)

theorem copyAfterSegment_kept {s₀ s : State} (h : Kept s₀ s) (o) :
    Kept s₀ (copyAfterSegment s o) := by
  unfold copyAfterSegment
  try dsimp only
  repeat' first
      | with_reducible assumption | with_reducible apply copyFails_kept | (simp only [kept_mk]; with_reducible apply Parts.of)
      | split

theorem copyRowRelease_kept {s₀ s : State} (h : Kept s₀ s) :
    Kept s₀ (copyRowRelease s) := by
  unfold copyRowRelease
  try dsimp only
  repeat' first
      | with_reducible assumption | with_reducible apply beamAdvanceTo_kept
      | (simp only [kept_mk]; with_reducible apply Parts.of) | split

theorem copyAbort_kept {s₀ s : State} (h : Kept s₀ s) :
    Kept s₀ (copyAbort s) := by
  unfold copyAbort
  try dsimp only
  repeat' first
      | with_reducible assumption | with_reducible apply copyFails_kept | (simp only [kept_mk]; with_reducible apply Parts.of)
      | split

theorem copyWrites_kept {s₀ s : State} (h : Kept s₀ s) (o lo n) :
    Kept s₀ (copyWrites s o lo n) := by
  unfold copyWrites
  try dsimp only
  repeat' first
      | with_reducible assumption | with_reducible apply dramWrite_kept
      | (with_reducible apply Kept.foldl; rotate_left 1; intro _ _ _; rotate_left 1)

theorem copySegment_kept {s₀ s : State} (h : Kept s₀ s) :
    Kept s₀ (copySegment s) := by
  unfold copySegment
  try dsimp only
  repeat' first
      | with_reducible assumption | with_reducible apply copyAfterSegment_kept | with_reducible apply copyFails_kept
      | with_reducible apply copyWrites_kept | with_reducible apply recordScan_kept | with_reducible apply setF_kept
      | with_reducible apply touchUnits_kept | split

theorem copyStart_kept {s₀ s : State} (h : Kept s₀ s) :
    Kept s₀ (copyStart s) := by
  unfold copyStart
  try dsimp only
  repeat' first
      | with_reducible assumption | with_reducible apply copyFails_kept | with_reducible apply setF_kept
      | (simp only [kept_mk]; with_reducible apply Parts.of) | split

theorem countBusyWrite_kept {s₀ s : State} (h : Kept s₀ s) :
    Kept s₀ (countBusyWrite s) := by
  unfold countBusyWrite
  try dsimp only
  repeat' first
      | with_reducible assumption | with_reducible apply countF_kept

theorem copyCtlWrite_kept {s₀ s : State} (h : Kept s₀ s) (w) :
    Kept s₀ (copyCtlWrite s w) := by
  unfold copyCtlWrite
  try dsimp only
  repeat' first
      | with_reducible assumption | with_reducible apply copyAbort_kept | with_reducible apply copyStart_kept
      | with_reducible apply countBusyWrite_kept | with_reducible apply setF_kept | with_reducible apply setRegWord_kept | split

theorem copyBeamLost_kept {s₀ s : State} (h : Kept s₀ s) :
    Kept s₀ (copyBeamLost s) := by
  unfold copyBeamLost
  try dsimp only
  repeat' first
      | with_reducible assumption | with_reducible apply copyFails_kept | split

theorem copyRowDone_kept {s₀ s : State} (h : Kept s₀ s) :
    Kept s₀ (copyRowDone s) := by
  unfold copyRowDone
  try dsimp only
  repeat' first
      | with_reducible assumption | with_reducible apply copyFails_kept | with_reducible apply countWrapF_kept
      | with_reducible apply raiseEvent_kept | with_reducible apply setF_kept
      | (simp only [kept_mk]; with_reducible apply Parts.of) | split

/-! ### Beam -/

theorem beamStops_kept {s₀ s : State} (h : Kept s₀ s) :
    Kept s₀ (beamStops s) := by
  unfold beamStops
  try dsimp only
  repeat' first
      | with_reducible assumption | with_reducible apply beamDark_kept | with_reducible apply copyBeamLost_kept
      | with_reducible apply releaseLineHolds_kept | (simp only [kept_mk]; with_reducible apply Parts.of)

theorem noSource_kept {s₀ s : State} (h : Kept s₀ s) :
    Kept s₀ (noSource s) := by
  unfold noSource
  try dsimp only
  repeat' first
      | with_reducible assumption | with_reducible apply setF_kept

theorem unfollow_kept {s₀ s : State} (h : Kept s₀ s) :
    Kept s₀ (unfollow s) := by
  unfold unfollow
  try dsimp only
  repeat' first
      | with_reducible assumption | with_reducible apply noSource_kept | (simp only [kept_mk]; with_reducible apply Parts.of)

theorem setFired_kept {s₀ s : State} (h : Kept s₀ s) (n b) :
    Kept s₀ (setFired s n b) := by
  unfold setFired
  try dsimp only
  repeat' first
      | with_reducible assumption | (simp only [kept_mk]; with_reducible apply Parts.of)

theorem fireWatermark_kept {s₀ s : State} (h : Kept s₀ s) (n) :
    Kept s₀ (fireWatermark s n) := by
  unfold fireWatermark
  try dsimp only
  repeat' first
      | with_reducible assumption | with_reducible apply pulse_kept | with_reducible apply setF_kept
      | with_reducible apply setFired_kept | split

theorem moveCount_kept {s₀ s : State} (h : Kept s₀ s) (d) :
    Kept s₀ (moveCount s d) := by
  unfold moveCount
  try dsimp only
  repeat' first
      | with_reducible assumption | (simp only [kept_mk]; with_reducible apply Parts.of)

theorem noteSource_kept {s₀ s : State} (h : Kept s₀ s) (anchor hops state) :
    Kept s₀ (noteSource s anchor hops state) := by
  unfold noteSource
  try dsimp only
  repeat' first
      | with_reducible assumption | with_reducible apply setF_kept | split

theorem useAnchor_kept {s₀ s : State} (h : Kept s₀ s) (anchor) :
    Kept s₀ (useAnchor s anchor) := by
  unfold useAnchor
  try dsimp only
  repeat' first
      | with_reducible assumption | (simp only [kept_mk]; with_reducible apply Parts.of)

theorem anchorChange_kept {s₀ s : State} (h : Kept s₀ s) :
    Kept s₀ (anchorChange s) := by
  unfold anchorChange
  try dsimp only
  repeat' first
      | with_reducible assumption | with_reducible apply noteSource_kept | with_reducible apply useAnchor_kept
      | (simp only [kept_mk]; with_reducible apply Parts.of) | split

theorem setBeam_kept {s₀ s : State} (h : Kept s₀ s) (frame t) :
    Kept s₀ (setBeam s frame t) := by
  unfold setBeam
  try dsimp only
  repeat' first
      | with_reducible assumption | with_reducible apply beamShift_kept | (simp only [kept_mk]; with_reducible apply Parts.of)

theorem firstPulse_kept {s₀ s : State} (h : Kept s₀ s) :
    Kept s₀ (firstPulse s) := by
  unfold firstPulse
  try dsimp only
  repeat' first
      | with_reducible assumption | with_reducible apply moveCount_kept | with_reducible apply setBeam_kept
      | (simp only [kept_mk]; with_reducible apply Parts.of)

theorem enterLocked_kept {s₀ s : State} (h : Kept s₀ s) :
    Kept s₀ (enterLocked s) := by
  unfold enterLocked
  try dsimp only
  repeat' first
      | with_reducible assumption | with_reducible apply composesFromHere_kept | with_reducible apply raiseEvent_kept
      | with_reducible apply setF_kept | (simp only [kept_mk]; with_reducible apply Parts.of) | split

theorem recordBeam_kept {s₀ s : State} (h : Kept s₀ s) :
    Kept s₀ (recordBeam s) := by
  unfold recordBeam
  try dsimp only
  repeat' first
      | with_reducible assumption | with_reducible apply recordScan_kept

theorem enterFree_kept {s₀ s : State} (h : Kept s₀ s) :
    Kept s₀ (enterFree s) := by
  unfold enterFree
  try dsimp only
  repeat' first
      | with_reducible assumption | with_reducible apply raiseEvent_kept | with_reducible apply recordBeam_kept
      | with_reducible apply setF_kept | split

theorem hearBeacon_kept {s₀ s : State} (h : Kept s₀ s) (b) :
    Kept s₀ (hearBeacon s b) := by
  unfold hearBeacon
  try dsimp only
  repeat' first
      | with_reducible assumption | (simp only [kept_mk]; with_reducible apply Parts.of) | split

theorem adoptCount_kept {s₀ s : State} (h : Kept s₀ s) (df) :
    Kept s₀ (adoptCount s df) := by
  unfold adoptCount
  try dsimp only
  repeat' first
      | with_reducible assumption | (simp only [kept_mk]; with_reducible apply Parts.of)

theorem countGood_kept {s₀ s : State} (h : Kept s₀ s) (n) :
    Kept s₀ (countGood s n) := by
  unfold countGood
  try dsimp only
  repeat' first
      | with_reducible assumption | with_reducible apply enterLocked_kept | (simp only [kept_mk]; with_reducible apply Parts.of)
      | split

theorem learnPeriod_kept {s₀ s : State} (h : Kept s₀ s) (b) :
    Kept s₀ (learnPeriod s b) := by
  unfold learnPeriod
  try dsimp only
  repeat' first
      | with_reducible assumption | with_reducible apply takeFresh_kept | (simp only [kept_mk]; with_reducible apply Parts.of)
      | split

theorem acquireBeacon_kept {s₀ s : State} (h : Kept s₀ s) (b e) :
    Kept s₀ (acquireBeacon s b e) := by
  unfold acquireBeacon
  try dsimp only
  repeat' first
      | with_reducible assumption | with_reducible apply adoptCount_kept | with_reducible apply beamShift_kept
      | with_reducible apply countGood_kept | with_reducible apply learnPeriod_kept | with_reducible apply setBeam_kept
      | (simp only [kept_mk]; with_reducible apply Parts.of) | split

theorem stepWatermarks_kept {s₀ s : State} (h : Kept s₀ s) (old) :
    Kept s₀ (stepWatermarks old s) := by
  unfold stepWatermarks
  try dsimp only
  repeat' first
      | with_reducible assumption | with_reducible apply fireWatermark_kept | with_reducible apply setFired_kept
      | (with_reducible apply Kept.foldl; rotate_left 1; intro _ _ _; rotate_left 1) | split

theorem enterHoldover_kept {s₀ s : State} (h : Kept s₀ s) :
    Kept s₀ (enterHoldover s) := by
  unfold enterHoldover
  try dsimp only
  repeat' first
      | with_reducible assumption | with_reducible apply raiseEvent_kept | with_reducible apply recordBeam_kept
      | with_reducible apply setF_kept | (simp only [kept_mk]; with_reducible apply Parts.of)

theorem keepReleased_kept {s₀ s : State} (h : Kept s₀ s) (old) :
    Kept s₀ (keepReleased old s) := by
  unfold keepReleased
  try dsimp only
  repeat' first
      | with_reducible assumption | with_reducible apply setDma_kept
      | (with_reducible apply Kept.foldl; rotate_left 1; intro _ _ _; rotate_left 1) | split

theorem followOther_kept {s₀ s : State} (h : Kept s₀ s) (anchor) :
    Kept s₀ (followOther s anchor) := by
  unfold followOther
  try dsimp only
  repeat' first
      | with_reducible assumption | with_reducible apply useAnchor_kept | (simp only [kept_mk]; with_reducible apply Parts.of)

theorem slewBy_kept {s₀ s : State} (h : Kept s₀ s) (e) :
    Kept s₀ (slewBy s e) := by
  unfold slewBy
  try dsimp only
  repeat' first
      | with_reducible assumption | (simp only [kept_mk]; with_reducible apply Parts.of)

theorem holdoverEntry_kept {s₀ s : State} (h : Kept s₀ s) :
    Kept s₀ (holdoverEntry s) := by
  unfold holdoverEntry
  try dsimp only
  repeat' first
      | with_reducible assumption | with_reducible apply enterHoldover_kept | with_reducible apply followOther_kept
      | with_reducible apply noteSource_kept | with_reducible apply unfollow_kept | split

theorem stepFlips_kept {s₀ s : State} (h : Kept s₀ s) (old) :
    Kept s₀ (stepFlips old s) := by
  unfold stepFlips
  try dsimp only
  repeat' first
      | with_reducible assumption | with_reducible apply flipAll_kept | with_reducible apply flipLine_kept
      | (with_reducible apply Kept.foldl; rotate_left 1; intro _ _ _; rotate_left 1) | split

theorem stepEffects_kept {s₀ s : State} (h : Kept s₀ s) (old) :
    Kept s₀ (stepEffects old s) := by
  unfold stepEffects
  try dsimp only
  repeat' first
      | with_reducible assumption | with_reducible apply judgeStep_kept | with_reducible apply keepReleased_kept
      | with_reducible apply raiseEvent_kept | with_reducible apply recordBeam_kept | with_reducible apply stepFlips_kept
      | with_reducible apply stepWatermarks_kept | split

theorem takeAdopted_kept {s₀ s : State} (h : Kept s₀ s) :
    Kept s₀ (takeAdopted s) := by
  unfold takeAdopted
  try dsimp only
  repeat' first
      | with_reducible assumption | with_reducible apply moveCount_kept | with_reducible apply stepEffects_kept | split

theorem beamFrameStart_kept {s₀ s : State} (h : Kept s₀ s) :
    Kept s₀ (beamFrameStart s) := by
  unfold beamFrameStart
  try dsimp only
  repeat' first
      | with_reducible assumption | with_reducible apply takeAdopted_kept | (simp only [kept_mk]; with_reducible apply Parts.of)
      | split

theorem beamForget_kept {s₀ s : State} (h : Kept s₀ s) :
    Kept s₀ (beamForget s) := by
  unfold beamForget
  try dsimp only
  repeat' first
      | with_reducible assumption | with_reducible apply unfollow_kept | (simp only [kept_mk]; with_reducible apply Parts.of)

theorem enterOff_kept {s₀ s : State} (h : Kept s₀ s) :
    Kept s₀ (enterOff s) := by
  unfold enterOff
  try dsimp only
  repeat' first
      | with_reducible assumption | with_reducible apply beamForget_kept | with_reducible apply beamStops_kept
      | with_reducible apply setF_kept

theorem countOutliers_kept {s₀ s : State} (h : Kept s₀ s) (n) :
    Kept s₀ (countOutliers s n) := by
  unfold countOutliers
  try dsimp only
  repeat' first
      | with_reducible assumption | with_reducible apply countF_kept

theorem stepBeam_kept {s₀ s : State} (h : Kept s₀ s) (d) :
    Kept s₀ (stepBeam s d) := by
  unfold stepBeam
  try dsimp only
  repeat' first
      | with_reducible assumption | with_reducible apply beamShift_kept | with_reducible apply stepEffects_kept

theorem trackBeacon_kept {s₀ s : State} (h : Kept s₀ s) (e) :
    Kept s₀ (trackBeacon s e) := by
  unfold trackBeacon
  try dsimp only
  repeat' first
      | with_reducible assumption | with_reducible apply countOutliers_kept | with_reducible apply slewBy_kept
      | with_reducible apply stepBeam_kept | (simp only [kept_mk]; with_reducible apply Parts.of) | split

theorem clearBeacnt_kept {s₀ s : State} (h : Kept s₀ s) :
    Kept s₀ (clearBeacnt s) := by
  unfold clearBeacnt
  try dsimp only
  repeat' first
      | with_reducible assumption | with_reducible apply setRegWord_kept

theorem learnReference_kept {s₀ s : State} (h : Kept s₀ s) (period) :
    Kept s₀ (learnReference s period) := by
  unfold learnReference
  try dsimp only
  repeat' first
      | with_reducible assumption | (simp only [kept_mk]; with_reducible apply Parts.of)

theorem notePhase_kept {s₀ s : State} (h : Kept s₀ s) (e) :
    Kept s₀ (notePhase s e) := by
  unfold notePhase
  try dsimp only
  repeat' first
      | with_reducible assumption | with_reducible apply setF_kept

theorem takeFrameSet_kept {s₀ s : State} (h : Kept s₀ s) :
    Kept s₀ (takeFrameSet s) := by
  unfold takeFrameSet
  try dsimp only
  repeat' first
      | with_reducible assumption | with_reducible apply moveCount_kept | with_reducible apply stepEffects_kept
      | (simp only [kept_mk]; with_reducible apply Parts.of) | split

theorem acquirePulse_kept {s₀ s : State} (h : Kept s₀ s) (period) :
    Kept s₀ (acquirePulse s period) := by
  unfold acquirePulse
  try dsimp only
  repeat' first
      | with_reducible assumption | with_reducible apply beamShift_kept | with_reducible apply countGood_kept
      | with_reducible apply firstPulse_kept | with_reducible apply learnReference_kept | with_reducible apply notePhase_kept
      | with_reducible apply setF_kept | with_reducible apply takeFrameSet_kept
      | (simp only [kept_mk]; with_reducible apply Parts.of) | split

theorem returnPulse_kept {s₀ s : State} (h : Kept s₀ s) (period) :
    Kept s₀ (returnPulse s period) := by
  unfold returnPulse
  try dsimp only
  repeat' first
      | with_reducible assumption | with_reducible apply enterLocked_kept | with_reducible apply learnReference_kept
      | with_reducible apply notePhase_kept | with_reducible apply slewBy_kept | with_reducible apply takeFrameSet_kept
      | with_reducible apply unfollow_kept | (simp only [kept_mk]; with_reducible apply Parts.of) | split

theorem framePulse_kept {s₀ s : State} (h : Kept s₀ s) (period) :
    Kept s₀ (framePulse s period) := by
  unfold framePulse
  try dsimp only
  repeat' first
      | with_reducible assumption | with_reducible apply acquirePulse_kept | with_reducible apply countGood_kept
      | with_reducible apply learnReference_kept | with_reducible apply notePhase_kept | with_reducible apply returnPulse_kept
      | with_reducible apply slewBy_kept | with_reducible apply takeFrameSet_kept
      | (simp only [kept_mk]; with_reducible apply Parts.of) | split

theorem chooseAnchor_kept {s₀ s : State} (h : Kept s₀ s) (b) :
    Kept s₀ (chooseAnchor s b) := by
  unfold chooseAnchor
  try dsimp only
  repeat' first
      | with_reducible assumption | with_reducible apply useAnchor_kept | split

theorem watermarkFire_kept {s₀ s : State} (h : Kept s₀ s) (n) :
    Kept s₀ (watermarkFire s n) := by
  unfold watermarkFire
  try dsimp only
  repeat' first
      | with_reducible assumption | with_reducible apply beamAdvanceTo_kept | with_reducible apply fireWatermark_kept | split

theorem beamTick_kept {s₀ s : State} (h : Kept s₀ s) :
    Kept s₀ (beamTick s) := by
  unfold beamTick
  try dsimp only
  repeat' first
      | with_reducible assumption | (simp only [kept_mk]; with_reducible apply Parts.of) | split

theorem lineClockEdge_kept {s₀ s : State} (h : Kept s₀ s) :
    Kept s₀ (lineClockEdge s) := by
  unfold lineClockEdge
  try dsimp only
  repeat' first
      | with_reducible assumption | with_reducible apply beamMove_kept | with_reducible apply setF_kept | split

theorem enterAcquire_kept {s₀ s : State} (h : Kept s₀ s) :
    Kept s₀ (enterAcquire s) := by
  unfold enterAcquire
  try dsimp only
  repeat' first
      | with_reducible assumption | with_reducible apply beamForget_kept | with_reducible apply beamStops_kept
      | with_reducible apply setF_kept

theorem useBeacon_kept {s₀ s : State} (h : Kept s₀ s) (b) :
    Kept s₀ (useBeacon s b) := by
  unfold useBeacon
  try dsimp only
  repeat' first
      | with_reducible assumption | with_reducible apply acquireBeacon_kept | with_reducible apply adoptCount_kept
      | with_reducible apply countGood_kept | with_reducible apply learnPeriod_kept | with_reducible apply notePhase_kept
      | with_reducible apply noteSource_kept | with_reducible apply trackBeacon_kept | split

theorem acceptBeacon_kept {s₀ s : State} (h : Kept s₀ s) (b) :
    Kept s₀ (acceptBeacon s b) := by
  unfold acceptBeacon
  try dsimp only
  repeat' first
      | with_reducible assumption | with_reducible apply adoptCount_kept | with_reducible apply chooseAnchor_kept
      | with_reducible apply countWrapF_kept | with_reducible apply enterHoldover_kept | with_reducible apply followOther_kept
      | with_reducible apply hearBeacon_kept | with_reducible apply unfollow_kept | with_reducible apply useBeacon_kept | split

theorem slewTick_kept {s₀ s : State} (h : Kept s₀ s) :
    Kept s₀ (slewTick s) := by
  unfold slewTick
  try dsimp only
  repeat' first
      | with_reducible assumption | with_reducible apply beamShift_kept | (simp only [kept_mk]; with_reducible apply Parts.of)
      | split

theorem holdTick_kept {s₀ s : State} (h : Kept s₀ s) :
    Kept s₀ (holdTick s) := by
  unfold holdTick
  try dsimp only
  repeat' first
      | with_reducible assumption | (simp only [kept_mk]; with_reducible apply Parts.of) | split

theorem beamCtlWritten_kept {s₀ s : State} (h : Kept s₀ s) (was role w) :
    Kept s₀ (beamCtlWritten s was role w) := by
  unfold beamCtlWritten
  try dsimp only
  repeat' first
      | with_reducible assumption | with_reducible apply clearBeacnt_kept | with_reducible apply enterAcquire_kept
      | with_reducible apply enterOff_kept | with_reducible apply unfollow_kept | split

theorem beamFormatWritten_kept {s₀ s : State} (h : Kept s₀ s) :
    Kept s₀ (beamFormatWritten s) := by
  unfold beamFormatWritten
  try dsimp only
  repeat' first
      | with_reducible assumption | with_reducible apply enterAcquire_kept
      | (simp only [kept_mk]; with_reducible apply Parts.of) | split

/-! ### Power -/

theorem flushRecords_kept {s₀ s : State} (h : Kept s₀ s) (x1) :
    Kept s₀ (flushRecords s x1) := by
  induction x1 generalizing s  with
  | zero =>
    unfold flushRecords
    try dsimp only
    repeat' first
        | with_reducible assumption
  | succ n ih =>
    unfold flushRecords
    try dsimp only
    repeat' first
        | with_reducible assumption | with_reducible apply ih | with_reducible apply writeRecord_kept | split

theorem memoriesLost_kept {s₀ s : State} (h : Kept s₀ s) :
    Kept s₀ (memoriesLost s) := by
  unfold memoriesLost
  simp only [kept_mk]
  refine ⟨h.variant, h.pending, fun w => ⟨(h.wf w).1, ⟨swf_nil _, fun l hl => ?_, (h.wf w).2.1.2.2⟩, swf_nil _, swf_nil _⟩⟩
  have : l = [] := by simpa using hl
  exact this ▸ swf_nil _

theorem scanPowerOff_kept {s₀ s : State} (h : Kept s₀ s) :
    Kept s₀ (scanPowerOff s) := by
  unfold scanPowerOff
  try dsimp only
  repeat' first
      | with_reducible assumption | with_reducible apply scanLost_kept | (simp only [kept_mk]; with_reducible apply Parts.of)

theorem inputShutdown_kept {s₀ s : State} (h : Kept s₀ s) :
    Kept s₀ (inputShutdown s) := by
  unfold inputShutdown
  try dsimp only
  repeat' first
      | with_reducible assumption | with_reducible apply controlSlot_kept | with_reducible apply flushRecords_kept
      | with_reducible apply memoriesLost_kept | with_reducible apply record_kept | with_reducible apply scanPowerOff_kept
      | (simp only [kept_mk]; with_reducible apply Parts.of) | split

theorem noteInen_kept {s₀ s : State} (h : Kept s₀ s) :
    Kept s₀ (noteInen s) := by
  unfold noteInen
  try dsimp only
  repeat' first
      | with_reducible assumption | (simp only [kept_mk]; with_reducible apply Parts.of) | split

theorem saveImage_kept {s₀ s : State} (h : Kept s₀ s) :
    Kept s₀ (saveImage s) := by
  unfold saveImage
  try dsimp only
  repeat' first
      | with_reducible assumption | with_reducible apply takeFresh_kept | with_reducible apply writeExtent_kept
      | (simp only [kept_mk]; with_reducible apply Parts.of) | split

theorem enterHibernate_kept {s₀ s : State} (h : Kept s₀ s) :
    Kept s₀ (enterHibernate s) := by
  unfold enterHibernate
  try dsimp only
  repeat' first
      | with_reducible assumption | with_reducible apply latchPads_kept | with_reducible apply noteInen_kept
      | with_reducible apply saveImage_kept | with_reducible apply scanPowerOff_kept

theorem enterOffAwait_kept {s₀ s : State} (h : Kept s₀ s) :
    Kept s₀ (enterOffAwait s) := by
  unfold enterOffAwait
  try dsimp only
  repeat' first
      | with_reducible assumption | with_reducible apply controlSlot_kept | with_reducible apply debugClose_kept
      | with_reducible apply flushRecords_kept | with_reducible apply latchPads_kept | with_reducible apply memoriesLost_kept
      | with_reducible apply noteInen_kept | with_reducible apply record_kept | with_reducible apply scanPowerOff_kept
      | (simp only [kept_mk]; with_reducible apply Parts.of)

theorem noteResident_kept {s₀ s : State} (h : Kept s₀ s) :
    Kept s₀ (noteResident s) := by
  unfold noteResident
  try dsimp only
  repeat' first
      | with_reducible assumption | with_reducible apply setF_kept | split

theorem swf_restored {m : SMap Word} (h : swf regDefault m) (l : List (Nat × Word)) :
    swf regDefault (l.foldl (fun m e => sput m (regDefault e.1) e.1 e.2) m) := by
  induction l generalizing m with
  | nil => exact h
  | cons e l ih => exact ih (swf_sput h e.1 e.2)

theorem restoredRegs_kept {s₀ s : State} (h : Kept s₀ s) (l : List (Nat × Word)) (applied power) :
    Kept s₀ { s with regs := l.foldl (fun m e => sput m (regDefault e.1) e.1 e.2) (s.regs.filter fun e => !isScanAddr e.1),
                     applied := applied, power := power } := by
  simp only [kept_mk]
  exact Parts.ofRegs h fun w => swf_restored (swf_filter w _) l

theorem restoreImage_kept {s₀ s : State} (h : Kept s₀ s) : Kept s₀ (restoreImage s) := by
  unfold restoreImage
  split
  · exact h
  · rename_i g _
    have k := restoredRegs_kept h g.regs g.applied { s.power with image := none }
    dsimp only
    generalize { s with regs := g.regs.foldl (fun m (e : Nat × Word) => sput m (regDefault e.1) e.1 e.2) (s.regs.filter fun e => !isScanAddr e.1), applied := g.applied, power := { s.power with image := none } } = u at *
    repeat' first
      | with_reducible assumption | with_reducible apply refreshEgress_kept | with_reducible apply claimWritten_kept
      | with_reducible apply holdPorts_kept | with_reducible apply runWrite_kept | with_reducible apply setF_kept
      | with_reducible apply enterAcquire_kept | with_reducible apply noteResident_kept | with_reducible apply noteImm_kept
      | with_reducible apply noteShadow_kept | with_reducible apply showLoop_kept
      | (simp only [kept_mk]; with_reducible apply Parts.of) | split

theorem scanPowerOn_kept {s₀ s : State} (h : Kept s₀ s) :
    Kept s₀ (scanPowerOn s) := by
  unfold scanPowerOn
  try dsimp only
  repeat' first
      | with_reducible assumption | with_reducible apply repairDie_kept | (simp only [kept_mk]; with_reducible apply Parts.of)

theorem leaveHibernate_kept {s₀ s : State} (h : Kept s₀ s) (r) :
    Kept s₀ (leaveHibernate s r) := by
  unfold leaveHibernate
  try dsimp only
  repeat' first
      | with_reducible assumption | with_reducible apply raiseEvent_kept | with_reducible apply restoreImage_kept
      | with_reducible apply scanPowerOn_kept | with_reducible apply setF_kept

theorem transitionDone_kept {s₀ s : State} (h : Kept s₀ s) :
    Kept s₀ (transitionDone s) := by
  unfold transitionDone
  try dsimp only
  repeat' first
      | with_reducible assumption | with_reducible apply enterHibernate_kept | with_reducible apply enterOffAwait_kept
      | with_reducible apply leaveHibernate_kept | with_reducible apply setF_kept | with_reducible apply wakeFromHibernate_kept
      | (simp only [kept_mk]; with_reducible apply Parts.of) | split

theorem inputLoss_kept {s₀ s : State} (h : Kept s₀ s) (vin) :
    Kept s₀ (inputLoss s vin) := by
  unfold inputLoss
  try dsimp only
  repeat' first
      | with_reducible assumption | with_reducible apply powerGoodLoss_kept | with_reducible apply record_kept
      | with_reducible apply setF_kept | (simp only [kept_mk]; with_reducible apply Parts.of) | split

theorem vinRise_kept {s₀ s : State} (h : Kept s₀ s) (slot) :
    Kept s₀ (vinRise s slot) := by
  unfold vinRise
  try dsimp only
  repeat' first
      | with_reducible assumption | with_reducible apply setF_kept | (simp only [kept_mk]; with_reducible apply Parts.of)
      | split

theorem islandTick_kept {s₀ s : State} (h : Kept s₀ s) :
    Kept s₀ (islandTick s) := by
  unfold islandTick
  try dsimp only
  repeat' first
      | with_reducible assumption | with_reducible apply setF_kept | (simp only [kept_mk]; with_reducible apply Parts.of)
      | split

theorem converterStart_kept {s₀ s : State} (h : Kept s₀ s) :
    Kept s₀ (converterStart s) := by
  unfold converterStart
  try dsimp only
  repeat' first
      | with_reducible assumption | (simp only [kept_mk]; with_reducible apply Parts.of) | split

theorem islandLoss_kept {s₀ s : State} (h : Kept s₀ s) :
    Kept s₀ (islandLoss s) := by
  unfold islandLoss
  try dsimp only
  repeat' first
      | with_reducible assumption | with_reducible apply eraseContent_kept | with_reducible apply memoriesLost_kept
      | with_reducible apply padsIslandReset_kept | with_reducible apply resetReg_kept | with_reducible apply scanPowerOff_kept
      | with_reducible apply setF_kept | (simp only [kept_mk]; with_reducible apply Parts.of) | split

theorem thermal_kept {s₀ s : State} (h : Kept s₀ s) (tscan thouse) :
    Kept s₀ (thermal s tscan thouse) := by
  unfold thermal
  try dsimp only
  repeat' first
      | with_reducible assumption | with_reducible apply record_kept | with_reducible apply setF_kept | split

theorem powerRequest_kept {s₀ s : State} (h : Kept s₀ s) (r) :
    Kept s₀ (powerRequest s r).1 := by
  unfold powerRequest
  try dsimp only
  repeat' first
      | with_reducible assumption | with_reducible apply raiseEvent_kept | with_reducible apply startTransition_kept | split

theorem powerWrite_kept {s₀ s : State} (h : Kept s₀ s) (w) :
    Kept s₀ (powerWrite s w) := by
  unfold powerWrite
  try dsimp only
  repeat' first
      | with_reducible assumption | with_reducible apply powerRequest_kept

theorem islandExpiry_kept {s₀ s : State} (h : Kept s₀ s) :
    Kept s₀ (islandExpiry s) := by
  unfold islandExpiry
  try dsimp only
  repeat' first
      | with_reducible assumption | with_reducible apply setF_kept | with_reducible apply wakeEdge_kept | split

theorem islandTimerWritten_kept {s₀ s : State} (h : Kept s₀ s) :
    Kept s₀ (islandTimerWritten s) := by
  unfold islandTimerWritten
  try dsimp only
  repeat' first
      | with_reducible assumption | (simp only [kept_mk]; with_reducible apply Parts.of)

theorem inputRecovery_kept {s₀ s : State} (h : Kept s₀ s) (vin) :
    Kept s₀ (inputRecovery s vin) := by
  unfold inputRecovery
  try dsimp only
  repeat' first
      | with_reducible assumption | with_reducible apply setF_kept | (simp only [kept_mk]; with_reducible apply Parts.of)
      | split

/-! ### DmaBase -/

theorem dmaWriteback_kept {s₀ s : State} (h : Kept s₀ s) (n status) :
    Kept s₀ (dmaWriteback s n status).1 := by
  unfold dmaWriteback
  try dsimp only
  repeat' first
      | with_reducible assumption | with_reducible apply issueToScan_kept | with_reducible apply setDma_kept
      | with_reducible apply sramStore_kept | split

theorem dmaHaltNow_kept {s₀ s : State} (h : Kept s₀ s) (n cause err) :
    Kept s₀ (dmaHaltNow s n cause err) := by
  unfold dmaHaltNow
  try dsimp only
  repeat' first
      | with_reducible assumption | with_reducible apply dmaWriteback_kept | with_reducible apply pulse_kept
      | with_reducible apply record_kept | with_reducible apply setDma_kept | with_reducible apply setF_kept | split

theorem dmaSettleHalt_kept {s₀ s : State} (h : Kept s₀ s) (n) :
    Kept s₀ (dmaSettleHalt s n) := by
  unfold dmaSettleHalt
  try dsimp only
  repeat' first
      | with_reducible assumption | with_reducible apply dmaHaltNow_kept | split

theorem dmaHalt_kept {s₀ s : State} (h : Kept s₀ s) (n cause err) :
    Kept s₀ (dmaHalt s n cause err) := by
  unfold dmaHalt
  try dsimp only
  repeat' first
      | with_reducible assumption | with_reducible apply dmaSettleHalt_kept | with_reducible apply dropReads_kept
      | with_reducible apply setDma_kept | split

theorem dmaAbort_kept {s₀ s : State} (h : Kept s₀ s) (n) :
    Kept s₀ (dmaAbort s n) := by
  unfold dmaAbort
  try dsimp only
  repeat' first
      | with_reducible assumption | with_reducible apply dmaHalt_kept | split

theorem readDescWords_kept {s₀ s : State} (h : Kept s₀ s) (a x2 x3) :
    Kept s₀ (readDescWords s a x2 x3).1 := by
  induction x2 generalizing s a x3 with
  | zero =>
    unfold readDescWords
    try dsimp only
    repeat' first
        | with_reducible assumption
  | succ n ih =>
    unfold readDescWords
    try dsimp only
    repeat' first
        | with_reducible assumption | with_reducible apply ih | with_reducible apply sramLoad_kept | split

theorem dmaAccept_kept {s₀ s : State} (h : Kept s₀ s) (n desc cur) :
    Kept s₀ (dmaAccept s n desc cur) := by
  unfold dmaAccept
  try dsimp only
  repeat' first
      | with_reducible assumption | with_reducible apply dmaHalt_kept | with_reducible apply setDma_kept | split

theorem dmaLoad_kept {s₀ s : State} (h : Kept s₀ s) (n) :
    Kept s₀ (dmaLoad s n) := by
  unfold dmaLoad
  try dsimp only
  repeat' first
      | with_reducible assumption | with_reducible apply dmaAccept_kept | with_reducible apply dmaHalt_kept
      | with_reducible apply issueToScan_kept | with_reducible apply readDescWords_kept | with_reducible apply setDma_kept
      | split

theorem dmaNext_kept {s₀ s : State} (h : Kept s₀ s) (n a inDram) :
    Kept s₀ (dmaNext s n a inDram) := by
  unfold dmaNext
  try dsimp only
  repeat' first
      | with_reducible assumption | with_reducible apply dmaLoad_kept | with_reducible apply setDma_kept
      | with_reducible apply setF_kept

theorem dmaStart_kept {s₀ s : State} (h : Kept s₀ s) (n) :
    Kept s₀ (dmaStart s n) := by
  unfold dmaStart
  try dsimp only
  repeat' first
      | with_reducible assumption | with_reducible apply countReserved_kept | with_reducible apply dmaNext_kept
      | with_reducible apply setF_kept | split

theorem dmaControl_kept {s₀ s : State} (h : Kept s₀ s) (n w) :
    Kept s₀ (dmaControl s n w) := by
  unfold dmaControl
  try dsimp only
  repeat' first
      | with_reducible assumption | with_reducible apply dmaAbort_kept | with_reducible apply dmaStart_kept | split

theorem dmaApplied_kept {s₀ s : State} (h : Kept s₀ s) (n) :
    Kept s₀ (dmaApplied s n) := by
  unfold dmaApplied
  try dsimp only
  repeat' first
      | with_reducible assumption | with_reducible apply dmaSettleHalt_kept | with_reducible apply setDma_kept

theorem dmaFetched_kept {s₀ s : State} (h : Kept s₀ s) (n) :
    Kept s₀ (dmaFetched s n) := by
  unfold dmaFetched
  try dsimp only
  repeat' first
      | with_reducible assumption | with_reducible apply dmaAccept_kept | with_reducible apply dmaHalt_kept
      | with_reducible apply takeAnswer_kept | refine takeAnswer_kept ?_ _ _ (_, _, _) (by with_reducible assumption) | split

/-! ### RegIO -/

theorem absentWrite_kept {s₀ s : State} (h : Kept s₀ s) (src r st u w) :
    Kept s₀ (absentWrite s src r st u w) := by
  unfold absentWrite
  try dsimp only
  repeat' first
      | with_reducible assumption | (simp only [kept_mk]; with_reducible apply Parts.of) | split

theorem clearReg_kept {s₀ s : State} (h : Kept s₀ s) (a) :
    Kept s₀ (clearReg s a) := by
  unfold clearReg
  try dsimp only
  repeat' first
      | with_reducible assumption | with_reducible apply setRegWord_kept

theorem afterHouseWrite_kept {s₀ s : State} (h : Kept s₀ s) (old src h i a w) :
    Kept s₀ (afterHouseWrite old s src h i a w) := by
  unfold afterHouseWrite
  try dsimp only
  repeat' first
      | with_reducible assumption | with_reducible apply adcConvert_kept | with_reducible apply audioControl_kept
      | with_reducible apply bankVio_kept | with_reducible apply bridgeClear_kept | with_reducible apply bridgeRetrain_kept
      | with_reducible apply clearReg_kept | with_reducible apply coreControl_kept | with_reducible apply dmaControl_kept
      | with_reducible apply eventPush_kept | with_reducible apply hicForce_kept | with_reducible apply holdChanged_kept
      | with_reducible apply islandTimerWritten_kept | with_reducible apply loadWindow_kept | with_reducible apply lockKey_kept
      | with_reducible apply meminitGo_kept | with_reducible apply nextRecord_kept | with_reducible apply pendCleared_kept
      | with_reducible apply portEnables_kept | with_reducible apply portRetrainCmd_kept | with_reducible apply putFirmware_kept
      | with_reducible apply releaseLatches_kept | with_reducible apply releaseReached_kept
      | with_reducible apply secCommand_kept | with_reducible apply setF_kept | with_reducible apply streamSize_kept
      | with_reducible apply takeHarness_kept | with_reducible apply timerWritten_kept | with_reducible apply uartTransmit_kept
      | with_reducible apply voiceControl_kept | with_reducible apply weaveClear_kept | with_reducible apply yieldHarness_kept
      | split

theorem cmgo_kept {s₀ s : State} (h : Kept s₀ s) (src wcount) :
    Kept s₀ (cmgo s src wcount) := by
  unfold cmgo
  try dsimp only
  repeat' first
      | with_reducible assumption | with_reducible apply issueCommit_kept

theorem countIf_kept {s₀ s : State} (h : Kept s₀ s) (bad) :
    Kept s₀ (countIf s bad) := by
  unfold countIf
  try dsimp only
  repeat' first
      | with_reducible assumption | with_reducible apply countReserved_kept | split

theorem stagedWrite_kept {s₀ s : State} (h : Kept s₀ s) (src r a w) :
    Kept s₀ (stagedWrite s src r a w) := by
  unfold stagedWrite
  try dsimp only
  repeat' first
      | with_reducible assumption | with_reducible apply cmgo_kept | with_reducible apply countF_kept
      | with_reducible apply countIf_kept | with_reducible apply writeFields_kept | split

theorem keptOut_kept {s₀ s : State} (h : Kept s₀ s) (r w) :
    Kept s₀ (keptOut s r w) := by
  unfold keptOut
  try dsimp only
  repeat' first
      | with_reducible assumption | with_reducible apply countIf_kept

theorem clearRegs_kept {s₀ s : State} (h : Kept s₀ s) (as') :
    Kept s₀ (clearRegs s as') := by
  unfold clearRegs
  try dsimp only
  repeat' first
      | with_reducible assumption | with_reducible apply clearReg_kept
      | (with_reducible apply Kept.foldl; rotate_left 1; intro _ _ _; rotate_left 1)

theorem breakLockSequence_kept {s₀ s : State} (h : Kept s₀ s) (src a) :
    Kept s₀ (breakLockSequence s src a) := by
  unfold breakLockSequence
  try dsimp only
  repeat' first
      | with_reducible assumption | with_reducible apply setLockStep_kept | split

theorem afterScanWrite_kept {s₀ s : State} (h : Kept s₀ s) (old src h i w) :
    Kept s₀ (afterScanWrite old s src h i w) := by
  unfold afterScanWrite
  try dsimp only
  repeat' first
      | with_reducible assumption | with_reducible apply beamCtlWritten_kept | with_reducible apply beamFormatWritten_kept
      | with_reducible apply claimWritten_kept | with_reducible apply clearReg_kept | with_reducible apply clearRegs_kept
      | with_reducible apply holdChanged_kept | with_reducible apply invalidateAll_kept
      | with_reducible apply refreshEgress_kept | with_reducible apply setF_kept | with_reducible apply startRescan_kept
      | (simp only [kept_mk]; with_reducible apply Parts.of) | split

theorem almcfgWrite_kept {s₀ s : State} (h : Kept s₀ s) (r w) :
    Kept s₀ (almcfgWrite s r w) := by
  unfold almcfgWrite
  try dsimp only
  repeat' first
      | with_reducible assumption | with_reducible apply countIf_kept | with_reducible apply setF_kept | split

theorem creditScene_kept {s₀ s : State} (h : Kept s₀ s) (src a) :
    Kept s₀ (creditScene s src a) := by
  unfold creditScene
  try dsimp only
  repeat' first
      | with_reducible assumption | with_reducible apply creditWrite_kept | split

theorem countOnce_kept {s₀ s : State} (h : Kept s₀ s) (a) :
    Kept s₀ (countOnce a s) := by
  unfold countOnce
  try dsimp only
  repeat' first
      | with_reducible assumption | with_reducible apply setF_kept | split

theorem beamPosRead_kept {s₀ s : State} (h : Kept s₀ s) :
    Kept s₀ (beamPosRead s).1 := by
  unfold beamPosRead
  try dsimp only
  repeat' first
      | with_reducible assumption | with_reducible apply setRegWord_kept

theorem padSetupWrite_kept {s₀ s : State} (h : Kept s₀ s) (r idx a w) :
    Kept s₀ (padSetupWrite s r idx a w) := by
  unfold padSetupWrite
  try dsimp only
  repeat' first
      | with_reducible assumption | with_reducible apply countIf_kept | with_reducible apply countLockDrop_kept
      | with_reducible apply holdChanged_kept | with_reducible apply writeFields_kept | split

theorem specialWrite_kept {s₀ s : State} (h : Kept s₀ s) (src r idx a w) :
    OptKept s₀ (specialWrite s src r idx a w) := by
  unfold specialWrite
  try dsimp only
  repeat' first
      | with_reducible assumption | with_reducible apply some_kept | with_reducible exact none_kept
      | with_reducible apply absentWrite_kept | with_reducible apply almcfgWrite_kept | with_reducible apply copyCtlWrite_kept
      | with_reducible apply countBusyWrite_kept | with_reducible apply countCfgDrop_kept | with_reducible apply countIf_kept
      | with_reducible apply countLockDrop_kept | with_reducible apply countReserved_kept
      | with_reducible apply drawerCommand_kept | with_reducible apply drawerPointer_kept | with_reducible apply keptOut_kept
      | with_reducible apply padLockWrite_kept | with_reducible apply padSetupWrite_kept | with_reducible apply pgctlWrite_kept
      | with_reducible apply positionWrite_kept | with_reducible apply powerWrite_kept | with_reducible apply routeWrite_kept
      | with_reducible apply stagedWrite_kept | with_reducible apply writeFields_kept | split

theorem recTotalRead_kept {s₀ s : State} (h : Kept s₀ s) :
    Kept s₀ (recTotalRead s).1 := by
  unfold recTotalRead
  try dsimp only
  repeat' first
      | with_reducible assumption | with_reducible apply setF_kept

theorem fenceRead_kept {s₀ s : State} (h : Kept s₀ s) :
    Kept s₀ (fenceRead s).1 := by
  unfold fenceRead
  try dsimp only
  repeat' first
      | with_reducible assumption | with_reducible apply setF_kept | (simp only [kept_mk]; with_reducible apply Parts.of)
      | split

theorem perfRead_kept {s₀ s : State} (h : Kept s₀ s) (n) :
    Kept s₀ (perfRead s n).1 := by
  unfold perfRead
  try dsimp only
  repeat' first
      | with_reducible assumption | with_reducible apply setF_kept

theorem hookRead_kept {s₀ s : State} (h : Kept s₀ s) (h idx a) :
    Kept s₀ (hookRead s h idx a).1 := by
  unfold hookRead
  try dsimp only
  repeat' first
      | with_reducible assumption | with_reducible apply beamPosRead_kept | with_reducible apply fenceRead_kept
      | with_reducible apply gpinWord_kept | with_reducible apply perfRead_kept | with_reducible apply recTotalRead_kept
      | with_reducible apply uartRead_kept | split

theorem regRead_kept {s₀ s : State} (h : Kept s₀ s) (src a) :
    Kept s₀ (regRead s src a).1 := by
  unfold regRead
  try dsimp only
  repeat' first
      | with_reducible assumption | with_reducible apply hookRead_kept | split

theorem beforeWrite_kept {s₀ s : State} (h : Kept s₀ s) (r w) :
    Kept s₀ (beforeWrite s r w) := by
  unfold beforeWrite
  try dsimp only
  repeat' first
      | with_reducible assumption | with_reducible apply setF_kept | split

theorem writeRegister_kept {s₀ s : State} (h : Kept s₀ s) (src r idx a w) :
    Kept s₀ (writeRegister s src r idx a w) := by
  have aux : ∀ u, Kept s₀ u → Kept s₀ (countOnce u <| match specialWrite u src r idx a w with
      | some s' => s'
      | none =>
        let s' := writeFields u r idx a w
        if isScanAddr a then afterScanWrite u s' src r.hook (idx.headD 0) w
        else afterHouseWrite u s' src r.hook (idx.headD 0) a w) := by
    intro u k
    refine countOnce_kept ?_ _
    have k2 := specialWrite_kept k src r idx a w
    split
    · next e => exact k2 _ e
    · dsimp only
      split
      · exact afterScanWrite_kept (writeFields_kept k _ _ _ _) _ _ _ _ _
      · exact afterHouseWrite_kept (writeFields_kept k _ _ _ _) _ _ _ _ _ _
  have k := beforeWrite_kept h r w
  unfold writeRegister
  dsimp only
  split
  · exact aux _ k
  · exact aux _ (breakLockSequence_kept k _ _)

theorem regWriteBase_kept {s₀ s : State} (h : Kept s₀ s) (src a w) :
    Kept s₀ (regWriteBase s src a w) := by
  unfold regWriteBase
  try dsimp only
  repeat' first
      | with_reducible assumption | with_reducible apply breakLockSequence_kept | with_reducible apply countIf_kept
      | with_reducible apply writeRegister_kept | split

end Sys2Proof.Machine
end

