-- ==== Sys2Proof/Laws/KeptDresser.lean ====
section
/-! SUPPORT. What is kept (`Kept`): the dictionary, the service link, DMA, the bus, the boot, how a core runs an instruction. -/

namespace Sys2Proof.Machine

/-! ### Dictionary -/

theorem storeRecord_kept {s₀ s : State} (h : Kept s₀ s) (index sub v mark) :
    Kept s₀ (storeRecord s index sub v mark) := by
  unfold storeRecord
  try dsimp only
  repeat' first
      | with_reducible assumption | (simp only [kept_mk]; with_reducible apply Parts.of)

theorem storeValue_kept {s₀ s : State} (h : Kept s₀ s) (e index sub v) :
    Kept s₀ (storeValue s e index sub v).1 := by
  unfold storeValue
  try dsimp only
  repeat' first
      | with_reducible assumption | with_reducible apply raiseEvent_kept | with_reducible apply storeRecord_kept
      | with_reducible apply takeFresh_kept | split

theorem foundPoisoned_kept {s₀ s : State} (h : Kept s₀ s) (index sub) :
    Kept s₀ (foundPoisoned s index sub) := by
  unfold foundPoisoned
  try dsimp only
  repeat' first
      | with_reducible assumption | with_reducible apply raiseEvent_kept | with_reducible apply touchBlock_kept | split

theorem regWriteBits_kept {s₀ s : State} (h : Kept s₀ s) (src a mask v) :
    Kept s₀ (regWriteBits s src a mask v) := by
  unfold regWriteBits
  try dsimp only
  repeat' first
      | with_reducible assumption | with_reducible apply countCfgDrop_kept | with_reducible apply regWriteBase_kept | split

theorem dresserWrite_kept {s₀ s : State} (h : Kept s₀ s) (direct x) :
    Kept s₀ (dresserWrite s direct x) := by
  unfold dresserWrite
  try dsimp only
  repeat' first
      | with_reducible assumption | with_reducible apply issueToScan_kept | with_reducible apply regWriteBits_kept
      | (simp only [kept_mk]; with_reducible apply Parts.of) | split

theorem dresserWrites_kept {s₀ s : State} (h : Kept s₀ s) (direct ws) :
    Kept s₀ (dresserWrites s direct ws) := by
  unfold dresserWrites
  try dsimp only
  repeat' first
      | with_reducible assumption | with_reducible apply dresserWrite_kept
      | (with_reducible apply Kept.foldl; rotate_left 1; intro _ _ _; rotate_left 1)

theorem onScan_kept {s₀ s : State} (h : Kept s₀ s) (direct f) (hf : ∀ t, Kept s₀ t → Kept s₀ (f t)) :
    Kept s₀ (onScan s direct f) := by
  unfold onScan
  try dsimp only
  repeat' first
      | with_reducible assumption | with_reducible apply countF_kept | with_reducible apply hf | split

theorem readSlots_kept {s₀ s : State} (h : Kept s₀ s) (slots) :
    Kept s₀ (readSlots s slots) := by
  unfold readSlots
  try dsimp only
  repeat' first
      | with_reducible assumption | with_reducible apply touchBlock_kept
      | (with_reducible apply Kept.foldl; rotate_left 1; intro _ _ _; rotate_left 1)

theorem verifyRecord_kept {s₀ s : State} (h : Kept s₀ s) (key second r) :
    Kept s₀ (verifyRecord s key second r).1 := by
  unfold verifyRecord
  try dsimp only
  repeat' first
      | with_reducible assumption | with_reducible apply touchBlock_kept | split

theorem verifyStore_kept {s₀ s : State} (h : Kept s₀ s) :
    Kept s₀ (verifyStore s).1 := by
  unfold verifyStore
  try dsimp only
  repeat' first
      | with_reducible assumption | with_reducible apply readExtent_kept | with_reducible apply verifyRecord_kept
      | (with_reducible apply Kept.foldl_fst; rotate_left 1; intro _ _ _; rotate_left 1) | split

theorem writeSpecial_kept {s₀ s : State} (h : Kept s₀ s) (direct cls smid k v) :
    Kept s₀ (writeSpecial s direct cls smid k v).1 := by
  unfold writeSpecial
  try dsimp only
  repeat' first
      | with_reducible assumption | with_reducible apply askClear_kept | with_reducible apply contentKeyWrite_kept
      | with_reducible apply debugClose_kept | with_reducible apply dresserWrites_kept | with_reducible apply egressCommand_kept
      | with_reducible apply guardClear_kept | with_reducible apply issueCommit_kept | with_reducible apply keyAgreement_kept
      | with_reducible apply mramPut_kept | with_reducible apply onScan_kept | with_reducible apply powerRequest_kept
      | with_reducible apply readSlots_kept | with_reducible apply record_kept | with_reducible apply sealClear_kept
      | with_reducible apply sealKeyWrite_kept | with_reducible apply setF_kept | with_reducible apply takeHarness_kept
      | with_reducible apply unlockToken_kept | with_reducible apply verifyStore_kept | with_reducible apply yieldHarness_kept
      | (simp only [kept_mk]; with_reducible apply Parts.of) | split | (with_reducible intro _)

theorem setEntry_kept {s₀ s : State} (h : Kept s₀ s) (direct cls smid e v) :
    Kept s₀ (setEntry s direct cls smid e v).1 := by
  unfold setEntry
  try dsimp only
  repeat' first
      | with_reducible assumption | with_reducible apply dresserWrites_kept | with_reducible apply writeSpecial_kept | split

theorem bootEntry_kept {s₀ s : State} (h : Kept s₀ s) (scan index sub e) :
    Kept s₀ (bootEntry scan s index sub e) := by
  unfold bootEntry
  try dsimp only
  repeat' first
      | with_reducible assumption | with_reducible apply foundPoisoned_kept | with_reducible apply setEntry_kept | split

theorem bootDictionary_kept {s₀ s : State} (h : Kept s₀ s) (scan) :
    Kept s₀ (bootDictionary s scan) := by
  unfold bootDictionary
  try dsimp only
  repeat' first
      | with_reducible assumption | with_reducible apply bootEntry_kept
      | (with_reducible apply Kept.foldl; rotate_left 1; intro _ _ _; rotate_left 1)

theorem readSpecial_kept {s₀ s : State} (h : Kept s₀ s) (k) :
    Kept s₀ (readSpecial s k).1 := by
  have ok : ∀ v : List Byte, Kept s₀ (s, stOk, v).1 := fun _ => h
  have mram : ∀ a len : Nat, Kept s₀ (if (readExtent s a len).2 then ((readExtent s a len).1, stOk, mramBytes s a len)
      else (raiseEvent (readExtent s a len).1 74 HS_ODSTAT_STOREEV, stStorePoisoned, [])).1 := by
    intro a len
    split
    · exact readExtent_kept h _ _
    · exact raiseEvent_kept (readExtent_kept h _ _) _ _
  cases k
  case pinnedRecords => exact readSlots_kept h _
  case generalRecords => exact readSlots_kept h _
  case nonce => exact nonceRead_kept h
  case library =>
    unfold readSpecial
    exact mram 0x700000 _
  case repairTable =>
    unfold readSpecial
    exact mram 0x6FE000 0x2000
  case bootImage =>
    unfold readSpecial
    dsimp only
    split
    · exact h
    · exact mram _ _
  case storeCheck =>
    unfold readSpecial
    simp only [kept_mk]
    exact Parts.of h
  case sealing =>
    unfold readSpecial
    simp only [kept_mk]
    exact Parts.of h
  case fuse => 
    unfold readSpecial
    dsimp only
    split <;> exact h
  all_goals exact h

theorem entryValue_kept {s₀ s : State} (h : Kept s₀ s) (e) :
    Kept s₀ (entryValue s e).1 := by
  unfold entryValue
  try dsimp only
  repeat' first
      | with_reducible assumption | with_reducible apply readSpecial_kept | split

theorem freeBytes_kept {s₀ s : State} (h : Kept s₀ s) (len) :
    Kept s₀ (freeBytes s len).1 := by
  unfold freeBytes
  try dsimp only
  repeat' first
      | with_reducible assumption | with_reducible apply takeFresh_kept

theorem readEntry_kept {s₀ s : State} (h : Kept s₀ s) (e index sub) :
    Kept s₀ (readEntry s e index sub).1 := by
  unfold readEntry
  try dsimp only
  repeat' first
      | with_reducible assumption | with_reducible apply entryValue_kept | with_reducible apply foundPoisoned_kept
      | with_reducible apply freeBytes_kept | split

theorem writeEntry_kept {s₀ s : State} (h : Kept s₀ s) (cls smid e index sub v) :
    Kept s₀ (writeEntry s cls smid e index sub v).1 := by
  unfold writeEntry
  try dsimp only
  repeat' first
      | with_reducible assumption | with_reducible apply setEntry_kept | with_reducible apply storeValue_kept | split

theorem executeEntry_kept {s₀ s : State} (h : Kept s₀ s) (r smid) :
    Kept s₀ (executeEntry s r smid).1 := by
  unfold executeEntry
  try dsimp only
  repeat' first
      | with_reducible assumption | with_reducible apply readEntry_kept | with_reducible apply writeEntry_kept | split

/-! ### Service -/

theorem fabricAnswer_kept {s₀ s : State} (h : Kept s₀ s) (r pkt a more total) :
    Kept s₀ (fabricAnswer s r pkt a more total) := by
  unfold fabricAnswer
  try dsimp only
  repeat' first
      | with_reducible assumption | with_reducible apply originate_kept

theorem storeValueWords_kept {s₀ s : State} (h : Kept s₀ s) (base v) :
    Kept s₀ (storeValueWords s base v) := by
  unfold storeValueWords
  try dsimp only
  repeat' first
      | with_reducible assumption | with_reducible apply sramStore_kept
      | (with_reducible apply Kept.foldl; rotate_left 1; intro _ _ _; rotate_left 1) | split

theorem houseAnswer_kept {s₀ s : State} (h : Kept s₀ s) (r a) :
    Kept s₀ (houseAnswer s r a) := by
  unfold houseAnswer
  try dsimp only
  repeat' first
      | with_reducible assumption | with_reducible apply raiseEvent_kept | with_reducible apply setF_kept
      | with_reducible apply storeValueWords_kept | split

theorem sendService_kept {s₀ s : State} (h : Kept s₀ s) (data) :
    Kept s₀ (sendService s data) := by
  unfold sendService
  try dsimp only
  repeat' first
      | with_reducible assumption | with_reducible apply emit_kept | split

theorem sendAck_kept {s₀ s : State} (h : Kept s₀ s) (tag next status) :
    Kept s₀ (sendAck s tag next status) := by
  unfold sendAck
  try dsimp only
  repeat' first
      | with_reducible assumption | with_reducible apply sendService_kept

theorem sendResponse_kept {s₀ s : State} (h : Kept s₀ s) (r tag a seg data) :
    Kept s₀ (sendResponse s r tag a seg data) := by
  unfold sendResponse
  try dsimp only
  repeat' first
      | with_reducible assumption | with_reducible apply sendService_kept

theorem serviceAnswer_kept {s₀ s : State} (h : Kept s₀ s) (r tag a) :
    Kept s₀ (serviceAnswer s r tag a) := by
  unfold serviceAnswer
  try dsimp only
  repeat' first
      | with_reducible assumption | with_reducible apply sendResponse_kept
      | (simp only [kept_mk]; with_reducible apply Parts.of) | split

theorem deliverAnswer_kept {s₀ s : State} (h : Kept s₀ s) (r a) :
    Kept s₀ (deliverAnswer s r a) := by
  unfold deliverAnswer
  try dsimp only
  repeat' first
      | with_reducible assumption | with_reducible apply countF_kept | with_reducible apply countWrapF_kept
      | with_reducible apply emit_kept | with_reducible apply fabricAnswer_kept | with_reducible apply houseAnswer_kept
      | with_reducible apply sendAck_kept | with_reducible apply sendResponse_kept | with_reducible apply serviceAnswer_kept
      | split

theorem readSettles_kept {s₀ s : State} (h : Kept s₀ s) (r) :
    ∀ z, readSettles s r = some z → Kept s₀ z.1 := by
  intro z e
  unfold readSettles at e
  split at e
  · cases e
  · rename_i d _
    split at e
    · next he =>
      cases e
      exact takeAnswer_kept h _ _ _ he
    · split at e
      · cases e
        exact freeBytes_kept h d.len
      · cases e

theorem askFirmware_kept {s₀ s : State} (h : Kept s₀ s) (r) :
    Kept s₀ (askFirmware s r) := by
  unfold askFirmware
  try dsimp only
  repeat' first
      | with_reducible assumption | with_reducible apply raiseEvent_kept | with_reducible apply setRegWord_kept
      | with_reducible apply storeValueWords_kept | (simp only [kept_mk]; with_reducible apply Parts.of) | split

theorem firmwareRequest_kept {s₀ s : State} (h : Kept s₀ s) (r) :
    Kept s₀ (firmwareRequest s r).1 := by
  unfold firmwareRequest
  try dsimp only
  repeat' first
      | with_reducible assumption | with_reducible apply askFirmware_kept | split

theorem wholeRequest_kept {s₀ s : State} (h : Kept s₀ s) (r) :
    Kept s₀ (wholeRequest s r).1 := by
  unfold wholeRequest
  try dsimp only
  repeat' first
      | with_reducible assumption | with_reducible apply executeEntry_kept | with_reducible apply firmwareRequest_kept | split

theorem fabricPiece_kept {s₀ s : State} (h : Kept s₀ s) (r pkt) :
    Kept s₀ (fabricPiece s r pkt).1 := by
  unfold fabricPiece
  try dsimp only
  repeat' first
      | with_reducible assumption | with_reducible apply wholeRequest_kept
      | (simp only [kept_mk]; with_reducible apply Parts.of) | split

theorem openWrite_kept {s₀ s : State} (h : Kept s₀ s) (r tag total) :
    Kept s₀ (openWrite s r tag total).1 := by
  unfold openWrite
  try dsimp only
  repeat' first
      | with_reducible assumption | (simp only [kept_mk]; with_reducible apply Parts.of) | split

theorem runRequest_kept {s₀ s : State} (h : Kept s₀ s) (r) :
    Kept s₀ (runRequest s r).1 := by
  unfold runRequest
  try dsimp only
  repeat' first
      | with_reducible assumption | with_reducible apply fabricPiece_kept | with_reducible apply openWrite_kept
      | with_reducible apply wholeRequest_kept | split

theorem dictStep_kept {s₀ s : State} (h : Kept s₀ s) :
    ∀ r, dictStep s = some r → Kept s₀ r.1 := by
  intro r e
  unfold dictStep at e
  split at e
  · obtain ⟨x, hx, rfl⟩ := Option.map_eq_some_iff.mp e
    simp only [kept_mk]
    exact Parts.of (readSettles_kept h _ _ hx)
  · split at e
    · cases e
    · split at e
      · cases e
      · have k : ∀ rs, Kept s₀ { s with dresser := { s.dresser with queue := rs } } := fun _ => by
          simp only [kept_mk]
          exact Parts.of h
        dsimp only at e
        split at e
        · cases e
          refine issueToScan_kept ?_ _
          simp only [kept_mk]
          exact Parts.of (k _)
        · cases e
          exact runRequest_kept (k _) _

theorem dictPump_kept {s₀ s : State} (h : Kept s₀ s) (x0) :
    Kept s₀ (dictPump x0 s) := by
  induction x0 generalizing s with
  | zero => exact h
  | succ n ih =>
    unfold dictPump
    split
    · exact h
    · next e => exact dictStep_kept h _ e
    · next e => exact ih (deliverAnswer_kept (dictStep_kept h _ e) _ _)

theorem pumpAll_kept {s₀ s : State} (h : Kept s₀ s) :
    Kept s₀ (pumpAll s) := by
  unfold pumpAll
  try dsimp only
  repeat' first
      | with_reducible assumption | with_reducible apply dictPump_kept

theorem endFirmware_kept {s₀ s : State} (h : Kept s₀ s) (r a) :
    Kept s₀ (endFirmware s r a) := by
  unfold endFirmware
  try dsimp only
  repeat' first
      | with_reducible assumption | with_reducible apply deliverAnswer_kept | with_reducible apply pumpAll_kept
      | with_reducible apply setF_kept | (simp only [kept_mk]; with_reducible apply Parts.of)

theorem loadValueWords_kept {s₀ s : State} (h : Kept s₀ s) (base len) :
    Kept s₀ (loadValueWords s base len).1 := by
  unfold loadValueWords
  try dsimp only
  repeat' first
      | with_reducible assumption | with_reducible apply freeBytes_kept | with_reducible apply sramLoad_kept
      | (with_reducible apply Kept.foldl_fst; rotate_left 1; intro _ _ _; rotate_left 1) | split

theorem firmwareAnswer_kept {s₀ s : State} (h : Kept s₀ s) (status) :
    Kept s₀ (firmwareAnswer s status) := by
  unfold firmwareAnswer
  try dsimp only
  repeat' first
      | with_reducible assumption | with_reducible apply endFirmware_kept | with_reducible apply loadValueWords_kept
      | with_reducible apply takeFresh_kept | split

theorem sendAbort_kept {s₀ s : State} (h : Kept s₀ s) (tag status) :
    Kept s₀ (sendAbort s tag status) := by
  unfold sendAbort
  try dsimp only
  repeat' first
      | with_reducible assumption | with_reducible apply sendService_kept

theorem lowerRec_kept {s₀ s : State} (h : Kept s₀ s) :
    Kept s₀ (lowerRec s) := by
  unfold lowerRec
  try dsimp only
  repeat' first
      | with_reducible assumption | with_reducible apply setF_kept | with_reducible apply takeFresh_kept | split

theorem submit_kept {s₀ s : State} (h : Kept s₀ s) (r) :
    Kept s₀ (submit s r) := by
  unfold submit
  try dsimp only
  repeat' first
      | with_reducible assumption | with_reducible apply pumpAll_kept | (simp only [kept_mk]; with_reducible apply Parts.of)

theorem dropTransfer_kept {s₀ s : State} (h : Kept s₀ s) :
    Kept s₀ (dropTransfer s) := by
  unfold dropTransfer
  try dsimp only
  repeat' first
      | with_reducible assumption | (simp only [kept_mk]; with_reducible apply Parts.of)

theorem serviceAbort_kept {s₀ s : State} (h : Kept s₀ s) (id data) :
    Kept s₀ (serviceAbort s id data) := by
  unfold serviceAbort
  try dsimp only
  repeat' first
      | with_reducible assumption | with_reducible apply dropTransfer_kept | split

theorem fabricRequest_kept {s₀ s : State} (h : Kept s₀ s) :
    Kept s₀ (fabricRequest s) := by
  unfold fabricRequest
  try dsimp only
  repeat' first
      | with_reducible assumption | with_reducible apply countBadQ_kept | with_reducible apply submit_kept
      | with_reducible apply takeWindow_kept | exact takeWindow_kept h _ (_, _) (by with_reducible assumption)
      | (with_reducible apply Kept.foldl; rotate_left 1; intro _ _ _; rotate_left 1) | split

theorem houseGo_kept {s₀ s : State} (h : Kept s₀ s) :
    Kept s₀ (houseGo s) := by
  unfold houseGo
  try dsimp only
  repeat' first
      | with_reducible assumption | with_reducible apply countReserved_kept | with_reducible apply setF_kept
      | with_reducible apply sramLoad_kept | with_reducible apply submit_kept
      | (with_reducible apply Kept.foldl_fst; rotate_left 1; intro _ _ _; rotate_left 1) | split

theorem resultReady_kept {s₀ s : State} (h : Kept s₀ s) (sealing) :
    Kept s₀ (resultReady s sealing) := by
  unfold resultReady
  try dsimp only
  repeat' first
      | with_reducible assumption | (simp only [kept_mk]; with_reducible apply Parts.of) | split

theorem segment_kept {s₀ s : State} (h : Kept s₀ s) (id data) :
    Kept s₀ (segment s id data) := by
  unfold segment
  try dsimp only
  repeat' first
      | with_reducible assumption | with_reducible apply dropTransfer_kept | with_reducible apply sendAck_kept
      | with_reducible apply submit_kept | (simp only [kept_mk]; with_reducible apply Parts.of) | split

theorem firmwareTimeout_kept {s₀ s : State} (h : Kept s₀ s) :
    Kept s₀ (firmwareTimeout s) := by
  unfold firmwareTimeout
  try dsimp only
  repeat' first
      | with_reducible assumption | with_reducible apply endFirmware_kept | split

theorem serviceRequest_kept {s₀ s : State} (h : Kept s₀ s) (id data) :
    Kept s₀ (serviceRequest s id data) := by
  unfold serviceRequest
  try dsimp only
  repeat' first
      | with_reducible assumption | with_reducible apply deliverAnswer_kept | with_reducible apply submit_kept | split

theorem transferTimeout_kept {s₀ s : State} (h : Kept s₀ s) :
    Kept s₀ (transferTimeout s) := by
  unfold transferTimeout
  try dsimp only
  repeat' first
      | with_reducible assumption | with_reducible apply dropTransfer_kept | with_reducible apply sendAbort_kept | split

theorem stagingTimeout_kept {s₀ s : State} (h : Kept s₀ s) (slot) :
    Kept s₀ (stagingTimeout s slot) := by
  unfold stagingTimeout
  try dsimp only
  repeat' first
      | with_reducible assumption | (simp only [kept_mk]; with_reducible apply Parts.of)

theorem goesBusOff_kept {s₀ s : State} (h : Kept s₀ s) :
    Kept s₀ (goesBusOff s) := by
  unfold goesBusOff
  try dsimp only
  repeat' first
      | with_reducible assumption | with_reducible apply raiseEvent_kept | with_reducible apply setF_kept
      | with_reducible apply takeFresh_kept

theorem refreshBusState_kept {s₀ s : State} (h : Kept s₀ s) :
    Kept s₀ (refreshBusState s) := by
  unfold refreshBusState
  try dsimp only
  repeat' first
      | with_reducible assumption | with_reducible apply setF_kept

theorem sendSegments_kept {s₀ s : State} (h : Kept s₀ s) (t lo hi) :
    Kept s₀ (sendSegments s t lo hi) := by
  unfold sendSegments
  try dsimp only
  repeat' first
      | with_reducible assumption | with_reducible apply sendService_kept
      | (with_reducible apply Kept.foldl; rotate_left 1; intro _ _ _; rotate_left 1)

theorem busOff_kept {s₀ s : State} (h : Kept s₀ s) (e) :
    Kept s₀ (busOff s e) := by
  unfold busOff
  try dsimp only
  repeat' first
      | with_reducible assumption | with_reducible apply goesBusOff_kept | with_reducible apply lowerRec_kept
      | with_reducible apply refreshBusState_kept | with_reducible apply setF_kept | split

theorem regWrite_kept {s₀ s : State} (h : Kept s₀ s) (src a w) :
    Kept s₀ (regWrite s src a w) := by
  unfold regWrite
  try dsimp only
  repeat' first
      | with_reducible assumption | with_reducible apply countOnce_kept | with_reducible apply countReserved_kept
      | with_reducible apply firmwareAnswer_kept | with_reducible apply houseGo_kept | with_reducible apply regWriteBase_kept
      | split

theorem serviceAck_kept {s₀ s : State} (h : Kept s₀ s) (id data) :
    Kept s₀ (serviceAck s id data) := by
  unfold serviceAck
  try dsimp only
  repeat' first
      | with_reducible assumption | with_reducible apply dropTransfer_kept | with_reducible apply sendAbort_kept
      | with_reducible apply sendSegments_kept | (simp only [kept_mk]; with_reducible apply Parts.of) | split

/-! ### Dma -/

theorem dmaCountApplied_kept {s₀ s : State} (h : Kept s₀ s) (n) :
    Kept s₀ (dmaCountApplied s n) := by
  unfold dmaCountApplied
  try dsimp only
  repeat' first
      | with_reducible assumption | with_reducible apply setDma_kept

theorem dmaIssue_kept {s₀ s : State} (h : Kept s₀ s) (n m) :
    Kept s₀ (dmaIssue s n m) := by
  unfold dmaIssue
  try dsimp only
  repeat' first
      | with_reducible assumption | with_reducible apply issueToScan_kept | with_reducible apply setDma_kept | split

theorem dmaWriteElement_kept {s₀ s : State} (h : Kept s₀ s) (n i w) :
    Kept s₀ (dmaWriteElement s n i w).1 := by
  unfold dmaWriteElement
  try dsimp only
  repeat' first
      | with_reducible assumption | with_reducible apply dmaCountApplied_kept | with_reducible apply dmaIssue_kept
      | with_reducible apply regWrite_kept | with_reducible apply sramStore_kept | split

theorem dmaPutElement_kept {s₀ s : State} (h : Kept s₀ s) (n w) :
    Kept s₀ (dmaPutElement s n w) := by
  unfold dmaPutElement
  try dsimp only
  repeat' first
      | with_reducible assumption | with_reducible apply dmaHalt_kept | with_reducible apply dmaWriteElement_kept
      | with_reducible apply setDma_kept | split

theorem dmaReadElement_kept {s₀ s : State} (h : Kept s₀ s) (n i) :
    Kept s₀ (dmaReadElement s n i).1 := by
  unfold dmaReadElement
  try dsimp only
  repeat' first
      | with_reducible assumption | with_reducible apply regRead_kept | with_reducible apply sramLoad_kept | split

theorem dmaMove_kept {s₀ s : State} (h : Kept s₀ s) (n x2) :
    Kept s₀ (dmaMove s n x2) := by
  induction x2 generalizing s n with
  | zero =>
    unfold dmaMove
    try dsimp only
    repeat' first
        | with_reducible assumption
  | succ n ih =>
    unfold dmaMove
    try dsimp only
    repeat' first
        | with_reducible assumption | with_reducible apply ih | with_reducible apply dmaPutElement_kept
        | with_reducible apply dmaReadElement_kept | split

theorem dmaAsk_kept {s₀ s : State} (h : Kept s₀ s) (n k) :
    Kept s₀ (dmaAsk s n k) := by
  unfold dmaAsk
  try dsimp only
  repeat' first
      | with_reducible assumption | with_reducible apply issueToScan_kept | with_reducible apply setDma_kept
      | (with_reducible apply Kept.foldl; rotate_left 1; intro _ _ _; rotate_left 1)

theorem dmaBurstEnd_kept {s₀ s : State} (h : Kept s₀ s) (n) :
    Kept s₀ (dmaBurstEnd s n) := by
  unfold dmaBurstEnd
  try dsimp only
  repeat' first
      | with_reducible assumption | with_reducible apply setDma_kept | split

theorem dmaTake_kept {s₀ s : State} (h : Kept s₀ s) (n x2) :
    Kept s₀ (dmaTake s n x2) := by
  induction x2 generalizing s n with
  | zero =>
    unfold dmaTake
    try dsimp only
    repeat' first
        | with_reducible assumption
  | succ n ih =>
    unfold dmaTake
    try dsimp only
    repeat' first
        | with_reducible assumption | with_reducible apply ih | with_reducible apply dmaPutElement_kept
        | with_reducible apply setDma_kept | with_reducible apply takeAnswer_kept
        | refine takeAnswer_kept ?_ _ _ (_, _, _) (by with_reducible assumption) | split

theorem dmaSettle_kept {s₀ s : State} (h : Kept s₀ s) (n) :
    Kept s₀ (dmaSettle s n) := by
  unfold dmaSettle
  try dsimp only
  repeat' first
      | with_reducible assumption | with_reducible apply dmaBurstEnd_kept | with_reducible apply dmaFetched_kept
      | with_reducible apply dmaHalt_kept | with_reducible apply dmaLoad_kept | with_reducible apply dmaSettleHalt_kept
      | with_reducible apply dmaTake_kept | with_reducible apply dropAnswers_kept | split

theorem dmaBurst_kept {s₀ s : State} (h : Kept s₀ s) :
    Kept s₀ (dmaBurst s) := by
  unfold dmaBurst
  try dsimp only
  repeat' first
      | with_reducible assumption | with_reducible apply dmaAsk_kept | with_reducible apply dmaBurstEnd_kept
      | with_reducible apply dmaMove_kept | with_reducible apply dmaSettle_kept | with_reducible apply setDma_kept
      | (with_reducible apply Kept.foldl; rotate_left 1; intro _ _ _; rotate_left 1)
      | (simp only [kept_mk]; with_reducible apply Parts.of) | split

theorem dmaFinish_kept {s₀ s : State} (h : Kept s₀ s) (n) :
    Kept s₀ (dmaFinish s n) := by
  unfold dmaFinish
  try dsimp only
  repeat' first
      | with_reducible assumption | with_reducible apply countWrapF_kept | with_reducible apply dmaNext_kept
      | with_reducible apply eventLine_kept | with_reducible apply pulse_kept | with_reducible apply setDma_kept
      | with_reducible apply setF_kept | split

theorem dmaWriteDone_kept {s₀ s : State} (h : Kept s₀ s) (n) :
    Kept s₀ (dmaWriteDone s n) := by
  unfold dmaWriteDone
  try dsimp only
  repeat' first
      | with_reducible assumption | with_reducible apply dmaFinish_kept | with_reducible apply dmaHalt_kept
      | with_reducible apply dmaWriteback_kept | with_reducible apply setDma_kept | split

theorem dmaComplete_kept {s₀ s : State} (h : Kept s₀ s) (n) :
    Kept s₀ (dmaComplete s n) := by
  unfold dmaComplete
  try dsimp only
  repeat' first
      | with_reducible assumption | with_reducible apply dmaFinish_kept | with_reducible apply dmaHalt_kept
      | with_reducible apply dmaSettleHalt_kept | with_reducible apply dmaWriteDone_kept | split

theorem dmaTimedOut_kept {s₀ s : State} (h : Kept s₀ s) (n) :
    Kept s₀ (dmaTimedOut s n) := by
  unfold dmaTimedOut
  try dsimp only
  repeat' first
      | with_reducible assumption | with_reducible apply dmaHalt_kept | split

/-! ### Bus -/

theorem applyDramWrite_kept {s₀ s : State} (h : Kept s₀ s) (src a bytes) :
    Kept s₀ (applyDramWrite s src a bytes) := by
  unfold applyDramWrite
  try dsimp only
  repeat' first
      | with_reducible assumption | with_reducible apply creditWrite_kept | with_reducible apply dramWrite_kept | split

theorem applyPosted_kept {s₀ s : State} (h : Kept s₀ s) (m) :
    Kept s₀ (applyPosted s m) := by
  unfold applyPosted
  try dsimp only
  repeat' first
      | with_reducible assumption | with_reducible apply acceptBeacon_kept | with_reducible apply applyDramWrite_kept
      | with_reducible apply creditScene_kept | with_reducible apply creditWrite_kept | with_reducible apply fatalFault_kept
      | with_reducible apply immClear_kept | with_reducible apply immPut_kept | with_reducible apply loadDecoders_kept
      | with_reducible apply regWrite_kept | with_reducible apply regWriteBits_kept | split

theorem takeResult_kept {s₀ s : State} (h : Kept s₀ s) (r) :
    Kept s₀ (takeResult s r) := by
  unfold takeResult
  try dsimp only
  repeat' first
      | with_reducible assumption | with_reducible apply postResult_kept | (simp only [kept_mk]; with_reducible apply Parts.of)
      | split

theorem readTarget_kept {s₀ s : State} (h : Kept s₀ s) (src t len) :
    Kept s₀ (readTarget s src t len).1 := by
  unfold readTarget
  try dsimp only
  repeat' first
      | with_reducible assumption | with_reducible apply entryValue_kept | with_reducible apply readTable_kept
      | with_reducible apply regRead_kept | with_reducible apply touchUnits_kept | split

theorem rdRequest_kept {s₀ s : State} (h : Kept s₀ s) :
    Kept s₀ (rdRequest s) := by
  unfold rdRequest
  try dsimp only
  repeat' first
      | with_reducible assumption | with_reducible apply readTarget_kept | with_reducible apply sendToHouse_kept
      | with_reducible apply setArrived_kept | split

theorem applyAtHouse_kept {s₀ s : State} (h : Kept s₀ s) :
    Kept s₀ (applyAtHouse s) := by
  unfold applyAtHouse
  try dsimp only
  repeat' first
      | with_reducible assumption | with_reducible apply enqueueRecord_kept | with_reducible apply setArrivedHouse_kept
      | with_reducible apply takeResult_kept | (simp only [kept_mk]; with_reducible apply Parts.of) | split

theorem afterPosted_kept {s₀ s : State} (h : Kept s₀ s) (m) :
    Kept s₀ (afterPosted s m) := by
  unfold afterPosted
  try dsimp only
  repeat' first
      | with_reducible assumption | with_reducible apply dmaApplied_kept | with_reducible apply pumpAll_kept | split

theorem parkArrived_kept {s₀ s : State} (h : Kept s₀ s) (keep x2) :
    Kept s₀ (parkArrived s keep x2) := by
  induction x2 generalizing s keep with
  | nil =>
    unfold parkArrived
    try dsimp only
    repeat' first
        | with_reducible assumption | with_reducible apply setArrived_kept
  | cons e l ih =>
    unfold parkArrived
    try dsimp only
    repeat' first
        | with_reducible assumption | with_reducible apply ih | with_reducible apply setArrived_kept
        | (simp only [kept_mk]; with_reducible apply Parts.of) | split

theorem applyAtScan_kept {s₀ s : State} (h : Kept s₀ s) :
    Kept s₀ (applyAtScan s) := by
  unfold applyAtScan
  try dsimp only
  repeat' first
      | with_reducible assumption | with_reducible apply afterPosted_kept | with_reducible apply applyPosted_kept
      | with_reducible apply parkArrived_kept | with_reducible apply setArrived_kept | split

theorem pwApply_kept {s₀ s : State} (h : Kept s₀ s) (x1) :
    Kept s₀ (pwApply s x1) := by
  unfold pwApply
  try dsimp only
  repeat' first
      | with_reducible assumption | with_reducible apply applyAtHouse_kept | with_reducible apply applyAtScan_kept | split

theorem cmArrival_kept {s₀ s : State} (h : Kept s₀ s) :
    Kept s₀ (cmArrival s) := by
  unfold cmArrival
  try dsimp only
  repeat' first
      | with_reducible assumption | with_reducible apply commitArrives_kept | with_reducible apply parkArrived_kept
      | with_reducible apply setArrived_kept | split

theorem stallOn_kept {s₀ s : State} (h : Kept s₀ s) (n w len) :
    Kept s₀ (stallOn s n w len) := by
  unfold stallOn
  try dsimp only
  repeat' first
      | with_reducible assumption | with_reducible apply issueToScan_kept | with_reducible apply setCore_kept

/-! ### CoreExec -/

/-- What an instruction's body keeps: the state it answers, and what its effect beyond the core is given. -/
def EndKept (s₀ : State) (p : State × Ending) : Prop :=
  Kept s₀ p.1 ∧ ∀ c f, p.2 = .next c f → ∀ t, Kept s₀ t → Kept s₀ (f t)

theorem endKept_next {s₀ s : State} {f : State → State} (h : Kept s₀ s) (c : Core) (hf : ∀ t, Kept s₀ t → Kept s₀ (f t)) :
    EndKept s₀ (s, .next c f) := ⟨h, fun _ _ e => by cases e; exact hf⟩

theorem endKept_jump {s₀ s : State} (h : Kept s₀ s) (c : Core) (a : BitVec 24) : EndKept s₀ (s, .jump c a) :=
  ⟨h, fun _ _ e => nomatch e⟩

theorem endKept_trap {s₀ s : State} (h : Kept s₀ s) (t : Trap) : EndKept s₀ (s, .trap t) := ⟨h, fun _ _ e => nomatch e⟩

theorem endKept_wait {s₀ s : State} (h : Kept s₀ s) (w : LoadWait) (k : Nat) : EndKept s₀ (s, .wait w k) :=
  ⟨h, fun _ _ e => nomatch e⟩

theorem afterIssue_kept {s₀ s : State} (h : Kept s₀ s) (n step') :
    Kept s₀ (afterIssue s n step') := by
  unfold afterIssue
  try dsimp only
  repeat' first
      | with_reducible assumption | with_reducible apply endKept_next | with_reducible apply endKept_jump
      | with_reducible apply endKept_trap | with_reducible apply endKept_wait | with_reducible apply setCore_kept

theorem issue_kept {s₀ s : State} (h : Kept s₀ s) (n f) (hf : ∀ t, Kept s₀ t → Kept s₀ (f t)) :
    Kept s₀ (issue s n f) := by
  unfold issue
  try dsimp only
  repeat' first
      | with_reducible assumption | with_reducible apply endKept_next | with_reducible apply endKept_jump
      | with_reducible apply endKept_trap | with_reducible apply endKept_wait | with_reducible apply afterIssue_kept
      | with_reducible apply setCore_kept | with_reducible apply hf | split

theorem loadWord_kept {s₀ s : State} (h : Kept s₀ s) (n a wholeRom) :
    Kept s₀ (loadWord s n a wholeRom).1 := by
  unfold loadWord
  try dsimp only
  repeat' first
      | with_reducible assumption | with_reducible apply endKept_next | with_reducible apply endKept_jump
      | with_reducible apply endKept_trap | with_reducible apply endKept_wait | with_reducible apply mramLoad_kept
      | with_reducible apply regRead_kept | with_reducible apply sramLoad_kept | split

theorem checked_kept {s₀ s : State} (h : Kept s₀ s) (l) (k : Unit → State × Ending) (hk : EndKept s₀ (k ())) :
    EndKept s₀ (checked s l k) := by
  unfold checked
  split
  · exact endKept_trap h _
  · exact hk

theorem goOn_kept {s₀ s : State} (h : Kept s₀ s) (c) :
    EndKept s₀ (goOn s c) := by
  exact endKept_next h c fun _ k => k

theorem writeResult_kept {s₀ s : State} (h : Kept s₀ s) (c rd w) :
    EndKept s₀ (writeResult s c rd w) := by
  unfold writeResult
  try dsimp only
  repeat' first
      | with_reducible assumption | with_reducible apply endKept_next | with_reducible apply endKept_jump
      | with_reducible apply endKept_trap | with_reducible apply endKept_wait | with_reducible apply checked_kept
      | with_reducible apply goOn_kept

theorem mramStore_kept {s₀ s : State} (h : Kept s₀ s) (a v) :
    Kept s₀ (mramStore s a v) := by
  unfold mramStore
  try dsimp only
  repeat' first
      | with_reducible assumption | with_reducible apply endKept_next | with_reducible apply endKept_jump
      | with_reducible apply endKept_trap | with_reducible apply endKept_wait | with_reducible apply countF_kept
      | with_reducible apply mramPut_kept | split

theorem coreStore_kept {s₀ s : State} (h : Kept s₀ s) (n a w) :
    Kept s₀ (coreStore s n a w) := by
  unfold coreStore
  try dsimp only
  repeat' first
      | with_reducible assumption | with_reducible apply endKept_next | with_reducible apply endKept_jump
      | with_reducible apply endKept_trap | with_reducible apply endKept_wait | with_reducible apply issueToScan_kept
      | with_reducible apply mramStore_kept | with_reducible apply regWrite_kept | with_reducible apply regWriteBase_kept
      | with_reducible apply sramStore_kept | split

theorem useWord_kept {s₀ s : State} (h : Kept s₀ s) (n c u w) :
    EndKept s₀ (useWord s n c u w) := by
  unfold useWord
  try dsimp only
  repeat' first
      | with_reducible assumption | with_reducible apply endKept_next | with_reducible apply endKept_jump
      | with_reducible apply endKept_trap | with_reducible apply endKept_wait | with_reducible apply coreStore_kept
      | with_reducible apply writeResult_kept | split | (with_reducible intro _)

theorem fetchWord_kept {s₀ s : State} (h : Kept s₀ s) (n a) :
    Kept s₀ (fetchWord s n a).1 := by
  unfold fetchWord
  try dsimp only
  repeat' first
      | with_reducible assumption | with_reducible apply endKept_next | with_reducible apply endKept_jump
      | with_reducible apply endKept_trap | with_reducible apply endKept_wait | with_reducible apply sramLoad_kept | split

theorem fetchTrap_kept {s₀ s : State} (h : Kept s₀ s) (n a x3) :
    Kept s₀ (fetchTrap s n a x3).1 := by
  induction x3 generalizing s n a with
  | zero =>
    unfold fetchTrap
    try dsimp only
    repeat' first
        | with_reducible assumption
  | succ n ih =>
    unfold fetchTrap
    try dsimp only
    repeat' first
        | with_reducible assumption | with_reducible apply endKept_next | with_reducible apply endKept_jump
        | with_reducible apply endKept_trap | with_reducible apply endKept_wait | with_reducible apply ih
        | with_reducible apply fetchWord_kept | split

theorem finish_kept {s₀ : State} {p : State × Ending} (h : EndKept s₀ p) (n len pc) :
    Kept s₀ (finish p.1 n len pc p.2) := by
  obtain ⟨s, e⟩ := p
  cases e with
  | next c f => exact h.2 c f rfl _ (setCore_kept h.1 _ _)
  | jump c a => exact setCore_kept h.1 _ _
  | trap t => exact takeTrap_kept h.1 _ _ _
  | wait w k => exact stallOn_kept h.1 _ _ _

theorem runInstr_kept {s₀ s : State} (h : Kept s₀ s) (n len) (body : CoreBody)
    (hb : ∀ s c, Kept s₀ s → EndKept s₀ (body s c)) : Kept s₀ (runInstr s n len body) := by
  unfold runInstr
  refine issue_kept h _ _ fun t k => ?_
  dsimp only
  have kf := fetchTrap_kept k n.val (instrAddr (coreOf t n.val)) len
  split
  · exact takeTrap_kept kf _ _ _
  · exact finish_kept (hb _ _ kf) _ _ _

theorem runControl_kept {s₀ s : State} (h : Kept s₀ s) (n len) (body : CoreBody)
    (hb : ∀ s c, Kept s₀ s → EndKept s₀ (body s c)) : Kept s₀ (runControl s n len body) := by
  unfold runControl
  split
  · exact h
  · exact runInstr_kept h _ _ _ hb

theorem resultOp_kept {s₀ s : State} (h : Kept s₀ s) (c rd tag w f) :
    EndKept s₀ (resultOp s c rd tag w f) := by
  unfold resultOp
  try dsimp only
  repeat' first
      | with_reducible assumption | with_reducible apply endKept_next | with_reducible apply endKept_jump
      | with_reducible apply endKept_trap | with_reducible apply endKept_wait | with_reducible apply goOn_kept

theorem busAddr_kept {s₀ s : State} (h : Kept s₀ s) (w) :
    Kept s₀ (busAddr s w).1 := by
  unfold busAddr
  try dsimp only
  repeat' first
      | with_reducible assumption | with_reducible apply endKept_next | with_reducible apply endKept_jump
      | with_reducible apply endKept_trap | with_reducible apply endKept_wait | with_reducible apply takeFresh_kept | split

theorem loadTimedOut_kept {s₀ s : State} (h : Kept s₀ s) (n) :
    Kept s₀ (loadTimedOut s n) := by
  unfold loadTimedOut
  try dsimp only
  repeat' first
      | with_reducible assumption | with_reducible apply endKept_next | with_reducible apply endKept_jump
      | with_reducible apply endKept_trap | with_reducible apply endKept_wait | with_reducible apply busAddr_kept
      | with_reducible apply dropReads_kept | with_reducible apply takeTrap_kept | split

theorem loadReturn_kept {s₀ s : State} (h : Kept s₀ s) (n) :
    Kept s₀ (loadReturn s n) := by
  unfold loadReturn
  try dsimp only
  repeat' first
      | with_reducible assumption | with_reducible apply endKept_next | with_reducible apply endKept_jump
      | with_reducible apply endKept_trap | with_reducible apply endKept_wait | with_reducible apply dropAnswers_kept
      | with_reducible apply finish_kept | with_reducible apply setCore_kept | with_reducible apply takeAnswer_kept
      | with_reducible apply useWord_kept | refine takeAnswer_kept ?_ _ _ (_, _, _) (by with_reducible assumption) | split

theorem unOp_kept {s₀ s : State} (h : Kept s₀ s) (tagA tagR rd ra f c)
    (hf : ∀ s c x, Kept s₀ s → EndKept s₀ (f s c x)) : EndKept s₀ (unOp tagA tagR rd ra f s c) :=
  checked_kept h _ _ (hf _ _ _ h)

theorem cmpOp_kept {s₀ s : State} (h : Kept s₀ s) (tag ra rb f c) :
    EndKept s₀ (cmpOp tag ra rb f s c) := by
  unfold cmpOp
  try dsimp only
  repeat' first
      | with_reducible assumption | with_reducible apply endKept_next | with_reducible apply endKept_jump
      | with_reducible apply endKept_trap | with_reducible apply endKept_wait | with_reducible apply checked_kept
      | with_reducible apply goOn_kept

theorem readTimeout_kept {s₀ s : State} (h : Kept s₀ s) (x1) :
    Kept s₀ (readTimeout s x1) := by
  unfold readTimeout
  try dsimp only
  repeat' first
      | with_reducible assumption | with_reducible apply endKept_next | with_reducible apply endKept_jump
      | with_reducible apply endKept_trap | with_reducible apply endKept_wait | with_reducible apply dmaTimedOut_kept
      | with_reducible apply drawerTimedOut_kept | with_reducible apply loadTimedOut_kept | split

theorem binOp_kept {s₀ s : State} (h : Kept s₀ s) (tagA tagB tagR rd ra rb f c)
    (hf : ∀ s c x y, Kept s₀ s → EndKept s₀ (f s c x y)) : EndKept s₀ (binOp tagA tagB tagR rd ra rb f s c) :=
  checked_kept h _ _ (hf _ _ _ _ h)

theorem loadFor_kept {s₀ s : State} (h : Kept s₀ s) (n c a wholeRom u) :
    EndKept s₀ (loadFor s n c a wholeRom u) := by
  unfold loadFor
  try dsimp only
  repeat' first
      | with_reducible assumption | with_reducible apply endKept_next | with_reducible apply endKept_jump
      | with_reducible apply endKept_trap | with_reducible apply endKept_wait | with_reducible apply loadWord_kept
      | with_reducible apply useWord_kept | split

/-! ### Boot -/

theorem bootRecord_kept {s₀ s : State} (h : Kept s₀ s) (cause) :
    Kept s₀ (bootRecord s cause) := by
  unfold bootRecord
  try dsimp only
  repeat' first
      | with_reducible assumption | with_reducible apply record_kept

theorem bootSteps_kept {s₀ s : State} (h : Kept s₀ s) (scan cause) :
    Kept s₀ (bootSteps s scan cause) := by
  unfold bootSteps
  try dsimp only
  repeat' first
      | with_reducible assumption | with_reducible apply bootDictionary_kept | with_reducible apply bootRecord_kept
      | with_reducible apply bootSecurity_kept | (simp only [kept_mk]; with_reducible apply Parts.of)

theorem copyBody_kept {s₀ s : State} (h : Kept s₀ s) (a x2 x3) :
    Kept s₀ (copyBody s a x2 x3) := by
  induction x2 generalizing s a x3 with
  | zero =>
    unfold copyBody
    try dsimp only
    repeat' first
        | with_reducible assumption
  | succ n ih =>
    unfold copyBody
    try dsimp only
    repeat' first
        | with_reducible assumption | with_reducible apply ih | with_reducible apply sramStore_kept

theorem startBoot_kept {s₀ s : State} (h : Kept s₀ s) :
    Kept s₀ (startBoot s) := by
  unfold startBoot
  try dsimp only
  repeat' first
      | with_reducible assumption | (simp only [kept_mk]; with_reducible apply Parts.of)

theorem bothReset_kept {s₀ s : State} (h : Kept s₀ s) :
    Kept s₀ (bothReset s) := by
  unfold bothReset
  try dsimp only
  repeat' first
      | with_reducible assumption | with_reducible apply holdPorts_kept | with_reducible apply houseBlocksReset_kept
      | with_reducible apply houseCoresReset_kept | with_reducible apply houseMemoryReset_kept
      | with_reducible apply houseRecorderReset_kept | with_reducible apply houseRegsReset_kept
      | with_reducible apply padsHouseReset_kept | with_reducible apply resetReg_kept
      | with_reducible apply scanBlocksReset_kept | with_reducible apply scanRegsReset_kept | with_reducible apply showLoop_kept
      | (simp only [kept_mk]; with_reducible apply Parts.of)

theorem powerOnReset_kept {s₀ s : State} (h : Kept s₀ s) (cause) :
    Kept s₀ (powerOnReset s cause) := by
  unfold powerOnReset
  try dsimp only
  repeat' first
      | with_reducible assumption | with_reducible apply bootSteps_kept | with_reducible apply bothReset_kept
      | with_reducible apply clocksResume_kept | with_reducible apply debugClose_kept | with_reducible apply houseEdges_kept
      | with_reducible apply islandLog_kept | with_reducible apply recorderResume_kept | with_reducible apply repairDie_kept
      | with_reducible apply setF_kept | with_reducible apply startBoot_kept
      | (simp only [kept_mk]; with_reducible apply Parts.of) | split

theorem resetPin_kept {s₀ s : State} (h : Kept s₀ s) :
    Kept s₀ (resetPin s) := by
  unfold resetPin
  try dsimp only
  repeat' first
      | with_reducible assumption | with_reducible apply padsIslandReset_kept | with_reducible apply powerOnReset_kept

theorem houseDieReset_kept {s₀ s : State} (h : Kept s₀ s) :
    Kept s₀ (houseDieReset s) := by
  unfold houseDieReset
  try dsimp only
  repeat' first
      | with_reducible assumption | with_reducible apply bootSteps_kept | with_reducible apply houseReset_kept
      | with_reducible apply startBoot_kept | with_reducible apply takeFresh_kept

theorem leaveOffAwait_kept {s₀ s : State} (h : Kept s₀ s) (w) :
    Kept s₀ (leaveOffAwait s w) := by
  unfold leaveOffAwait
  try dsimp only
  repeat' first
      | with_reducible assumption | with_reducible apply powerOnReset_kept | with_reducible apply raiseEvent_kept
      | with_reducible apply setF_kept

theorem thenWake_kept {s₀ s : State} (h : Kept s₀ s) :
    Kept s₀ (thenWake s) := by
  unfold thenWake
  try dsimp only
  repeat' first
      | with_reducible assumption | with_reducible apply leaveOffAwait_kept | split

theorem startFirmware_kept {s₀ s : State} (h : Kept s₀ s) (h status) :
    Kept s₀ (startFirmware s h status) := by
  unfold startFirmware
  try dsimp only
  repeat' first
      | with_reducible assumption | with_reducible apply setCore_kept | (simp only [kept_mk]; with_reducible apply Parts.of)

theorem bootFrom_kept {s₀ s : State} (h : Kept s₀ s) (k status) :
    Kept s₀ (bootFrom s k status) := by
  unfold bootFrom
  try dsimp only
  repeat' first
      | with_reducible assumption | with_reducible apply copyBody_kept | with_reducible apply startFirmware_kept
      | (simp only [kept_mk]; with_reducible apply Parts.of)

theorem softStartDone_kept {s₀ s : State} (h : Kept s₀ s) :
    Kept s₀ (softStartDone s) := by
  unfold softStartDone
  try dsimp only
  repeat' first
      | with_reducible assumption | with_reducible apply powerOnReset_kept | split

theorem verifySlot_kept {s₀ s : State} (h : Kept s₀ s) (k) :
    Kept s₀ (verifySlot s k).1 := by
  unfold verifySlot
  try dsimp only
  repeat' first
      | with_reducible assumption | with_reducible apply readBlocks_kept | split

theorem bootComplete_kept {s₀ s : State} (h : Kept s₀ s) :
    Kept s₀ (bootComplete s) := by
  unfold bootComplete
  try dsimp only
  repeat' first
      | with_reducible assumption | with_reducible apply bootFrom_kept | with_reducible apply verifySlot_kept
      | (simp only [kept_mk]; with_reducible apply Parts.of) | split

/-! ### RowOps -/

theorem whenHouse_kept {s₀ s : State} (h : Kept s₀ s) (f) (hf : ∀ t, Kept s₀ t → Kept s₀ (f t)) :
    OutKept s₀ (whenHouse s f) := by
  unfold whenHouse
  try dsimp only
  repeat' first
      | with_reducible assumption | with_reducible apply next_kept | with_reducible apply hf | split

theorem askWrite_kept {s₀ s : State} (h : Kept s₀ s) (cls egr index sub data) :
    OutKept s₀ (askWrite s cls egr index sub data) := by
  unfold askWrite
  try dsimp only
  repeat' first
      | with_reducible assumption | with_reducible apply next_kept | with_reducible apply submit_kept
      | with_reducible apply whenHouse_kept | (with_reducible intro _)

theorem whenScan_kept {s₀ s : State} (h : Kept s₀ s) (f) (hf : ∀ t, Kept s₀ t → Kept s₀ (f t)) :
    OutKept s₀ (whenScan s f) := by
  unfold whenScan
  try dsimp only
  repeat' first
      | with_reducible assumption | with_reducible apply next_kept | with_reducible apply hf | split

theorem rowWrite_kept {s₀ s : State} (h : Kept s₀ s) (src a w) :
    OutKept s₀ (rowWrite s src a w) := by
  unfold rowWrite
  try dsimp only
  repeat' first
      | with_reducible assumption | with_reducible apply next_kept | with_reducible apply creditScene_kept
      | with_reducible apply regWrite_kept | with_reducible apply whenHouse_kept | with_reducible apply whenScan_kept | split
      | (with_reducible intro _)

theorem bitWrite_kept {s₀ s : State} (h : Kept s₀ s) (f) :
    OutKept s₀ (bitWrite s f) := by
  unfold bitWrite
  try dsimp only
  repeat' first
      | with_reducible assumption | with_reducible apply next_kept | with_reducible apply creditScene_kept
      | with_reducible apply regWriteBits_kept | with_reducible apply whenHouse_kept | with_reducible apply whenScan_kept
      | split | (with_reducible intro _)

theorem rowRead_kept {s₀ s : State} (h : Kept s₀ s) (src a) :
    OutKept s₀ (rowRead s src a) := by
  unfold rowRead
  try dsimp only
  repeat' first
      | with_reducible assumption | with_reducible apply next_kept | with_reducible apply regRead_kept
      | with_reducible apply whenHouse_kept | with_reducible apply whenScan_kept | split | (with_reducible intro _)

end Sys2Proof.Machine
end

