-- ==== Sys2Proof/Laws/KeptRowsScan.lean ====
section
/-! SUPPORT. What is kept (`Kept`): the commands of the bridge, the beam, composition, commits and the drive. -/

namespace Sys2Proof.Machine

/-! ### Beacons -/

theorem beaconToBeam_kept {s₀ s : State} (h : Kept s₀ s) (b) :
    Kept s₀ (beaconToBeam s b) := by
  unfold beaconToBeam
  try dsimp only
  repeat' first
      | with_reducible assumption | with_reducible apply issueToScan_kept

theorem beaconReceive_kept {s₀ s : State} (h : Kept s₀ s) (residence) :
    Kept s₀ (beaconReceive s residence) := by
  unfold beaconReceive
  try dsimp only
  repeat' first
      | with_reducible assumption | with_reducible apply beaconToBeam_kept | with_reducible apply countF_kept
      | with_reducible apply enqueueOut_kept | (with_reducible apply Kept.foldl; rotate_left 1; intro _ _ _; rotate_left 1)
      | (simp only [kept_mk]; with_reducible apply Parts.of) | split

theorem beaconSend_kept {s₀ s : State} (h : Kept s₀ s) (corr) :
    Kept s₀ (beaconSend s corr) := by
  unfold beaconSend
  try dsimp only
  repeat' first
      | with_reducible assumption | with_reducible apply originate_kept | (simp only [kept_mk]; with_reducible apply Parts.of)
      | split

/-! ### Bench -/

theorem benchOut_kept {s₀ s : State} (h : Kept s₀ s) (bytes) :
    Kept s₀ (benchOut s bytes) := by
  unfold benchOut
  try dsimp only
  repeat' first
      | with_reducible assumption | with_reducible apply emit_kept

theorem benchStatus_kept {s₀ s : State} (h : Kept s₀ s) (status) :
    Kept s₀ (benchStatus s status) := by
  unfold benchStatus
  try dsimp only
  repeat' first
      | with_reducible assumption | with_reducible apply benchOut_kept

theorem benchBridgeRead_kept {s₀ s : State} (h : Kept s₀ s) (t) :
    Kept s₀ (benchBridgeRead s t) := by
  unfold benchBridgeRead
  try dsimp only
  repeat' first
      | with_reducible assumption | with_reducible apply benchStatus_kept | with_reducible apply issueToScan_kept
      | (simp only [kept_mk]; with_reducible apply Parts.of) | split

theorem benchBad_kept {s₀ s : State} (h : Kept s₀ s) :
    Kept s₀ (benchBad s) := by
  unfold benchBad
  try dsimp only
  repeat' first
      | with_reducible assumption | with_reducible apply benchOut_kept

theorem benchWord_kept {s₀ s : State} (h : Kept s₀ s) (w) :
    Kept s₀ (benchWord s w) := by
  unfold benchWord
  try dsimp only
  repeat' first
      | with_reducible assumption | with_reducible apply benchOut_kept

theorem benchCell_kept {s₀ s : State} (h : Kept s₀ s) (w) :
    Kept s₀ (benchCell s w) := by
  unfold benchCell
  try dsimp only
  repeat' first
      | with_reducible assumption | with_reducible apply benchBad_kept | with_reducible apply benchWord_kept | split

theorem benchAnswers_kept {s₀ s : State} (h : Kept s₀ s) (x1) :
    Kept s₀ (benchAnswers s x1) := by
  induction x1 generalizing s  with
  | zero =>
    unfold benchAnswers
    try dsimp only
    repeat' first
        | with_reducible assumption
  | succ n ih =>
    unfold benchAnswers
    try dsimp only
    repeat' first
        | with_reducible assumption | with_reducible apply ih | with_reducible apply benchCell_kept
        | with_reducible apply benchStatus_kept | with_reducible apply takeAnswer_kept
        | refine takeAnswer_kept ?_ _ _ (_, _, _) (by with_reducible assumption)
        | (simp only [kept_mk]; with_reducible apply Parts.of) | split

theorem sourceGoesOn_kept {s₀ s : State} (h : Kept s₀ s) :
    Kept s₀ (sourceGoesOn s) := by
  unfold sourceGoesOn
  try dsimp only
  repeat' first
      | with_reducible assumption | with_reducible apply benchAnswers_kept | with_reducible apply pumpAll_kept

theorem leaveBoundary_kept {s₀ s : State} (h : Kept s₀ s) :
    Kept s₀ (leaveBoundary s) := by
  unfold leaveBoundary
  try dsimp only
  repeat' first
      | with_reducible assumption | (simp only [kept_mk]; with_reducible apply Parts.of)

theorem bypass_kept {s₀ s : State} (h : Kept s₀ s) (data) :
    Kept s₀ (bypass s data) := by
  unfold bypass
  try dsimp only
  repeat' first
      | with_reducible assumption | with_reducible apply benchOut_kept | with_reducible apply leaveBoundary_kept

theorem asBypass_kept {s₀ s : State} (h : Kept s₀ s) (x1) :
    Kept s₀ (asBypass s x1) := by
  unfold asBypass
  try dsimp only
  repeat' first
      | with_reducible assumption | with_reducible apply bypass_kept | with_reducible apply freeBytes_kept | split

theorem boundaryScan_kept {s₀ s : State} (h : Kept s₀ s) (b data) :
    Kept s₀ (boundaryScan s b data) := by
  unfold boundaryScan
  try dsimp only
  repeat' first
      | with_reducible assumption | with_reducible apply asBypass_kept | (simp only [kept_mk]; with_reducible apply Parts.of)
      | split

theorem benchWhen_kept {s₀ s : State} (h : Kept s₀ s) (allowed shifted f) (hf : ∀ t, Kept s₀ t → Kept s₀ (f t)) :
    Kept s₀ (benchWhen s allowed shifted f) := by
  unfold benchWhen
  try dsimp only
  repeat' first
      | with_reducible assumption | with_reducible apply asBypass_kept | with_reducible apply leaveBoundary_kept
      | with_reducible apply hf | split

theorem captureBoundary_kept {s₀ s : State} (h : Kept s₀ s) (len) :
    Kept s₀ (captureBoundary s len) := by
  unfold captureBoundary
  try dsimp only
  repeat' first
      | with_reducible assumption | with_reducible apply benchOut_kept | with_reducible apply freeBytes_kept

theorem dramLost_kept {s₀ s : State} (h : Kept s₀ s) : Kept s₀ { s with dram := { s.dram with bytes := [], units := [] } } := by
  simp only [kept_mk]
  exact Parts.ofDram h fun _ => ⟨swf_nil _, swf_nil _⟩

theorem scanTest_kept {s₀ s : State} (h : Kept s₀ s) : Kept s₀ (scanTest s) := by
  unfold scanTest
  refine captureBoundary_kept ?_ _
  split
  · exact scanReset_kept (dramLost_kept h)
  · exact h

theorem benchRead_kept {s₀ s : State} (h : Kept s₀ s) (n direct a) :
    Kept s₀ (benchRead s n direct a) := by
  unfold benchRead
  try dsimp only
  repeat' first
      | with_reducible assumption | with_reducible apply asBypass_kept | with_reducible apply benchBridgeRead_kept
      | with_reducible apply benchCell_kept | with_reducible apply benchStatus_kept | with_reducible apply benchWord_kept
      | with_reducible apply captureBoundary_kept | with_reducible apply mramLoad_kept | with_reducible apply regRead_kept
      | with_reducible apply sramLoad_kept | with_reducible apply touchUnits_kept | split

theorem benchBridgeWrite_kept {s₀ s : State} (h : Kept s₀ s) (m) :
    Kept s₀ (benchBridgeWrite s m) := by
  unfold benchBridgeWrite
  try dsimp only
  repeat' first
      | with_reducible assumption | with_reducible apply benchStatus_kept | with_reducible apply issueToScan_kept | split

theorem benchMramStore_kept {s₀ s : State} (h : Kept s₀ s) (a v) :
    Kept s₀ (benchMramStore s a v) := by
  unfold benchMramStore
  try dsimp only
  repeat' first
      | with_reducible assumption | with_reducible apply countF_kept | with_reducible apply mramPut_kept | split

theorem benchWrite_kept {s₀ s : State} (h : Kept s₀ s) (n direct a w) :
    Kept s₀ (benchWrite s n direct a w) := by
  unfold benchWrite
  try dsimp only
  repeat' first
      | with_reducible assumption | with_reducible apply asBypass_kept | with_reducible apply benchBridgeWrite_kept
      | with_reducible apply benchMramStore_kept | with_reducible apply benchStatus_kept | with_reducible apply regWrite_kept
      | with_reducible apply regWriteBase_kept | with_reducible apply sramStore_kept | with_reducible apply writeExtent_kept
      | split

theorem coreDebug_kept {s₀ s : State} (h : Kept s₀ s) (n op) :
    Kept s₀ (coreDebug s n op) := by
  unfold coreDebug
  try dsimp only
  repeat' first
      | with_reducible assumption | with_reducible apply benchOut_kept | with_reducible apply setCore_kept | split

/-! ### RowsBridge -/

theorem execBridgeNakReceive_kept {s₀ s : State} (h : Kept s₀ s) (dest seq) :
    OutKept s₀ (execBridgeNakReceive dest seq s) := by
  unfold execBridgeNakReceive
  try dsimp only
  repeat' first
      | with_reducible assumption | with_reducible apply next_kept | with_reducible apply receiveNak_kept
      | with_reducible apply whenScan_kept | (with_reducible intro _)

theorem execReadTimeout_kept {s₀ s : State} (h : Kept s₀ s) (reader) :
    OutKept s₀ (execReadTimeout reader s) := by
  unfold execReadTimeout
  try dsimp only
  repeat' first
      | with_reducible assumption | with_reducible apply next_kept | with_reducible apply readTimeout_kept
      | with_reducible apply sourceGoesOn_kept | with_reducible apply whenHouse_kept | (with_reducible intro _)

theorem execBridgeLinkFault_kept {s₀ s : State} (h : Kept s₀ s) (cause) :
    OutKept s₀ (execBridgeLinkFault cause s) := by
  unfold execBridgeLinkFault
  try dsimp only
  repeat' first
      | with_reducible assumption | with_reducible apply next_kept | with_reducible apply bridgeFault_kept
      | with_reducible apply whenScan_kept | (with_reducible intro _)

theorem execBridgeCntclr_kept {s₀ s : State} (h : Kept s₀ s) :
    OutKept s₀ (execBridgeCntclr s) := by
  unfold execBridgeCntclr
  try dsimp only
  repeat' first
      | with_reducible assumption | with_reducible apply next_kept | with_reducible apply bitWrite_kept

theorem execRdRequest_kept {s₀ s : State} (h : Kept s₀ s) :
    OutKept s₀ (execRdRequest s) := by
  unfold execRdRequest
  try dsimp only
  repeat' first
      | with_reducible assumption | with_reducible apply next_kept | with_reducible apply rdRequest_kept
      | with_reducible apply whenScan_kept

theorem execScanDieReset_kept {s₀ s : State} (h : Kept s₀ s) :
    OutKept s₀ (execScanDieReset s) := by
  unfold execScanDieReset
  try dsimp only
  repeat' first
      | with_reducible assumption | with_reducible apply next_kept | with_reducible apply scanReset_kept
      | with_reducible apply whenScan_kept

theorem execBridgeAckReceive_kept {s₀ s : State} (h : Kept s₀ s) (dest seq) :
    OutKept s₀ (execBridgeAckReceive dest seq s) := by
  unfold execBridgeAckReceive
  try dsimp only
  repeat' first
      | with_reducible assumption | with_reducible apply next_kept | with_reducible apply pumpAll_kept
      | with_reducible apply receiveAck_kept | with_reducible apply whenScan_kept | (with_reducible intro _)

theorem afterTraining_kept {s₀ s : State} (h : Kept s₀ s) :
    Kept s₀ (afterTraining s) := by
  unfold afterTraining
  try dsimp only
  repeat' first
      | with_reducible assumption | with_reducible apply fatalFault_kept | with_reducible apply reloadDecoders_kept
      | with_reducible apply sourceGoesOn_kept | split

theorem execFrameStoreClearDone_kept {s₀ s : State} (h : Kept s₀ s) :
    OutKept s₀ (execFrameStoreClearDone s) := by
  unfold execFrameStoreClearDone
  try dsimp only
  repeat' first
      | with_reducible assumption | with_reducible apply next_kept | with_reducible apply whenScan_kept
      | (simp only [kept_mk]; with_reducible apply Parts.of)

theorem execBridgeRetrain_kept {s₀ s : State} (h : Kept s₀ s) (src val) :
    OutKept s₀ (execBridgeRetrain src val s) := by
  unfold execBridgeRetrain
  try dsimp only
  repeat' first
      | with_reducible assumption | with_reducible apply next_kept | with_reducible apply rowWrite_kept

theorem execCmArrival_kept {s₀ s : State} (h : Kept s₀ s) :
    OutKept s₀ (execCmArrival s) := by
  unfold execCmArrival
  try dsimp only
  repeat' first
      | with_reducible assumption | with_reducible apply next_kept | with_reducible apply cmArrival_kept
      | with_reducible apply whenScan_kept

theorem execBridgeTrainingDone_kept {s₀ s : State} (h : Kept s₀ s) (ok lanesHs lanesSh) :
    OutKept s₀ (execBridgeTrainingDone ok lanesHs lanesSh s) := by
  unfold execBridgeTrainingDone
  try dsimp only
  repeat' first
      | with_reducible assumption | with_reducible apply next_kept | with_reducible apply afterTraining_kept
      | with_reducible apply trainingDone_kept | with_reducible apply whenScan_kept | split | (with_reducible intro _)

theorem execPwApply_kept {s₀ s : State} (h : Kept s₀ s) (dest) :
    OutKept s₀ (execPwApply dest s) := by
  unfold execPwApply
  try dsimp only
  repeat' first
      | with_reducible assumption | with_reducible apply next_kept | with_reducible apply applyAtHouse_kept
      | with_reducible apply applyAtScan_kept | with_reducible apply whenHouse_kept | with_reducible apply whenScan_kept | split

theorem execRegisterWrite_kept {s₀ s : State} (h : Kept s₀ s) (src addr val) :
    OutKept s₀ (execRegisterWrite src addr val s) := by
  unfold execRegisterWrite
  try dsimp only
  repeat' first
      | with_reducible assumption | with_reducible apply next_kept | with_reducible apply rowWrite_kept | split

theorem execBridgeFlitReceive_kept {s₀ s : State} (h : Kept s₀ s) (dest seq crcOk) :
    OutKept s₀ (execBridgeFlitReceive dest seq crcOk s) := by
  unfold execBridgeFlitReceive
  try dsimp only
  repeat' first
      | with_reducible assumption | with_reducible apply next_kept | with_reducible apply receiveFlit_kept
      | with_reducible apply sourceGoesOn_kept | with_reducible apply whenScan_kept | (with_reducible intro _)

theorem execHouseDieReset_kept {s₀ s : State} (h : Kept s₀ s) :
    OutKept s₀ (execHouseDieReset s) := by
  unfold execHouseDieReset
  try dsimp only
  repeat' first
      | with_reducible assumption | with_reducible apply next_kept | with_reducible apply houseDieReset_kept
      | with_reducible apply whenHouse_kept

theorem execPowerOnReset_kept {s₀ s : State} (h : Kept s₀ s) :
    OutKept s₀ (execPowerOnReset s) := by
  unfold execPowerOnReset
  try dsimp only
  repeat' first
      | with_reducible assumption | with_reducible apply next_kept | with_reducible apply powerOnReset_kept | split

theorem execRsvwrClear_kept {s₀ s : State} (h : Kept s₀ s) :
    OutKept s₀ (execRsvwrClear s) := by
  unfold execRsvwrClear
  try dsimp only
  repeat' first
      | with_reducible assumption | with_reducible apply next_kept | with_reducible apply bitWrite_kept

/-! ### RowsBeam -/

theorem execReacq_kept {s₀ s : State} (h : Kept s₀ s) (src val) :
    OutKept s₀ (execReacq src val s) := by
  unfold execReacq
  try dsimp only
  repeat' first
      | with_reducible assumption | with_reducible apply next_kept | with_reducible apply rowWrite_kept

theorem execLineClockEdge_kept {s₀ s : State} (h : Kept s₀ s) :
    OutKept s₀ (execLineClockEdge s) := by
  unfold execLineClockEdge
  try dsimp only
  repeat' first
      | with_reducible assumption | with_reducible apply next_kept | with_reducible apply lineClockEdge_kept
      | with_reducible apply whenScan_kept

theorem execBeacntClear_kept {s₀ s : State} (h : Kept s₀ s) :
    OutKept s₀ (execBeacntClear s) := by
  unfold execBeacntClear
  try dsimp only
  repeat' first
      | with_reducible assumption | with_reducible apply next_kept | with_reducible apply bitWrite_kept

theorem execFreeEntry_kept {s₀ s : State} (h : Kept s₀ s) :
    OutKept s₀ (execFreeEntry s) := by
  unfold execFreeEntry
  try dsimp only
  repeat' first
      | with_reducible assumption | with_reducible apply next_kept | with_reducible apply enterFree_kept
      | with_reducible apply whenScan_kept

theorem execFrameStart_kept {s₀ s : State} (h : Kept s₀ s) :
    OutKept s₀ (execFrameStart s) := by
  unfold execFrameStart
  try dsimp only
  repeat' first
      | with_reducible assumption | with_reducible apply next_kept | with_reducible apply beamFrameStart_kept
      | with_reducible apply compareEpochs_kept | with_reducible apply d96Frame_kept | with_reducible apply whenScan_kept
      | split | (with_reducible intro _)

theorem execBeamposLoRead_kept {s₀ s : State} (h : Kept s₀ s) (src) :
    OutKept s₀ (execBeamposLoRead src s) := by
  unfold execBeamposLoRead
  try dsimp only
  repeat' first
      | with_reducible assumption | with_reducible apply next_kept | with_reducible apply rowRead_kept

theorem execAnchorChange_kept {s₀ s : State} (h : Kept s₀ s) :
    OutKept s₀ (execAnchorChange s) := by
  unfold execAnchorChange
  try dsimp only
  repeat' first
      | with_reducible assumption | with_reducible apply next_kept | with_reducible apply anchorChange_kept
      | with_reducible apply whenScan_kept

theorem execWatermarkFire_kept {s₀ s : State} (h : Kept s₀ s) (n) :
    OutKept s₀ (execWatermarkFire n s) := by
  unfold execWatermarkFire
  try dsimp only
  repeat' first
      | with_reducible assumption | with_reducible apply next_kept | with_reducible apply watermarkFire_kept
      | with_reducible apply whenScan_kept | (with_reducible intro _)

theorem execHoldoverEntry_kept {s₀ s : State} (h : Kept s₀ s) :
    OutKept s₀ (execHoldoverEntry s) := by
  unfold execHoldoverEntry
  try dsimp only
  repeat' first
      | with_reducible assumption | with_reducible apply next_kept | with_reducible apply holdoverEntry_kept
      | with_reducible apply whenScan_kept

theorem execFramePulse_kept {s₀ s : State} (h : Kept s₀ s) (period) :
    OutKept s₀ (execFramePulse period s) := by
  unfold execFramePulse
  try dsimp only
  repeat' first
      | with_reducible assumption | with_reducible apply next_kept | with_reducible apply framePulse_kept
      | with_reducible apply whenScan_kept | (with_reducible intro _)

theorem execFrameCountSet_kept {s₀ s : State} (h : Kept s₀ s) (cls egr count) :
    OutKept s₀ (execFrameCountSet cls egr count s) := by
  unfold execFrameCountSet
  try dsimp only
  repeat' first
      | with_reducible assumption | with_reducible apply next_kept | with_reducible apply askWrite_kept

theorem execBeamEnable_kept {s₀ s : State} (h : Kept s₀ s) (src val) :
    OutKept s₀ (execBeamEnable src val s) := by
  unfold execBeamEnable
  try dsimp only
  repeat' first
      | with_reducible assumption | with_reducible apply next_kept | with_reducible apply rowWrite_kept

theorem execBeamFormatWrite_kept {s₀ s : State} (h : Kept s₀ s) (src per val) :
    OutKept s₀ (execBeamFormatWrite src per val s) := by
  unfold execBeamFormatWrite
  try dsimp only
  repeat' first
      | with_reducible assumption | with_reducible apply next_kept | with_reducible apply rowWrite_kept

theorem execBeaconReceive_kept {s₀ s : State} (h : Kept s₀ s) (residence) :
    OutKept s₀ (execBeaconReceive residence s) := by
  unfold execBeaconReceive
  try dsimp only
  repeat' first
      | with_reducible assumption | with_reducible apply next_kept | with_reducible apply beaconReceive_kept
      | with_reducible apply whenScan_kept | (with_reducible intro _)

theorem execBeaconSend_kept {s₀ s : State} (h : Kept s₀ s) (corr) :
    OutKept s₀ (execBeaconSend corr s) := by
  unfold execBeaconSend
  try dsimp only
  repeat' first
      | with_reducible assumption | with_reducible apply next_kept | with_reducible apply beaconSend_kept
      | with_reducible apply whenScan_kept | (with_reducible intro _)

/-! ### RowsCompose -/

theorem execFeedFlip_kept {s₀ s : State} (h : Kept s₀ s) (frame feed) :
    OutKept s₀ (execFeedFlip frame feed s) := by
  unfold execFeedFlip
  try dsimp only
  repeat' first
      | with_reducible assumption | with_reducible apply next_kept | with_reducible apply feedFlip_kept
      | with_reducible apply whenScan_kept | (with_reducible intro _)

theorem execTrestleCntclr_kept {s₀ s : State} (h : Kept s₀ s) :
    OutKept s₀ (execTrestleCntclr s) := by
  unfold execTrestleCntclr
  try dsimp only
  repeat' first
      | with_reducible assumption | with_reducible apply next_kept | with_reducible apply bitWrite_kept

theorem execDramWriteApply_kept {s₀ s : State} (h : Kept s₀ s) (src addr data) :
    OutKept s₀ (execDramWriteApply src addr data s) := by
  unfold execDramWriteApply
  try dsimp only
  repeat' first
      | with_reducible assumption | with_reducible apply next_kept | with_reducible apply applyDramWrite_kept
      | with_reducible apply whenScan_kept | split | (with_reducible intro _)

theorem execObjectTableWrite_kept {s₀ s : State} (h : Kept s₀ s) (src ctl val) :
    OutKept s₀ (execObjectTableWrite src ctl val s) := by
  unfold execObjectTableWrite
  try dsimp only
  repeat' first
      | with_reducible assumption | with_reducible apply next_kept | with_reducible apply rowWrite_kept

theorem execPatternCacheInvalidate_kept {s₀ s : State} (h : Kept s₀ s) :
    OutKept s₀ (execPatternCacheInvalidate s) := by
  unfold execPatternCacheInvalidate
  try dsimp only
  repeat' first
      | with_reducible assumption | with_reducible apply next_kept | with_reducible apply bitWrite_kept

theorem execPatternCacheCntclr_kept {s₀ s : State} (h : Kept s₀ s) :
    OutKept s₀ (execPatternCacheCntclr s) := by
  unfold execPatternCacheCntclr
  try dsimp only
  repeat' first
      | with_reducible assumption | with_reducible apply next_kept | with_reducible apply bitWrite_kept

theorem composeAndSign_kept {s₀ s : State} (h : Kept s₀ s) (k l calLate) :
    Kept s₀ (composeAndSign s k l calLate) := by
  unfold composeAndSign
  try dsimp only
  repeat' first
      | with_reducible assumption | with_reducible apply composeLine_kept | with_reducible apply signLine_kept | split

theorem execClusterLineCompose_kept {s₀ s : State} (h : Kept s₀ s) (region line calLate) :
    OutKept s₀ (execClusterLineCompose region line calLate s) := by
  unfold execClusterLineCompose
  try dsimp only
  repeat' first
      | with_reducible assumption | with_reducible apply next_kept | with_reducible apply composeAndSign_kept
      | with_reducible apply whenScan_kept | (with_reducible intro _)

theorem execGlobalFlip_kept {s₀ s : State} (h : Kept s₀ s) (frame) :
    OutKept s₀ (execGlobalFlip frame s) := by
  unfold execGlobalFlip
  try dsimp only
  repeat' first
      | with_reducible assumption | with_reducible apply next_kept | with_reducible apply globalFlip_kept
      | with_reducible apply whenScan_kept | (with_reducible intro _)

theorem execTrestleWalk_kept {s₀ s : State} (h : Kept s₀ s) (stream frame) :
    OutKept s₀ (execTrestleWalk stream frame s) := by
  unfold execTrestleWalk
  try dsimp only
  repeat' first
      | with_reducible assumption | with_reducible apply next_kept | with_reducible apply startWalk_kept
      | with_reducible apply whenScan_kept | (with_reducible intro _)

theorem execComposeStart_kept {s₀ s : State} (h : Kept s₀ s) (frame feed) :
    OutKept s₀ (execComposeStart frame feed s) := by
  unfold execComposeStart
  try dsimp only
  repeat' first
      | with_reducible assumption | with_reducible apply next_kept | with_reducible apply composeStart_kept
      | with_reducible apply whenScan_kept | (with_reducible intro _)

theorem execObjectEvaluate_kept {s₀ s : State} (h : Kept s₀ s) :
    OutKept s₀ (execObjectEvaluate s) := by
  unfold execObjectEvaluate
  try dsimp only
  repeat' first
      | with_reducible assumption | with_reducible apply next_kept | with_reducible apply objectEvaluate_kept
      | with_reducible apply whenScan_kept

theorem execComposeEnd_kept {s₀ s : State} (h : Kept s₀ s) :
    OutKept s₀ (execComposeEnd s) := by
  unfold execComposeEnd
  try dsimp only
  repeat' first
      | with_reducible assumption | with_reducible apply next_kept | with_reducible apply composeEnd_kept
      | with_reducible apply fatalFault_kept | with_reducible apply whenScan_kept | split | (with_reducible intro _)

theorem drainSorter_kept {s₀ s : State} (h : Kept s₀ s) (x1) :
    Kept s₀ (drainSorter s x1) := by
  induction x1 generalizing s  with
  | zero =>
    unfold drainSorter
    try dsimp only
    repeat' first
        | with_reducible assumption
  | succ n ih =>
    unfold drainSorter
    try dsimp only
    repeat' first
        | with_reducible assumption | with_reducible apply ih | with_reducible apply objectEvaluate_kept

theorem rescanDone_kept {s₀ s : State} (h : Kept s₀ s) :
    Kept s₀ (rescanDone s) := by
  unfold rescanDone
  try dsimp only
  repeat' first
      | with_reducible assumption | with_reducible apply drainSorter_kept | with_reducible apply evaluateEntry_kept
      | with_reducible apply setF_kept | (with_reducible apply Kept.foldl; rotate_left 1; intro _ _ _; rotate_left 1)
      | (simp only [kept_mk]; with_reducible apply Parts.of) | split

theorem execLineFlip_kept {s₀ s : State} (h : Kept s₀ s) (frame line) :
    OutKept s₀ (execLineFlip frame line s) := by
  unfold execLineFlip
  try dsimp only
  repeat' first
      | with_reducible assumption | with_reducible apply next_kept | with_reducible apply lineFlip_kept
      | with_reducible apply whenScan_kept | (with_reducible intro _)

theorem execRescanDone_kept {s₀ s : State} (h : Kept s₀ s) :
    OutKept s₀ (execRescanDone s) := by
  unfold execRescanDone
  try dsimp only
  repeat' first
      | with_reducible assumption | with_reducible apply next_kept | with_reducible apply rescanDone_kept
      | with_reducible apply whenScan_kept

theorem execWalkDone_kept {s₀ s : State} (h : Kept s₀ s) :
    OutKept s₀ (execWalkDone s) := by
  unfold execWalkDone
  try dsimp only
  repeat' first
      | with_reducible assumption | with_reducible apply next_kept | with_reducible apply finishWalk_kept
      | with_reducible apply whenScan_kept

/-! ### RowsCommit -/

theorem execAdmission_kept {s₀ s : State} (h : Kept s₀ s) (src) :
    OutKept s₀ (execAdmission src s) := by
  unfold execAdmission
  try dsimp only
  repeat' first
      | with_reducible assumption | with_reducible apply next_kept | with_reducible apply admitCommit_kept
      | with_reducible apply whenScan_kept | (with_reducible intro _)

theorem execEgressLibraryVerify_kept {s₀ s : State} (h : Kept s₀ s) :
    OutKept s₀ (execEgressLibraryVerify s) := by
  unfold execEgressLibraryVerify
  try dsimp only
  repeat' first
      | with_reducible assumption | with_reducible apply next_kept | with_reducible apply verifyLibrary_kept
      | with_reducible apply whenHouse_kept

theorem loopSample_kept {s₀ s : State} (h : Kept s₀ s) (code) :
    Kept s₀ (loopSample s code) := by
  unfold loopSample
  try dsimp only
  repeat' first
      | with_reducible assumption | with_reducible apply thenWake_kept | with_reducible apply egressSample_kept
      | with_reducible apply thenWake_kept | with_reducible apply wakeEdge_kept | split

theorem execEgressSample_kept {s₀ s : State} (h : Kept s₀ s) (code) :
    OutKept s₀ (execEgressSample code s) := by
  unfold execEgressSample
  try dsimp only
  repeat' first
      | with_reducible assumption | with_reducible apply next_kept | with_reducible apply loopSample_kept
      | with_reducible apply whenHouse_kept | (with_reducible intro _)

theorem execFenceqRead_kept {s₀ s : State} (h : Kept s₀ s) (src) :
    OutKept s₀ (execFenceqRead src s) := by
  unfold execFenceqRead
  try dsimp only
  repeat' first
      | with_reducible assumption | with_reducible apply next_kept | with_reducible apply rowRead_kept

theorem execCmcntClear_kept {s₀ s : State} (h : Kept s₀ s) :
    OutKept s₀ (execCmcntClear s) := by
  unfold execCmcntClear
  try dsimp only
  repeat' first
      | with_reducible assumption | with_reducible apply next_kept | with_reducible apply bitWrite_kept

theorem execEgctlLock_kept {s₀ s : State} (h : Kept s₀ s) (src val) :
    OutKept s₀ (execEgctlLock src val s) := by
  unfold execEgctlLock
  try dsimp only
  repeat' first
      | with_reducible assumption | with_reducible apply next_kept | with_reducible apply rowWrite_kept

theorem acceptAndBind_kept {s₀ s : State} (h : Kept s₀ s) (src) :
    Kept s₀ (acceptAndBind s src) := by
  unfold acceptAndBind
  try dsimp only
  repeat' first
      | with_reducible assumption | with_reducible apply acceptReady_kept | with_reducible apply sendBindings_kept | split

theorem execCommitAccept_kept {s₀ s : State} (h : Kept s₀ s) (src) :
    OutKept s₀ (execCommitAccept src s) := by
  unfold execCommitAccept
  try dsimp only
  repeat' first
      | with_reducible assumption | with_reducible apply next_kept | with_reducible apply acceptAndBind_kept
      | with_reducible apply whenScan_kept | (with_reducible intro _)

theorem execEgressCommand_kept {s₀ s : State} (h : Kept s₀ s) (cls egr val) :
    OutKept s₀ (execEgressCommand cls egr val s) := by
  unfold execEgressCommand
  try dsimp only
  repeat' first
      | with_reducible assumption | with_reducible apply next_kept | with_reducible apply askWrite_kept

theorem execEgressLibraryWrite_kept {s₀ s : State} (h : Kept s₀ s) (cls egr data) :
    OutKept s₀ (execEgressLibraryWrite cls egr data s) := by
  unfold execEgressLibraryWrite
  try dsimp only
  repeat' first
      | with_reducible assumption | with_reducible apply next_kept | with_reducible apply askWrite_kept

theorem execCmgo_kept {s₀ s : State} (h : Kept s₀ s) (src val) :
    OutKept s₀ (execCmgo src val s) := by
  unfold execCmgo
  try dsimp only
  repeat' first
      | with_reducible assumption | with_reducible apply next_kept | with_reducible apply regWrite_kept
      | with_reducible apply whenHouse_kept | (with_reducible intro _)

theorem execCommitDeadline_kept {s₀ s : State} (h : Kept s₀ s) (src) :
    OutKept s₀ (execCommitDeadline src s) := by
  unfold execCommitDeadline
  try dsimp only
  repeat' first
      | with_reducible assumption | with_reducible apply next_kept | with_reducible apply deadlineCommit_kept
      | with_reducible apply whenScan_kept | (with_reducible intro _)

/-! ### RowsDrive -/

theorem execPgCntclr_kept {s₀ s : State} (h : Kept s₀ s) :
    OutKept s₀ (execPgCntclr s) := by
  unfold execPgCntclr
  try dsimp only
  repeat' first
      | with_reducible assumption | with_reducible apply next_kept | with_reducible apply bitWrite_kept

theorem execRunStop_kept {s₀ s : State} (h : Kept s₀ s) (src region val) :
    OutKept s₀ (execRunStop src region val s) := by
  unfold execRunStop
  try dsimp only
  repeat' first
      | with_reducible assumption | with_reducible apply next_kept | with_reducible apply rowWrite_kept

theorem execOwnBChange_kept {s₀ s : State} (h : Kept s₀ s) (high) :
    OutKept s₀ (execOwnBChange high s) := by
  unfold execOwnBChange
  try dsimp only
  repeat' first
      | with_reducible assumption | with_reducible apply next_kept | with_reducible apply ownBChange_kept
      | with_reducible apply setF_kept | split

theorem execCopyCntclr_kept {s₀ s : State} (h : Kept s₀ s) :
    OutKept s₀ (execCopyCntclr s) := by
  unfold execCopyCntclr
  try dsimp only
  repeat' first
      | with_reducible assumption | with_reducible apply next_kept | with_reducible apply bitWrite_kept

theorem execPlaneSlotStart_kept {s₀ s : State} (h : Kept s₀ s) (n) :
    OutKept s₀ (execPlaneSlotStart n s) := by
  unfold execPlaneSlotStart
  try dsimp only
  repeat' first
      | with_reducible assumption | with_reducible apply next_kept | with_reducible apply planeSlotStart_kept
      | with_reducible apply whenScan_kept | (with_reducible intro _)

theorem execRunStart_kept {s₀ s : State} (h : Kept s₀ s) (src region val) :
    OutKept s₀ (execRunStart src region val s) := by
  unfold execRunStart
  try dsimp only
  repeat' first
      | with_reducible assumption | with_reducible apply next_kept | with_reducible apply rowWrite_kept

theorem execFeedCntclr_kept {s₀ s : State} (h : Kept s₀ s) :
    OutKept s₀ (execFeedCntclr s) := by
  unfold execFeedCntclr
  try dsimp only
  repeat' first
      | with_reducible assumption | with_reducible apply next_kept | with_reducible apply bitWrite_kept

theorem execRowSlotStart_kept {s₀ s : State} (h : Kept s₀ s) (row) :
    OutKept s₀ (execRowSlotStart row s) := by
  unfold execRowSlotStart
  try dsimp only
  repeat' first
      | with_reducible assumption | with_reducible apply next_kept | with_reducible apply rowSlotStart_kept
      | with_reducible apply whenScan_kept | (with_reducible intro _)

theorem execClaim_kept {s₀ s : State} (h : Kept s₀ s) (src val) :
    OutKept s₀ (execClaim src val s) := by
  unfold execClaim
  try dsimp only
  repeat' first
      | with_reducible assumption | with_reducible apply next_kept | with_reducible apply rowWrite_kept

theorem execCopyRowRelease_kept {s₀ s : State} (h : Kept s₀ s) :
    OutKept s₀ (execCopyRowRelease s) := by
  unfold execCopyRowRelease
  try dsimp only
  repeat' first
      | with_reducible assumption | with_reducible apply next_kept | with_reducible apply copyRowRelease_kept
      | with_reducible apply whenScan_kept

theorem execTarbExpiry_kept {s₀ s : State} (h : Kept s₀ s) :
    OutKept s₀ (execTarbExpiry s) := by
  unfold execTarbExpiry
  try dsimp only
  repeat' first
      | with_reducible assumption | with_reducible apply next_kept | with_reducible apply takeoverDone_kept
      | with_reducible apply tarbExpiry_kept | with_reducible apply whenScan_kept | split | (with_reducible intro _)

theorem execRefreshCycleStart_kept {s₀ s : State} (h : Kept s₀ s) (frame cycle) :
    OutKept s₀ (execRefreshCycleStart frame cycle s) := by
  unfold execRefreshCycleStart
  try dsimp only
  repeat' first
      | with_reducible assumption | with_reducible apply next_kept | with_reducible apply refreshCycleStart_kept
      | with_reducible apply whenScan_kept | (with_reducible intro _)

theorem execCopySegment_kept {s₀ s : State} (h : Kept s₀ s) :
    OutKept s₀ (execCopySegment s) := by
  unfold execCopySegment
  try dsimp only
  repeat' first
      | with_reducible assumption | with_reducible apply next_kept | with_reducible apply copySegment_kept
      | with_reducible apply whenScan_kept

theorem execCopyGo_kept {s₀ s : State} (h : Kept s₀ s) (src val) :
    OutKept s₀ (execCopyGo src val s) := by
  unfold execCopyGo
  try dsimp only
  repeat' first
      | with_reducible assumption | with_reducible apply next_kept | with_reducible apply rowWrite_kept

theorem execCalCntclr_kept {s₀ s : State} (h : Kept s₀ s) :
    OutKept s₀ (execCalCntclr s) := by
  unfold execCalCntclr
  try dsimp only
  repeat' first
      | with_reducible assumption | with_reducible apply next_kept | with_reducible apply bitWrite_kept

theorem execCopyRowDone_kept {s₀ s : State} (h : Kept s₀ s) :
    OutKept s₀ (execCopyRowDone s) := by
  unfold execCopyRowDone
  try dsimp only
  repeat' first
      | with_reducible assumption | with_reducible apply next_kept | with_reducible apply copyRowDone_kept
      | with_reducible apply whenScan_kept

theorem execCopyAbort_kept {s₀ s : State} (h : Kept s₀ s) (src val) :
    OutKept s₀ (execCopyAbort src val s) := by
  unfold execCopyAbort
  try dsimp only
  repeat' first
      | with_reducible assumption | with_reducible apply next_kept | with_reducible apply rowWrite_kept

end Sys2Proof.Machine
end

