-- ==== Sys2Proof/Laws/KeptRowsCore.lean ====
section
/-! SUPPORT. What is kept (`Kept`): the core instructions. -/

namespace Sys2Proof.Machine

/-! ### MbControl -/

theorem execMfc_kept {s₀ s : State} (h : Kept s₀ s) (core rd cr) :
    OutKept s₀ (execMfc core rd cr s) := by
  unfold execMfc
  try dsimp only
  repeat' first
      | with_reducible assumption | with_reducible apply next_kept | with_reducible apply endKept_next
      | with_reducible apply endKept_jump | with_reducible apply endKept_trap | with_reducible apply endKept_wait
      | with_reducible apply runControl_kept | with_reducible apply writeResult_kept | (with_reducible intro _)

theorem execTrput_kept {s₀ s : State} (h : Kept s₀ s) (core ra) :
    OutKept s₀ (execTrput core ra s) := by
  unfold execTrput
  try dsimp only
  repeat' first
      | with_reducible assumption | with_reducible apply next_kept | with_reducible apply endKept_next
      | with_reducible apply endKept_jump | with_reducible apply endKept_trap | with_reducible apply endKept_wait
      | with_reducible apply checked_kept | with_reducible apply issueToScan_kept | with_reducible apply runControl_kept
      | (with_reducible intro _)

theorem waitWake_kept {s₀ s : State} (h : Kept s₀ s) (n) :
    Kept s₀ (waitWake s n) := by
  unfold waitWake
  try dsimp only
  repeat' first
      | with_reducible assumption | with_reducible apply endKept_next | with_reducible apply endKept_jump
      | with_reducible apply endKept_trap | with_reducible apply endKept_wait | with_reducible apply interruptEntry_kept
      | with_reducible apply setCore_kept | split

theorem execMtc_kept {s₀ s : State} (h : Kept s₀ s) (core ra cr) :
    OutKept s₀ (execMtc core ra cr s) := by
  unfold execMtc
  try dsimp only
  repeat' first
      | with_reducible assumption | with_reducible apply next_kept | with_reducible apply endKept_next
      | with_reducible apply endKept_jump | with_reducible apply endKept_trap | with_reducible apply endKept_wait
      | with_reducible apply checked_kept | with_reducible apply countReserved_kept | with_reducible apply runControl_kept
      | split | (with_reducible intro _)

theorem stackRead_kept {s₀ s : State} (h : Kept s₀ s) (n a) :
    Kept s₀ (stackRead s n a).1 := by
  unfold stackRead
  try dsimp only
  repeat' first
      | with_reducible assumption | with_reducible apply endKept_next | with_reducible apply endKept_jump
      | with_reducible apply endKept_trap | with_reducible apply endKept_wait | with_reducible apply loadWord_kept

theorem execRep_kept {s₀ s : State} (h : Kept s₀ s) (core op) :
    OutKept s₀ (execRep core op s) := by
  unfold execRep
  try dsimp only
  repeat' first
      | with_reducible assumption | with_reducible apply next_kept | with_reducible apply endKept_next
      | with_reducible apply endKept_jump | with_reducible apply endKept_trap | with_reducible apply endKept_wait
      | with_reducible apply fetchTrap_kept | with_reducible apply issue_kept | with_reducible apply setCore_kept
      | with_reducible apply takeTrap_kept | split | (with_reducible intro _)

theorem frameHead_kept {s₀ s : State} (h : Kept s₀ s) (n a) :
    Kept s₀ (frameHead s n a).1 := by
  unfold frameHead
  try dsimp only
  repeat' first
      | with_reducible assumption | with_reducible apply endKept_next | with_reducible apply endKept_jump
      | with_reducible apply endKept_trap | with_reducible apply endKept_wait | with_reducible apply stackRead_kept | split

theorem execTrget_kept {s₀ s : State} (h : Kept s₀ s) (core rd ra tgt unit stream) :
    OutKept s₀ (execTrget core rd ra tgt unit stream s) := by
  unfold execTrget
  try dsimp only
  repeat' first
      | with_reducible assumption | with_reducible apply next_kept | with_reducible apply endKept_next
      | with_reducible apply endKept_jump | with_reducible apply endKept_trap | with_reducible apply endKept_wait
      | with_reducible apply checked_kept | with_reducible apply runControl_kept | (with_reducible intro _)

theorem stackReads_kept {s₀ s : State} (h : Kept s₀ s) (n a x3) :
    Kept s₀ (stackReads s n a x3).1 := by
  induction x3 generalizing s n a with
  | zero =>
    unfold stackReads
    try dsimp only
    repeat' first
        | with_reducible assumption
  | succ n ih =>
    unfold stackReads
    try dsimp only
    repeat' first
        | with_reducible assumption | with_reducible apply endKept_next | with_reducible apply endKept_jump
        | with_reducible apply endKept_trap | with_reducible apply endKept_wait | with_reducible apply ih
        | with_reducible apply stackRead_kept

theorem execWait_kept {s₀ s : State} (h : Kept s₀ s) (core) :
    OutKept s₀ (execWait core s) := by
  unfold execWait
  try dsimp only
  repeat' first
      | with_reducible assumption | with_reducible apply next_kept | with_reducible apply endKept_next
      | with_reducible apply endKept_jump | with_reducible apply endKept_trap | with_reducible apply endKept_wait
      | with_reducible apply runControl_kept | with_reducible apply waitFlush_kept | (with_reducible intro _)

theorem execSyncDone_kept {s₀ s : State} (h : Kept s₀ s) (core) :
    OutKept s₀ (execSyncDone core s) := by
  unfold execSyncDone
  try dsimp only
  repeat' first
      | with_reducible assumption | with_reducible apply next_kept | with_reducible apply endKept_next
      | with_reducible apply endKept_jump | with_reducible apply endKept_trap | with_reducible apply endKept_wait
      | with_reducible apply setCore_kept | split

theorem callTo_kept {s₀ s : State} (h : Kept s₀ s) (n c mask ret to' opnd) :
    EndKept s₀ (callTo s n c mask ret to' opnd) := by
  unfold callTo
  try dsimp only
  repeat' first
      | with_reducible assumption | with_reducible apply endKept_next | with_reducible apply endKept_jump
      | with_reducible apply endKept_trap | with_reducible apply endKept_wait | with_reducible apply checked_kept
      | with_reducible apply storeRun_kept

theorem execCall_kept {s₀ s : State} (h : Kept s₀ s) (core mask ext) :
    OutKept s₀ (execCall core mask ext s) := by
  unfold execCall
  try dsimp only
  repeat' first
      | with_reducible assumption | with_reducible apply next_kept | with_reducible apply endKept_next
      | with_reducible apply endKept_jump | with_reducible apply endKept_trap | with_reducible apply endKept_wait
      | with_reducible apply callTo_kept | with_reducible apply checked_kept | with_reducible apply runControl_kept
      | (with_reducible intro _)

theorem execInterruptEntry_kept {s₀ s : State} (h : Kept s₀ s) (core) :
    OutKept s₀ (execInterruptEntry core s) := by
  unfold execInterruptEntry
  try dsimp only
  repeat' first
      | with_reducible assumption | with_reducible apply next_kept | with_reducible apply endKept_next
      | with_reducible apply endKept_jump | with_reducible apply endKept_trap | with_reducible apply endKept_wait
      | with_reducible apply interruptEntry_kept

theorem execBr_kept {s₀ s : State} (h : Kept s₀ s) (core cond disp) :
    OutKept s₀ (execBr core cond disp s) := by
  unfold execBr
  try dsimp only
  repeat' first
      | with_reducible assumption | with_reducible apply next_kept | with_reducible apply endKept_next
      | with_reducible apply endKept_jump | with_reducible apply endKept_trap | with_reducible apply endKept_wait
      | with_reducible apply checked_kept | with_reducible apply goOn_kept | with_reducible apply runControl_kept | split
      | (with_reducible intro _)

theorem leaveFrame_kept {s₀ s : State} (h : Kept s₀ s) (n ws) :
    Kept s₀ (leaveFrame s n ws) := by
  unfold leaveFrame
  try dsimp only
  repeat' first
      | with_reducible assumption | with_reducible apply endKept_next | with_reducible apply endKept_jump
      | with_reducible apply endKept_trap | with_reducible apply endKept_wait | with_reducible apply enterVector_kept
      | with_reducible apply setCore_kept | split

theorem execCallr_kept {s₀ s : State} (h : Kept s₀ s) (core rt mask) :
    OutKept s₀ (execCallr core rt mask s) := by
  unfold execCallr
  try dsimp only
  repeat' first
      | with_reducible assumption | with_reducible apply next_kept | with_reducible apply endKept_next
      | with_reducible apply endKept_jump | with_reducible apply endKept_trap | with_reducible apply endKept_wait
      | with_reducible apply callTo_kept | with_reducible apply checked_kept | with_reducible apply runControl_kept
      | (with_reducible intro _)

theorem execWaitWake_kept {s₀ s : State} (h : Kept s₀ s) (core) :
    OutKept s₀ (execWaitWake core s) := by
  unfold execWaitWake
  try dsimp only
  repeat' first
      | with_reducible assumption | with_reducible apply next_kept | with_reducible apply endKept_next
      | with_reducible apply endKept_jump | with_reducible apply endKept_trap | with_reducible apply endKept_wait
      | with_reducible apply waitWake_kept

theorem retBody_kept {s₀ s : State} (h : Kept s₀ s) (n c) :
    EndKept s₀ (retBody n s c) := by
  unfold retBody
  try dsimp only
  repeat' first
      | with_reducible assumption | with_reducible apply endKept_next | with_reducible apply endKept_jump
      | with_reducible apply endKept_trap | with_reducible apply endKept_wait | with_reducible apply checked_kept
      | with_reducible apply stackReads_kept

theorem execTrclr_kept {s₀ s : State} (h : Kept s₀ s) (core) :
    OutKept s₀ (execTrclr core s) := by
  unfold execTrclr
  try dsimp only
  repeat' first
      | with_reducible assumption | with_reducible apply next_kept | with_reducible apply endKept_next
      | with_reducible apply endKept_jump | with_reducible apply endKept_trap | with_reducible apply endKept_wait
      | with_reducible apply checked_kept | with_reducible apply issueToScan_kept | with_reducible apply runControl_kept
      | (with_reducible intro _)

theorem execSync_kept {s₀ s : State} (h : Kept s₀ s) (core) :
    OutKept s₀ (execSync core s) := by
  unfold execSync
  try dsimp only
  repeat' first
      | with_reducible assumption | with_reducible apply next_kept | with_reducible apply endKept_next
      | with_reducible apply endKept_jump | with_reducible apply endKept_trap | with_reducible apply endKept_wait
      | with_reducible apply goOn_kept | with_reducible apply runControl_kept | (with_reducible intro _)

theorem execTrap_kept {s₀ s : State} (h : Kept s₀ s) (core k) :
    OutKept s₀ (execTrap core k s) := by
  unfold execTrap
  try dsimp only
  repeat' first
      | with_reducible assumption | with_reducible apply next_kept | with_reducible apply endKept_next
      | with_reducible apply endKept_jump | with_reducible apply endKept_trap | with_reducible apply endKept_wait
      | with_reducible apply fetchTrap_kept | with_reducible apply issue_kept | with_reducible apply takeSoftTrap_kept
      | with_reducible apply takeTrap_kept | split | (with_reducible intro _)

theorem execJmp_kept {s₀ s : State} (h : Kept s₀ s) (core ext) :
    OutKept s₀ (execJmp core ext s) := by
  unfold execJmp
  try dsimp only
  repeat' first
      | with_reducible assumption | with_reducible apply next_kept | with_reducible apply endKept_next
      | with_reducible apply endKept_jump | with_reducible apply endKept_trap | with_reducible apply endKept_wait
      | with_reducible apply checked_kept | with_reducible apply runControl_kept | (with_reducible intro _)

theorem execReti_kept {s₀ s : State} (h : Kept s₀ s) (core) :
    OutKept s₀ (execReti core s) := by
  unfold execReti
  try dsimp only
  repeat' first
      | with_reducible assumption | with_reducible apply next_kept | with_reducible apply endKept_next
      | with_reducible apply endKept_jump | with_reducible apply endKept_trap | with_reducible apply endKept_wait
      | with_reducible apply fetchTrap_kept | with_reducible apply frameHead_kept | with_reducible apply issue_kept
      | with_reducible apply leaveFrame_kept | with_reducible apply stackReads_kept | with_reducible apply takeTrap_kept | split
      | (with_reducible intro _)

theorem execNop_kept {s₀ s : State} (h : Kept s₀ s) (core) :
    OutKept s₀ (execNop core s) := by
  unfold execNop
  try dsimp only
  repeat' first
      | with_reducible assumption | with_reducible apply next_kept | with_reducible apply endKept_next
      | with_reducible apply endKept_jump | with_reducible apply endKept_trap | with_reducible apply endKept_wait
      | with_reducible apply goOn_kept | with_reducible apply runInstr_kept | (with_reducible intro _)

theorem execUndefinedOpcode_kept {s₀ s : State} (h : Kept s₀ s) (core op) :
    OutKept s₀ (execUndefinedOpcode core op s) := by
  unfold execUndefinedOpcode
  try dsimp only
  repeat' first
      | with_reducible assumption | with_reducible apply next_kept | with_reducible apply endKept_next
      | with_reducible apply endKept_jump | with_reducible apply endKept_trap | with_reducible apply endKept_wait
      | with_reducible apply runInstr_kept | split | (with_reducible intro _)

theorem execRet_kept {s₀ s : State} (h : Kept s₀ s) (core) :
    OutKept s₀ (execRet core s) := by
  unfold execRet
  try dsimp only
  repeat' first
      | with_reducible assumption | with_reducible apply next_kept | with_reducible apply endKept_next
      | with_reducible apply endKept_jump | with_reducible apply endKept_trap | with_reducible apply endKept_wait
      | with_reducible apply retBody_kept | with_reducible apply runControl_kept | (with_reducible intro _)

theorem execTrwalk_kept {s₀ s : State} (h : Kept s₀ s) (core rd) :
    OutKept s₀ (execTrwalk core rd s) := by
  unfold execTrwalk
  try dsimp only
  repeat' first
      | with_reducible assumption | with_reducible apply next_kept | with_reducible apply endKept_next
      | with_reducible apply endKept_jump | with_reducible apply endKept_trap | with_reducible apply endKept_wait
      | with_reducible apply checked_kept | with_reducible apply runControl_kept | (with_reducible intro _)

theorem execJmpr_kept {s₀ s : State} (h : Kept s₀ s) (core ra) :
    OutKept s₀ (execJmpr core ra s) := by
  unfold execJmpr
  try dsimp only
  repeat' first
      | with_reducible assumption | with_reducible apply next_kept | with_reducible apply endKept_next
      | with_reducible apply endKept_jump | with_reducible apply endKept_trap | with_reducible apply endKept_wait
      | with_reducible apply checked_kept | with_reducible apply runControl_kept | (with_reducible intro _)

/-! ### MbMove -/

theorem execMovr_kept {s₀ s : State} (h : Kept s₀ s) (core rd ra) :
    OutKept s₀ (execMovr core rd ra s) := by
  unfold execMovr
  try dsimp only
  repeat' first
      | with_reducible assumption | with_reducible apply next_kept | with_reducible apply endKept_next
      | with_reducible apply endKept_jump | with_reducible apply endKept_trap | with_reducible apply endKept_wait
      | with_reducible apply runInstr_kept | with_reducible apply writeResult_kept | (with_reducible intro _)

theorem execMovm_kept {s₀ s : State} (h : Kept s₀ s) (core rd ra) :
    OutKept s₀ (execMovm core rd ra s) := by
  unfold execMovm
  try dsimp only
  repeat' first
      | with_reducible assumption | with_reducible apply next_kept | with_reducible apply endKept_next
      | with_reducible apply endKept_jump | with_reducible apply endKept_trap | with_reducible apply endKept_wait
      | with_reducible apply checked_kept | with_reducible apply loadFor_kept | with_reducible apply runInstr_kept
      | (with_reducible intro _)

theorem execStr_kept {s₀ s : State} (h : Kept s₀ s) (core r bank short) :
    OutKept s₀ (execStr core r bank short s) := by
  unfold execStr
  try dsimp only
  repeat' first
      | with_reducible assumption | with_reducible apply next_kept | with_reducible apply endKept_next
      | with_reducible apply endKept_jump | with_reducible apply endKept_trap | with_reducible apply endKept_wait
      | with_reducible apply checked_kept | with_reducible apply coreStore_kept | with_reducible apply runInstr_kept
      | (with_reducible intro _)

theorem pointerLoad_kept {s₀ s : State} (h : Kept s₀ s) (n r base mode off wholeRom c) :
    EndKept s₀ (pointerLoad n r base mode off wholeRom s c) := by
  unfold pointerLoad
  try dsimp only
  repeat' first
      | with_reducible assumption | with_reducible apply endKept_next | with_reducible apply endKept_jump
      | with_reducible apply endKept_trap | with_reducible apply endKept_wait | with_reducible apply checked_kept
      | with_reducible apply loadFor_kept

theorem execLdx_kept {s₀ s : State} (h : Kept s₀ s) (core r base mode off) :
    OutKept s₀ (execLdx core r base mode off s) := by
  unfold execLdx
  try dsimp only
  repeat' first
      | with_reducible assumption | with_reducible apply next_kept | with_reducible apply endKept_next
      | with_reducible apply endKept_jump | with_reducible apply endKept_trap | with_reducible apply endKept_wait
      | with_reducible apply pointerLoad_kept | with_reducible apply runInstr_kept | (with_reducible intro _)

theorem execSt_kept {s₀ s : State} (h : Kept s₀ s) (core r bank short) :
    OutKept s₀ (execSt core r bank short s) := by
  unfold execSt
  try dsimp only
  repeat' first
      | with_reducible assumption | with_reducible apply next_kept | with_reducible apply endKept_next
      | with_reducible apply endKept_jump | with_reducible apply endKept_trap | with_reducible apply endKept_wait
      | with_reducible apply checked_kept | with_reducible apply coreStore_kept | with_reducible apply runInstr_kept
      | (with_reducible intro _)

theorem execLoadReturn_kept {s₀ s : State} (h : Kept s₀ s) (core) :
    OutKept s₀ (execLoadReturn core s) := by
  unfold execLoadReturn
  try dsimp only
  repeat' first
      | with_reducible assumption | with_reducible apply next_kept | with_reducible apply endKept_next
      | with_reducible apply endKept_jump | with_reducible apply endKept_trap | with_reducible apply endKept_wait
      | with_reducible apply loadReturn_kept

theorem pointerStore_kept {s₀ s : State} (h : Kept s₀ s) (n r base mode off raw c) :
    EndKept s₀ (pointerStore n r base mode off raw s c) := by
  unfold pointerStore
  try dsimp only
  repeat' first
      | with_reducible assumption | with_reducible apply endKept_next | with_reducible apply endKept_jump
      | with_reducible apply endKept_trap | with_reducible apply endKept_wait | with_reducible apply checked_kept
      | with_reducible apply coreStore_kept | split | (with_reducible intro _)

theorem execPop_kept {s₀ s : State} (h : Kept s₀ s) (core rd) :
    OutKept s₀ (execPop core rd s) := by
  unfold execPop
  try dsimp only
  repeat' first
      | with_reducible assumption | with_reducible apply next_kept | with_reducible apply endKept_next
      | with_reducible apply endKept_jump | with_reducible apply endKept_trap | with_reducible apply endKept_wait
      | with_reducible apply checked_kept | with_reducible apply loadFor_kept | with_reducible apply runInstr_kept
      | (with_reducible intro _)

theorem execMtrc_kept {s₀ s : State} (h : Kept s₀ s) (core ra) :
    OutKept s₀ (execMtrc core ra s) := by
  unfold execMtrc
  try dsimp only
  repeat' first
      | with_reducible assumption | with_reducible apply next_kept | with_reducible apply endKept_next
      | with_reducible apply endKept_jump | with_reducible apply endKept_trap | with_reducible apply endKept_wait
      | with_reducible apply checked_kept | with_reducible apply goOn_kept | with_reducible apply runInstr_kept
      | (with_reducible intro _)

theorem execStrx_kept {s₀ s : State} (h : Kept s₀ s) (core r base mode off) :
    OutKept s₀ (execStrx core r base mode off s) := by
  unfold execStrx
  try dsimp only
  repeat' first
      | with_reducible assumption | with_reducible apply next_kept | with_reducible apply endKept_next
      | with_reducible apply endKept_jump | with_reducible apply endKept_trap | with_reducible apply endKept_wait
      | with_reducible apply pointerStore_kept | with_reducible apply runInstr_kept | (with_reducible intro _)

theorem execMtbk_kept {s₀ s : State} (h : Kept s₀ s) (core ra k) :
    OutKept s₀ (execMtbk core ra k s) := by
  unfold execMtbk
  try dsimp only
  repeat' first
      | with_reducible assumption | with_reducible apply next_kept | with_reducible apply endKept_next
      | with_reducible apply endKept_jump | with_reducible apply endKept_trap | with_reducible apply endKept_wait
      | with_reducible apply checked_kept | with_reducible apply goOn_kept | with_reducible apply runInstr_kept
      | (with_reducible intro _)

theorem shortLoad_kept {s₀ s : State} (h : Kept s₀ s) (n r bank short wholeRom c) :
    EndKept s₀ (shortLoad n r bank short wholeRom s c) := by
  unfold shortLoad
  try dsimp only
  repeat' first
      | with_reducible assumption | with_reducible apply endKept_next | with_reducible apply endKept_jump
      | with_reducible apply endKept_trap | with_reducible apply endKept_wait | with_reducible apply checked_kept
      | with_reducible apply loadFor_kept

theorem execLdr_kept {s₀ s : State} (h : Kept s₀ s) (core r bank short) :
    OutKept s₀ (execLdr core r bank short s) := by
  unfold execLdr
  try dsimp only
  repeat' first
      | with_reducible assumption | with_reducible apply next_kept | with_reducible apply endKept_next
      | with_reducible apply endKept_jump | with_reducible apply endKept_trap | with_reducible apply endKept_wait
      | with_reducible apply runInstr_kept | with_reducible apply shortLoad_kept | (with_reducible intro _)

theorem execCas_kept {s₀ s : State} (h : Kept s₀ s) (core rd ra rb) :
    OutKept s₀ (execCas core rd ra rb s) := by
  unfold execCas
  try dsimp only
  repeat' first
      | with_reducible assumption | with_reducible apply next_kept | with_reducible apply endKept_next
      | with_reducible apply endKept_jump | with_reducible apply endKept_trap | with_reducible apply endKept_wait
      | with_reducible apply checked_kept | with_reducible apply coreStore_kept | with_reducible apply readRaw_kept
      | with_reducible apply runInstr_kept | split | (with_reducible intro _)

theorem execMfbk_kept {s₀ s : State} (h : Kept s₀ s) (core rd k) :
    OutKept s₀ (execMfbk core rd k s) := by
  unfold execMfbk
  try dsimp only
  repeat' first
      | with_reducible assumption | with_reducible apply next_kept | with_reducible apply endKept_next
      | with_reducible apply endKept_jump | with_reducible apply endKept_trap | with_reducible apply endKept_wait
      | with_reducible apply runInstr_kept | with_reducible apply writeResult_kept | (with_reducible intro _)

theorem execMov_kept {s₀ s : State} (h : Kept s₀ s) (core rd ra) :
    OutKept s₀ (execMov core rd ra s) := by
  unfold execMov
  try dsimp only
  repeat' first
      | with_reducible assumption | with_reducible apply next_kept | with_reducible apply endKept_next
      | with_reducible apply endKept_jump | with_reducible apply endKept_trap | with_reducible apply endKept_wait
      | with_reducible apply checked_kept | with_reducible apply runInstr_kept | with_reducible apply writeResult_kept
      | (with_reducible intro _)

theorem execStx_kept {s₀ s : State} (h : Kept s₀ s) (core r base mode off) :
    OutKept s₀ (execStx core r base mode off s) := by
  unfold execStx
  try dsimp only
  repeat' first
      | with_reducible assumption | with_reducible apply next_kept | with_reducible apply endKept_next
      | with_reducible apply endKept_jump | with_reducible apply endKept_trap | with_reducible apply endKept_wait
      | with_reducible apply pointerStore_kept | with_reducible apply runInstr_kept | (with_reducible intro _)

theorem execMfrc_kept {s₀ s : State} (h : Kept s₀ s) (core rd) :
    OutKept s₀ (execMfrc core rd s) := by
  unfold execMfrc
  try dsimp only
  repeat' first
      | with_reducible assumption | with_reducible apply next_kept | with_reducible apply endKept_next
      | with_reducible apply endKept_jump | with_reducible apply endKept_trap | with_reducible apply endKept_wait
      | with_reducible apply runInstr_kept | with_reducible apply writeResult_kept | (with_reducible intro _)

theorem execLdi_kept {s₀ s : State} (h : Kept s₀ s) (core rd imm) :
    OutKept s₀ (execLdi core rd imm s) := by
  unfold execLdi
  try dsimp only
  repeat' first
      | with_reducible assumption | with_reducible apply next_kept | with_reducible apply endKept_next
      | with_reducible apply endKept_jump | with_reducible apply endKept_trap | with_reducible apply endKept_wait
      | with_reducible apply runInstr_kept | with_reducible apply writeResult_kept | (with_reducible intro _)

theorem execLd_kept {s₀ s : State} (h : Kept s₀ s) (core r bank short) :
    OutKept s₀ (execLd core r bank short s) := by
  unfold execLd
  try dsimp only
  repeat' first
      | with_reducible assumption | with_reducible apply next_kept | with_reducible apply endKept_next
      | with_reducible apply endKept_jump | with_reducible apply endKept_trap | with_reducible apply endKept_wait
      | with_reducible apply runInstr_kept | with_reducible apply shortLoad_kept | (with_reducible intro _)

theorem execPush_kept {s₀ s : State} (h : Kept s₀ s) (core ra) :
    OutKept s₀ (execPush core ra s) := by
  unfold execPush
  try dsimp only
  repeat' first
      | with_reducible assumption | with_reducible apply next_kept | with_reducible apply endKept_next
      | with_reducible apply endKept_jump | with_reducible apply endKept_trap | with_reducible apply endKept_wait
      | with_reducible apply checked_kept | with_reducible apply coreStore_kept | with_reducible apply runInstr_kept
      | (with_reducible intro _)

theorem execLea_kept {s₀ s : State} (h : Kept s₀ s) (core r base mode off) :
    OutKept s₀ (execLea core r base mode off s) := by
  unfold execLea
  try dsimp only
  repeat' first
      | with_reducible assumption | with_reducible apply next_kept | with_reducible apply endKept_next
      | with_reducible apply endKept_jump | with_reducible apply endKept_trap | with_reducible apply endKept_wait
      | with_reducible apply checked_kept | with_reducible apply runInstr_kept | with_reducible apply writeResult_kept
      | (with_reducible intro _)

theorem execXchg_kept {s₀ s : State} (h : Kept s₀ s) (core r base mode off) :
    OutKept s₀ (execXchg core r base mode off s) := by
  unfold execXchg
  try dsimp only
  repeat' first
      | with_reducible assumption | with_reducible apply next_kept | with_reducible apply endKept_next
      | with_reducible apply endKept_jump | with_reducible apply endKept_trap | with_reducible apply endKept_wait
      | with_reducible apply checked_kept | with_reducible apply coreStore_kept | with_reducible apply readRaw_kept
      | with_reducible apply runInstr_kept | split | (with_reducible intro _)

theorem execGettag_kept {s₀ s : State} (h : Kept s₀ s) (core rd ra) :
    OutKept s₀ (execGettag core rd ra s) := by
  unfold execGettag
  try dsimp only
  repeat' first
      | with_reducible assumption | with_reducible apply next_kept | with_reducible apply endKept_next
      | with_reducible apply endKept_jump | with_reducible apply endKept_trap | with_reducible apply endKept_wait
      | with_reducible apply runInstr_kept | with_reducible apply writeResult_kept | (with_reducible intro _)

theorem execRetag_kept {s₀ s : State} (h : Kept s₀ s) (core rd ra tag) :
    OutKept s₀ (execRetag core rd ra tag s) := by
  unfold execRetag
  try dsimp only
  repeat' first
      | with_reducible assumption | with_reducible apply next_kept | with_reducible apply endKept_next
      | with_reducible apply endKept_jump | with_reducible apply endKept_trap | with_reducible apply endKept_wait
      | with_reducible apply checked_kept | with_reducible apply runInstr_kept | with_reducible apply writeResult_kept
      | (with_reducible intro _)

theorem execLdrx_kept {s₀ s : State} (h : Kept s₀ s) (core r base mode off) :
    OutKept s₀ (execLdrx core r base mode off s) := by
  unfold execLdrx
  try dsimp only
  repeat' first
      | with_reducible assumption | with_reducible apply next_kept | with_reducible apply endKept_next
      | with_reducible apply endKept_jump | with_reducible apply endKept_trap | with_reducible apply endKept_wait
      | with_reducible apply pointerLoad_kept | with_reducible apply runInstr_kept | (with_reducible intro _)

theorem execLdc_kept {s₀ s : State} (h : Kept s₀ s) (core rd tag ext) :
    OutKept s₀ (execLdc core rd tag ext s) := by
  unfold execLdc
  try dsimp only
  repeat' first
      | with_reducible assumption | with_reducible apply next_kept | with_reducible apply endKept_next
      | with_reducible apply endKept_jump | with_reducible apply endKept_trap | with_reducible apply endKept_wait
      | with_reducible apply checked_kept | with_reducible apply runInstr_kept | with_reducible apply writeResult_kept
      | (with_reducible intro _)

/-! ### MbArith -/

theorem intOp_kept {s₀ s : State} (h : Kept s₀ s) (rd ra rb f g c) :
    EndKept s₀ (intOp rd ra rb f g s c) := by
  unfold intOp
  try dsimp only
  repeat' first
      | with_reducible assumption | with_reducible apply endKept_next | with_reducible apply endKept_jump
      | with_reducible apply endKept_trap | with_reducible apply endKept_wait | with_reducible apply binOp_kept
      | with_reducible apply resultOp_kept | (with_reducible intro _)

theorem execShl_kept {s₀ s : State} (h : Kept s₀ s) (core rd ra rb) :
    OutKept s₀ (execShl core rd ra rb s) := by
  unfold execShl
  try dsimp only
  repeat' first
      | with_reducible assumption | with_reducible apply next_kept | with_reducible apply endKept_next
      | with_reducible apply endKept_jump | with_reducible apply endKept_trap | with_reducible apply endKept_wait
      | with_reducible apply intOp_kept | with_reducible apply runInstr_kept | (with_reducible intro _)

theorem fixResult_kept {s₀ s : State} (h : Kept s₀ s) (c rd i) :
    EndKept s₀ (fixResult s c rd i) := by
  unfold fixResult
  try dsimp only
  repeat' first
      | with_reducible assumption | with_reducible apply endKept_next | with_reducible apply endKept_jump
      | with_reducible apply endKept_trap | with_reducible apply endKept_wait | with_reducible apply resultOp_kept

theorem fixOp_kept {s₀ s : State} (h : Kept s₀ s) (rd ra rb f c) :
    EndKept s₀ (fixOp rd ra rb f s c) := by
  unfold fixOp
  try dsimp only
  repeat' first
      | with_reducible assumption | with_reducible apply endKept_next | with_reducible apply endKept_jump
      | with_reducible apply endKept_trap | with_reducible apply endKept_wait | with_reducible apply binOp_kept
      | with_reducible apply fixResult_kept | (with_reducible intro _)

theorem execFmul_kept {s₀ s : State} (h : Kept s₀ s) (core rd ra rb) :
    OutKept s₀ (execFmul core rd ra rb s) := by
  unfold execFmul
  try dsimp only
  repeat' first
      | with_reducible assumption | with_reducible apply next_kept | with_reducible apply endKept_next
      | with_reducible apply endKept_jump | with_reducible apply endKept_trap | with_reducible apply endKept_wait
      | with_reducible apply fixOp_kept | with_reducible apply runInstr_kept | (with_reducible intro _)

theorem execAdda_kept {s₀ s : State} (h : Kept s₀ s) (core rd ra rb) :
    OutKept s₀ (execAdda core rd ra rb s) := by
  unfold execAdda
  try dsimp only
  repeat' first
      | with_reducible assumption | with_reducible apply next_kept | with_reducible apply endKept_next
      | with_reducible apply endKept_jump | with_reducible apply endKept_trap | with_reducible apply endKept_wait
      | with_reducible apply binOp_kept | with_reducible apply runInstr_kept | with_reducible apply writeResult_kept
      | (with_reducible intro _)

theorem immOp_kept {s₀ s : State} (h : Kept s₀ s) (rd ra imm f g c) :
    EndKept s₀ (immOp rd ra imm f g s c) := by
  unfold immOp
  try dsimp only
  repeat' first
      | with_reducible assumption | with_reducible apply endKept_next | with_reducible apply endKept_jump
      | with_reducible apply endKept_trap | with_reducible apply endKept_wait | with_reducible apply resultOp_kept
      | with_reducible apply unOp_kept | (with_reducible intro _)

theorem execXori_kept {s₀ s : State} (h : Kept s₀ s) (core rd ra imm) :
    OutKept s₀ (execXori core rd ra imm s) := by
  unfold execXori
  try dsimp only
  repeat' first
      | with_reducible assumption | with_reducible apply next_kept | with_reducible apply endKept_next
      | with_reducible apply endKept_jump | with_reducible apply endKept_trap | with_reducible apply endKept_wait
      | with_reducible apply immOp_kept | with_reducible apply runInstr_kept | (with_reducible intro _)

theorem execSuba_kept {s₀ s : State} (h : Kept s₀ s) (core rd ra rb) :
    OutKept s₀ (execSuba core rd ra rb s) := by
  unfold execSuba
  try dsimp only
  repeat' first
      | with_reducible assumption | with_reducible apply next_kept | with_reducible apply endKept_next
      | with_reducible apply endKept_jump | with_reducible apply endKept_trap | with_reducible apply endKept_wait
      | with_reducible apply binOp_kept | with_reducible apply resultOp_kept | with_reducible apply runInstr_kept
      | (with_reducible intro _)

theorem execCmpi_kept {s₀ s : State} (h : Kept s₀ s) (core ra imm) :
    OutKept s₀ (execCmpi core ra imm s) := by
  unfold execCmpi
  try dsimp only
  repeat' first
      | with_reducible assumption | with_reducible apply next_kept | with_reducible apply endKept_next
      | with_reducible apply endKept_jump | with_reducible apply endKept_trap | with_reducible apply endKept_wait
      | with_reducible apply checked_kept | with_reducible apply goOn_kept | with_reducible apply runInstr_kept
      | (with_reducible intro _)

theorem divOp_kept {s₀ s : State} (h : Kept s₀ s) (rd ra rb f g c) :
    EndKept s₀ (divOp rd ra rb f g s c) := by
  unfold divOp
  try dsimp only
  repeat' first
      | with_reducible assumption | with_reducible apply endKept_next | with_reducible apply endKept_jump
      | with_reducible apply endKept_trap | with_reducible apply endKept_wait | with_reducible apply binOp_kept
      | with_reducible apply checked_kept | with_reducible apply resultOp_kept | (with_reducible intro _)

theorem execDivu_kept {s₀ s : State} (h : Kept s₀ s) (core rd ra rb) :
    OutKept s₀ (execDivu core rd ra rb s) := by
  unfold execDivu
  try dsimp only
  repeat' first
      | with_reducible assumption | with_reducible apply next_kept | with_reducible apply endKept_next
      | with_reducible apply endKept_jump | with_reducible apply endKept_trap | with_reducible apply endKept_wait
      | with_reducible apply divOp_kept | with_reducible apply runInstr_kept | (with_reducible intro _)

theorem execShri_kept {s₀ s : State} (h : Kept s₀ s) (core rd ra imm) :
    OutKept s₀ (execShri core rd ra imm s) := by
  unfold execShri
  try dsimp only
  repeat' first
      | with_reducible assumption | with_reducible apply next_kept | with_reducible apply endKept_next
      | with_reducible apply endKept_jump | with_reducible apply endKept_trap | with_reducible apply endKept_wait
      | with_reducible apply immOp_kept | with_reducible apply runInstr_kept | (with_reducible intro _)

theorem execSari_kept {s₀ s : State} (h : Kept s₀ s) (core rd ra imm) :
    OutKept s₀ (execSari core rd ra imm s) := by
  unfold execSari
  try dsimp only
  repeat' first
      | with_reducible assumption | with_reducible apply next_kept | with_reducible apply endKept_next
      | with_reducible apply endKept_jump | with_reducible apply endKept_trap | with_reducible apply endKept_wait
      | with_reducible apply immOp_kept | with_reducible apply runInstr_kept | (with_reducible intro _)

theorem execFdiv_kept {s₀ s : State} (h : Kept s₀ s) (core rd ra rb) :
    OutKept s₀ (execFdiv core rd ra rb s) := by
  unfold execFdiv
  try dsimp only
  repeat' first
      | with_reducible assumption | with_reducible apply next_kept | with_reducible apply endKept_next
      | with_reducible apply endKept_jump | with_reducible apply endKept_trap | with_reducible apply endKept_wait
      | with_reducible apply binOp_kept | with_reducible apply checked_kept | with_reducible apply fixResult_kept
      | with_reducible apply runInstr_kept | (with_reducible intro _)

theorem execItof_kept {s₀ s : State} (h : Kept s₀ s) (core rd ra) :
    OutKept s₀ (execItof core rd ra s) := by
  unfold execItof
  try dsimp only
  repeat' first
      | with_reducible assumption | with_reducible apply next_kept | with_reducible apply endKept_next
      | with_reducible apply endKept_jump | with_reducible apply endKept_trap | with_reducible apply endKept_wait
      | with_reducible apply fixResult_kept | with_reducible apply runInstr_kept | with_reducible apply unOp_kept
      | (with_reducible intro _)

theorem execAddi_kept {s₀ s : State} (h : Kept s₀ s) (core rd ra imm) :
    OutKept s₀ (execAddi core rd ra imm s) := by
  unfold execAddi
  try dsimp only
  repeat' first
      | with_reducible assumption | with_reducible apply next_kept | with_reducible apply endKept_next
      | with_reducible apply endKept_jump | with_reducible apply endKept_trap | with_reducible apply endKept_wait
      | with_reducible apply checked_kept | with_reducible apply resultOp_kept | with_reducible apply runInstr_kept
      | with_reducible apply writeResult_kept | split | (with_reducible intro _)

theorem execAndi_kept {s₀ s : State} (h : Kept s₀ s) (core rd ra imm) :
    OutKept s₀ (execAndi core rd ra imm s) := by
  unfold execAndi
  try dsimp only
  repeat' first
      | with_reducible assumption | with_reducible apply next_kept | with_reducible apply endKept_next
      | with_reducible apply endKept_jump | with_reducible apply endKept_trap | with_reducible apply endKept_wait
      | with_reducible apply immOp_kept | with_reducible apply runInstr_kept | (with_reducible intro _)

theorem execFsub_kept {s₀ s : State} (h : Kept s₀ s) (core rd ra rb) :
    OutKept s₀ (execFsub core rd ra rb s) := by
  unfold execFsub
  try dsimp only
  repeat' first
      | with_reducible assumption | with_reducible apply next_kept | with_reducible apply endKept_next
      | with_reducible apply endKept_jump | with_reducible apply endKept_trap | with_reducible apply endKept_wait
      | with_reducible apply fixOp_kept | with_reducible apply runInstr_kept | (with_reducible intro _)

theorem execFcmp_kept {s₀ s : State} (h : Kept s₀ s) (core ra rb) :
    OutKept s₀ (execFcmp core ra rb s) := by
  unfold execFcmp
  try dsimp only
  repeat' first
      | with_reducible assumption | with_reducible apply next_kept | with_reducible apply endKept_next
      | with_reducible apply endKept_jump | with_reducible apply endKept_trap | with_reducible apply endKept_wait
      | with_reducible apply cmpOp_kept | with_reducible apply runInstr_kept | (with_reducible intro _)

theorem execSub_kept {s₀ s : State} (h : Kept s₀ s) (core rd ra rb) :
    OutKept s₀ (execSub core rd ra rb s) := by
  unfold execSub
  try dsimp only
  repeat' first
      | with_reducible assumption | with_reducible apply next_kept | with_reducible apply endKept_next
      | with_reducible apply endKept_jump | with_reducible apply endKept_trap | with_reducible apply endKept_wait
      | with_reducible apply intOp_kept | with_reducible apply runInstr_kept | (with_reducible intro _)

theorem execOr_kept {s₀ s : State} (h : Kept s₀ s) (core rd ra rb) :
    OutKept s₀ (execOr core rd ra rb s) := by
  unfold execOr
  try dsimp only
  repeat' first
      | with_reducible assumption | with_reducible apply next_kept | with_reducible apply endKept_next
      | with_reducible apply endKept_jump | with_reducible apply endKept_trap | with_reducible apply endKept_wait
      | with_reducible apply intOp_kept | with_reducible apply runInstr_kept | (with_reducible intro _)

theorem execFadd_kept {s₀ s : State} (h : Kept s₀ s) (core rd ra rb) :
    OutKept s₀ (execFadd core rd ra rb s) := by
  unfold execFadd
  try dsimp only
  repeat' first
      | with_reducible assumption | with_reducible apply next_kept | with_reducible apply endKept_next
      | with_reducible apply endKept_jump | with_reducible apply endKept_trap | with_reducible apply endKept_wait
      | with_reducible apply fixOp_kept | with_reducible apply runInstr_kept | (with_reducible intro _)

theorem execShr_kept {s₀ s : State} (h : Kept s₀ s) (core rd ra rb) :
    OutKept s₀ (execShr core rd ra rb s) := by
  unfold execShr
  try dsimp only
  repeat' first
      | with_reducible assumption | with_reducible apply next_kept | with_reducible apply endKept_next
      | with_reducible apply endKept_jump | with_reducible apply endKept_trap | with_reducible apply endKept_wait
      | with_reducible apply intOp_kept | with_reducible apply runInstr_kept | (with_reducible intro _)

theorem execCmpeq_kept {s₀ s : State} (h : Kept s₀ s) (core ra rb) :
    OutKept s₀ (execCmpeq core ra rb s) := by
  unfold execCmpeq
  try dsimp only
  repeat' first
      | with_reducible assumption | with_reducible apply next_kept | with_reducible apply endKept_next
      | with_reducible apply endKept_jump | with_reducible apply endKept_trap | with_reducible apply endKept_wait
      | with_reducible apply checked_kept | with_reducible apply goOn_kept | with_reducible apply runInstr_kept
      | (with_reducible intro _)

theorem execMul_kept {s₀ s : State} (h : Kept s₀ s) (core rd ra rb) :
    OutKept s₀ (execMul core rd ra rb s) := by
  unfold execMul
  try dsimp only
  repeat' first
      | with_reducible assumption | with_reducible apply next_kept | with_reducible apply endKept_next
      | with_reducible apply endKept_jump | with_reducible apply endKept_trap | with_reducible apply endKept_wait
      | with_reducible apply intOp_kept | with_reducible apply runInstr_kept | (with_reducible intro _)

theorem execShli_kept {s₀ s : State} (h : Kept s₀ s) (core rd ra imm) :
    OutKept s₀ (execShli core rd ra imm s) := by
  unfold execShli
  try dsimp only
  repeat' first
      | with_reducible assumption | with_reducible apply next_kept | with_reducible apply endKept_next
      | with_reducible apply endKept_jump | with_reducible apply endKept_trap | with_reducible apply endKept_wait
      | with_reducible apply immOp_kept | with_reducible apply runInstr_kept | (with_reducible intro _)

theorem execOri_kept {s₀ s : State} (h : Kept s₀ s) (core rd ra imm) :
    OutKept s₀ (execOri core rd ra imm s) := by
  unfold execOri
  try dsimp only
  repeat' first
      | with_reducible assumption | with_reducible apply next_kept | with_reducible apply endKept_next
      | with_reducible apply endKept_jump | with_reducible apply endKept_trap | with_reducible apply endKept_wait
      | with_reducible apply immOp_kept | with_reducible apply runInstr_kept | (with_reducible intro _)

theorem execXor_kept {s₀ s : State} (h : Kept s₀ s) (core rd ra rb) :
    OutKept s₀ (execXor core rd ra rb s) := by
  unfold execXor
  try dsimp only
  repeat' first
      | with_reducible assumption | with_reducible apply next_kept | with_reducible apply endKept_next
      | with_reducible apply endKept_jump | with_reducible apply endKept_trap | with_reducible apply endKept_wait
      | with_reducible apply intOp_kept | with_reducible apply runInstr_kept | (with_reducible intro _)

theorem execNeg_kept {s₀ s : State} (h : Kept s₀ s) (core rd ra) :
    OutKept s₀ (execNeg core rd ra s) := by
  unfold execNeg
  try dsimp only
  repeat' first
      | with_reducible assumption | with_reducible apply next_kept | with_reducible apply endKept_next
      | with_reducible apply endKept_jump | with_reducible apply endKept_trap | with_reducible apply endKept_wait
      | with_reducible apply resultOp_kept | with_reducible apply runInstr_kept | with_reducible apply unOp_kept
      | (with_reducible intro _)

theorem execFtoi_kept {s₀ s : State} (h : Kept s₀ s) (core rd ra) :
    OutKept s₀ (execFtoi core rd ra s) := by
  unfold execFtoi
  try dsimp only
  repeat' first
      | with_reducible assumption | with_reducible apply next_kept | with_reducible apply endKept_next
      | with_reducible apply endKept_jump | with_reducible apply endKept_trap | with_reducible apply endKept_wait
      | with_reducible apply resultOp_kept | with_reducible apply runInstr_kept | with_reducible apply unOp_kept
      | (with_reducible intro _)

theorem execDivs_kept {s₀ s : State} (h : Kept s₀ s) (core rd ra rb) :
    OutKept s₀ (execDivs core rd ra rb s) := by
  unfold execDivs
  try dsimp only
  repeat' first
      | with_reducible assumption | with_reducible apply next_kept | with_reducible apply endKept_next
      | with_reducible apply endKept_jump | with_reducible apply endKept_trap | with_reducible apply endKept_wait
      | with_reducible apply divOp_kept | with_reducible apply runInstr_kept | (with_reducible intro _)

theorem execAnd_kept {s₀ s : State} (h : Kept s₀ s) (core rd ra rb) :
    OutKept s₀ (execAnd core rd ra rb s) := by
  unfold execAnd
  try dsimp only
  repeat' first
      | with_reducible assumption | with_reducible apply next_kept | with_reducible apply endKept_next
      | with_reducible apply endKept_jump | with_reducible apply endKept_trap | with_reducible apply endKept_wait
      | with_reducible apply intOp_kept | with_reducible apply runInstr_kept | (with_reducible intro _)

theorem execCmp_kept {s₀ s : State} (h : Kept s₀ s) (core ra rb) :
    OutKept s₀ (execCmp core ra rb s) := by
  unfold execCmp
  try dsimp only
  repeat' first
      | with_reducible assumption | with_reducible apply next_kept | with_reducible apply endKept_next
      | with_reducible apply endKept_jump | with_reducible apply endKept_trap | with_reducible apply endKept_wait
      | with_reducible apply cmpOp_kept | with_reducible apply runInstr_kept | (with_reducible intro _)

theorem execSar_kept {s₀ s : State} (h : Kept s₀ s) (core rd ra rb) :
    OutKept s₀ (execSar core rd ra rb s) := by
  unfold execSar
  try dsimp only
  repeat' first
      | with_reducible assumption | with_reducible apply next_kept | with_reducible apply endKept_next
      | with_reducible apply endKept_jump | with_reducible apply endKept_trap | with_reducible apply endKept_wait
      | with_reducible apply intOp_kept | with_reducible apply runInstr_kept | (with_reducible intro _)

theorem execAdd_kept {s₀ s : State} (h : Kept s₀ s) (core rd ra rb) :
    OutKept s₀ (execAdd core rd ra rb s) := by
  unfold execAdd
  try dsimp only
  repeat' first
      | with_reducible assumption | with_reducible apply next_kept | with_reducible apply endKept_next
      | with_reducible apply endKept_jump | with_reducible apply endKept_trap | with_reducible apply endKept_wait
      | with_reducible apply intOp_kept | with_reducible apply runInstr_kept | (with_reducible intro _)

/-! ### MbMedia -/

theorem pixelOp_kept {s₀ s : State} (h : Kept s₀ s) (rd ra rb f c) :
    EndKept s₀ (pixelOp rd ra rb f s c) := by
  unfold pixelOp
  try dsimp only
  repeat' first
      | with_reducible assumption | with_reducible apply endKept_next | with_reducible apply endKept_jump
      | with_reducible apply endKept_trap | with_reducible apply endKept_wait | with_reducible apply binOp_kept
      | with_reducible apply resultOp_kept | (with_reducible intro _)

theorem execPadd_kept {s₀ s : State} (h : Kept s₀ s) (core rd ra rb) :
    OutKept s₀ (execPadd core rd ra rb s) := by
  unfold execPadd
  try dsimp only
  repeat' first
      | with_reducible assumption | with_reducible apply next_kept | with_reducible apply endKept_next
      | with_reducible apply endKept_jump | with_reducible apply endKept_trap | with_reducible apply endKept_wait
      | with_reducible apply pixelOp_kept | with_reducible apply runInstr_kept | (with_reducible intro _)

theorem execMtq_kept {s₀ s : State} (h : Kept s₀ s) (core ra q) :
    OutKept s₀ (execMtq core ra q s) := by
  unfold execMtq
  try dsimp only
  repeat' first
      | with_reducible assumption | with_reducible apply next_kept | with_reducible apply endKept_next
      | with_reducible apply endKept_jump | with_reducible apply endKept_trap | with_reducible apply endKept_wait
      | with_reducible apply checked_kept | with_reducible apply goOn_kept | with_reducible apply runInstr_kept | split
      | (with_reducible intro _)

theorem execBnow_kept {s₀ s : State} (h : Kept s₀ s) (core rd) :
    OutKept s₀ (execBnow core rd s) := by
  unfold execBnow
  try dsimp only
  repeat' first
      | with_reducible assumption | with_reducible apply next_kept | with_reducible apply endKept_next
      | with_reducible apply endKept_jump | with_reducible apply endKept_trap | with_reducible apply endKept_wait
      | with_reducible apply checked_kept | with_reducible apply runInstr_kept | (with_reducible intro _)

theorem execPins_kept {s₀ s : State} (h : Kept s₀ s) (core rd ra rb ch) :
    OutKept s₀ (execPins core rd ra rb ch s) := by
  unfold execPins
  try dsimp only
  repeat' first
      | with_reducible assumption | with_reducible apply next_kept | with_reducible apply endKept_next
      | with_reducible apply endKept_jump | with_reducible apply endKept_trap | with_reducible apply endKept_wait
      | with_reducible apply binOp_kept | with_reducible apply resultOp_kept | with_reducible apply runInstr_kept
      | (with_reducible intro _)

theorem macOp_kept {s₀ s : State} (h : Kept s₀ s) (tag ra rb q c) :
    EndKept s₀ (macOp tag ra rb q s c) := by
  unfold macOp
  try dsimp only
  repeat' first
      | with_reducible assumption | with_reducible apply endKept_next | with_reducible apply endKept_jump
      | with_reducible apply endKept_trap | with_reducible apply endKept_wait | with_reducible apply checked_kept
      | with_reducible apply goOn_kept

theorem execClrq_kept {s₀ s : State} (h : Kept s₀ s) (core q) :
    OutKept s₀ (execClrq core q s) := by
  unfold execClrq
  try dsimp only
  repeat' first
      | with_reducible assumption | with_reducible apply next_kept | with_reducible apply endKept_next
      | with_reducible apply endKept_jump | with_reducible apply endKept_trap | with_reducible apply endKept_wait
      | with_reducible apply goOn_kept | with_reducible apply runInstr_kept | (with_reducible intro _)

theorem execFmac_kept {s₀ s : State} (h : Kept s₀ s) (core ra rb q) :
    OutKept s₀ (execFmac core ra rb q s) := by
  unfold execFmac
  try dsimp only
  repeat' first
      | with_reducible assumption | with_reducible apply next_kept | with_reducible apply endKept_next
      | with_reducible apply endKept_jump | with_reducible apply endKept_trap | with_reducible apply endKept_wait
      | with_reducible apply macOp_kept | with_reducible apply runInstr_kept | (with_reducible intro _)

theorem execPext_kept {s₀ s : State} (h : Kept s₀ s) (core rd ra ch) :
    OutKept s₀ (execPext core rd ra ch s) := by
  unfold execPext
  try dsimp only
  repeat' first
      | with_reducible assumption | with_reducible apply next_kept | with_reducible apply endKept_next
      | with_reducible apply endKept_jump | with_reducible apply endKept_trap | with_reducible apply endKept_wait
      | with_reducible apply resultOp_kept | with_reducible apply runInstr_kept | with_reducible apply unOp_kept
      | (with_reducible intro _)

theorem execBdiff_kept {s₀ s : State} (h : Kept s₀ s) (core rd ra rb) :
    OutKept s₀ (execBdiff core rd ra rb s) := by
  unfold execBdiff
  try dsimp only
  repeat' first
      | with_reducible assumption | with_reducible apply next_kept | with_reducible apply endKept_next
      | with_reducible apply endKept_jump | with_reducible apply endKept_trap | with_reducible apply endKept_wait
      | with_reducible apply binOp_kept | with_reducible apply resultOp_kept | with_reducible apply runInstr_kept
      | (with_reducible intro _)

theorem execMfq_kept {s₀ s : State} (h : Kept s₀ s) (core rd q shift t) :
    OutKept s₀ (execMfq core rd q shift t s) := by
  unfold execMfq
  try dsimp only
  repeat' first
      | with_reducible assumption | with_reducible apply next_kept | with_reducible apply endKept_next
      | with_reducible apply endKept_jump | with_reducible apply endKept_trap | with_reducible apply endKept_wait
      | with_reducible apply checked_kept | with_reducible apply resultOp_kept | with_reducible apply runInstr_kept | split
      | (with_reducible intro _)

theorem execPover_kept {s₀ s : State} (h : Kept s₀ s) (core rd ra rb) :
    OutKept s₀ (execPover core rd ra rb s) := by
  unfold execPover
  try dsimp only
  repeat' first
      | with_reducible assumption | with_reducible apply next_kept | with_reducible apply endKept_next
      | with_reducible apply endKept_jump | with_reducible apply endKept_trap | with_reducible apply endKept_wait
      | with_reducible apply pixelOp_kept | with_reducible apply runInstr_kept | (with_reducible intro _)

theorem execPmul_kept {s₀ s : State} (h : Kept s₀ s) (core rd ra rb) :
    OutKept s₀ (execPmul core rd ra rb s) := by
  unfold execPmul
  try dsimp only
  repeat' first
      | with_reducible assumption | with_reducible apply next_kept | with_reducible apply endKept_next
      | with_reducible apply endKept_jump | with_reducible apply endKept_trap | with_reducible apply endKept_wait
      | with_reducible apply pixelOp_kept | with_reducible apply runInstr_kept | (with_reducible intro _)

theorem execBcmp_kept {s₀ s : State} (h : Kept s₀ s) (core ra rb) :
    OutKept s₀ (execBcmp core ra rb s) := by
  unfold execBcmp
  try dsimp only
  repeat' first
      | with_reducible assumption | with_reducible apply next_kept | with_reducible apply endKept_next
      | with_reducible apply endKept_jump | with_reducible apply endKept_trap | with_reducible apply endKept_wait
      | with_reducible apply cmpOp_kept | with_reducible apply runInstr_kept | (with_reducible intro _)

theorem execBadd_kept {s₀ s : State} (h : Kept s₀ s) (core rd ra rb) :
    OutKept s₀ (execBadd core rd ra rb s) := by
  unfold execBadd
  try dsimp only
  repeat' first
      | with_reducible assumption | with_reducible apply next_kept | with_reducible apply endKept_next
      | with_reducible apply endKept_jump | with_reducible apply endKept_trap | with_reducible apply endKept_wait
      | with_reducible apply binOp_kept | with_reducible apply resultOp_kept | with_reducible apply runInstr_kept
      | (with_reducible intro _)

theorem execMac_kept {s₀ s : State} (h : Kept s₀ s) (core ra rb q) :
    OutKept s₀ (execMac core ra rb q s) := by
  unfold execMac
  try dsimp only
  repeat' first
      | with_reducible assumption | with_reducible apply next_kept | with_reducible apply endKept_next
      | with_reducible apply endKept_jump | with_reducible apply endKept_trap | with_reducible apply endKept_wait
      | with_reducible apply macOp_kept | with_reducible apply runInstr_kept | (with_reducible intro _)

end Sys2Proof.Machine
end

