-- ==== Sys2Proof/Laws/KeptRowsHouse.lean ====
section
/-! SUPPORT. What is kept (`Kept`): the remaining commands, and the tick. -/

namespace Sys2Proof.Machine

/-! ### RowsHouse -/

theorem execHicForce_kept {s₀ s : State} (h : Kept s₀ s) (src word val) :
    OutKept s₀ (execHicForce src word val s) := by
  unfold execHicForce
  try dsimp only
  repeat' first
      | with_reducible assumption | with_reducible apply next_kept | with_reducible apply rowWrite_kept

theorem execDmaAbort_kept {s₀ s : State} (h : Kept s₀ s) (src n val) :
    OutKept s₀ (execDmaAbort src n val s) := by
  unfold execDmaAbort
  try dsimp only
  repeat' first
      | with_reducible assumption | with_reducible apply next_kept | with_reducible apply rowWrite_kept

theorem execMeminit_kept {s₀ s : State} (h : Kept s₀ s) (src val) :
    OutKept s₀ (execMeminit src val s) := by
  unfold execMeminit
  try dsimp only
  repeat' first
      | with_reducible assumption | with_reducible apply next_kept | with_reducible apply rowWrite_kept

theorem execCoreRun_kept {s₀ s : State} (h : Kept s₀ s) (src core run val) :
    OutKept s₀ (execCoreRun src core run val s) := by
  unfold execCoreRun
  try dsimp only
  repeat' first
      | with_reducible assumption | with_reducible apply next_kept | with_reducible apply rowWrite_kept

theorem execDmaStart_kept {s₀ s : State} (h : Kept s₀ s) (src n val) :
    OutKept s₀ (execDmaStart src n val s) := by
  unfold execDmaStart
  try dsimp only
  repeat' first
      | with_reducible assumption | with_reducible apply next_kept | with_reducible apply rowWrite_kept

theorem execCoalesceTimeout_kept {s₀ s : State} (h : Kept s₀ s) (n) :
    OutKept s₀ (execCoalesceTimeout n s) := by
  unfold execCoalesceTimeout
  try dsimp only
  repeat' first
      | with_reducible assumption | with_reducible apply next_kept | with_reducible apply coalesceTimeout_kept
      | with_reducible apply whenHouse_kept | (with_reducible intro _)

theorem execTimerExpiry_kept {s₀ s : State} (h : Kept s₀ s) (n) :
    OutKept s₀ (execTimerExpiry n s) := by
  unfold execTimerExpiry
  try dsimp only
  repeat' first
      | with_reducible assumption | with_reducible apply next_kept | with_reducible apply timerExpiry_kept
      | with_reducible apply whenHouse_kept | (with_reducible intro _)

theorem execDmaComplete_kept {s₀ s : State} (h : Kept s₀ s) (n) :
    OutKept s₀ (execDmaComplete n s) := by
  unfold execDmaComplete
  try dsimp only
  repeat' first
      | with_reducible assumption | with_reducible apply next_kept | with_reducible apply dmaComplete_kept
      | with_reducible apply whenHouse_kept | (with_reducible intro _)

theorem execTimerEnable_kept {s₀ s : State} (h : Kept s₀ s) (src n val) :
    OutKept s₀ (execTimerEnable src n val s) := by
  unfold execTimerEnable
  try dsimp only
  repeat' first
      | with_reducible assumption | with_reducible apply next_kept | with_reducible apply rowWrite_kept

theorem execDmaBurst_kept {s₀ s : State} (h : Kept s₀ s) :
    OutKept s₀ (execDmaBurst s) := by
  unfold execDmaBurst
  try dsimp only
  repeat' first
      | with_reducible assumption | with_reducible apply next_kept | with_reducible apply dmaBurst_kept
      | with_reducible apply whenHouse_kept

theorem execHicSourceEdge_kept {s₀ s : State} (h : Kept s₀ s) (n) :
    OutKept s₀ (execHicSourceEdge n s) := by
  unfold execHicSourceEdge
  try dsimp only
  repeat' first
      | with_reducible assumption | with_reducible apply next_kept | with_reducible apply takeEdge_kept
      | with_reducible apply whenHouse_kept | (with_reducible intro _)

theorem execMramScrubRead_kept {s₀ s : State} (h : Kept s₀ s) :
    OutKept s₀ (execMramScrubRead s) := by
  unfold execMramScrubRead
  try dsimp only
  repeat' first
      | with_reducible assumption | with_reducible apply next_kept | with_reducible apply mramScrub_kept
      | with_reducible apply whenHouse_kept

theorem execHicCntclr_kept {s₀ s : State} (h : Kept s₀ s) :
    OutKept s₀ (execHicCntclr s) := by
  unfold execHicCntclr
  try dsimp only
  repeat' first
      | with_reducible assumption | with_reducible apply next_kept | with_reducible apply bitWrite_kept

theorem execWakeLatch_kept {s₀ s : State} (h : Kept s₀ s) (w) :
    OutKept s₀ (execWakeLatch w s) := by
  unfold execWakeLatch
  try dsimp only
  repeat' first
      | with_reducible assumption | with_reducible apply next_kept | with_reducible apply latchWake_kept | split

theorem execMemCntclr_kept {s₀ s : State} (h : Kept s₀ s) :
    OutKept s₀ (execMemCntclr s) := by
  unfold execMemCntclr
  try dsimp only
  repeat' first
      | with_reducible assumption | with_reducible apply next_kept | with_reducible apply bitWrite_kept

theorem execMeminitDone_kept {s₀ s : State} (h : Kept s₀ s) :
    OutKept s₀ (execMeminitDone s) := by
  unfold execMeminitDone
  try dsimp only
  repeat' first
      | with_reducible assumption | with_reducible apply next_kept | with_reducible apply meminitDone_kept
      | with_reducible apply whenHouse_kept

theorem execHouseScrubRead_kept {s₀ s : State} (h : Kept s₀ s) :
    OutKept s₀ (execHouseScrubRead s) := by
  unfold execHouseScrubRead
  try dsimp only
  repeat' first
      | with_reducible assumption | with_reducible apply next_kept | with_reducible apply houseScrub_kept
      | with_reducible apply whenHouse_kept

theorem execCoreReset_kept {s₀ s : State} (h : Kept s₀ s) (src core val) :
    OutKept s₀ (execCoreReset src core val s) := by
  unfold execCoreReset
  try dsimp only
  repeat' first
      | with_reducible assumption | with_reducible apply next_kept | with_reducible apply rowWrite_kept

theorem execWmapSet_kept {s₀ s : State} (h : Kept s₀ s) (src i val) :
    OutKept s₀ (execWmapSet src i val s) := by
  unfold execWmapSet
  try dsimp only
  repeat' first
      | with_reducible assumption | with_reducible apply next_kept | with_reducible apply rowWrite_kept

theorem execDramScrubRead_kept {s₀ s : State} (h : Kept s₀ s) :
    OutKept s₀ (execDramScrubRead s) := by
  unfold execDramScrubRead
  try dsimp only
  repeat' first
      | with_reducible assumption | with_reducible apply next_kept | with_reducible apply dramScrub_kept
      | with_reducible apply whenScan_kept

theorem execEccCntclr_kept {s₀ s : State} (h : Kept s₀ s) :
    OutKept s₀ (execEccCntclr s) := by
  unfold execEccCntclr
  try dsimp only
  repeat' first
      | with_reducible assumption | with_reducible apply next_kept | with_reducible apply bitWrite_kept

/-! ### RowsWeave -/

theorem execHelloReceive_kept {s₀ s : State} (h : Kept s₀ s) (port hello) :
    OutKept s₀ (execHelloReceive port hello s) := by
  unfold execHelloReceive
  try dsimp only
  repeat' first
      | with_reducible assumption | with_reducible apply next_kept | with_reducible apply helloReceive_kept
      | with_reducible apply whenHouse_kept | (with_reducible intro _)

theorem execLinkFrameReceive_kept {s₀ s : State} (h : Kept s₀ s) (port seq ack crcOk packet) :
    OutKept s₀ (execLinkFrameReceive port seq ack crcOk packet s) := by
  unfold execLinkFrameReceive
  try dsimp only
  repeat' first
      | with_reducible assumption | with_reducible apply next_kept | with_reducible apply linkFrame_kept
      | with_reducible apply whenHouse_kept | (with_reducible intro _)

theorem execGapTimeout_kept {s₀ s : State} (h : Kept s₀ s) (qid) :
    OutKept s₀ (execGapTimeout qid s) := by
  unfold execGapTimeout
  try dsimp only
  repeat' first
      | with_reducible assumption | with_reducible apply next_kept | with_reducible apply gapTimeout_kept
      | with_reducible apply whenHouse_kept | (with_reducible intro _)

theorem execHelloSend_kept {s₀ s : State} (h : Kept s₀ s) (port) :
    OutKept s₀ (execHelloSend port s) := by
  unfold execHelloSend
  try dsimp only
  repeat' first
      | with_reducible assumption | with_reducible apply next_kept | with_reducible apply helloSend_kept
      | with_reducible apply whenHouse_kept | (with_reducible intro _)

theorem execVidloadMeasure_kept {s₀ s : State} (h : Kept s₀ s) (port load) :
    OutKept s₀ (execVidloadMeasure port load s) := by
  unfold execVidloadMeasure
  try dsimp only
  repeat' first
      | with_reducible assumption | with_reducible apply next_kept | with_reducible apply videoLoad_kept
      | with_reducible apply whenHouse_kept | (with_reducible intro _)

theorem execGeometryItem_kept {s₀ s : State} (h : Kept s₀ s) :
    OutKept s₀ (execGeometryItem s) := by
  unfold execGeometryItem
  try dsimp only
  repeat' first
      | with_reducible assumption | with_reducible apply next_kept | with_reducible apply geometryItem_kept
      | with_reducible apply whenHouse_kept

theorem execDrawerItem_kept {s₀ s : State} (h : Kept s₀ s) :
    OutKept s₀ (execDrawerItem s) := by
  unfold execDrawerItem
  try dsimp only
  repeat' first
      | with_reducible assumption | with_reducible apply next_kept | with_reducible apply drawerItem_kept
      | with_reducible apply whenHouse_kept

theorem execPortRetrain_kept {s₀ s : State} (h : Kept s₀ s) (port cause) :
    OutKept s₀ (execPortRetrain port cause s) := by
  unfold execPortRetrain
  try dsimp only
  repeat' first
      | with_reducible assumption | with_reducible apply next_kept | with_reducible apply portRetrain_kept
      | with_reducible apply whenHouse_kept | (with_reducible intro _)

theorem execSliceDecode_kept {s₀ s : State} (h : Kept s₀ s) (qid) :
    OutKept s₀ (execSliceDecode qid s) := by
  unfold execSliceDecode
  try dsimp only
  repeat' first
      | with_reducible assumption | with_reducible apply next_kept | with_reducible apply sliceDecode_kept
      | with_reducible apply whenScan_kept | (with_reducible intro _)

theorem execLinkTrainingDone_kept {s₀ s : State} (h : Kept s₀ s) (port ok) :
    OutKept s₀ (execLinkTrainingDone port ok s) := by
  unfold execLinkTrainingDone
  try dsimp only
  repeat' first
      | with_reducible assumption | with_reducible apply next_kept | with_reducible apply linkTrained_kept
      | with_reducible apply whenHouse_kept | (with_reducible intro _)

theorem execPortRetrainDone_kept {s₀ s : State} (h : Kept s₀ s) (port ok) :
    OutKept s₀ (execPortRetrainDone port ok s) := by
  unfold execPortRetrainDone
  try dsimp only
  repeat' first
      | with_reducible assumption | with_reducible apply next_kept | with_reducible apply portRetrained_kept
      | with_reducible apply whenHouse_kept | (with_reducible intro _)

theorem execGeometryActivationDone_kept {s₀ s : State} (h : Kept s₀ s) :
    OutKept s₀ (execGeometryActivationDone s) := by
  unfold execGeometryActivationDone
  try dsimp only
  repeat' first
      | with_reducible assumption | with_reducible apply next_kept | with_reducible apply geometryActivationDone_kept
      | with_reducible apply whenHouse_kept

theorem execRoutePlanItem_kept {s₀ s : State} (h : Kept s₀ s) :
    OutKept s₀ (execRoutePlanItem s) := by
  unfold execRoutePlanItem
  try dsimp only
  repeat' first
      | with_reducible assumption | with_reducible apply next_kept | with_reducible apply routePlanItem_kept
      | with_reducible apply whenHouse_kept

theorem execDrawerHeadWrite_kept {s₀ s : State} (h : Kept s₀ s) (src val) :
    OutKept s₀ (execDrawerHeadWrite src val s) := by
  unfold execDrawerHeadWrite
  try dsimp only
  repeat' first
      | with_reducible assumption | with_reducible apply next_kept | with_reducible apply rowWrite_kept

theorem execLinkNakReceive_kept {s₀ s : State} (h : Kept s₀ s) (port seq) :
    OutKept s₀ (execLinkNakReceive port seq s) := by
  unfold execLinkNakReceive
  try dsimp only
  repeat' first
      | with_reducible assumption | with_reducible apply next_kept | with_reducible apply linkNak_kept
      | with_reducible apply whenHouse_kept | (with_reducible intro _)

theorem execDrawerEnable_kept {s₀ s : State} (h : Kept s₀ s) (src val) :
    OutKept s₀ (execDrawerEnable src val s) := by
  unfold execDrawerEnable
  try dsimp only
  repeat' first
      | with_reducible assumption | with_reducible apply next_kept | with_reducible apply rowWrite_kept

theorem execLinkSignalDetect_kept {s₀ s : State} (h : Kept s₀ s) (port) :
    OutKept s₀ (execLinkSignalDetect port s) := by
  unfold execLinkSignalDetect
  try dsimp only
  repeat' first
      | with_reducible assumption | with_reducible apply next_kept | with_reducible apply linkSignal_kept
      | with_reducible apply whenHouse_kept | (with_reducible intro _)

theorem execHelloTimeout_kept {s₀ s : State} (h : Kept s₀ s) (port) :
    OutKept s₀ (execHelloTimeout port s) := by
  unfold execHelloTimeout
  try dsimp only
  repeat' first
      | with_reducible assumption | with_reducible apply next_kept | with_reducible apply helloTimeout_kept
      | with_reducible apply whenHouse_kept | (with_reducible intro _)

theorem execPacketReceive_kept {s₀ s : State} (h : Kept s₀ s) (port) :
    OutKept s₀ (execPacketReceive port s) := by
  unfold execPacketReceive
  try dsimp only
  repeat' first
      | with_reducible assumption | with_reducible apply next_kept | with_reducible apply packetReceive_kept
      | with_reducible apply whenHouse_kept | (with_reducible intro _)

theorem execOutItemSend_kept {s₀ s : State} (h : Kept s₀ s) (qid) :
    OutKept s₀ (execOutItemSend qid s) := by
  unfold execOutItemSend
  try dsimp only
  repeat' first
      | with_reducible assumption | with_reducible apply next_kept | with_reducible apply outItemSend_kept
      | with_reducible apply whenHouse_kept | (with_reducible intro _)

theorem execRouteEntryWrite_kept {s₀ s : State} (h : Kept s₀ s) (src val) :
    OutKept s₀ (execRouteEntryWrite src val s) := by
  unfold execRouteEntryWrite
  try dsimp only
  repeat' first
      | with_reducible assumption | with_reducible apply next_kept | with_reducible apply rowWrite_kept

theorem execLinkTrainingRetry_kept {s₀ s : State} (h : Kept s₀ s) (port) :
    OutKept s₀ (execLinkTrainingRetry port s) := by
  unfold execLinkTrainingRetry
  try dsimp only
  repeat' first
      | with_reducible assumption | with_reducible apply next_kept | with_reducible apply linkRetry_kept
      | with_reducible apply whenHouse_kept | (with_reducible intro _)

theorem execLinkDelayMeasured_kept {s₀ s : State} (h : Kept s₀ s) (port delay) :
    OutKept s₀ (execLinkDelayMeasured port delay s) := by
  unfold execLinkDelayMeasured
  try dsimp only
  repeat' first
      | with_reducible assumption | with_reducible apply next_kept | with_reducible apply linkDelay_kept
      | with_reducible apply whenHouse_kept | (with_reducible intro _)

theorem execPortRetrainCmd_kept {s₀ s : State} (h : Kept s₀ s) (src port val) :
    OutKept s₀ (execPortRetrainCmd src port val s) := by
  unfold execPortRetrainCmd
  try dsimp only
  repeat' first
      | with_reducible assumption | with_reducible apply next_kept | with_reducible apply rowWrite_kept

theorem execPositionWrite_kept {s₀ s : State} (h : Kept s₀ s) (via val) :
    OutKept s₀ (execPositionWrite via val s) := by
  unfold execPositionWrite
  try dsimp only
  repeat' first
      | with_reducible assumption | with_reducible apply next_kept | with_reducible apply askWrite_kept
      | with_reducible apply rowWrite_kept | split

theorem execLinkholdExpiry_kept {s₀ s : State} (h : Kept s₀ s) (port) :
    OutKept s₀ (execLinkholdExpiry port s) := by
  unfold execLinkholdExpiry
  try dsimp only
  repeat' first
      | with_reducible assumption | with_reducible apply next_kept | with_reducible apply linkholdExpiry_kept
      | with_reducible apply whenHouse_kept | (with_reducible intro _)

theorem execDrawerDisable_kept {s₀ s : State} (h : Kept s₀ s) (src val) :
    OutKept s₀ (execDrawerDisable src val s) := by
  unfold execDrawerDisable
  try dsimp only
  repeat' first
      | with_reducible assumption | with_reducible apply next_kept | with_reducible apply rowWrite_kept

theorem execGeometryActivate_kept {s₀ s : State} (h : Kept s₀ s) :
    OutKept s₀ (execGeometryActivate s) := by
  unfold execGeometryActivate
  try dsimp only
  repeat' first
      | with_reducible assumption | with_reducible apply next_kept | with_reducible apply geometryActivate_kept
      | with_reducible apply whenHouse_kept

theorem execWeaveCntclr_kept {s₀ s : State} (h : Kept s₀ s) :
    OutKept s₀ (execWeaveCntclr s) := by
  unfold execWeaveCntclr
  try dsimp only
  repeat' first
      | with_reducible assumption | with_reducible apply next_kept | with_reducible apply bitWrite_kept

/-! ### RowsTwin -/

theorem execPatchRequest_kept {s₀ s : State} (h : Kept s₀ s) :
    OutKept s₀ (execPatchRequest s) := by
  unfold execPatchRequest
  try dsimp only
  repeat' first
      | with_reducible assumption | with_reducible apply next_kept | with_reducible apply patchRequest_kept
      | with_reducible apply whenHouse_kept

theorem execYield_kept {s₀ s : State} (h : Kept s₀ s) (via val) :
    OutKept s₀ (execYield via val s) := by
  unfold execYield
  try dsimp only
  repeat' first
      | with_reducible assumption | with_reducible apply next_kept | with_reducible apply askWrite_kept
      | with_reducible apply rowWrite_kept | split

theorem execHeartbeatMiss_kept {s₀ s : State} (h : Kept s₀ s) :
    OutKept s₀ (execHeartbeatMiss s) := by
  unfold execHeartbeatMiss
  try dsimp only
  repeat' first
      | with_reducible assumption | with_reducible apply next_kept | with_reducible apply heartbeatMiss_kept
      | with_reducible apply whenHouse_kept

theorem execHeartbeatReceive_kept {s₀ s : State} (h : Kept s₀ s) :
    OutKept s₀ (execHeartbeatReceive s) := by
  unfold execHeartbeatReceive
  try dsimp only
  repeat' first
      | with_reducible assumption | with_reducible apply next_kept | with_reducible apply heartbeatReceive_kept
      | with_reducible apply whenHouse_kept

theorem execSelfCheckResult_kept {s₀ s : State} (h : Kept s₀ s) :
    OutKept s₀ (execSelfCheckResult s) := by
  unfold execSelfCheckResult
  try dsimp only
  repeat' first
      | with_reducible assumption | with_reducible apply next_kept | with_reducible apply selfCheckResult_kept
      | with_reducible apply whenHouse_kept

theorem execSelfCheckTimeout_kept {s₀ s : State} (h : Kept s₀ s) :
    OutKept s₀ (execSelfCheckTimeout s) := by
  unfold execSelfCheckTimeout
  try dsimp only
  repeat' first
      | with_reducible assumption | with_reducible apply next_kept | with_reducible apply selfCheckTimeout_kept
      | with_reducible apply whenHouse_kept

theorem execTakeRequest_kept {s₀ s : State} (h : Kept s₀ s) :
    OutKept s₀ (execTakeRequest s) := by
  unfold execTakeRequest
  try dsimp only
  repeat' first
      | with_reducible assumption | with_reducible apply next_kept | with_reducible apply takeRequest_kept
      | with_reducible apply whenHouse_kept

theorem execBridgeOutageTimeout_kept {s₀ s : State} (h : Kept s₀ s) :
    OutKept s₀ (execBridgeOutageTimeout s) := by
  unfold execBridgeOutageTimeout
  try dsimp only
  repeat' first
      | with_reducible assumption | with_reducible apply next_kept | with_reducible apply bridgeOutage_kept
      | with_reducible apply whenScan_kept

theorem execSignatureExpiry_kept {s₀ s : State} (h : Kept s₀ s) :
    OutKept s₀ (execSignatureExpiry s) := by
  unfold execSignatureExpiry
  try dsimp only
  repeat' first
      | with_reducible assumption | with_reducible apply next_kept | with_reducible apply signatureExpiry_kept
      | with_reducible apply whenHouse_kept

theorem execTake_kept {s₀ s : State} (h : Kept s₀ s) (via val) :
    OutKept s₀ (execTake via val s) := by
  unfold execTake
  try dsimp only
  repeat' first
      | with_reducible assumption | with_reducible apply next_kept | with_reducible apply askWrite_kept
      | with_reducible apply rowWrite_kept | split

theorem execTwinCntclr_kept {s₀ s : State} (h : Kept s₀ s) :
    OutKept s₀ (execTwinCntclr s) := by
  unfold execTwinCntclr
  try dsimp only
  repeat' first
      | with_reducible assumption | with_reducible apply next_kept | with_reducible apply bitWrite_kept

theorem execPatchTimeout_kept {s₀ s : State} (h : Kept s₀ s) (qid) :
    OutKept s₀ (execPatchTimeout qid s) := by
  unfold execPatchTimeout
  try dsimp only
  repeat' first
      | with_reducible assumption | with_reducible apply next_kept | with_reducible apply patchTimeout_kept
      | with_reducible apply whenHouse_kept | (with_reducible intro _)

theorem execPatchData_kept {s₀ s : State} (h : Kept s₀ s) :
    OutKept s₀ (execPatchData s) := by
  unfold execPatchData
  try dsimp only
  repeat' first
      | with_reducible assumption | with_reducible apply next_kept | with_reducible apply patchData_kept
      | with_reducible apply whenHouse_kept

theorem execHeartbeatSend_kept {s₀ s : State} (h : Kept s₀ s) :
    OutKept s₀ (execHeartbeatSend s) := by
  unfold execHeartbeatSend
  try dsimp only
  repeat' first
      | with_reducible assumption | with_reducible apply next_kept | with_reducible apply heartbeatSend_kept
      | with_reducible apply whenHouse_kept

theorem execSelfCheckDone_kept {s₀ s : State} (h : Kept s₀ s) (pass) :
    OutKept s₀ (execSelfCheckDone pass s) := by
  unfold execSelfCheckDone
  try dsimp only
  repeat' first
      | with_reducible assumption | with_reducible apply next_kept | with_reducible apply selfCheckDone_kept
      | with_reducible apply whenHouse_kept | (with_reducible intro _)

theorem execLineSignatureReceive_kept {s₀ s : State} (h : Kept s₀ s) :
    OutKept s₀ (execLineSignatureReceive s) := by
  unfold execLineSignatureReceive
  try dsimp only
  repeat' first
      | with_reducible assumption | with_reducible apply next_kept | with_reducible apply signatureReceive_kept
      | with_reducible apply whenHouse_kept

/-! ### RowsAudio -/

theorem execAudioSample_kept {s₀ s : State} (h : Kept s₀ s) :
    OutKept s₀ (execAudioSample s) := by
  unfold execAudioSample
  try dsimp only
  repeat' first
      | with_reducible assumption | with_reducible apply next_kept | with_reducible apply audioSample_kept
      | with_reducible apply whenHouse_kept

theorem execAudioEventDue_kept {s₀ s : State} (h : Kept s₀ s) :
    OutKept s₀ (execAudioEventDue s) := by
  unfold execAudioEventDue
  try dsimp only
  repeat' first
      | with_reducible assumption | with_reducible apply next_kept | with_reducible apply eventDue_kept
      | with_reducible apply whenHouse_kept

theorem execVoiceStop_kept {s₀ s : State} (h : Kept s₀ s) (src voice val) :
    OutKept s₀ (execVoiceStop src voice val s) := by
  unfold execVoiceStop
  try dsimp only
  repeat' first
      | with_reducible assumption | with_reducible apply next_kept | with_reducible apply rowWrite_kept

theorem execVoiceFetch_kept {s₀ s : State} (h : Kept s₀ s) (voice k) :
    OutKept s₀ (execVoiceFetch voice k s) := by
  unfold execVoiceFetch
  try dsimp only
  repeat' first
      | with_reducible assumption | with_reducible apply next_kept | with_reducible apply voiceFetch_kept
      | with_reducible apply whenHouse_kept | (with_reducible intro _)

theorem execVoiceStart_kept {s₀ s : State} (h : Kept s₀ s) (src voice val) :
    OutKept s₀ (execVoiceStart src voice val s) := by
  unfold execVoiceStart
  try dsimp only
  repeat' first
      | with_reducible assumption | with_reducible apply next_kept | with_reducible apply rowWrite_kept

theorem execAudioCntclr_kept {s₀ s : State} (h : Kept s₀ s) :
    OutKept s₀ (execAudioCntclr s) := by
  unfold execAudioCntclr
  try dsimp only
  repeat' first
      | with_reducible assumption | with_reducible apply next_kept | with_reducible apply bitWrite_kept

theorem execD48Sample_kept {s₀ s : State} (h : Kept s₀ s) :
    OutKept s₀ (execD48Sample s) := by
  unfold execD48Sample
  try dsimp only
  repeat' first
      | with_reducible assumption | with_reducible apply next_kept | with_reducible apply d48Sample_kept
      | with_reducible apply whenHouse_kept

theorem execAudioEventPush_kept {s₀ s : State} (h : Kept s₀ s) (src val) :
    OutKept s₀ (execAudioEventPush src val s) := by
  unfold execAudioEventPush
  try dsimp only
  repeat' first
      | with_reducible assumption | with_reducible apply next_kept | with_reducible apply rowWrite_kept

theorem execCodecFrame_kept {s₀ s : State} (h : Kept s₀ s) (left right near) :
    OutKept s₀ (execCodecFrame left right near s) := by
  unfold execCodecFrame
  try dsimp only
  repeat' first
      | with_reducible assumption | with_reducible apply next_kept | with_reducible apply codecFrame_kept
      | with_reducible apply whenHouse_kept | (with_reducible intro _)

theorem execStreamSizeWrite_kept {s₀ s : State} (h : Kept s₀ s) (src n val) :
    OutKept s₀ (execStreamSizeWrite src n val s) := by
  unfold execStreamSizeWrite
  try dsimp only
  repeat' first
      | with_reducible assumption | with_reducible apply next_kept | with_reducible apply rowWrite_kept

/-! ### RowsDict -/

theorem execDresserCommit_kept {s₀ s : State} (h : Kept s₀ s) (cls egr epoch) :
    OutKept s₀ (execDresserCommit cls egr epoch s) := by
  unfold execDresserCommit
  try dsimp only
  repeat' first
      | with_reducible assumption | with_reducible apply next_kept | with_reducible apply askWrite_kept

theorem execStoreVoid_kept {s₀ s : State} (h : Kept s₀ s) (cls egr) :
    OutKept s₀ (execStoreVoid cls egr s) := by
  unfold execStoreVoid
  try dsimp only
  repeat' first
      | with_reducible assumption | with_reducible apply next_kept | with_reducible apply askWrite_kept

theorem execImageWrite_kept {s₀ s : State} (h : Kept s₀ s) (cls egr image) :
    OutKept s₀ (execImageWrite cls egr image s) := by
  unfold execImageWrite
  try dsimp only
  repeat' first
      | with_reducible assumption | with_reducible apply next_kept | with_reducible apply askWrite_kept

theorem execDescribe_kept {s₀ s : State} (h : Kept s₀ s) (cls egr index sub) :
    OutKept s₀ (execDescribe cls egr index sub s) := by
  unfold execDescribe
  try dsimp only
  repeat' first
      | with_reducible assumption | with_reducible apply next_kept | with_reducible apply submit_kept
      | with_reducible apply whenHouse_kept | (with_reducible intro _)

theorem execResultReady_kept {s₀ s : State} (h : Kept s₀ s) (sealing) :
    OutKept s₀ (execResultReady sealing s) := by
  unfold execResultReady
  try dsimp only
  repeat' first
      | with_reducible assumption | with_reducible apply next_kept | with_reducible apply resultReady_kept
      | with_reducible apply whenHouse_kept | (with_reducible intro _)

theorem execHouseRequestGo_kept {s₀ s : State} (h : Kept s₀ s) (src val) :
    OutKept s₀ (execHouseRequestGo src val s) := by
  unfold execHouseRequestGo
  try dsimp only
  repeat' first
      | with_reducible assumption | with_reducible apply next_kept | with_reducible apply rowWrite_kept

theorem execContentKeyWrite_kept {s₀ s : State} (h : Kept s₀ s) (cls egr slot wrapped) :
    OutKept s₀ (execContentKeyWrite cls egr slot wrapped s) := by
  unfold execContentKeyWrite
  try dsimp only
  repeat' first
      | with_reducible assumption | with_reducible apply next_kept | with_reducible apply askWrite_kept

theorem execFirmwareAnswerTimeout_kept {s₀ s : State} (h : Kept s₀ s) :
    OutKept s₀ (execFirmwareAnswerTimeout s) := by
  unfold execFirmwareAnswerTimeout
  try dsimp only
  repeat' first
      | with_reducible assumption | with_reducible apply next_kept | with_reducible apply firmwareTimeout_kept
      | with_reducible apply pumpAll_kept | with_reducible apply whenHouse_kept | (with_reducible intro _)

theorem execHouseResetRequest_kept {s₀ s : State} (h : Kept s₀ s) (cls egr) :
    OutKept s₀ (execHouseResetRequest cls egr s) := by
  unfold execHouseResetRequest
  try dsimp only
  repeat' first
      | with_reducible assumption | with_reducible apply next_kept | with_reducible apply askWrite_kept

theorem execDictionaryRead_kept {s₀ s : State} (h : Kept s₀ s) (cls egr index sub) :
    OutKept s₀ (execDictionaryRead cls egr index sub s) := by
  unfold execDictionaryRead
  try dsimp only
  repeat' first
      | with_reducible assumption | with_reducible apply next_kept | with_reducible apply submit_kept
      | with_reducible apply whenHouse_kept | (with_reducible intro _)

theorem execResultTake_kept {s₀ s : State} (h : Kept s₀ s) (cls egr sealing) :
    OutKept s₀ (execResultTake cls egr sealing s) := by
  unfold execResultTake
  try dsimp only
  repeat' first
      | with_reducible assumption | with_reducible apply next_kept | with_reducible apply submit_kept
      | with_reducible apply whenHouse_kept | (with_reducible intro _)

theorem execSegment_kept {s₀ s : State} (h : Kept s₀ s) (id data) :
    OutKept s₀ (execSegment id data s) := by
  unfold execSegment
  try dsimp only
  repeat' first
      | with_reducible assumption | with_reducible apply next_kept | with_reducible apply segment_kept
      | with_reducible apply whenHouse_kept | (with_reducible intro _)

theorem execServiceAck_kept {s₀ s : State} (h : Kept s₀ s) (id data) :
    OutKept s₀ (execServiceAck id data s) := by
  unfold execServiceAck
  try dsimp only
  repeat' first
      | with_reducible assumption | with_reducible apply next_kept | with_reducible apply serviceAck_kept
      | with_reducible apply whenHouse_kept | (with_reducible intro _)

theorem execFirmwareAnswer_kept {s₀ s : State} (h : Kept s₀ s) (src val) :
    OutKept s₀ (execFirmwareAnswer src val s) := by
  unfold execFirmwareAnswer
  try dsimp only
  repeat' first
      | with_reducible assumption | with_reducible apply next_kept | with_reducible apply rowWrite_kept

theorem execKeyAgreement_kept {s₀ s : State} (h : Kept s₀ s) (cls egr point) :
    OutKept s₀ (execKeyAgreement cls egr point s) := by
  unfold execKeyAgreement
  try dsimp only
  repeat' first
      | with_reducible assumption | with_reducible apply next_kept | with_reducible apply askWrite_kept

theorem execDresserCntclr_kept {s₀ s : State} (h : Kept s₀ s) :
    OutKept s₀ (execDresserCntclr s) := by
  unfold execDresserCntclr
  try dsimp only
  repeat' first
      | with_reducible assumption | with_reducible apply next_kept | with_reducible apply bitWrite_kept

theorem execDictionaryWrite_kept {s₀ s : State} (h : Kept s₀ s) (cls egr index sub data) :
    OutKept s₀ (execDictionaryWrite cls egr index sub data s) := by
  unfold execDictionaryWrite
  try dsimp only
  repeat' first
      | with_reducible assumption | with_reducible apply next_kept | with_reducible apply askWrite_kept

theorem execTransferTimeout_kept {s₀ s : State} (h : Kept s₀ s) :
    OutKept s₀ (execTransferTimeout s) := by
  unfold execTransferTimeout
  try dsimp only
  repeat' first
      | with_reducible assumption | with_reducible apply next_kept | with_reducible apply transferTimeout_kept
      | with_reducible apply whenHouse_kept

theorem execResultTrigger_kept {s₀ s : State} (h : Kept s₀ s) (cls egr sealing val) :
    OutKept s₀ (execResultTrigger cls egr sealing val s) := by
  unfold execResultTrigger
  try dsimp only
  repeat' first
      | with_reducible assumption | with_reducible apply next_kept | with_reducible apply askWrite_kept

theorem execServiceAbort_kept {s₀ s : State} (h : Kept s₀ s) (id data) :
    OutKept s₀ (execServiceAbort id data s) := by
  unfold execServiceAbort
  try dsimp only
  repeat' first
      | with_reducible assumption | with_reducible apply next_kept | with_reducible apply serviceAbort_kept
      | with_reducible apply whenHouse_kept | (with_reducible intro _)

theorem execServiceRequest_kept {s₀ s : State} (h : Kept s₀ s) (id data) :
    OutKept s₀ (execServiceRequest id data s) := by
  unfold execServiceRequest
  try dsimp only
  repeat' first
      | with_reducible assumption | with_reducible apply next_kept | with_reducible apply serviceRequest_kept
      | with_reducible apply whenHouse_kept | (with_reducible intro _)

theorem execStagingTimeout_kept {s₀ s : State} (h : Kept s₀ s) (slot) :
    OutKept s₀ (execStagingTimeout slot s) := by
  unfold execStagingTimeout
  try dsimp only
  repeat' first
      | with_reducible assumption | with_reducible apply next_kept | with_reducible apply stagingTimeout_kept
      | with_reducible apply whenHouse_kept | (with_reducible intro _)

theorem execBusOff_kept {s₀ s : State} (h : Kept s₀ s) (event) :
    OutKept s₀ (execBusOff event s) := by
  unfold execBusOff
  try dsimp only
  repeat' first
      | with_reducible assumption | with_reducible apply next_kept | with_reducible apply busOff_kept
      | with_reducible apply whenHouse_kept | (with_reducible intro _)

theorem execFabricRequest_kept {s₀ s : State} (h : Kept s₀ s) :
    OutKept s₀ (execFabricRequest s) := by
  unfold execFabricRequest
  try dsimp only
  repeat' first
      | with_reducible assumption | with_reducible apply next_kept | with_reducible apply fabricRequest_kept
      | with_reducible apply whenHouse_kept

theorem execSealKeyWrite_kept {s₀ s : State} (h : Kept s₀ s) (cls egr wrapped) :
    OutKept s₀ (execSealKeyWrite cls egr wrapped s) := by
  unfold execSealKeyWrite
  try dsimp only
  repeat' first
      | with_reducible assumption | with_reducible apply next_kept | with_reducible apply askWrite_kept

/-! ### RowsSecurity -/

theorem execScantest_kept {s₀ s : State} (h : Kept s₀ s) :
    OutKept s₀ (execScantest s) := by
  unfold execScantest
  try dsimp only
  repeat' first
      | with_reducible assumption | with_reducible apply next_kept | with_reducible apply benchWhen_kept
      | with_reducible apply scanTest_kept

theorem execAlarmConfigLock_kept {s₀ s : State} (h : Kept s₀ s) (src val) :
    OutKept s₀ (execAlarmConfigLock src val s) := by
  unfold execAlarmConfigLock
  try dsimp only
  repeat' first
      | with_reducible assumption | with_reducible apply next_kept | with_reducible apply rowWrite_kept

theorem execInject_kept {s₀ s : State} (h : Kept s₀ s) (packet) :
    OutKept s₀ (execInject packet s) := by
  unfold execInject
  try dsimp only
  repeat' first
      | with_reducible assumption | with_reducible apply next_kept | with_reducible apply benchWhen_kept
      | with_reducible apply originateAs_kept | (with_reducible intro _)

theorem execBypass_kept {s₀ s : State} (h : Kept s₀ s) (data) :
    OutKept s₀ (execBypass data s) := by
  unfold execBypass
  try dsimp only
  repeat' first
      | with_reducible assumption | with_reducible apply next_kept | with_reducible apply bypass_kept | split

theorem execSamplePreload_kept {s₀ s : State} (h : Kept s₀ s) (data) :
    OutKept s₀ (execSamplePreload data s) := by
  unfold execSamplePreload
  try dsimp only
  repeat' first
      | with_reducible assumption | with_reducible apply next_kept | with_reducible apply benchWhen_kept
      | with_reducible apply captureBoundary_kept | (simp only [kept_mk]; with_reducible apply Parts.of)
      | (with_reducible intro _)

theorem execBchreq_kept {s₀ s : State} (h : Kept s₀ s) (cmd index sub data) :
    OutKept s₀ (execBchreq cmd index sub data s) := by
  unfold execBchreq
  try dsimp only
  repeat' first
      | with_reducible assumption | with_reducible apply next_kept | with_reducible apply benchWhen_kept
      | with_reducible apply submit_kept | (with_reducible intro _)

theorem execClamp_kept {s₀ s : State} (h : Kept s₀ s) :
    OutKept s₀ (execClamp s) := by
  unfold execClamp
  try dsimp only
  repeat' first
      | with_reducible assumption | with_reducible apply next_kept | with_reducible apply boundaryScan_kept

theorem execNonceRead_kept {s₀ s : State} (h : Kept s₀ s) (cls egr) :
    OutKept s₀ (execNonceRead cls egr s) := by
  unfold execNonceRead
  try dsimp only
  repeat' first
      | with_reducible assumption | with_reducible apply next_kept | with_reducible apply submit_kept
      | with_reducible apply whenHouse_kept | (with_reducible intro _)

theorem execMemap_kept {s₀ s : State} (h : Kept s₀ s) (view direct write addr val) :
    OutKept s₀ (execMemap view direct write addr val s) := by
  unfold execMemap
  try dsimp only
  repeat' first
      | with_reducible assumption | with_reducible apply next_kept | with_reducible apply benchRead_kept
      | with_reducible apply benchWhen_kept | with_reducible apply benchWrite_kept | split | (with_reducible intro _)

theorem execGuardClear_kept {s₀ s : State} (h : Kept s₀ s) (via val) :
    OutKept s₀ (execGuardClear via val s) := by
  unfold execGuardClear
  try dsimp only
  repeat' first
      | with_reducible assumption | with_reducible apply next_kept | with_reducible apply askWrite_kept
      | with_reducible apply rowWrite_kept | split

theorem execDebugClose_kept {s₀ s : State} (h : Kept s₀ s) (cls egr) :
    OutKept s₀ (execDebugClose cls egr s) := by
  unfold execDebugClose
  try dsimp only
  repeat' first
      | with_reducible assumption | with_reducible apply next_kept | with_reducible apply askWrite_kept

theorem execCoredbg_kept {s₀ s : State} (h : Kept s₀ s) (core op) :
    OutKept s₀ (execCoredbg core op s) := by
  unfold execCoredbg
  try dsimp only
  repeat' first
      | with_reducible assumption | with_reducible apply next_kept | with_reducible apply benchWhen_kept
      | with_reducible apply coreDebug_kept | (with_reducible intro _)

theorem execHighz_kept {s₀ s : State} (h : Kept s₀ s) :
    OutKept s₀ (execHighz s) := by
  unfold execHighz
  try dsimp only
  repeat' first
      | with_reducible assumption | with_reducible apply next_kept | with_reducible apply boundaryScan_kept

theorem alarmRelease_kept {s₀ s : State} (h : Kept s₀ s) (n) :
    Kept s₀ (alarmRelease s n) := by
  unfold alarmRelease
  try dsimp only
  repeat' first
      | with_reducible assumption | with_reducible apply alarm_kept | with_reducible apply released_kept
      | with_reducible apply setF_kept | split

theorem execUnlockToken_kept {s₀ s : State} (h : Kept s₀ s) (cls egr token) :
    OutKept s₀ (execUnlockToken cls egr token s) := by
  unfold execUnlockToken
  try dsimp only
  repeat' first
      | with_reducible assumption | with_reducible apply next_kept | with_reducible apply thenWake_kept
      | with_reducible apply alarmRelease_kept | with_reducible apply askWrite_kept | with_reducible apply submit_kept
      | with_reducible apply thenWake_kept | with_reducible apply whenHouse_kept
      | (simp only [kept_mk]; with_reducible apply Parts.of) | split | (with_reducible intro _)

theorem execIdcode_kept {s₀ s : State} (h : Kept s₀ s) :
    OutKept s₀ (execIdcode s) := by
  unfold execIdcode
  try dsimp only
  repeat' first
      | with_reducible assumption | with_reducible apply next_kept | with_reducible apply benchOut_kept
      | with_reducible apply leaveBoundary_kept | split

theorem execLeaseExpiry_kept {s₀ s : State} (h : Kept s₀ s) :
    OutKept s₀ (execLeaseExpiry s) := by
  unfold execLeaseExpiry
  try dsimp only
  repeat' first
      | with_reducible assumption | with_reducible apply next_kept | with_reducible apply leaseExpiry_kept
      | with_reducible apply whenHouse_kept

theorem execSealClear_kept {s₀ s : State} (h : Kept s₀ s) (cls egr) :
    OutKept s₀ (execSealClear cls egr s) := by
  unfold execSealClear
  try dsimp only
  repeat' first
      | with_reducible assumption | with_reducible apply next_kept | with_reducible apply askWrite_kept

theorem execNonceExpiry_kept {s₀ s : State} (h : Kept s₀ s) :
    OutKept s₀ (execNonceExpiry s) := by
  unfold execNonceExpiry
  try dsimp only
  repeat' first
      | with_reducible assumption | with_reducible apply next_kept | with_reducible apply nonceExpiry_kept
      | with_reducible apply whenHouse_kept

theorem execAlarm_kept {s₀ s : State} (h : Kept s₀ s) (source) :
    OutKept s₀ (execAlarm source s) := by
  unfold execAlarm
  try dsimp only
  repeat' first
      | with_reducible assumption | with_reducible apply next_kept | with_reducible apply thenWake_kept
      | with_reducible apply alarmRelease_kept

theorem execExtest_kept {s₀ s : State} (h : Kept s₀ s) (data) :
    OutKept s₀ (execExtest data s) := by
  unfold execExtest
  try dsimp only
  repeat' first
      | with_reducible assumption | with_reducible apply next_kept | with_reducible apply boundaryScan_kept
      | with_reducible apply captureBoundary_kept | (simp only [kept_mk]; with_reducible apply Parts.of) | split

theorem execAlarmSourceInactive_kept {s₀ s : State} (h : Kept s₀ s) (source) :
    OutKept s₀ (execAlarmSourceInactive source s) := by
  unfold execAlarmSourceInactive
  try dsimp only
  repeat' first
      | with_reducible assumption | with_reducible apply next_kept | with_reducible apply alarmInactive_kept

/-! ### RowsPower -/

theorem execPadLock_kept {s₀ s : State} (h : Kept s₀ s) (src word val) :
    OutKept s₀ (execPadLock src word val s) := by
  unfold execPadLock
  try dsimp only
  repeat' first
      | with_reducible assumption | with_reducible apply next_kept | with_reducible apply rowWrite_kept

theorem execHoldRelease_kept {s₀ s : State} (h : Kept s₀ s) (src val) :
    OutKept s₀ (execHoldRelease src val s) := by
  unfold execHoldRelease
  try dsimp only
  repeat' first
      | with_reducible assumption | with_reducible apply next_kept | with_reducible apply rowWrite_kept

theorem whenIsland_kept {s₀ s : State} (h : Kept s₀ s) (f) (hf : ∀ t, Kept s₀ t → Kept s₀ (f t)) :
    OutKept s₀ (whenIsland s f) := by
  unfold whenIsland
  try dsimp only
  repeat' first
      | with_reducible assumption | with_reducible apply next_kept | with_reducible apply hf | split

theorem execInputShutdown_kept {s₀ s : State} (h : Kept s₀ s) :
    OutKept s₀ (execInputShutdown s) := by
  unfold execInputShutdown
  try dsimp only
  repeat' first
      | with_reducible assumption | with_reducible apply next_kept | with_reducible apply inputShutdown_kept
      | with_reducible apply whenHouse_kept

theorem execIslandPowerLoss_kept {s₀ s : State} (h : Kept s₀ s) :
    OutKept s₀ (execIslandPowerLoss s) := by
  unfold execIslandPowerLoss
  try dsimp only
  repeat' first
      | with_reducible assumption | with_reducible apply next_kept | with_reducible apply islandLoss_kept

theorem whenRunning_kept {s₀ s : State} (h : Kept s₀ s) (f) (hf : ∀ t, Kept s₀ t → Kept s₀ (f t)) :
    OutKept s₀ (whenRunning s f) := by
  unfold whenRunning
  try dsimp only
  repeat' first
      | with_reducible assumption | with_reducible apply next_kept | with_reducible apply hf | split

theorem execResetPin_kept {s₀ s : State} (h : Kept s₀ s) :
    OutKept s₀ (execResetPin s) := by
  unfold execResetPin
  try dsimp only
  repeat' first
      | with_reducible assumption | with_reducible apply next_kept | with_reducible apply resetPin_kept
      | with_reducible apply whenRunning_kept

theorem execThermalThreshold_kept {s₀ s : State} (h : Kept s₀ s) (tscan thouse) :
    OutKept s₀ (execThermalThreshold tscan thouse s) := by
  unfold execThermalThreshold
  try dsimp only
  repeat' first
      | with_reducible assumption | with_reducible apply next_kept | with_reducible apply thermal_kept
      | with_reducible apply whenHouse_kept | (with_reducible intro _)

theorem execPowerRequest_kept {s₀ s : State} (h : Kept s₀ s) (via req) :
    OutKept s₀ (execPowerRequest via req s) := by
  unfold execPowerRequest
  try dsimp only
  repeat' first
      | with_reducible assumption | with_reducible apply next_kept | with_reducible apply askWrite_kept
      | with_reducible apply rowWrite_kept | split

theorem execIslandTimerExpiry_kept {s₀ s : State} (h : Kept s₀ s) :
    OutKept s₀ (execIslandTimerExpiry s) := by
  unfold execIslandTimerExpiry
  try dsimp only
  repeat' first
      | with_reducible assumption | with_reducible apply next_kept | with_reducible apply thenWake_kept
      | with_reducible apply islandExpiry_kept | with_reducible apply thenWake_kept | with_reducible apply whenIsland_kept
      | (with_reducible intro _)

theorem execVinRise_kept {s₀ s : State} (h : Kept s₀ s) (slot) :
    OutKept s₀ (execVinRise slot s) := by
  unfold execVinRise
  try dsimp only
  repeat' first
      | with_reducible assumption | with_reducible apply next_kept | with_reducible apply vinRise_kept

theorem execPadLockKey_kept {s₀ s : State} (h : Kept s₀ s) (src val) :
    OutKept s₀ (execPadLockKey src val s) := by
  unfold execPadLockKey
  try dsimp only
  repeat' first
      | with_reducible assumption | with_reducible apply next_kept | with_reducible apply rowWrite_kept

theorem execUartReceive_kept {s₀ s : State} (h : Kept s₀ s) (byte) :
    OutKept s₀ (execUartReceive byte s) := by
  unfold execUartReceive
  try dsimp only
  repeat' first
      | with_reducible assumption | with_reducible apply next_kept | with_reducible apply uartReceive_kept
      | with_reducible apply whenHouse_kept | (with_reducible intro _)

theorem execAdcConvert_kept {s₀ s : State} (h : Kept s₀ s) (src val) :
    OutKept s₀ (execAdcConvert src val s) := by
  unfold execAdcConvert
  try dsimp only
  repeat' first
      | with_reducible assumption | with_reducible apply next_kept | with_reducible apply rowWrite_kept

theorem execAdcDone_kept {s₀ s : State} (h : Kept s₀ s) (code) :
    OutKept s₀ (execAdcDone code s) := by
  unfold execAdcDone
  try dsimp only
  repeat' first
      | with_reducible assumption | with_reducible apply next_kept | with_reducible apply adcDone_kept
      | with_reducible apply whenHouse_kept | (with_reducible intro _)

theorem execUartRead_kept {s₀ s : State} (h : Kept s₀ s) (src) :
    OutKept s₀ (execUartRead src s) := by
  unfold execUartRead
  try dsimp only
  repeat' first
      | with_reducible assumption | with_reducible apply next_kept | with_reducible apply rowRead_kept

theorem execPadCntclr_kept {s₀ s : State} (h : Kept s₀ s) :
    OutKept s₀ (execPadCntclr s) := by
  unfold execPadCntclr
  try dsimp only
  repeat' first
      | with_reducible assumption | with_reducible apply next_kept | with_reducible apply bitWrite_kept

theorem execBankVioWrite_kept {s₀ s : State} (h : Kept s₀ s) (src bank val) :
    OutKept s₀ (execBankVioWrite src bank val s) := by
  unfold execBankVioWrite
  try dsimp only
  repeat' first
      | with_reducible assumption | with_reducible apply next_kept | with_reducible apply rowWrite_kept

theorem execWake_kept {s₀ s : State} (h : Kept s₀ s) (w) :
    OutKept s₀ (execWake w s) := by
  unfold execWake
  try dsimp only
  repeat' first
      | with_reducible assumption | with_reducible apply next_kept | with_reducible apply thenWake_kept
      | with_reducible apply thenWake_kept | with_reducible apply wakeEdge_kept | with_reducible apply whenIsland_kept
      | (with_reducible intro _)

theorem execInputRecovery_kept {s₀ s : State} (h : Kept s₀ s) (vin) :
    OutKept s₀ (execInputRecovery vin s) := by
  unfold execInputRecovery
  try dsimp only
  repeat' first
      | with_reducible assumption | with_reducible apply next_kept | with_reducible apply inputRecovery_kept
      | with_reducible apply whenHouse_kept | (with_reducible intro _)

theorem execPadFunctionHoldEnd_kept {s₀ s : State} (h : Kept s₀ s) (pad) :
    OutKept s₀ (execPadFunctionHoldEnd pad s) := by
  unfold execPadFunctionHoldEnd
  try dsimp only
  repeat' first
      | with_reducible assumption | with_reducible apply next_kept | with_reducible apply padHoldEnd_kept
      | with_reducible apply whenHouse_kept | (with_reducible intro _)

theorem execSoftStartDone_kept {s₀ s : State} (h : Kept s₀ s) :
    OutKept s₀ (execSoftStartDone s) := by
  unfold execSoftStartDone
  try dsimp only
  repeat' first
      | with_reducible assumption | with_reducible apply next_kept | with_reducible apply softStartDone_kept

theorem execInputLossWarning_kept {s₀ s : State} (h : Kept s₀ s) (vin) :
    OutKept s₀ (execInputLossWarning vin s) := by
  unfold execInputLossWarning
  try dsimp only
  repeat' first
      | with_reducible assumption | with_reducible apply next_kept | with_reducible apply inputLoss_kept
      | with_reducible apply whenHouse_kept | (with_reducible intro _)

theorem execBankRailSlewEnd_kept {s₀ s : State} (h : Kept s₀ s) (bank) :
    OutKept s₀ (execBankRailSlewEnd bank s) := by
  unfold execBankRailSlewEnd
  try dsimp only
  repeat' first
      | with_reducible assumption | with_reducible apply next_kept | with_reducible apply bankSlewEnd_kept
      | with_reducible apply whenHouse_kept | (with_reducible intro _)

theorem execUartTransmit_kept {s₀ s : State} (h : Kept s₀ s) (src val) :
    OutKept s₀ (execUartTransmit src val s) := by
  unfold execUartTransmit
  try dsimp only
  repeat' first
      | with_reducible assumption | with_reducible apply next_kept | with_reducible apply rowWrite_kept

theorem execUartByteTransmitted_kept {s₀ s : State} (h : Kept s₀ s) :
    OutKept s₀ (execUartByteTransmitted s) := by
  unfold execUartByteTransmitted
  try dsimp only
  repeat' first
      | with_reducible assumption | with_reducible apply next_kept | with_reducible apply uartByteSent_kept
      | with_reducible apply whenHouse_kept

theorem execBootComplete_kept {s₀ s : State} (h : Kept s₀ s) :
    OutKept s₀ (execBootComplete s) := by
  unfold execBootComplete
  try dsimp only
  repeat' first
      | with_reducible assumption | with_reducible apply next_kept | with_reducible apply bootComplete_kept
      | with_reducible apply whenHouse_kept

theorem execConverterStart_kept {s₀ s : State} (h : Kept s₀ s) :
    OutKept s₀ (execConverterStart s) := by
  unfold execConverterStart
  try dsimp only
  repeat' first
      | with_reducible assumption | with_reducible apply next_kept | with_reducible apply converterStart_kept

theorem execPowerTransitionDone_kept {s₀ s : State} (h : Kept s₀ s) :
    OutKept s₀ (execPowerTransitionDone s) := by
  unfold execPowerTransitionDone
  try dsimp only
  repeat' first
      | with_reducible assumption | with_reducible apply next_kept | with_reducible apply thenWake_kept
      | with_reducible apply transitionDone_kept | with_reducible apply whenRunning_kept | (with_reducible intro _)

/-! ### RowsRecorder -/

theorem execPerfClear_kept {s₀ s : State} (h : Kept s₀ s) (src n val) :
    OutKept s₀ (execPerfClear src n val s) := by
  unfold execPerfClear
  try dsimp only
  repeat' first
      | with_reducible assumption | with_reducible apply next_kept | with_reducible apply rowWrite_kept

theorem execRectotlRead_kept {s₀ s : State} (h : Kept s₀ s) (src) :
    OutKept s₀ (execRectotlRead src s) := by
  unfold execRectotlRead
  try dsimp only
  repeat' first
      | with_reducible assumption | with_reducible apply next_kept | with_reducible apply rowRead_kept

theorem execCalendarSet_kept {s₀ s : State} (h : Kept s₀ s) (cls egr val) :
    OutKept s₀ (execCalendarSet cls egr val s) := by
  unfold execCalendarSet
  try dsimp only
  repeat' first
      | with_reducible assumption | with_reducible apply next_kept | with_reducible apply askWrite_kept

theorem execControlSlotWrite_kept {s₀ s : State} (h : Kept s₀ s) :
    OutKept s₀ (execControlSlotWrite s) := by
  unfold execControlSlotWrite
  try dsimp only
  repeat' first
      | with_reducible assumption | with_reducible apply next_kept | with_reducible apply controlSlot_kept
      | with_reducible apply whenHouse_kept

theorem execRecorderCntclr_kept {s₀ s : State} (h : Kept s₀ s) :
    OutKept s₀ (execRecorderCntclr s) := by
  unfold execRecorderCntclr
  try dsimp only
  repeat' first
      | with_reducible assumption | with_reducible apply next_kept | with_reducible apply bitWrite_kept

theorem execRecordNext_kept {s₀ s : State} (h : Kept s₀ s) (src val) :
    OutKept s₀ (execRecordNext src val s) := by
  unfold execRecordNext
  try dsimp only
  repeat' first
      | with_reducible assumption | with_reducible apply next_kept | with_reducible apply rowWrite_kept

theorem execRecordSelect_kept {s₀ s : State} (h : Kept s₀ s) (src val) :
    OutKept s₀ (execRecordSelect src val s) := by
  unfold execRecordSelect
  try dsimp only
  repeat' first
      | with_reducible assumption | with_reducible apply next_kept | with_reducible apply rowWrite_kept

theorem execTokenRefill_kept {s₀ s : State} (h : Kept s₀ s) :
    OutKept s₀ (execTokenRefill s) := by
  unfold execTokenRefill
  try dsimp only
  repeat' first
      | with_reducible assumption | with_reducible apply next_kept | with_reducible apply refillToken_kept
      | with_reducible apply whenHouse_kept

theorem execRecorderClear_kept {s₀ s : State} (h : Kept s₀ s) (cls egr val) :
    OutKept s₀ (execRecorderClear cls egr val s) := by
  unfold execRecorderClear
  try dsimp only
  repeat' first
      | with_reducible assumption | with_reducible apply next_kept | with_reducible apply askWrite_kept

theorem execRecordPut_kept {s₀ s : State} (h : Kept s₀ s) (src val) :
    OutKept s₀ (execRecordPut src val s) := by
  unfold execRecordPut
  try dsimp only
  repeat' first
      | with_reducible assumption | with_reducible apply next_kept | with_reducible apply rowWrite_kept

theorem execPerfLoRead_kept {s₀ s : State} (h : Kept s₀ s) (src n) :
    OutKept s₀ (execPerfLoRead src n s) := by
  unfold execPerfLoRead
  try dsimp only
  repeat' first
      | with_reducible assumption | with_reducible apply next_kept | with_reducible apply rowRead_kept

theorem execRecordWrite_kept {s₀ s : State} (h : Kept s₀ s) (stored) :
    OutKept s₀ (execRecordWrite stored s) := by
  unfold execRecordWrite
  try dsimp only
  repeat' first
      | with_reducible assumption | with_reducible apply next_kept | with_reducible apply whenHouse_kept
      | with_reducible apply writeRecord_kept | (with_reducible intro _)

/-! ### Tick -/

theorem opsecTick_kept {s₀ s : State} (h : Kept s₀ s) :
    Kept s₀ (opsecTick s) := by
  unfold opsecTick
  try dsimp only
  repeat' first
      | with_reducible assumption | (simp only [kept_mk]; with_reducible apply Parts.of) | split

theorem calendarTick_kept {s₀ s : State} (h : Kept s₀ s) :
    Kept s₀ (calendarTick s) := by
  unfold calendarTick
  try dsimp only
  repeat' first
      | with_reducible assumption | (simp only [kept_mk]; with_reducible apply Parts.of) | split

theorem resetTick_kept {s₀ s : State} (h : Kept s₀ s) :
    Kept s₀ (resetTick s) := by
  unfold resetTick
  try dsimp only
  repeat' first
      | with_reducible assumption | with_reducible apply houseDieReset_kept | split

theorem houseTick_kept {s₀ s : State} (h : Kept s₀ s) :
    Kept s₀ (houseTick s) := by
  unfold houseTick
  try dsimp only
  repeat' first
      | with_reducible assumption | with_reducible apply calendarTick_kept | with_reducible apply initTick_kept
      | with_reducible apply opsecTick_kept | with_reducible apply resetTick_kept | with_reducible apply timerTick_kept

theorem scanTick_kept {s₀ s : State} (h : Kept s₀ s) :
    Kept s₀ (scanTick s) := by
  unfold scanTick
  try dsimp only
  repeat' first
      | with_reducible assumption | with_reducible apply beamTick_kept | with_reducible apply holdTick_kept
      | with_reducible apply perfCount_kept | with_reducible apply slewTick_kept

theorem trainTick_kept {s₀ s : State} (h : Kept s₀ s) :
    Kept s₀ (trainTick s) := by
  unfold trainTick
  try dsimp only
  repeat' first
      | with_reducible assumption | with_reducible apply setF_kept | (simp only [kept_mk]; with_reducible apply Parts.of)
      | split

theorem idleTick_kept {s₀ s : State} (h : Kept s₀ s) :
    Kept s₀ (idleTick s) := by
  unfold idleTick
  try dsimp only
  repeat' first
      | with_reducible assumption | with_reducible apply houseTick_kept | with_reducible apply islandTick_kept
      | with_reducible apply scanTick_kept | with_reducible apply trainTick_kept
      | (simp only [kept_mk]; with_reducible apply Parts.of) | split

end Sys2Proof.Machine
end

