-- ==== Sys2Proof/Laws/KeptExec.lean ====
section
/-! SUPPORT. What is kept (`Kept`): every command. -/

namespace Sys2Proof.Machine

/-- No command touches the queue or the variant, and each keeps the canonical forms. -/
theorem exec_kept {s₀ s : State} (h : Kept s₀ s) (i : Instr) : OutKept s₀ (exec i s) :=
  match i with
  | .registerWrite _ _ _ => execRegisterWrite_kept h _ _ _
  | .rsvwrClear => execRsvwrClear_kept h
  | .powerOnReset => execPowerOnReset_kept h
  | .houseDieReset => execHouseDieReset_kept h
  | .scanDieReset => execScanDieReset_kept h
  | .frameStoreClearDone => execFrameStoreClearDone_kept h
  | .bridgeFlitReceive _ _ _ => execBridgeFlitReceive_kept h _ _ _
  | .bridgeNakReceive _ _ => execBridgeNakReceive_kept h _ _
  | .bridgeAckReceive _ _ => execBridgeAckReceive_kept h _ _
  | .bridgeLinkFault _ => execBridgeLinkFault_kept h _
  | .bridgeRetrain _ _ => execBridgeRetrain_kept h _ _
  | .bridgeCntclr => execBridgeCntclr_kept h
  | .bridgeTrainingDone _ _ _ => execBridgeTrainingDone_kept h _ _ _
  | .pwApply _ => execPwApply_kept h _
  | .rdRequest => execRdRequest_kept h
  | .readTimeout _ => execReadTimeout_kept h _
  | .framePulse _ => execFramePulse_kept h _
  | .lineClockEdge => execLineClockEdge_kept h
  | .frameCountSet _ _ _ => execFrameCountSet_kept h _ _ _
  | .beaconSend _ => execBeaconSend_kept h _
  | .beaconReceive _ => execBeaconReceive_kept h _
  | .holdoverEntry => execHoldoverEntry_kept h
  | .freeEntry => execFreeEntry_kept h
  | .anchorChange => execAnchorChange_kept h
  | .frameStart => execFrameStart_kept h
  | .watermarkFire _ => execWatermarkFire_kept h _
  | .beamEnable _ _ => execBeamEnable_kept h _ _
  | .reacq _ _ => execReacq_kept h _ _
  | .beacntClear => execBeacntClear_kept h
  | .beamFormatWrite _ _ _ => execBeamFormatWrite_kept h _ _ _
  | .beamposLoRead _ => execBeamposLoRead_kept h _
  | .composeStart _ _ => execComposeStart_kept h _ _
  | .clusterLineCompose _ _ _ => execClusterLineCompose_kept h _ _ _
  | .composeEnd => execComposeEnd_kept h
  | .lineFlip _ _ => execLineFlip_kept h _ _
  | .globalFlip _ => execGlobalFlip_kept h _
  | .feedFlip _ _ => execFeedFlip_kept h _ _
  | .dramWriteApply _ _ _ => execDramWriteApply_kept h _ _ _
  | .objectEvaluate => execObjectEvaluate_kept h
  | .objectTableWrite _ _ _ => execObjectTableWrite_kept h _ _ _
  | .rescanDone => execRescanDone_kept h
  | .patternCacheInvalidate => execPatternCacheInvalidate_kept h
  | .patternCacheCntclr => execPatternCacheCntclr_kept h
  | .cmgo _ _ => execCmgo_kept h _ _
  | .cmArrival => execCmArrival_kept h
  | .admission _ => execAdmission_kept h _
  | .commitDeadline _ => execCommitDeadline_kept h _
  | .commitAccept _ => execCommitAccept_kept h _
  | .fenceqRead _ => execFenceqRead_kept h _
  | .cmcntClear => execCmcntClear_kept h
  | .egressSample _ => execEgressSample_kept h _
  | .egressCommand _ _ _ => execEgressCommand_kept h _ _ _
  | .egressLibraryWrite _ _ _ => execEgressLibraryWrite_kept h _ _ _
  | .egressLibraryVerify => execEgressLibraryVerify_kept h
  | .egctlLock _ _ => execEgctlLock_kept h _ _
  | .trestleWalk _ _ => execTrestleWalk_kept h _ _
  | .walkDone => execWalkDone_kept h
  | .trestleCntclr => execTrestleCntclr_kept h
  | .refreshCycleStart _ _ => execRefreshCycleStart_kept h _ _
  | .rowSlotStart _ => execRowSlotStart_kept h _
  | .planeSlotStart _ => execPlaneSlotStart_kept h _
  | .runStart _ _ _ => execRunStart_kept h _ _ _
  | .runStop _ _ _ => execRunStop_kept h _ _ _
  | .pgCntclr => execPgCntclr_kept h
  | .calCntclr => execCalCntclr_kept h
  | .claim _ _ => execClaim_kept h _ _
  | .ownBChange _ => execOwnBChange_kept h _
  | .tarbExpiry => execTarbExpiry_kept h
  | .feedCntclr => execFeedCntclr_kept h
  | .copyGo _ _ => execCopyGo_kept h _ _
  | .copyRowRelease => execCopyRowRelease_kept h
  | .copySegment => execCopySegment_kept h
  | .copyRowDone => execCopyRowDone_kept h
  | .copyAbort _ _ => execCopyAbort_kept h _ _
  | .copyCntclr => execCopyCntclr_kept h
  | .nop _ => execNop_kept h _
  | .wait _ => execWait_kept h _
  | .waitWake _ => execWaitWake_kept h _
  | .sync _ => execSync_kept h _
  | .syncDone _ => execSyncDone_kept h _
  | .trap _ _ => execTrap_kept h _ _
  | .reti _ => execReti_kept h _
  | .mfc _ _ _ => execMfc_kept h _ _ _
  | .mtc _ _ _ => execMtc_kept h _ _ _
  | .rep _ _ => execRep_kept h _ _
  | .mov _ _ _ => execMov_kept h _ _ _
  | .movr _ _ _ => execMovr_kept h _ _ _
  | .ldi _ _ _ => execLdi_kept h _ _ _
  | .ldc _ _ _ _ => execLdc_kept h _ _ _ _
  | .retag _ _ _ _ => execRetag_kept h _ _ _ _
  | .gettag _ _ _ => execGettag_kept h _ _ _
  | .mfrc _ _ => execMfrc_kept h _ _
  | .mtrc _ _ => execMtrc_kept h _ _
  | .mfbk _ _ _ => execMfbk_kept h _ _ _
  | .mtbk _ _ _ => execMtbk_kept h _ _ _
  | .ld _ _ _ _ => execLd_kept h _ _ _ _
  | .st _ _ _ _ => execSt_kept h _ _ _ _
  | .ldr _ _ _ _ => execLdr_kept h _ _ _ _
  | .str _ _ _ _ => execStr_kept h _ _ _ _
  | .ldx _ _ _ _ _ => execLdx_kept h _ _ _ _ _
  | .stx _ _ _ _ _ => execStx_kept h _ _ _ _ _
  | .ldrx _ _ _ _ _ => execLdrx_kept h _ _ _ _ _
  | .strx _ _ _ _ _ => execStrx_kept h _ _ _ _ _
  | .lea _ _ _ _ _ => execLea_kept h _ _ _ _ _
  | .xchg _ _ _ _ _ => execXchg_kept h _ _ _ _ _
  | .cas _ _ _ _ => execCas_kept h _ _ _ _
  | .movm _ _ _ => execMovm_kept h _ _ _
  | .push _ _ => execPush_kept h _ _
  | .pop _ _ => execPop_kept h _ _
  | .loadReturn _ => execLoadReturn_kept h _
  | .add _ _ _ _ => execAdd_kept h _ _ _ _
  | .sub _ _ _ _ => execSub_kept h _ _ _ _
  | .and _ _ _ _ => execAnd_kept h _ _ _ _
  | .or _ _ _ _ => execOr_kept h _ _ _ _
  | .xor _ _ _ _ => execXor_kept h _ _ _ _
  | .shl _ _ _ _ => execShl_kept h _ _ _ _
  | .shr _ _ _ _ => execShr_kept h _ _ _ _
  | .sar _ _ _ _ => execSar_kept h _ _ _ _
  | .mul _ _ _ _ => execMul_kept h _ _ _ _
  | .divs _ _ _ _ => execDivs_kept h _ _ _ _
  | .divu _ _ _ _ => execDivu_kept h _ _ _ _
  | .cmp _ _ _ => execCmp_kept h _ _ _
  | .neg _ _ _ => execNeg_kept h _ _ _
  | .addi _ _ _ _ => execAddi_kept h _ _ _ _
  | .andi _ _ _ _ => execAndi_kept h _ _ _ _
  | .ori _ _ _ _ => execOri_kept h _ _ _ _
  | .xori _ _ _ _ => execXori_kept h _ _ _ _
  | .shli _ _ _ _ => execShli_kept h _ _ _ _
  | .shri _ _ _ _ => execShri_kept h _ _ _ _
  | .sari _ _ _ _ => execSari_kept h _ _ _ _
  | .cmpi _ _ _ => execCmpi_kept h _ _ _
  | .adda _ _ _ _ => execAdda_kept h _ _ _ _
  | .suba _ _ _ _ => execSuba_kept h _ _ _ _
  | .cmpeq _ _ _ => execCmpeq_kept h _ _ _
  | .fadd _ _ _ _ => execFadd_kept h _ _ _ _
  | .fsub _ _ _ _ => execFsub_kept h _ _ _ _
  | .fmul _ _ _ _ => execFmul_kept h _ _ _ _
  | .fdiv _ _ _ _ => execFdiv_kept h _ _ _ _
  | .fcmp _ _ _ => execFcmp_kept h _ _ _
  | .itof _ _ _ => execItof_kept h _ _ _
  | .ftoi _ _ _ => execFtoi_kept h _ _ _
  | .padd _ _ _ _ => execPadd_kept h _ _ _ _
  | .pmul _ _ _ _ => execPmul_kept h _ _ _ _
  | .pover _ _ _ _ => execPover_kept h _ _ _ _
  | .pext _ _ _ _ => execPext_kept h _ _ _ _
  | .pins _ _ _ _ _ => execPins_kept h _ _ _ _ _
  | .bcmp _ _ _ => execBcmp_kept h _ _ _
  | .bdiff _ _ _ _ => execBdiff_kept h _ _ _ _
  | .badd _ _ _ _ => execBadd_kept h _ _ _ _
  | .bnow _ _ => execBnow_kept h _ _
  | .mac _ _ _ _ => execMac_kept h _ _ _ _
  | .fmac _ _ _ _ => execFmac_kept h _ _ _ _
  | .mtq _ _ _ => execMtq_kept h _ _ _
  | .mfq _ _ _ _ _ => execMfq_kept h _ _ _ _ _
  | .clrq _ _ => execClrq_kept h _ _
  | .br _ _ _ => execBr_kept h _ _ _
  | .jmp _ _ => execJmp_kept h _ _
  | .jmpr _ _ => execJmpr_kept h _ _
  | .call _ _ _ => execCall_kept h _ _ _
  | .callr _ _ _ => execCallr_kept h _ _ _
  | .ret _ => execRet_kept h _
  | .trclr _ => execTrclr_kept h _
  | .trput _ _ => execTrput_kept h _ _
  | .trget _ _ _ _ _ _ => execTrget_kept h _ _ _ _ _ _
  | .trwalk _ _ => execTrwalk_kept h _ _
  | .undefinedOpcode _ _ => execUndefinedOpcode_kept h _ _
  | .interruptEntry _ => execInterruptEntry_kept h _
  | .coreReset _ _ _ => execCoreReset_kept h _ _ _
  | .coreRun _ _ _ _ => execCoreRun_kept h _ _ _ _
  | .hicSourceEdge _ => execHicSourceEdge_kept h _
  | .coalesceTimeout _ => execCoalesceTimeout_kept h _
  | .hicForce _ _ _ => execHicForce_kept h _ _ _
  | .hicCntclr => execHicCntclr_kept h
  | .wakeLatch _ => execWakeLatch_kept h _
  | .timerEnable _ _ _ => execTimerEnable_kept h _ _ _
  | .timerExpiry _ => execTimerExpiry_kept h _
  | .dmaStart _ _ _ => execDmaStart_kept h _ _ _
  | .dmaBurst => execDmaBurst_kept h
  | .dmaComplete _ => execDmaComplete_kept h _
  | .dmaAbort _ _ _ => execDmaAbort_kept h _ _ _
  | .houseScrubRead => execHouseScrubRead_kept h
  | .dramScrubRead => execDramScrubRead_kept h
  | .mramScrubRead => execMramScrubRead_kept h
  | .meminit _ _ => execMeminit_kept h _ _
  | .meminitDone => execMeminitDone_kept h
  | .wmapSet _ _ _ => execWmapSet_kept h _ _ _
  | .memCntclr => execMemCntclr_kept h
  | .eccCntclr => execEccCntclr_kept h
  | .linkSignalDetect _ => execLinkSignalDetect_kept h _
  | .linkTrainingDone _ _ => execLinkTrainingDone_kept h _ _
  | .linkTrainingRetry _ => execLinkTrainingRetry_kept h _
  | .linkDelayMeasured _ _ => execLinkDelayMeasured_kept h _ _
  | .helloSend _ => execHelloSend_kept h _
  | .helloReceive _ _ => execHelloReceive_kept h _ _
  | .helloTimeout _ => execHelloTimeout_kept h _
  | .linkFrameReceive _ _ _ _ _ => execLinkFrameReceive_kept h _ _ _ _ _
  | .linkNakReceive _ _ => execLinkNakReceive_kept h _ _
  | .portRetrain _ _ => execPortRetrain_kept h _ _
  | .portRetrainCmd _ _ _ => execPortRetrainCmd_kept h _ _ _
  | .portRetrainDone _ _ => execPortRetrainDone_kept h _ _
  | .packetReceive _ => execPacketReceive_kept h _
  | .linkholdExpiry _ => execLinkholdExpiry_kept h _
  | .vidloadMeasure _ _ => execVidloadMeasure_kept h _ _
  | .positionWrite _ _ => execPositionWrite_kept h _ _
  | .geometryItem => execGeometryItem_kept h
  | .geometryActivate => execGeometryActivate_kept h
  | .geometryActivationDone => execGeometryActivationDone_kept h
  | .routePlanItem => execRoutePlanItem_kept h
  | .routeEntryWrite _ _ => execRouteEntryWrite_kept h _ _
  | .weaveCntclr => execWeaveCntclr_kept h
  | .drawerItem => execDrawerItem_kept h
  | .gapTimeout _ => execGapTimeout_kept h _
  | .drawerEnable _ _ => execDrawerEnable_kept h _ _
  | .drawerDisable _ _ => execDrawerDisable_kept h _ _
  | .drawerHeadWrite _ _ => execDrawerHeadWrite_kept h _ _
  | .outItemSend _ => execOutItemSend_kept h _
  | .sliceDecode _ => execSliceDecode_kept h _
  | .heartbeatSend => execHeartbeatSend_kept h
  | .heartbeatReceive => execHeartbeatReceive_kept h
  | .heartbeatMiss => execHeartbeatMiss_kept h
  | .lineSignatureReceive => execLineSignatureReceive_kept h
  | .signatureExpiry => execSignatureExpiry_kept h
  | .selfCheckDone _ => execSelfCheckDone_kept h _
  | .selfCheckResult => execSelfCheckResult_kept h
  | .selfCheckTimeout => execSelfCheckTimeout_kept h
  | .bridgeOutageTimeout => execBridgeOutageTimeout_kept h
  | .take _ _ => execTake_kept h _ _
  | .yield _ _ => execYield_kept h _ _
  | .takeRequest => execTakeRequest_kept h
  | .patchRequest => execPatchRequest_kept h
  | .patchData => execPatchData_kept h
  | .patchTimeout _ => execPatchTimeout_kept h _
  | .twinCntclr => execTwinCntclr_kept h
  | .audioSample => execAudioSample_kept h
  | .voiceFetch _ _ => execVoiceFetch_kept h _ _
  | .d48Sample => execD48Sample_kept h
  | .codecFrame _ _ _ => execCodecFrame_kept h _ _ _
  | .audioEventPush _ _ => execAudioEventPush_kept h _ _
  | .audioEventDue => execAudioEventDue_kept h
  | .voiceStart _ _ _ => execVoiceStart_kept h _ _ _
  | .voiceStop _ _ _ => execVoiceStop_kept h _ _ _
  | .streamSizeWrite _ _ _ => execStreamSizeWrite_kept h _ _ _
  | .audioCntclr => execAudioCntclr_kept h
  | .dictionaryRead _ _ _ _ => execDictionaryRead_kept h _ _ _ _
  | .dictionaryWrite _ _ _ _ _ => execDictionaryWrite_kept h _ _ _ _ _
  | .describe _ _ _ _ => execDescribe_kept h _ _ _ _
  | .firmwareAnswer _ _ => execFirmwareAnswer_kept h _ _
  | .firmwareAnswerTimeout => execFirmwareAnswerTimeout_kept h
  | .houseRequestGo _ _ => execHouseRequestGo_kept h _ _
  | .dresserCntclr => execDresserCntclr_kept h
  | .storeVoid _ _ => execStoreVoid_kept h _ _
  | .resultTrigger _ _ _ _ => execResultTrigger_kept h _ _ _ _
  | .resultReady _ => execResultReady_kept h _
  | .resultTake _ _ _ => execResultTake_kept h _ _ _
  | .serviceRequest _ _ => execServiceRequest_kept h _ _
  | .segment _ _ => execSegment_kept h _ _
  | .serviceAck _ _ => execServiceAck_kept h _ _
  | .serviceAbort _ _ => execServiceAbort_kept h _ _
  | .transferTimeout => execTransferTimeout_kept h
  | .busOff _ => execBusOff_kept h _
  | .fabricRequest => execFabricRequest_kept h
  | .stagingTimeout _ => execStagingTimeout_kept h _
  | .dresserCommit _ _ _ => execDresserCommit_kept h _ _ _
  | .keyAgreement _ _ _ => execKeyAgreement_kept h _ _ _
  | .contentKeyWrite _ _ _ _ => execContentKeyWrite_kept h _ _ _ _
  | .sealKeyWrite _ _ _ => execSealKeyWrite_kept h _ _ _
  | .alarm _ => execAlarm_kept h _
  | .guardClear _ _ => execGuardClear_kept h _ _
  | .sealClear _ _ => execSealClear_kept h _ _
  | .alarmConfigLock _ _ => execAlarmConfigLock_kept h _ _
  | .nonceRead _ _ => execNonceRead_kept h _ _
  | .nonceExpiry => execNonceExpiry_kept h
  | .unlockToken _ _ _ => execUnlockToken_kept h _ _ _
  | .debugClose _ _ => execDebugClose_kept h _ _
  | .leaseExpiry => execLeaseExpiry_kept h
  | .bypass _ => execBypass_kept h _
  | .idcode => execIdcode_kept h
  | .samplePreload _ => execSamplePreload_kept h _
  | .bchreq _ _ _ _ => execBchreq_kept h _ _ _ _
  | .extest _ => execExtest_kept h _
  | .clamp => execClamp_kept h
  | .highz => execHighz_kept h
  | .inject _ => execInject_kept h _
  | .memap _ _ _ _ _ => execMemap_kept h _ _ _ _ _
  | .coredbg _ _ => execCoredbg_kept h _ _
  | .scantest => execScantest_kept h
  | .powerRequest _ _ => execPowerRequest_kept h _ _
  | .powerTransitionDone => execPowerTransitionDone_kept h
  | .wake _ => execWake_kept h _
  | .islandTimerExpiry => execIslandTimerExpiry_kept h
  | .padLockKey _ _ => execPadLockKey_kept h _ _
  | .padLock _ _ _ => execPadLock_kept h _ _ _
  | .holdRelease _ _ => execHoldRelease_kept h _ _
  | .padCntclr => execPadCntclr_kept h
  | .adcConvert _ _ => execAdcConvert_kept h _ _
  | .adcDone _ => execAdcDone_kept h _
  | .bankVioWrite _ _ _ => execBankVioWrite_kept h _ _ _
  | .uartReceive _ => execUartReceive_kept h _
  | .uartRead _ => execUartRead_kept h _
  | .uartTransmit _ _ => execUartTransmit_kept h _ _
  | .resetPin => execResetPin_kept h
  | .vinRise _ => execVinRise_kept h _
  | .converterStart => execConverterStart_kept h
  | .softStartDone => execSoftStartDone_kept h
  | .inputLossWarning _ => execInputLossWarning_kept h _
  | .inputRecovery _ => execInputRecovery_kept h _
  | .inputShutdown => execInputShutdown_kept h
  | .thermalThreshold _ _ => execThermalThreshold_kept h _ _
  | .recordWrite _ => execRecordWrite_kept h _
  | .tokenRefill => execTokenRefill_kept h
  | .controlSlotWrite => execControlSlotWrite_kept h
  | .recordSelect _ _ => execRecordSelect_kept h _ _
  | .recordNext _ _ => execRecordNext_kept h _ _
  | .rectotlRead _ => execRectotlRead_kept h _
  | .recorderClear _ _ _ => execRecorderClear_kept h _ _ _
  | .recordPut _ _ => execRecordPut_kept h _ _
  | .recorderCntclr => execRecorderCntclr_kept h
  | .calendarSet _ _ _ => execCalendarSet_kept h _ _ _
  | .perfClear _ _ _ => execPerfClear_kept h _ _ _
  | .perfLoRead _ _ => execPerfLoRead_kept h _ _
  | .bootComplete => execBootComplete_kept h
  | .imageWrite _ _ _ => execImageWrite_kept h _ _ _
  | .houseResetRequest _ _ => execHouseResetRequest_kept h _ _
  | .alarmSourceInactive _ => execAlarmSourceInactive_kept h _
  | .islandPowerLoss => execIslandPowerLoss_kept h
  | .bankRailSlewEnd _ => execBankRailSlewEnd_kept h _
  | .padFunctionHoldEnd _ => execPadFunctionHoldEnd_kept h _
  | .uartByteTransmitted => execUartByteTransmitted_kept h

end Sys2Proof.Machine
end

