-- ==== Sys2Proof/Laws/Registers.lean ====
section
/-! SUPPORT. Laws of register writes: what each field of a word holds after a write by access code, and the write of one bit
field that leaves the others as they are. -/

namespace Sys2Proof.Machine

/-- A field of a table lies within its word. -/
abbrev FieldSpec.fits (g : FieldSpec) : Prop := g.lo ≤ g.hi ∧ g.hi < 32

/-- Two fields share no bit. -/
abbrev FieldSpec.apart (g h : FieldSpec) : Prop := g.hi < h.lo ∨ h.hi < g.lo

/-- A field that takes what is written. -/
abbrev FieldSpec.kept (g : FieldSpec) : Bool := g.access == .rw || g.access == .rwl

/-- The field list of a register: every field within the word, no two on one bit. -/
abbrev fieldsOk (fs : List FieldSpec) : Prop := (∀ g ∈ fs, g.fits) ∧ fs.Pairwise FieldSpec.apart

theorem bitsOf_eq {w x : Word} {hi lo : Nat} (h : lo ≤ hi) (h' : hi < 32)
    (e : ∀ i, lo ≤ i → i ≤ hi → w.getLsbD i = x.getLsbD i) : bitsOf w hi lo = bitsOf x hi lo := by
  apply Nat.eq_of_testBit_eq
  intro i
  rw [bitsOf_testBit _ _ _ _ h h', bitsOf_testBit _ _ _ _ h h']
  by_cases hi' : i + lo ≤ hi
  · rw [e (i + lo) (by omega) hi']
  · simp [hi']

theorem bitsOf_eq_zero {w : Word} {hi lo : Nat} (h : lo ≤ hi) (h' : hi < 32) (e : ∀ i, lo ≤ i → i ≤ hi → w.getLsbD i = false) :
    bitsOf w hi lo = 0 := by
  apply Nat.eq_of_testBit_eq
  intro i
  rw [bitsOf_testBit _ _ _ _ h h']
  by_cases hi' : i + lo ≤ hi
  · rw [e (i + lo) (by omega) hi']; simp
  · simp [hi']

/-- A field put back as it reads changes nothing. -/
theorem putBits_self {w : Word} {hi lo : Nat} (h : lo ≤ hi) (h' : hi < 32) : putBits w hi lo (bitsOf w hi lo) = w := by
  apply BitVec.eq_of_getLsbD_eq
  intro i _
  rw [putBits_getLsbD w hi lo _ i h h']
  split
  · next k =>
    rw [bitsOf_testBit w hi lo _ h h', Nat.sub_add_cancel k.1]
    simp [k.2]
  · rfl

/-- What one field holds after its part of a write (R12, R14). -/
def fieldAfter (v : Variant) (old new : Word) (f : FieldSpec) : Nat :=
  let x := bitsOf new f.hi f.lo
  let y := bitsOf old f.hi f.lo
  match f.access with
  | .rw | .rwl => if allowed v f.allow x then x else y
  | .ro | .wo => y
  | .w1c => y &&& (2 ^ (f.hi + 1 - f.lo) - 1 - x)
  | .w1s => y ||| x

/-- One field's part in a write leaves the word, or puts what the field holds afterwards. -/
theorem writeField_word (v : Variant) (old new : Word) (acc : Word × Bool) (f : FieldSpec) :
    ((writeField v old new acc f).1 = acc.1 ∧ fieldAfter v old new f = bitsOf old f.hi f.lo) ∨
      (writeField v old new acc f).1 = putBits acc.1 f.hi f.lo (fieldAfter v old new f) := by
  cases hf : f.access <;> simp only [writeField, fieldAfter, hf]
  · by_cases ha : allowed v f.allow (bitsOf new f.hi f.lo) = true
    · right; rw [if_pos ha, if_pos ha]
    · left; rw [if_neg ha, if_neg ha]; exact ⟨rfl, rfl⟩
  · exact Or.inl ⟨trivial, trivial⟩
  · exact Or.inr trivial
  · exact Or.inr trivial
  · exact Or.inl ⟨trivial, trivial⟩
  · by_cases ha : allowed v f.allow (bitsOf new f.hi f.lo) = true
    · right; rw [if_pos ha, if_pos ha]
    · left; rw [if_neg ha, if_neg ha]; exact ⟨rfl, rfl⟩

theorem fieldAfter_lt {v : Variant} {old new : Word} {f : FieldSpec} (hf : f.fits) :
    fieldAfter v old new f < 2 ^ (f.hi + 1 - f.lo) := by
  have lt := fun w => bitsOf_lt w f.hi f.lo hf.1 hf.2
  cases h : f.access <;> simp only [fieldAfter, h]
  · split <;> exact lt _
  · exact lt _
  · exact Nat.lt_of_le_of_lt Nat.and_le_left (lt _)
  · exact Nat.or_lt_two_pow (lt _) (lt _)
  · exact lt _
  · split <;> exact lt _

/-- What one field's part of a write leaves of a field apart from it. -/
theorem writeField_apart {v : Variant} {old new : Word} {acc : Word × Bool} {f g : FieldSpec} (hf : f.fits) (hg : g.fits)
    (h : f.apart g) : bitsOf (writeField v old new acc f).1 g.hi g.lo = bitsOf acc.1 g.hi g.lo := by
  rcases writeField_word v old new acc f with ⟨e, _⟩ | e
  · rw [e]
  · rw [e]; exact bitsOf_putBits_ne _ _ _ _ _ _ hf.1 hf.2 hg.1 hg.2 h

theorem writeField_own {v : Variant} {old new : Word} {acc : Word × Bool} {f : FieldSpec} (hf : f.fits)
    (ha : bitsOf acc.1 f.hi f.lo = bitsOf old f.hi f.lo) :
    bitsOf (writeField v old new acc f).1 f.hi f.lo = fieldAfter v old new f := by
  rcases writeField_word v old new acc f with ⟨e, k⟩ | e
  · rw [e, k]; exact ha
  · rw [e, bitsOf_putBits_same _ _ _ _ hf.1 hf.2, Nat.mod_eq_of_lt (fieldAfter_lt hf)]

theorem foldFields_apart {v : Variant} {old new : Word} {g : FieldSpec} (hg : g.fits) :
    ∀ (fs : List FieldSpec) (acc : Word × Bool), (∀ f ∈ fs, f.fits) → (∀ f ∈ fs, f.apart g) →
      bitsOf (fs.foldl (writeField v old new) acc).1 g.hi g.lo = bitsOf acc.1 g.hi g.lo
  | [], _, _, _ => rfl
  | f :: fs, acc, h, d => by
    rw [List.foldl_cons, foldFields_apart hg fs _ (fun x hx => h x (List.mem_cons_of_mem _ hx))
      (fun x hx => d x (List.mem_cons_of_mem _ hx))]
    exact writeField_apart (h f (List.mem_cons_self ..)) hg (d f (List.mem_cons_self ..))

theorem foldFields_own {v : Variant} {old new : Word} : ∀ (fs : List FieldSpec) (acc : Word × Bool), fieldsOk fs →
    (∀ g ∈ fs, bitsOf acc.1 g.hi g.lo = bitsOf old g.hi g.lo) → ∀ g ∈ fs,
      bitsOf (fs.foldl (writeField v old new) acc).1 g.hi g.lo = fieldAfter v old new g
  | [], _, _, _, _, h => nomatch h
  | f :: fs, acc, ok, ha, g, hg => by
    have okf := ok.1 f (List.mem_cons_self ..)
    have okr : fieldsOk fs := ⟨fun x hx => ok.1 x (List.mem_cons_of_mem _ hx), (List.pairwise_cons.mp ok.2).2⟩
    have ap := (List.pairwise_cons.mp ok.2).1
    rw [List.foldl_cons]
    rcases List.mem_cons.mp hg with rfl | hg
    · rw [foldFields_apart okf fs _ okr.1 (fun x hx => (ap x hx).symm.elim Or.inl Or.inr)]
      exact writeField_own okf (ha g (List.mem_cons_self ..))
    · refine foldFields_own fs _ okr (fun x hx => ?_) g hg
      rw [writeField_apart okf (okr.1 x hx) (ap x hx)]
      exact ha x (List.mem_cons_of_mem _ hx)

/-- Every field after a write by access code. -/
theorem writeWord_field {v : Variant} {fs : List FieldSpec} (ok : fieldsOk fs) (old new : Word) (g : FieldSpec) (hg : g ∈ fs) :
    bitsOf (writeWord v fs old new).1 g.hi g.lo = fieldAfter v old new g :=
  foldFields_own fs (old, false) ok (fun _ _ => rfl) g hg

theorem foldFields_flag {v : Variant} {old new : Word} : ∀ (fs : List FieldSpec) (acc : Word × Bool),
    (fs.foldl (writeField v old new) acc).2 =
      (acc.2 || fs.any fun f => f.kept && !allowed v f.allow (bitsOf new f.hi f.lo))
  | [], acc => by simp
  | f :: fs, acc => by
    have one : (writeField v old new acc f).2 = (acc.2 || (f.kept && !allowed v f.allow (bitsOf new f.hi f.lo))) := by
      cases hf : f.access <;> simp only [writeField, FieldSpec.kept, hf]
      · cases allowed v f.allow (bitsOf new f.hi f.lo) <;> simp
      · simp
      · simp
      · simp
      · simp
      · cases allowed v f.allow (bitsOf new f.hi f.lo) <;> simp
    rw [List.foldl_cons, foldFields_flag fs, List.any_cons, one, Bool.or_assoc]

/-- A write is counted where a reserved bit, or a value that a field does not accept, was written (R13, R14). -/
theorem writeWord_flag (v : Variant) (fs : List FieldSpec) (old new : Word) :
    (writeWord v fs old new).2 =
      ((fs.any fun f => f.kept && !allowed v f.allow (bitsOf new f.hi f.lo)) || (new &&& ~~~ namedBits fs) != 0) := by
  unfold writeWord
  dsimp only
  rw [foldFields_flag]
  simp

theorem foldMask_getLsbD (p : FieldSpec → Bool) (i : Nat) : ∀ (fs : List FieldSpec) (m : Word), (∀ g ∈ fs, g.fits) →
    (fs.foldl (fun m f => if p f then m ||| fieldMask f.hi f.lo else m) m).getLsbD i =
      (m.getLsbD i || fs.any fun f => p f && (decide (f.lo ≤ i) && decide (i ≤ f.hi)))
  | [], m, _ => by simp
  | f :: fs, m, h => by
    have hf := h f (List.mem_cons_self ..)
    rw [List.foldl_cons, foldMask_getLsbD p i fs _ (fun x hx => h x (List.mem_cons_of_mem _ hx)), List.any_cons]
    cases p f
    · simp
    · simp [fieldMask_getLsbD _ _ _ hf.1 hf.2, Bool.or_assoc]

/-- The bits that some field names. -/
theorem namedBits_getLsbD (fs : List FieldSpec) (ok : ∀ g ∈ fs, g.fits) (i : Nat) :
    (namedBits fs).getLsbD i = fs.any fun f => decide (f.lo ≤ i) && decide (i ≤ f.hi) := by
  have := foldMask_getLsbD (fun _ => true) i fs 0 ok
  simpa [namedBits] using this

/-- A write of the field `f` with ones, that keeps the fields of the table: `f` is one of them that only acts when written. -/
structure SoleField (fs : List FieldSpec) (f : Fld) : Prop where
  ok : fieldsOk fs
  own : ∃ g ∈ fs, g.hi = f.hi ∧ g.lo = f.lo ∧ g.access = .wo
  any : ∀ g ∈ fs, g.kept = true → g.allow = .any

theorem merged_getLsbD {s : State} {f : Fld} {r : RegSpec} {idx : List Nat} (h : regSpecAt f.addr = some (r, idx))
    (ok : fieldsOk r.fields) (hf : f.lo ≤ f.hi ∧ f.hi < 32) (i : Nat) :
    (mergedWord s f.addr (fieldMask f.hi f.lo) (fieldMask f.hi f.lo)).getLsbD i =
      ((decide (f.lo ≤ i) && decide (i ≤ f.hi)) ||
        ((regWord s f.addr).getLsbD i && r.fields.any fun g => g.kept && (decide (g.lo ≤ i) && decide (i ≤ g.hi)))) := by
  unfold mergedWord
  rw [h]
  dsimp only
  rw [BitVec.getLsbD_or, BitVec.getLsbD_and, BitVec.getLsbD_and, BitVec.getLsbD_and, BitVec.getLsbD_not,
    fieldMask_getLsbD _ _ _ hf.1 hf.2, foldMask_getLsbD FieldSpec.kept i r.fields 0 ok.1]
  by_cases h32 : i < 32
  · by_cases hl : f.lo ≤ i <;> by_cases hh : i ≤ f.hi <;> simp [hl, hh, h32]
  · rw [BitVec.getLsbD_of_ge _ i (by omega)]
    have : ¬ i ≤ f.hi := by omega
    simp [this]

theorem foldFields_same {v : Variant} {old new : Word} : ∀ (fs : List FieldSpec), (∀ g ∈ fs, g.fits) →
    (∀ g ∈ fs, g.kept = true → g.allow = .any ∧ bitsOf new g.hi g.lo = bitsOf old g.hi g.lo) →
    (∀ g ∈ fs, g.access = .w1c ∨ g.access = .w1s → bitsOf new g.hi g.lo = 0) →
    fs.foldl (writeField v old new) (old, false) = (old, false)
  | [], _, _, _ => rfl
  | f :: fs, ok, hk, hw => by
    have okf := ok f (List.mem_cons_self ..)
    have hkf := hk f (List.mem_cons_self ..)
    have hwf := hw f (List.mem_cons_self ..)
    have one : writeField v old new (old, false) f = (old, false) := by
      cases hf : f.access <;> simp only [writeField, hf]
      · obtain ⟨h1, h2⟩ := hkf (by simp [FieldSpec.kept, hf])
        rw [h1, h2, putBits_self okf.1 okf.2]; rfl
      · rw [hwf (Or.inl hf), Nat.sub_zero, Nat.and_two_pow_sub_one_eq_mod,
          Nat.mod_eq_of_lt (bitsOf_lt _ _ _ okf.1 okf.2), putBits_self okf.1 okf.2]
      · rw [hwf (Or.inr hf), Nat.or_zero, putBits_self okf.1 okf.2]
      · obtain ⟨h1, h2⟩ := hkf (by simp [FieldSpec.kept, hf])
        rw [h1, h2, putBits_self okf.1 okf.2]; rfl
    rw [List.foldl_cons, one]
    exact foldFields_same fs (fun x hx => ok x (List.mem_cons_of_mem _ hx)) (fun x hx => hk x (List.mem_cons_of_mem _ hx))
      (fun x hx => hw x (List.mem_cons_of_mem _ hx))

theorem pairwise_apart {fs : List FieldSpec} (h : fs.Pairwise FieldSpec.apart) {g k : FieldSpec} (hg : g ∈ fs) (hk : k ∈ fs) :
    g = k ∨ g.apart k := by
  induction fs with
  | nil => nomatch hg
  | cons f fs ih =>
    have hp := List.pairwise_cons.mp h
    rcases List.mem_cons.mp hg with rfl | hg' <;> rcases List.mem_cons.mp hk with rfl | hk'
    · exact Or.inl rfl
    · exact Or.inr (hp.1 _ hk')
    · exact Or.inr ((hp.1 _ hg').symm.elim Or.inl Or.inr)
    · exact ih hp.2 hg' hk'

/-- A write of a field that only acts when written leaves the fields of its register, and is not counted. -/
theorem soleWrite {s : State} {f : Fld} {r : RegSpec} {idx : List Nat} (h : regSpecAt f.addr = some (r, idx))
    (sole : SoleField r.fields f) :
    writeWord s.variant r.fields (regWord s f.addr) (mergedWord s f.addr (fieldMask f.hi f.lo) (fieldMask f.hi f.lo)) =
      (regWord s f.addr, false) := by
  obtain ⟨ok, ⟨w, hw, e1, e2, e3⟩, hany⟩ := sole
  have okw := ok.1 w hw
  rw [FieldSpec.fits, e1, e2] at okw
  have bit := merged_getLsbD (s := s) h ok okw
  have off : ∀ g ∈ r.fields, g.access ≠ .wo → ∀ i, g.lo ≤ i → i ≤ g.hi → (decide (f.lo ≤ i) && decide (i ≤ f.hi)) = false := by
    intro g hg hne i h1 h2
    rcases pairwise_apart ok.2 hg hw with rfl | ap
    · exact absurd e3 hne
    · rw [FieldSpec.apart, e1, e2] at ap
      by_cases hl : f.lo ≤ i <;> by_cases hh : i ≤ f.hi <;> simp [hl, hh]
      omega
  unfold writeWord
  dsimp only
  rw [foldFields_same r.fields ok.1]
  · have : mergedWord s f.addr (fieldMask f.hi f.lo) (fieldMask f.hi f.lo) &&& ~~~ namedBits r.fields = 0 := by
      apply BitVec.eq_of_getLsbD_eq
      intro i hi
      rw [BitVec.getLsbD_and, BitVec.getLsbD_not, namedBits_getLsbD _ ok.1, bit]
      cases hn : (r.fields.any fun f => decide (f.lo ≤ i) && decide (i ≤ f.hi))
      · have k1 : (r.fields.any fun g => g.kept && (decide (g.lo ≤ i) && decide (i ≤ g.hi))) = false := by
          rw [List.any_eq_false] at hn ⊢
          intro x hx hc
          exact hn x hx (by simp only [Bool.and_eq_true] at hc ⊢; exact hc.2)
        have k2 : (decide (f.lo ≤ i) && decide (i ≤ f.hi)) = false := by
          rw [List.any_eq_false] at hn
          have := hn w hw
          rw [e1, e2] at this
          simpa using this
        simp [k1, k2]
      · simp
    rw [this]
    rfl
  · intro g hg hk
    refine ⟨hany g hg hk, bitsOf_eq (ok.1 g hg).1 (ok.1 g hg).2 fun i h1 h2 => ?_⟩
    have hne : g.access ≠ .wo := by intro e; simp [FieldSpec.kept, e] at hk
    rw [bit, off g hg hne i h1 h2]
    have : (r.fields.any fun g => g.kept && (decide (g.lo ≤ i) && decide (i ≤ g.hi))) = true := by
      rw [List.any_eq_true]
      exact ⟨g, hg, by simp [hk, h1, h2]⟩
    rw [this]; simp
  · intro g hg hk
    refine bitsOf_eq_zero (ok.1 g hg).1 (ok.1 g hg).2 fun i h1 h2 => ?_
    have hne : g.access ≠ .wo := by rintro e; rw [e] at hk; rcases hk with h | h <;> cases h
    have nk : g.kept = false := by rcases hk with h | h <;> simp [FieldSpec.kept, h]
    rw [bit, off g hg hne i h1 h2]
    have : (r.fields.any fun g => g.kept && (decide (g.lo ≤ i) && decide (i ≤ g.hi))) = false := by
      rw [List.any_eq_false]
      intro x hx hc
      simp only [Bool.and_eq_true, decide_eq_true_eq] at hc
      rcases pairwise_apart ok.2 hg hx with rfl | ap
      · rw [nk] at hc; exact absurd hc.1 (by decide)
      · unfold FieldSpec.apart at ap; omega
    rw [this]; simp

theorem houseRegs_ok : ∀ r ∈ houseRegs, fieldsOk r.fields := by decide
theorem hicRegs_ok : ∀ r ∈ hicRegs, fieldsOk r.fields := by decide
theorem dmaRegs_ok : ∀ r ∈ dmaRegs, fieldsOk r.fields := by decide
theorem timerRegs_ok : ∀ r ∈ timerRegs, fieldsOk r.fields := by decide
theorem weaveRegs_ok : ∀ r ∈ weaveRegs, fieldsOk r.fields := by decide
theorem audioRegs_ok : ∀ r ∈ audioRegs, fieldsOk r.fields := by decide
theorem securityRegs_ok : ∀ r ∈ securityRegs, fieldsOk r.fields := by decide
theorem recorderRegs_ok : ∀ r ∈ recorderRegs, fieldsOk r.fields := by decide
theorem padRegs_ok : ∀ r ∈ padRegs, fieldsOk r.fields := by decide
theorem dresserRegs_ok : ∀ r ∈ dresserRegs, fieldsOk r.fields := by decide
theorem powerRegs_ok : ∀ r ∈ powerRegs, fieldsOk r.fields := by decide
theorem houseMemRegs_ok : ∀ r ∈ houseMemRegs, fieldsOk r.fields := by decide
theorem perfRegs_ok : ∀ r ∈ perfRegs, fieldsOk r.fields := by decide
theorem beamRegs_ok : ∀ r ∈ beamRegs, fieldsOk r.fields := by decide
theorem compositionRegs_ok : ∀ r ∈ compositionRegs, fieldsOk r.fields := by decide
theorem sceneRegs_ok : ∀ r ∈ sceneRegs, fieldsOk r.fields := by decide
theorem trestleRegs_ok : ∀ r ∈ trestleRegs, fieldsOk r.fields := by decide
theorem copierRegs_ok : ∀ r ∈ copierRegs, fieldsOk r.fields := by decide
theorem driveRegs_ok : ∀ r ∈ driveRegs, fieldsOk r.fields := by decide
theorem feedRegs_ok : ∀ r ∈ feedRegs, fieldsOk r.fields := by decide
theorem scanMemRegs_ok : ∀ r ∈ scanMemRegs, fieldsOk r.fields := by decide

theorem mem_ite {α : Type} {p : Prop} [Decidable p] {x : α} {l m : List α} (h : x ∈ (if p then l else m)) : x ∈ l ∨ x ∈ m := by
  split at h
  · exact Or.inl h
  · exact Or.inr h

/-- The fields of every register of the tables lie within the word and share no bit. -/
theorem regSpecAt_ok {a : Nat} {r : RegSpec} {idx : List Nat} (h : regSpecAt a = some (r, idx)) : fieldsOk r.fields := by
  obtain ⟨x, hx, e⟩ := List.exists_of_findSome?_eq_some h
  have : r = x := by
    split at e
    · cases e
    · rw [Option.map_eq_some_iff] at e
      obtain ⟨_, _, e⟩ := e
      exact (congrArg Prod.fst e).symm
  subst this
  unfold blockRegs at hx
  rcases mem_ite hx with hx | hx
  · exact houseRegs_ok r hx
  rcases mem_ite hx with hx | hx
  · exact hicRegs_ok r hx
  rcases mem_ite hx with hx | hx
  · exact dmaRegs_ok r hx
  rcases mem_ite hx with hx | hx
  · exact timerRegs_ok r hx
  rcases mem_ite hx with hx | hx
  · exact weaveRegs_ok r hx
  rcases mem_ite hx with hx | hx
  · exact audioRegs_ok r hx
  rcases mem_ite hx with hx | hx
  · exact securityRegs_ok r hx
  rcases mem_ite hx with hx | hx
  · exact recorderRegs_ok r hx
  rcases mem_ite hx with hx | hx
  · exact padRegs_ok r hx
  rcases mem_ite hx with hx | hx
  · exact dresserRegs_ok r hx
  rcases mem_ite hx with hx | hx
  · exact powerRegs_ok r hx
  rcases mem_ite hx with hx | hx
  · exact houseMemRegs_ok r hx
  rcases mem_ite hx with hx | hx
  · exact perfRegs_ok r hx
  rcases mem_ite hx with hx | hx
  · exact beamRegs_ok r hx
  rcases mem_ite hx with hx | hx
  · exact compositionRegs_ok r hx
  rcases mem_ite hx with hx | hx
  · exact sceneRegs_ok r hx
  rcases mem_ite hx with hx | hx
  · exact trestleRegs_ok r hx
  rcases mem_ite hx with hx | hx
  · exact copierRegs_ok r hx
  rcases mem_ite hx with hx | hx
  · exact driveRegs_ok r hx
  rcases mem_ite hx with hx | hx
  · exact feedRegs_ok r hx
  exact scanMemRegs_ok r hx

/-! ### What a credited scene write leaves -/

theorem regWord_setF_ne' {s : State} {f : Fld} {v k a : Nat} (e : f.addr = a) (h : k ≠ a) : regWord (setF s f v) k = regWord s k :=
  regWord_setF_ne s f v k (by rw [e]; exact h)

/-- A message that leaves changes no register. -/
theorem sendToHouse_regWord (s : State) (m : Msg) (k : Nat) : regWord (sendToHouse s m) k = regWord s k := by
  unfold sendToHouse drainToHouse
  split <;> rfl

/-- An edge changes no register, but where its source is one that wakes (R364, R538). -/
theorem pulse_regWord (s : State) (n k : Nat) (h : isScanSource n = true ∨ ¬ (192 ≤ n ∧ n ≤ 223)) :
    regWord (pulse s n) k = regWord s k := by
  unfold pulse
  split
  · split
    · rfl
    · exact sendToHouse_regWord _ _ _
  · next e =>
    rw [if_neg (by simpa using h.resolve_left e)]
    rfl

theorem raiseBits_regWord (s : State) (n : Nat) (f : Fld) (bits k : Nat) (h : isScanSource n = true ∨ ¬ (192 ≤ n ∧ n ≤ 223))
    (h' : k ≠ f.addr) : regWord (raiseBits s n f bits) k = regWord s k := by
  unfold raiseBits orF
  dsimp only
  split
  · rw [pulse_regWord _ _ _ h, regWord_setF_ne _ _ _ _ h']
  · exact regWord_setF_ne _ _ _ _ h'

theorem reportRegisters_regWord (s : State) (c : Commit) (n : Nat) (f : Fail) (k : Nat)
    (hk : ¬ (0x220700 ≤ k ∧ k < 0x220720)) : regWord (reportRegisters s c n f) k = regWord s k := by
  have n1 : k ≠ SC_CMCNT := by rintro rfl; exact hk (by decide)
  have n2 : k ≠ SC_CMEV := by rintro rfl; exact hk (by decide)
  have n3 : ∀ st < 4, k ≠ SC_CMRES st ∧ k ≠ SC_CMEPR st ∧ k ≠ SC_CMFAIL st := by
    intro st hst
    refine ⟨?_, ?_, ?_⟩ <;> (rintro rfl; exact hk (by simp only [SC_CMRES, SC_CMEPR, SC_CMFAIL]; omega))
  unfold reportRegisters
  dsimp only
  have first : ∀ u : State, regWord (if n = 0 then raiseBits (countWrapF u SC_CMCNT_ACCEPTED 1) 53 SC_CMEV_ACCEV (2 ^ c.stream.toNat)
      else raiseBits (countF u SC_CMCNT_REFUSED 1) 54 SC_CMEV_REFEV (2 ^ c.stream.toNat)) k = regWord u k := by
    intro u
    split
    · rw [raiseBits_regWord _ _ _ _ _ (Or.inl rfl) n2]; exact regWord_setF_ne _ _ _ _ n1
    · rw [raiseBits_regWord _ _ _ _ _ (Or.inl rfl) n2]; exact regWord_setF_ne _ _ _ _ n1
  rw [first]
  have second : ∀ u : State, regWord (if n = 0 then { u with comp := { u.comp with accepted := u.comp.accepted + 1 } }
      else { u with comp := { u.comp with refused := min 0xFFFFFFFF (u.comp.refused + 1) } }) k = regWord u k := by
    intro u; split <;> rfl
  rw [second]
  obtain ⟨m1, m2, m3⟩ := n3 c.stream.toNat c.stream.isLt
  rw [regWord_setRegWord_ne _ _ _ _ m3, regWord_setF_ne _ _ _ _ m2, regWord_setF_ne _ _ _ _ m1, regWord_setF_ne _ _ _ _ m1,
    regWord_setF_ne _ _ _ _ m1]

theorem refuseCommit_regWord (s : State) (c : Commit) (x : Reason) (f : Fail) (k : Nat)
    (hk : ¬ (0x220700 ≤ k ∧ k < 0x220720)) : regWord (refuseCommit s c x f) k = regWord s k := by
  have a : ∀ u : State, regWord (sendResult u c x.code) k = regWord u k := by
    intro u
    unfold sendResult sendOrHold
    repeat' split
    all_goals first | rfl | exact sendToHouse_regWord _ _ _
  have b : ∀ (u : State) (p0 p1 p2 p3 : Nat), regWord (recordScan u .warn 0x3001 p0 p1 p2 p3) k = regWord u k := by
    intro u p0 p1 p2 p3; unfold recordScan; dsimp only; split
    · rfl
    · exact sendToHouse_regWord _ _ _
  have d : ∀ (u : State) (src : Src), regWord (releaseBehind u src) k = regWord u k := fun _ _ => rfl
  have e : regWord (dropCommit s c) k = regWord s k := by
    unfold dropCommit
    dsimp only
    split <;> rfl
  unfold refuseCommit
  dsimp only
  rw [d]
  split
  · exact (a _).trans ((reportRegisters_regWord _ _ _ _ _ hk).trans e)
  · exact (b _ _ _ _ _).trans ((a _).trans ((reportRegisters_regWord _ _ _ _ _ hk).trans e))

/-- Crediting a scene write changes no register but the commit registers (R177, R179). -/
theorem creditScene_regWord (s : State) (src : Src) (a k : Nat) (hk : ¬ (0x220700 ≤ k ∧ k < 0x220720)) :
    regWord (creditScene s src a) k = regWord s k := by
  unfold creditScene creditWrite creditCommit refuseNow countOpen
  dsimp only
  repeat' split
  all_goals first | rfl | exact (refuseCommit_regWord _ _ _ _ _ hk).trans rfl

/-! ### The count of bad writes, and the forms of a write -/

/-- A counted write (R14, R15). -/
theorem countReserved_count (s : State) : getF (countReserved s) HS_RSVWR_COUNT = min 0xFFFFFF (getF s HS_RSVWR_COUNT + 1) := by
  unfold countReserved
  have e := getF_countF_same s HS_RSVWR_COUNT 1 (by decide)
  dsimp only
  split
  · rw [getF_setF_ne _ _ _ _ (by decide) (by decide) (by decide), e]
    show min _ _ = _
    rw [Nat.min_comm]; rfl
  · rw [e]
    show min _ _ = _
    rw [Nat.min_comm]; rfl

/-- Counting changes HS_RSVWR alone. -/
theorem countReserved_word (s : State) (k : Nat) (h : k ≠ HS_RSVWR) : regWord (countReserved s) k = regWord s k := by
  unfold countReserved countF
  dsimp only
  split
  · rw [regWord_setF_ne _ _ _ _ h, regWord_setF_ne _ _ _ _ h]
  · rw [regWord_setF_ne _ _ _ _ h]

theorem breakLock_regWord (s src a k) : regWord (breakLockSequence s src a) k = regWord s k := by
  unfold breakLockSequence; split <;> rfl

theorem breakLock_variant (s src a) : (breakLockSequence s src a).variant = s.variant := by
  unfold breakLockSequence; split <;> rfl

/-- A register with no effect beyond its fields. -/
theorem writeRegister_plain {s : State} {src a w} {r : RegSpec} {idx} (hh : r.hook = .none) (hp : registerPresent s.variant r idx = true) :
    writeRegister s src r idx a w = countOnce (breakLockSequence s src a) (writeFields (breakLockSequence s src a) r idx a w) := by
  unfold writeRegister
  have e1 : beforeWrite s r w = s := by unfold beforeWrite; rw [hh]
  have e2 : ∀ u, specialWrite u src r idx a w = none := by intro u; unfold specialWrite; rw [hh]
  have e3 : ∀ u v i, afterScanWrite u v src Hook.none i w = v := fun _ _ _ => rfl
  have e4 : ∀ u v i, afterHouseWrite u v src Hook.none i a w = v := fun _ _ _ => rfl
  simp only [e1, e2, hh, e3, e4, ite_self, reduceCtorEq, decide_false, Bool.or_self, Bool.false_eq_true, if_false]

/-- A write that counts at most once is counted as it is. -/
theorem countOnce_same {a b : State} (h : getF b HS_RSVWR_COUNT ≤ getF a HS_RSVWR_COUNT + 1) : countOnce a b = b := by
  unfold countOnce; dsimp only; rw [if_neg (by omega)]

/-- A clear or invalidate row, by its hook's effect. -/
theorem bitWrite_field {s : State} {f : Fld} {r : RegSpec} {idx : List Nat} (h : regSpecAt f.addr = some (r, idx)) (sole : SoleField r.fields f)
    (pg : f.addr ≠ SC_PGCTL)
    (hp : registerPresent s.variant r idx = true) (hk : r.hook ≠ .padCtl ∧ r.hook ≠ .padLock) (nb : beforeWrite s r (mergedWord s f.addr (fieldMask f.hi f.lo) (fieldMask f.hi f.lo)) = s)
    (sp : ∀ u w, specialWrite u .dresser r idx f.addr w = none) :
    let m := mergedWord s f.addr (fieldMask f.hi f.lo) (fieldMask f.hi f.lo)
    let b := breakLockSequence s .dresser f.addr
    let v := setRegWord b f.addr (regWord s f.addr)
    regWriteBits s .dresser f.addr (fieldMask f.hi f.lo) (fieldMask f.hi f.lo) =
      countOnce b (if isScanAddr f.addr then afterScanWrite b v .dresser r.hook (idx.headD 0) m else afterHouseWrite b v .dresser r.hook (idx.headD 0) f.addr m) := by
  intro m b v
  unfold regWriteBits regWriteBase
  rw [h]
  dsimp only
  rw [if_pos hp]
  unfold writeRegister
  have e : writeFields (breakLockSequence s .dresser f.addr) r idx f.addr m = v := by
    unfold writeFields
    rw [if_pos (by rw [breakLock_variant]; exact hp), breakLock_variant, breakLock_regWord]
    rw [soleWrite h sole]
    rfl
  simp only [nb, sp, pg, hk.1, hk.2, decide_false, Bool.or_self, Bool.false_and, Bool.false_eq_true, if_false]
  rw [e]

/-- The bits such a row writes, outside the fields it keeps. -/
theorem merged_bit {s : State} {f : Fld} {r : RegSpec} {idx : List Nat} (h : regSpecAt f.addr = some (r, idx)) (sole : SoleField r.fields f) (i : Nat)
    (hi : ∀ g ∈ r.fields, g.kept = true → ¬ (g.lo ≤ i ∧ i ≤ g.hi)) :
    (mergedWord s f.addr (fieldMask f.hi f.lo) (fieldMask f.hi f.lo)).getLsbD i = (decide (f.lo ≤ i) && decide (i ≤ f.hi)) := by
  have hf : f.lo ≤ f.hi ∧ f.hi < 32 := by
    obtain ⟨g, hg, e1, e2, _⟩ := sole.own
    have := sole.ok.1 g hg
    rw [FieldSpec.fits, e1, e2] at this
    exact this
  rw [merged_getLsbD h sole.ok hf]
  have : (r.fields.any fun g => g.kept && (decide (g.lo ≤ i) && decide (i ≤ g.hi))) = false := by
    rw [List.any_eq_false]
    intro g hg hc
    simp only [Bool.and_eq_true, decide_eq_true_eq] at hc
    exact hi g hg hc.1 hc.2
  rw [this]; simp

/-- Storing what a register holds. -/
theorem setRegWord_self (s : State) (a k : Nat) : regWord (setRegWord s a (regWord s a)) k = regWord s k := by
  by_cases h : k = a
  · subst h; rw [regWord_setRegWord_same]
  · rw [regWord_setRegWord_ne _ _ _ _ h]

end Sys2Proof.Machine
end

