-- ==== Sys2Proof/Tests/Slice0.lean ====
section
/-! SUPPORT. Tests: ill-formed commands, instruction words written out from the spec, single steps with results worked out by hand
from the rules, and for each statement with hypotheses a concrete state and operands that meet them. -/

namespace Sys2Proof.Tests

open Sys2Proof.Machine

set_option Elab.async false

/-! ### Well-formedness -/

/-- A packet with LEN and a payload. -/
def packetWith (len : BitVec 12) (payload : List Byte) : Packet :=
  { dkind := 0, dest := 0, sport := 0, smid := 0, vc := 0, qid := 0, seq := 0, rsel := false, egr := false, cls := 1, hoplim := 1,
    kind := 0, len := len, ctx := 0, payload := payload }

theorem test_packet_wf : (packetWith 1 [7]).wf = true := by decide +kernel
theorem test_packet_len_differs : (packetWith 2 [7]).wf = false := by decide +kernel
theorem test_inject_ill_formed : (Instr.inject (packetWith 2 [7])).wf = false := by decide +kernel
theorem test_dram_write_lengths : (Instr.dramWriteApply .dresser 0 [1, 2, 3]).wf = false ∧
    (Instr.dramWriteApply .dresser 0 [1, 2, 3, 4]).wf = true ∧ dramLength (List.replicate 257 0) = false := by decide +kernel
theorem test_service_length : serviceLength (List.replicate 9 0) = false ∧ serviceLength (List.replicate 12 0) = true := by decide +kernel
theorem test_opcodes : isOpcode 0x08 = false ∧ isOpcode 0x67 = false ∧ isOpcode 0x85 = true ∧ isOpcode 0xE0 = false := by decide +kernel
theorem test_opcode_ill_formed : (Instr.undefinedOpcode 0 0x40).wf = false ∧ (Instr.undefinedOpcode 0 0x08).wf = true := by decide +kernel

/-! ### Instruction words, written out from R332 to R336 and R352 -/

/-- `ld v2, bank 2, short 0x3F3C`. -/
theorem test_word_ld : decodeCore 0 0x202803F3C#36 0 = .ld 0 2 2 0x3F3C := by decide +kernel
/-- `stx v5, [p1 + 1]`. -/
theorem test_word_stx : decodeCore 0 0x255900001#36 0 = .stx 0 5 9 0 1 := by decide +kernel
/-- `ldi v1, −1`. -/
theorem test_word_ldi : decodeCore 1 0x1210FFFFF#36 0 = .ldi 1 1 0xFFFFF := by decide +kernel
/-- `trput v0`. -/
theorem test_word_trput : decodeCore 0 0xE10000000#36 0 = .trput 0 0 := by decide +kernel
/-- `call 0x4A20, p0 and v0, v1, v8`. -/
theorem test_word_call : decodeCore 0 0x830000103#36 0x4A20#36 = .call 0 0x0103 0x4A20 ∧ coreWords 0x830000103#36 = 2 := by decide +kernel
/-- `add v0, v1, v2`: opcode 0x40, RD 0, RA 1, RB 2. -/
theorem test_word_add : decodeCore 2 0x400120000#36 0 = .add 2 0 1 2 := by decide +kernel
/-- `br` always, two words back: condition 0 in bits [27:24], DISP24 −2. -/
theorem test_word_br : decodeCore 0 0x800FFFFFE#36 0 = .br 0 0 0xFFFFFE := by decide +kernel
/-- `fmac` on accumulator 1: bit 0. -/
theorem test_word_fmac : decodeCore 0 0x790230001#36 0 = .fmac 0 2 3 true := by decide +kernel
/-- An opcode that no row lists. -/
theorem test_word_undefined : decodeCore 0 0xF00000000#36 0 = .undefinedOpcode 0 0xF0 := by decide +kernel
/-- The table gives no row any bits. -/
theorem test_table_words : decodeTableWord 32 5 = none := rfl

/-! ### Small states -/

/-- The bridge is UP on 8 lanes. -/
def up : State := setF State.reset HS_BRSTAT_STATE brUp8

/-- Core 0 in local SRAM, whose words hardware has written UNSET, with some registers. -/
def coreWith (rs : List (Nat × Tagged)) : Core :=
  { Core.reset 0x300000 with regs := rs.foldl (fun v x => v.setIfInBounds x.1 x.2) (Vector.replicate 16 0) }

/-- The module with that core. -/
def coreState (rs : List (Nat × Tagged)) : State := setCore up 0 (coreWith rs)

/-- A test of the next state that a command answers. -/
def after (o : Out) (p : State → Bool) : Bool :=
  match o with
  | .next t => p t
  | _ => false

/-- The house die and the scan die are powered, the bridge carries. -/
theorem test_up : bridgeUp up = true ∧ houseOn up = true ∧ scanOn up = true := by decide +kernel

/-! ### Cores: single steps, results by hand from R336 to R353 -/

/-- 0x7FFF_FFFF + 1 overflows: N and V, no carry (R337). -/
theorem test_add_overflows : after (exec (.add 0 0 1 2) (coreState [(1, intWord 0x7FFFFFFF), (2, intWord 1)]))
    (fun t => reg t 0 0 = intWord 0x80000000 && (coreOf t 0).sr = 0x300 && (coreOf t 0).pc = 0x300001) = true := by decide +kernel
/-- 0 − 1 borrows: N, and C clear (R337). -/
theorem test_sub_borrows : after (exec (.sub 0 1 1 2) (coreState [(1, intWord 0), (2, intWord 1)]))
    (fun t => reg t 0 1 = intWord 0xFFFFFFFF && (coreOf t 0).sr = 0x200) = true := by decide +kernel
/-- A count of 32 is a count of 0 (R338): the value stays, C is 0. -/
theorem test_shl_count : after (exec (.shl 0 0 1 2) (coreState [(1, intWord 0x80000001), (2, intWord 32)]))
    (fun t => reg t 0 0 = intWord 0x80000001 && (coreOf t 0).sr = 0x200) = true := by decide +kernel
/-- −2³¹ / −1 is −2³¹ with V (R338). -/
theorem test_divs_corner : after (exec (.divs 0 0 1 2) (coreState [(1, intWord 0x80000000), (2, intWord 0xFFFFFFFF)]))
    (fun t => reg t 0 0 = intWord 0x80000000 && (coreOf t 0).sr = 0x300) = true := by decide +kernel
/-- 1.5 × 1.5 = 2.25 in steps of 2^−16 (R340). -/
theorem test_fmul : after (exec (.fmul 0 0 1 2) (coreState [(1, tagged tagFix 0x18000), (2, tagged tagFix 0x18000)]))
    (fun t => reg t 0 0 = tagged tagFix 0x24000) = true := by decide +kernel
/-- FTOI rounds −0.5 toward minus infinity (R340). -/
theorem test_ftoi : after (exec (.ftoi 0 0 1) (coreState [(1, tagged tagFix 0xFFFF8000)]))
    (fun t => reg t 0 0 = intWord 0xFFFFFFFF) = true := by decide +kernel
/-- PADD saturates each channel (R341). -/
theorem test_padd : after (exec (.padd 0 0 1 2) (coreState [(1, tagged tagPixel 0xFF01F010), (2, tagged tagPixel 0x01022020)]))
    (fun t => reg t 0 0 = tagged tagPixel 0xFF03FF30) = true := by decide +kernel
/-- Core 0 with a stack and its vectors in local SRAM, every vector at 0x300020. -/
def trapState : State :=
  let s := coreState [(1, intWord 1), (15, addrWord 0x300100)]
  let s := setCore s 0 { coreOf s 0 with vtab := 0x300200 }
  (List.range 32).foldl (fun s i => setCell s 1 (0x200 + i) (.good (tagged tagCode 0x300020))) s

/-- An UNSET operand traps at vector 4 and names operand 1 (R302, R318). -/
theorem test_unset_traps : after (exec (.add 0 0 1 2) trapState)
    (fun t => (coreOf t 0).tcause = 0x00011004 && (coreOf t 0).pc = 0x300020) = true := by decide +kernel
/-- A store and the frame of a push: SP falls by 1, the word stands at SP (R345). -/
theorem test_push : after (exec (.push 0 1) (coreState [(1, intWord 9), (15, addrWord 0x300100)]))
    (fun t => reg t 0 15 = addrWord 0x3000FF && sramCell t 1 0xFF = .good (intWord 9)) = true := by decide +kernel
/-- CALL with MASK bits 0 and 1: two registers, the mask and the return address (R350). -/
theorem test_call : after (exec (.call 0 0x0003 0x4A20) (coreState [(0, intWord 5), (1, intWord 6), (15, addrWord 0x300100)]))
    (fun t => reg t 0 15 = addrWord 0x3000FC && (coreOf t 0).pc = 0x4A20 && sramCell t 1 0xFC = .good (tagged tagCode 0x300002) &&
      sramCell t 1 0xFD = .good (intWord 3) && sramCell t 1 0xFE = .good (intWord 5)) = true := by decide +kernel
/-- BDIFF of two positions of one frame a line apart is 256 (R342). -/
theorem test_bdiff : after (exec (.bdiff 0 0 1 2) (coreState [(1, tagged tagBeam 0x00050007), (2, tagged tagBeam 0x00040007)]))
    (fun t => reg t 0 0 = intWord 256) = true := by decide +kernel
/-- MAC adds −1 × 2 to an accumulator of 0 (R343). -/
theorem test_mac : after (exec (.mac 0 1 2 true) (coreState [(1, intWord 0xFFFFFFFF), (2, intWord 2)]))
    (fun t => (coreOf t 0).q[1] = BitVec.ofInt 72 (-2) && (coreOf t 0).q[0] = 0) = true := by decide +kernel

/-! ### Cores: the statements' hypotheses can be met -/

theorem local_unset (s : State) (a : Nat) (h : s.mem.locals = Vector.replicate 4 []) : sramLoad s 1 a = (s, some 0) := by
  simp [sramLoad, sramCell, h, cellValue, sget, sfind]

theorem local_good (s : State) (a : Nat) (w : Tagged) (h : sramCell s 1 a = .good w) : sramLoad s 1 a = (s, some w) := by
  simp [sramLoad, h, cellValue]

theorem fetch_local (s : State) (h : s.mem.locals = Vector.replicate 4 []) :
    fetchTrap s 0 0x300000 1 = (s, none) ∧ fetchTrap s 0 0x300000 2 = (s, none) := by
  have h0 : placeOf 0 0x300000 = .sram 1 0 := by decide
  have h1 : placeOf 0 (0x300000 + 1) = .sram 1 1 := by decide
  constructor <;> simp only [fetchTrap, fetchWord, h0, h1, local_unset s _ h, Option.isNone_some, Bool.false_eq_true, if_false]

/-- Core 0 of every such state issues, of one word and of two, outside a repeat. -/
theorem core_issues (rs : List (Nat × Tagged)) : IssuesAlone (coreState rs) 0 1 ∧ IssuesAlone (coreState rs) 0 2 := by
  have h : coreIssues (coreState rs) 0 = true := by
    change (coresClocked up && coreRun up 0 && !coreLocked up 0 && !false && !false && (none : Option LoadWait).isNone && !false &&
      !coreStalled up 0) = true
    decide +kernel
  exact ⟨⟨⟨h, rfl, rfl, rfl, (fetch_local (coreState rs) rfl).1⟩, rfl⟩, ⟨⟨h, rfl, rfl, rfl, (fetch_local (coreState rs) rfl).2⟩, rfl⟩⟩

/-- INT in V1 and V2, FIX in V3 and V4, two words of one tag in V5 and V6, addresses in P0 and P1. -/
def arithState : State :=
  coreState [(1, intWord 0x80000000), (2, intWord 0xFFFFFFFF), (3, tagged tagFix 0x80000000), (4, tagged tagFix 0xFFFFFFFF),
    (5, intWord 7), (6, intWord 7), (8, addrWord 0x300040), (9, addrWord 0xFFFFFF)]

/-- IntegerArithmetic, Shifts, ImmediatesAndAddresses, Division, Accumulators, OperandTraps: the least INT and −1. -/
theorem witness_integers : Issues arithState 0 1 ∧ isPointer 0 = false ∧ reg arithState 0 1 = intWord 0x80000000 ∧
    reg arithState 0 2 = intWord 0xFFFFFFFF ∧ (0xFFFFFFFF#32 : Word) ≠ 0 ∧ reg arithState 0 8 = addrWord 0x300040 :=
  ⟨(core_issues _).1.1, by decide +kernel⟩

/-- Comparisons, FixedPoint, Accumulators: the FIX of the payloads 0x8000_0000 and 0xFFFF_FFFF, two addresses, one tag twice. -/
theorem witness_comparisons : Issues (coreState [(1, intWord 3), (2, intWord 3), (3, tagged tagFix 3), (4, tagged tagFix 3),
      (8, addrWord 0), (9, addrWord 0xFFFFFF)]) 0 1 ∧
    let s := coreState [(1, intWord 3), (2, intWord 3), (3, tagged tagFix 3), (4, tagged tagFix 3), (8, addrWord 0),
      (9, addrWord 0xFFFFFF)]
    reg s 0 1 = intWord 3 ∧ reg s 0 2 = intWord 3 ∧ reg s 0 3 = tagged tagFix 3 ∧ reg s 0 4 = tagged tagFix 3 ∧
      reg s 0 8 = addrWord 0 ∧ reg s 0 9 = addrWord 0xFFFFFF ∧ (3#32 : Word) ≠ 0 :=
  ⟨(core_issues _).1.1, by decide +kernel⟩

/-- Pixels in V1 and V2, BEAM in V3 and V4, INT in V5. -/
def mediaState : State :=
  coreState [(1, tagged tagPixel 0xFF0080FF), (2, tagged tagPixel 0x00FF7F01), (3, tagged tagBeam 0x00000000),
    (4, tagged tagBeam 0x00010080), (5, intWord 0xFFFFFFFF)]

/-- Pixels, BeamArithmetic. -/
theorem witness_media : Issues mediaState 0 1 ∧ isPointer 7 = false ∧ reg mediaState 0 1 = tagged tagPixel 0xFF0080FF ∧
    reg mediaState 0 2 = tagged tagPixel 0x00FF7F01 ∧ reg mediaState 0 3 = tagged tagBeam 0 ∧
    reg mediaState 0 4 = tagged tagBeam 0x00010080 ∧ reg mediaState 0 5 = intWord 0xFFFFFFFF :=
  ⟨(core_issues _).1.1, by decide +kernel⟩

/-- RegisterMoves: into P0, whose words must be addresses of 24 bits. -/
theorem witness_moves :
    let s := coreState [(4, intWord 0xFF), (9, addrWord 0xFFFFFF)]
    Issues s 0 1 ∧ Issues s 0 2 ∧ reg s 0 9 = addrWord 0xFFFFFF ∧ Fits 8 (addrWord 0xFFFFFF) ∧
    1 ≤ (tagOf (addrWord 0xFFFFFF)).toNat ∧ (tagOf (addrWord 0xFFFFFF)).toNat ≤ 7 ∧ reg s 0 4 = intWord 0xFF ∧
    (0xFFFFFF#32 : Word).toNat < 2 ^ 24 ∧ Fits 8 (tagged tagAddr 0xFFFFFF) :=
  ⟨(core_issues _).1.1, (core_issues _).2.1, by decide +kernel, fun _ => ⟨0xFFFFFF, by decide⟩, by decide, by decide, by decide +kernel,
    by decide, fun _ => ⟨0xFFFFFF, by decide⟩⟩

/-- A stack, a pointer into local SRAM and a word to store. -/
def memoryState : State := coreState [(1, intWord 9), (8, addrWord 0x300040), (9, addrWord 0x300050), (15, addrWord 0x300100)]

/-- LoadsFromSram: bank 3 names local SRAM, MODE 2 with offset −1, the word at SP. -/
theorem witness_loads : Issues memoryState 0 1 ∧ Holds memoryState 0 (short memoryState 0 3 0x3FFF) 0 ∧ Fits 0 0 ∧
    reg memoryState 0 8 = addrWord 0x300040 ∧ (2 : BitVec 2) ≠ 3 ∧ Holds memoryState 0 (pointed 2 0x300040 0x3FFFF) 0 ∧
    reg memoryState 0 15 = addrWord 0x300100 ∧ Holds memoryState 0 0x300100 0 :=
  ⟨(core_issues _).1.1, ⟨1, 0x3FFF, by decide +kernel, local_unset _ _ rfl⟩, fun h => absurd h (by decide), by decide +kernel, by decide,
    ⟨1, 0x3F, by decide +kernel, local_unset _ _ rfl⟩, by decide +kernel, ⟨1, 0x100, by decide +kernel, local_unset _ _ rfl⟩⟩

/-- StoresToSram: the last word of local SRAM, the word at a pointer, the word below SP; and the words named at its first part. -/
theorem witness_stores : Issues memoryState 0 1 ∧ placeOf 0 0x07FFFF = .sram 0 0x7FFFF ∧ placeOf 0 0x303FFF = .sram 1 0x3FFF ∧
    1 ≤ (tagOf (reg memoryState 0 1)).toNat ∧ (tagOf (reg memoryState 0 1)).toNat ≤ 7 ∧
    Storable memoryState 0 0 (short memoryState 0 3 0x3FFF) ∧ Storable memoryState 0 8 (pointed 0 0x300040 1) ∧
    Storable memoryState 0 15 (0x300100 - 1) :=
  ⟨(core_issues _).1.1, by decide, by decide, by decide +kernel, by decide +kernel, ⟨by decide +kernel, by decide⟩,
    ⟨by decide +kernel, by decide⟩, ⟨by decide +kernel, fun _ => by decide +kernel⟩⟩

/-- Exchanges: XCHG at P0, CAS at P0 with a register that equals the UNSET word there and with one that does not, MOVM from P1. -/
theorem witness_exchanges : Issues memoryState 0 1 ∧ Storable memoryState 0 8 (pointed 1 0x300040 0) ∧
    Holds memoryState 0 (pointed 1 0x300040 0) 0 ∧ Fits 0 0 ∧ Storable memoryState 0 8 0x300040 ∧ Holds memoryState 0 0x300040 0 ∧
    0 = reg memoryState 0 2 ∧ 0 ≠ reg memoryState 0 1 ∧ Storable memoryState 0 9 0x300050 ∧ Holds memoryState 0 0x300040 0 :=
  ⟨(core_issues _).1.1, ⟨by decide +kernel, by decide⟩, ⟨1, 0x40, by decide +kernel, local_unset _ _ rfl⟩,
    fun h => absurd h (by decide), ⟨by decide +kernel, by decide⟩, ⟨1, 0x40, by decide +kernel, local_unset _ _ rfl⟩,
    by decide +kernel, by decide +kernel, ⟨by decide +kernel, by decide⟩, ⟨1, 0x40, by decide +kernel, local_unset _ _ rfl⟩⟩

/-- ScanAccesses: BEAMPOS_LO by a bank and by a pointer, TGT 4 of unit 14, four INT for TRPUT. -/
theorem witness_scan :
    let s := coreState [(1, intWord 511), (4, intWord 1), (5, intWord 2), (6, intWord 3), (7, intWord 4), (8, addrWord 0x210004)]
    let s := setCore s 0 { coreOf s 0 with bk := #v[0, 0x10, 0x21, 0x30] }
    hasRcop s.variant = true ∧ placeOf 0 (short s 0 2 0x0003) = .scanReg ∧ isStaged (short s 0 2 0x0003).toNat = false ∧
    reg s 0 8 = addrWord 0x210004 ∧ placeOf 0 (pointed 2 0x210004 0x3FFFF) = .scanReg ∧ reg s 0 1 = intWord 511 ∧
    reg s 0 4 = intWord 1 ∧ reg s 0 (4 + 1) = intWord 2 ∧ reg s 0 (4 + 2) = intWord 3 ∧ reg s 0 (4 + 3) = intWord 4 ∧
    (4 : BitVec 3).toNat ≤ 4 ∧ (14 : BitVec 4).toNat ≤ 14 := by decide +kernel

/-- ControlInstructions: an INT, an address, a CODE word, each branch condition but 15. -/
theorem witness_control :
    let s := coreState [(1, intWord 0xFFFFFFFF), (2, tagged tagCode 0x4A20), (8, addrWord 0x300200)]
    IssuesAlone s 0 1 ∧ IssuesAlone s 0 2 ∧ (14 : BitVec 4) ≠ 15 ∧ reg s 0 1 = intWord 0xFFFFFFFF ∧
    reg s 0 8 = tagged tagAddr 0x300200 ∧ reg s 0 2 = tagged tagCode 0x4A20 :=
  ⟨(core_issues _).1, (core_issues _).2, by decide, by decide +kernel, by decide +kernel, by decide +kernel⟩

/-- Source 32 pends at level 5 for core 0, which waits with this status word. -/
def waitState (sr : Word) : State :=
  let s := setPending (setF (setF (coreState []) (HIC_SRCCFG_LEVEL 32) 5) (HIC_SRCCFG_TARGETS 32) 1) 32
  setCore s 0 { coreOf s 0 with waiting := true, sr := sr }

/-- WaitsEnd: with IE = 0, with IE = 1, at an IPL below the level and not at the level; and a SYNC with nothing on its way. -/
theorem witness_waits : coresClocked (waitState 0x04) = true ∧ coreRun (waitState 0x04) 0 = true ∧ coreLocked (waitState 0x04) 0 = false ∧
    (coreOf (waitState 0x04) 0).benchHalt = false ∧ (coreOf (waitState 0x04) 0).waiting = true ∧ aboveIpl (waitState 0x04) 0 = true ∧
    (coreOf (waitState 0x14) 0).sr.getLsbD 4 = true ∧ aboveIpl (waitState 0x14) 0 = true ∧ aboveIpl (waitState 0x05) 0 = false ∧
    sourceQuiet up (.core 0) = true :=
  ⟨by decide +kernel, by decide +kernel, by decide +kernel, by decide +kernel, by decide +kernel, by decide +kernel,
    by decide +kernel, by decide +kernel, by decide +kernel, by decide +kernel⟩

/-- Repeats: RA = 0 with RC 0 and not, RA = 1, an instruction of two words; an iteration with RPT 2, and the last. -/
theorem witness_repeats : IssuesAlone (coreState []) 0 2 ∧ (∀ op ∈ [(0x40 : BitVec 8), 0x13, 0x00], isDefined op = true ∧
      ¬ (0x01 ≤ op.toNat ∧ op.toNat ≤ 0x07) ∧ ¬ 0x80 ≤ op.toNat) ∧
    (0x00008000#32 : Word).getLsbD 15 = true ∧ ((0x00028000#32 : Word) >>> 16).toNat = 2 ∧ ((0x00018000#32 : Word) >>> 16).toNat = 1 :=
  ⟨(core_issues _).2, by decide⟩

/-- Calls: MASK 0x8001 with the stack in local SRAM; and RET from a frame of two words. -/
theorem witness_calls :
    let s := coreState [(2, tagged tagCode 0x4A20), (15, addrWord 0x300100)]
    let t := setCell (setCell s 1 0x100 (.good (tagged tagCode 0x300030))) 1 0x101 (.good (intWord 0))
    IssuesAlone s 0 1 ∧ IssuesAlone s 0 2 ∧ reg s 0 2 = tagged tagCode 0x4A20 ∧ reg s 0 15 = addrWord 0x300100 ∧
    (∀ i < 4, Storable s 0 15 (0x300100 - 4 + BitVec.ofNat 24 i)) ∧ Holds t 0 0x300100 (tagged tagCode 0x300030) ∧
    Holds t 0 (0x300100 + 1) (intWord 0) :=
  ⟨(core_issues _).1, (core_issues _).2, by decide +kernel, by decide +kernel, by
    intro i hi; exact ⟨by revert i; decide +kernel, fun _ => by revert i; decide +kernel⟩,
    ⟨1, 0x100, by decide, local_good _ _ _ (by decide +kernel)⟩, ⟨1, 0x101, by decide, local_good _ _ _ (by decide +kernel)⟩⟩

/-- TrapsAndInterrupts: an opcode below 0xE0, one of the coprocessor's block on the ZW-8420, and an offer. -/
theorem witness_traps : IssuesAlone (coreState []) 0 1 ∧ isDefined 0xDF = false ∧ hasRcop .zw8420 = false ∧
    offerTo (waitState 0x14) 0 = some 32 :=
  ⟨(core_issues _).1, by decide, by decide, by decide +kernel⟩

/-- EntryFrame: 12 words below SP, a vector in local SRAM that names a fetchable address, read back after the frame. -/
theorem witness_entry : reg trapState 0 15 = addrWord 0x300100 ∧
    (∀ i < 12, isTaggedPlace 0 (0x300100 - 12 + BitVec.ofNat 24 i) = true) ∧ (coreOf trapState 0).slim = 0 ∧
    fetchable 0 0x300020 = true ∧ sramCell trapState 1 (0x200 + 4) = .good (tagged tagCode 0x300020) ∧
    placeOf 0 (0x300200 + 4) = .sram 1 0x204 := by decide +kernel

/-- A frame of 12 words in local SRAM, with PC 0x300020 and IE set. -/
def frameState : State :=
  (List.range 12).foldl (fun s i => setCell s 1 (0x100 + i)
    (.good ([tagged tagCode 0x300020, intWord 0x10, intWord 7, intWord 0x30201000].getD i 0))) (coreState [(15, addrWord 0x300100)])

/-- ReturnFromFrame. -/
theorem witness_return : reg frameState 0 15 = addrWord 0x300100 ∧ sramCell frameState 1 0x100 = .good (tagged tagCode 0x300020) ∧
    sramCell frameState 1 0x101 = .good (intWord 0x10) ∧ sramCell frameState 1 0x10B = .good 0 ∧
    tailSource frameState 0 0x10 = none := by decide +kernel

/-- LoadReturns: a load of BEAMPOS_LO into V3 whose answer stands behind another core's. -/
theorem witness_load_return :
    let w : LoadWait := { target := .register 0x210003, addr := 0x210003, use := .register 3 false 0 0 }
    let s := setCore up 0 { coreWith [] with stalled := some w }
    (coreOf s 0).stalled = some w ∧ isPointer 3 = false ∧
    ∀ d f, Msg.readResponse (.core 0) w.target d f ∉ [Msg.readResponse (.core 1) w.target [0, 0, 0, 0] false] := by
  refine ⟨by decide +kernel, by decide, ?_⟩
  intro d f h
  cases List.mem_singleton.1 h

/-- OperandTraps: UNSET, POISON and a wrong tag, at each operand; a divisor of 0. -/
theorem witness_operands :
    let s := coreState [(1, intWord 1), (2, tagged tagFix 1), (3, tagged 15 0), (4, intWord 0)]
    Issues s 0 1 ∧ tagOf (reg s 0 0) = 0 ∧ tagOf (reg s 0 2) ≠ 1 ∧ tagOf (reg s 0 3) = 15 ∧ tagOf (reg s 0 1) = 1 ∧
    reg s 0 4 = intWord 0 ∧ isPointer 8 = true :=
  ⟨(core_issues _).1.1, by decide +kernel⟩

/-! ### Blocks: the statements' hypotheses can be met -/

/-- The beam is LOCKED at 48 Hz with TL = 1,080; the module has an area of 4 by 2, and its frame store is clear. -/
def running : State :=
  let s := setF (setF up SC_BEAMCTL_EN 1) SC_BEAMSTAT_STATE bmLocked
  let s := setF (setF (setRegWord s SC_BEAMPER 213333333) SC_BEAMFMT_ACTIVE 1079) SC_LEADMAX_LEADMAX 0xFFFF
  { s with area := some { x0 := 0, y0 := 0, w := 4, h := 2 }, drive := { s.drive with clearing := false } }

/-- The beam in a state, with the rest of `running`. -/
def beamIn (st : Nat) : State := setF running SC_BEAMSTAT_STATE st

theorem test_running : scanOn running = true ∧ beamRuns running = true ∧ framePeriod running ≠ 0 := by and_intros <;> decide +kernel

/-- StepsAnswer: nothing pending, no reset asked for, with the house die on and off, before and at a second's last period. -/
theorem witness_steps : State.reset.pending = [] ∧ State.reset.dresser.resetAt = none ∧ houseOn State.reset = true ∧
    houseOn { State.reset with power := { Power.reset with offAwait := true } } = false ∧
    scanOn { State.reset with power := { Power.reset with scanOff := true } } = false ∧
    State.reset.recorder.opTicks + 1 < 40000000 ∧
    ¬ ({ State.reset.recorder with opTicks := 39999999 }.opTicks + 1 < 40000000) := by and_intros <;> decide +kernel

/-- StepKeepsCanonical: the reset state is canonical, and a step from it with a command pending answers. -/
theorem witness_canonical : State.reset.wf ∧ ∃ t, step { State.reset with pending := [.rsvwrClear] } = .next t :=
  ⟨by decide +kernel, _, rfl⟩

/-- The row of a register with no effect beyond its fields and no copies, present in the variant. -/
def plainRegister (s : State) (a : Nat) : Bool :=
  match regSpecAt a with
  | some (r, idx) => decide (r.hook = .none) && decide (r.copies = .one) && registerPresent s.variant r idx
  | none => false

/-- RegisterWriteCodes: a register of the house die and one of the scan die. -/
theorem witness_register_write : plainRegister up (HS_TMRPER 7) = true ∧ isRegisterAddr (BitVec.ofNat 24 (HS_TMRPER 7)) = true ∧
    isScanAddr (HS_TMRPER 7) = false ∧ plainRegister up SC_REFDLY = true ∧ isScanAddr SC_REFDLY = true := by
  and_intros <;> decide +kernel

/-- AbsentRegisters: the first DSC decoder's key register of the ZW-8420. -/
theorem witness_absent : (match regSpecAt AU_CTL with
    | some (r, idx) => registerPresent .zw8420 r idx = false
    | none => false) = true := by decide +kernel

/-- A flit that ends one edge message. -/
def edgeFlit (seq : BitVec 10) : Flit := { seq := seq, code := 0, crc := 0, parts := [{ msg := .edge 5, size := 4, last := true }] }

/-- FlitsAndAcks: a flit that is expected, one that is not, an acknowledgement of the flit before the expected one. -/
theorem witness_flits :
    let f := edgeFlit 0
    let d : BridgeDir := { BridgeDir.reset with replay := [f] }
    let e : BridgeDir := { d with expect := 1 }
    d.replay.find? (fun x => x.seq = 0) = some f ∧ (0 : BitVec 10) = d.expect ∧ (0 : BitVec 10) ≠ e.expect ∧
    e.replay = [] ++ f :: [] ∧ (∀ x ∈ f :: [], x.seq ≠ e.expect) ∧ up.dresser.queue = [] ∧ bridgeUp up = true := by
  and_intros <;> decide +kernel

/-- A bridge in a state, with the lanes under training and the failures so far. -/
def bridgeIn (st width failures : Nat) : State :=
  let s := setF State.reset HS_BRSTAT_STATE st
  { s with bridge := { s.bridge with width := width, failures := failures } }

/-- BridgeTraining: UP, DOWN, a fault that holds, trainings of both widths with and without a failure before, with and without
ALLOW4. -/
theorem witness_training : bridgeUp up = true ∧ linkFaultHolds up .laneLoss = true ∧ bridgeState State.reset = brDown ∧
    State.reset.bridge.poweredDown = false ∧ bridgeState (bridgeIn brTraining 8 0) = brTraining ∧
    getF (bridgeIn brTraining 8 0) HS_BRCTL_ALLOW4 = 1 ∧ getF (setF (bridgeIn brTraining 8 0) HS_BRCTL_ALLOW4 0) HS_BRCTL_ALLOW4 = 0 ∧
    bridgeState (bridgeIn brRetraining 4 1) = brRetraining ∧ (bridgeIn brRetraining 4 1).twin.latched = false ∧
    fourLanes 0x0F = true ∧ fourLanes 0xAA = true ∧ fourLanes 0x1F = false := by and_intros <;> decide +kernel

/-- MessagesApply: a register write, an edge, a record, a read request, a CM that no check of its arrival refuses, a stalled core
with the bridge DOWN. -/
theorem witness_messages :
    let w : Msg := .regWrite (.core 0) (SC_PERFSEL 0) 5
    let c : Commit := { src := .core 0, epoch := 1, tframe := 2, stream := 0, wcount := 0, counted := 0, uncounted := false,
                        inval := false, reply := none, stage := .held, headers := [] }
    (∀ m ∈ [w], waitsBehind running m = false) ∧ isSceneAddr (SC_PERFSEL 0) = false ∧ running.comp.behind = [] ∧
    arrivalFailure { running with comp := { running.comp with commits := [c] } } c = none ∧
    bridgeDown State.reset = true := by and_intros <;> decide +kernel

/-- BeamPosition, ScanDieReset, HouseAndPowerReset, Pads, AlarmsAndDebug, BenchPort: a powered module. -/
theorem witness_powered : scanOn up = true ∧ houseOn up = true ∧ up.power.supply = .running ∧ up.power.island = true ∧
    running.power.scanOff = false ∧ ({ up with pads := { up.pads with loop := 1 } }).pads.loop ≠ 0 := by and_intros <;> decide +kernel

/-- BeamStates: EN 0 and 1, LOCKED as a follower, HOLDOVER, a silent primary with the secondary heard. -/
theorem witness_beam_states :
    let h : Heard := { hops := 254, state := 2, frame := 0, fracs := 0 }
    getF up SC_BEAMCTL_EN = 0 ∧ getF running SC_BEAMCTL_EN = 1 ∧ (1 : Word).getLsbD 0 = true ∧ (2 : Word).getLsbD 0 = false ∧
    beamState running = bmLocked ∧ anchorRole running = 0 ∧ beamState (beamIn bmHoldover) = bmHoldover ∧
    heardLately { running with beam := { running.beam with source := some 1, heardSecondary := some h } } 2 = some h ∧
    h.state < 3 := by and_intros <;> decide +kernel

/-- An anchor (primary) in a state, with `good` good pulses so far. -/
def anchorIn (st good : Nat) : State :=
  let s := setF (setF (beamIn st) SC_BEAMCTL_ROLE 1) SC_BEAMCTL_REFLC 1
  { s with beam := { s.beam with goodRun := good } }

/-- BeamReference, the anchor: a pulse of a good period and one of a bad one, the fifth good one at error 0, a line clock edge on
time and one 20 ns off, a beacon due. -/
theorem witness_anchor : anchorRole (anchorIn bmLocked 0) ≠ 0 ∧ (anchorIn bmLocked 0).beam.followsOther = false ∧
    (anchorIn bmLocked 0).beam.frameSet = none ∧ beamState (anchorIn bmLocked 0) = bmLocked ∧
    periodGood (anchorIn bmAcquire 4) 213333333 = true ∧ periodGood (anchorIn bmAcquire 4) 213354667 = false ∧
    (pulseError (anchorIn bmAcquire 4)).natAbs ≤ 320 ∧ (anchorIn bmAcquire 4).beam.goodRun = 4 ∧
    getF (anchorIn bmLocked 0) SC_BEAMCTL_REFLC = 1 ∧ beamRuns (anchorIn bmLocked 0) = true ∧
    beaconState (anchorIn bmLocked 0) = some 0 ∧ (anchorIn bmLocked 0).beam.line % 256 = 0 ∧ bridgeUp (anchorIn bmLocked 0) = true := by
  and_intros <;> decide +kernel

/-- A line clock edge: on time, and where the counter stands a quarter of a line off. -/
theorem witness_line_clock :
    let far (s : State) : Bool :=
      640 * 1024 * frameLines s < (nearest (-(beamUnits s : Nat)) (256 * framePeriod s)).natAbs * 25
    far (anchorIn bmLocked 0) = false ∧
    far { anchorIn bmLocked 0 with beam := { (anchorIn bmLocked 0).beam with frac := 64 } } = true := by
  and_intros <;> decide +kernel

/-- A beacon of the primary, of MID 0, in frame 9 at line 0, LOCKED, after 3 hops. -/
def beaconPacket : Packet :=
  { packetWith 32 (sealBeacon (leBytes 4 1 ++ leBytes 4 9 ++ leBytes 4 100 ++ leBytes 4 0x03000000 ++ leBytes 2 0x4000 ++ [0, 0] ++
      leBytes 4 0 ++ leBytes 4 0)) with dkind := 1, vc := 3, kind := 2, dest := 255 }

/-- A follower whose port 0 has the beacon, with a measured delay and port 0 its parent. -/
def followerState : State :=
  let s := setF (setF running (WV_PORTSTAT_DLYV 0) 1) (WV_MC_VALID 255) 1
  let s := setF (setF (setF s (WV_MC_IN 255) 0) (WV_MC_OUT 255) 0x80) SC_BEAMCTL_STEPTHR 0
  { s with weave := { s.weave with anchors := [0x4000], beacons := [(0, { pkt := beaconPacket, pos := 0, stamp := 0 })] }, beam := { s.beam with source := some 1 } }

/-- BeamReference, the follower: a beacon that is accepted, and one refused for its residence. -/
theorem witness_beacon : beaconRefused followerState 0 beaconPacket.payload 100 = false ∧
    beaconRefused followerState 0 beaconPacket.payload 3200001 = true ∧
    groupEntry followerState (natBits beaconPacket.dest.toNat 7 0) = some (0, [7]) ∧ bridgeUp followerState = true ∧
    beamState followerState = bmLocked ∧ anchorRole followerState = 0 ∧
    followerState.beam.source = some (beaconFix followerState beaconPacket.payload (getF followerState (WV_PORTDLY_DELAY 0)) 0).anchor ∧
    getF followerState SC_BEAMCTL_STEPTHR = 0 := by and_intros <;> decide +kernel

/-- BeamCrossings: a frame start to come and one a shift has taken; a watermark at the last line, not yet fired, with the bridge
UP and DOWN. -/
theorem witness_crossings :
    let s := setF (setF running (SC_BEAMWM_EN 3) 1) (SC_BEAMWM_LINE 3) 1079
    beamState running ≠ bmOff ∧ running.beam.adopt = none ∧ running.beam.begun = true ∧
    ({ running.beam with begun := false }).begun = false ∧ watermarkFracs s 3 = some (1079 * 256) ∧ watermarkFired s 3 = false ∧
    bridgeDown s = false ∧ bridgeDown (setF s HS_BRSTAT_STATE brDown) = true := by and_intros <;> decide +kernel

/-- Frame 0 under composition, some lines done. -/
def composingState (done : List (Nat × Nat)) : State :=
  { running with comp := { running.comp with composing := some (0, 0), linesDone := done } }

/-- Composition: a pass to start, with and without its walk; a line to compose; a pass to end, the last one and one before. -/
theorem witness_composition : running.comp.composing = none ∧ (0 : BitVec 2).toNat < feeds running .applied ∧
    passInOrder running 0 0 = true ∧ walkReady running 0 0 = true ∧
    walkReady { running with applied := (setF running SC_TRCTL_EN 1).regs } 0 0 = false ∧
    lineAwaited (composingState []) 0 1 = true ∧ sideboardWaits (composingState []) ⟨0, 0, 4, 2⟩ 0 0 1 = false ∧
    passDone (composingState [(0, 0), (0, 1)]) = true ∧ feeds running .applied ≤ 0 + 1 ∧ getF (setF running SC_ECCCTL_CTHR 0) SC_ECCCTL_CTHR = 0 := by
  and_intros <;> decide +kernel

/-- Two feeds in force. -/
def twoFeeds : State := { running with applied := (setF (setF (setF running SC_FEEDCTL_NFEED 1) SC_FEEDCTL_WINEN 1) SC_PRESENT_MODE 1).regs }

/-- Composition and Flips with two feeds; ROLLING, GLOBAL with one feed; lines that have not flipped, one of them complete. -/
theorem witness_flips : modeGlobal running = false ∧
    modeGlobal { running with applied := (setF running SC_PRESENT_MODE 1).regs } = true ∧
    feeds { running with applied := (setF running SC_PRESENT_MODE 1).regs } .applied = 1 ∧
    modeGlobal twoFeeds = true ∧ feeds twoFeeds .applied = 2 ∧ (1 : BitVec 2).toNat < feeds twoFeeds .applied ∧
    (∀ k < 2, flippedAlready twoFeeds k 0 1 = false) ∧ 0 + 1 < feeds twoFeeds .applied := by and_intros <;> decide +kernel

/-- SceneMemory: DRAM with one good unit, the last one below the top; the sorter's queue with room and full; an entry queued, with
and without a rescan. -/
theorem witness_scene :
    let s := { running with dram := { running.dram with units := [(0x3DFFFFF, UnitState.good)] } }
    let e : SortEntry := { entry := 0, credits := [] }
    sorterFull s 0xF7FFFFC0 64 = false ∧ egressBase s = 0 ∧ 0xF7FFFFC0 + 64 ≤ 0xF8000000 ∧
    (∀ u ∈ unitsOf 0xF7FFFFC0 64, unitState s u = .good) ∧ s.scene.rescan = none ∧
    sorterFull { s with scene := { s.scene with queue := List.replicate 1024 e } } 0 64 = true ∧
    ({ s.scene with rescan := some 4 } : Scene).rescan.isSome = true := by and_intros <;> decide +kernel

/-- TrestleWalks: a walk that is due, one that is not, one in progress. -/
theorem witness_walks :
    let s := { running with applied := (setF running SC_TRCTL_EN 1).regs }
    let w : Walk := { stream := 3, frame := 0, entries := [], read := 0 }
    walkDue s 0 ((nextFrame s).getD 0) = true ∧ walkDue { s with trestle := { s.trestle with walking := some w } } 0 ((nextFrame s).getD 0) = false ∧
    w.stream < 4 := by and_intros <;> decide +kernel

/-- A held commit of the dresser for frame `t`. -/
def heldCommit (t : BitVec 16) (wcount counted : Nat) (stage : Stage) : Commit :=
  { src := .dresser, epoch := 5, tframe := t, stream := 0, wcount := wcount, counted := counted, uncounted := false, inval := false,
    reply := none, stage := stage, headers := [] }

/-- With one commit. -/
def withCommit (c : Commit) : State := { running with comp := { running.comp with commits := [c] } }

/-- CommitsAndEgress, commits: a write of SC_CMGO; a held commit whose writes are complete, with D(T - 1) passed and not; one that
is incomplete at D(T), and before; an admitted one whose frame may come, and, in FREE with FREEACT 0b10, may not. -/
theorem witness_commits : stagesCommit .dresser = true ∧ bridgeUp running = true ∧
    commitAt (withCommit (heldCommit 0 1 1 .held)) .dresser .held = some (heldCommit 0 1 1 .held) ∧
    deadlinePassed (withCommit (heldCommit 0 1 1 .held)) (targetFrame running 0 - 1) = true ∧
    deadlinePassed (withCommit (heldCommit 2 1 1 .held)) (targetFrame running 2 - 1) = false ∧
    (heldCommit 0xFFFF 1 0 .held).counted < (heldCommit 0xFFFF 1 0 .held).wcount ∧
    deadlinePassed (withCommit (heldCommit 0xFFFF 1 0 .held)) (targetFrame running 0xFFFF) = true ∧
    incomplete (withCommit (heldCommit 2 1 0 .held)) (heldCommit 2 1 0 .held) = false ∧
    (withCommit (heldCommit 1 0 0 .admitted)).wf ∧
    commitAt (withCommit (heldCommit 1 0 0 .admitted)) .dresser .admitted = some (heldCommit 1 0 0 .admitted) ∧
    frameComposed (withCommit (heldCommit 1 0 0 .admitted)) (targetFrame running 1 - 1) = true ∧
    beamState (beamIn bmFree) = bmFree ∧ getF (setF running SC_BEAMCTL_FREEACT 2) SC_BEAMCTL_FREEACT = 2 := by
  and_intros <;> decide +kernel

/-- CommitsAndEgress: admission without a failure, and with one (a unit that the part has not). -/
theorem witness_admission : admissionFailure running 0 = none ∧
    admissionFailure { running with comp := { running.comp with absentMark := #v[[2], [], [], []] } } 0 ≠ none ∧
    loopBand 512 < 4 ∧ flag running SC_EGCTL_LOCK = false ∧ flag (setF running SC_EGCTL_LOCK 1) SC_EGCTL_LOCK = true := by
  and_intros <;> decide +kernel

/-- RefreshAndInterlock: the plane generators set up. -/
def driveState : State := setF (setF (setF running SC_PGCFG_NREF 48) SC_PGCFG_MUXM1 31) SC_PGCFG_PM1 7

/-- A state of the interlock, with CLAIM written and the outputs driven. -/
def ownIn (st : Nat) : State := setF (setF (setF driveState SC_OWNSTAT_STATE st) SC_OWNCTL_CLAIM 1) SC_OWNSTAT_DRIVING 1

/-- RefreshAndInterlock: the last cycle, row slot and plane slot; a region that may run and one that fails a check; the interlock
RELEASED, CLAIMING, HOLDING, WAITING, CONTESTED. -/
theorem witness_refresh : driveState.drive.clearing = false ∧ (47 : BitVec 6).toNat < refreshes driveState ∧
    (31 : BitVec 6).toNat < muxRows driveState ∧ (7 : BitVec 5).toNat < planeCount driveState ∧ runMask driveState = 0 ∧
    runFailure driveState 0 = none ∧ runFailure driveState 3 = some (7, none) ∧
    ownState driveState = ownReleased ∧ driveState.twin.failed = false ∧ ownState (ownIn ownHolding) = ownHolding ∧
    (ownIn ownHolding).drive.releaseAtSlot = false ∧ ownB driveState = false ∧ (ownIn ownHolding).twin.rearm = false ∧
    ownState (ownIn ownClaiming) = ownClaiming ∧ getF (setF (ownIn ownClaiming) SC_OWNCTL_TIEWIN 0) SC_OWNCTL_TIEWIN = 0 ∧
    ownState (ownIn ownWaiting) = ownWaiting ∧ (ownIn ownWaiting).drive.withdrawn = none ∧
    ownState (ownIn ownContested) = ownContested := by and_intros <;> decide +kernel

/-- A fill of 64 by 2 pixels of 4 bytes at address 0, and where it stands. -/
def copyState (k g : Nat) (pace abort : Bool) : CopyOp :=
  { copyOperands running with op := 1, bpp := 2, pace := pace, dstPitch := 256, w := 64, h := 2, k := k, g := g, abort := abort,
                              line0 := 500 }

/-- BlockCopier: operands that pass and some that do not; an operation at a segment, at its last row's end, paced and waiting. -/
theorem witness_copier : running.copier = none ∧ copyError running (copyState 0 0 false false) = 0 ∧
    copyError running { copyState 0 0 false false with dstPitch := 0 } ≠ 0 ∧ (0 : Word).getLsbD 1 = false ∧
    (copyState 1 1 false false).segments ≤ (copyState 1 1 false false).g ∧ (copyState 1 1 false false).h ≤ 1 + 1 ∧
    ¬ ((copyState 0 1 false false).segments ≤ 1 ∧ (copyState 0 1 false false).h ≤ 0 + 1) ∧
    rowReleased running (copyState 0 0 false false) = true ∧ rowReleased running (copyState 0 0 true false) = false ∧
    (copyState 0 0 false false).g < (copyState 0 0 false false).segments ∧ (copyState 0 0 false false).reads = false ∧
    ({ copyState 0 0 false false with op := 2 }).reads = true ∧ sorterFull running 0 256 = false ∧ egressBase running = 0 := by
  and_intros <;> decide +kernel

/-- BlockCopier: units that are good, and one that cannot be read. -/
theorem witness_copier_units :
    let s := { running with dram := { running.dram with units := [(0, UnitState.good), (1, .good), (2, .good), (3, .good), (4, .bad)] } }
    (∀ u ∈ unitsOf 0 256, unitState s u = .good) ∧ (unitsOf 256 64).any (unitBad s) = true := by and_intros <;> decide +kernel

/-- CoresInterruptsTimers: edges on source 32 with and without coalescing, pending and not, below its count and at it; source 9
without an edge; timers on and off; a channel that paces on timer 0. -/
theorem witness_interrupts :
    let s := { up with hic := { up.hic with edges := [32] } }
    let c := setF s (HIC_SRCCFG_CCOUNT 32) 3
    let h := { c with hic := { c.hic with held := [(32, 2)] } }
    let d : DmaCh := { DmaCh.reset with phase := .moving, desc := [0x200, 0, 0, 1, 0, 0, 0, 0], credits := 255 }
    9 ∉ s.hic.edges ∧ 32 ∈ s.hic.edges ∧ sourcePresent s 32 = true ∧ ¬ (1 < coalesceCount s 32) ∧ getF s (HIC_SRCCFG_CTIME 32) = 0 ∧
    isPending s 32 = false ∧ isPending (setPending s 32) 32 = true ∧ 1 < coalesceCount c 32 ∧
    heldEdges c 32 + 1 < coalesceCount c 32 ∧ coalesceCount h 32 ≤ heldEdges h 32 + 1 ∧
    getF (setF h (HIC_SRCCFG_CTIME 32) 1) (HIC_SRCCFG_CTIME 32) ≠ 0 ∧ wakeDefined s 17 true = true ∧ wakeDefined s 31 true = false ∧ s.power.island = true ∧
    ({ s.hic with clocksStopped := true }).clocksStopped = true ∧
    flag s (HS_TMRCTL_EN 0) = false ∧ flag (setF s (HS_TMRCTL_EN 0) 1) (HS_TMRCTL_EN 0) = true ∧
    d.field 0 11 9 = 1 ∧ d.field 0 14 12 = 0 ∧ coreStalled s 0 = false ∧ (coreOf s 0).syncing = false := by
  and_intros <;> decide +kernel

theorem house_good (s : State) (a : Nat) (w : Tagged) (hp : pageMarked s (a / 1024) = true) (h : sramCell s 0 a = .good w) :
    sramLoad s 0 a = (s, some w) := by simp [sramLoad, hp, h, cellValue]

/-- A descriptor at word 0 of house SRAM: one element from word 16 to word 32, within house SRAM. -/
def descriptorWords : List Word := [0x00800000, 16, 32, 1, 0, 0, 0, 0]

/-- House SRAM with the descriptor, page 0 marked, and a word to move. -/
def dmaState : State :=
  sramStore ((List.range 8).foldl (fun s i => sramStore s 0 i (intWord (descriptorWords.getD i 0))) running) 0 16 (intWord 9)

/-- The channel that has loaded it. -/
def dmaLoaded (c : DmaCh) : DmaCh :=
  { c with phase := .moving, desc := descriptorWords, inDram := false, moved := 0, applied := 0, credits := 0, bursts := 0,
           f0 := 0, asked := 0, released := 0, stops := 0 }

/-- DmaAndMemory: a start whose descriptor is accepted, and one that is refused (a count of 0). -/
theorem witness_dma_start : (dmaCh dmaState 31).phase = .idle ∧ dmaHeldByAudio dmaState 31 = false ∧ descriptorWords.length = 8 ∧
    getF dmaState (DMA_CHDESC_ADDR 31) % 8 = 0 ∧ getF dmaState (DMA_CHDESC_ADDR 31) < 0x80000 ∧
    (∀ j < 8, ∃ w, sramLoad dmaState 0 (0 + j) = (dmaState, some w) ∧ payload w = descriptorWords.getD j 0 ∧
      1 ≤ (tagOf w).toNat ∧ (tagOf w).toNat ≤ 7) ∧
    (dmaLoaded (dmaCh dmaState 31)).refused 31 = none ∧ (dmaLoaded (dmaCh dmaState 31)).endBad false = none ∧
    (dmaLoaded (dmaCh dmaState 31)).endBad true = none ∧ (dmaLoaded (dmaCh dmaState 31)).field 0 11 9 ≠ 2 ∧
    ({ dmaLoaded (dmaCh dmaState 31) with desc := [0, 16, 32, 0, 0, 0, 0, 0] }).refused 31 ≠ none ∧ dmaQuiet dmaState 31 = true := by
  refine ⟨by decide +kernel, by decide +kernel, by decide, by decide +kernel, by decide +kernel, ?_, by decide +kernel, by decide +kernel,
    by decide +kernel, by decide +kernel, by decide +kernel, by decide +kernel⟩
  have h : ∀ j < 8, pageMarked dmaState ((0 + j) / 1024) = true ∧
      sramCell dmaState 0 (0 + j) = .good (intWord (descriptorWords.getD j 0)) := by decide +kernel
  intro j hj
  refine ⟨intWord (descriptorWords.getD j 0), house_good _ _ _ (h j hj).1 (h j hj).2, ?_, ?_, ?_⟩ <;> revert j <;> decide +kernel

/-- A channel that moves its one element. -/
def dmaMoving : State := setDma dmaState 31 (dmaLoaded (dmaCh dmaState 31))

/-- DmaAndMemory: a burst of house SRAM that is the engine's choice, and none; an abort with nothing on its way. -/
theorem witness_dma_burst : dmaEngaged ((List.range 32).foldl dmaSettle dmaMoving) = false ∧
    dmaChoice ((List.range 32).foldl dmaSettle dmaMoving) = some 31 ∧ dmaChoice dmaState = none ∧
    (dmaCh dmaMoving 31).field 0 1 0 = 0 ∧ (dmaCh dmaMoving 31).field 0 3 2 = 0 ∧
    min ((dmaCh dmaMoving 31).field 3 31 24 + 1) ((dmaCh dmaMoving 31).count - (dmaCh dmaMoving 31).moved) = 1 ∧
    (dmaCh dmaMoving 31).element false 0 = 16 ∧ (dmaCh dmaMoving 31).element true 0 = 32 ∧ pageMarked dmaMoving 0 = true ∧
    sramCell dmaMoving 0 16 = .good (intWord 9) ∧ dmaQuiet dmaMoving 31 = true ∧ (dmaCh dmaMoving 31).asked = 0 := by
  and_intros <;> decide +kernel

/-- DmaAndMemory: the last writes applied, some of them lost, and a chain that ends; the patrols on and off; the initialiser. -/
theorem witness_dma_memory :
    let c : DmaCh := { dmaLoaded (dmaCh dmaState 31) with phase := .applying, moved := 1, applied := 1 }
    c.count ≤ c.applied ∧ c.wb = false ∧ c.field 0 23 23 = 1 ∧ ({ c with applied := 0 }).applied < c.count ∧
    getF (setF up HS_MEMCTL_SCRUBEN 1) HS_MEMCTL_SCRUBEN = 1 ∧ getF (setF up HS_MEMCTL_SCRUBEN 0) HS_MEMCTL_SCRUBEN = 0 ∧
    patrolFrom dmaState 512 0 < 524288 ∧ getF up HS_MEMSTAT_INITBUSY = 0 ∧ bitsOf 0x3FFFF 8 0 ≤ bitsOf 0x3FFFF 17 9 ∧
    bitsOf 0x000001 17 9 < bitsOf 0x000001 8 0 ∧ getF (setF up HS_MEMSTAT_INITBUSY 1) HS_MEMSTAT_INITBUSY = 1 := by
  and_intros <;> decide +kernel

/-- DRAM patrol on over its first range. -/
theorem witness_dram_patrol :
    let s := setF (setF up SC_ECCCTL_DSCRUBEN 1) (SC_DSCRUBB_EN 0) 1
    getF s SC_ECCCTL_DSCRUBEN = 1 ∧ (scrubNext s s.dram.scrubUnit).isSome = true := by and_intros <;> decide +kernel

/-- A port in a state. -/
def portIn (st p : Nat) : State := setF (setF up (WV_PORTSTAT_STATE p) st) (WV_PORTCFG_EN p) 1

/-- Replaces what a port holds. -/
def withPort (s : State) (p : Nat) (f : Port → Port) : State := setPort s p (f (portOf s p))

/-- Hello of the east neighbour, which faces port 1 by its port 3. -/
def helloFrom (serial : BitVec 64) : Hello :=
  { controller := false, serial := serial, port := 3, col := 0, row := 0, side := false, posv := false, mid := 9, midv := true,
    gepoch := 0, dist := 2, parentMe := false }

/-- Links: ports DOWN, TRAINING, HELLO, UP, FENCED, RETRAIN; failures; a hello that fences and one that does not; a fault that
holds and one that does not; frames, packets to here, elsewhere, nowhere, out of hops, and ill headed. -/
theorem witness_links :
    let s := portIn ptUp 1
    let here := { packetWith 0 [] with dest := 7, hoplim := 1 }
    let own := setF (setF s WV_ID_MID 7) WV_ID_MIDV 1
    portState (portIn ptDown 6) 6 = ptDown ∧ flag (portIn ptDown 6) (WV_PORTCFG_EN 6) = true ∧
    portState (portIn ptTraining 0) 0 = ptTraining ∧ portState (portIn ptHello 0) 0 = ptHello ∧ portState s 1 = ptUp ∧
    portState (portIn ptFenced 0) 0 = ptFenced ∧ portState (portIn ptRetrain 0) 0 = ptRetrain ∧
    (portOf (withPort s 1 fun x => { x with failures := 2 }) 1).failures ≠ 0 ∧
    helloFence s 1 { helloFrom 5 with port := 2 } ≠ 0 ∧ portFaultHolds s 1 .laneLoss = true ∧ portFaultHolds s 1 .repeatedNak = false ∧
    (1 : BitVec 12) ≠ (portOf s 1).expect ∧ headerRefused 1 here = false ∧ here.hoplim ≠ 0 ∧ ({ here with hoplim := 0 }).hoplim = 0 ∧
    headerRefused 1 { here with cls := 0 } = true ∧ ownMid own = some here.dest ∧ ownMid s ≠ some here.dest ∧
    unicastPort s here.dest 0 = none ∧ (portOf s 1).queue = [] ∧ (portOf s 1).room { pkt := here, copy := false } = true ∧
    (portOf s 1).used = Vector.replicate 4 0 ∧ portPresent .zw8460 6 = true := by
  and_intros <;> decide +kernel

/-- Links: a route to port 1 for a packet from port 0, a hello that does not fence, and a link frame in the replay buffer. -/
theorem witness_routes :
    let s := portIn ptUp 1
    let r := { s with weave := { s.weave with routes := [(7, 0x81)] } }
    let f : LinkFrame := { seq := 5, credits := 0, item := { pkt := packetWith 0 [], copy := true } }
    unicastPort r 7 0 = some 1 ∧ helloFence s 1 (helloFrom 5) = 0 ∧ ([f].any fun x => x.seq = 5) = true ∧
    (∀ i ∈ [f].map (·.item), i.copy = true) := by and_intros <;> decide +kernel

/-- An item for a queue. -/
def itemFor (q : BitVec 14) (seq : BitVec 16) (payload : List Byte) : Packet :=
  { packetWith (BitVec.ofNat 12 payload.length) payload with qid := q, seq := seq, vc := 2, cls := 2 }

/-- A packet as an item. -/
def item (p : Packet) : Item := { pkt := p, pos := 0, stamp := 0 }

/-- An empty port has a buffer of the neighbour for the next packet, whatever that neighbour has. -/
theorem witness_buffers (port vc : Nat) : vcCount Port.reset.used vc ≤ Config.linkBuffers port vc := by
  have h : vcCount Port.reset.used vc = 0 := by
    match vc with
    | 0 | 1 | 2 | 3 => rfl
    | n + 4 => rfl
  rw [h]; exact Nat.zero_le _

/-- An IN queue of two slots in house SRAM, with what it holds. -/
def inQueue (held : List Packet) : Drawer :=
  { Drawer.off with enabled := true, mode := drIn, vc := 2, slots := 2, gapTime := 5, held := held.map item }

/-- QID 40 is such a queue, and items wait in the inbox. -/
def drawerState (d : Drawer) (inbox : List (Nat × Packet)) : State :=
  { up with weave := { up.weave with drawers := [(40, d)], inbox := inbox.map fun x => (x.1, item x.2) } }

/-- RoutesAndDrawers, drawers: an item at NEXT, one ahead of it at distance 1 and at 63, a copy; an item that no queue accepts; a gap
with something held, and none. -/
theorem witness_drawers :
    let p := itemFor 40 0 [1, 2, 3, 4]
    let far := itemFor 40 63 [1, 2, 3, 4]
    let s := drawerState (inQueue []) [(0, p)]
    s.weave.enabling = [] ∧ videoless s p = false ∧ itemAccepted s 0 p = true ∧ itemStalls s p = false ∧
    (inQueue []).noSpace = false ∧ (p.seq - (inQueue []).next).toNat = 0 ∧ (far.seq - (inQueue []).next).toNat = 63 ∧
    ((inQueue [far]).held.any fun x => x.pkt.seq = far.seq) = true ∧ itemAccepted s 0 { p with cls := 1, vc := 0 } = false ∧
    32768 ≤ ((0xFFFF : BitVec 16) - (inQueue []).next).toNat ∧ heldNext (inQueue [far]) = none ∧ partnerMid s = none ∧
    (inQueue []).held = [] := by and_intros <;> decide +kernel

/-- RoutesAndDrawers, drawers: the inbox gives the item; on the ZW-8420 a video packet; a selected queue; HEAD and TAIL in range. -/
theorem witness_drawer_writes :
    let s := setF (drawerState (inQueue []) [(0, itemFor 40 0 [1, 2, 3, 4])]) WV_DRSEL_QID 40
    (takeInbox s fun x => (32 ≤ x.2.pkt.qid.toNat || videoless s x.2.pkt || !itemAccepted s x.1 x.2.pkt) && !itemStalls s x.2.pkt).isSome = true ∧
    videoless { s with variant := .zw8420 } { itemFor 40 0 [] with vc := 1 } = true ∧ selectedQid s = 40 ∧ 32 ≤ (40 : BitVec 14).toNat ∧
    bitsOf 1 15 0 < (inQueue []).slots.toNat ∧ (inQueue []).mode = drIn := by and_intros <;> decide +kernel

/-- RoutesAndDrawers: a descriptor's answer, good, failed, and with a mode that is refused. -/
theorem witness_descriptor :
    let bs := leBytes 4 0x20 ++ leBytes 4 0 ++ leBytes 4 2 ++ List.replicate 20 (0 : Byte)
    let s := { up with weave := { up.weave with enabling := [(40, 1280)] },
                       bridge := { up.bridge with toHouse := { up.bridge.toHouse with
                         arrived := [.readResponse (.scene 40) (.dram 1280) bs false] } } }
    s.weave.enabling = [(40, 1280)] ∧ (takeAnswer s (.scene 40) (.dram 1280)).isSome = true ∧ s.weave.inbox = [] ∧
    descriptorRefused ((List.range 8).map fun i => BitVec.ofNat 32 (leAt bs (4 * i) 4)) = false ∧
    descriptorRefused [4, 0, 2, 0, 0, 0, 0, 0] = true := by and_intros <;> decide +kernel

/-- RoutesAndDrawers: OUT queues, idle, in house SRAM and in DRAM; a slot whose packet still waits, and one whose packet has left;
a slot whose header has come, and one whose payload has. -/
theorem witness_out :
    let d := { Drawer.off with enabled := true, mode := drOut, slots := 2, tail := 1 }
    let r : OutRead := { qid := 40, head := some (List.replicate 16 0), left := 4, got := [] }
    let s := drawerState { d with sending := some { w0 := 0, w3 := 0, lost := false } } []
    (drawerOf s 40).sending = some { w0 := 0, w3 := 0, lost := false } ∧ outWaits s 40 = false ∧ d.sending = none ∧
    outWaits (setPort s 1 { portOf s 1 with queue := [{ pkt := itemFor 40 0 [], copy := false, out := some 40 }] }) 40 = true ∧
    d.head ≠ d.tail ∧ d.inDram = false ∧ ({ d with inDram := true }).inDram = true ∧ d.mode = drOut ∧ Drawer.off.enabled = false ∧
    stalledAtBridge up .video = false ∧ natBits (leAt (leBytes 4 0 ++ leBytes 4 2048) 4 4) 11 0 = 2048 ∧ r.left ≤ (leBytes 4 0).length := by
  and_intros <;> decide +kernel

/-- RoutesAndDrawers: a position that agrees and one that conflicts; geometry items with entries, ill formed and to activate; an
activation that is refused, and one whose entry is taken; a route plan item; a VIDEO queue with no slice. -/
theorem witness_geometry :
    let item := itemFor 3 0 (leBytes 4 1 ++ leBytes 2 0 ++ leBytes 2 1 ++ leBytes 8 1 ++ List.replicate 16 (0 : Byte))
    let act := itemFor 3 0 (leBytes 4 1 ++ leBytes 4 0 ++ leBytes 8 1)
    let a : Activation := { epoch := 1, total := 1, anchors := [], failed := false, reading := [], entries := [] }
    let s := setF up WV_POS_POSV 1
    let e : GeoEntry := (5, [0x00008000, 0, 0, 0x00010003])
    flag up WV_POS_POSV = false ∧ bitsOf 5 13 0 ≠ getF s WV_POS_COL ∧ isActivation item = false ∧ isActivation act = true ∧
    16 + 16 * geoCount item ≤ item.payload.length ∧ geoCount item ≤ 127 ∧
    ({ item with payload := item.payload.take 20 }).payload.length < 16 + 16 * geoCount item ∧
    (acceptedEntry s a []) = none ∧ (acceptedEntry s a [e]) = some e ∧ sourceQuiet s (.scene 3) = true := by
  and_intros <;> decide +kernel

/-- RoutesAndDrawers: a route plan item at its place in the window; a slice not whole. -/
theorem witness_route_plan :
    let p := { itemFor 4 0 (leBytes 4 0x00810007) with cls := 2 }
    let s := { up with weave := { up.weave with inbox := [(0, item p)] } }
    let v := { Drawer.off with enabled := true, mode := drVideo, inDram := true, slots := 2 }
    (takeQueue s 4).isSome = true ∧
    (windowItem { s with weave := { s.weave with inbox := [] } } 4 (item p)).2 = [p] ∧ p.payload.length = 4 ∧
    natBits (leAt p.payload 0 4) 15 14 = 0 ∧ (gatherSlice up v [] (ringCount v)).2 = none ∧ sourceQuiet up .video = true := by
  and_intros <;> decide +kernel

/-- RoutesAndDrawers: a slice of one chunk, without a parameter set, is whole and is counted. -/
theorem witness_slice :
    sliceOf up [some (List.replicate 48 0)] = .inr WV_ENGCNT_VIDDROP := by rfl

/-- A twin pair: the partner on the other side of position 0, MID 8, behind port 6. -/
def pairState : State :=
  let s := setF (setF (setF (portIn ptUp 6) WV_POS_POSV 1) WV_TWCTL_EN 1) WV_ID_MIDV 1
  let s := withPort s 6 fun x => { x with hello := some { helloFrom 5 with mid := 8, port := 6 } }
  { s with weave := { s.weave with table := some false, positions := [(8, 0x0000C000)], routes := [(8, 0x86)] } }

/-- Its inbox holds one item of the partner. -/
def pairWith (p : Packet) : State := { pairState with weave := { pairState.weave with inbox := [(6, item { p with smid := 8, cls := 1 })] } }

/-- Its QID takes that item alone, and the state after has a property. -/
def twinTakes (p : Packet) (f : State → Bool) : Bool :=
  match takeTwin (pairWith p) p.qid with
  | some (u, [x]) => decide (x = { p with smid := 8, cls := 1 }) && f u
  | _ => false

/-- TwinPair: supervision on and off; a heartbeat; a partner not yet SILENT; signatures to compare; a self-check with neither, the
partner's and its own result; TAKE and YIELD in order and not. -/
theorem witness_twin :
    let active := { setF pairState SC_OWNSTAT_STATE ownHolding with
      twin := { pairState.twin with partner := some { state := BitVec.ofNat 8 (5 + 16 * bmLocked), fault := 0, check := 0, epochs := Vector.replicate 4 0 } } }
    let standby := setF (setF pairState SC_OWNSTAT_STATE ownWaiting) SC_OWNCTL_CLAIM 1
    supervised pairState = true ∧ supervised up = false ∧ twinTakes (itemFor 16 0 (List.replicate 28 0)) supervised = true ∧
    listens pairState = true ∧ listens up = false ∧ silent pairState = false ∧ comparesLines pairState = true ∧ unicastPort pairState 8 7 = some 6 ∧ partnerMid pairState = some 8 ∧
    ownMid pairState ≠ some 8 ∧ (portOf pairState 6).queue = [] ∧ (portOf pairState 6).room { pkt := itemFor 16 0 (List.replicate 28 0), copy := false } = true ∧
    vcCount (portOf pairState 6).used 2 = 0 ∧ ownB active = false ∧ takeAllowed standby = true ∧
    takeAllowed up = false ∧ twinRole standby ≠ 1 ∧ twinRole active = 1 ∧ yieldAllowed active = true ∧ yieldAllowed up = false := by
  and_intros <;> decide +kernel

/-- TwinPair: the items of QIDs 17 to 21; a patch request for an item that is not in the log; a patch answer's head and body. -/
theorem witness_twin_items :
    let a : Signature := { frame := 1, pass := 0, line := 0, crc := 1, since := 0 }
    let q := { Drawer.off with enabled := true, mode := drScene, vc := 2, slots := 2, asked := seqRun 0 63 }
    twinTakes (itemFor 17 0 (leBytes 2 1 ++ leBytes 2 0 ++ leBytes 2 0 ++ leBytes 2 1 ++ leBytes 4 2)) comparesLines = true ∧
    a.sameLine { a with crc := 2 } = true ∧ a.crc ≠ ({ a with crc := 2 } : Signature).crc ∧
    twinTakes (itemFor 18 0 (leBytes 2 40 ++ leBytes 2 0 ++ leBytes 2 1)) supervised = true ∧
    twinTakes (itemFor 19 0 (List.replicate 32 0)) (fun _ => true) = true ∧
    twinTakes (itemFor 20 0 []) (fun u => twinRole u != 1) = true ∧ twinTakes (itemFor 21 0 [1]) (fun _ => true) = true ∧
    (packetOf (List.replicate 32 0) []).kind ≠ 5 ∧ q.asked = seqRun q.next 63 ∧ q.mode = drScene ∧ pairState.twin.log = [] := by
  and_intros <;> decide +kernel

/-- The audio unit is on, with what else the fields say. -/
def audioState (fs : List (Fld × Nat)) : State := fs.foldl (fun s f => setF s f.1 f.2) (setF running AU_CTL_EN 1)

/-- Audio: off, in HIBERNATE and on; a fetch to ask for, and one whose answer has come; a voice that plays on, loops and ends; rings empty, dry and with a word; events of op 6 and 7, late and on
their frame; a queue of 511 and of 512 events. -/
theorem witness_audio :
    let e : VoiceEvent := { frame := 0, line := 0, op := 6, voice := 0, value := 0 }
    let s := audioState [(AU_VCTL_RUN 255, 1), (AU_VLEN_LEN 255, 8), (AU_VSTEP_STEP 255, 65536), (AU_STRS_SIZE 7, 4), (AU_STRW_WP 7, 1),
      (AU_CTL_I2SEN, 1)]
    let f : State := { s with
      audio := { s.audio with asked := [(255, 0)] },
      bridge := { s.bridge with toHouse := { s.bridge.toHouse with
        arrived := [.readResponse audioSrc (.dram 0) (List.replicate 64 1) false] } } }
    audioRuns running = false ∧ audioRuns (setF s HS_PWRSTAT_STATE 2) = false ∧ audioRuns s = true ∧ s.audio.asked = [] ∧
    bridgeDown s = false ∧ stalledAtBridge s audioSrc = false ∧ bridgeDown (setF s HS_BRSTAT_STATE brDown) = true ∧
    f.audio.asked = [(255, 0)] ∧ (takeAnswer f audioSrc (.dram (64 * 0))).isSome = true ∧ audioRuns f = true ∧
    getF f (AU_VCTL_FMT 255) = 0 ∧ (getF f (AU_VSTART_START 255) / 2 * 2 + 2 * 31) % 2 ^ 32 / 64 = 0 ∧ s.audio.due = 0 ∧ getF s (AU_VCTL_RUN 255) = 1 ∧
    (voiceOf s 255).pos + getF s (AU_VSTEP_STEP 255) < getF s (AU_VLEN_LEN 255) * 65536 ∧ getF s (AU_STRS_SIZE 6) = 0 ∧
    getF s (AU_STRS_SIZE 7) ≠ 0 ∧ getF s (AU_STRP_RP 7) ≠ getF s (AU_STRW_WP 7) ∧ bridgeUp s = true ∧ getF s AU_CTL_I2SEN = 1 ∧
    e.op.toNat < 7 ∧ 7 ≤ ({ e with op := 7 } : VoiceEvent).op.toNat ∧ beamRuns s = true ∧
    (e.frame - s.beam.frame.setWidth 8).toInt = 0 ∧ (({ e with frame := 255 } : VoiceEvent).frame - s.beam.frame.setWidth 8).toInt < 0 ∧
    e.line.toNat < frameLines s ∧ hasAudio s.variant = true ∧ (List.replicate 511 e).length < 512 ∧
    512 ≤ (List.replicate 512 e).length := by and_intros <;> decide +kernel

/-- A write is accepted by every check, and its entry is not persistent. -/
def accepts (s : State) (cls : PortClass) (egr : Bool) (index sub : Nat) (v : List Byte) : Bool :=
  houseOn s && decide (checkRequest s (plainRequest cls egr 2 index sub v) = stOk) &&
    match entryAt index sub with
    | some e => decide (checkValue s e v = stOk) && !e.persistent
    | none => false

/-- The dresser is free in these states. -/
theorem dresser_free (s : State) (h : s.dresser = up.dresser) (b : s.bridge = up.bridge) : DresserFree s := by
  refine ⟨by rw [h]; rfl, by rw [h]; rfl, by rw [h]; rfl, ?_⟩
  simp only [stalledAtBridge, b]
  rfl

/-- Such a write is Accepted. -/
theorem accepted_of (s : State) (h : s.dresser = up.dresser) (b : s.bridge = up.bridge) (cls : PortClass) (egr : Bool) (index sub : Nat)
    (v : List Byte) (a : accepts s cls egr index sub v = true) : Accepted s cls egr index sub v := by
  simp only [accepts, Bool.and_eq_true, decide_eq_true_eq] at a
  obtain ⟨⟨a1, a2⟩, a3⟩ := a
  refine ⟨a1, dresser_free s h b, a2, fun e he => ?_⟩
  simp only [he, Bool.and_eq_true, decide_eq_true_eq, Bool.not_eq_true'] at a3
  exact ⟨a3.1, fun hp => absurd hp (by simp [a3.2])⟩

/-- The debug state OPEN-FACTORY. -/
def openState : State := setF up SEC_STAT_DEBUG 2

/-- DictionaryEffects: each entry's write is accepted somewhere. 0x3402:00 and 0x7011:00 are persistent: whether their store works is
a free value. -/
theorem witness_effects :
    let zeros (n : Nat) : List Byte := List.replicate n 0
    accepts (anchorIn bmLocked 0) .ctrl true 0x2015 0 (zeros 4) = true ∧ accepts up .ctrl true 0x3401 0 [1] = true ∧
    accepts openState .bench true 0x1030 0 [0x5A] = true ∧ accepts up .service true 0x8300 0 [0] = true ∧
    accepts up .ctrl true 0x3003 1 (zeros 4) = true ∧ accepts up .ctrl true 0x7004 1 (zeros 64) = true ∧
    accepts up .ctrl true 0x7010 31 (zeros 40) = true ∧ accepts up .ctrl true 0x1040 0 (zeros 64) = true ∧
    accepts up .ctrl true 0x1040 2 [0x5A] = true ∧ accepts up .ctrl true 0x8002 0 [2] = true ∧ accepts up .ctrl true 0x8010 0 (zeros 8) = true ∧
    accepts openState .bench true 0x7000 2 [1] = true ∧ accepts up .house true 0x7000 1 [1] = true ∧
    accepts up .bench true 0x7002 2 (zeros 129) = true ∧ accepts openState .bench true 0x7002 3 [1] = true ∧
    accepts up .ctrl true 0x7020 0 [3] = true ∧ accepts up .ctrl true 0x6021 0 [1] = true ∧ accepts up .ctrl true 0x6021 0 [2] = true ∧
    accepts up .ctrl true 0x6000 1 (zeros 4) = true := by and_intros <;> decide +kernel

/-- DictionaryEffects: what its clauses ask of the state: a seal key; keys locked and not, a value that empties a slot and one that does
not unwrap; security states; tokens before their time, without a nonce, of no target, not good and good. -/
theorem witness_effects_state :
    let h (s : State) (f : Hutch → Hutch) : State := { s with hutch := f s.hutch }
    let token (t : Byte) : List Byte := t :: List.replicate 128 0
    accepts (h up fun x => { x with sealKey := some (List.replicate 32 1) }) .service true 0x8020 0 [1] = true ∧
    keysLocked up = false ∧ keysLocked openState = true ∧ unwrapped up (List.replicate 40 0) = some none ∧
    unwrapped up (List.replicate 40 1) = none ∧ agreedKey [] = none ∧ secState up ≠ secSeal ∧
    secState (setF up SEC_STAT_STATE secSeal) = secSeal ∧ getF (setF up SEC_STAT_ACTIVE 1) SEC_STAT_ACTIVE ≠ 0 ∧
    secState (setF up SEC_STAT_STATE secGuard) = secGuard ∧ guardSourceActive up = false ∧ guardSourceActive (setF up SEC_STAT_ACTIVE 2) = true ∧
    (h up fun x => { x with failedAt := some 0 }).now < 0 + 40000000 ∧ up.hutch.failedAt = none ∧ up.hutch.nonce = none ∧
    leAt (token 3) 0 1 ≠ 1 ∧ debugState up ≠ 2 ∧ debugState openState = 2 ∧ up.hutch.customerHash = none ∧ up.hutch.alarmed = false ∧
    (h up fun x => { x with alarmed := true }).hutch.alarmed = true ∧ bridgeDown State.reset = true ∧
    accepts State.reset .ctrl true 0x3401 0 [1] = true := by
  and_intros <;> decide +kernel

/-- DictionaryEffects: a good token of the customer where no customer key is set, and one that is not. -/
theorem witness_tokens : tokenGood up [] (1 :: List.replicate 128 0) = true ∧
    tokenGood { up with hutch := { up.hutch with customerHash := some [] } } [] (1 :: List.replicate 128 0) = false ∧
    checkRequest up (plainRequest .bench true 1 0x7002 1 []) = stOk := by
  and_intros <;> decide +kernel

/-- DictionaryEffects: writes of keys that have the right to be made and fit; one whose verification an alarm ends. -/
theorem witness_key_writes :
    let zeros := List.replicate 40 (0 : Byte)
    let rights (index : Nat) : Bool := indexPresent openState.variant index && match entryAt index 0 with
      | some e => entryPresent openState.variant e && decide (rightCheck (plainRequest .ctrl true 2 index 0 zeros) e = stOk) &&
          lengthFits e zeros.length
      | none => false
    rights 0x7010 = true ∧ rights 0x7011 = true ∧ checkRequest up (plainRequest .ctrl true 2 0x7010 0 zeros) = stOk ∧
    checkRequest up (plainRequest .ctrl true 2 0x7011 0 zeros) = stOk ∧
    (let u := alarmRelease { up with hutch := { up.hutch with nonce := some [] } } 5
     accepts { u with hutch := { u.hutch with alarmed := true } } .bench true 0x7002 2 (1 :: List.replicate 128 0)) = true := by
  and_intros <;> decide +kernel

/-- An item of QID 1: a dictionary request with its 16-byte head. -/
def fabricItem (cmd flags index sub : Nat) (offset len : Nat) (data : List Byte) : Packet :=
  itemFor 1 0 (leBytes 1 cmd ++ leBytes 1 flags ++ leBytes 2 index ++ leBytes 1 sub ++ leBytes 3 0 ++ leBytes 4 offset ++ leBytes 4 len ++ data)

/-- DictionaryRequests, plain requests: refused, a field entry read, a field written that is not persistent, a value refused; an index
of house firmware with a core that answers. -/
theorem witness_requests :
    DresserFree up ∧ isFirmwareIndex 0x5F00 = true ∧ isFirmwareIndex 0x1001 = false ∧
    checkRequest up (plainRequest .peer false 1 0x0FFF 0 []) ≠ stOk ∧
    checkRequest up (plainRequest .ctrl true 3 0x1001 0 []) = stOk ∧ checkRequest up (plainRequest .ctrl true 1 0x1001 0 []) = stOk ∧
    checkRequest up (plainRequest .ctrl true 2 0x1040 2 [1]) = stOk ∧
    (match entryAt 0x1040 2 with
      | some e => checkValue up e [1] ≠ stOk
      | none => false) = true ∧
    firmwareCheck (setF up HS_ODCTL_FWEN 1) 0x5F00 = stOk ∧ up.dresser.firmware = none := by
  refine ⟨dresser_free up rfl rfl, ?_⟩
  and_intros <;> decide +kernel

/-- DictionaryRequests: a field entry of the scan die to read, and a read of it that has been answered. -/
theorem witness_scan_read :
    let r := plainRequest .ctrl true 1 0x2013 0 []
    let s : State := { up with dresser := { up.dresser with reading := some r },
                               bridge := { up.bridge with toHouse := { up.bridge.toHouse with
                                 arrived := [.readResponse .dresser (.entry 0x2013 0) [1] false] } } }
    checkRequest up r = stOk ∧ bridgeDown up = false ∧ s.dresser.reading = some r ∧ s.dresser.queue = [] ∧ r.route = .plain ∧
    (takeAnswer s .dresser (.entry r.index r.sub)).isSome = true ∧
    (match entryAt 0x2013 0 with
      | some e => onScanDie e && !storePoisoned up e 0x2013 0 && (match e.body with
        | .fields _ => true
        | _ => false)
      | none => false) = true := by and_intros <;> decide +kernel

/-- DictionaryRequests, HOUSE requests, results and the service bus: a DESCRIBE refused and answered; a result running and ready; frames
to this module and to another, with a transfer open and none. -/
theorem witness_transports :
    let s := setF up HS_SVCCTL_EN 1
    let x : Transfer := { tag := 7, write := true, index := 0x1040, sub := 0, total := 128, data := [], next := 0, sent := 0 }
    let mine := BitVec.ofNat 29 (0xD * 2 ^ 25 + serviceAddress s)
    getF up HS_ODSTAT_BUSY = 0 ∧ getF (setF up HS_ODSTAT_BUSY 1) HS_ODSTAT_BUSY = 1 ∧
    checkRequest up (plainRequest .house false 3 0x0FFF 0 []) ≠ stOk ∧ checkRequest up (plainRequest .house false 3 0x1001 0 []) = stOk ∧
    8 ≤ getF (setF up HS_ODLEN_LEN 8) HS_ODLEN_LEN ∧ up.dresser.verifying = .empty ∧
    checkRequest up (plainRequest .ctrl true 1 0x8300 2 []) = stOk ∧ frameForMe s mine = true ∧ frameForMe s 0 = false ∧
    getF s HS_SVCCTL_EN = 1 ∧ getF s HS_SVCSTAT_BSTATE ≠ 2 ∧
    checkRequest s (plainRequest .service false 1 0x0FFF 0 []) ≠ stOk ∧ checkRequest s (plainRequest .service false 3 0x1001 0 []) = stOk ∧
    60 * (x.next + 1) < x.total ∧ ¬ (60 * (({ x with next := 1 } : Transfer).next + 1) + 9 ≤ x.total) ∧ (128 + 59) / 60 = 3 := by
  and_intros <;> decide +kernel

/-- DictionaryRequests, fabric: no item, an item too short, requests refused and described, a read in a part, a write refused. -/
theorem witness_fabric :
    let s (p : Packet) : State := { up with weave := { up.weave with inbox := [(0, item p)] } }
    let p := fabricItem 3 0 0x1001 0 0 0 []
    let read := fabricItem 1 0 0x1001 0 2 2 []
    let write := fabricItem 2 3 0x1040 2 0 1 [1]
    takeWindow up 1 = none ∧ (takeWindow (s p) 1).map (·.2) = some [p] ∧ 16 ≤ p.payload.length ∧
    (itemFor 1 0 []).payload.length < 16 ∧ checkRequest up (fabricRequestOf p) = stOk ∧ (fabricRequestOf p).cmd = 3 ∧
    checkRequest up (fabricRequestOf (fabricItem 1 0 0x0FFF 0 0 4 [])) ≠ stOk ∧
    checkRequest up (fabricRequestOf read) = stOk ∧ (fabricRequestOf read).offset ≤ 4 ∧
    (match entryAt 0x1001 0 with
      | some e => !onScanDie e && !storePoisoned up e 0x1001 0
      | none => false) = true ∧
    checkRequest up (fabricRequestOf write) = stOk ∧ leAt write.payload 1 1 % 4 = 3 ∧ (fabricRequestOf write).offset = 0 ∧
    isFirmwareIndex (fabricRequestOf write).index = false := by and_intros <;> decide +kernel

/-- DictionaryRequests: a write of one RW field of the house die. The entries of this shape are persistent: whether their store works
is a free value. -/
theorem witness_field_write : houseOn up = true ∧ checkRequest up (plainRequest .ctrl true 2 0x5000 1 [1, 0]) = stOk ∧
    (match entryAt 0x5000 1 with
      | some e => decide (checkValue up e [1, 0] = stOk) && (match e.body with
        | .fields [⟨f, 0⟩] => !isScanAddr f.addr && (match regSpecAt f.addr with
          | some (g, idx) => decide (g.hook = .none) && decide (g.copies = .one) && registerPresent up.variant g idx &&
              g.fields.any fun x => x.hi = f.hi && x.lo = f.lo && decide (x.access = .rw)
          | none => false)
        | _ => false)
      | none => false) = true := by and_intros <;> decide +kernel

/-- AlarmsAndDebug: a source watched with the module on and, of those that the island watches, in OFF-AWAIT; one not watched there;
a level above the state, and not; the lock; a lease. -/
theorem witness_alarms :
    let await : State := { up with power := { up.power with offAwait := true } }
    up.power.island = true ∧ watchedInAwait 2 = true ∧ houseOn await = false ∧ watchedInAwait 5 = false ∧ (5 : Nat) ≠ 2 ∧
    secState up < alarmLevel up 1 ∧ alarmLevel up 5 ≤ secState (setF up SEC_STAT_STATE secSeal) ∧
    getF (setF up SEC_ALMCFG_LOCK 1) SEC_ALMCFG_LOCK = 1 ∧ debugState openState ≠ 0 ∧ await.power.wakePending = none ∧
    bitAt (getF await HIC_WAKEEN_EN) 16 = false ∧ (setF up SEC_ALMCFG_LEVEL 0).power.offAwait = false := by and_intros <;> decide +kernel

/-- BenchPort: CLOSED and OPEN-FACTORY; a request refused and one described; a word of SRAM, a house register, a window that acts as
BYPASS. -/
theorem witness_bench : benchOpen up = false ∧ benchFactory up = false ∧ benchOpen openState = true ∧ benchFactory openState = true ∧
    checkRequest openState (plainRequest .bench true 3 0x1000 0 []) = stOk ∧ checkRequest up (plainRequest .bench true 2 0x1000 0 []) ≠ stOk ∧
    placeOf 0 0x300010 = .sram 1 0x10 ∧ placeOf 0 0x107FFF = .houseReg ∧ sramCell openState 1 0x10 = .good 0 ∧
    ownMid openState ≠ some 8 := by and_intros <;> decide +kernel

/-- PowerAndBoot, requests and transitions: none running and one running, the present state, refused ones, ends of each. -/
theorem witness_power :
    let p (s : State) (f : Power → Power) : State := { s with power := f s.power }
    up.power.target = none ∧ (p up fun x => { x with target := some 2 }).power.target ≠ none ∧ getF up HS_PWRSTAT_STATE = 0 ∧
    getF up HS_PWRIMG_BASE = 0 ∧ flag (setF up SC_EGSTAT_ACTIVE 1) SC_EGSTAT_ACTIVE = true ∧ up.power.supply = .running ∧
    getF (setF up HS_PWRSTAT_STATE 2) HS_PWRSTAT_STATE = pwHibernate ∧ up.power.wakePending = none ∧ wakeDefined up 5 true = true ∧
    wakeDefined up 6 true = false ∧ bitAt (getF (setF up HIC_WAKEEN_EN 0x10000) HIC_WAKEEN_EN) 16 = true ∧ up.hic.clocksStopped = false ∧
    (p up fun x => { x with offAwait := true, inenAtEntry := true }).power.inenAtEntry = true ∧ getF up HS_ISLTMR_SECONDS = 0 ∧
    getF (setF up HS_ISLTMR_SECONDS 1) HS_ISLTMR_SECONDS ≠ 0 ∧
    bitAt (getF up HIC_WAKEEN_EN) 17 = false ∧ up.power.vinLow = false ∧ (p up fun x => { x with vinLow := true }).power.vinLow = true := by and_intros <;> decide +kernel

/-- PowerAndBoot, supply and boot: each phase; warnings; temperatures at 105, 115 and 125; a boot with neither image good. -/
theorem witness_boot :
    let p (f : Power → Power) : State := { up with power := f up.power }
    (p fun x => { x with supply := .off }).power.supply = .off ∧ (p fun x => { x with supply := .delay }).power.supply = .delay ∧
    (p fun x => { x with supply := .softStart }).power.supply = .softStart ∧ getF up HS_SUPPLY_WARN = 0 ∧
    getF (setF up HS_SUPPLY_WARN 1) HS_SUPPLY_WARN = 1 ∧ max (104 : BitVec 8).toInt (-1 : BitVec 8).toInt < 105 ∧
    125 ≤ max (0 : BitVec 8).toInt (125 : BitVec 8).toInt ∧ signedOf 8 (getF up HS_THERM_TSCAN) < 115 ∧ up.power.booting = true ∧
    (p fun x => { x with booting := false }).power.booting = false := by and_intros <;> decide +kernel

/-- PowerAndBoot: both slots' headers hold zeros, which is no image. -/
theorem witness_boot_images :
    let s := (List.range 64).foldl (fun s i => { s with mem := { s.mem with
      mram := sinsert (sinsert s.mem.mram i 0) (0x200000 + i) 0 } }) { up with power := { up.power with booting := false } }
    (verifySlot s 0).2 ≠ 1 ∧ (verifySlot s 1).2 ≠ 1 := by and_intros <;> decide +kernel

/-- Pads: the lock sequence before and after its keys; bonded pads; a bank that is locked, and one whose rail changes; the UART full
and not. -/
theorem witness_pads :
    let keyed (n : Nat) : State := setLockStep up (.core 0) n
    lockStep (keyed 2) (.core 0) = 2 ∧ lockStep up (.core 0) ≠ 2 ∧ padBonded up.variant (32 * 15) = true ∧
    up.pads.converting = false ∧ padRegLocked up (PAD_BANK 0) = false ∧ padRegLocked (setF up (PAD_CFG_LOCKED 0) 1) (PAD_BANK 0) = true ∧
    getF up (PAD_BANK_VIO 0) ≠ 0 ∧ (3 : Nat) < regionCount up.variant ∧ getF (setF up PAD_MUXEN_UARTEN 1) PAD_MUXEN_UARTEN = 1 ∧
    up.pads.uartRx.length < 16 ∧ ¬ ((List.replicate 16 (0 : Byte)).length < 16) ∧
    (let rx := (uartPads up).2
     padBonded up.variant rx = true ∧ getF up (PAD_CFG_AMODE rx) = 0 ∧ inputBuffered (setF up (PAD_CFG_INEN rx) 1) rx = true ∧
       inputBuffered (setF up (PAD_CFG_INEN rx) 0) rx = false) := by and_intros <;> decide +kernel

/-- RecorderAndCounters: a queue with an ALARM record, pinned and past the last pinned place, and with another; no clear or one that waits on; drops; room for a
record and none; a firmware class and code, and not. -/
theorem witness_recorder :
    let r : Rec := { cls := .alarm, code := 5, tform := false, held := false, overpin := false, time := 0, p0 := 0, p1 := 0, p2 := 0, p3 := 0 }
    up.recorder.queue = [] ∧ (∀ k ∈ up.recorder.clears, 1 < k.ahead) ∧ (∀ k ∈ [({ value := 1, cls := 0, smid := 0, ahead := 2 } : PendingClear)], 1 < k.ahead) ∧ r.cls = .alarm ∧ up.recorder.pincnt < 512 ∧
    ¬ (({ up.recorder with pincnt := 512 } : Recorder).pincnt < 512) ∧ up.recorder.dropped = 0 ∧
    ({ up.recorder with dropped := 3 } : Recorder).dropped ≠ 0 ∧ 0 < up.recorder.tokens ∧ up.recorder.queue.length < 56 ∧
    ¬ (0 < ({ up.recorder with tokens := 0 } : Recorder).tokens) ∧ getF (setF up HS_RECPUT0_CODE 0x8000) HS_RECPUT0_CODE = 0x8000 ∧
    getF (setF up HS_RECPUT0_CLASS 5) HS_RECPUT0_CLASS = 5 ∧ getF (setF up HS_RECPUT0_CODE 0x7FFF) HS_RECPUT0_CODE < 0x8000 ∧ bitsOf 6 7 0 ≤ 6 := by
  and_intros <;> decide +kernel

/-! ### Blocks: single steps, results by hand from the rules -/

/-- HS_ID of the ZW-8460 with STEP = 1 (R4). -/
theorem test_id : (regRead up (.core 0) 0x100000).2 = 0x01F44443 := by decide +kernel
/-- A reserved bit written is ignored and counted; the field beside it is written (R13). -/
theorem test_reserved_counts : after (exec (.registerWrite (.core 0) (BitVec.ofNat 24 SC_REFDLY) 0xFFFF0005) up)
    (fun t => getF t HS_RSVWR_COUNT = 1 && regWord t SC_REFDLY = 5) = true := by decide +kernel
/-- A bad CRC is counted and NAKs the expected flit, which is not accepted (R49). -/
theorem test_bridge_crc : after (exec (.bridgeFlitReceive .house 0 false)
      { up with bridge := { up.bridge with toHouse := { up.bridge.toHouse with replay := [edgeFlit 0] } } })
    (fun t => getF t HS_BRERR_CRCERR = 1 && t.bridge.toHouse.arrived = [] && t.bridge.toHouse.expect = 0) = true := by decide +kernel
/-- The good flit is accepted, and its edge stands at the house die (R44, R358). -/
theorem test_bridge_flit : after (exec (.bridgeFlitReceive .house 0 true)
      { up with bridge := { up.bridge with toHouse := { up.bridge.toHouse with replay := [edgeFlit 0] } } })
    (fun t => t.bridge.toHouse.arrived = [.edge 5] && t.bridge.toHouse.expect = 1) = true := by decide +kernel
/-- A timer whose EN rises starts with its period (R367). -/
theorem test_timer : after (exec (.timerEnable (.core 0) 7 1) (setF up (HS_TMRPER_PER 7) 1000))
    (fun t => t.timers[7] = 1000) = true := by decide +kernel
/-- EN written 1 takes the beam from OFF to ACQUIRE (R74). -/
theorem test_beam_enable : after (exec (.beamEnable (.core 0) 1) up) (fun t => beamState t = bmAcquire) = true := by decide +kernel
/-- Two keys and the lock word lock the named pads (R553). -/
theorem test_pad_lock : after (exec (.padLock (.core 0) 0 5) (setLockStep up (.core 0) 2))
    (fun t => getF t (PAD_CFG_LOCKED 0) = 1 && getF t (PAD_CFG_LOCKED 1) = 0 && getF t (PAD_CFG_LOCKED 2) = 1) = true := by decide +kernel
/-- A fifth good pulse locks the beam (R74). -/
theorem test_lock : after (exec (.framePulse 213333333) (anchorIn bmAcquire 4)) (fun t => beamState t = bmLocked) = true := by
  decide +kernel
/-- IDCODE of the ZW-8460 (R532). -/
theorem test_idcode : after (exec .idcode up) (fun t => t.sent = [.bench [0x6B, 0x05, 0x46, 0x18]]) = true := by decide +kernel
/-- An interrupt source that pends already merges (R358). -/
theorem test_merge : after (exec (.hicSourceEdge 32) (setPending { up with hic := { up.hic with edges := [32] } } 32))
    (fun t => getF t HIC_STAT_MERGED = 1 && getF t HIC_STAT_LASTMERGE = 32) = true := by decide +kernel

end Sys2Proof.Tests
end

section
namespace Sys2Proof.Machine

/-- A step changes no variant: neither a command nor a TCXO period does. -/
theorem step_variant {s t : State} (h : step s = .next t) : t.variant = s.variant := by
  unfold step at h
  split at h
  · cases h
    exact (idleTick_kept (Kept.refl s)).variant
  · next c rest _ => exact (exec_kept (Kept.refl { s with pending := rest }) c t h).variant

theorem regSpecAt_hsId : ∃ r, regSpecAt HS_ID = some (r, []) ∧ r.presence = .always ∧ r.copies = .one ∧ r.hook = .hsId :=
  ⟨_, rfl, rfl, rfl, rfl⟩

/-- A read of HS_ID gives the capability word and changes nothing (R4). -/
theorem regRead_hsId (s : State) (src : Src) : regRead s src HS_ID = (s, capability s.variant) := by
  obtain ⟨r, hr, hp, hc, hh⟩ := regSpecAt_hsId
  simp [regRead, hr, registerPresent, hp, hc, hh, hookRead]

/-- Settles O5: HS_ID reads `capability` of the variant, and no step changes the variant. -/
theorem capabilityWord : Obligations.CapabilityWord := by
  unfold Obligations.CapabilityWord
  refine ⟨fun s src => ?_, fun s t src h => ?_⟩
  · rw [regRead_hsId]
    cases s.variant <;> rfl
  · rw [regRead_hsId, regRead_hsId, step_variant h]

/-! ### Registers of an absent unit -/

theorem regRead_absent {s : State} {src : Src} {a : Nat} {r : RegSpec} {idx : List Nat}
    (h : regSpecAt a = some (r, idx)) (absent : registerPresent s.variant r idx = false) : regRead s src a = (s, 0) := by
  simp [regRead, h, absent]

theorem regWriteBase_absent {s : State} {src : Src} {a : Nat} {w : Word} {r : RegSpec} {idx : List Nat}
    (h : regSpecAt a = some (r, idx)) (absent : registerPresent s.variant r idx = false) :
    regWriteBase s src a w = breakLockSequence s src a := by
  simp [regWriteBase, h, absent]

/-- A register that every variant has is no register of an absent unit. -/
theorem ne_of_absent {v : Variant} {a b : Nat} {r q : RegSpec} {idx jdx : List Nat} (h : regSpecAt a = some (r, idx))
    (absent : registerPresent v r idx = false) (k : regSpecAt b = some (q, jdx)) (always : q.presence = .always) : a ≠ b := by
  rintro rfl
  cases h.symm.trans k
  simp [registerPresent, always] at absent

theorem breakLockSequence_pads (s : State) (src : Src) (a : Nat) :
    { breakLockSequence s src a with pads := s.pads } = s := by
  unfold breakLockSequence
  split <;> rfl

/-- Settles O7: a register of an absent unit has no entry that a read or a write finds. -/
theorem absentRegisters : Obligations.AbsentRegisters := by
  unfold Obligations.AbsentRegisters
  intro s src a w r idx h absent
  have answer : a ≠ HS_ODFWANS := ne_of_absent h absent rfl rfl
  have go : a ≠ HS_ODCTL := ne_of_absent h absent rfl rfl
  have write : regWrite s src a w = breakLockSequence s src a := by
    simp [regWrite, answer, go, regWriteBase_absent h absent]
  rw [write]
  exact ⟨regRead_absent h absent, rfl, breakLockSequence_pads s src a⟩

/-- Settles O3: every register reads its default in an empty register file, and the rest is read off the reset state. -/
theorem resetValues : Obligations.ResetValues := by
  unfold Obligations.ResetValues
  rintro s rfl
  refine ⟨fun a => ⟨rfl, rfl⟩, ?_⟩
  decide +kernel

end Sys2Proof.Machine
end

section
namespace Sys2Proof.Machine

/-! ### A write by access code -/

theorem whenScan_on {s : State} (h : scanOn s = true) (f : State → State) : whenScan s f = .next (f s) := by
  simp [whenScan, h]

theorem whenHouse_on {s : State} (h : houseOn s = true) (f : State → State) : whenHouse s f = .next (f s) := by
  simp [whenHouse, h]

/-- The registers that the report of a commit writes (R197). -/
abbrev isCommitRegister (k : Nat) : Prop := 0x220700 ≤ k ∧ k < 0x220720

/-- Crediting a write that is no scene write does nothing. -/
theorem creditScene_other {s : State} {src : Src} {a : Nat} (h : isSceneAddr a = false) : creditScene s src a = s := by
  simp [creditScene, h]

/-- A write on a powered die applies at once; its credit reaches no register but those of a commit's report. -/
theorem rowWrite_powered {s : State} {src : Src} {a : Nat} {w : Word}
    (on : (if isScanAddr a then scanOn s else houseOn s) = true) :
    ∃ t, rowWrite s src a w = .next t ∧
      ∀ k, isSceneAddr a = false ∨ ¬ isCommitRegister k → regWord t k = regWord (regWrite s src a w) k := by
  unfold rowWrite
  split
  · next scan =>
    rw [if_pos scan] at on
    refine ⟨_, whenScan_on on _, fun k hk => ?_⟩
    rcases hk with other | hk
    · rw [creditScene_other other]
    · exact creditScene_regWord _ _ _ _ hk
  · next house =>
    rw [if_neg house] at on
    exact ⟨_, whenHouse_on on _, fun _ _ => rfl⟩

/-- A field write counts at most once in HS_RSVWR, and writes no other register but its own. -/
theorem writeFields_present {s : State} {r : RegSpec} {idx : List Nat} {a : Nat} {w : Word}
    (present : registerPresent s.variant r idx = true) :
    writeFields s r idx a w = countIf (setRegWord s a (writeWord s.variant r.fields (regWord s a) w).1)
      (writeWord s.variant r.fields (regWord s a) w).2 := by
  unfold writeFields countIf
  rw [if_pos present]

theorem countIf_regWord {s : State} {bad : Bool} {k : Nat} (h : k ≠ HS_RSVWR) : regWord (countIf s bad) k = regWord s k := by
  unfold countIf
  split
  · exact countReserved_word s k h
  · rfl

theorem countIf_count (s : State) (bad : Bool) :
    getF (countIf s bad) HS_RSVWR_COUNT = min 0xFFFFFF (getF s HS_RSVWR_COUNT + if bad = true then 1 else 0) := by
  unfold countIf
  split
  · exact countReserved_count s
  · have := getF_lt s HS_RSVWR_COUNT (by decide)
    exact (Nat.min_eq_right (Nat.le_of_lt_succ this)).symm

/-- Another register's write leaves the count. -/
theorem getF_setRegWord_ne {s : State} {a : Nat} {w : Word} {f : Fld} (h : f.addr ≠ a) :
    getF (setRegWord s a w) f = getF s f := by
  unfold getF
  rw [regWord_setRegWord_ne _ _ _ _ h]

theorem getF_breakLock (s : State) (src : Src) (a : Nat) (f : Fld) : getF (breakLockSequence s src a) f = getF s f := by
  unfold getF
  rw [breakLock_regWord]

/-- A present register with no effect beyond its fields, as a write leaves it. -/
theorem regWrite_plain {s : State} {src : Src} {a : Nat} {w : Word} {r : RegSpec} {idx : List Nat}
    (h : regSpecAt a = some (r, idx)) (plain : r.hook = .none) (present : registerPresent s.variant r idx = true) :
    regWrite s src a w = countIf (setRegWord (breakLockSequence s src a) a (writeWord s.variant r.fields (regWord s a) w).1)
      (writeWord s.variant r.fields (regWord s a) w).2 := by
  have hooked : ∀ {b q jdx}, regSpecAt b = some (q, jdx) → q.hook ≠ .none → a ≠ b := by
    rintro _ q jdx k hq rfl
    cases h.symm.trans k
    exact hq plain
  have answer : a ≠ HS_ODFWANS := hooked rfl (by decide)
  have go : a ≠ HS_ODCTL := hooked rfl (by decide)
  have rsv : a ≠ HS_RSVWR := hooked rfl (by decide)
  have fields := writeFields_present (s := breakLockSequence s src a) (a := a) (w := w) (by rw [breakLock_variant]; exact present)
  rw [breakLock_variant, breakLock_regWord] at fields
  simp only [regWrite, answer, go, regWriteBase, h, present, if_true, if_false, decide_false, Bool.false_and, Bool.false_eq_true]
  rw [writeRegister_plain plain present, fields]
  apply countOnce_same
  rw [countIf_count, getF_setRegWord_ne rsv.symm]
  split <;> omega

/-- The registers of a commit's report have no field that a commit applies. -/
theorem commitRegister_not_scene {a : Nat} (h : isCommitRegister a) : isSceneAddr a = false := by
  have table : ∀ i < 32, isSceneAddr (0x220700 + i) = false := by decide +kernel
  obtain ⟨low, high⟩ := h
  have := table (a - 0x220700) (by omega)
  rwa [Nat.add_sub_cancel' low] at this

theorem isSceneAddr_eq {a : Nat} {r : RegSpec} {idx : List Nat} (h : regSpecAt a = some (r, idx)) :
    isSceneAddr a = isSceneRegister r := by
  simp [isSceneAddr, h]

/-- A write is not counted where it sets no reserved bit and every field that takes values accepts its own (R13, R14). -/
theorem writeWord_uncounted (v : Variant) (fs : List FieldSpec) (old w : Word) :
    (writeWord v fs old w).2 = false ↔ w &&& ~~~ namedBits fs = 0 ∧
      ∀ f ∈ fs, f.access = .rw ∨ f.access = .rwl → allowed v f.allow (bitsOf w f.hi f.lo) = true := by
  rw [writeWord_flag, Bool.or_eq_false_iff, and_comm, List.any_eq_false]
  simp only [FieldSpec.kept, bne_eq_false_iff_eq, Bool.and_eq_true, Bool.or_eq_true, beq_iff_eq, Bool.not_eq_true', not_and,
    Bool.not_eq_false]

theorem foldFields_unnamed {v : Variant} {old new : Word} {i : Nat} : ∀ (fs : List FieldSpec) (acc : Word × Bool),
    (∀ f ∈ fs, f.fits) → (∀ f ∈ fs, ¬ (f.lo ≤ i ∧ i ≤ f.hi)) →
      (fs.foldl (writeField v old new) acc).1.getLsbD i = acc.1.getLsbD i
  | [], _, _, _ => rfl
  | f :: fs, acc, fits, out => by
    obtain ⟨fitsHead, fitsTail⟩ := List.forall_mem_cons.mp fits
    obtain ⟨outHead, outTail⟩ := List.forall_mem_cons.mp out
    rw [List.foldl_cons, foldFields_unnamed fs _ fitsTail outTail]
    rcases writeField_word v old new acc f with ⟨e, _⟩ | e
    · rw [e]
    · rw [e, putBits_getLsbD _ _ _ _ _ fitsHead.1 fitsHead.2, if_neg outHead]

/-- A write leaves the bits that no field names. -/
theorem writeWord_unnamed {v : Variant} {fs : List FieldSpec} (ok : fieldsOk fs) (old w : Word) :
    (writeWord v fs old w).1 &&& ~~~ namedBits fs = old &&& ~~~ namedBits fs := by
  apply BitVec.eq_of_getLsbD_eq
  intro i _
  rw [BitVec.getLsbD_and, BitVec.getLsbD_and, BitVec.getLsbD_not, namedBits_getLsbD _ ok.1]
  cases named : fs.any fun f => decide (f.lo ≤ i) && decide (i ≤ f.hi)
  · rw [List.any_eq_false] at named
    have out : ∀ f ∈ fs, ¬ (f.lo ≤ i ∧ i ≤ f.hi) := fun f hf => by simpa using named f hf
    rw [show (writeWord v fs old w).1.getLsbD i = old.getLsbD i from foldFields_unnamed fs (old, false) ok.1 out]
  · simp

/-- A field reads alike where its register does. -/
theorem getF_congr {s t : State} {f : Fld} (h : regWord t f.addr = regWord s f.addr) : getF t f = getF s f := by
  unfold getF
  rw [h]

/-- Settles O6: the fields by `writeWord_field`, the count by `writeWord_flag`, the frame by what the credit leaves. -/
theorem registerWriteCodes : Obligations.RegisterWriteCodes := by
  unfold Obligations.RegisterWriteCodes
  intro s src addr w r idx a on isReg h plain one present
  obtain ⟨t, run, same⟩ := rowWrite_powered (src := src) (w := w) on
  have rsv : a ≠ HS_RSVWR := by
    intro e
    rw [e] at h
    cases h
    exact absurd plain (by decide)
  have own : isSceneAddr a = false ∨ ¬ isCommitRegister a := by
    by_cases c : isCommitRegister a
    · exact .inl (commitRegister_not_scene c)
    · exact .inr c
  have word : regWord t a = (writeWord s.variant r.fields (regWord s a) w).1 := by
    rw [same a own, regWrite_plain h plain present, countIf_regWord rsv, regWord_setRegWord_same]
  refine ⟨t, ?_, fun f hf => ?_, ?_, ?_, fun k own' count scene => ?_⟩
  · show execRegisterWrite src addr w s = .next t
    rw [execRegisterWrite, if_pos isReg]
    exact run
  · rw [word, writeWord_field (regSpecAt_ok h) _ _ f hf]
    rfl
  · rw [word, writeWord_unnamed (regSpecAt_ok h)]
  · rw [getF_congr (f := HS_RSVWR_COUNT) (same HS_RSVWR (.inr (by decide))), regWrite_plain h plain present, countIf_count,
      getF_setRegWord_ne rsv.symm, getF_breakLock]
    simp only [← writeWord_uncounted s.variant r.fields (regWord s a) w]
    cases (writeWord s.variant r.fields (regWord s a) w).2 <;> rfl
  · rw [same k (by rwa [isSceneAddr_eq h]), regWrite_plain h plain present, countIf_regWord count,
      regWord_setRegWord_ne _ _ _ _ own', breakLock_regWord]


/-! ### The count-clear rows -/

theorem bitWrite_powered {s : State} {f : Fld} (on : scanOn s = true) :
    ∃ t, bitWrite s f = .next t ∧ ∀ k, isSceneAddr f.addr = false ∨ ¬ isCommitRegister k →
      regWord t k = regWord (regWriteBits s .dresser f.addr (fieldMask f.hi f.lo) (fieldMask f.hi f.lo)) k := by
  have house : houseOn s = true := by
    simp only [scanOn, Bool.and_eq_true] at on
    exact on.1
  unfold bitWrite
  dsimp only
  split
  · refine ⟨_, whenScan_on on _, fun k hk => ?_⟩
    rcases hk with other | hk
    · rw [creditScene_other other]
    · exact creditScene_regWord _ _ _ _ hk
  · exact ⟨_, whenHouse_on house _, fun _ _ => rfl⟩

theorem countOnce_regWord {a b : State} {k : Nat} (h : k ≠ HS_RSVWR) : regWord (countOnce a b) k = regWord b k := by
  unfold countOnce
  dsimp only
  split
  · rw [regWord_setF_ne _ _ _ _ h, regWord_setF_ne _ _ _ _ h]
  · rfl

/-- The word that a row which sets field `f` alone writes (log entry 4). -/
abbrev soleWord (s : State) (f : Fld) : Word := mergedWord s f.addr (fieldMask f.hi f.lo) (fieldMask f.hi f.lo)

/-- The written word holds what the kept fields hold, and 0 in every other field but the one that it sets. -/
theorem soleWord_field {s : State} {f : Fld} {r : RegSpec} {idx : List Nat} (h : regSpecAt f.addr = some (r, idx))
    (ok : fieldsOk r.fields) {w g : FieldSpec} (hw : w ∈ r.fields) (hi : w.hi = f.hi) (lo : w.lo = f.lo) (hg : g ∈ r.fields)
    (ne : g ≠ w) : bitsOf (soleWord s f) g.hi g.lo = if g.kept then bitsOf (regWord s f.addr) g.hi g.lo else 0 := by
  have fits := ok.1 w hw
  have apart := (pairwise_apart ok.2 hg hw).resolve_left ne
  rw [FieldSpec.fits, hi, lo] at fits
  rw [FieldSpec.apart, hi, lo] at apart
  have bit : ∀ i, g.lo ≤ i → i ≤ g.hi → (soleWord s f).getLsbD i = ((regWord s f.addr).getLsbD i && g.kept) := by
    intro i low high
    have out : (decide (f.lo ≤ i) && decide (i ≤ f.hi)) = false := by
      rw [Bool.and_eq_false_iff, decide_eq_false_iff_not, decide_eq_false_iff_not]
      omega
    have named : (r.fields.any fun x => x.kept && (decide (x.lo ≤ i) && decide (i ≤ x.hi))) = g.kept := by
      rw [Bool.eq_iff_iff, List.any_eq_true]
      constructor
      · rintro ⟨x, hx, at'⟩
        simp only [Bool.and_eq_true, decide_eq_true_eq] at at'
        rcases pairwise_apart ok.2 hx hg with rfl | far
        · exact at'.1
        · unfold FieldSpec.apart at far
          omega
      · intro kept
        exact ⟨g, hg, by simp [kept, low, high]⟩
    rw [merged_getLsbD h ok fits, out, named, Bool.false_or]
  split
  · next kept => exact bitsOf_eq (ok.1 g hg).1 (ok.1 g hg).2 fun i low high => by rw [bit i low high, kept, Bool.and_true]
  · next other =>
    exact bitsOf_eq_zero (ok.1 g hg).1 (ok.1 g hg).2 fun i low high => by rw [bit i low high]; simp [other]

/-- Fields that hold after a write what they held before leave the word. -/
theorem foldFields_unchanged {v : Variant} {old new : Word} : ∀ (fs : List FieldSpec) (c : Bool), (∀ g ∈ fs, g.fits) →
    (∀ g ∈ fs, fieldAfter v old new g = bitsOf old g.hi g.lo) → (fs.foldl (writeField v old new) (old, c)).1 = old
  | [], _, _, _ => rfl
  | f :: fs, c, fits, same => by
    obtain ⟨fitsHead, fitsTail⟩ := List.forall_mem_cons.mp fits
    obtain ⟨sameHead, sameTail⟩ := List.forall_mem_cons.mp same
    have one : (writeField v old new (old, c) f).1 = old := by
      rcases writeField_word v old new (old, c) f with ⟨e, _⟩ | e
      · exact e
      · rw [e, sameHead, putBits_self fitsHead.1 fitsHead.2]
    rw [List.foldl_cons, ← Prod.eta (writeField v old new (old, c) f), one]
    exact foldFields_unchanged fs _ fitsTail sameTail

/-- A row that sets one acting field leaves its own register's word, also where a field would not accept what it holds. -/
theorem soleWord_unchanged {s : State} {f : Fld} {r : RegSpec} {idx : List Nat} (h : regSpecAt f.addr = some (r, idx))
    (own : ∃ w ∈ r.fields, w.hi = f.hi ∧ w.lo = f.lo ∧ w.access = .wo) :
    (writeWord s.variant r.fields (regWord s f.addr) (soleWord s f)).1 = regWord s f.addr := by
  have ok := regSpecAt_ok h
  obtain ⟨w, hw, hi, lo, acts⟩ := own
  refine foldFields_unchanged r.fields false ok.1 fun g hg => ?_
  by_cases e : g = w
  · simp [e, fieldAfter, acts]
  have field := soleWord_field h ok hw hi lo hg e (s := s)
  have lt := bitsOf_lt (regWord s f.addr) g.hi g.lo (ok.1 g hg).1 (ok.1 g hg).2
  cases acc : g.access <;> simp only [FieldSpec.kept, acc] at field
  · simp [fieldAfter, acc, field]
  · simp [fieldAfter, acc]
  · simp [fieldAfter, acc, field, Nat.and_two_pow_sub_one_eq_mod, Nat.mod_eq_of_lt lt]
  · simp [fieldAfter, acc, field]
  · simp [fieldAfter, acc]
  · simp [fieldAfter, acc, field]

/-- A register of the tables with a field that only clears counters: its write goes field by field. -/
structure ClearRow (f : Fld) (r : RegSpec) (idx : List Nat) : Prop where
  spec : regSpecAt f.addr = some (r, idx)
  acts : ∃ w ∈ r.fields, w.hi = f.hi ∧ w.lo = f.lo ∧ w.access = .wo
  byFields : ∀ s w, specialWrite s .dresser r idx f.addr w = none
  noRun : f.addr ≠ SC_PGCTL

/-- What the write of a clear row does beyond its fields. -/
def rowEffect (f : Fld) (r : RegSpec) (idx : List Nat) (old s : State) (w : Word) : State :=
  if isScanAddr f.addr then afterScanWrite old s .dresser r.hook (idx.headD 0) w
  else afterHouseWrite old s .dresser r.hook (idx.headD 0) f.addr w

/-- The write of a clear row, once what comes before it has left `u`, is its effect on a state whose registers stand as in `u`,
but for HS_RSVWR where a field would not accept what it holds. -/
theorem ClearRow.writeRegister {s u : State} {f : Fld} {r : RegSpec} {idx : List Nat} (row : ClearRow f r idx)
    (early : beforeWrite s r (soleWord u f) = u) (present : registerPresent u.variant r idx = true) :
    ∃ b v, (∀ k, regWord b k = regWord u k) ∧ (∀ k, k ≠ HS_RSVWR → regWord v k = regWord u k) ∧
      ((∀ g ∈ r.fields, g.kept = true → g.allow = .any) → ∀ k, regWord v k = regWord u k) ∧
      writeRegister s .dresser r idx f.addr (soleWord u f) = countOnce b (rowEffect f r idx b v (soleWord u f)) := by
  obtain ⟨spec, acts, byFields, -⟩ := row
  let b := if r.hook = .padCtl || r.hook = .padLock then u else breakLockSequence u .dresser f.addr
  have words : ∀ k, regWord b k = regWord u k := by
    intro k
    show regWord (if _ then _ else _) k = _
    split
    · rfl
    · exact breakLock_regWord _ _ _ _
  have variant : b.variant = u.variant := by
    show State.variant (if _ then _ else _) = _
    split
    · rfl
    · exact breakLock_variant _ _ _
  have fields := writeFields_present (s := b) (a := f.addr) (w := soleWord u f) (by rw [variant]; exact present)
  rw [variant, words, soleWord_unchanged spec acts] at fields
  have stored : ∀ k, regWord (setRegWord b f.addr (regWord u f.addr)) k = regWord u k := fun k => by
    rw [← words f.addr, setRegWord_self, words]
  refine ⟨b, writeFields b r idx f.addr (soleWord u f), words, fun k hk => ?_, fun any k => ?_, ?_⟩
  · rw [fields, countIf_regWord hk, stored]
  · rw [fields, soleWrite spec ⟨regSpecAt_ok spec, acts, any⟩]
    exact stored k
  · simp only [Machine.writeRegister, early, byFields]
    rfl

/-- Outside SC_PGCTL the write of some bits is that of the merged word. -/
theorem ClearRow.writeBits {s : State} {f : Fld} {r : RegSpec} {idx : List Nat} (row : ClearRow f r idx)
    (present : registerPresent s.variant r idx = true) :
    regWriteBits s .dresser f.addr (fieldMask f.hi f.lo) (fieldMask f.hi f.lo) =
      Machine.writeRegister s .dresser r idx f.addr (soleWord s f) := by
  simp only [regWriteBits, regWriteBase, row.spec, present, row.noRun, if_true, decide_false, Bool.false_and, Bool.false_eq_true,
    if_false]

/-- Nothing comes before the write of a register other than HS_RSVWR. -/
theorem beforeWrite_other {s : State} {r : RegSpec} {w : Word} (h : r.hook ≠ .hsRsvwr) : beforeWrite s r w = s := by
  unfold beforeWrite
  split
  · next e => exact absurd e h
  · rfl

/-- From `s` to `t` counters are cleared: the fields `fs` read 0, and every register but theirs and those of `also` keeps its
word. -/
def Cleared (s t : State) (fs : List Fld) (also : List Nat) : Prop :=
  (∀ f ∈ fs, getF t f = 0) ∧ ∀ k, k ∉ fs.map (·.addr) → k ∉ also → regWord t k = regWord s k

/-- A command clears counters. -/
def Clears (s : State) (o : Out) (fs : List Fld) (also : List Nat) : Prop := ∃ t, o = .next t ∧ Cleared s t fs also

/-- A row clears what its write clears; counting it once reaches HS_RSVWR alone. -/
theorem clears_of_write {s b x : State} {f : Fld} {fs : List Fld} {also : List Nat} (on : scanOn s = true)
    (other : isSceneAddr f.addr = false) (base : ∀ k, regWord b k = regWord s k)
    (write : regWriteBits s .dresser f.addr (fieldMask f.hi f.lo) (fieldMask f.hi f.lo) = countOnce b x)
    (apart : HS_RSVWR ∉ fs.map (·.addr)) (cleared : Cleared s x fs also) : Clears s (bitWrite s f) fs also := by
  obtain ⟨t, run, same⟩ := bitWrite_powered (f := f) on
  obtain ⟨zero, frame⟩ := cleared
  have word : ∀ k, k ≠ HS_RSVWR → regWord t k = regWord x k := fun k hk => by
    rw [same k (.inl other), write, countOnce_regWord hk]
  refine ⟨t, run, fun g hg => ?_, fun k own hk => ?_⟩
  · rw [← zero g hg]
    exact getF_congr (word g.addr fun e => apart (e ▸ List.mem_map_of_mem hg))
  · by_cases e : k = HS_RSVWR
    · subst e
      have kept := frame _ own hk
      rw [same _ (.inl other), write, countOnce_same, kept]
      rw [getF_congr (f := HS_RSVWR_COUNT) (kept.trans (base _).symm)]
      omega
    · rw [word k e, frame k own hk]

/-- A scene register's row: its credit may end a commit, and the counters it clears are none of a commit's. -/
theorem zero_of_write {s b x : State} {f : Fld} {fs : List Fld} (on : scanOn s = true)
    (write : regWriteBits s .dresser f.addr (fieldMask f.hi f.lo) (fieldMask f.hi f.lo) = countOnce b x)
    (apart : ∀ g ∈ fs, g.addr ≠ HS_RSVWR ∧ ¬ isCommitRegister g.addr) (zero : ∀ g ∈ fs, getF x g = 0) :
    ∃ t, bitWrite s f = .next t ∧ ∀ g ∈ fs, getF t g = 0 := by
  obtain ⟨t, run, same⟩ := bitWrite_powered (f := f) on
  refine ⟨t, run, fun g hg => ?_⟩
  obtain ⟨rsv, commit⟩ := apart g hg
  rw [← zero g hg]
  exact getF_congr (by rw [same _ (.inr commit), write, countOnce_regWord rsv])

/-! The forms that the effects take. -/

@[simp] theorem getF_zero_of_regWord {s : State} {f : Fld} (h : regWord s f.addr = 0) : getF s f = 0 := by
  simp [getF, h, bitsOf]

theorem clearRegs_regWord (s : State) (as : List Nat) (k : Nat) :
    regWord (clearRegs s as) k = if k ∈ as then 0 else regWord s k := by
  induction as generalizing s with
  | nil => simp [clearRegs]
  | cons a as ih =>
    show regWord (clearRegs (clearReg s a) as) k = _
    rw [ih, clearReg]
    by_cases e : k = a
    · simp [e]
    · simp [e, regWord_setRegWord_ne _ _ _ _ e]

theorem cleared_clearRegs {s v : State} {as : List Nat} {fs : List Fld} {also : List Nat}
    (same : ∀ k, k ∉ also → regWord v k = regWord s k) (covers : ∀ f ∈ fs, f.addr ∈ as) (within : ∀ a ∈ as, a ∈ fs.map (·.addr)) :
    Cleared s (clearRegs v as) fs also := by
  refine ⟨fun f hf => getF_zero_of_regWord ?_, fun k own hk => ?_⟩
  · rw [clearRegs_regWord, if_pos (covers f hf)]
  · rw [clearRegs_regWord, if_neg fun h => own (within k h), same k hk]

theorem Cleared.setF {s v : State} {fs : List Fld} {also : List Nat} {f : Fld} (h : Cleared s v fs also) (fits : f.fits)
    (apart : ∀ g ∈ fs, g.fits ∧ f.apart g) : Cleared s (setF v f 0) (fs ++ [f]) also := by
  obtain ⟨zero, frame⟩ := h
  refine ⟨fun g hg => ?_, fun k own hk => ?_⟩
  · rcases List.mem_append.mp hg with hg | hg
    · obtain ⟨fits', away⟩ := apart g hg
      rw [getF_setF_ne _ _ _ _ fits fits' away, zero g hg]
    · rw [List.mem_singleton.mp hg, getF_setF_same _ _ _ fits, Nat.zero_mod]
  · rw [List.map_append, List.mem_append, not_or] at own
    rw [regWord_setF_ne _ _ _ _ (by simpa using own.2), frame k own.1 hk]

theorem cleared_nil {s v : State} {also : List Nat} (same : ∀ k, regWord v k = regWord s k) : Cleared s v [] also :=
  ⟨fun _ h => absurd h List.not_mem_nil, fun k _ _ => same k⟩

/-- What follows a clear without reaching its counters. -/
theorem Cleared.congr {s v x : State} {fs : List Fld} {also : List Nat} (h : Cleared s v fs also)
    (word : ∀ k, k ∉ also → regWord x k = regWord v k) (apart : ∀ g ∈ fs, g.addr ∉ also) : Cleared s x fs also := by
  obtain ⟨zero, frame⟩ := h
  refine ⟨fun g hg => ?_, fun k own hk => ?_⟩
  · rw [← zero g hg]
    exact getF_congr (word _ (apart g hg))
  · rw [word k hk, frame k own hk]

theorem ClearRow.clears {s : State} {f : Fld} {r : RegSpec} {idx : List Nat} {fs : List Fld} {also : List Nat}
    (row : ClearRow f r idx) (present : registerPresent s.variant r idx = true) (on : scanOn s = true)
    (plain : r.hook ≠ .hsRsvwr) (any : ∀ g ∈ r.fields, g.kept = true → g.allow = .any) (other : isSceneRegister r = false)
    (apart : HS_RSVWR ∉ fs.map (·.addr))
    (effect : ∀ b v, (∀ k, regWord b k = regWord s k) → (∀ k, regWord v k = regWord s k) →
      Cleared s (rowEffect f r idx b v (soleWord s f)) fs also) : Clears s (bitWrite s f) fs also := by
  obtain ⟨b, v, old, -, same, write⟩ := row.writeRegister (beforeWrite_other plain) present
  rw [← row.writeBits present] at write
  exact clears_of_write on (by rw [isSceneAddr_eq row.spec]; exact other) old write apart (effect b v old (same any))

theorem ClearRow.bit {s : State} {f : Fld} {r : RegSpec} {idx : List Nat} (row : ClearRow f r idx)
    (any : ∀ g ∈ r.fields, g.kept = true → g.allow = .any) (i : Nat)
    (free : ∀ g ∈ r.fields, g.kept = true → ¬ (g.lo ≤ i ∧ i ≤ g.hi)) :
    (soleWord s f).getLsbD i = (decide (f.lo ≤ i) && decide (i ≤ f.hi)) :=
  merged_bit row.spec ⟨regSpecAt_ok row.spec, row.acts, any⟩ i free

/-- Putting what a field holds leaves every register. -/
theorem regWord_setF_held {u v : State} {f : Fld} {n : Nat} (same : ∀ k, regWord v k = regWord u k) (fits : f.fits)
    (held : n = getF u f) (k : Nat) : regWord (setF v f n) k = regWord u k := by
  have word : setF v f n = setRegWord v f.addr (regWord v f.addr) := by
    rw [setF, held, getF, ← same f.addr, putBits_self fits.1 fits.2]
  rw [word, setRegWord_self, same]

theorem bitsOf_bit (w : Word) {i : Nat} (h : i < 32) : bitsOf w i i = if w.getLsbD i then 1 else 0 := by
  have lt := bitsOf_lt w i i (Nat.le_refl i) h
  have low := bitsOf_testBit w i i 0 (Nat.le_refl i) h
  rw [Nat.testBit_zero] at low
  simp only [Nat.zero_add, Nat.le_refl, decide_true, Bool.true_and] at low
  rw [Nat.add_sub_cancel_left] at lt
  rw [← low]
  split <;> simp_all <;> omega

theorem bridgeCntclr_clears {s : State} (on : scanOn s = true) :
    Clears s (bitWrite s HS_BRCTL_CNTCLR) [HS_BRERR_DROPPED, HS_BRERR_REPLAYS, HS_BRERR_CRCERR] [] := by
  have row : ClearRow HS_BRCTL_CNTCLR _ _ := ⟨rfl, by decide, fun _ _ => rfl, by decide⟩
  refine row.clears rfl on (by decide) (by decide) rfl (by decide) fun b v _ same => ?_
  have clear : (soleWord s HS_BRCTL_CNTCLR).getLsbD 2 = true := row.bit (by decide) 2 (by decide)
  have train : (soleWord s HS_BRCTL_CNTCLR).getLsbD 0 = false := row.bit (by decide) 0 (by decide)
  show Cleared s (afterHouseWrite b v .dresser .brCtl 0 HS_BRCTL (soleWord s HS_BRCTL_CNTCLR)) _ _
  simp only [afterHouseWrite, clear, train, if_true, Bool.false_eq_true, if_false]
  exact cleared_clearRegs (as := [HS_BRERR]) (fun k _ => same k) (by decide) (by decide)

theorem hicCntclr_clears {s : State} (on : scanOn s = true) :
    Clears s (bitWrite s HIC_CTL_CNTCLR) [HIC_STAT_MERGED] [] := by
  have row : ClearRow HIC_CTL_CNTCLR _ _ := ⟨rfl, by decide, fun _ _ => rfl, by decide⟩
  refine row.clears rfl on (by decide) (by decide) rfl (by decide) fun b v _ same => ?_
  have clear : (soleWord s HIC_CTL_CNTCLR).getLsbD 0 = true := row.bit (by decide) 0 (by decide)
  show Cleared s (afterHouseWrite b v .dresser .hicCtl 0 HIC_CTL (soleWord s HIC_CTL_CNTCLR)) _ _
  simp only [afterHouseWrite, clear, if_true]
  exact (cleared_nil same).setF (by decide) (by decide)

theorem twinCntclr_clears {s : State} (on : scanOn s = true) (twin : hasTwin s.variant = true) :
    Clears s (bitWrite s WV_TWCTL_CNTCLR) [WV_TWCNT_MMFR, WV_TWCNT_PATCHED, WV_TWCNT_PATCHMISS, WV_TWCNT_HBMISS] [] := by
  have row : ClearRow WV_TWCTL_CNTCLR _ _ := ⟨rfl, by decide, fun _ _ => rfl, by decide⟩
  refine row.clears twin on (by decide) (by decide) rfl (by decide) fun b v _ same => ?_
  have clear : (soleWord s WV_TWCTL_CNTCLR).getLsbD 3 = true := row.bit (by decide) 3 (by decide)
  have take : (soleWord s WV_TWCTL_CNTCLR).getLsbD 2 = false := row.bit (by decide) 2 (by decide)
  have yield : (soleWord s WV_TWCTL_CNTCLR).getLsbD 1 = false := row.bit (by decide) 1 (by decide)
  show Cleared s (afterHouseWrite b v .dresser .wvTwctl 0 WV_TWCTL (soleWord s WV_TWCTL_CNTCLR)) _ _
  simp only [afterHouseWrite, clear, take, yield, if_true, Bool.false_eq_true, if_false]
  exact cleared_clearRegs (as := [WV_TWCNT]) (fun k _ => same k) (by decide) (by decide)

theorem dresserCntclr_clears {s : State} (on : scanOn s = true) :
    Clears s (bitWrite s HS_ODCTL_CNTCLR) [HS_ODCNT_REFUSED, HS_ODCNT_SERVED] [] := by
  have row : ClearRow HS_ODCTL_CNTCLR _ _ := ⟨rfl, by decide, fun _ _ => rfl, by decide⟩
  refine row.clears rfl on (by decide) (by decide) rfl (by decide) fun b v _ same => ?_
  have clear : (soleWord s HS_ODCTL_CNTCLR).getLsbD 31 = true := row.bit (by decide) 31 (by decide)
  show Cleared s (afterHouseWrite b v .dresser .odCtl 0 HS_ODCTL (soleWord s HS_ODCTL_CNTCLR)) _ _
  simp only [afterHouseWrite, clear, if_true]
  exact cleared_clearRegs (as := [HS_ODCNT]) (fun k _ => same k) (by decide) (by decide)

theorem recorderCntclr_clears {s : State} (on : scanOn s = true) :
    Clears s (bitWrite s HS_RECCTL_CNTCLR) [HS_RECCNT_DROPPED, HS_RECCNT_PUTREF, HS_RECCNT_STOREFAIL] [] := by
  have row : ClearRow HS_RECCTL_CNTCLR _ _ := ⟨rfl, by decide, fun _ _ => rfl, by decide⟩
  refine row.clears rfl on (by decide) (by decide) rfl (by decide) fun b v _ same => ?_
  have clear : (soleWord s HS_RECCTL_CNTCLR).getLsbD 31 = true := row.bit (by decide) 31 (by decide)
  have next : (soleWord s HS_RECCTL_CNTCLR).getLsbD 0 = false := row.bit (by decide) 0 (by decide)
  show Cleared s (afterHouseWrite b v .dresser .recCtl 0 HS_RECCTL (soleWord s HS_RECCTL_CNTCLR)) _ _
  simp only [afterHouseWrite, clear, next, if_true, Bool.false_eq_true, if_false]
  exact cleared_clearRegs (as := [HS_RECCNT]) (fun k _ => same k) (by decide) (by decide)

theorem padCntclr_clears {s : State} (on : scanOn s = true) :
    Clears s (bitWrite s PAD_CTL_CNTCLR) [PAD_STAT_LOCKDROP] [] := by
  have row : ClearRow PAD_CTL_CNTCLR _ _ := ⟨rfl, by decide, fun _ _ => rfl, by decide⟩
  refine row.clears rfl on (by decide) (by decide) rfl (by decide) fun b v _ same => ?_
  have clear : (soleWord s PAD_CTL_CNTCLR).getLsbD 31 = true := row.bit (by decide) 31 (by decide)
  have release : (soleWord s PAD_CTL_CNTCLR).getLsbD 8 = false := row.bit (by decide) 8 (by decide)
  show Cleared s (afterHouseWrite b v .dresser .padCtl 0 PAD_CTL (soleWord s PAD_CTL_CNTCLR)) _ _
  simp only [afterHouseWrite, clear, release, if_true, Bool.false_eq_true, if_false]
  exact (cleared_nil same).setF (by decide) (by decide)

theorem eccCntclr_clears {s : State} (on : scanOn s = true) :
    Clears s (bitWrite s SC_ECCCTL_CNTCLR) [SC_ECCCNT_UE, SC_ECCCNT_CE, SC_ECCCONC_LASTF, SC_ECCCONC_TOTAL] [] := by
  have row : ClearRow SC_ECCCTL_CNTCLR _ _ := ⟨rfl, by decide, fun _ _ => rfl, by decide⟩
  refine row.clears rfl on (by decide) (by decide) rfl (by decide) fun b v _ same => ?_
  have clear : (soleWord s SC_ECCCTL_CNTCLR).getLsbD 31 = true := row.bit (by decide) 31 (by decide)
  show Cleared s (afterScanWrite b v .dresser .eccCtl 0 (soleWord s SC_ECCCTL_CNTCLR)) _ _
  simp only [afterScanWrite, clear, if_true]
  exact cleared_clearRegs (as := [SC_ECCCNT, SC_ECCCONC]) (fun k _ => same k) (by decide) (by decide)

theorem patternCacheCntclr_clears {s : State} (on : scanOn s = true) :
    Clears s (bitWrite s SC_PCCTL_CNTCLR) ([SC_SCENECNT_BADADDR] ++ (List.range 8).map SC_PCSTAT_FILL ++ (List.range 8).map SC_PCSTAT_REFETCH) [] := by
  have row : ClearRow SC_PCCTL_CNTCLR _ _ := ⟨rfl, by decide, fun _ _ => rfl, by decide⟩
  refine row.clears rfl on (by decide) (by decide) rfl (by decide) fun b v _ same => ?_
  have clear : (soleWord s SC_PCCTL_CNTCLR).getLsbD 1 = true := row.bit (by decide) 1 (by decide)
  have inval : (soleWord s SC_PCCTL_CNTCLR).getLsbD 0 = false := row.bit (by decide) 0 (by decide)
  show Cleared s (afterScanWrite b v .dresser .pcCtl 0 (soleWord s SC_PCCTL_CNTCLR)) _ _
  simp only [afterScanWrite, clear, inval, if_true, Bool.false_eq_true, if_false]
  exact cleared_clearRegs (as := SC_SCENECNT :: (List.range 8).map SC_PCSTAT) (fun k _ => same k) (by decide) (by decide)

theorem cmcntClear_clears {s : State} (on : scanOn s = true) :
    Clears s (bitWrite s SC_CMEV_CNTCLR) [SC_CMCNT_REFUSED, SC_CMCNT_ACCEPTED] [] := by
  have row : ClearRow SC_CMEV_CNTCLR _ _ := ⟨rfl, by decide, fun _ _ => rfl, by decide⟩
  refine row.clears rfl on (by decide) (by decide) rfl (by decide) fun b v _ same => ?_
  have clear : (soleWord s SC_CMEV_CNTCLR).getLsbD 31 = true := row.bit (by decide) 31 (by decide)
  show Cleared s (afterScanWrite b v .dresser .cmEv 0 (soleWord s SC_CMEV_CNTCLR)) _ _
  simp only [afterScanWrite, clear, if_true]
  exact cleared_clearRegs (as := [SC_CMCNT]) (fun k _ => same k) (by decide) (by decide)

theorem memCntclr_clears {s : State} (on : scanOn s = true) :
    Clears s (bitWrite s HS_MEMCTL_CNTCLR) [HS_CECNT_UE, HS_CECNT_CE, HS_MEMSTAT_MRREF] [] := by
  have row : ClearRow HS_MEMCTL_CNTCLR _ _ := ⟨rfl, by decide, fun _ _ => rfl, by decide⟩
  refine row.clears rfl on (by decide) (by decide) rfl (by decide) fun b v _ same => ?_
  have clear : (soleWord s HS_MEMCTL_CNTCLR).getLsbD 31 = true := row.bit (by decide) 31 (by decide)
  show Cleared s (afterHouseWrite b v .dresser .memCtl 0 HS_MEMCTL (soleWord s HS_MEMCTL_CNTCLR)) _ _
  simp only [afterHouseWrite, clear, if_true]
  exact (cleared_clearRegs (as := [HS_CECNT]) (fs := [HS_CECNT_UE, HS_CECNT_CE]) (fun k _ => same k) (by decide)
    (by decide)).setF (by decide) (by decide)

/-- A hold of pads changes no register. -/
theorem holdChanged_regWord (old s : State) (ps : List Nat) (k : Nat) : regWord (holdChanged old s ps) k = regWord s k := by
  unfold holdChanged
  dsimp only
  split <;> rfl

/-- The check of the D96 clock reports in AU_STAT alone. -/
theorem d96Check_regWord (s : State) {k : Nat} (h : k ≠ AU_STAT) : regWord (d96Check s) k = regWord s k := by
  have lock : ∀ u bad, regWord (if bad || !flag s AU_CTL_D96SRC then setF u AU_STAT_D96LOCK 0 else u) k = regWord u k := by
    intro u bad
    split
    · exact regWord_setF_ne _ _ _ _ h
    · rfl
  unfold d96Check
  dsimp only
  split
  · rw [raiseEvent, raiseBits_regWord _ _ _ _ _ (.inr (by decide)) h, lock]
    rfl
  · rw [lock]
    rfl

theorem audioCntclr_clears {s : State} (on : scanOn s = true) (audio : hasAudio s.variant = true) :
    Clears s (bitWrite s AU_CTL_CNTCLR) [AU_CNT_STARVE, AU_CNT_UNDER, AU_CNT_EVLATE, AU_CNT_BADEV] [AU_STAT] := by
  have row : ClearRow AU_CTL_CNTCLR _ _ := ⟨rfl, by decide, fun _ _ => rfl, by decide⟩
  refine row.clears audio on (by decide) (by decide) rfl (by decide) fun b v _ same => ?_
  have clear : (soleWord s AU_CTL_CNTCLR).getLsbD 31 = true := row.bit (by decide) 31 (by decide)
  show Cleared s (holdChanged b (audioControl v (soleWord s AU_CTL_CNTCLR)) muxPads) _ _
  refine (cleared_clearRegs (v := v) (as := [AU_CNT]) (fun k _ => same k) (by decide) (by decide)).congr (fun k hk => ?_)
    (by decide)
  rw [holdChanged_regWord, audioControl, if_pos clear, d96Check_regWord _ (by simpa using hk)]
  rfl

theorem beacntClear_clears {s : State} (on : scanOn s = true) :
    Clears s (bitWrite s SC_BEAMCTL_CNTCLR) [SC_BEACNT_DISCARD, SC_BEACNT_OUTLIER, SC_BEACNT_ACCEPT] [] := by
  have row : ClearRow SC_BEAMCTL_CNTCLR _ _ := ⟨rfl, by decide, fun _ _ => rfl, by decide⟩
  refine row.clears rfl on (by decide) (by decide) rfl (by decide) fun b v old same => ?_
  have clear : (soleWord s SC_BEAMCTL_CNTCLR).getLsbD 3 = true := row.bit (by decide) 3 (by decide)
  have reacq : (soleWord s SC_BEAMCTL_CNTCLR).getLsbD 1 = false := row.bit (by decide) 1 (by decide)
  have control : regWord (clearBeacnt v) SC_BEAMCTL = regWord b SC_BEAMCTL := by
    rw [clearBeacnt, regWord_setRegWord_ne _ _ _ _ (by decide), same, old]
  have role : anchorRole (clearBeacnt v) = anchorRole b := by
    unfold anchorRole
    rw [getF_congr (f := SC_BEAMCTL_ROLE) control]
  have en : flag (clearBeacnt v) SC_BEAMCTL_EN = flag b SC_BEAMCTL_EN := by
    unfold flag
    rw [getF_congr (f := SC_BEAMCTL_EN) control]
  have effect : beamCtlWritten v (flag b SC_BEAMCTL_EN) (anchorRole b) (soleWord s SC_BEAMCTL_CNTCLR) =
      clearRegs v [SC_BEACNT] := by
    unfold beamCtlWritten
    rw [bitsOf_bit _ (by decide), bitsOf_bit _ (by decide), clear, reacq]
    simp only [if_true, role, en]
    cases flag b SC_BEAMCTL_EN <;> rfl
  show Cleared s (beamCtlWritten v (flag b SC_BEAMCTL_EN) (anchorRole b) (soleWord s SC_BEAMCTL_CNTCLR)) _ _
  rw [effect]
  exact cleared_clearRegs (fun k _ => same k) (by decide) (by decide)

/-- WV_CTL.HOPLIM may hold a value that it would not accept: the row's write then counts in HS_RSVWR. -/
theorem weaveCntclr_clears {s : State} (on : scanOn s = true) :
    Clears s (bitWrite s WV_CTL_CNTCLR) ([WV_FWDCNT_NOROUTE, WV_FWDCNT_MCIN, WV_FWDCNT_HOPX, WV_FWDCNT_MCDROP, WV_ENGCNT_BADHDR,
      WV_ENGCNT_BADQ, WV_ENGCNT_VIDDROP, WV_ENGCNT_AUTHFAIL] ++ (List.range 7).map WV_PORTERR_CRCERR ++
      (List.range 7).map WV_PORTERR_REPLAYS ++ (List.range 7).map WV_PORTERR_RETRAINS) [HS_RSVWR] := by
  have row : ClearRow WV_CTL_CNTCLR _ _ := ⟨rfl, by decide, fun _ _ => rfl, by decide⟩
  obtain ⟨b, v, old, same, -, write⟩ := row.writeRegister (s := s) (beforeWrite_other (by decide)) rfl
  rw [← row.writeBits rfl] at write
  have clear : (soleWord s WV_CTL_CNTCLR).getLsbD 31 = true := by
    rw [merged_getLsbD row.spec (regSpecAt_ok row.spec) (by decide)]
    rfl
  refine clears_of_write on rfl old write (by decide) ?_
  show Cleared s (afterHouseWrite b v .dresser .wvCtl 0 WV_CTL (soleWord s WV_CTL_CNTCLR)) _ _
  simp only [afterHouseWrite, clear, if_true]
  exact cleared_clearRegs (as := WV_FWDCNT :: WV_ENGCNT :: (List.range 7).map WV_PORTERR)
    (fun k hk => same k (by simpa using hk)) (by decide) (by decide)


/-- The rows of scene registers: their counters are fields of one status register. -/
theorem ClearRow.zero {s : State} {f : Fld} {r : RegSpec} {idx : List Nat} {fs : List Fld} (row : ClearRow f r idx)
    (present : registerPresent s.variant r idx = true) (on : scanOn s = true) (plain : r.hook ≠ .hsRsvwr)
    (any : ∀ g ∈ r.fields, g.kept = true → g.allow = .any) (apart : ∀ g ∈ fs, g.addr ≠ HS_RSVWR ∧ ¬ isCommitRegister g.addr)
    (effect : ∀ b v, (∀ k, regWord v k = regWord s k) → Cleared s (rowEffect f r idx b v (soleWord s f)) fs []) :
    ∃ t, bitWrite s f = .next t ∧ ∀ g ∈ fs, getF t g = 0 := by
  obtain ⟨b, v, -, -, same, write⟩ := row.writeRegister (beforeWrite_other plain) present
  rw [← row.writeBits present] at write
  exact zero_of_write on write apart (effect b v (same any)).1

theorem trestleCntclr_zero {s : State} (on : scanOn s = true) :
    ∃ t, bitWrite s SC_TRCTL_CNTCLR = .next t ∧ ∀ f ∈ [SC_TRSTAT_BADOP, SC_TRSTAT_ORDERERR, SC_TRSTAT_TGTERR], getF t f = 0 := by
  have row : ClearRow SC_TRCTL_CNTCLR _ _ := ⟨rfl, by decide, fun _ _ => rfl, by decide⟩
  refine row.zero rfl on (by decide) (by decide) (by decide) fun b v same => ?_
  have clear : (soleWord s SC_TRCTL_CNTCLR).getLsbD 1 = true := row.bit (by decide) 1 (by decide)
  show Cleared s (afterScanWrite b v .dresser .trCtl 0 (soleWord s SC_TRCTL_CNTCLR)) _ _
  simp only [afterScanWrite, clear, if_true]
  exact (((cleared_nil same).setF (by decide) (by decide)).setF (by decide) (by decide)).setF (by decide) (by decide)

theorem calCntclr_zero {s : State} (on : scanOn s = true) :
    ∃ t, bitWrite s SC_CALCTL_CNTCLR = .next t ∧ ∀ f ∈ [SC_CALSTAT_LATE], getF t f = 0 := by
  have row : ClearRow SC_CALCTL_CNTCLR _ _ := ⟨rfl, by decide, fun _ _ => rfl, by decide⟩
  refine row.zero rfl on (by decide) (by decide) (by decide) fun b v same => ?_
  have clear : (soleWord s SC_CALCTL_CNTCLR).getLsbD 1 = true := row.bit (by decide) 1 (by decide)
  show Cleared s (afterScanWrite b v .dresser .calCtl 0 (soleWord s SC_CALCTL_CNTCLR)) _ _
  simp only [afterScanWrite, clear, if_true]
  exact (cleared_nil same).setF (by decide) (by decide)

theorem feedCntclr_zero {s : State} (on : scanOn s = true) :
    ∃ t, bitWrite s SC_FEEDCTL_CNTCLR = .next t ∧ ∀ f ∈ [SC_FEEDSTAT_LATEPASS], getF t f = 0 := by
  have row : ClearRow SC_FEEDCTL_CNTCLR _ _ := ⟨rfl, by decide, fun _ _ => rfl, by decide⟩
  refine row.zero rfl on (by decide) (by decide) (by decide) fun b v same => ?_
  have clear : (soleWord s SC_FEEDCTL_CNTCLR).getLsbD 7 = true := row.bit (by decide) 7 (by decide)
  show Cleared s (afterScanWrite b v .dresser .feedCtl 0 (soleWord s SC_FEEDCTL_CNTCLR)) _ _
  simp only [afterScanWrite, clear, if_true]
  exact (cleared_nil same).setF (by decide) (by decide)

/-- HS_RSVWR has no field that its clear would keep. -/
theorem soleWord_rsvwr (s : State) : soleWord s HS_RSVWR_CLEAR = 0x80000000#32 := by
  show (regWord s HS_RSVWR &&& 0#32 &&& ~~~ fieldMask 31 31) ||| (fieldMask 31 31 &&& fieldMask 31 31) = _
  rw [BitVec.and_zero, BitVec.zero_and]
  decide

/-- The clear comes first, and its own write, of the acting bit alone, is not counted. -/
theorem rsvwrClear_clears {s : State} (on : scanOn s = true) :
    Clears s (bitWrite s HS_RSVWR_CLEAR) [HS_RSVWR_COUNT, HS_RSVWR_SAT] [] := by
  have row : ClearRow HS_RSVWR_CLEAR _ _ := ⟨rfl, by decide, fun _ _ => rfl, by decide⟩
  let u := setF (setF s HS_RSVWR_COUNT 0) HS_RSVWR_SAT 0
  have cleared : Cleared s u [HS_RSVWR_COUNT, HS_RSVWR_SAT] [] :=
    ((cleared_nil fun _ => rfl).setF (by decide) (by decide)).setF (by decide) (by decide)
  obtain ⟨b, v, old, -, same, write⟩ := row.writeRegister (s := s) (u := u) (by rw [soleWord_rsvwr]; rfl) rfl
  rw [soleWord_rsvwr, ← soleWord_rsvwr s, ← row.writeBits rfl] at write
  obtain ⟨t, run, applied⟩ := bitWrite_powered (f := HS_RSVWR_CLEAR) on
  have word : ∀ k, regWord t k = regWord u k := by
    intro k
    rw [applied k (.inl rfl), write, countOnce_same]
    · exact same (by decide) k
    · show getF v HS_RSVWR_COUNT ≤ getF b HS_RSVWR_COUNT + 1
      rw [getF_congr (same (by decide) _), getF_congr (old _)]
      omega
  exact ⟨t, run, cleared.congr (fun k _ => word k) (by decide)⟩

/-- A row that sets one acting field writes no reserved bit. -/
theorem soleWord_strayBits {s : State} {f : Fld} {r : RegSpec} {idx : List Nat} (h : regSpecAt f.addr = some (r, idx))
    (sole : SoleField r.fields f) : strayBits r (soleWord s f) = false := by
  have flag := congrArg Prod.snd (soleWrite (s := s) h sole)
  rw [writeWord_flag, Bool.or_eq_false_iff] at flag
  exact flag.2

/-- A kept field of the written word holds what the register holds. -/
theorem soleWord_kept {s : State} {f k : Fld} {r : RegSpec} {idx : List Nat} (h : regSpecAt f.addr = some (r, idx))
    (acts : ∃ w ∈ r.fields, w.hi = f.hi ∧ w.lo = f.lo ∧ w.access = .wo)
    (kept : ∃ g ∈ r.fields, g.hi = k.hi ∧ g.lo = k.lo ∧ g.kept = true) (same : k.addr = f.addr) :
    bitsOf (soleWord s f) k.hi k.lo = getF s k := by
  obtain ⟨w, hw, hi, lo, acts⟩ := acts
  obtain ⟨g, hg, ghi, glo, keeps⟩ := kept
  have ne : g ≠ w := by
    rintro rfl
    simp [FieldSpec.kept, acts] at keeps
  have field := soleWord_field (s := s) h (regSpecAt_ok h) hw hi lo hg ne
  rw [if_pos keeps, ghi, glo] at field
  rw [field, getF, same]

/-- The write of a row whose register stores its fields itself: `g` on the state as it stands. -/
theorem regWriteBits_special {s : State} {f : Fld} {r : RegSpec} {idx : List Nat} {g : State → Word → State}
    (spec : regSpecAt f.addr = some (r, idx)) (sole : SoleField r.fields f) (present : registerPresent s.variant r idx = true)
    (plain : r.hook ≠ .hsRsvwr) (noPad : isPadBlock f.addr = false)
    (special : ∀ u w, specialWrite u .dresser r idx f.addr w = some (g (countIf u (strayBits r w)) w))
    (named : (f.addr = SC_PGCTL && heldConfigWrite s (fieldMask f.hi f.lo) (fieldMask f.hi f.lo)) = false) :
    regWriteBits s .dresser f.addr (fieldMask f.hi f.lo) (fieldMask f.hi f.lo) = countOnce s (g s (soleWord s f)) := by
  have quiet : countIf s (strayBits r (soleWord s f)) = s := by rw [soleWord_strayBits spec sole]; rfl
  have lock : breakLockSequence s .dresser f.addr = s := by simp [breakLockSequence, noPad]
  simp only [regWriteBits, regWriteBase, spec, present, if_true, named, Bool.false_eq_true, if_false, writeRegister,
    beforeWrite_other plain, lock, ite_self, special, quiet]

/-- CPY_CTL, whose write stores its own fields while no copy runs. -/
theorem regSpecAt_cpyCtl : regSpecAt CPY_CTL = some (copierRegs[0], []) := rfl

theorem cpyCtl_sole : SoleField copierRegs[0].fields CPY_CTL_CNTCLR := ⟨by decide, by decide, by decide⟩

theorem copyCntclr_clears {s : State} (on : scanOn s = true) :
    Clears s (bitWrite s CPY_CTL_CNTCLR) [CPY_CNT_OPS, CPY_CNT_BUSYWR, CPY_CNT_ERRS] [] := by
  have write := regWriteBits_special (s := s) (g := copyCtlWrite) regSpecAt_cpyCtl cpyCtl_sole rfl (by decide) rfl
    (fun _ _ => rfl) rfl
  refine clears_of_write on rfl (fun _ => rfl) write (by decide) ?_
  refine (cleared_clearRegs (v := s) (as := [CPY_CNT]) (fun _ _ => rfl) (by decide) (by decide)).congr (fun k _ => ?_) (by decide)
  let w := soleWord s CPY_CTL_CNTCLR
  have bit := merged_bit (s := s) regSpecAt_cpyCtl cpyCtl_sole
  have clear : bitsOf w 31 31 = 1 := by rw [bitsOf_bit _ (by decide), bit 31 (by decide)]; rfl
  have abort : bitsOf w 1 1 = 0 := by rw [bitsOf_bit _ (by decide), bit 1 (by decide)]; rfl
  have go : bitsOf w 0 0 = 0 := by rw [bitsOf_bit _ (by decide), bit 0 (by decide)]; rfl
  let u := setRegWord s CPY_CNT 0
  have kept : ∀ f ∈ [CPY_CTL_PACE, CPY_CTL_YDIR, CPY_CTL_XDIR, CPY_CTL_BPP, CPY_CTL_OP],
      f.fits ∧ bitsOf w f.hi f.lo = getF u f := by
    have table : ∀ f ∈ [CPY_CTL_PACE, CPY_CTL_YDIR, CPY_CTL_XDIR, CPY_CTL_BPP, CPY_CTL_OP],
        f.fits ∧ f.addr = CPY_CTL ∧ ∃ g ∈ copierRegs[0].fields, g.hi = f.hi ∧ g.lo = f.lo ∧ g.kept = true := by decide
    intro f hf
    obtain ⟨fits, own, keeps⟩ := table f hf
    refine ⟨fits, ?_⟩
    rw [soleWord_kept regSpecAt_cpyCtl cpyCtl_sole.own keeps own, getF_setRegWord_ne (by rw [own]; decide)]
  have held : ∀ f ∈ [CPY_CTL_PACE, CPY_CTL_YDIR, CPY_CTL_XDIR, CPY_CTL_BPP, CPY_CTL_OP], ∀ v,
      (∀ k, regWord v k = regWord u k) → ∀ k, regWord (setF v f (bitsOf w f.hi f.lo)) k = regWord u k := fun f hf v same =>
    regWord_setF_held same (kept f hf).1 (kept f hf).2
  show regWord (copyCtlWrite s w) k = regWord u k
  unfold copyCtlWrite
  simp only [clear, abort, go, if_true, zero_ne_one, decide_true, decide_false, Bool.false_or, Bool.or_true, Bool.not_true,
    Bool.false_and, Bool.false_eq_true, if_false]
  split
  · rfl
  · exact held CPY_CTL_OP (by decide) _ (held CPY_CTL_BPP (by decide) _ (held CPY_CTL_XDIR (by decide) _
      (held CPY_CTL_YDIR (by decide) _ (held CPY_CTL_PACE (by decide) _ fun _ => rfl)))) k

theorem regSpecAt_pgCtl : regSpecAt SC_PGCTL = some (driveRegs[0], []) := rfl

theorem pgCtl_sole : SoleField driveRegs[0].fields SC_PGCTL_CNTCLR := ⟨by decide, by decide, by decide⟩

/-- A write that leaves RUN as it is makes no region rise, so none can fail (R249): it reaches SC_PGCTL alone. -/
theorem runWrite_held_regWord {s : State} {mask k : Nat} (held : mask = runMask s) (h : k ≠ SC_PGCTL) :
    regWord (runWrite s mask) k = regWord s k := by
  have rising : ((List.range (regionCount s.variant)).filter fun k => bitAt (runMask s) k).filter
      (fun k => !bitAt (runMask s) k) = [] := by
    rw [List.filter_eq_nil_iff]
    intro k hk
    simpa using (List.mem_filter.mp hk).2
  subst held
  unfold runWrite
  simp only [rising, List.filterMap_nil]
  exact regWord_setF_ne _ _ _ _ h

theorem pgCntclr_clears {s : State} (on : scanOn s = true) :
    Clears s (bitWrite s SC_PGCTL_CNTCLR) [SC_PGCNT_CFGDROP] [SC_PGCTL] := by
  have write := regWriteBits_special (s := s) (g := pgctlWrite) regSpecAt_pgCtl pgCtl_sole rfl (by decide) rfl (fun _ _ => rfl)
    (by simp [heldConfigWrite, SC_PGCTL_CNTCLR, fieldMask])
  refine clears_of_write on rfl (fun _ => rfl) write (by decide) ?_
  let u := setF s SC_PGCNT_CFGDROP 0
  have cleared : Cleared s u [SC_PGCNT_CFGDROP] [SC_PGCTL] :=
    (cleared_nil fun _ => rfl).setF (by decide) (by decide)
  refine cleared.congr (fun k hk => ?_) (by decide)
  replace hk : k ≠ SC_PGCTL := by simpa using hk
  let w := soleWord s SC_PGCTL_CNTCLR
  have clear : bitsOf w 0 0 = 1 := by
    rw [bitsOf_bit _ (by decide), merged_bit (s := s) regSpecAt_pgCtl pgCtl_sole 0 (by decide)]
    rfl
  have kept : ∀ f ∈ [SC_PGCTL_RUN, SC_PGCTL_CH4, SC_PGCTL_ROWMODE], bitsOf w f.hi f.lo = getF u f := by
    have table : ∀ f ∈ [SC_PGCTL_RUN, SC_PGCTL_CH4, SC_PGCTL_ROWMODE],
        f.addr = SC_PGCTL ∧ ∃ g ∈ driveRegs[0].fields, g.hi = f.hi ∧ g.lo = f.lo ∧ g.kept = true := by decide
    intro f hf
    obtain ⟨own, keeps⟩ := table f hf
    rw [soleWord_kept regSpecAt_pgCtl pgCtl_sole.own keeps own]
    exact (getF_congr (regWord_setF_ne _ _ _ _ (by rw [own]; decide))).symm
  have run : bitsOf w 11 8 = runMask u := kept SC_PGCTL_RUN (by decide)
  have ch4 : bitsOf w 1 1 = getF u SC_PGCTL_CH4 := kept SC_PGCTL_CH4 (by decide)
  have mode : bitsOf w 2 2 = getF u SC_PGCTL_ROWMODE := kept SC_PGCTL_ROWMODE (by decide)
  show regWord (pgctlWrite s w) k = regWord u k
  unfold pgctlWrite
  simp only [clear, if_true, ch4, mode]
  split
  · have apart : ∀ f ∈ [SC_PGCTL_CH4, SC_PGCTL_ROWMODE], ∀ v n, runMask (setF v f n) = runMask v := by
      have table : ∀ f ∈ [SC_PGCTL_CH4, SC_PGCTL_ROWMODE], f.fits ∧ f.apart SC_PGCTL_RUN := by decide
      exact fun f hf v n => getF_setF_ne v f SC_PGCTL_RUN n (table f hf).1 (by decide) (table f hf).2
    have mask : bitsOf w 11 8 = runMask (setF (setF u SC_PGCTL_CH4 (getF u SC_PGCTL_CH4)) SC_PGCTL_ROWMODE
        (getF u SC_PGCTL_ROWMODE)) := by
      rw [apart _ (by decide), apart _ (by decide), run]
    rw [runWrite_held_regWord mask hk, regWord_setF_ne _ _ _ _ hk, regWord_setF_ne _ _ _ _ hk]
  · rw [if_neg (by simp [u])]
    exact runWrite_held_regWord run hk

/-- Settles O8: each row by the effect of its register's write. -/
theorem counterClears : Obligations.CounterClears := by
  unfold Obligations.CounterClears
  intro s on
  exact ⟨rsvwrClear_clears on, bridgeCntclr_clears on, hicCntclr_clears on, weaveCntclr_clears on, twinCntclr_clears on,
    audioCntclr_clears on, dresserCntclr_clears on, recorderCntclr_clears on, padCntclr_clears on, memCntclr_clears on,
    eccCntclr_clears on, beacntClear_clears on, patternCacheCntclr_clears on, cmcntClear_clears on, pgCntclr_clears on,
    copyCntclr_clears on, trestleCntclr_zero on, calCntclr_zero on, feedCntclr_zero on⟩
end Sys2Proof.Machine
end

section
/-! SUPPORT. What the resets of the two dies leave alone: the records, counts, events and packets that go with them reach neither
the blocks nor most registers. -/

namespace Sys2Proof.Machine

/-! ### What reports leave -/

/-- Registers that no record, count, event bit or wake of the house die reaches. -/
def lasting (k : Nat) : Bool :=
  isScanAddr k || [HS_RSVWR, HS_BRSTAT, HS_CORECTL, SEC_STAT, SEC_ALMCFG, SEC_UNLK].contains k ||
    (List.range 4).any fun n => k == HS_CORESTART n

/-- The state without the parts in which reports stand: registers, edges, recorder queue, packets, holds of pads, free values. -/
def settled (s : State) : State :=
  { s with
    regs := [], hic := .reset, weave := .reset, hutch := .reset, pads := .reset, held := [], sent := [], fresh := 0,
    dresser := { Dresser.reset with queue := s.dresser.queue },
    recorder := { Recorder.reset with pcyc := s.recorder.pcyc, slots := s.recorder.slots },
    power := { Power.reset with booting := s.power.booting, scanOff := s.power.scanOff },
    mem := { Memory.reset with sram := s.mem.sram, locals := s.mem.locals } }

/-- From `s` to `t` something is reported, and nothing else changes. -/
structure Quiet (s t : State) : Prop where
  rest : settled t = settled s
  regs : ∀ k, lasting k = true → regWord t k = regWord s k

namespace Quiet

variable {s₀ s : State}

theorem refl (s : State) : Quiet s s := ⟨rfl, fun _ _ => rfl⟩

theorem trans {a b c : State} (h : Quiet a b) (k : Quiet b c) : Quiet a c :=
  ⟨k.rest.trans h.rest, fun x hx => (k.regs x hx).trans (h.regs x hx)⟩

theorem foldl {α : Type} {f : State → α → State} {l : List α} (h : Quiet s₀ s)
    (hf : ∀ x ∈ l, ∀ t, Quiet s₀ t → Quiet s₀ (f t x)) : Quiet s₀ (l.foldl f s) := by
  induction l generalizing s with
  | nil => exact h
  | cons x l ih =>
    obtain ⟨head, tail⟩ := List.forall_mem_cons.mp hf
    exact ih (head s h) tail

/-! One rule per part of the state in which reports stand. -/

theorem hic (h : Quiet s₀ s) (x : Hic) : Quiet s₀ { s with hic := x } := h.trans ⟨rfl, fun _ _ => rfl⟩
theorem weave (h : Quiet s₀ s) (x : Weave) : Quiet s₀ { s with weave := x } := h.trans ⟨rfl, fun _ _ => rfl⟩
theorem hutch (h : Quiet s₀ s) (x : Hutch) : Quiet s₀ { s with hutch := x } := h.trans ⟨rfl, fun _ _ => rfl⟩
theorem pads (h : Quiet s₀ s) (x : Pads) : Quiet s₀ { s with pads := x } := h.trans ⟨rfl, fun _ _ => rfl⟩
theorem held (h : Quiet s₀ s) (x : List Msg) : Quiet s₀ { s with held := x } := h.trans ⟨rfl, fun _ _ => rfl⟩
theorem sent (h : Quiet s₀ s) (x : List Sent) : Quiet s₀ { s with sent := x } := h.trans ⟨rfl, fun _ _ => rfl⟩
theorem takeFresh (h : Quiet s₀ s) : Quiet s₀ (takeFresh s).2 := h.trans ⟨rfl, fun _ _ => rfl⟩

theorem recorder (h : Quiet s₀ s) (x : Recorder) (pcyc : x.pcyc = s.recorder.pcyc := by rfl)
    (slots : x.slots = s.recorder.slots := by rfl) : Quiet s₀ { s with recorder := x } :=
  h.trans ⟨by simp [settled, pcyc, slots], fun _ _ => rfl⟩

theorem power (h : Quiet s₀ s) (x : Power) (booting : x.booting = s.power.booting := by rfl)
    (scanOff : x.scanOff = s.power.scanOff := by rfl) : Quiet s₀ { s with power := x } :=
  h.trans ⟨by simp [settled, booting, scanOff], fun _ _ => rfl⟩

theorem mem (h : Quiet s₀ s) (x : Memory) (sram : x.sram = s.mem.sram := by rfl)
    (locals : x.locals = s.mem.locals := by rfl) : Quiet s₀ { s with mem := x } :=
  h.trans ⟨by simp [settled, sram, locals], fun _ _ => rfl⟩

theorem setRegWord (h : Quiet s₀ s) {a : Nat} (brief : lasting a = false) (w : Word) : Quiet s₀ (setRegWord s a w) := by
  refine h.trans ⟨rfl, fun k hk => regWord_setRegWord_ne _ _ _ _ ?_⟩
  rintro rfl
  rw [brief] at hk
  exact Bool.false_ne_true hk

theorem setF (h : Quiet s₀ s) {f : Fld} (brief : lasting f.addr = false) (v : Nat) : Quiet s₀ (setF s f v) :=
  h.setRegWord brief _

theorem countF (h : Quiet s₀ s) {f : Fld} (brief : lasting f.addr = false) (n : Nat) : Quiet s₀ (countF s f n) :=
  h.setF brief _

theorem orF (h : Quiet s₀ s) {f : Fld} (brief : lasting f.addr = false) (n : Nat) : Quiet s₀ (orF s f n) := h.setF brief _

/-! ### Edges and events -/

theorem wakeFromHibernate (h : Quiet s₀ s) (w : Nat) : Quiet s₀ (wakeFromHibernate s w) :=
  (((h.setF (f := HS_PWRSTAT_LASTWAKE) rfl w).setF (f := HS_PWRCTL_REQ) rfl pwRun).setF (f := HS_PWRSTAT_BUSY) rfl 1).power _

theorem noteWake (h : Quiet s₀ s) (w : Nat) : Quiet s₀ (noteWake s w) := by
  have noted : Quiet s₀
      (if s.power.wakePending.isNone then { s with power := { s.power with wakePending := some w } } else s) := by
    split
    · exact h.power _
    · exact h
  unfold Machine.noteWake
  dsimp only
  split
  · exact h
  split
  · split
    · exact noted
    · exact h
  split
  · split
    · exact noted
    · exact h
  · split
    · exact h.wakeFromHibernate w
    · exact h

theorem latchWake (h : Quiet s₀ s) (w : Nat) : Quiet s₀ (latchWake s w) := by
  unfold Machine.latchWake
  split
  · exact h.orF rfl _
  · exact h

/-- An edge of a house source, or one of the scan die while the bridge is DOWN. -/
theorem pulse (h : Quiet s₀ s) {n : Nat} (local' : isScanSource n = false ∨ bridgeDown s = true) : Quiet s₀ (pulse s n) := by
  unfold Machine.pulse
  split
  · next scan =>
    rw [if_pos (local'.resolve_left (by simp [scan]))]
    exact h.hic _
  · split
    · refine noteWake ?_ _
      split
      · exact h.latchWake _
      · exact h.hic _
    · exact h.hic _

/-- An event bit in any register: beyond the bit there is the edge at most. -/
theorem raiseEvent_orF {n : Nat} {f : Fld} (local' : isScanSource n = false ∨ bridgeDown (Machine.orF s f 1) = true) :
    Quiet (Machine.orF s f 1) (Machine.raiseEvent s n f) := by
  unfold Machine.raiseEvent raiseBits
  dsimp only
  split
  · exact (refl _).pulse local'
  · exact refl _

theorem raiseEvent (h : Quiet s₀ s) {n : Nat} {f : Fld} (house : isScanSource n = false) (brief : lasting f.addr = false) :
    Quiet s₀ (raiseEvent s n f) := (h.orF brief 1).trans (raiseEvent_orF (.inl house))

/-! ### Records -/

theorem flushDrops (h : Quiet s₀ s) : Quiet s₀ (flushDrops s) := by
  unfold Machine.flushDrops
  split
  · exact ((h.recorder _).recorder _).recorder _
  · exact h

theorem dropRecord (h : Quiet s₀ s) : Quiet s₀ (dropRecord s) := by
  unfold Machine.dropRecord
  have counted := (h.countF (f := HS_RECCNT_DROPPED) rfl 1).raiseEvent (n := 70) (f := HS_RECSTAT_DROPEV) rfl rfl
  exact (counted.recorder _).flushDrops

theorem enqueueLimited (h : Quiet s₀ s) (r : Rec) (cause : Nat) : Quiet s₀ (enqueueLimited s r cause) := by
  have send : ∀ folded, Quiet s₀ (enqueueLimited.send cause s r folded) := by
    intro folded
    unfold enqueueLimited.send
    split
    · exact (h.recorder _).recorder _
    · exact h.dropRecord
  unfold Machine.enqueueLimited
  dsimp only
  split
  · split
    · split
      · exact h.recorder _
      · exact h.dropRecord
    · exact send _
  · exact send _

theorem enqueueRecord (h : Quiet s₀ s) (r : Rec) (cause : Nat) : Quiet s₀ (enqueueRecord s r cause) := by
  unfold Machine.enqueueRecord
  dsimp only
  split
  · exact h.enqueueLimited _ _
  · split
    · exact (h.flushDrops.recorder _).recorder _
    · exact h.flushDrops.dropRecord

theorem record (h : Quiet s₀ s) (cls : RecClass) (code p0 p1 p2 p3 cause : Nat) :
    Quiet s₀ (record s cls code p0 p1 p2 p3 cause) := h.enqueueRecord _ _

/-! ### Packets of the module -/

theorem drainPort (h : Quiet s₀ s) (p fuel : Nat) : Quiet s₀ (drainPort s p fuel) := by
  induction fuel generalizing s with
  | zero => exact h
  | succ fuel ih =>
    unfold Machine.drainPort
    dsimp only
    split
    · exact h
    · split
      · exact h
      · exact ih (((h.weave _).weave _).sent _)

theorem enqueueOut (h : Quiet s₀ s) (p : Nat) (q : Queued) : Quiet s₀ (enqueueOut s p q) := (h.weave _).drainPort p _

theorem deliverLocal (h : Quiet s₀ s) (arrival : Nat) (x : Item) : Quiet s₀ (deliverLocal s arrival x) := by
  unfold Machine.deliverLocal
  split
  · exact h.weave _
  · split
    · exact h
    · exact h.weave _

theorem multicast (h : Quiet s₀ s) (arrival : Nat) (x : Item) (slot : Option (BitVec 14)) :
    Quiet s₀ (multicast s arrival x slot) := by
  unfold Machine.multicast
  split
  · next out _ =>
    split
    · exact h.countF rfl 1
    · split
      · exact h.weave _
      · have copied := h.foldl (l := out.filter fun p => p != arrival && p != 7)
          (f := fun s p => Machine.enqueueOut s p { pkt := x.pkt, copy := true, arrival, out := slot })
          fun p _ t k => k.enqueueOut p _
        dsimp only
        split
        · exact copied.deliverLocal _ _
        · exact copied
  · exact h.countF rfl 1

theorem countNoRoute (h : Quiet s₀ s) : Quiet s₀ (countNoRoute s) := h.countF rfl 1

theorem forwardUnicast (h : Quiet s₀ s) (arrival : Nat) (pkt : Packet) (slot : Option (BitVec 14)) :
    Quiet s₀ (forwardUnicast s arrival pkt slot).1 := by
  unfold Machine.forwardUnicast
  split
  · exact h.enqueueOut _ _
  · exact h.countNoRoute

theorem routePacket (h : Quiet s₀ s) (arrival : Nat) (x : Item) (slot : Option (BitVec 14)) :
    Quiet s₀ (routePacket s arrival x slot).1 := by
  unfold Machine.routePacket
  dsimp only
  split
  · split
    · exact h.deliverLocal _ _
    · exact h.forwardUnicast _ _ _
  · exact h.multicast _ _ _
  · split
    · split
      · split
        · exact h.enqueueOut _ _
        · exact h.countNoRoute
      · split
        · exact h.enqueueOut _ _
        · exact h.countNoRoute
    · exact h.forwardUnicast _ _ _
  · split
    · exact h.deliverLocal _ _
    · split
      · exact h.enqueueOut _ _
      · exact h.enqueueOut _ _
      · exact h.countNoRoute

theorem postBridgeDown (h : Quiet s₀ s) (reply : Option ReplyTo) (epoch : Word) (stream : BitVec 2) (tframe : BitVec 16) :
    Quiet s₀ (postBridgeDown s reply epoch stream tframe) := by
  unfold Machine.postBridgeDown
  split
  · exact h
  · exact h.routePacket _ _ _

/-! ### Memories, pads, debug state -/

theorem noteHouseCE (h : Quiet s₀ s) (mem a : Nat) : Quiet s₀ (noteHouseCE s mem a) :=
  ((h.countF (f := HS_CECNT_CE) rfl 1).setRegWord (a := HS_CEADDR) rfl _).raiseEvent (f := HS_MEMSTAT_CEEV) rfl rfl

theorem noteHouseUE (h : Quiet s₀ s) (mem a : Nat) : Quiet s₀ (noteHouseUE s mem a) := by
  have recorded : ∀ t, Quiet s₀ t → Quiet s₀ (if t.mem.lastRecorded = some (memAddr mem a) then t
      else Machine.record { t with mem := { t.mem with lastRecorded := some (memAddr mem a) } } .fault 0x5001
        (memAddr mem a) 0 0 0) := by
    intro t ht
    split
    · exact ht
    · exact (ht.mem _).record _ _ _ _ _ _ _
  exact recorded _ (((h.countF (f := HS_CECNT_UE) rfl 1).setRegWord (a := HS_UEADDR) rfl _).raiseEvent
    (f := HS_MEMSTAT_UEEV) rfl rfl)

theorem touchBlock (h : Quiet s₀ s) (b : Nat) : Quiet s₀ (touchBlock s b).1 := by
  unfold Machine.touchBlock
  split
  · exact h
  · exact (h.mem _).noteHouseCE _ _
  · exact h.noteHouseUE _ _

theorem repairDie (h : Quiet s₀ s) (scan : Bool) : Quiet s₀ (repairDie s scan) := by
  refine h.foldl fun m _ t ht => ?_
  have touched : Quiet s₀ (repairMacro t m).1 := ht.touchBlock _
  dsimp only
  split
  · exact touched
  · exact (touched.countF (f := HS_REPSTAT_SKIPPED) rfl _).raiseEvent (f := HS_MEMSTAT_REPEV) rfl rfl

theorem holdChanged (h : Quiet s₀ s) (old : State) (ps : List Nat) : Quiet s₀ (holdChanged old s ps) := by
  unfold Machine.holdChanged
  dsimp only
  split
  · exact h
  · exact h.takeFresh.pads _

theorem islandLog (h : Quiet s₀ s) : Quiet s₀ (islandLog s) := (h.hutch _).foldl fun _ _ _ ht => ht.enqueueRecord _ _

theorem notePinned (h : Quiet s₀ s) (n : Nat) : Quiet s₀ (notePinned s n) :=
  ((h.recorder _).setF (f := HS_RECSTAT_PINCNT) rfl n).setF (f := HS_RECSTAT_PINFULL) rfl _

theorem holdUnaccepted (h : Quiet s₀ s) : Quiet s₀ (holdUnaccepted s) := by
  refine h.foldl fun m _ t ht => ?_
  split
  · exact ht.hic _
  · exact ht.recorder _
  · exact ht.held _
  · exact ht.held _
  · exact ht

theorem setPending (h : Quiet s₀ s) {n : Nat} (source : n < 256) : Quiet s₀ (setPending s n) := by
  have table : ∀ i < 8, lasting (HIC_PEND i) = false := by decide
  unfold Machine.setPending
  split
  · exact (h.countF (f := HIC_STAT_MERGED) rfl 1).setF (f := HIC_STAT_LASTMERGE) rfl n
  · exact h.setRegWord (table (n / 32) (by omega)) _

theorem releaseLineHolds (h : Quiet s₀ s) : Quiet s₀ (releaseLineHolds s) := by
  refine h.foldl fun n hn t ht => ?_
  split
  · unfold releaseEdges
    split
    · exact ht
    · exact (ht.hic _).setPending (List.mem_range.mp hn)
  · exact ht

end Quiet

/-- What a view of the state gives is kept where the view sees no part in which reports stand. -/
theorem settled_view {s t : State} {α : Type} (h : settled t = settled s) (f : State → α) (blind : ∀ x, f (settled x) = f x) :
    f t = f s := by
  rw [← blind t, h, blind]

theorem Quiet.view {s t : State} {α : Type} (h : Quiet s t) (f : State → α) (blind : ∀ x, f (settled x) = f x) : f t = f s :=
  settled_view h.rest f blind

/-! ### The bridge goes down -/

/-- The state without the bridge and its status register. -/
def noBridge (s : State) : State := { resetReg s HS_BRSTAT with bridge := .reset }

/-- From `s` to `t` something is reported, and the bridge may change. -/
def Apart (s t : State) : Prop := Quiet (noBridge s) (noBridge t)

theorem noBridge_regWord (s : State) (k : Nat) : regWord (noBridge s) k = if k = HS_BRSTAT then regDefault k else regWord s k := by
  show regWord (resetReg s HS_BRSTAT) k = _
  split
  · next e => rw [e, regWord_resetReg_same]
  · next e => exact regWord_resetReg_ne s HS_BRSTAT k e

theorem Quiet.apart {s t : State} (h : Quiet s t) : Apart s t := by
  refine ⟨congrArg (fun x => { x with bridge := Bridge.reset }) h.rest, fun k hk => ?_⟩
  rw [noBridge_regWord, noBridge_regWord, h.regs k hk]

namespace Apart

variable {s₀ s t : State}

theorem refl (s : State) : Apart s s := Quiet.refl _

theorem quiet (h : Apart s₀ s) (k : Quiet s t) : Apart s₀ t := Quiet.trans h k.apart

theorem bridge (h : Apart s₀ s) (b : Bridge) : Apart s₀ { s with bridge := b } := Quiet.trans h ⟨rfl, fun _ _ => rfl⟩

theorem setF (h : Apart s₀ s) {f : Fld} (own : f.addr = HS_BRSTAT) (v : Nat) : Apart s₀ (setF s f v) := by
  refine Quiet.trans h ⟨rfl, fun k _ => ?_⟩
  rw [noBridge_regWord, noBridge_regWord]
  split
  · rfl
  · next ne => exact regWord_setF_ne _ _ _ _ (by rw [own]; exact ne)

theorem foldl {α : Type} {f : State → α → State} {l : List α} (h : Apart s₀ s)
    (hf : ∀ x t, Apart s₀ t → Apart s₀ (f t x)) :
    Apart s₀ (l.foldl f s) := by
  induction l generalizing s with
  | nil => exact h
  | cons x l ih => exact ih (hf x s h)

theorem view {α : Type} (h : Apart s t) (f : State → α) (blind : ∀ x, f (settled (noBridge x)) = f x) : f t = f s := by
  rw [← blind t, h.rest, blind]

theorem regs (h : Apart s t) {k : Nat} (hk : lasting k = true) (ne : k ≠ HS_BRSTAT) : regWord t k = regWord s k := by
  have := Quiet.regs h k hk
  rwa [noBridge_regWord, noBridge_regWord, if_neg ne, if_neg ne] at this

theorem discardDown (h : Apart s₀ s) (m : Msg) : Apart s₀ (discardDown s m) := by
  have counted : Apart s₀ (countF s HS_BRERR_DROPPED 1) := h.quiet ((Quiet.refl s).countF rfl 1)
  cases m with
  | commit src epoch tframe stream wcount reply =>
    unfold Machine.discardDown
    dsimp only
    split
    · exact (h.bridge _).quiet ((Quiet.refl _).postBridgeDown _ _ _ _)
    · exact h
  | readRequest | readResponse | edge | record | result | binding => exact h
  | regWrite | regBits | dramWrite | immPut | immClear | fault | key | beacon => exact counted

/-- The event bits of the bridge stand in its status register. -/
theorem raiseDown (h : Apart s₀ s) : Apart s₀ (raiseEvent s 40 HS_BRSTAT_DOWNEV) :=
  (h.setF (f := HS_BRSTAT_DOWNEV) rfl _).quiet (Quiet.raiseEvent_orF (.inl rfl))

theorem bridgeGoesDown (h : Apart s₀ s) (poweredDown : Bool) : Apart s₀ (bridgeGoesDown s poweredDown) := by
  have spoiled : Apart s₀ (spoilActivation s) := h.quiet ((Quiet.refl s).weave _)
  have ended := (spoiled.foldl (l := unacceptedToScan (spoilActivation s)) fun m _ k => k.discardDown m).quiet
    (Quiet.refl _).holdUnaccepted
  have down := fun b => (((ended.bridge b).setF (f := HS_BRSTAT_STATE) rfl brDown).setF (f := HS_BRSTAT_LANES_HS) rfl 0).setF
    (f := HS_BRSTAT_LANES_SH) rfl 0
  have event : ∀ t, Apart s₀ t → Apart s₀ (recordBridge (raiseEvent t 40 HS_BRSTAT_DOWNEV)) := fun t k =>
    (k.raiseDown).quiet ((Quiet.refl _).record _ _ _ _ _ _ _)
  unfold Machine.bridgeGoesDown
  dsimp only
  split
  · exact down _
  · exact event _ (down _)

theorem bridgeLosesScan (h : Apart s₀ s) (poweredDown : Bool) : Apart s₀ (bridgeLosesScan s poweredDown) := by
  unfold Machine.bridgeLosesScan
  dsimp only
  refine bridge ?_ _
  split
  · exact h
  · exact h.bridgeGoesDown poweredDown

end Apart

/-- What the end of one commit does at the house side (R601). -/
def endCommit (s : State) (c : SentCommit) : State :=
  let s := { s with bridge := { s.bridge with commits := dropSent s.bridge.commits c.src c.epoch } }
  record (postBridgeDown s c.reply c.epoch c.stream c.tframe) .warn 0x3001 c.epoch.toNat
    (0x07 + c.stream.toNat * 256 + c.tframe.toNat * 65536) 0 (sourceParam c.src)

theorem endCommits_eq (s : State) : endCommits s =
    (s.bridge.commits.filter fun c => !crossesYet s c && !reportCame s c).foldl endCommit s := rfl

/-- The report of a commit's end touches nothing of the bridge but the list of commits. -/
theorem endCommit_quiet (s : State) (c : SentCommit) :
    Quiet { s with bridge := { s.bridge with commits := dropSent s.bridge.commits c.src c.epoch } } (endCommit s c) :=
  ((Quiet.refl _).postBridgeDown _ _ _ _).record _ _ _ _ _ _ _

theorem endCommits_apart (s : State) : Apart s (endCommits s) :=
  (Apart.refl s).foldl fun c t h => (h.bridge _).quiet (endCommit_quiet t c)

/-- Where each of them ends, no commit is kept (R601). -/
theorem foldl_endCommit_commits (l : List SentCommit) (s : State) (h : s.bridge.commits = l) :
    (l.foldl endCommit s).bridge.commits = [] := by
  induction l generalizing s with
  | nil => exact h
  | cons c l ih =>
    refine ih (endCommit s c) ?_
    rw [(endCommit_quiet s c).view (·.bridge.commits) fun _ => rfl]
    show dropSent s.bridge.commits c.src c.epoch = l
    rw [h]
    simp [dropSent]

theorem endCommits_commits {s : State} (h : ∀ c ∈ s.bridge.commits, crossesYet s c = false ∧ reportCame s c = false) :
    (endCommits s).bridge.commits = [] := by
  have all : (s.bridge.commits.filter fun c => !crossesYet s c && !reportCame s c) = s.bridge.commits :=
    List.filter_eq_self.mpr fun c hc => by simp [h c hc]
  rw [endCommits_eq, all]
  exact foldl_endCommit_commits _ s rfl

/-- Without commits a message that meets the bridge DOWN ends none. -/
theorem discardDown_commits {s : State} (m : Msg) (h : s.bridge.commits = []) : (discardDown s m).bridge.commits = [] := by
  have none : ∀ src epoch, keepsCommit s src epoch = false := fun src epoch => by simp [keepsCommit, h]
  cases m <;> simp [discardDown, none, h]

/-- DOWNEV and its record: the bridge and its state stay. -/
theorem raiseDown_bridge (s : State) : (recordBridge (raiseEvent s 40 HS_BRSTAT_DOWNEV)).bridge = s.bridge ∧
    bridgeState (recordBridge (raiseEvent s 40 HS_BRSTAT_DOWNEV)) = bridgeState s := by
  have raised : Quiet (orF s HS_BRSTAT_DOWNEV 1) (recordBridge (raiseEvent s 40 HS_BRSTAT_DOWNEV)) :=
    (Quiet.raiseEvent_orF (.inl rfl)).record _ _ _ _ _ _ _
  refine ⟨raised.view (·.bridge) fun _ => rfl, ?_⟩
  have word := raised.regs HS_BRSTAT rfl
  unfold bridgeState
  rw [getF_congr (f := HS_BRSTAT_STATE) word]
  exact getF_orF_ne _ _ _ _ (by decide) (by decide) (by decide)

theorem bridgeGoesDown_commits {s : State} (poweredDown : Bool) (h : s.bridge.commits = []) :
    (bridgeGoesDown s poweredDown).bridge.commits = [] := by
  have ended : ∀ (l : List Msg) (t : State), t.bridge.commits = [] → (l.foldl discardDown t).bridge.commits = [] := by
    intro l
    induction l with
    | nil => exact fun _ h => h
    | cons m l ih => exact fun t h => ih _ (discardDown_commits m h)
  have kept : (holdUnaccepted ((unacceptedToScan (spoilActivation s)).foldl discardDown (spoilActivation s))).bridge.commits = [] :=
      by
    rw [(Quiet.refl _).holdUnaccepted.view (·.bridge.commits) fun _ => rfl]
    exact ended _ _ h
  have down : ∀ t u : State, u.bridge.commits = t.bridge.commits → t.bridge.commits = [] →
      (setF (setF (setF u HS_BRSTAT_STATE brDown) HS_BRSTAT_LANES_HS 0) HS_BRSTAT_LANES_SH 0).bridge.commits = [] :=
    fun _ _ same none => same.trans none
  unfold bridgeGoesDown
  dsimp only
  split
  · exact down _ _ rfl kept
  · rw [(raiseDown_bridge _).1]
    exact down _ _ rfl kept

theorem bridgeGoesDown_state (s : State) (poweredDown : Bool) : bridgeState (bridgeGoesDown s poweredDown) = brDown := by
  have down : ∀ t,
      bridgeState (setF (setF (setF t HS_BRSTAT_STATE brDown) HS_BRSTAT_LANES_HS 0) HS_BRSTAT_LANES_SH 0) = brDown := by
    intro t
    unfold bridgeState
    rw [getF_setF_ne _ _ _ _ (by decide) (by decide) (by decide), getF_setF_ne _ _ _ _ (by decide) (by decide) (by decide),
      getF_setF_same _ _ _ (by decide)]
    rfl
  unfold bridgeGoesDown
  dsimp only
  split
  · exact down _
  · rw [(raiseDown_bridge _).2]
    exact down _

theorem bridgeLosesScan_state (s : State) (poweredDown : Bool) : bridgeState (bridgeLosesScan s poweredDown) = brDown := by
  unfold bridgeLosesScan
  dsimp only
  split
  · next down => exact down
  · exact bridgeGoesDown_state s poweredDown

theorem bridgeLosesScan_commits {s : State} (poweredDown : Bool) (h : s.bridge.commits = []) :
    (bridgeLosesScan s poweredDown).bridge.commits = [] := by
  unfold bridgeLosesScan
  dsimp only
  split
  · exact h
  · exact bridgeGoesDown_commits poweredDown h

/-! ### The scan die's registers -/

/-- A house register is not reached by the reset of the scan die's registers. -/
theorem scanRegsReset_house (s : State) {k : Nat} (h : isScanAddr k = false) : regWord (scanRegsReset s) k = regWord s k := by
  have ne : ∀ a, isScanAddr a = true → k ≠ a := by
    rintro a ha rfl
    rw [h] at ha
    exact Bool.false_ne_true ha
  show regWord (setF (setF _ SC_OWNSTAT_PARTNER _) SC_EGSTAT_LOOP _) k = _
  rw [regWord_setF_ne _ _ _ _ (ne SC_EGSTAT rfl), regWord_setF_ne _ _ _ _ (ne SC_OWNSTAT rfl)]
  show sget (s.regs.filter fun e => !isScanAddr e.1) (regDefault k) k = sget s.regs (regDefault k) k
  unfold sget
  rw [sfind_filter_pos s.regs (fun a => !isScanAddr a) k (by simp [h])]

theorem scanRegsReset_scan (s : State) {k : Nat} (h : isScanAddr k = true) (own : k ≠ SC_OWNSTAT) (eg : k ≠ SC_EGSTAT) :
    regWord (scanRegsReset s) k = regDefault k := by
  show regWord (setF (setF _ SC_OWNSTAT_PARTNER _) SC_EGSTAT_LOOP _) k = _
  rw [regWord_setF_ne _ _ _ _ eg, regWord_setF_ne _ _ _ _ own]
  show sget (s.regs.filter fun e => !isScanAddr e.1) (regDefault k) k = _
  unfold sget
  rw [sfind_filter_neg s.regs (fun a => !isScanAddr a) k (by simp [h])]
  rfl

/-- The scan die after its blocks and registers are reset, `m` being the state in which the bridge has gone DOWN and commits have
ended. -/
def scanDieCleared (m : State) : State := scanRegsReset (scanBlocksReset m)

theorem scanDieCleared_scan (m : State) :
    (scanDieCleared m).beam = { Beam.reset with stops := (releaseLineHolds m).beam.stops + 1 } ∧
    (scanDieCleared m).scene = .reset ∧ (scanDieCleared m).trestle = .reset ∧ (scanDieCleared m).drive = .reset ∧
    (scanDieCleared m).copier = none ∧ (scanDieCleared m).applied = [] ∧ (scanDieCleared m).comp.commits = [] := by
  unfold scanDieCleared scanBlocksReset
  generalize releaseLineHolds m = x
  exact ⟨rfl, rfl, rfl, rfl, rfl, rfl, rfl⟩

theorem scanDieCleared_house (m : State) : (scanDieCleared m).bridge = (releaseLineHolds m).bridge ∧
    (scanDieCleared m).dram.bytes = (releaseLineHolds m).dram.bytes ∧ (scanDieCleared m).cores = (releaseLineHolds m).cores ∧
    (scanDieCleared m).timers = (releaseLineHolds m).timers ∧ (scanDieCleared m).dma = (releaseLineHolds m).dma ∧
    (scanDieCleared m).mem.sram = (releaseLineHolds m).mem.sram := by
  unfold scanDieCleared scanBlocksReset
  generalize releaseLineHolds m = x
  exact ⟨rfl, rfl, rfl, rfl, rfl, rfl⟩

theorem scanReset_quiet (s : State) : Quiet (scanDieCleared (bridgeLosesScan (endCommits s) false)) (scanReset s) := by
  have held : ∀ r, Quiet r (repairDie (holdPorts s r) true) := fun r => ((Quiet.refl r).holdChanged s _).repairDie true
  unfold scanReset scanLost
  exact held _

/-- Settles O35: up to the reset of the blocks only the bridge changes and things are reported; after it things are reported. -/
theorem scanDieReset : Obligations.ScanDieReset := by
  unfold Obligations.ScanDieReset
  intro s on
  refine ⟨⟨scanReset s, whenScan_on on scanReset, ?_⟩, by
    show execFrameStoreClearDone s = _
    rw [execFrameStoreClearDone, whenScan_on on]⟩
  have quiet := scanReset_quiet s
  have down := bridgeLosesScan_state (endCommits s) false
  have noCommits := fun ends => bridgeLosesScan_commits false (endCommits_commits (s := s) ends)
  have parted := (endCommits_apart s).bridgeLosesScan false
  generalize bridgeLosesScan (endCommits s) false = m at quiet down noCommits parted
  generalize scanReset s = t at quiet
  have released : Quiet m (releaseLineHolds m) := (Quiet.refl m).releaseLineHolds
  have before : Apart s (releaseLineHolds m) := parted.quiet released
  have house : ∀ k, lasting k = true → isScanAddr k = false → regWord t k = regWord (releaseLineHolds m) k := fun k hk h =>
    (quiet.regs k hk).trans (scanRegsReset_house (scanBlocksReset m) h)
  obtain ⟨beam, scene, trestle, drive, copier, applied, commits⟩ := scanDieCleared_scan m
  obtain ⟨bridge, dram, cores, timers, dma, sram⟩ := scanDieCleared_house m
  refine ⟨?_, ?_, (quiet.view (·.scene) fun _ => rfl).trans scene, (quiet.view (·.trestle) fun _ => rfl).trans trestle,
    (quiet.view (·.drive) fun _ => rfl).trans drive, (quiet.view (·.copier) fun _ => rfl).trans copier,
    (quiet.view (·.applied) fun _ => rfl).trans applied, (quiet.view (·.comp.commits) fun _ => rfl).trans commits,
    fun ends => ?_, ?_, ?_, ?_, ?_, ?_, ?_, fun a scan own eg => ?_⟩
  · unfold bridgeState
    rw [getF_congr (f := HS_BRSTAT_STATE) ((house _ rfl rfl).trans (released.regs _ rfl))]
    exact down
  · rw [quiet.view (·.beam) fun _ => rfl, beam, before.view (·.beam) fun _ => rfl]
  · rw [quiet.view (·.bridge.commits) fun _ => rfl, bridge, released.view (·.bridge.commits) fun _ => rfl]
    exact noCommits ends
  · exact ((quiet.view (·.dram.bytes) fun _ => rfl).trans dram).trans (before.view (·.dram.bytes) fun _ => rfl)
  · exact ((quiet.view (·.cores) fun _ => rfl).trans cores).trans (before.view (·.cores) fun _ => rfl)
  · exact ((quiet.view (·.timers) fun _ => rfl).trans timers).trans (before.view (·.timers) fun _ => rfl)
  · exact ((quiet.view (·.dma) fun _ => rfl).trans dma).trans (before.view (·.dma) fun _ => rfl)
  · exact ((quiet.view (·.mem.sram) fun _ => rfl).trans sram).trans (before.view (·.mem.sram) fun _ => rfl)
  · exact (house _ rfl rfl).trans (before.regs rfl (by decide))
  · rw [quiet.regs a (by simp [lasting, scan])]
    exact scanRegsReset_scan _ scan own eg

end Sys2Proof.Machine
end

section
/-! SUPPORT. A house-die reset and a power-on reset, stage by stage: what the house die holds at reset, and what stays of the
scan die. -/

namespace Sys2Proof.Machine

/-! ### Reports and one register more -/

/-- From `s` to `t` something is reported, and register `a` may change. -/
structure QuietBut (a : Nat) (s t : State) : Prop where
  rest : settled t = settled s
  regs : ∀ k, lasting k = true → k ≠ a → regWord t k = regWord s k

namespace QuietBut

variable {a : Nat} {s₀ s t : State}

theorem refl (a : Nat) (s : State) : QuietBut a s s := ⟨rfl, fun _ _ _ => rfl⟩

theorem quiet (h : QuietBut a s₀ s) (k : Quiet s t) : QuietBut a s₀ t :=
  ⟨k.rest.trans h.rest, fun x hx ne => (k.regs x hx).trans (h.regs x hx ne)⟩

theorem setF (h : QuietBut a s₀ s) {f : Fld} (own : f.addr = a) (v : Nat) : QuietBut a s₀ (setF s f v) :=
  ⟨h.rest, fun k hk ne => (regWord_setF_ne _ _ _ _ (by rwa [own])).trans (h.regs k hk ne)⟩

end QuietBut

/-! ### The egress loop -/

/-- The egress mode shows in four fields of SC_EGSTAT, and a change of it raises ACTEV (R199). -/
theorem refreshEgress_eq (s : State) : ∃ input command entry active,
    let t := setF (setF (setF (setF s SC_EGSTAT_BYINPUT input) SC_EGSTAT_BYCMD command) SC_EGSTAT_ENTRY entry)
      SC_EGSTAT_ACTIVE active
    refreshEgress s = t ∨ refreshEgress s = raiseEvent t 57 SC_EGSTAT_ACTEV := by
  unfold refreshEgress
  dsimp only
  split
  · exact ⟨_, _, _, _, .inr rfl⟩
  · exact ⟨_, _, _, _, .inl rfl⟩

theorem bridgeDown_congr {s t : State} (h : regWord t HS_BRSTAT = regWord s HS_BRSTAT) : bridgeDown t = bridgeDown s := by
  unfold bridgeDown bridgeState
  rw [getF_congr (f := HS_BRSTAT_STATE) h]

theorem refreshEgress_quiet {s : State} (down : bridgeDown s = true) : QuietBut SC_EGSTAT s (refreshEgress s) := by
  obtain ⟨input, command, entry, active, shown⟩ := refreshEgress_eq s
  have set := ((((QuietBut.refl SC_EGSTAT s).setF (f := SC_EGSTAT_BYINPUT) rfl input).setF (f := SC_EGSTAT_BYCMD) rfl command).setF
    (f := SC_EGSTAT_ENTRY) rfl entry).setF (f := SC_EGSTAT_ACTIVE) rfl active
  obtain shown | shown := shown <;> rw [shown]
  · exact set
  · have event := set.setF (f := SC_EGSTAT_ACTEV) rfl
    refine (event _).quiet (Quiet.raiseEvent_orF (.inr ?_))
    exact (bridgeDown_congr ((event _).regs _ rfl (by decide))).trans down

/-- The loop's state and its event are not the egress mode's. -/
theorem refreshEgress_field {s : State} (down : bridgeDown s = true) {g : Fld} (own : g.addr = SC_EGSTAT) (fits : g.fits)
    (apart : ∀ f ∈ [SC_EGSTAT_BYINPUT, SC_EGSTAT_BYCMD, SC_EGSTAT_ENTRY, SC_EGSTAT_ACTIVE, SC_EGSTAT_ACTEV], f.apart g) :
    getF (refreshEgress s) g = getF s g := by
  simp only [List.forall_mem_cons] at apart
  obtain ⟨byInput, byCmd, entryApart, activeApart, event, -⟩ := apart
  obtain ⟨input, command, entry, active, shown⟩ := refreshEgress_eq s
  have set : getF (setF (setF (setF (setF s SC_EGSTAT_BYINPUT input) SC_EGSTAT_BYCMD command) SC_EGSTAT_ENTRY entry)
      SC_EGSTAT_ACTIVE active) g = getF s g := by
    rw [getF_setF_ne _ _ _ _ (by decide) fits activeApart, getF_setF_ne _ _ _ _ (by decide) fits entryApart,
      getF_setF_ne _ _ _ _ (by decide) fits byCmd, getF_setF_ne _ _ _ _ (by decide) fits byInput]
  have quiet : ∀ t, bridgeDown t = bridgeDown s → getF (raiseEvent t 57 SC_EGSTAT_ACTEV) g = getF t g := by
    intro t same
    have edge : Quiet (orF t SC_EGSTAT_ACTEV 1) (raiseEvent t 57 SC_EGSTAT_ACTEV) :=
      Quiet.raiseEvent_orF (.inr ((bridgeDown_congr (regWord_setF_ne _ _ _ _ (by decide))).trans (same.trans down)))
    rw [getF_congr (edge.regs g.addr (by rw [own]; rfl)), getF_orF_ne _ _ _ _ (by decide) fits event]
  obtain shown | shown := shown <;> rw [shown]
  · exact set
  · rw [quiet _ (bridgeDown_congr ?_), set]
    rw [regWord_setF_ne _ _ _ _ (by decide), regWord_setF_ne _ _ _ _ (by decide), regWord_setF_ne _ _ _ _ (by decide),
      regWord_setF_ne _ _ _ _ (by decide)]

theorem loopChanges_quiet {s : State} (down : bridgeDown s = true) (band : Nat) : QuietBut SC_EGSTAT s (loopChanges s band) := by
  have loop : ∀ p, QuietBut SC_EGSTAT s { s with pads := p } := fun p => (QuietBut.refl _ s).quiet ((Quiet.refl s).pads p)
  unfold loopChanges
  dsimp only
  split
  · exact loop _
  · have shown := ((loop { s.pads with loop := band, asserted :=
      if band = 0 then false else if band = 1 then true else s.pads.asserted }).setF
      (f := SC_EGSTAT_LOOP) rfl band).setF (f := SC_EGSTAT_LOOPEV) rfl 1
    have egress := refreshEgress_quiet ((bridgeDown_congr (shown.regs _ rfl (by decide))).trans down)
    exact ⟨egress.rest.trans shown.rest, fun k hk ne => (egress.regs k hk ne).trans (shown.regs k hk ne)⟩

/-- The scan die sees the loop state become idle (R199). -/
theorem loopChanges_idle {s : State} (down : bridgeDown s = true) (on : s.power.scanOff = false) :
    getF (loopChanges s 0) SC_EGSTAT_LOOP = 0 ∧ getF (loopChanges s 0) SC_EGSTAT_LOOPEV = 1 := by
  have shown : ∀ t : State, t.pads.loop = 0 → bridgeDown t = true →
      getF (refreshEgress (setF (showLoop t) SC_EGSTAT_LOOPEV 1)) SC_EGSTAT_LOOP = 0 ∧
      getF (refreshEgress (setF (showLoop t) SC_EGSTAT_LOOPEV 1)) SC_EGSTAT_LOOPEV = 1 := by
    intro t idle down
    have down' : bridgeDown (setF (showLoop t) SC_EGSTAT_LOOPEV 1) = true := by
      rw [bridgeDown_congr, down]
      rw [regWord_setF_ne _ _ _ _ (by decide)]
      exact regWord_setF_ne _ _ _ _ (by decide)
    rw [refreshEgress_field down' rfl (by decide) (by decide), refreshEgress_field down' rfl (by decide) (by decide),
      getF_setF_ne _ _ _ _ (by decide) (by decide) (by decide), getF_setF_same _ _ _ (by decide), showLoop,
      getF_setF_same _ _ _ (by decide), idle]
    exact ⟨rfl, rfl⟩
  unfold loopChanges
  dsimp only
  rw [if_neg (by simp [on])]
  exact shown _ rfl down

/-! ### The house die's registers -/

/-- What stays of a listed register stays at its address; of a register of which no bit outlives the reset nothing stays. -/
theorem keptEntry_some {e b : Nat × Word} (kept : keptEntry e = some b) :
    b.1 = e.1 ∧ (isScanAddr e.1 = true ∨ houseKeeps e.1 ≠ 0) := by
  unfold keptEntry at kept
  split at kept
  · next scan =>
    cases kept
    exact ⟨rfl, .inl scan⟩
  · dsimp only at kept
    split at kept
    · cases kept
    · next keeps =>
      cases kept
      exact ⟨rfl, .inr fun e => keeps (by simp [e])⟩

theorem sfind_keptEntry_scan (m : SMap Word) {k : Nat} (scan : isScanAddr k = true) :
    sfind (m.filterMap keptEntry) k = sfind m k := by
  induction m with
  | nil => rfl
  | cons e m ih =>
    obtain ⟨a, w⟩ := e
    rw [List.filterMap_cons, sfind_cons]
    by_cases own : k = a
    · subst own
      simp [keptEntry, scan, sfind_cons]
    · rw [if_neg own, ← ih]
      split
      · rfl
      · next b kept =>
        obtain ⟨b, v⟩ := b
        obtain ⟨rfl, -⟩ := keptEntry_some kept
        rw [sfind_cons, if_neg own]

theorem sfind_keptEntry_house (m : SMap Word) {k : Nat} (house : isScanAddr k = false) (none' : houseKeeps k = 0) :
    sfind (m.filterMap keptEntry) k = none := by
  induction m with
  | nil => rfl
  | cons e m ih =>
    rw [List.filterMap_cons]
    split
    · exact ih
    · next b kept =>
      obtain ⟨b, v⟩ := b
      obtain ⟨rfl, keeps⟩ := keptEntry_some kept
      rw [sfind_cons, if_neg, ih]
      rintro rfl
      simp [house, none'] at keeps

theorem houseRegsReset_regWord (s : State) {k : Nat} (hk : lasting k = true) :
    regWord (houseRegsReset s) k = sget (s.regs.filterMap keptEntry) (regDefault k) k :=
  ((Quiet.refl { s with regs := s.regs.filterMap keptEntry }).notePinned _).regs k hk

theorem houseRegsReset_scan (s : State) {k : Nat} (scan : isScanAddr k = true) : regWord (houseRegsReset s) k = regWord s k := by
  rw [houseRegsReset_regWord s (by simp [lasting, scan]), sget, sfind_keptEntry_scan _ scan]
  rfl

theorem houseRegsReset_house (s : State) {k : Nat} (hk : lasting k = true) (house : isScanAddr k = false)
    (none' : houseKeeps k = 0) :
    regWord (houseRegsReset s) k = regDefault k := by
  rw [houseRegsReset_regWord s hk, sget, sfind_keptEntry_house _ house none']
  rfl

/-! ### The house die at reset -/

theorem sfind_map_mem {α : Type} (f : Nat → α) {l : List Nat} {x : Nat} (h : x ∈ l) :
    sfind (l.map fun i => (i, f i)) x = some (f x) := by
  induction l with
  | nil => simp at h
  | cons a l ih =>
    rw [List.map_cons, sfind_cons]
    split
    · next e => rw [e]
    · next ne => exact ih (List.mem_of_ne_of_mem ne h)

/-- The first words of a memory that hardware has written as UNSET. -/
theorem sget_fillCells (m : SMap SramCell) (n x : Nat) (d : SramCell) (h : x < n) : sget (fillCells m 0 n) d x = .good 0 := by
  have low : sfind (m.filter fun e => decide (e.1 < 0)) x = none := sfind_filter_neg m (fun a => decide (a < 0)) x rfl
  unfold sget fillCells
  rw [sfind_append, sfind_append, low]
  simp only [Nat.zero_add]
  rw [sfind_map_mem (fun _ => SramCell.good 0) (List.mem_range.mpr h)]
  rfl

/-- The house die as its reset leaves it. -/
structure HouseCleared (u : State) : Prop where
  timers : u.timers = Vector.replicate 8 0
  dma : ∀ n : Fin 32, { u.dma[n] with skip := 0 } = DmaCh.reset
  queue : u.dresser.queue = []
  locals : u.mem.locals = Vector.replicate 4 []
  sram : ∀ x < 16384, sget u.mem.sram .unwritten x = .good 0
  cores : ∀ n < 4, coreOf u n = Core.reset 0x1F0000
  regs : ∀ k, lasting k = true → isScanAddr k = false → houseKeeps k = 0 → regWord u k = regDefault k

/-- It is seen in the settled state and in registers of which nothing outlives the reset. -/
theorem HouseCleared.congr {u v : State} (h : HouseCleared u) (rest : settled v = settled u)
    (regs : ∀ k, lasting k = true → isScanAddr k = false → houseKeeps k = 0 → regWord v k = regWord u k) :
    HouseCleared v where
  timers := (settled_view rest (·.timers) fun _ => rfl).trans h.timers
  dma := fun n => (settled_view rest (fun x => { x.dma[n] with skip := 0 }) fun _ => rfl).trans (h.dma n)
  queue := (settled_view rest (·.dresser.queue) fun _ => rfl).trans h.queue
  locals := (settled_view rest (·.mem.locals) fun _ => rfl).trans h.locals
  sram := fun x hx => (settled_view rest (sget ·.mem.sram .unwritten x) fun _ => rfl).trans (h.sram x hx)
  cores := fun n hn => (settled_view rest (coreOf · n) fun _ => rfl).trans (h.cores n hn)
  regs := fun k hk house none' => (regs k hk house none').trans (h.regs k hk house none')

theorem HouseCleared.quiet {u v : State} (h : HouseCleared u) (k : Quiet u v) : HouseCleared v :=
  h.congr k.rest fun a ha _ _ => k.regs a ha

theorem HouseCleared.withPower {u : State} (h : HouseCleared u) (x : Power) : HouseCleared { u with power := x } := { h with }

theorem HouseCleared.withRecorder {u : State} (h : HouseCleared u) (x : Recorder) :
    HouseCleared { u with recorder := x } := { h with }

/-- The house die's memories, recorder and cores, once its registers and blocks are reset. -/
def houseRest (s : State) : State := houseCoresReset (houseMemoryReset (houseRecorderReset s))

theorem houseMemoryReset_regWord (s : State) {k : Nat} (h : k ≠ HS_WMAP 0) : regWord (houseMemoryReset s) k = regWord s k := by
  unfold houseMemoryReset
  rw [regWord_setRegWord_ne _ _ _ _ h]
  rfl

theorem houseRest_regWord (s : State) {k : Nat} (h : k ≠ HS_WMAP 0) : regWord (houseRest s) k = regWord s k :=
  houseMemoryReset_regWord _ h

theorem coreStart_reset : ∀ n < 4, BitVec.ofNat 24 (bitsOf (regDefault (HS_CORESTART n)) 23 0) = 0x1F0000 := by decide +kernel

theorem lasting_coreStart : ∀ n < 4, lasting (HS_CORESTART n) = true ∧ isScanAddr (HS_CORESTART n) = false ∧
    houseKeeps (HS_CORESTART n) = 0 ∧ HS_CORESTART n ≠ HS_WMAP 0 := by decide +kernel

theorem houseRest_cleared {s : State} (timers : s.timers = Vector.replicate 8 0)
    (dma : ∀ n : Fin 32, { s.dma[n] with skip := 0 } = DmaCh.reset) (queue : s.dresser.queue = [])
    (regs : ∀ k, lasting k = true → isScanAddr k = false → houseKeeps k = 0 → regWord s k = regDefault k) :
    HouseCleared (houseRest s) where
  timers := timers
  dma := dma
  queue := queue
  locals := rfl
  sram := fun x hx => sget_fillCells _ _ _ _ hx
  cores := fun n hn => by
    obtain ⟨hk, house, none', ne⟩ := lasting_coreStart n hn
    have start : getF (houseMemoryReset (houseRecorderReset s)) (HS_CORESTART_START n) =
        bitsOf (regDefault (HS_CORESTART n)) 23 0 :=
      congrArg (bitsOf · 23 0) ((houseMemoryReset_regWord _ ne).trans (regs _ hk house none'))
    unfold houseRest houseCoresReset coreOf
    simp only [Vector.toList_ofFn, List.getD_eq_getElem?_getD, List.getElem?_ofFn, hn, dite_true, Option.getD_some]
    rw [start, coreStart_reset n hn]
  regs := fun k hk house none' => by
    rw [houseRest_regWord, regs k hk house none']
    rintro rfl
    revert hk
    decide

/-- From it the boot steps run: the bridge is DOWN, core 0 alone runs, and no write is counted (R31, R306, R329). -/
theorem HouseCleared.starts {u : State} (h : HouseCleared u) (booting : u.power.booting = true) :
    u.timers = Vector.replicate 8 0 ∧ (∀ n : Fin 32, { u.dma[n] with skip := 0 } = DmaCh.reset) ∧ u.dresser.queue = [] ∧
      u.mem.locals = Vector.replicate 4 [] ∧ (∀ x < 16384, sramCell u 0 x = .good 0) ∧
      (∀ n < 4, coreOf u n = Core.reset 0x1F0000) ∧ getF u HS_CORECTL_RUN = 1 ∧ getF u HS_RSVWR_COUNT = 0 ∧
      bridgeState u = brDown ∧ u.power.booting = true := by
  have field : ∀ f : Fld, lasting f.addr = true → isScanAddr f.addr = false → houseKeeps f.addr = 0 →
      getF u f = bitsOf (regDefault f.addr) f.hi f.lo := fun f hk house none' =>
    congrArg (bitsOf · f.hi f.lo) (h.regs _ hk house none')
  refine ⟨h.timers, h.dma, h.queue, h.locals, h.sram, h.cores, ?_, ?_, ?_, booting⟩
  · rw [field _ rfl rfl rfl]
    decide +kernel
  · rw [field _ rfl rfl rfl]
    decide +kernel
  · unfold bridgeState
    rw [field _ rfl rfl rfl]
    decide +kernel

/-- After its registers and blocks, whatever else is reported or shows at the egress loop. -/
theorem houseBlocksReset_cleared {s t : State} (rest : settled t = settled (houseBlocksReset s))
    (regs : ∀ k, lasting k = true → isScanAddr k = false → houseKeeps k = 0 → regWord t k = regDefault k) :
    HouseCleared (houseRest t) := by
  refine houseRest_cleared (settled_view rest (·.timers) fun _ => rfl) (fun n => ?_)
    (settled_view rest (·.dresser.queue) fun _ => rfl) regs
  refine (settled_view rest (fun x => { x.dma[n] with skip := 0 }) fun _ => rfl).trans ?_
  unfold houseBlocksReset
  simp [DmaCh.reset]

/-! ### A reset of the house die -/

/-- A boot begins. -/
def booted (s : State) : State := { s with power := { s.power with booting := true } }

theorem Quiet.booted {s t : State} (h : Quiet s t) : Quiet (booted s) (booted t) :=
  ⟨congrArg Machine.booted h.rest, h.regs⟩

theorem startBoot_quiet (s : State) : Quiet (booted s) (startBoot s) := ⟨rfl, fun _ _ => rfl⟩

/-- The blocks of the scan die. -/
def scanDie (s : State) : Beam × Scene × Composition × Drive × Option CopyOp × Dram × SMap Word :=
  (s.beam, s.scene, s.comp, s.drive, s.copier, s.dram, s.applied)

/-- The house die with its registers and blocks reset, the bridge having lost it. -/
def houseBlocksCleared (s : State) : State := houseBlocksReset (houseRegsReset (bridgeLosesHouse s))

theorem bridgeLosesHouse_apart (s : State) : Apart s (bridgeLosesHouse s) :=
  ((Apart.refl s).quiet (Quiet.refl s).holdUnaccepted).bridge _

theorem houseBlocksCleared_house (s : State) {k : Nat} (hk : lasting k = true) (house : isScanAddr k = false)
    (none' : houseKeeps k = 0) : regWord (houseBlocksCleared s) k = regDefault k := houseRegsReset_house _ hk house none'

theorem houseBlocksCleared_scan (s : State) {k : Nat} (scan : isScanAddr k = true) :
    regWord (houseBlocksCleared s) k = regWord s k :=
  (houseRegsReset_scan _ scan).trans
    ((bridgeLosesHouse_apart s).regs (by simp [lasting, scan]) (by rintro rfl; revert scan; decide))

theorem houseBlocksCleared_scanDie (s : State) : scanDie (houseBlocksCleared s) = scanDie s :=
  (bridgeLosesHouse_apart s).view scanDie fun _ => rfl

theorem houseBlocksCleared_scanOff (s : State) : (houseBlocksCleared s).power.scanOff = s.power.scanOff :=
  (bridgeLosesHouse_apart s).view (·.power.scanOff) fun _ => rfl

theorem houseBlocksCleared_down (s : State) : bridgeDown (houseBlocksCleared s) = true := by
  unfold bridgeDown bridgeState getF
  rw [houseBlocksCleared_house s (k := HS_BRSTAT_STATE.addr) rfl rfl rfl]
  decide +kernel

/-- The loop state that the scan die sees becomes idle (R199). -/
def houseLoopIdle (s : State) : State :=
  if s.pads.loop = 0 then houseBlocksCleared s else loopChanges (houseBlocksCleared s) 0

theorem houseLoopIdle_quiet (s : State) : QuietBut SC_EGSTAT (houseBlocksCleared s) (houseLoopIdle s) := by
  unfold houseLoopIdle
  split
  · exact .refl _ _
  · exact loopChanges_quiet (houseBlocksCleared_down s) 0

theorem houseLoopIdle_cleared (s : State) : HouseCleared (houseRest (houseLoopIdle s)) := by
  have quiet := houseLoopIdle_quiet s
  refine houseBlocksReset_cleared quiet.rest fun k hk house none' => ?_
  rw [quiet.regs k hk (by rintro rfl; revert house; decide), houseBlocksCleared_house s hk house none']

/-- Where the boot steps after a house-die reset begin. -/
def houseBoot (s : State) : State := (takeFresh (startBoot (houseReset s))).2

theorem houseDieReset_eq (s : State) :
    houseDieReset s = bootSteps (houseBoot s) false (Config.freeNat (startBoot (houseReset s)).fresh) := rfl

/-- After the loop state, the memories and the cores a boot begins, and the rest are reports. -/
theorem houseBoot_quiet (s : State) : Quiet (booted (houseRest (houseLoopIdle s))) (houseBoot s) := by
  have edges : ∀ c, Quiet (booted c) (houseEdges (repairDie (islandLog (booted (padsHouseReset s c))) false)) := fun c =>
    ((((((Quiet.refl c).pads _).holdChanged s _).booted).islandLog).repairDie false).hic _
  exact ((edges (houseRest (houseLoopIdle s))).booted.trans (startBoot_quiet _)).takeFresh

theorem houseBoot_cleared (s : State) : HouseCleared (houseBoot s) :=
  ((houseLoopIdle_cleared s).withPower _).quiet (houseBoot_quiet s)

theorem houseRest_scanDie (s : State) : scanDie (booted (houseRest s)) = scanDie s := rfl

theorem houseBoot_scanDie (s : State) : scanDie (houseBoot s) = scanDie s := by
  calc scanDie (houseBoot s)
      _ = scanDie (booted (houseRest (houseLoopIdle s))) := (houseBoot_quiet s).view scanDie fun _ => rfl
      _ = scanDie (houseLoopIdle s) := houseRest_scanDie _
      _ = scanDie (houseBlocksCleared s) := settled_view (houseLoopIdle_quiet s).rest scanDie fun _ => rfl
      _ = scanDie s := houseBlocksCleared_scanDie s

/-- A scan die's register after the reset is as the change of the loop state left it. -/
theorem houseBoot_loop (s : State) {k : Nat} (scan : isScanAddr k = true) : regWord (houseBoot s) k = regWord (houseLoopIdle s) k :=
  ((houseBoot_quiet s).regs k (by simp [lasting, scan])).trans (houseRest_regWord _ (by rintro rfl; revert scan; decide))

theorem houseBoot_scanReg (s : State) {k : Nat} (scan : isScanAddr k = true) (egress : k ≠ SC_EGSTAT) :
    regWord (houseBoot s) k = regWord s k := by
  rw [houseBoot_loop s scan, (houseLoopIdle_quiet s).regs k (by simp [lasting, scan]) egress, houseBlocksCleared_scan s scan]

theorem houseBoot_idle {s : State} (loop : s.pads.loop ≠ 0) (on : s.power.scanOff = false) :
    getF (houseBoot s) SC_EGSTAT_LOOP = 0 ∧ getF (houseBoot s) SC_EGSTAT_LOOPEV = 1 := by
  rw [getF_congr (f := SC_EGSTAT_LOOP) (houseBoot_loop s rfl), getF_congr (f := SC_EGSTAT_LOOPEV) (houseBoot_loop s rfl),
    houseLoopIdle, if_neg loop]
  exact loopChanges_idle (houseBlocksCleared_down s) ((houseBlocksCleared_scanOff s).trans on)

/-! ### A power-on reset -/

/-- Both dies' registers and blocks at reset. -/
def bothCleared (s : State) : State :=
  houseRest (houseBlocksReset { houseRegsReset (scanDieCleared { s with bridge := .reset, area := none }) with twin := .reset })

theorem bothCleared_cleared (s : State) : HouseCleared (bothCleared s) :=
  houseBlocksReset_cleared rfl fun _ hk house none' => houseRegsReset_house _ hk house none'

/-- What a reset of the house die leaves of the other one, and of the control slots. -/
theorem houseRest_kept (x : State) : scanDie (houseRest (houseBlocksReset { houseRegsReset x with twin := .reset })) = scanDie x ∧
    (houseRest (houseBlocksReset { houseRegsReset x with twin := .reset })).recorder.slots = x.recorder.slots := ⟨rfl, rfl⟩

/-- The scan die at reset, after as many stops of the beam. -/
structure ScanCleared (stops : Nat) (u : State) : Prop where
  beam : u.beam = { Beam.reset with stops := stops }
  scene : u.scene = .reset
  drive : u.drive = .reset
  copier : u.copier = none
  applied : u.applied = []

theorem ScanCleared.congr {n : Nat} {u v : State} (h : ScanCleared n u) (same : scanDie v = scanDie u) : ScanCleared n v where
  beam := (congrArg (·.1) same).trans h.beam
  scene := (congrArg (·.2.1) same).trans h.scene
  drive := (congrArg (·.2.2.2.1) same).trans h.drive
  copier := (congrArg (·.2.2.2.2.1) same).trans h.copier
  applied := (congrArg (·.2.2.2.2.2.2) same).trans h.applied

theorem scanDieCleared_cleared (m : State) : ScanCleared (m.beam.stops + 1) (scanDieCleared m) := by
  obtain ⟨beam, scene, -, drive, copier, applied, -⟩ := scanDieCleared_scan m
  rw [(Quiet.refl m).releaseLineHolds.view (·.beam) fun _ => rfl] at beam
  exact ⟨beam, scene, drive, copier, applied⟩

theorem scanDieCleared_slots (m : State) : (scanDieCleared m).recorder.slots = m.recorder.slots := by
  rw [← (Quiet.refl m).releaseLineHolds.view (·.recorder.slots) fun _ => rfl]
  unfold scanDieCleared scanBlocksReset
  generalize releaseLineHolds m = x
  rfl

theorem bothCleared_scan (s : State) : ScanCleared (s.beam.stops + 1) (bothCleared s) :=
  (scanDieCleared_cleared { s with bridge := .reset, area := none }).congr (houseRest_kept _).1

theorem bothCleared_slots (s : State) : (bothCleared s).recorder.slots = s.recorder.slots :=
  (houseRest_kept _).2.trans (scanDieCleared_slots { s with bridge := .reset, area := none })

/-- The power state, the alarm levels and the lockups, which a power-on reset alone resets (R542). -/
def powerCleared (s : State) : State :=
  let s := resetReg (resetReg (resetReg (showLoop s) HS_PWRCTL) HS_PWRSTAT) SEC_ALMCFG
  { s with
    power := { Power.reset with supply := .running, image := none, vinLow := s.power.vinLow },
    dresser := { s.dresser with lockups := 0 } }

theorem bothReset_eq (s : State) : bothReset s = powerCleared (padsHouseReset s (holdPorts s (bothCleared s))) := by
  unfold bothReset powerCleared bothCleared houseRest scanDieCleared
  rfl

theorem powerCleared_cleared {s : State} (h : HouseCleared s) : HouseCleared (powerCleared s) := by
  refine (h.withPower (powerCleared s).power).congr rfl fun k hk house none' => ?_
  have ne : ∀ a, isScanAddr a = true ∨ houseKeeps a ≠ 0 → k ≠ a := by
    rintro a other rfl
    simp [house, none'] at other
  show regWord (resetReg (resetReg (resetReg (setF s SC_EGSTAT_LOOP _) HS_PWRCTL) HS_PWRSTAT) SEC_ALMCFG) k = regWord s k
  rw [regWord_resetReg_ne _ _ _ (ne _ (by decide)), regWord_resetReg_ne _ _ _ (ne _ (by decide)),
    regWord_resetReg_ne _ _ _ (ne _ (by decide)), regWord_setF_ne _ _ _ _ (ne SC_EGSTAT (by decide))]

theorem powerCleared_alarms (s : State) : regWord (powerCleared s) SEC_ALMCFG = regDefault SEC_ALMCFG :=
  regWord_resetReg_same (resetReg (resetReg (showLoop s) HS_PWRCTL) HS_PWRSTAT) SEC_ALMCFG

theorem powerCleared_kept (s : State) :
    scanDie (powerCleared s) = scanDie s ∧ (powerCleared s).recorder.slots = s.recorder.slots :=
  ⟨rfl, rfl⟩

/-- The recorder resumes its counts, and PCYC rises (R572). -/
def powerResumed (s : State) : State :=
  { recorderResume s with recorder := { (recorderResume s).recorder with
    pcyc := min 0xFFFFFF ((recorderResume s).recorder.pcyc + 1), bootCause := 0 } }

theorem powerResumed_pcyc (s : State) :
    (powerResumed s).recorder.pcyc = min 0xFFFFFF (((lastSlot s).map (·.pcyc)).getD 0 + 1) := by
  show min 0xFFFFFF (((lastSlot s).getD _).pcyc + 1) = _
  cases lastSlot s <;> rfl

theorem powerResumed_regWord (s : State) {k : Nat} (hk : lasting k = true) : regWord (powerResumed s) k = regWord s k := by
  have pinned : ∀ x n, regWord (notePinned { s with recorder := x } n) k = regWord s k := fun _ _ =>
    ((Quiet.refl _).notePinned _).regs k hk
  unfold powerResumed
  rw [regWord_with_recorder]
  unfold recorderResume
  exact pinned _ _

theorem powerResumed_startBoot (s : State) :
    scanDie (powerResumed (startBoot s)) = scanDie s ∧ (powerResumed (startBoot s)).power.booting = true := ⟨rfl, rfl⟩

theorem powerResumed_settled (s : State) : ∃ x, settled (powerResumed s) = settled { s with recorder := x } := by
  have pinned : ∀ x n y, settled { notePinned { s with recorder := x } n with recorder := y } =
      settled { s with recorder := y } :=
    fun _ _ _ => rfl
  unfold powerResumed
  generalize ({ (recorderResume s).recorder with
    pcyc := min 0xFFFFFF ((recorderResume s).recorder.pcyc + 1), bootCause := 0 } : Recorder) = y
  exact ⟨y, pinned _ _ y⟩

theorem powerResumed_cleared {s : State} (h : HouseCleared s) : HouseCleared (powerResumed (startBoot s)) := by
  obtain ⟨x, rest⟩ := powerResumed_settled (startBoot s)
  have begun : HouseCleared (startBoot s) := (h.withPower _).quiet (startBoot_quiet s)
  exact (begun.withRecorder x).congr rest fun _ hk _ _ => powerResumed_regWord _ hk

/-- FAILS is cleared, each die's repair table being applied (R542). -/
def failsCleared (s : State) : State := setF (repairDie (repairDie (islandLog s) false) true) SEC_UNLK_FAILS 0

theorem failsCleared_quiet (s : State) : QuietBut SEC_UNLK s (failsCleared s) :=
  ((QuietBut.refl _ s).quiet (((Quiet.refl s).islandLog.repairDie false).repairDie true)).setF (f := SEC_UNLK_FAILS) rfl 0

theorem failsCleared_fails (s : State) : getF (failsCleared s) SEC_UNLK_FAILS = 0 := getF_setF_same _ _ _ (by decide)

theorem debugClose_quiet (s : State) : QuietBut SEC_STAT s (debugClose s) := by
  unfold debugClose
  split
  · exact .refl _ s
  · have shut := ((QuietBut.refl SEC_STAT s).quiet ((Quiet.refl s).takeFresh.hutch { s.hutch with leased := false })).setF
      (f := SEC_STAT_DEBUG) rfl 0
    exact (shut.setF (f := SEC_STAT_DBGEV) rfl _).quiet ((Quiet.raiseEvent_orF (.inl rfl)).record _ _ _ _ _ _ _)

/-- The debug state is CLOSED (R531). -/
theorem debugClose_closed (s : State) : debugState (debugClose s) = 0 := by
  have closed : ∀ t target, debugState (setDebug t 0 target) = 0 := by
    intro t target
    have raised : Quiet (orF (setF t SEC_STAT_DEBUG 0) SEC_STAT_DBGEV 1) (setDebug t 0 target) :=
      (Quiet.raiseEvent_orF (.inl rfl)).record _ _ _ _ _ _ _
    rw [debugState, getF_congr (f := SEC_STAT_DEBUG) (raised.regs _ rfl), getF_orF_ne _ _ _ _ (by decide) (by decide) (by decide),
      getF_setF_same _ _ _ (by decide)]
    rfl
  unfold debugClose
  split
  · next shut => exact shut
  · exact closed _ _

/-- The debug state CLOSED, each event bit's edge and each wake latch's given. -/
def powerEdges (s : State) : State := clocksResume (houseEdges (debugClose s))

theorem powerEdges_quiet (s : State) : QuietBut SEC_STAT s (powerEdges s) :=
  (debugClose_quiet s).quiet (((Quiet.refl _).hic _).hic _)

theorem powerEdges_closed (s : State) : debugState (powerEdges s) = 0 := debugClose_closed s

/-- Where the boot steps after a power-on reset begin. -/
def powerBoot (s : State) : State := powerEdges (failsCleared (powerResumed (startBoot (bothReset s))))

theorem powerOnReset_eq (s : State) : powerOnReset s 0 = bootSteps (powerBoot s) true 0 := by
  unfold powerOnReset powerBoot powerEdges failsCleared powerResumed
  dsimp only
  rw [if_pos (by simp)]
  rfl

theorem powerBoot_settled (s : State) : settled (powerBoot s) = settled (powerResumed (startBoot (bothReset s))) :=
  (powerEdges_quiet _).rest.trans (failsCleared_quiet _).rest

theorem powerBoot_regWord (s : State) {k : Nat} (hk : lasting k = true) (stat : k ≠ SEC_STAT) (unlk : k ≠ SEC_UNLK) :
    regWord (powerBoot s) k = regWord (bothReset s) k :=
  ((powerEdges_quiet _).regs k hk stat).trans (((failsCleared_quiet _).regs k hk unlk).trans (powerResumed_regWord _ hk))

theorem bothReset_pads (s : State) : Quiet (bothCleared s) (padsHouseReset s (holdPorts s (bothCleared s))) :=
  (((Quiet.refl _).holdChanged s _).pads _).holdChanged s _

theorem bothReset_cleared (s : State) : HouseCleared (bothReset s) := by
  rw [bothReset_eq]
  exact powerCleared_cleared ((bothCleared_cleared s).quiet (bothReset_pads s))

theorem bothReset_scan (s : State) : ScanCleared (s.beam.stops + 1) (bothReset s) := by
  rw [bothReset_eq]
  exact (bothCleared_scan s).congr ((powerCleared_kept _).1.trans ((bothReset_pads s).view scanDie fun _ => rfl))

theorem bothReset_slots (s : State) : (bothReset s).recorder.slots = s.recorder.slots := by
  rw [bothReset_eq]
  exact (powerCleared_kept _).2.trans (((bothReset_pads s).view (·.recorder.slots) fun _ => rfl).trans (bothCleared_slots s))

theorem bothReset_alarms (s : State) : regWord (bothReset s) SEC_ALMCFG = regDefault SEC_ALMCFG := by
  rw [bothReset_eq, powerCleared_alarms]

theorem powerBoot_cleared (s : State) : HouseCleared (powerBoot s) := by
  refine (powerResumed_cleared (bothReset_cleared s)).congr (powerBoot_settled s) fun k hk _ keeps => ?_
  have ne : ∀ a, houseKeeps a ≠ 0 → k ≠ a := by
    rintro a other rfl
    exact other keeps
  rw [powerBoot_regWord s hk (ne _ (by decide)) (ne _ (by decide)), powerResumed_regWord _ hk]
  rfl

theorem powerBoot_scan (s : State) : ScanCleared (s.beam.stops + 1) (powerBoot s) :=
  (bothReset_scan s).congr ((settled_view (powerBoot_settled s) scanDie fun _ => rfl).trans (powerResumed_startBoot _).1)

theorem powerBoot_booting (s : State) : (powerBoot s).power.booting = true :=
  (settled_view (powerBoot_settled s) (·.power.booting) fun _ => rfl).trans (powerResumed_startBoot _).2

theorem powerBoot_pcyc (s : State) :
    (powerBoot s).recorder.pcyc = min 0xFFFFFF (((lastSlot s).map (·.pcyc)).getD 0 + 1) := by
  have slots : lastSlot (startBoot (bothReset s)) = lastSlot s := by
    unfold lastSlot
    rw [show (startBoot (bothReset s)).recorder.slots = s.recorder.slots from bothReset_slots s]
  rw [settled_view (powerBoot_settled s) (·.recorder.pcyc) fun _ => rfl, powerResumed_pcyc, slots]

theorem powerBoot_alarms (s : State) : getF (powerBoot s) SEC_ALMCFG_LEVEL = 0x559 ∧ getF (powerBoot s) SEC_ALMCFG_LOCK = 0 := by
  have word : regWord (powerBoot s) SEC_ALMCFG = regDefault SEC_ALMCFG :=
    (powerBoot_regWord s rfl (by decide) (by decide)).trans (bothReset_alarms s)
  have field : ∀ f : Fld, f.addr = SEC_ALMCFG → getF (powerBoot s) f = bitsOf (regDefault SEC_ALMCFG) f.hi f.lo := by
    intro f own
    rw [getF, own, word]
  rw [field _ rfl, field _ rfl]
  decide +kernel

theorem powerBoot_fails (s : State) : getF (powerBoot s) SEC_UNLK_FAILS = 0 :=
  (getF_congr (f := SEC_UNLK_FAILS) ((powerEdges_quiet _).regs _ rfl (by decide))).trans (failsCleared_fails _)

/-- Settles O36: the state from which the boot steps run differs from the one just reset in what is reported alone, but for the
counts that a power-on reset resumes. -/
theorem houseAndPowerReset : Obligations.HouseAndPowerReset := by
  unfold Obligations.HouseAndPowerReset
  intro s
  refine ⟨fun on => ?_, fun running => ?_⟩
  · have house := (houseBoot_cleared s).starts ((houseBoot_quiet s).view (·.power.booting) fun _ => rfl)
    have scan := houseBoot_scanDie s
    simp only [scanDie, Prod.mk.injEq] at scan
    obtain ⟨beam, scene, comp, drive, copier, dram, applied⟩ := scan
    have exec : ∃ cause, execHouseDieReset s = .next (bootSteps (houseBoot s) false cause) := by
      rw [execHouseDieReset, whenHouse_on on, houseDieReset_eq]
      exact ⟨_, rfl⟩
    obtain ⟨cause, exec⟩ := exec
    exact ⟨houseBoot s, cause, exec, house, beam, scene, comp, drive, copier, dram, applied, houseBoot_idle,
      fun a => houseBoot_scanReg s⟩
  · have exec : execPowerOnReset s = .next (bootSteps (powerBoot s) true 0) := by
      rw [execPowerOnReset, if_pos running, powerOnReset_eq]
    have house := (powerBoot_cleared s).starts (powerBoot_booting s)
    obtain ⟨beam, scene, drive, copier, applied⟩ := powerBoot_scan s
    obtain ⟨level, lock⟩ := powerBoot_alarms s
    exact ⟨powerBoot s, exec, house, beam, scene, drive, copier, applied, level, lock, powerBoot_fails s, powerEdges_closed _,
      powerBoot_pcyc s⟩

end Sys2Proof.Machine
end

section
/-! SUPPORT. What the bridge's operations change and what they leave: messages that leave or are taken, the reports of a bridge
event, and the dresser and the bench port, which wait for answers through the bridge. -/

namespace Sys2Proof.Machine

/-! ### Messages leave and are taken -/

/-- From `s` to `t` only the bridge changes. -/
def BridgeOnly (s t : State) : Prop := { t with bridge := s.bridge } = s

namespace BridgeOnly

variable {s t u : State}

theorem refl (s : State) : BridgeOnly s s := rfl

theorem trans (h : BridgeOnly s t) (k : BridgeOnly t u) : BridgeOnly s u := by
  have both : { u with bridge := s.bridge } = { t with bridge := s.bridge } :=
    congrArg (fun x : State => { x with bridge := s.bridge }) k
  exact both.trans h

theorem bridge (s : State) (b : Bridge) : BridgeOnly s { s with bridge := b } := rfl

theorem foldl {α : Type} {f : State → α → State} {l : List α} (h : BridgeOnly s t)
    (hf : ∀ x u, BridgeOnly s u → BridgeOnly s (f u x)) : BridgeOnly s (l.foldl f t) := by
  induction l generalizing t with
  | nil => exact h
  | cons x l ih => exact ih (hf x t h)

/-- What does not see the bridge is kept. -/
theorem view {α : Type} (h : BridgeOnly s t) (f : State → α) (blind : ∀ x b, f { x with bridge := b } = f x) : f t = f s := by
  rw [← blind t s.bridge, h]

theorem regWord (h : BridgeOnly s t) (k : Nat) : regWord t k = regWord s k := h.view (Machine.regWord · k) fun _ _ => rfl

theorem getF (h : BridgeOnly s t) (f : Fld) : getF t f = getF s f := h.view (Machine.getF · f) fun _ _ => rfl

theorem bridgeUp (h : BridgeOnly s t) : bridgeUp t = bridgeUp s := h.view Machine.bridgeUp fun _ _ => rfl

theorem bridgeDown (h : BridgeOnly s t) : bridgeDown t = bridgeDown s := h.view Machine.bridgeDown fun _ _ => rfl

end BridgeOnly

theorem drainToScan_only (s : State) : BridgeOnly s (drainToScan s) := by
  unfold drainToScan
  split <;> rfl

theorem drainToHouse_only (s : State) : BridgeOnly s (drainToHouse s) := by
  unfold drainToHouse
  split <;> rfl

theorem drainTo_only (s : State) : (dest : Die) → BridgeOnly s (drainTo s dest)
  | .scan => drainToScan_only s
  | .house => drainToHouse_only s

theorem sendToScan_only (s : State) (m : Msg) : BridgeOnly s (sendToScan s m) :=
  (BridgeOnly.bridge s _).trans (drainToScan_only _)

theorem sendToHouse_only (s : State) (m : Msg) : BridgeOnly s (sendToHouse s m) :=
  (BridgeOnly.bridge s _).trans (drainToHouse_only _)

theorem setArrived_only (s : State) (ms : List Msg) : BridgeOnly s (setArrived s ms) :=
  (BridgeOnly.bridge s _).trans (drainToScan_only _)

theorem setArrivedHouse_only (s : State) (ms : List Msg) : BridgeOnly s (setArrivedHouse s ms) :=
  (BridgeOnly.bridge s _).trans (drainToHouse_only _)

theorem setBridgeDir_only (s : State) (d : BridgeDir) : (dest : Die) → BridgeOnly s (setBridgeDir s dest d)
  | .scan | .house => rfl

@[simp] theorem bridgeDir_setBridgeDir (s : State) (dest : Die) (d : BridgeDir) : bridgeDir (setBridgeDir s dest d) dest = d := by
  cases dest <;> rfl

/-! ### Flits are formed from what waits (R47, R48) -/

/-- The direction after the pieces `ps` have left in a flit and `left` waits. -/
def BridgeDir.sendFlit (d : BridgeDir) (back : BitVec 10) (ps left : List MsgPart) : BridgeDir :=
  { d with
    waiting := left
    replay := d.replay ++ [{ seq := d.nextSeq, code := Config.linkCode d.nextSeq back,
                             crc := Config.linkCrc d.nextSeq (ps.map (·.size)), parts := ps }]
    nextSeq := d.nextSeq + 1 }

/-- No flit can be formed: the replay buffer is full, or no class with pieces that wait has credits. -/
def BridgeDir.Stalled (d : BridgeDir) (direction : Nat) : Prop :=
  512 ≤ d.replay.length ∨ (packFlit 60 (d.credits direction) [] d.waiting).1 = []

/-- The next flit of a direction carries the pieces `ps`, and `left` waits. -/
def BridgeDir.Packs (d : BridgeDir) (direction : Nat) (ps left : List MsgPart) : Prop :=
  d.replay.length < 512 ∧ packFlit 60 (d.credits direction) [] d.waiting = (ps, left) ∧ ps ≠ []

/-- One round of `drain`: the direction is stalled, or a flit leaves. -/
theorem BridgeDir.drain_succ (d : BridgeDir) (direction : Nat) (back : BitVec 10) (fuel : Nat) :
    d.Stalled direction ∧ d.drain direction back (fuel + 1) = d ∨
      ∃ ps left, d.Packs direction ps left ∧
        d.drain direction back (fuel + 1) = (d.sendFlit back ps left).drain direction back fuel := by
  by_cases full : 512 ≤ d.replay.length
  · exact .inl ⟨.inl full, by rw [drain, if_pos full]⟩
  · rw [drain, if_neg full]
    cases packed : packFlit 60 (d.credits direction) [] d.waiting with
    | mk ps left =>
      cases ps with
      | nil => exact .inl ⟨.inr (by rw [packed]), rfl⟩
      | cons p ps => exact .inr ⟨p :: ps, left, ⟨by omega, packed, List.cons_ne_nil p ps⟩, rfl⟩

/-- What every flit that leaves keeps is kept by `drain`. -/
theorem BridgeDir.drain_keeps {P : BridgeDir → Prop} {direction : Nat} {back : BitVec 10}
    (step : ∀ d ps left, d.Packs direction ps left → P d → P (d.sendFlit back ps left)) (fuel : Nat) (d : BridgeDir) (h : P d) :
    P (d.drain direction back fuel) := by
  induction fuel generalizing d with
  | zero => exact h
  | succ fuel ih =>
    rcases d.drain_succ direction back fuel with ⟨-, e⟩ | ⟨ps, left, packs, e⟩
    · rwa [e]
    · rw [e]
      exact ih _ (step d ps left packs h)

theorem BridgeDir.drain_arrived (d : BridgeDir) (direction : Nat) (back : BitVec 10) (fuel : Nat) :
    (d.drain direction back fuel).arrived = d.arrived :=
  drain_keeps (P := fun e => e.arrived = d.arrived) (fun _ _ _ _ h => h) fuel d rfl

theorem BridgeDir.drain_replay_extends (d : BridgeDir) (direction : Nat) (back : BitVec 10) (fuel : Nat) :
    ∃ sent, (d.drain direction back fuel).replay = d.replay ++ sent :=
  drain_keeps (P := fun e => ∃ sent, e.replay = d.replay ++ sent)
    (fun _ _ _ _ ⟨sent, h⟩ => ⟨sent ++ [_], by rw [sendFlit, h, List.append_assoc]⟩) fuel d ⟨[], (List.append_nil _).symm⟩

theorem BridgeDir.drain_replay_le {d : BridgeDir} (h : d.replay.length ≤ 512) (direction : Nat) (back : BitVec 10) (fuel : Nat) :
    (d.drain direction back fuel).replay.length ≤ 512 :=
  drain_keeps (P := fun e => e.replay.length ≤ 512)
    (fun e _ _ ⟨room, _⟩ _ => by simpa [sendFlit] using room) fuel d h

/-- A flit takes its pieces out of the list, which keeps the rest. -/
theorem packFlit_length (room : Nat) (c : Credits) (before l : List MsgPart) :
    (packFlit room c before l).1.length + (packFlit room c before l).2.length = before.length + l.length := by
  induction l generalizing room c before with
  | nil => simp [packFlit]
  | cons p ps ih =>
    unfold packFlit
    split
    · simp
    split
    · rw [ih, List.length_cons, List.length_cons]
      omega
    · simp only [List.length_cons]
      have := ih (room - p.size) (if p.last then c.use (msgClass p.msg) else c) before
      omega

/-- A piece passes no earlier one of its bridge source (R41 to R43). -/
theorem packFlit_link (k room : Nat) (c : Credits) (before l : List MsgPart) :
    ((packFlit room c before l).1 ++ (packFlit room c before l).2).filter (fun p => msgLink p.msg = k) =
      (before.reverse ++ l).filter fun p => msgLink p.msg = k := by
  induction l generalizing room c before with
  | nil => simp [packFlit]
  | cons p ps ih =>
    unfold packFlit
    split
    · rfl
    split
    · rw [ih, List.reverse_cons, List.append_assoc]
      rfl
    · next taken =>
      rw [List.cons_append, List.filter_cons, ih, List.filter_append, List.filter_append, List.filter_cons]
      split
      · next own =>
        have none : before.reverse.filter (fun q => msgLink q.msg = k) = [] := by
          rw [List.filter_eq_nil_iff]
          intro q hq link
          simp only [Bool.or_eq_true, List.any_eq_true, decide_eq_true_eq, not_or] at taken own link
          exact taken.2 ⟨q, List.mem_reverse.mp hq, .inr (link.trans own.symm)⟩
        rw [none, List.nil_append, List.nil_append]
      · rfl

/-- As many rounds as pieces wait leave none that could go. -/
theorem BridgeDir.drain_stalled (direction : Nat) (back : BitVec 10) (fuel : Nat) (d : BridgeDir) (h : d.waiting.length ≤ fuel) :
    (d.drain direction back fuel).Stalled direction := by
  induction fuel generalizing d with
  | zero =>
    have none : d.waiting = [] := List.eq_nil_of_length_eq_zero (by omega)
    exact .inr (by rw [drain, none, packFlit])
  | succ fuel ih =>
    rcases d.drain_succ direction back fuel with ⟨stalled, e⟩ | ⟨ps, left, ⟨-, packed, some⟩, e⟩
    · rwa [e]
    · rw [e]
      apply ih
      show left.length ≤ fuel
      have count := packFlit_length 60 (d.credits direction) [] d.waiting
      simp only [packed, List.length_nil] at count
      have := List.length_pos_iff.mpr some
      omega

/-- The pieces of a bridge source that a direction's sender holds, in order. -/
def BridgeDir.piecesOfLink (d : BridgeDir) (k : Nat) : List MsgPart :=
  (d.replay.flatMap (·.parts) ++ d.waiting).filter fun p => msgLink p.msg = k

theorem BridgeDir.drain_piecesOfLink (d : BridgeDir) (direction : Nat) (back : BitVec 10) (fuel k : Nat) :
    (d.drain direction back fuel).piecesOfLink k = d.piecesOfLink k := by
  refine drain_keeps (P := fun e => e.piecesOfLink k = d.piecesOfLink k) (fun e ps left ⟨_, packed, _⟩ h => ?_) fuel d rfl
  have link := packFlit_link k 60 (e.credits direction) [] e.waiting
  rw [packed, List.reverse_nil, List.nil_append] at link
  rw [← h]
  simp only [piecesOfLink, sendFlit, List.flatMap_append, List.flatMap_cons, List.flatMap_nil, List.append_nil,
    List.append_assoc, List.filter_append] at link ⊢
  rw [link]

theorem setArrived_arrived (s : State) (ms : List Msg) : (setArrived s ms).bridge.toScan.arrived = ms := by
  unfold setArrived drainToScan
  split
  · exact BridgeDir.drain_arrived _ _ _ _
  · rfl

end Sys2Proof.Machine
end

section
/-! SUPPORT. What messages do at their destination (R41 to R44, R51, R179). -/

namespace Sys2Proof.Machine

theorem houseOn_of_scanOn {s : State} (h : scanOn s = true) : houseOn s = true := by
  rw [scanOn, Bool.and_eq_true] at h
  exact h.1

/-- Where nothing waits behind a commit every message stays, and only credits that are free again are used. -/
theorem parkArrived_free {s : State} {ms : List Msg} (free : ∀ m ∈ ms, waitsBehind s m = false) (keep : List Msg) :
    parkArrived s keep ms = setArrived s (keep.reverse ++ ms) := by
  induction ms generalizing keep with
  | nil => rw [parkArrived, List.append_nil]
  | cons m ms ih =>
    obtain ⟨head, tail⟩ := List.forall_mem_cons.mp free
    rw [parkArrived, head, Bool.false_and, Bool.false_and, if_neg Bool.false_ne_true, ih tail, List.reverse_cons,
      List.append_assoc]
    rfl

theorem pickFirst_head {ok : Msg → Bool} {m : Msg} {ms : List Msg} (h : ok m = true) :
    pickFirst ok [] (m :: ms) = some (m, ms) := by
  simp [pickFirst, h]

/-- The state in which messages are picked, none having been parked. -/
theorem setArrived_comp (s : State) (ms : List Msg) : (setArrived s ms).comp = s.comp :=
  (setArrived_only s ms).view (·.comp) fun _ _ => rfl

theorem waitsBehind_congr {s t : State} (h : t.comp = s.comp) (m : Msg) : waitsBehind t m = waitsBehind s m := by
  unfold waitsBehind sourceWaits
  rw [h]

/-- A posted write that waits for nothing applies, once it has left the buffers. -/
theorem applyAtScan_head {s : State} {m : Msg} {rest : List Msg} (arrived : s.bridge.toScan.arrived = m :: rest)
    (free : ∀ x ∈ m :: rest, waitsBehind s x = false) (apply : canApply (setArrived s (m :: rest)) m = true) :
    applyAtScan s = afterPosted (applyPosted (setArrived (setArrived s (m :: rest)) rest) m) m := by
  simp only [applyAtScan, arrived, parkArrived_free free, List.reverse_nil, List.nil_append, setArrived_arrived,
    pickFirst_head apply]

theorem canApply_regWrite {s : State} {src : Src} {a : Nat} {v : Word} (free : waitsBehind s (.regWrite src a v) = false) :
    canApply s (.regWrite src a v) = true := by
  have quiet : sourceWaits s (.regWrite src a v) = false := free
  simp [canApply, isPosted, quiet]

/-- A register write of a core that is no scene write applies, and the dresser goes on. -/
theorem applyAtScan_regWrite {s : State} {n : Fin 4} {a : Nat} {v : Word} {rest : List Msg}
    (arrived : s.bridge.toScan.arrived = .regWrite (.core n) a v :: rest)
    (free : ∀ x ∈ s.bridge.toScan.arrived, waitsBehind s x = false) (plain : isSceneAddr a = false) :
    applyAtScan s = pumpAll (regWrite (setArrived (setArrived s s.bridge.toScan.arrived) rest) (.core n) a v) := by
  rw [arrived] at free ⊢
  have own := (List.forall_mem_cons.mp free).1
  rw [applyAtScan_head arrived free (canApply_regWrite (by rw [waitsBehind_congr (setArrived_comp _ _), own]))]
  show pumpAll (creditScene _ (.core n) a) = _
  rw [creditScene_other plain]

/-- An event that is the oldest message at the house die leaves its buffer and is delivered. -/
theorem applyAtHouse_edge {s : State} {e : Nat} {rest : List Msg} (arrived : s.bridge.toHouse.arrived = .edge e :: rest) :
    applyAtHouse s = { setArrivedHouse s rest with hic := { s.hic with edges := s.hic.edges ++ [e] } } := by
  have hic : (setArrivedHouse s rest).hic = s.hic := (setArrivedHouse_only s rest).view (·.hic) fun _ _ => rfl
  simp only [applyAtHouse, arrived, List.find?_cons_of_pos (p := isEvent) (a := .edge e) rfl, List.erase_cons_head, hic]

theorem applyAtHouse_record {s : State} {r : Rec} {rest : List Msg} (arrived : s.bridge.toHouse.arrived = .record r :: rest) :
    applyAtHouse s = enqueueRecord (setArrivedHouse s rest) r 0 := by
  simp only [applyAtHouse, arrived, List.find?_cons_of_pos (p := isEvent) (a := .record r) rfl, List.erase_cons_head]

/-- The oldest read request at the scan die, behind which no posted write waits, is done (R42). -/
theorem rdRequest_register {s : State} {src : Src} {a len : Nat} {rest : List Msg} (none : s.comp.behind = [])
    (arrived : s.bridge.toScan.arrived = .readRequest src (.register a) len :: rest) :
    rdRequest s = sendToHouse (regRead (setArrived s rest) src a).1
      (.readResponse src (.register a) (leBytes 4 (regRead (setArrived s rest) src a).2.toNat) false) := by
  have go : readMayGo s (.readRequest src (.register a) len) = true := by simp [readMayGo, none]
  simp only [rdRequest, arrived, pickFirst_head go, readTarget]

/-! ### A commit arrives (R43, R179) -/

/-- The commit that a CM brings, with what its source's counter has counted. -/
def arrivingCommit (s : State) (src : Src) (epoch : Word) (tframe : BitVec 16) (stream : BitVec 2) (wcount : BitVec 24)
    (reply : Option ReplyTo) : Commit :=
  { src, epoch, tframe, stream, wcount := wcount.toNat, counted := ((findCounter s src).map (·.count)).getD 0,
    uncounted := ((findCounter s src).map (·.lost)).getD false, inval := s.comp.invalMark.contains src, reply, stage := .held,
    headers := [] }

/-- A commit is held; its source's counter and mark start afresh. -/
def holdCommit (s : State) (c : Commit) : State :=
  { s with comp := { s.comp with
    counters := s.comp.counters.filter fun x => !decide (x.src = c.src),
    invalMark := s.comp.invalMark.filter fun x => !decide (x = c.src),
    commits := s.comp.commits ++ [c] } }

theorem commitArrives_held {s : State} {src : Src} {epoch : Word} {tframe : BitVec 16} {stream : BitVec 2} {wcount : BitVec 24}
    {reply : Option ReplyTo}
    (pass : arrivalFailure (holdCommit s (arrivingCommit s src epoch tframe stream wcount reply))
      (arrivingCommit s src epoch tframe stream wcount reply) = none) :
    commitArrives s src epoch tframe stream wcount reply =
      holdCommit s (arrivingCommit s src epoch tframe stream wcount reply) := by
  unfold commitArrives
  unfold holdCommit arrivingCommit at pass ⊢
  simp only [pass]

theorem arrivingCommit_congr {s t : State} (h : t.comp = s.comp) : arrivingCommit t = arrivingCommit s := by
  funext src epoch tframe stream wcount reply
  unfold arrivingCommit findCounter
  rw [h]

/-- A CM with nothing before it is taken. -/
theorem cmArrival_head {s : State} {src : Src} {epoch : Word} {tframe : BitVec 16} {stream : BitVec 2} {wcount : BitVec 24}
    {reply : Option ReplyTo} {rest : List Msg}
    (arrived : s.bridge.toScan.arrived = .commit src epoch tframe stream wcount reply :: rest)
    (free : ∀ x ∈ s.bridge.toScan.arrived, waitsBehind s x = false) :
    cmArrival s = commitArrives (setArrived (setArrived s s.bridge.toScan.arrived) rest) src epoch tframe stream wcount reply := by
  rw [arrived] at free ⊢
  have own := (List.forall_mem_cons.mp free).1
  have take : mayArrive (setArrived s (.commit src epoch tframe stream wcount reply :: rest))
      (.commit src epoch tframe stream wcount reply) = true := by
    simp [mayArrive, waitsBehind_congr (setArrived_comp s _), own]
  simp only [cmArrival, arrived, parkArrived_free free, List.reverse_nil, List.nil_append, setArrived_arrived,
    pickFirst_head take]

/-- A core's load fails with BUSERR while the bridge is DOWN (R51). -/
theorem loadTimedOut_down {s : State} {n : Fin 4} {w : LoadWait} (stalled : (coreOf s n.val).stalled = some w)
    (down : bridgeDown s = true) : loadTimedOut s n =
      takeTrap (busAddr (dropReads s (.core n)) w).1 n.val
        { vector := trBuserr, addr := (busAddr (dropReads s (.core n)) w).2 } (coreOf s n.val).pc := by
  simp only [loadTimedOut, stalled, readLost, down, Bool.true_or, if_true]

/-- Settles O34: each message by what its die's pick does with the oldest one. -/
theorem messagesApply : Obligations.MessagesApply := by
  unfold Obligations.MessagesApply
  intro s n a len v epoch t16 st wc e r rest on
  have house := houseOn_of_scanOn on
  refine ⟨fun arrived free plain => ?_, fun arrived => ?_, fun arrived => ?_, fun none arrived => ?_,
    fun arrived free pass => ?_, fun w stalled down => ?_⟩
  · exact (whenScan_on on applyAtScan).trans (congrArg _ (applyAtScan_regWrite arrived free plain))
  · exact (whenHouse_on house applyAtHouse).trans (congrArg _ (applyAtHouse_edge arrived))
  · exact (whenHouse_on house applyAtHouse).trans (congrArg _ (applyAtHouse_record arrived))
  · exact (whenScan_on on rdRequest).trans (congrArg _ (rdRequest_register none arrived))
  · have comp : (setArrived (setArrived s s.bridge.toScan.arrived) rest).comp = s.comp :=
      (setArrived_comp _ _).trans (setArrived_comp _ _)
    refine (whenScan_on on cmArrival).trans (congrArg _ ?_)
    rw [cmArrival_head arrived free, commitArrives_held] <;> rw [arrivingCommit_congr comp]
    · rfl
    · exact pass
  · exact (whenHouse_on house fun s => sourceGoesOn (readTimeout s (.core n))).trans
      (congrArg (fun t => Host.Outcome.next (sourceGoesOn t)) (loadTimedOut_down stalled down))

end Sys2Proof.Machine
end

section
/-! SUPPORT. Flits, NAKs and acknowledgements of an UP bridge (R47 to R49, R54, R55), and the dresser and the bench port, which go
on only where they wait for something. -/

namespace Sys2Proof.Machine

/-! ### Setting a direction -/

theorem regWord_setBridgeDir (s : State) (dest : Die) (d : BridgeDir) (k : Nat) : regWord (setBridgeDir s dest d) k = regWord s k :=
  (setBridgeDir_only s d dest).regWord k

theorem getF_setBridgeDir (s : State) (dest : Die) (d : BridgeDir) (f : Fld) : getF (setBridgeDir s dest d) f = getF s f :=
  (setBridgeDir_only s d dest).getF f

theorem bridgeDir_congr {s t : State} (h : t.bridge = s.bridge) (dest : Die) : bridgeDir t dest = bridgeDir s dest := by
  cases dest <;> simp only [bridgeDir, h]

/-! ### Who waits for the bridge -/

/-- Parts that no operation of the bridge touches: the dresser, the hutch and the twin. -/
def bystanders (s : State) : Dresser × Hutch × Twin := (s.dresser, s.hutch, s.twin)

theorem BridgeOnly.bystanders {s t : State} (h : BridgeOnly s t) : bystanders t = bystanders s :=
  h.view Machine.bystanders fun _ _ => rfl

theorem NothingWaits.congr {s t : State} (h : NothingWaits s) (same : bystanders t = bystanders s) : NothingWaits t := by
  have dresser : t.dresser = s.dresser := congrArg (·.1) same
  have hutch : t.hutch = s.hutch := congrArg (·.2.1) same
  unfold NothingWaits
  rwa [dresser, hutch]

theorem pumpAll_idle {s : State} (h : NothingWaits s) : pumpAll s = s := by
  obtain ⟨queue, reading, -⟩ := h
  have idle : dictStep s = none := by
    unfold dictStep
    simp only [queue, reading, ite_self]
  rw [pumpAll, dictPump, idle]

theorem sourceGoesOn_idle {s : State} (h : NothingWaits s) : sourceGoesOn s = s := by
  rw [sourceGoesOn, pumpAll_idle h, benchAnswers, h.2.2]

/-! ### Events are counted -/

/-- An event of the performance counters reaches no register of the house die, and nothing but the counters (R587). -/
structure Counted (s t : State) : Prop where
  rest : { t with regs := s.regs, perf := s.perf } = s
  house : ∀ k, isScanAddr k = false → regWord t k = regWord s k

namespace Counted

variable {s t u : State}

theorem refl (s : State) : Counted s s := ⟨rfl, fun _ _ => rfl⟩

theorem trans (h : Counted s t) (k : Counted t u) : Counted s u where
  rest := by
    have both : { u with regs := s.regs, perf := s.perf } = { t with regs := s.regs, perf := s.perf } :=
      congrArg (fun x : State => { x with regs := s.regs, perf := s.perf }) k.rest
    exact both.trans h.rest
  house a ha := (k.house a ha).trans (h.house a ha)

theorem bystanders (h : Counted s t) : bystanders t = bystanders s := by
  have same := congrArg Machine.bystanders h.rest
  exact same

theorem getF (h : Counted s t) {f : Fld} (own : isScanAddr f.addr = false) : getF t f = getF s f := getF_congr (h.house _ own)

theorem perfAdd {n : Nat} (hn : n < 4) (event k : Nat) (s : State) : Counted s (perfAdd s event k n) := by
  have scan : ∀ i < 4, isScanAddr (SC_PERFSEL i) = true := by decide
  have overflow : Counted s (setF s (SC_PERFSEL_OVF n) 1) := by
    refine ⟨rfl, fun a ha => regWord_setF_ne _ _ _ _ ?_⟩
    rintro rfl
    rw [show (SC_PERFSEL_OVF n).addr = SC_PERFSEL n from rfl, scan n hn] at ha
    exact Bool.noConfusion ha
  have count : ∀ t x, Counted s t → Counted s { t with perf := x } := fun t x h => h.trans ⟨rfl, fun _ _ => rfl⟩
  unfold Machine.perfAdd
  split
  · dsimp only
    split
    · exact count _ _ overflow
    · exact count _ _ (refl s)
  · exact refl s

theorem perfCount (s : State) (event k : Nat) : Counted s (perfCount s event k) := by
  have fold : ∀ (l : List Nat), (∀ n ∈ l, n < 4) → ∀ t, Counted t (l.foldl (fun s n => Machine.perfAdd s event k n) t) := by
    intro l
    induction l with
    | nil => exact fun _ t => refl t
    | cons n l ih =>
      intro low t
      obtain ⟨head, tail⟩ := List.forall_mem_cons.mp low
      exact (perfAdd head event k t).trans (ih tail _)
  exact fold _ (fun n hn => List.mem_range.mp hn) s

end Counted

/-! ### A flit arrives (R47) -/

theorem endingIn_singleton (f : Flit) : endingIn [f] = (f.parts.filter (·.last)).map (·.msg) := by
  simp [endingIn]

/-- The dresser and the bench port have nothing to go on with after a flit that only sets a direction. -/
theorem bridgeFlitReceive_answers {s x : State} {dest : Die} {seq : BitVec 10} {ok : Bool} {d : BridgeDir} {P : State → Prop}
    (on : scanOn s = true) (idle : NothingWaits s) (same : bystanders x = bystanders s)
    (flit : receiveFlit s dest seq ok = setBridgeDir x dest d) (holds : P (setBridgeDir x dest d)) :
    Answers (.bridgeFlitReceive dest seq ok) s P := by
  have still : bystanders (setBridgeDir x dest d) = bystanders s := (setBridgeDir_only x d dest).bystanders.trans same
  refine ⟨setBridgeDir x dest d, ?_, holds⟩
  show whenScan s (fun s => sourceGoesOn (receiveFlit s dest seq ok)) = _
  rw [whenScan_on on, flit, sourceGoesOn_idle (idle.congr still)]

section

variable {s : State} {dest : Die} {seq : BitVec 10} {f : Flit} (up : bridgeUp s = true)
  (found : (bridgeDir s dest).replay.find? (fun x => x.seq = seq) = some f)

include up found

theorem receiveFlit_expected (expected : seq = (bridgeDir s dest).expect) :
    receiveFlit s dest seq true = setBridgeDir (perfCount s 0x05 1) dest
      { bridgeDir s dest with
        expect := (bridgeDir s dest).expect + 1
        nakRun := 0
        arrived := (bridgeDir s dest).arrived ++ (f.parts.filter (·.last)).map (·.msg) } := by
  rw [← endingIn_singleton]
  simp only [receiveFlit, up, found, Bool.not_true, Bool.false_eq_true, if_false]
  rw [if_pos expected]

theorem receiveFlit_unexpected (other : seq ≠ (bridgeDir s dest).expect) :
    receiveFlit s dest seq true = setBridgeDir (perfCount s 0x05 1) dest ((bridgeDir s dest).discard seq) := by
  simp only [receiveFlit, up, found, Bool.not_true, Bool.false_eq_true, if_false]
  rw [if_neg other]

theorem receiveFlit_bad :
    receiveFlit s dest seq false =
      setBridgeDir (noteCrcError (countF (perfCount s 0x05 1) HS_BRERR_CRCERR 1)) dest ((bridgeDir s dest).discard seq) := by
  simp only [receiveFlit, up, found, Bool.not_false, if_true]

/-- A NAK starts a replay (R54, R55). -/
theorem receiveNak_found :
    receiveNak s dest seq = setF (countF s HS_BRERR_REPLAYS 1) HS_BRSTAT_REPLAYED 1 := by
  have some : (bridgeDir s dest).replay.any (fun x => x.seq = seq) = true :=
    List.any_eq_true.mpr ⟨f, List.mem_of_find?_eq_some found, List.find?_some (p := fun x : Flit => decide (x.seq = seq)) found⟩
  rw [receiveNak, up, some, Bool.and_self, if_pos rfl]

end

theorem BridgeDir.discard_eq (d : BridgeDir) (seq : BitVec 10) :
    d.discard seq = if d.nakRun ≠ 0 ∧ seq ≠ d.expect then d else { d with nakRun := d.nakRun + 1, lastNak := d.expect } := by
  simp only [discard, Bool.and_eq_true, bne_iff_ne]

/-! ### An acknowledgement arrives (R48) -/

/-- An accepted flit's acknowledgement frees it and the flits before it. -/
theorem freeReplay_accepted {before after : List Flit} {f : Flit} {seq expect : BitVec 10} (own : f.seq = seq)
    (earlier : ∀ x ∈ before, x.seq ≠ seq) (self : f.seq ≠ expect) (accepted : ∀ x ∈ before, x.seq ≠ expect) :
    freeReplay (before ++ f :: after) seq expect = after := by
  induction before with
  | nil => rw [List.nil_append, freeReplay, if_neg self, if_pos own]
  | cons x before ih =>
    obtain ⟨head, tail⟩ := List.forall_mem_cons.mp earlier
    obtain ⟨head', tail'⟩ := List.forall_mem_cons.mp accepted
    rw [List.cons_append, freeReplay, if_neg head', if_neg head, ih tail tail']
    refine if_neg fun e => ?_
    simp only [List.length_append, List.length_cons] at e
    omega

/-- The number under which Config knows a direction. -/
def towards : Die → Nat
  | .scan => 0
  | .house => 1

theorem bridgeDir_drainTo {s : State} (up : bridgeUp s = true) (dest : Die) :
    ∃ back, bridgeDir (drainTo s dest) dest =
      (bridgeDir s dest).drain (towards dest) back (bridgeDir s dest).waiting.length := by
  cases dest with
  | scan =>
    refine ⟨s.bridge.toHouse.expect, ?_⟩
    show (drainToScan s).bridge.toScan = _
    unfold drainToScan
    rw [if_pos up]
    rfl
  | house =>
    refine ⟨s.bridge.toScan.expect, ?_⟩
    show (drainToHouse s).bridge.toHouse = _
    unfold drainToHouse
    rw [if_pos up]
    rfl

/-- An acknowledgement changes the bridge alone. -/
theorem receiveAck_only (s : State) (dest : Die) (seq : BitVec 10) : BridgeOnly s (receiveAck s dest seq) := by
  unfold receiveAck
  dsimp only
  split
  · exact (setBridgeDir_only s _ dest).trans (drainTo_only _ dest)
  · exact .refl s

/-- Where an acknowledgement frees all but `after`, what waits follows as far as it can. -/
theorem bridgeDir_receiveAck {s : State} {dest : Die} {seq : BitVec 10} {after : List Flit} (up : bridgeUp s = true)
    (freed : freeReplay (bridgeDir s dest).replay seq (bridgeDir s dest).expect = after) :
    ∃ back, bridgeDir (receiveAck s dest seq) dest =
      BridgeDir.drain (towards dest) back (bridgeDir s dest).waiting.length { bridgeDir s dest with replay := after } := by
  have up' := (setBridgeDir_only s { bridgeDir s dest with replay := after } dest).bridgeUp.trans up
  obtain ⟨back, drained⟩ := bridgeDir_drainTo up' dest
  rw [bridgeDir_setBridgeDir] at drained
  refine ⟨back, ?_⟩
  rw [← drained, receiveAck, freed]
  dsimp only
  rw [if_pos up]

/-- A flit with a bad CRC is counted (R47, R55). -/
theorem badFlit_counted (s : State) (dest : Die) (d : BridgeDir) :
    let t := setBridgeDir (noteCrcError (countF (perfCount s 0x05 1) HS_BRERR_CRCERR 1)) dest d
    getF t HS_BRERR_CRCERR = min 0xFFF (getF s HS_BRERR_CRCERR + 1) ∧
      getF t HS_BRERR_REPLAYS = getF s HS_BRERR_REPLAYS ∧ getF t HS_BRERR_DROPPED = getF s HS_BRERR_DROPPED := by
  intro t
  have counted := Counted.perfCount s 0x05 1
  have field : ∀ g, getF t g = getF (countF (perfCount s 0x05 1) HS_BRERR_CRCERR 1) g := fun g =>
    getF_setBridgeDir _ dest d g
  rw [field, field, field, getF_countF_same _ _ _ (by decide), getF_countF_ne _ _ _ _ (by decide) (by decide) (by decide),
    getF_countF_ne _ _ _ _ (by decide) (by decide) (by decide), counted.getF rfl, counted.getF rfl, counted.getF rfl]
  exact ⟨Nat.min_comm _ _, rfl, rfl⟩

/-- A replay is counted and shown; the bridge's state stays. -/
theorem replay_counted (s : State) :
    let t := setF (countF s HS_BRERR_REPLAYS 1) HS_BRSTAT_REPLAYED 1
    getF t HS_BRSTAT_REPLAYED = 1 ∧ getF t HS_BRERR_REPLAYS = min 0xFFF (getF s HS_BRERR_REPLAYS + 1) ∧
      bridgeState t = bridgeState s := by
  intro t
  refine ⟨getF_setF_same _ _ _ (by decide), ?_, ?_⟩
  · rw [getF_setF_ne _ _ _ _ (by decide) (by decide) (by decide), getF_countF_same _ _ _ (by decide)]
    exact Nat.min_comm _ _
  · unfold bridgeState
    rw [getF_setF_ne _ _ _ _ (by decide) (by decide) (by decide), getF_countF_ne _ _ _ _ (by decide) (by decide) (by decide)]

/-- Settles O32: a flit by the branches of `receiveFlit`, an acknowledgement by what `drain` keeps and where it ends. -/
theorem flitsAndAcks : Obligations.FlitsAndAcks := by
  unfold Obligations.FlitsAndAcks
  intro s dest seq f on up idle d discarded
  have discard : d.discard seq = discarded := d.discard_eq seq
  have counted := Counted.perfCount s 0x05 1
  have errors : ∀ e, regWord (setBridgeDir (perfCount s 0x05 1) dest e) HS_BRERR = regWord s HS_BRERR := fun e =>
    (regWord_setBridgeDir _ dest e _).trans (counted.house HS_BRERR rfl)
  refine ⟨fun found => ⟨fun expected => ?_, fun other => ?_, ?_, ?_⟩, fun before after split own earlier accepted room => ?_⟩
  · exact bridgeFlitReceive_answers on idle counted.bystanders (receiveFlit_expected up found expected)
      ⟨bridgeDir_setBridgeDir _ _ _, errors _⟩
  · exact bridgeFlitReceive_answers on idle counted.bystanders (receiveFlit_unexpected up found other)
      ⟨(bridgeDir_setBridgeDir _ _ _).trans discard, errors _⟩
  · exact bridgeFlitReceive_answers on idle (x := noteCrcError (countF (perfCount s 0x05 1) HS_BRERR_CRCERR 1))
      counted.bystanders (receiveFlit_bad up found)
      ⟨(bridgeDir_setBridgeDir _ _ _).trans discard, badFlit_counted s dest (d.discard seq)⟩
  · exact ⟨_, (whenScan_on on _).trans (congrArg _ (receiveNak_found up found)), bridgeDir_congr rfl dest, replay_counted s⟩
  · have only := receiveAck_only s dest seq
    obtain ⟨self, accepted⟩ := List.forall_mem_cons.mp accepted
    obtain ⟨back, drained⟩ := bridgeDir_receiveAck (s := s) (dest := dest) (seq := seq) (after := after) up
      (by rw [split]; exact freeReplay_accepted own earlier self accepted)
    have sent := BridgeDir.drain_replay_extends { d with replay := after } (towards dest) back d.waiting.length
    have full := BridgeDir.drain_replay_le (d := { d with replay := after }) room (towards dest) back d.waiting.length
    have arrived := BridgeDir.drain_arrived { d with replay := after } (towards dest) back d.waiting.length
    have stalled := BridgeDir.drain_stalled (towards dest) back d.waiting.length { d with replay := after } le_rfl
    have pieces : ∀ k, (bridgeDir (receiveAck s dest seq) dest).piecesOfLink k =
        BridgeDir.piecesOfLink { d with replay := after } k := fun k => by
      rw [drained]
      exact BridgeDir.drain_piecesOfLink _ _ back _ k
    rw [← drained] at sent full arrived stalled
    refine ⟨receiveAck s dest seq, ?_, sent, full, arrived, ?_, pieces, only.regWord⟩
    · exact (whenScan_on on fun s => pumpAll (receiveAck s dest seq)).trans
        (congrArg _ (pumpAll_idle (idle.congr only.bystanders)))
    · exact stalled.imp (le_antisymm full) (by cases dest <;> exact id)

end Sys2Proof.Machine
end

section
/-! SUPPORT. What the reports, records and packets that go with a change of the bridge's state leave: the dresser, the hutch and
the twin. -/

namespace Sys2Proof.Machine

theorem bystanders_foldl {α : Type} {f : State → α → State} (hf : ∀ t x, bystanders (f t x) = bystanders t) (l : List α)
    (s : State) : bystanders (l.foldl f s) = bystanders s := by
  induction l generalizing s with
  | nil => rfl
  | cons x l ih => exact (ih (f s x)).trans (hf s x)

/-! ### Edges and records -/

theorem bystanders_noteWake (s : State) (w : Nat) : bystanders (noteWake s w) = bystanders s := by
  have noted : bystanders
      (if s.power.wakePending.isNone then { s with power := { s.power with wakePending := some w } } else s) = bystanders s := by
    split <;> rfl
  unfold noteWake
  dsimp only
  split
  · rfl
  split
  · split
    · exact noted
    · rfl
  split
  · split
    · exact noted
    · rfl
  · split <;> rfl

theorem bystanders_latchWake (s : State) (w : Nat) : bystanders (latchWake s w) = bystanders s := by
  unfold latchWake
  split <;> rfl

theorem bystanders_pulse (s : State) (n : Nat) : bystanders (pulse s n) = bystanders s := by
  unfold pulse
  split
  · split
    · rfl
    · exact (sendToHouse_only s _).bystanders
  split
  · rw [bystanders_noteWake]
    split
    · exact bystanders_latchWake s _
    · rfl
  · rfl

theorem bystanders_raiseEvent (s : State) (n : Nat) (f : Fld) : bystanders (raiseEvent s n f) = bystanders s := by
  unfold raiseEvent raiseBits
  dsimp only
  split
  · exact bystanders_pulse _ _
  · rfl

theorem bystanders_flushDrops (s : State) : bystanders (flushDrops s) = bystanders s := by
  unfold flushDrops
  split <;> rfl

theorem bystanders_dropRecord (s : State) : bystanders (dropRecord s) = bystanders s :=
  (bystanders_flushDrops _).trans (bystanders_raiseEvent (countF s HS_RECCNT_DROPPED 1) 70 HS_RECSTAT_DROPEV)

theorem bystanders_enqueueLimited (s : State) (r : Rec) (cause : Nat) :
    bystanders (enqueueLimited s r cause) = bystanders s := by
  have sent : ∀ folded, bystanders (enqueueLimited.send cause s r folded) = bystanders s := by
    intro folded
    unfold enqueueLimited.send
    split
    · rfl
    · exact bystanders_dropRecord s
  unfold enqueueLimited
  dsimp only
  split
  · split
    · split
      · rfl
      · exact bystanders_dropRecord s
    · exact sent _
  · exact sent _

theorem bystanders_enqueueRecord (s : State) (r : Rec) (cause : Nat) : bystanders (enqueueRecord s r cause) = bystanders s := by
  unfold enqueueRecord
  dsimp only
  split
  · exact bystanders_enqueueLimited _ _ _
  split
  · exact bystanders_flushDrops s
  · exact (bystanders_dropRecord _).trans (bystanders_flushDrops s)

/-! ### Packets of the module -/

theorem bystanders_drainPort (s : State) (p fuel : Nat) : bystanders (drainPort s p fuel) = bystanders s := by
  induction fuel generalizing s with
  | zero => rfl
  | succ fuel ih =>
    unfold drainPort
    dsimp only
    split
    · rfl
    split
    · rfl
    · exact (ih _).trans rfl

theorem bystanders_enqueueOut (s : State) (p : Nat) (q : Queued) : bystanders (enqueueOut s p q) = bystanders s :=
  (bystanders_drainPort _ p _).trans rfl

theorem bystanders_deliverLocal (s : State) (arrival : Nat) (x : Item) :
    bystanders (deliverLocal s arrival x) = bystanders s := by
  unfold deliverLocal
  split
  · rfl
  split <;> rfl

theorem bystanders_multicast (s : State) (arrival : Nat) (x : Item) (slot : Option (BitVec 14)) :
    bystanders (multicast s arrival x slot) = bystanders s := by
  have copied := fun l => bystanders_foldl
    (f := fun s p => enqueueOut s p { pkt := x.pkt, copy := true, arrival, out := slot })
    (fun t p => bystanders_enqueueOut t p _) l s
  unfold multicast
  split
  · split
    · rfl
    split
    · rfl
    dsimp only
    split
    · exact (bystanders_deliverLocal _ _ _).trans (copied _)
    · exact copied _
  · rfl

theorem bystanders_forwardUnicast (s : State) (arrival : Nat) (pkt : Packet) (slot : Option (BitVec 14)) :
    bystanders (forwardUnicast s arrival pkt slot).1 = bystanders s := by
  unfold forwardUnicast
  split
  · exact bystanders_enqueueOut _ _ _
  · rfl

theorem bystanders_routePacket (s : State) (arrival : Nat) (x : Item) (slot : Option (BitVec 14)) :
    bystanders (routePacket s arrival x slot).1 = bystanders s := by
  unfold routePacket
  dsimp only
  split
  · split
    · exact bystanders_deliverLocal _ _ _
    · exact bystanders_forwardUnicast _ _ _ _
  · exact bystanders_multicast _ _ _ _
  · split
    · split
      · split
        · exact bystanders_enqueueOut _ _ _
        · rfl
      · split
        · exact bystanders_enqueueOut _ _ _
        · rfl
    · exact bystanders_forwardUnicast _ _ _ _
  · split
    · exact bystanders_deliverLocal _ _ _
    · split
      · exact bystanders_enqueueOut _ _ _
      · exact bystanders_enqueueOut _ _ _
      · rfl

/-! ### What the bridge holds as it enters DOWN -/

theorem bystanders_postBridgeDown (s : State) (reply : Option ReplyTo) (epoch : Word) (stream : BitVec 2) (tframe : BitVec 16) :
    bystanders (postBridgeDown s reply epoch stream tframe) = bystanders s := by
  unfold postBridgeDown
  split
  · rfl
  · exact bystanders_routePacket _ _ _ _

theorem bystanders_discardDown (s : State) (m : Msg) : bystanders (discardDown s m) = bystanders s := by
  cases m with
  | commit src epoch tframe stream wcount reply =>
    unfold discardDown
    dsimp only
    split
    · exact (bystanders_postBridgeDown _ _ _ _ _).trans rfl
    · rfl
  | readRequest | readResponse | edge | record | result | binding => rfl
  | regWrite | regBits | dramWrite | immPut | immClear | fault | key | beacon => rfl

theorem bystanders_holdUnaccepted (s : State) : bystanders (holdUnaccepted s) = bystanders s := by
  refine bystanders_foldl (fun t m => ?_) _ s
  split <;> rfl

/-- An event bit of the bridge's own register is raised, and recorded. -/
def bridgeEvent (s : State) (f : Fld) : State := recordBridge (raiseEvent s 40 f)

theorem bystanders_bridgeEvent (s : State) (f : Fld) : bystanders (bridgeEvent s f) = bystanders s := by
  unfold bridgeEvent recordBridge record
  rw [bystanders_enqueueRecord, bystanders_raiseEvent]

/-- Messages that meet the bridge DOWN have ended, and the scan die holds its own. -/
def messagesEnded (s : State) : State :=
  holdUnaccepted ((unacceptedToScan (spoilActivation s)).foldl discardDown (spoilActivation s))

/-- The status register shows a state of the bridge and the lanes of each direction (R54). -/
def lanesShown (s : State) (state hs sh : Nat) : State :=
  setF (setF (setF s HS_BRSTAT_STATE state) HS_BRSTAT_LANES_HS hs) HS_BRSTAT_LANES_SH sh

theorem bridgeGoesDown_eq (s : State) :
    ∃ b, bridgeGoesDown s false = bridgeEvent (lanesShown { messagesEnded s with bridge := b } brDown 0 0) HS_BRSTAT_DOWNEV := by
  unfold bridgeGoesDown messagesEnded bridgeEvent lanesShown
  exact ⟨_, rfl⟩

theorem bystanders_messagesEnded (s : State) : bystanders (messagesEnded s) = bystanders s := by
  unfold messagesEnded
  rw [bystanders_holdUnaccepted, bystanders_foldl bystanders_discardDown]
  rfl

theorem bystanders_bridgeGoesDown (s : State) : bystanders (bridgeGoesDown s false) = bystanders s := by
  have shown : ∀ (t : State) (b : Bridge), bystanders (lanesShown { t with bridge := b } brDown 0 0) = bystanders t := fun _ _ => rfl
  obtain ⟨b, down⟩ := bridgeGoesDown_eq s
  rw [down, bystanders_bridgeEvent, shown, bystanders_messagesEnded]

end Sys2Proof.Machine
end

section
/-! SUPPORT. Training, retraining and failure of the bridge (R49 to R54). -/

namespace Sys2Proof.Machine

/-! ### An event of the bridge -/

theorem bridgeEvent_quiet (s : State) (f : Fld) : Quiet (orF s f 1) (bridgeEvent s f) := by
  unfold bridgeEvent recordBridge
  exact (Quiet.raiseEvent_orF (.inl rfl)).record _ _ _ _ _ _ _

/-- The event bit of an event reads 1. -/
theorem bridgeEvent_own (s : State) {f : Fld} (own : f.addr = HS_BRSTAT) (bit : f.hi = f.lo) (fits : f.fits) :
    getF (bridgeEvent s f) f = 1 := by
  have one : f.hi + 1 - f.lo = 1 := by omega
  have low := getF_lt s f fits
  rw [getF_congr ((bridgeEvent_quiet s f).regs _ (by rw [own]; rfl)), getF_orF_same _ _ _ fits (by rw [one]; decide)]
  rw [one] at low
  interval_cases getF s f <;> rfl

/-- Every other field of the status register stays. -/
theorem bridgeEvent_other (s : State) {f g : Fld} (own : g.addr = HS_BRSTAT) (fitsF : f.fits) (fits : g.fits) (apart : f.apart g) :
    getF (bridgeEvent s f) g = getF s g := by
  rw [getF_congr ((bridgeEvent_quiet s f).regs _ (by rw [own]; rfl)), getF_orF_ne _ _ _ _ fitsF fits apart]

theorem bridgeEvent_bridge (s : State) (f : Fld) : (bridgeEvent s f).bridge = s.bridge :=
  (bridgeEvent_quiet s f).view (·.bridge) fun _ => rfl

/-! ### A training starts -/

theorem startTraining_starts (s : State) :
    bridgeState (startTraining s) = (if bridgeUp s then brRetraining else brTraining) ∧
      (startTraining s).bridge.width = 8 ∧ (startTraining s).bridge.failures = 0 := by
  refine ⟨?_, rfl, rfl⟩
  refine (getF_setF_same _ _ _ (by decide)).trans ?_
  show (if bridgeUp s then brRetraining else brTraining) % 2 ^ 3 = _
  split <;> rfl

theorem regSpecAt_brCtl : ∃ r, regSpecAt HS_BRCTL = some (r, []) ∧ r.presence = .always ∧ r.hook = .brCtl := ⟨_, rfl, rfl, rfl⟩

/-- A write of HS_BRCTL with RETRAIN asks for a training, in a state whose bridge and status register stand as before. -/
theorem regWrite_brCtl (s : State) (src : Src) {w : Word} (train : w.getLsbD 0 = true) :
    ∃ v, v.bridge = s.bridge ∧ regWord v HS_BRSTAT = regWord s HS_BRSTAT ∧
      regWrite s src HS_BRCTL w = countOnce s (bridgeRetrain v) := by
  obtain ⟨r, spec, always, hook⟩ := regSpecAt_brCtl
  have present : registerPresent s.variant r [] = true := by simp [registerPresent, always]
  have early : beforeWrite s r w = s := beforeWrite_other (by rw [hook]; decide)
  have special : specialWrite s src r [] HS_BRCTL w = none := by simp only [specialWrite, hook]
  have lock : breakLockSequence s src HS_BRCTL = s := rfl
  let x := writeFields s r [] HS_BRCTL w
  let v := if w.getLsbD 2 then bridgeClear x else x
  have fields : x = countIf (setRegWord s HS_BRCTL (writeWord s.variant r.fields (regWord s HS_BRCTL) w).1)
      (writeWord s.variant r.fields (regWord s HS_BRCTL) w).2 := writeFields_present present
  have status : regWord x HS_BRSTAT = regWord s HS_BRSTAT := by
    rw [fields, countIf_regWord (by decide), regWord_setRegWord_ne _ _ _ _ (by decide)]
  have bridge : x.bridge = s.bridge := by
    rw [fields, countIf]
    split
    · unfold countReserved
      dsimp only
      split <;> rfl
    · rfl
  refine ⟨v, ?_, ?_, ?_⟩
  · show State.bridge (if _ then _ else _) = _
    split <;> exact bridge
  · show regWord (if _ then _ else _) _ = _
    split
    · rw [bridgeClear, regWord_setRegWord_ne _ _ _ _ (by decide), status]
    · exact status
  · have write : writeRegister s src r [] HS_BRCTL w = countOnce s (bridgeRetrain v) := by
      simp only [writeRegister, early, hook, special, lock, ite_self]
      show countOnce s (afterHouseWrite s x src .brCtl 0 HS_BRCTL w) = _
      simp only [afterHouseWrite, train, if_true]
      rfl
    rw [← write]
    simp only [regWrite, regWriteBase, spec, present, if_true]
    rfl

/-- A write of RETRAIN starts a training where the bridge takes it up (R53). -/
theorem bridgeRetrain_answers {s : State} {src : Src} {val : Word} (on : scanOn s = true)
    (takes : (bridgeUp s || (bridgeState s = brDown && !s.bridge.poweredDown)) = true) :
    Answers (.bridgeRetrain src val) s fun t =>
      bridgeState t = (if bridgeUp s then brRetraining else brTraining) ∧ t.bridge.width = 8 := by
  have train : (withOnes val HS_BRCTL_RETRAIN).getLsbD 0 = true := by
    rw [withOnes, BitVec.getLsbD_or, fieldMask_getLsbD _ _ _ (by decide) (by decide)]
    simp [HS_BRCTL_RETRAIN]
  obtain ⟨v, bridge, status, write⟩ := regWrite_brCtl s src train
  have state : bridgeState v = bridgeState s := getF_congr (f := HS_BRSTAT_STATE) status
  have up : bridgeUp v = bridgeUp s := by unfold bridgeUp; rw [state]
  have starts : bridgeRetrain v = startTraining v := by
    unfold bridgeRetrain
    rw [up, state, bridge, if_pos takes]
  obtain ⟨state', width, -⟩ := startTraining_starts v
  have once : ∀ x, (countOnce s x).bridge = x.bridge := fun x => by
    unfold countOnce
    dsimp only
    split <;> rfl
  refine ⟨countOnce s (startTraining v), ?_, ?_, ?_⟩
  · rw [← starts, ← write]
    exact whenHouse_on (houseOn_of_scanOn on) fun s => regWrite s src HS_BRCTL (withOnes val HS_BRCTL_RETRAIN)
  · rw [← up, ← state']
    exact getF_congr (f := HS_BRSTAT_STATE) (countOnce_regWord (by decide))
  · rw [once, width]

theorem bridgeFault_answers {s : State} {cause : BridgeFault} (on : scanOn s = true) (up : bridgeUp s = true)
    (fault : linkFaultHolds s cause = true) :
    Answers (.bridgeLinkFault cause) s fun t => bridgeState t = brRetraining ∧ t.bridge.width = 8 ∧ t.bridge.failures = 0 := by
  obtain ⟨state, width, failures⟩ := startTraining_starts s
  rw [if_pos up] at state
  refine ⟨startTraining s, ?_, state, width, failures⟩
  refine (whenScan_on on fun s => bridgeFault s cause).trans (congrArg _ ?_)
  rw [bridgeFault, up, fault, Bool.and_self, if_pos rfl]

/-! ### The bridge comes UP -/

/-- A field of the status register apart from REPLAYED, the one that the traffic after a training may set. -/
abbrev Shows (f : Fld) : Prop := f.addr = HS_BRSTAT ∧ f.fits ∧ HS_BRSTAT_REPLAYED.apart f

theorem resend_bridge (s : State) (dest : Die) : (resend s dest).bridge = s.bridge := by
  unfold resend
  split <;> rfl

theorem resend_bystanders (s : State) (dest : Die) : bystanders (resend s dest) = bystanders s := by
  unfold resend
  split <;> rfl

theorem resend_shows (s : State) (dest : Die) {f : Fld} (shows : Shows f) : getF (resend s dest) f = getF s f := by
  obtain ⟨own, fits, apart⟩ := shows
  unfold resend
  split
  · rfl
  · rw [getF_setF_ne _ _ _ _ (by decide) fits apart]
    exact getF_countF_ne _ _ _ _ (by decide) fits (.inl (by rw [own]; decide))

/-- A direction with a flit that is not acknowledged makes a replay, which stays shown. -/
theorem resend_replayed {s : State} {dest : Die} (h : (bridgeDir s dest).replay ≠ [] ∨ getF s HS_BRSTAT_REPLAYED = 1) :
    getF (resend s dest) HS_BRSTAT_REPLAYED = 1 := by
  unfold resend
  split
  · next none => exact h.resolve_left fun some => some (List.isEmpty_iff.mp none)
  · exact getF_setF_same _ _ _ (by decide)

/-- The scan die sends what it held: beyond the bridge only its lists are emptied. -/
theorem sendHeld_only (s : State) :
    BridgeOnly { s with held := [], hic := { s.hic with scanHeld := [] }, recorder := { s.recorder with scanHeld := [] } }
      (sendHeld s) := by
  unfold sendHeld
  exact (((BridgeOnly.bridge _ _).foldl fun _ u h => h.trans (sendToHouse_only u _)).foldl
    fun _ u h => h.trans (sendToHouse_only u _)).foldl fun _ u h => h.trans (sendToHouse_only u _)

/-- Each sender resends, what waits leaves, and the scan die sends what it held (R47, R49, R54). -/
def trafficResumes (s : State) : State := sendHeld (drainToHouse (drainToScan (resend (resend s .scan) .house)))

theorem trafficResumes_regWord (s : State) (k : Nat) :
    regWord (trafficResumes s) k = regWord (resend (resend s .scan) .house) k :=
  ((sendHeld_only _).regWord k).trans (((drainToScan_only _).trans (drainToHouse_only _)).regWord k)

theorem trafficResumes_bystanders (s : State) : bystanders (trafficResumes s) = bystanders s := by
  have drained := ((drainToScan_only (resend (resend s .scan) .house)).trans (drainToHouse_only _)).bystanders
  rw [resend_bystanders, resend_bystanders] at drained
  exact (sendHeld_only _).bystanders.trans drained

theorem trafficResumes_shows (s : State) {f : Fld} (shows : Shows f) : getF (trafficResumes s) f = getF s f := by
  rw [getF_congr (trafficResumes_regWord s _), resend_shows _ _ shows, resend_shows _ _ shows]

theorem trafficResumes_replayed {s : State} (h : s.bridge.toScan.replay ≠ [] ∨ s.bridge.toHouse.replay ≠ []) :
    getF (trafficResumes s) HS_BRSTAT_REPLAYED = 1 := by
  rw [getF_congr (trafficResumes_regWord s _)]
  refine resend_replayed ?_
  rw [bridgeDir_congr (resend_bridge s .scan)]
  exact h.symm.imp id fun scan => resend_replayed (.inl scan)

/-- The keys of the decoders go over an UP bridge as messages. -/
theorem reloadDecoders_only {s : State} (up : bridgeDown s = false) : BridgeOnly s (reloadDecoders s) := by
  refine (BridgeOnly.refl s).foldl fun slot u h => ?_
  have keyed : ∀ k, BridgeOnly u (sendKey u slot k) := by
    intro k
    unfold sendKey issueToScan
    split
    · exact .refl u
    · rw [h.bridgeDown, up, if_neg Bool.false_ne_true]
      exact sendToScan_only u _
  dsimp only
  split
  · exact h
  · exact h.trans (keyed _)

/-! ### A training ends -/

/-- The training that a reset has asked for is not due any more. -/
def trainingSettled (s : State) : State := { s with bridge := { s.bridge with trainAfterReset := false } }

/-- No failed training counts any more. -/
def failuresCleared (s : State) : State := { s with bridge := { s.bridge with failures := 0 } }

/-- The bridge after a training on 8 lanes. -/
theorem bridgeTrained_eight {s : State} (width : s.bridge.width = 8) (hs sh : BitVec 8) :
    bridgeTrained s hs sh =
      trafficResumes (failuresCleared (bridgeEvent (lanesShown s brUp8 0xFF 0xFF) HS_BRSTAT_RETRAINED)) := by
  have eight : ¬ s.bridge.width = 4 := by omega
  unfold bridgeTrained
  simp only [eight, if_false]
  rfl

/-- The bridge after a training on 4 lanes. -/
theorem bridgeTrained_four {s : State} (width : s.bridge.width = 4) (hs sh : BitVec 8) :
    bridgeTrained s hs sh =
      trafficResumes (failuresCleared (bridgeEvent (bridgeEvent (lanesShown s brUp4 hs.toNat sh.toNat) HS_BRSTAT_NARROWED)
        HS_BRSTAT_RETRAINED)) := by
  unfold bridgeTrained
  simp only [width, if_true]
  rfl

theorem lanesShown_shows (s : State) {state : Nat} (known : state < 8) (hs sh : BitVec 8) :
    bridgeState (lanesShown s state hs.toNat sh.toNat) = state ∧
      getF (lanesShown s state hs.toNat sh.toNat) HS_BRSTAT_LANES_HS = hs.toNat ∧
      getF (lanesShown s state hs.toNat sh.toNat) HS_BRSTAT_LANES_SH = sh.toNat := by
  unfold bridgeState lanesShown
  refine ⟨?_, ?_, ?_⟩
  · rw [getF_setF_ne _ _ _ _ (by decide) (by decide) (by decide), getF_setF_ne _ _ _ _ (by decide) (by decide) (by decide),
      getF_setF_same _ _ _ (by decide)]
    exact Nat.mod_eq_of_lt known
  · rw [getF_setF_ne _ _ _ _ (by decide) (by decide) (by decide), getF_setF_same _ _ _ (by decide)]
    exact Nat.mod_eq_of_lt hs.isLt
  · rw [getF_setF_same _ _ _ (by decide)]
    exact Nat.mod_eq_of_lt sh.isLt

section

variable {s : State} (training : bridgeState s = brTraining ∨ bridgeState s = brRetraining)

include training

theorem execBridgeTrainingDone_training (on : scanOn s = true) (ok : Bool) (hs sh : BitVec 8) :
    exec (.bridgeTrainingDone ok hs sh) s = .next (afterTraining (trainingDone s ok hs sh)) := by
  have runs : trainingRuns s = true := by
    unfold trainingRuns
    rcases training with state | state <;> rw [state] <;> rfl
  refine (whenScan_on on fun s => if trainingRuns s then afterTraining (trainingDone s ok hs sh) else s).trans ?_
  rw [if_pos runs]

/-- A training under way is one that can end. -/
theorem training_ends (first : Bool) : (bridgeState s != brTraining && bridgeState s != brRetraining && !first) = false := by
  rcases training with state | state <;> rw [state] <;> rfl

/-- A training that succeeds, on four lanes of each direction where 4 are under training. -/
theorem trainingDone_ok {hs sh : BitVec 8} (lanes : s.bridge.width = 4 → (fourLanes hs && fourLanes sh) = true) :
    trainingDone s true hs sh = bridgeTrained (trainingSettled s) hs sh := by
  have accepted : ¬ ((true && decide (s.bridge.width = 4) && !(fourLanes hs && fourLanes sh)) = true) := by
    intro refused
    simp only [Bool.true_and, Bool.and_eq_true, decide_eq_true_eq, Bool.not_eq_true'] at refused
    rw [lanes refused.1] at refused
    exact Bool.noConfusion refused.2
  unfold trainingDone
  dsimp only
  rw [training_ends training, if_neg Bool.false_ne_true, if_neg accepted, if_pos rfl]
  rfl

/-- A training that fails: it is tried again, at 4 lanes after the second failure at 8, or the bridge enters DOWN (R50). -/
theorem trainingDone_failed (hs sh : BitVec 8) :
    trainingDone s false hs sh =
      if s.bridge.failures + 1 < 2 && (s.bridge.width = 4 || flag s HS_BRCTL_ALLOW4) then
        setF { s with bridge := { s.bridge with trainAfterReset := false, failures := s.bridge.failures + 1 } }
          HS_BRSTAT_STATE brTraining
      else if s.bridge.width = 8 && flag s HS_BRCTL_ALLOW4 then
        setF { s with bridge := { s.bridge with trainAfterReset := false, failures := 0, width := 4 } }
          HS_BRSTAT_STATE brTraining
      else bridgeGoesDown (trainingSettled s) false := by
  unfold trainingDone
  dsimp only
  rw [training_ends training, if_neg Bool.false_ne_true, Bool.false_and, Bool.false_and, if_neg Bool.false_ne_true,
    if_neg Bool.false_ne_true]
  rfl

/-- The answer to a training that succeeds, from what the bridge's events leave. -/
theorem trainingDone_up {hs sh : BitVec 8} {e : State} (on : scanOn s = true) (idle : NothingWaits s)
    (done : trainingDone s true hs sh = trafficResumes (failuresCleared e)) (same : bystanders e = bystanders s)
    (up : bridgeState e = brUp8 ∨ bridgeState e = brUp4) :
    ∃ t, exec (.bridgeTrainingDone true hs sh) s = .next t ∧ (∀ f, Shows f → getF t f = getF e f) ∧
      (e.bridge.toScan.replay ≠ [] ∨ e.bridge.toHouse.replay ≠ [] → getF t HS_BRSTAT_REPLAYED = 1) := by
  let t := trafficResumes (failuresCleared e)
  have shown : ∀ f, Shows f → getF t f = getF e f := fun f shows => trafficResumes_shows (failuresCleared e) shows
  have state : bridgeState t = bridgeState e := shown _ (by decide)
  have isUp : bridgeUp t = true := by
    unfold bridgeUp
    rw [state]
    rcases up with h | h <;> rw [h] <;> rfl
  have notDown : bridgeDown t = false := by
    unfold bridgeDown
    rw [state]
    rcases up with h | h <;> rw [h] <;> rfl
  have only := reloadDecoders_only notDown
  have still : bystanders (reloadDecoders t) = bystanders s :=
    only.bystanders.trans ((trafficResumes_bystanders (failuresCleared e)).trans same)
  refine ⟨reloadDecoders t, ?_, fun f shows => (only.getF f).trans (shown f shows), fun replay => ?_⟩
  · rw [execBridgeTrainingDone_training training on, done, afterTraining, if_pos isUp, sourceGoesOn_idle (idle.congr still)]
  · exact (only.getF _).trans (trafficResumes_replayed (s := failuresCleared e) replay)

theorem trainingDone_eight_answers {hs sh : BitVec 8} (on : scanOn s = true) (idle : NothingWaits s)
    (width : s.bridge.width = 8) :
    Answers (.bridgeTrainingDone true hs sh) s fun t =>
      bridgeState t = brUp8 ∧ getF t HS_BRSTAT_LANES_HS = 0xFF ∧ getF t HS_BRSTAT_LANES_SH = 0xFF ∧
      getF t HS_BRSTAT_RETRAINED = 1 ∧
      (s.bridge.toScan.replay ≠ [] ∨ s.bridge.toHouse.replay ≠ [] → getF t HS_BRSTAT_REPLAYED = 1) := by
  let shown := lanesShown (trainingSettled s) brUp8 0xFF 0xFF
  let e := bridgeEvent shown HS_BRSTAT_RETRAINED
  have done : trainingDone s true hs sh = trafficResumes (failuresCleared e) :=
    (trainingDone_ok training (by omega)).trans (bridgeTrained_eight (s := trainingSettled s) width hs sh)
  obtain ⟨state, laneHs, laneSh⟩ := lanesShown_shows (trainingSettled s) (state := brUp8) (by decide) 0xFF 0xFF
  have other : ∀ f, Shows f → HS_BRSTAT_RETRAINED.apart f → getF e f = getF shown f := fun f shows apart =>
    bridgeEvent_other shown shows.1 (by decide) shows.2.1 apart
  have bridge : e.bridge = (trainingSettled s).bridge := bridgeEvent_bridge shown HS_BRSTAT_RETRAINED
  obtain ⟨t, run, kept, replay⟩ := trainingDone_up training on idle done (bystanders_bridgeEvent shown _)
    (.inl ((other HS_BRSTAT_STATE (by decide) (by decide)).trans state))
  have field : ∀ f, Shows f → HS_BRSTAT_RETRAINED.apart f → getF t f = getF shown f := fun f shows apart =>
    (kept f shows).trans (other f shows apart)
  refine ⟨t, run, (field HS_BRSTAT_STATE (by decide) (by decide)).trans state,
    (field _ (by decide) (by decide)).trans laneHs, (field _ (by decide) (by decide)).trans laneSh,
    (kept _ (by decide)).trans (bridgeEvent_own shown rfl rfl (by decide)), fun h => replay ?_⟩
  rw [bridge]
  exact h

theorem trainingDone_four_answers {hs sh : BitVec 8} (on : scanOn s = true) (idle : NothingWaits s)
    (width : s.bridge.width = 4) (lanesHs : fourLanes hs = true) (lanesSh : fourLanes sh = true) :
    Answers (.bridgeTrainingDone true hs sh) s fun t =>
      bridgeState t = brUp4 ∧ getF t HS_BRSTAT_LANES_HS = hs.toNat ∧ getF t HS_BRSTAT_LANES_SH = sh.toNat ∧
      getF t HS_BRSTAT_RETRAINED = 1 ∧ getF t HS_BRSTAT_NARROWED = 1 := by
  let shown := lanesShown (trainingSettled s) brUp4 hs.toNat sh.toNat
  let narrowed := bridgeEvent shown HS_BRSTAT_NARROWED
  let e := bridgeEvent narrowed HS_BRSTAT_RETRAINED
  have done : trainingDone s true hs sh = trafficResumes (failuresCleared e) :=
    (trainingDone_ok training fun _ => by rw [lanesHs, lanesSh]; rfl).trans
      (bridgeTrained_four (s := trainingSettled s) width hs sh)
  obtain ⟨state, laneHs, laneSh⟩ := lanesShown_shows (trainingSettled s) (state := brUp4) (by decide) hs sh
  have late : ∀ f, Shows f → HS_BRSTAT_RETRAINED.apart f → getF e f = getF narrowed f := fun f shows apart =>
    bridgeEvent_other narrowed shows.1 (by decide) shows.2.1 apart
  have other : ∀ f, Shows f → HS_BRSTAT_RETRAINED.apart f → HS_BRSTAT_NARROWED.apart f → getF e f = getF shown f :=
    fun f shows apart apart' =>
      (late f shows apart).trans (bridgeEvent_other shown shows.1 (by decide) shows.2.1 apart')
  have same : bystanders e = bystanders s := (bystanders_bridgeEvent narrowed _).trans (bystanders_bridgeEvent shown _)
  obtain ⟨t, run, kept, -⟩ := trainingDone_up training on idle done same
    (.inr ((other HS_BRSTAT_STATE (by decide) (by decide) (by decide)).trans state))
  have field : ∀ f, Shows f → HS_BRSTAT_RETRAINED.apart f → HS_BRSTAT_NARROWED.apart f → getF t f = getF shown f :=
    fun f shows apart apart' => (kept f shows).trans (other f shows apart apart')
  exact ⟨t, run, (field HS_BRSTAT_STATE (by decide) (by decide) (by decide)).trans state,
    (field _ (by decide) (by decide) (by decide)).trans laneHs, (field _ (by decide) (by decide) (by decide)).trans laneSh,
    (kept _ (by decide)).trans (bridgeEvent_own narrowed rfl rfl (by decide)),
    (kept _ (by decide)).trans ((late _ (by decide) (by decide)).trans (bridgeEvent_own shown rfl rfl (by decide)))⟩

/-- While a training is tried again nothing goes on. -/
theorem trainingDone_again {hs sh : BitVec 8} {u : State} (on : scanOn s = true)
    (done : trainingDone s false hs sh = setF u HS_BRSTAT_STATE brTraining) :
    Answers (.bridgeTrainingDone false hs sh) s fun t => bridgeState t = brTraining ∧ t.bridge = u.bridge := by
  have state : bridgeState (setF u HS_BRSTAT_STATE brTraining) = brTraining := getF_setF_same _ _ _ (by decide)
  have notUp : bridgeUp (setF u HS_BRSTAT_STATE brTraining) = false := by
    unfold bridgeUp
    rw [state]
    rfl
  refine ⟨_, ?_, state, rfl⟩
  rw [execBridgeTrainingDone_training training on, done, afterTraining, notUp, if_neg Bool.false_ne_true, state,
    if_neg (by decide)]

theorem trainingDone_narrows_answers {hs sh : BitVec 8} (on : scanOn s = true) (width : s.bridge.width = 8)
    (allow : getF s HS_BRCTL_ALLOW4 = 1) :
    Answers (.bridgeTrainingDone false hs sh) s fun t =>
      bridgeState t = brTraining ∧ (t.bridge.failures, t.bridge.width) = if s.bridge.failures = 0 then (1, 8) else (0, 4) := by
  have four : flag s HS_BRCTL_ALLOW4 = true := by rw [flag, allow]; rfl
  have failed := trainingDone_failed training hs sh
  rw [four, width] at failed
  by_cases first : s.bridge.failures = 0
  · rw [if_pos (by rw [first]; rfl)] at failed
    obtain ⟨t, run, state, bridge⟩ := trainingDone_again training on failed
    refine ⟨t, run, state, ?_⟩
    rw [bridge, if_pos first, ← width, first]
  · rw [if_neg (by simp [first]), if_pos (by decide)] at failed
    obtain ⟨t, run, state, bridge⟩ := trainingDone_again training on failed
    refine ⟨t, run, state, ?_⟩
    rw [bridge, if_neg first]

theorem trainingDone_retries_answers {hs sh : BitVec 8} (on : scanOn s = true) (width : s.bridge.width = 4)
    (first : s.bridge.failures = 0) :
    Answers (.bridgeTrainingDone false hs sh) s fun t =>
      bridgeState t = brTraining ∧ t.bridge.failures = 1 ∧ t.bridge.width = 4 := by
  have failed := trainingDone_failed training hs sh
  rw [if_pos (by rw [first, width]; rfl)] at failed
  obtain ⟨t, run, state, bridge⟩ := trainingDone_again training on failed
  exact ⟨t, run, state, by rw [bridge, first], by rw [bridge, width]⟩

end

/-! ### The bridge enters DOWN -/

theorem bystanders_reportFault (s : State) (bit : Nat) : bystanders (reportFault s bit) = bystanders s := by
  unfold reportFault
  split
  · rfl
  · exact (bystanders_raiseEvent _ 61 SC_TWREL_FAULTEV).trans rfl

/-- The report of a fatal fault reaches SC_TWREL alone (R465). -/
theorem reportFault_regWord (s : State) (bit : Nat) {k : Nat} (other : k ≠ SC_TWREL) :
    regWord (reportFault s bit) k = regWord s k := by
  unfold reportFault
  split
  · rfl
  · exact (raiseBits_regWord _ 61 SC_TWREL_FAULTEV 1 k (.inl rfl) other).trans (regWord_setF_ne _ _ _ _ other)

/-- A module that is not twinned reports a fatal fault and does no more (R455). -/
theorem fatalFault_single {s : State} (single : s.twin.latched = false) (bit : Nat) : fatalFault s bit = reportFault s bit := by
  have twin : (reportFault s bit).twin = s.twin := congrArg (·.2.2) (bystanders_reportFault s bit)
  unfold fatalFault
  dsimp only
  rw [twin, single, Bool.false_and, if_neg Bool.false_ne_true]

theorem bridgeGoesDown_event (s : State) : getF (bridgeGoesDown s false) HS_BRSTAT_DOWNEV = 1 := by
  obtain ⟨b, down⟩ := bridgeGoesDown_eq s
  rw [down]
  exact bridgeEvent_own _ rfl rfl (by decide)

theorem trainingDone_down_answers {s : State} {hs sh : BitVec 8}
    (training : bridgeState s = brTraining ∨ bridgeState s = brRetraining) (on : scanOn s = true) (idle : NothingWaits s)
    (single : s.twin.latched = false)
    (last : (s.bridge.width = 4 ∧ 1 ≤ s.bridge.failures) ∨ (s.bridge.width = 8 ∧ getF s HS_BRCTL_ALLOW4 = 0)) :
    Answers (.bridgeTrainingDone false hs sh) s fun t => bridgeState t = brDown ∧ getF t HS_BRSTAT_DOWNEV = 1 := by
  let d := bridgeGoesDown (trainingSettled s) false
  have done : trainingDone s false hs sh = d := by
    have failed := trainingDone_failed training hs sh
    rcases last with ⟨width, failures⟩ | ⟨width, allow⟩
    · have second : ¬ s.bridge.failures + 1 < 2 := by omega
      rwa [decide_eq_false second, Bool.false_and, if_neg Bool.false_ne_true, width, if_neg (by simp)] at failed
    · have none : flag s HS_BRCTL_ALLOW4 = false := by rw [flag, allow]; rfl
      rwa [none, width, if_neg (by simp), if_neg (by simp)] at failed
  have state : bridgeState d = brDown := bridgeGoesDown_state _ _
  have notUp : bridgeUp d = false := by
    unfold bridgeUp
    rw [state]
    rfl
  have same : bystanders d = bystanders s := bystanders_bridgeGoesDown (trainingSettled s)
  have twin : d.twin = s.twin := congrArg (·.2.2) same
  have field : ∀ f : Fld, f.addr = HS_BRSTAT → getF (reportFault d 2) f = getF d f := fun f own =>
    getF_congr (reportFault_regWord d 2 (by rw [own]; decide))
  refine ⟨reportFault d 2, ?_, (field _ rfl).trans state, (field _ rfl).trans (bridgeGoesDown_event _)⟩
  rw [execBridgeTrainingDone_training training on, done, afterTraining, notUp, if_neg Bool.false_ne_true, if_pos state,
    fatalFault_single (by rw [twin, single]), sourceGoesOn_idle (idle.congr ((bystanders_reportFault d 2).trans same))]

/-- Settles O33: each clause by its start of a training or by its end. -/
theorem bridgeTraining : Obligations.BridgeTraining := by
  unfold Obligations.BridgeTraining
  intro s src val cause hs sh on idle
  refine ⟨fun up => ?_, fun down powered => ?_, fun up fault => bridgeFault_answers on up fault,
    fun training width => trainingDone_eight_answers training on idle width,
    fun training width lanesHs lanesSh => trainingDone_four_answers training on idle width lanesHs lanesSh,
    fun training width allow => trainingDone_narrows_answers training on width allow,
    fun training width first => trainingDone_retries_answers training on width first,
    fun training single last => trainingDone_down_answers training on idle single last⟩
  · have answers := bridgeRetrain_answers (src := src) (val := val) on (by rw [up, Bool.true_or])
    rwa [if_pos up] at answers
  · have answers := bridgeRetrain_answers (src := src) (val := val) on (by rw [down, powered]; simp)
    have notUp : bridgeUp s = false := by
      unfold bridgeUp
      rw [down]
      rfl
    rwa [notUp, if_neg Bool.false_ne_true] at answers

end Sys2Proof.Machine
end

section
/-! SUPPORT. What a report of the scan die leaves, and how a register of the scan die is written field by field. -/

namespace Sys2Proof.Machine

/-! ### Reports of the scan die -/

/-- From `s` to `t` the scan die reports: registers at the addresses `as` may change, and edges and records are on their way to the
house die or held (R357, R358, R578). -/
structure Reported (as : List Nat) (s t : State) : Prop where
  rest : { t with regs := s.regs, hic := s.hic, recorder := s.recorder, bridge := s.bridge } = s
  regs : ∀ k, k ∉ as → regWord t k = regWord s k

namespace Reported

variable {as : List Nat} {s₀ s t u : State}

theorem refl (as : List Nat) (s : State) : Reported as s s := ⟨rfl, fun _ _ => rfl⟩

theorem trans (h : Reported as s t) (k : Reported as t u) : Reported as s u := by
  have both : { u with regs := s.regs, hic := s.hic, recorder := s.recorder, bridge := s.bridge } =
      { t with regs := s.regs, hic := s.hic, recorder := s.recorder, bridge := s.bridge } :=
    congrArg (fun x : State => { x with regs := s.regs, hic := s.hic, recorder := s.recorder, bridge := s.bridge }) k.rest
  exact ⟨both.trans h.rest, fun a ha => (k.regs a ha).trans (h.regs a ha)⟩

/-- What sees none of the parts in which reports stand is kept. -/
theorem view {α : Type} (h : Reported as s t) (f : State → α)
    (blind : ∀ x r i c b, f { x with regs := r, hic := i, recorder := c, bridge := b } = f x) : f t = f s := by
  rw [← blind t s.regs s.hic s.recorder s.bridge, h.rest]

theorem getF (h : Reported as s t) {f : Fld} (other : f.addr ∉ as) : getF t f = getF s f := getF_congr (h.regs _ other)

theorem setRegWord (h : Reported as s₀ s) {a : Nat} (own : a ∈ as) (w : Word) : Reported as s₀ (setRegWord s a w) :=
  h.trans ⟨rfl, fun _ other => regWord_setRegWord_ne _ _ _ _ fun e => other (e ▸ own)⟩

theorem setF (h : Reported as s₀ s) {f : Fld} (own : f.addr ∈ as) (v : Nat) : Reported as s₀ (setF s f v) := h.setRegWord own _

theorem countF (h : Reported as s₀ s) {f : Fld} (own : f.addr ∈ as) (n : Nat) : Reported as s₀ (countF s f n) := h.setF own _

theorem orF (h : Reported as s₀ s) {f : Fld} (own : f.addr ∈ as) (n : Nat) : Reported as s₀ (orF s f n) := h.setF own _

theorem sendToHouse (h : Reported as s₀ s) (m : Msg) : Reported as s₀ (sendToHouse s m) := by
  refine h.trans ⟨?_, fun k _ => sendToHouse_regWord s m k⟩
  exact (sendToHouse_only s m).view (fun x => { x with regs := s.regs, hic := s.hic, recorder := s.recorder, bridge := s.bridge })
    fun _ _ => rfl

theorem pulse (h : Reported as s₀ s) {n : Nat} (scan : isScanSource n = true) : Reported as s₀ (pulse s n) := by
  unfold Machine.pulse
  rw [if_pos scan]
  split
  · exact h.trans ⟨rfl, fun _ _ => rfl⟩
  · exact h.sendToHouse _

/-- Beyond the event bits there is the edge at most. -/
theorem raiseBits_orF (s : State) {n : Nat} (scan : isScanSource n = true) (f : Fld) (bits : Nat) :
    Reported [] (Machine.orF s f bits) (raiseBits s n f bits) := by
  unfold raiseBits
  dsimp only
  split
  · exact (refl [] _).pulse scan
  · exact refl [] _

theorem raiseEvent (h : Reported as s₀ s) {n : Nat} {f : Fld} (scan : isScanSource n = true) (own : f.addr ∈ as) :
    Reported as s₀ (raiseEvent s n f) := by
  have edge := raiseBits_orF s scan f 1
  exact (h.orF own 1).trans ⟨edge.rest, fun k _ => edge.regs k List.not_mem_nil⟩

theorem recordScan (h : Reported as s₀ s) (cls : RecClass) (code p0 p1 p2 p3 : Nat) :
    Reported as s₀ (recordScan s cls code p0 p1 p2 p3) := by
  unfold Machine.recordScan
  dsimp only
  split
  · exact h.trans ⟨rfl, fun _ _ => rfl⟩
  · exact h.sendToHouse _

end Reported

/-- An event of a scan source changes no register but that of its bit. -/
theorem raiseEvent_regWord (s : State) {n : Nat} (scan : isScanSource n = true) (f : Fld) (k : Nat) :
    regWord (raiseEvent s n f) k = regWord (orF s f 1) k :=
  (Reported.raiseBits_orF s scan f 1).regs k List.not_mem_nil

/-- The bit of an event reads 1. -/
theorem getF_raiseEvent_same (s : State) {n : Nat} (scan : isScanSource n = true) {f : Fld} (bit : f.hi = f.lo) (fits : f.fits) :
    getF (raiseEvent s n f) f = 1 := by
  have one : f.hi + 1 - f.lo = 1 := by omega
  have low := getF_lt s f fits
  rw [getF_congr (raiseEvent_regWord s scan f _), getF_orF_same _ _ _ fits (by rw [one]; decide)]
  rw [one] at low
  interval_cases getF s f <;> rfl

/-- Every field apart from the bit of an event stays. -/
theorem getF_raiseEvent_ne (s : State) {n : Nat} (scan : isScanSource n = true) {f g : Fld} (fitsF : f.fits) (fits : g.fits)
    (apart : f.apart g) : getF (raiseEvent s n f) g = getF s g := by
  rw [getF_congr (raiseEvent_regWord s scan f _), getF_orF_ne _ _ _ _ fitsF fits apart]

theorem recordScan_regWord (s : State) (cls : RecClass) (code p0 p1 p2 p3 k : Nat) :
    regWord (recordScan s cls code p0 p1 p2 p3) k = regWord s k :=
  ((Reported.refl [] s).recordScan cls code p0 p1 p2 p3).regs k List.not_mem_nil

/-! ### A write of a scan register by its fields -/

/-- A row that writes a scan register without scene fields answers with its write. -/
theorem rowWrite_scan {s : State} {src : Src} {a : Nat} {w : Word} (on : scanOn s = true) (scan : isScanAddr a = true)
    (other : isSceneAddr a = false) : rowWrite s src a w = .next (regWrite s src a w) := by
  unfold rowWrite
  rw [if_pos scan, whenScan_on on, creditScene_other other]

/-- A present register of the scan die whose write goes field by field. -/
theorem regWrite_byFields {s : State} {src : Src} {a : Nat} {w : Word} {r : RegSpec} {idx : List Nat}
    (spec : regSpecAt a = some (r, idx)) (scan : isScanAddr a = true) (present : registerPresent s.variant r idx = true)
    (early : r.hook ≠ .hsRsvwr) (special : specialWrite s src r idx a w = none) :
    let written := writeWord s.variant r.fields (regWord s a) w
    regWrite s src a w =
      countOnce s (afterScanWrite s (countIf (setRegWord s a written.1) written.2) src r.hook (idx.headD 0) w) := by
  have far : ∀ {b}, isScanAddr b = false → a ≠ b := by
    rintro b house rfl
    rw [scan] at house
    cases house
  have pad : isPadBlock a = false := by
    simp only [isScanAddr, decide_eq_true_eq] at scan
    simp only [isPadBlock, Bool.and_eq_false_iff, decide_eq_false_iff_not]
    omega
  have lock : breakLockSequence s src a = s := by rw [breakLockSequence, pad, if_neg Bool.false_ne_true]
  intro written
  have fields : writeFields s r idx a w = countIf (setRegWord s a written.1) written.2 := writeFields_present present
  simp only [regWrite, far (b := HS_ODFWANS) rfl, far (b := HS_ODCTL) rfl, if_false, decide_false, Bool.false_and,
    Bool.false_eq_true, regWriteBase, spec, present, if_true, writeRegister, beforeWrite_other early, lock, ite_self, special,
    fields, scan]

end Sys2Proof.Machine
end

section
/-! SUPPORT. The beam position as two registers (R96). -/

namespace Sys2Proof.Machine

/-- A write leaves the word of a register that no field of it takes, and is not counted where the fields name every bit. -/
theorem writeWord_readOnly {fs : List FieldSpec} (ro : ∀ f ∈ fs, f.access = .ro) (whole : ~~~ namedBits fs = 0) (v : Variant)
    (old w : Word) : writeWord v fs old w = (old, false) := by
  have fields : ∀ (l : List FieldSpec) (acc : Word × Bool), (∀ f ∈ l, f.access = .ro) → l.foldl (writeField v old w) acc = acc := by
    intro l acc h
    induction l with
    | nil => rfl
    | cons f l ih =>
      obtain ⟨head, tail⟩ := List.forall_mem_cons.mp h
      have one : writeField v old w acc f = acc := by simp only [writeField, head]
      rw [List.foldl_cons, one, ih tail]
  have all := fields fs (old, false) ro
  unfold writeWord
  dsimp only
  rw [all, whole]
  simp

/-- A write of a read-only register of the scan die that does nothing beyond its fields changes no register. -/
theorem regWrite_readOnly {s : State} {src : Src} {a : Nat} {w : Word} {r : RegSpec} {idx : List Nat}
    (spec : regSpecAt a = some (r, idx)) (scan : isScanAddr a = true) (presence : r.presence = .always)
    (hook : r.hook = .beamPosLo ∨ r.hook = .none) (ro : ∀ f ∈ r.fields, f.access = .ro) (whole : ~~~ namedBits r.fields = 0)
    (k : Nat) : regWord (regWrite s src a w) k = regWord s k := by
  have special : specialWrite s src r idx a w = none := by rcases hook with hook | hook <;> simp only [specialWrite, hook]
  have idle : ∀ b v, afterScanWrite b v src r.hook (idx.headD 0) w = v := fun b v => by
    rcases hook with hook | hook <;> simp only [afterScanWrite, hook]
  have count : ∀ x, regWord x HS_RSVWR = regWord s HS_RSVWR → countOnce s x = x := fun x same => by
    refine countOnce_same ?_
    rw [getF_congr (f := HS_RSVWR_COUNT) same]
    exact Nat.le_succ _
  rw [regWrite_byFields spec scan (by simp [registerPresent, presence]) (by rcases hook with hook | hook <;> rw [hook] <;> decide)
    special, writeWord_readOnly ro whole, idle]
  show regWord (countOnce s (setRegWord s a (regWord s a))) k = _
  rw [count _ (setRegWord_self _ _ _), setRegWord_self]

theorem regSpecAt_beamposLo : ∃ r, regSpecAt SC_BEAMPOS_LO = some (r, []) ∧ r.presence = .always ∧ r.copies = .one ∧
    r.hook = .beamPosLo ∧ (∀ f ∈ r.fields, f.access = .ro) ∧ ~~~ namedBits r.fields = 0 :=
  ⟨_, rfl, rfl, rfl, rfl, by decide, by decide⟩

theorem regSpecAt_beamposHi : ∃ r, regSpecAt SC_BEAMPOS_HI = some (r, []) ∧ r.presence = .always ∧ r.copies = .one ∧
    r.hook = .none ∧ (∀ f ∈ r.fields, f.access = .ro) ∧ ~~~ namedBits r.fields = 0 :=
  ⟨_, rfl, rfl, rfl, rfl, by decide, by decide⟩

theorem regRead_beamposLo (s : State) (src : Src) : regRead s src SC_BEAMPOS_LO = beamPosRead s := by
  obtain ⟨r, spec, presence, copies, hook, -, -⟩ := regSpecAt_beamposLo
  simp [regRead, spec, registerPresent, presence, copies, hook, hookRead]

theorem regRead_beamposHi (s : State) (src : Src) : regRead s src SC_BEAMPOS_HI = (s, regWord s SC_BEAMPOS_HI) := by
  obtain ⟨r, spec, presence, copies, hook, -, -⟩ := regSpecAt_beamposHi
  simp [regRead, spec, registerPresent, presence, copies, hook, hookRead]

/-- Settles O37: a read of LO answers and leaves what `beamPosRead` gives, HI reads as it stands, and no field of either takes a
write. -/
theorem beamPosition : Obligations.BeamPosition := by
  unfold Obligations.BeamPosition
  refine ⟨fun s src on => ⟨(beamPosRead s).1, ?_, regRead_beamposLo s src, ?_⟩, regRead_beamposHi, ?_, rfl, rfl⟩
  · show whenScan s (fun s => (regRead s src SC_BEAMPOS_LO).1) = _
    rw [whenScan_on on, regRead_beamposLo]
  · rw [regRead_beamposHi, beamPosRead, regWord_setRegWord_same]
  · rintro s src a w (rfl | rfl) k
    · obtain ⟨r, spec, presence, -, hook, ro, whole⟩ := regSpecAt_beamposLo
      exact regWrite_readOnly spec rfl presence (.inl hook) ro whole k
    · obtain ⟨r, spec, presence, -, hook, ro, whole⟩ := regSpecAt_beamposHi
      exact regWrite_readOnly spec rfl presence (.inr hook) ro whole k

end Sys2Proof.Machine
end

section
/-! SUPPORT. How the beam block changes state: what it stops as it leaves the running states, and its entries (R72 to R79, R94,
R95). -/

namespace Sys2Proof.Machine

/-! ### What the beam's stop leaves -/

/-- A register of the beam block. -/
abbrev isBeamRegister (k : Nat) : Prop := 0x210000 ≤ k ∧ k < 0x220000

/-- From `s` to `t` composition and the registers of the beam block stay. -/
structure LeavesBeam (s t : State) : Prop where
  comp : t.comp = s.comp
  regs : ∀ k, isBeamRegister k → regWord t k = regWord s k

/-! The steps of a release (R253, R447, R456). -/

/-- The ports are tri-stated, and a boundary release clears CLAIM. -/
def claimDropped (s : State) : State :=
  let u := setF (setF s SC_OWNSTAT_DRIVING 0) SC_OWNSTAT_STATE ownReleased
  if s.drive.clearsClaim then setF u SC_OWNCTL_CLAIM 0 else u

/-- Nothing of the release waits any more. -/
def harnessIdle (s : State) : State :=
  { s with
    drive := { s.drive with releaseAtSlot := false, clearsClaim := false, withdrawn := none, withdrawnHigh := false, ownA := false },
    twin := { s.twin with failed := s.twin.failed || s.twin.failAtRelease, failAtRelease := false } }

/-- The former active sets its own CLAIM again. -/
def claimRearmed (s : State) : State :=
  if rearms s then setF { s with twin := { s.twin with rearm := false } } SC_OWNCTL_CLAIM 1 else s

/-- A release, step by step. -/
def releaseEnds (s : State) : State :=
  let u := claimRearmed (harnessIdle (claimDropped s))
  if flag u SC_OWNCTL_CLAIM then claimHarness u else u

theorem released_eq (s : State) : released s = releaseEnds s := rfl

namespace LeavesBeam

variable {s₀ s t u : State}

theorem refl (s : State) : LeavesBeam s s := ⟨rfl, fun _ _ => rfl⟩

theorem trans (h : LeavesBeam s t) (k : LeavesBeam t u) : LeavesBeam s u :=
  ⟨k.comp.trans h.comp, fun a ha => (k.regs a ha).trans (h.regs a ha)⟩

theorem setF (h : LeavesBeam s₀ s) {f : Fld} (away : ¬ isBeamRegister f.addr) (v : Nat) : LeavesBeam s₀ (setF s f v) :=
  h.trans ⟨rfl, fun _ own => regWord_setF_ne _ _ _ _ fun e => away (e ▸ own)⟩

theorem drive (h : LeavesBeam s₀ s) (x : Drive) : LeavesBeam s₀ { s with drive := x } := h.trans ⟨rfl, fun _ _ => rfl⟩

theorem twin (h : LeavesBeam s₀ s) (x : Twin) : LeavesBeam s₀ { s with twin := x } := h.trans ⟨rfl, fun _ _ => rfl⟩

theorem quiet (h : LeavesBeam s₀ s) (k : Quiet s t) : LeavesBeam s₀ t := by
  refine h.trans ⟨k.view (·.comp) fun _ => rfl, fun a own => k.regs a ?_⟩
  have scan : isScanAddr a = true := by
    simp only [isScanAddr, decide_eq_true_eq]
    omega
  simp [lasting, scan]

theorem reported {as : List Nat} (h : Reported as s t) (away : ∀ a ∈ as, ¬ isBeamRegister a) : LeavesBeam s t :=
  ⟨h.view (·.comp) fun _ _ _ _ _ => rfl, fun k own => h.regs k fun among => away k among own⟩

theorem claimHarness (h : LeavesBeam s₀ s) : LeavesBeam s₀ (claimHarness s) := by
  have waits := (h.setF (f := SC_OWNSTAT_STATE) (by decide) ownWaiting).drive { s.drive with withdrawn := none, withdrawnHigh := false }
  unfold Machine.claimHarness
  dsimp only
  split
  · exact waits
  · exact ((waits.setF (f := SC_OWNSTAT_STATE) (by decide) ownClaiming).drive _).drive _

theorem releaseEnds (h : LeavesBeam s₀ s) : LeavesBeam s₀ (releaseEnds s) := by
  have cleared : LeavesBeam s₀ (claimDropped s) := by
    have down := (h.setF (f := SC_OWNSTAT_DRIVING) (by decide) 0).setF (f := SC_OWNSTAT_STATE) (by decide) ownReleased
    unfold claimDropped
    split
    · exact down.setF (by decide) 0
    · exact down
  have idle : LeavesBeam s₀ (harnessIdle (claimDropped s)) := cleared.trans ⟨rfl, fun _ _ => rfl⟩
  have again : LeavesBeam s₀ (claimRearmed (harnessIdle (claimDropped s))) := by
    unfold claimRearmed
    split
    · exact (idle.twin _).setF (by decide) 1
    · exact idle
  unfold Machine.releaseEnds
  dsimp only
  split
  · exact again.claimHarness
  · exact again

theorem slotBoundary (h : LeavesBeam s₀ s) : LeavesBeam s₀ (slotBoundary s) := by
  unfold Machine.slotBoundary driveIfHolding
  split
  · rw [released_eq]
    exact h.releaseEnds
  split
  · exact h.setF (by decide) 1
  · exact h

/-- A paced copy ends with its error (R291). -/
theorem copyBeamLost (h : LeavesBeam s₀ s) : LeavesBeam s₀ (copyBeamLost s) := by
  have fails : ∀ n, LeavesBeam s (copyFails s n) := fun n => by
    have ended := ((Reported.refl [CPY_STAT, CPY_CNT] { s with copier := none }).setF (f := CPY_STAT_BUSY) (by decide) 0).setF
      (f := CPY_STAT_ERR) (by decide) n
    have told := (ended.countF (f := CPY_CNT_ERRS) (by decide) 1).raiseEvent (n := 63) (f := CPY_STAT_ERREV) rfl (by decide)
    have onlyReports : LeavesBeam { s with copier := none } (copyFails s n) := reported told (by decide)
    exact ⟨onlyReports.comp, onlyReports.regs⟩
  unfold Machine.copyBeamLost
  split
  · exact h
  split
  · exact h.trans (fails 5)
  · exact h

theorem beamDark (h : LeavesBeam s₀ s) : LeavesBeam s₀ (beamDark s) := (h.setF (f := SC_PGSTAT_ACTIVE) (by decide) 0).slotBoundary

end LeavesBeam

/-- The pass in hand is dropped, with what composition holds back (R259, R600). -/
def passDropped (s : State) : State :=
  { s with
    beam := { s.beam with stops := s.beam.stops + 1 },
    comp := { s.comp with composing := none, nextPass := none, linesDone := [] },
    trestle := { s.trestle with heldBack := false, composeHeld := none } }

theorem beamStops_leaves (s : State) : LeavesBeam (passDropped s) (beamStops s) :=
  ((LeavesBeam.refl _).beamDark.copyBeamLost).quiet ((Quiet.refl _).releaseLineHolds)

/-! ### Entries -/

/-- What a fresh start of acquisition leaves: the registers of the beam block but the status. -/
theorem beamForget_regWord (s : State) {k : Nat} (other : k ≠ SC_BEAMSTAT) : regWord (beamForget s) k = regWord s k := by
  have ne : ∀ (u : State) (f : Fld) (v : Nat), f.addr = SC_BEAMSTAT → regWord (setF u f v) k = regWord u k := fun u f v own =>
    regWord_setF_ne u f v k (by rw [own]; exact other)
  unfold beamForget unfollow noSource
  rw [ne _ _ _ rfl, ne _ _ _ rfl, ne _ _ _ rfl, ne _ _ _ rfl]
  rfl

/-- The beam block enters OFF or ACQUIRE (R74). -/
def beamRestarts (s : State) (state : Nat) : State := setF (beamForget (beamStops s)) SC_BEAMSTAT_STATE state

/-- OFF and ACQUIRE start with no anchor, no count towards a lock and no pass in hand; the set-up stays. -/
theorem beamRestarts_enters (s : State) {state : Nat} (code : state < 8) :
    beamState (beamRestarts s state) = state ∧ (beamRestarts s state).beam.source = none ∧ (beamRestarts s state).beam.goodRun = 0 ∧
      (beamRestarts s state).comp.composing = none ∧
      ∀ k, isBeamRegister k → k ≠ SC_BEAMSTAT → regWord (beamRestarts s state) k = regWord s k := by
  have stops := beamStops_leaves s
  refine ⟨?_, rfl, rfl, ?_, fun k own other => ?_⟩
  · exact (getF_setF_same _ _ _ (by decide)).trans (Nat.mod_eq_of_lt code)
  · exact congrArg (·.composing) stops.comp
  · exact (regWord_setF_ne _ _ _ _ other).trans ((beamForget_regWord _ other).trans (stops.regs k own))

theorem enterAcquire_eq (s : State) : enterAcquire s = beamRestarts s bmAcquire := rfl

/-! ### Writes of the set-up -/

/-- A field of one bit as a truth value. -/
theorem flag_eq_decide (s : State) {f : Fld} (bit : f.hi = f.lo) (fits : f.fits) : flag s f = decide (getF s f = 1) := by
  have low := getF_lt s f fits
  rw [show f.hi + 1 - f.lo = 1 by omega] at low
  unfold flag
  interval_cases getF s f <;> rfl

theorem countOnce_beam (s x : State) : (countOnce s x).beam = x.beam := by
  unfold countOnce
  dsimp only
  split <;> rfl

theorem countOnce_comp (s x : State) : (countOnce s x).comp = x.comp := by
  unfold countOnce
  dsimp only
  split <;> rfl

theorem countOnce_getF (s x : State) {f : Fld} (other : f.addr ≠ HS_RSVWR) : getF (countOnce s x) f = getF x f :=
  getF_congr (countOnce_regWord other)

theorem regSpecAt_beamCtl : ∃ r, regSpecAt SC_BEAMCTL = some (r, []) ∧ r.presence = .always ∧ r.hook = .beamCtl ∧
    ∃ g ∈ r.fields, g.hi = 0 ∧ g.lo = 0 ∧ g.access = .rw ∧ g.allow = .any :=
  ⟨_, rfl, rfl, rfl, ⟨"EN", 0, 0, .rw, 0, .any⟩, by decide, rfl, rfl, rfl, rfl⟩

theorem regSpecAt_beamPer : ∃ r, regSpecAt SC_BEAMPER = some (r, []) ∧ r.presence = .always ∧ r.hook = .beamFormat ∧
    r.fields = [⟨"TICKS", 31, 8, .rw, 0, .any⟩, ⟨"TFRAC", 7, 0, .rw, 0, .any⟩] :=
  ⟨_, rfl, rfl, rfl, rfl⟩

theorem regSpecAt_beamFmt : ∃ r, regSpecAt SC_BEAMFMT = some (r, []) ∧ r.presence = .always ∧ r.hook = .beamFormat ∧
    r.fields = [⟨"BLANK", 28, 16, .rw, 0, .range 0 4096⟩, ⟨"ACTIVE", 15, 0, .rw, 0, .any⟩] :=
  ⟨_, rfl, rfl, rfl, rfl⟩

/-- A write of SC_BEAMCTL stores EN as written, and then acts. -/
theorem regWrite_beamCtl (s : State) (src : Src) (w : Word) :
    ∃ x, getF x SC_BEAMCTL_EN = bitsOf w 0 0 ∧
      regWrite s src SC_BEAMCTL w = countOnce s (beamCtlWritten x (flag s SC_BEAMCTL_EN) (anchorRole s) w) := by
  obtain ⟨r, spec, presence, hook, g, among, hi, lo, access, allow⟩ := regSpecAt_beamCtl
  have special : specialWrite s src r [] SC_BEAMCTL w = none := by simp only [specialWrite, hook]
  have write := regWrite_byFields spec rfl (by simp [registerPresent, presence]) (by rw [hook]; decide) special
  have field := writeWord_field (v := s.variant) (regSpecAt_ok spec) (regWord s SC_BEAMCTL) w g among
  simp only [hi, lo, fieldAfter, access, allow, allowed, if_true] at field
  refine ⟨_, ?_, by rw [write]; simp only [afterScanWrite, hook]; rfl⟩
  unfold getF
  rw [countIf_regWord (by decide), show SC_BEAMCTL_EN.addr = SC_BEAMCTL from rfl, regWord_setRegWord_same]
  exact field

/-- What such a write does turns on EN, before and as written, and on REACQ (R73, R94). -/
theorem beamCtlWritten_eq (x : State) (was : Bool) (role : Nat) (w : Word) :
    ∃ v, getF v SC_BEAMCTL_EN = getF x SC_BEAMCTL_EN ∧ beamCtlWritten x was role w =
      if was && !flag x SC_BEAMCTL_EN then enterOff v
      else if flag x SC_BEAMCTL_EN && (!was || bitsOf w 1 1 = 1) then enterAcquire v else v := by
  let c := if bitsOf w 3 3 = 1 then clearBeacnt x else x
  let v := if anchorRole c = role then c else unfollow c
  have cleared : regWord c SC_BEAMCTL = regWord x SC_BEAMCTL := by
    show regWord (if _ then _ else _) _ = _
    split
    · exact regWord_setRegWord_ne _ _ _ _ (by decide)
    · rfl
  have kept : regWord v SC_BEAMCTL = regWord x SC_BEAMCTL := by
    rw [← cleared]
    show regWord (if _ then _ else _) _ = _
    split
    · rfl
    · unfold unfollow noSource
      rw [regWord_setF_ne' rfl (by decide), regWord_setF_ne' rfl (by decide), regWord_setF_ne' rfl (by decide),
        regWord_setF_ne' rfl (by decide)]
      rfl
  have en : getF v SC_BEAMCTL_EN = getF x SC_BEAMCTL_EN := getF_congr kept
  refine ⟨v, en, ?_⟩
  rw [flag, ← en]
  rfl

/-- A write that leaves EN 1 and sets it, or has REACQ, enters ACQUIRE (R94). -/
theorem rowWrite_beamCtl_acquire {s : State} {src : Src} {w : Word} (on : scanOn s = true) (en : w.getLsbD 0 = true)
    (starts : getF s SC_BEAMCTL_EN = 0 ∨ w.getLsbD 1 = true) :
    ∃ t, rowWrite s src SC_BEAMCTL w = .next t ∧ beamState t = bmAcquire ∧ getF t SC_BEAMCTL_EN = 1 ∧ t.beam.source = none ∧
      t.beam.goodRun = 0 := by
  obtain ⟨x, stored, write⟩ := regWrite_beamCtl s src w
  obtain ⟨v, kept, acts⟩ := beamCtlWritten_eq x (flag s SC_BEAMCTL_EN) (anchorRole s) w
  have one : getF x SC_BEAMCTL_EN = 1 := by rw [stored, bitsOf_bit w (by decide), en, if_pos rfl]
  have on' : flag x SC_BEAMCTL_EN = true := by rw [flag, one]; rfl
  have again : (!flag s SC_BEAMCTL_EN || decide (bitsOf w 1 1 = 1)) = true := by
    rcases starts with off | reacq
    · rw [flag, off]; rfl
    · rw [bitsOf_bit w (by decide), reacq]; simp
  rw [on', again, Bool.not_true, Bool.and_false, if_neg Bool.false_ne_true, Bool.and_true, if_pos rfl] at acts
  obtain ⟨state, source, run, -, regs⟩ := beamRestarts_enters v (state := bmAcquire) (by decide)
  refine ⟨_, rowWrite_scan on rfl rfl, ?_⟩
  rw [write, acts, enterAcquire_eq, countOnce_beam]
  refine ⟨(countOnce_getF _ _ (by decide)).trans state, ?_, source, run⟩
  rw [countOnce_getF _ _ (by decide), ← one, ← kept]
  exact getF_congr (regs _ (by decide) (by decide))

/-- A write that takes EN from 1 to 0 enters OFF (R94). -/
theorem rowWrite_beamCtl_off {s : State} {src : Src} {w : Word} (on : scanOn s = true) (was : getF s SC_BEAMCTL_EN = 1)
    (en : w.getLsbD 0 = false) :
    ∃ t, rowWrite s src SC_BEAMCTL w = .next t ∧ beamState t = bmOff ∧ getF t SC_BEAMCTL_EN = 0 ∧ t.comp.composing = none := by
  obtain ⟨x, stored, write⟩ := regWrite_beamCtl s src w
  obtain ⟨v, kept, acts⟩ := beamCtlWritten_eq x (flag s SC_BEAMCTL_EN) (anchorRole s) w
  have zero : getF x SC_BEAMCTL_EN = 0 := by rw [stored, bitsOf_bit w (by decide), en]; rfl
  rw [flag, flag, was, zero] at acts
  obtain ⟨state, -, -, composing, regs⟩ := beamRestarts_enters v (state := bmOff) (by decide)
  have off : beamCtlWritten x (flag s SC_BEAMCTL_EN) (anchorRole s) w = beamRestarts v bmOff := by
    rw [flag, was]
    exact acts
  refine ⟨_, rowWrite_scan on rfl rfl, ?_⟩
  rw [write, off, countOnce_comp]
  refine ⟨(countOnce_getF _ _ (by decide)).trans state, ?_, composing⟩
  rw [countOnce_getF _ _ (by decide), ← zero, ← kept]
  exact getF_congr (regs _ (by decide) (by decide))

/-- A write of the format stores its fields, and the beam acquires anew where EN = 1 (R95). -/
theorem beamFormatWrite_answers {s : State} {src : Src} {a : Nat} {val : Word} {r : RegSpec} (on : scanOn s = true)
    (format : a = SC_BEAMPER ∨ a = SC_BEAMFMT) (spec : regSpecAt a = some (r, [])) (presence : r.presence = .always)
    (hook : r.hook = .beamFormat) :
    ∃ t, rowWrite s src a val = .next t ∧ regWord t a = (writeWord s.variant r.fields (regWord s a) val).1 ∧
      beamState t = if getF s SC_BEAMCTL_EN = 1 then bmAcquire else beamState s := by
  have special : specialWrite s src r [] a val = none := by simp only [specialWrite, hook]
  have scan : isScanAddr a = true := by rcases format with rfl | rfl <;> rfl
  have other : isSceneAddr a = false := by rcases format with rfl | rfl <;> rfl
  have apart : a ≠ SC_BEAMCTL ∧ a ≠ SC_BEAMSTAT ∧ a ≠ HS_RSVWR ∧ isBeamRegister a := by rcases format with rfl | rfl <;> decide
  obtain ⟨ctl, stat, rsv, own⟩ := apart
  have write := regWrite_byFields (src := src) (w := val) spec scan (by simp [registerPresent, presence]) (by rw [hook]; decide) special
  dsimp only at write
  generalize stored : writeWord s.variant r.fields (regWord s a) val = word at write ⊢
  let x := countIf (setRegWord s a word.1) word.2
  let v : State := { x with bridge := { x.bridge with lastLine := frameLines x - 1 } }
  have value : regWord v a = word.1 := (countIf_regWord rsv).trans (regWord_setRegWord_same _ _ _)
  have kept : ∀ k, k ≠ a → k ≠ HS_RSVWR → regWord v k = regWord s k := fun k ne noCount =>
    (countIf_regWord noCount).trans (regWord_setRegWord_ne _ _ _ _ ne)
  have en : flag v SC_BEAMCTL_EN = decide (getF s SC_BEAMCTL_EN = 1) := by
    rw [flag_eq_decide _ rfl (by decide), getF_congr (kept _ ctl.symm (by decide))]
  have acts : afterScanWrite s x src r.hook 0 val = if getF s SC_BEAMCTL_EN = 1 then beamRestarts v bmAcquire else v := by
    simp only [hook, afterScanWrite]
    show (if flag v SC_BEAMCTL_EN = true then _ else v) = _
    rw [en]
    simp only [decide_eq_true_eq]
    rfl
  obtain ⟨state, -, -, -, regs⟩ := beamRestarts_enters v (state := bmAcquire) (by decide)
  refine ⟨_, rowWrite_scan on scan other, ?_⟩
  rw [write]
  show regWord (countOnce s (afterScanWrite s x src r.hook 0 val)) a = _ ∧ beamState (countOnce s (afterScanWrite s x src r.hook 0 val)) = _
  rw [acts, countOnce_regWord rsv, beamState, countOnce_getF _ _ (by decide)]
  split
  · exact ⟨(regs a own stat).trans value, state⟩
  · exact ⟨value, getF_congr (kept _ stat.symm (by decide))⟩

/-- Two fields that fill a register take a whole word. -/
theorem writeWord_whole (v : Variant) (old w : Word) (n m : String) :
    (writeWord v [⟨n, 31, 8, .rw, 0, .any⟩, ⟨m, 7, 0, .rw, 0, .any⟩] old w).1 = w := by
  show putBits (putBits old 31 8 (bitsOf w 31 8)) 7 0 (bitsOf w 7 0) = w
  apply BitVec.eq_of_getLsbD_eq
  intro i hi
  rw [putBits_getLsbD _ _ _ _ _ (by decide) (by decide), putBits_getLsbD _ _ _ _ _ (by decide) (by decide)]
  split
  · rw [bitsOf_testBit _ _ _ _ (by decide) (by decide)]
    simp_all
  · rw [if_pos (by omega), bitsOf_testBit _ _ _ _ (by decide) (by decide), Nat.sub_add_cancel (by omega)]
    simp
    omega

/-! ### Events of the beam, and a change of anchor -/

theorem recordBeam_regWord (s : State) (k : Nat) : regWord (recordBeam s) k = regWord s k := recordScan_regWord _ _ _ _ _ _ _ _

/-- An event of the beam sets its bit and leaves the state. -/
theorem beamEvent_shows (s : State) {f : Fld} (bit : f.hi = f.lo) (fits : f.fits)
    (apart : f.apart SC_BEAMSTAT_STATE) :
    beamState (raiseEvent s 48 f) = beamState s ∧ getF (raiseEvent s 48 f) f = 1 :=
  ⟨getF_raiseEvent_ne s rfl fits (by decide) apart, getF_raiseEvent_same s rfl bit fits⟩

theorem enterHoldover_shows (s : State) : beamState (enterHoldover s) = bmHoldover ∧ getF (enterHoldover s) SC_BEAMSTAT_HOLDEV = 1 := by
  let u := setF s SC_BEAMSTAT_STATE bmHoldover
  let v : State := { u with beam := { u.beam with goodRun := 0, holdTicks := 0 } }
  obtain ⟨state, event⟩ := beamEvent_shows v (f := SC_BEAMSTAT_HOLDEV) rfl (by decide) (by decide)
  refine ⟨?_, (getF_congr (recordBeam_regWord _ _)).trans event⟩
  rw [← show beamState v = bmHoldover from getF_setF_same s SC_BEAMSTAT_STATE bmHoldover (by decide), ← state]
  exact getF_congr (recordBeam_regWord _ _)

theorem enterFree_shows {s : State} (holdover : beamState s = bmHoldover) :
    beamState (enterFree s) = bmFree ∧ getF (enterFree s) SC_BEAMSTAT_FREEEV = 1 := by
  let u := setF s SC_BEAMSTAT_STATE bmFree
  have enters : enterFree s = recordBeam (raiseEvent u 48 SC_BEAMSTAT_FREEEV) := by
    rw [enterFree, holdover]
    rfl
  obtain ⟨state, event⟩ := beamEvent_shows u (f := SC_BEAMSTAT_FREEEV) rfl (by decide) (by decide)
  rw [enters]
  refine ⟨?_, (getF_congr (recordBeam_regWord _ _)).trans event⟩
  rw [← show beamState u = bmFree from getF_setF_same s SC_BEAMSTAT_STATE bmFree (by decide), ← state]
  exact getF_congr (recordBeam_regWord _ _)

theorem b2n_mod (b : Bool) : b2n b % 2 = b2n b := by cases b <;> rfl

/-- What the status register shows of the followed anchor (R73, R79, R97). -/
theorem noteSource_shows (s : State) (anchor hops state : Nat) :
    getF (noteSource s anchor hops state) SC_BEAMSTAT_HOPS = min 255 (hops + 1) ∧
      getF (noteSource s anchor hops state) SC_BEAMSTAT_FARHOP = b2n (decide (160 < hops + 1)) ∧
      getF (noteSource s anchor hops state) SC_BEAMSTAT_SRCALT = b2n (decide (anchor = 2)) ∧
      (state < 3 → getF (noteSource s anchor hops state) SC_BEAMSTAT_SRCSTATE = state) := by
  have width : SC_BEAMSTAT_HOPS.hi + 1 - SC_BEAMSTAT_HOPS.lo = 8 ∧ SC_BEAMSTAT_FARHOP.hi + 1 - SC_BEAMSTAT_FARHOP.lo = 1 ∧
      SC_BEAMSTAT_SRCALT.hi + 1 - SC_BEAMSTAT_SRCALT.lo = 1 ∧ SC_BEAMSTAT_SRCSTATE.hi + 1 - SC_BEAMSTAT_SRCSTATE.lo = 2 := by
    decide
  obtain ⟨hopsWidth, farWidth, altWidth, stateWidth⟩ := width
  have least : min (hops + 1) 255 % 2 ^ 8 = min 255 (hops + 1) := by omega
  by_cases named : state < 3
  · have fits : state % 2 ^ 2 = state := Nat.mod_eq_of_lt (by omega)
    simp (disch := decide) only [noteSource, named, if_true, getF_setF_ne, getF_setF_same, hopsWidth, farWidth, altWidth,
      stateWidth, least, fits, Nat.pow_one, b2n_mod, and_self, implies_true]
  · simp (disch := decide) only [noteSource, named, if_false, getF_setF_ne, getF_setF_same, hopsWidth, farWidth, altWidth, least,
      Nat.pow_one, b2n_mod, and_self, false_implies]

theorem noteSource_beam (s : State) (anchor hops state : Nat) : (noteSource s anchor hops state).beam = s.beam := by
  unfold noteSource
  dsimp only
  split <;> rfl

/-- The primary falls silent where the secondary is heard: the module follows the secondary (R72, R79). -/
theorem anchorChange_secondary {s : State} {h : Heard} (source : s.beam.source = some 1) (heard : heardLately s 2 = some h) :
    anchorChange s =
      noteSource (useAnchor { s with beam := { s.beam with heardPrimary := none } } 2) 2 h.hops h.state := by
  unfold anchorChange
  rw [source]
  dsimp only
  rw [heard]
  rfl

/-- Settles O38: each clause by its write, its event or its change of anchor. -/
theorem beamStates : Obligations.BeamStates := by
  unfold Obligations.BeamStates
  intro s src val h on
  refine ⟨fun off en => ?_, fun was en => ?_, fun en => ?_, ?_, ?_, fun locked follower => ?_, fun holdover => ?_,
    fun source heard => ?_⟩
  · obtain ⟨t, run, state, ctl, none', -⟩ := rowWrite_beamCtl_acquire (src := src) on en (.inl off)
    exact ⟨t, run, state, ctl, none'⟩
  · obtain ⟨t, run, state, ctl, composing⟩ := rowWrite_beamCtl_off (src := src) on was en
    exact ⟨t, run, state, ctl, composing⟩
  · have bits : ∀ i < 32, (withOnes val SC_BEAMCTL_REACQ).getLsbD i = (val.getLsbD i || decide (i = 1)) := fun i hi => by
      rw [withOnes, BitVec.getLsbD_or, fieldMask_getLsbD _ _ _ (by decide) (by decide)]
      rw [← Bool.decide_and, decide_eq_decide.mpr (show SC_BEAMCTL_REACQ.lo ≤ i ∧ i ≤ SC_BEAMCTL_REACQ.hi ↔ i = 1 from ?_)]
      exact (and_comm.trans Nat.le_antisymm_iff.symm)
    obtain ⟨t, run, state, ctl, -, good⟩ := rowWrite_beamCtl_acquire (src := src) (w := withOnes val SC_BEAMCTL_REACQ) on
      (by rw [bits 0 (by decide), en]; rfl) (.inr (by rw [bits 1 (by decide)]; simp))
    exact ⟨t, run, state, ctl, good⟩
  · obtain ⟨r, spec, presence, hook, fields⟩ := regSpecAt_beamPer
    obtain ⟨t, run, word, state⟩ := beamFormatWrite_answers (src := src) (val := val) on (.inl rfl) spec presence hook
    rw [fields, writeWord_whole] at word
    exact ⟨t, run, word, state⟩
  · obtain ⟨r, spec, presence, hook, fields⟩ := regSpecAt_beamFmt
    obtain ⟨t, run, word, state⟩ := beamFormatWrite_answers (src := src) (val := val) on (.inr rfl) spec presence hook
    have field := writeWord_field (v := s.variant) (regSpecAt_ok spec) (regWord s SC_BEAMFMT) val
    refine ⟨t, run, ?_, ?_, state⟩
    · have active := field ⟨"ACTIVE", 15, 0, .rw, 0, .any⟩ (by rw [fields]; decide)
      rw [← word] at active
      simp only [fieldAfter, allowed, if_true] at active
      exact active
    · have blank := field ⟨"BLANK", 28, 16, .rw, 0, .range 0 4096⟩ (by rw [fields]; decide)
      rw [← word] at blank
      simp only [fieldAfter, allowed, Nat.zero_le, decide_true, Bool.true_and, decide_eq_true_eq] at blank
      exact blank
  · refine ⟨enterHoldover s, (whenScan_on on _).trans (congrArg _ ?_), enterHoldover_shows s⟩
    rw [holdoverEntry, locked, follower]
    rfl
  · exact ⟨enterFree s, whenScan_on on _, enterFree_shows holdover⟩
  · have shown := noteSource_shows (useAnchor { s with beam := { s.beam with heardPrimary := none } } 2) 2 h.hops h.state
    obtain ⟨hops, far, alt, state⟩ := shown
    refine ⟨_, (whenScan_on on _).trans (congrArg _ (anchorChange_secondary source heard)), ?_, ?_, hops, alt, ?_, state⟩
    · rw [noteSource_beam]
      rfl
    · rw [noteSource_beam]
      rfl
    · rw [far, b2n]
      simp

end Sys2Proof.Machine
end

section
/-! SUPPORT. What the beam passes: frame starts, watermarks, and a counter that moves on to a position (R57, R65, R93). -/

namespace Sys2Proof.Machine

/-! ### The counter moves on -/

/-- The counter's move to a position changes the beam alone. -/
theorem beamAdvanceTo_beamOnly (s : State) (frame : Word) (fracs : Int) : ∃ b, beamAdvanceTo s frame fracs = { s with beam := b } := by
  unfold beamAdvanceTo
  split
  · exact ⟨s.beam, rfl⟩
  · exact ⟨_, rfl⟩

/-- A position of the frame at hand keeps its frame. -/
theorem normalize_within {s : State} {frame : Word} {f : Nat} (within : f < frameFracs s) :
    normalize s frame (f : Int) = (frame, f / 256, f % 256) := by
  have whole : (f : Int) / (frameFracs s : Int) = 0 := Int.ediv_eq_zero_of_lt (Int.natCast_nonneg f) (Int.ofNat_lt.mpr within)
  have part : (f : Int) % (frameFracs s : Int) = f := Int.emod_eq_of_lt (Int.natCast_nonneg f) (Int.ofNat_lt.mpr within)
  have none' : frame + BitVec.ofInt 32 0 = frame := BitVec.add_zero frame
  unfold normalize
  dsimp only
  rw [whole, part, none']
  refine Prod.ext rfl (Prod.ext ?_ ?_) <;> dsimp only <;> omega

/-- A position of the frame at hand is reached once the counter has moved to it, and the marks of its watermarks stay. -/
theorem beamAdvanceTo_within {s : State} {f : Nat} (within : f < frameFracs s) :
    ∃ b, beamAdvanceTo s s.beam.frame (f : Int) = { s with beam := b } ∧ b.fired = s.beam.fired ∧
      beamReached { s with beam := b } s.beam.frame (f : Int) = true := by
  unfold beamAdvanceTo
  split
  · next reached => exact ⟨s.beam, rfl, rfl, reached⟩
  · rw [normalize_within within]
    dsimp only
    rw [if_pos rfl]
    refine ⟨_, rfl, rfl, ?_⟩
    have zero : frameDiff s.beam.frame s.beam.frame = 0 := by rw [frameDiff, BitVec.sub_self]; rfl
    unfold beamReached fracsTo beamFracs
    dsimp only
    rw [zero, decide_eq_true_eq]
    omega

/-! ### Watermarks -/

theorem watermarkFracs_some {s : State} {n f : Nat} (h : watermarkFracs s n = some f) (small : n < 4) :
    getF s (SC_BEAMWM_EN n) = 1 ∧ f < frameFracs s := by
  have fits : ∀ n < 4, (SC_BEAMWM_EN n).fits ∧ (SC_BEAMWM_FRAC n).fits ∧ (SC_BEAMWM_EN n).hi = (SC_BEAMWM_EN n).lo ∧
      (SC_BEAMWM_FRAC n).hi + 1 - (SC_BEAMWM_FRAC n).lo = 8 := by decide
  obtain ⟨enFits, fracFits, bit, width⟩ := fits n small
  have frac := getF_lt s _ fracFits
  rw [width] at frac
  unfold watermarkFracs at h
  split at h
  · next ok =>
    rw [Bool.and_eq_true, decide_eq_true_eq, flag_eq_decide _ bit enFits, decide_eq_true_eq] at ok
    obtain ⟨en, line⟩ := ok
    cases h
    unfold frameFracs
    omega
  · cases h

/-- A message that leaves depends on the bridge and its state alone. -/
theorem sendToHouse_bridge {s t : State} (bridge : t.bridge = s.bridge) (up : bridgeUp t = bridgeUp s) (m : Msg) :
    (sendToHouse t m).bridge = (sendToHouse s m).bridge := by
  unfold sendToHouse drainToHouse
  show State.bridge (if bridgeUp t = true then _ else _) = State.bridge (if bridgeUp s = true then _ else _)
  rw [up]
  dsimp only
  rw [bridge]
  split <;> rfl

/-- A watermark that fires is marked, and with ONCE loses its EN (R93). -/
theorem fireWatermark_shows (u : State) (n : Fin 4) (en : getF u (SC_BEAMWM_EN n.val) = 1) :
    ∃ w, fireWatermark u n.val = pulse w (49 + n.val) ∧ w.beam = { u.beam with fired := u.beam.fired.setIfInBounds n.val true } ∧
      w.hic = u.hic ∧ w.bridge = u.bridge ∧ (∀ k, k ≠ SC_BEAMWM n.val → regWord w k = regWord u k) ∧
      getF w (SC_BEAMWM_EN n.val) = if getF u (SC_BEAMWM_ONCE n.val) = 1 then 0 else 1 := by
  have fields : ∀ n : Fin 4, (SC_BEAMWM_EN n.val).fits ∧ (SC_BEAMWM_ONCE n.val).fits ∧
      (SC_BEAMWM_ONCE n.val).hi = (SC_BEAMWM_ONCE n.val).lo := by decide
  obtain ⟨enFits, onceFits, bit⟩ := fields n
  have once : flag (setFired u n.val true) (SC_BEAMWM_ONCE n.val) = decide (getF u (SC_BEAMWM_ONCE n.val) = 1) :=
    flag_eq_decide _ bit onceFits
  refine ⟨_, rfl, ?_⟩
  rw [once]
  simp only [decide_eq_true_eq]
  split
  · refine ⟨rfl, rfl, rfl, fun k other => regWord_setF_ne _ _ _ _ other, ?_⟩
    rw [getF_setF_same _ _ _ enFits, Nat.zero_mod]
  · exact ⟨rfl, rfl, rfl, fun _ _ => rfl, en⟩

theorem watermarkFire_answers {s : State} {n : Fin 4} {f : Nat} (on : scanOn s = true) (position : watermarkFracs s n.val = some f)
    (runs : beamState s ≠ bmOff) (fresh : watermarkFired s n.val = false) :
    Answers (.watermarkFire n) s fun t =>
      watermarkFired t n.val = true ∧ beamReached t s.beam.frame f = true ∧
      getF t (SC_BEAMWM_EN n.val) = (if getF s (SC_BEAMWM_ONCE n.val) = 1 then 0 else 1) ∧
      (if bridgeDown s then t.hic.scanHeld = s.hic.scanHeld ++ [49 + n.val]
       else t.bridge = (sendToHouse s (.edge (49 + n.val))).bridge) := by
  obtain ⟨en, within⟩ := watermarkFracs_some position n.isLt
  obtain ⟨b, moved, marks, reached⟩ := beamAdvanceTo_within within
  let u : State := { s with beam := b }
  obtain ⟨w, fires, beam, hic, bridge, regs, cleared⟩ := fireWatermark_shows u n en
  have scans : ∀ n : Fin 4, isScanSource (49 + n.val) = true := by decide
  have scan := scans n
  have edge := (Reported.refl [] w).pulse scan
  have sameBeam : (pulse w (49 + n.val)).beam = w.beam := edge.view (·.beam) fun _ _ _ _ _ => rfl
  have word : ∀ k, k ≠ SC_BEAMWM n.val → regWord (pulse w (49 + n.val)) k = regWord s k := fun k other =>
    (edge.regs k List.not_mem_nil).trans (regs k other)
  have addresses : ∀ n : Fin 4, SC_BEAMFMT ≠ SC_BEAMWM n.val ∧ HS_BRSTAT ≠ SC_BEAMWM n.val := by decide
  obtain ⟨format, status⟩ := addresses n
  have down : bridgeDown w = bridgeDown s := bridgeDown_congr (regs _ status)
  have up : bridgeUp w = bridgeUp s := by
    unfold bridgeUp bridgeState
    rw [getF_congr (f := HS_BRSTAT_STATE) (regs _ status)]
    rfl
  have run : watermarkFire s n.val = pulse w (49 + n.val) := by
    rw [← fires, watermarkFire, position]
    dsimp only
    rw [if_neg (by simp [runs, fresh]), moved]
  refine ⟨_, (whenScan_on on fun s => watermarkFire s n.val).trans (congrArg _ run), ?_, ?_, ?_, ?_⟩
  · rw [watermarkFired, sameBeam, beam]
    simp
  · have fracs : frameFracs (pulse w (49 + n.val)) = frameFracs s := by
      unfold frameFracs frameLines activeLines blankLines
      rw [getF_congr (f := SC_BEAMFMT_ACTIVE) (word _ format), getF_congr (f := SC_BEAMFMT_BLANK) (word _ format)]
    rw [← reached]
    unfold beamReached fracsTo beamFracs
    rw [fracs, sameBeam, beam]
    rfl
  · exact (edge.getF List.not_mem_nil).trans cleared
  · unfold pulse
    rw [if_pos scan, down]
    split
    · rw [hic]
    · exact sendToHouse_bridge (s := s) bridge up _

/-! ### Frame starts -/

theorem compareEpochs_beam (s : State) : (compareEpochs s).beam = s.beam := by
  unfold compareEpochs
  split
  · rfl
  split
  · rfl
  split
  · dsimp only
    split <;> rfl
  · rfl

theorem d96Check_beam (s : State) : (d96Check s).beam = s.beam := by
  have event : ∀ x, (raiseEvent x 163 AU_STAT_CLKEV).beam = x.beam := fun x =>
    ((Quiet.refl x).raiseEvent rfl rfl).view (·.beam) fun _ => rfl
  unfold d96Check
  dsimp only
  split
  · rw [event]
    split <;> rfl
  · split <;> rfl

theorem d96Frame_beam (s : State) : (d96Frame s).beam = s.beam := by
  rw [← d96Check_beam s]
  unfold d96Frame
  dsimp only
  split
  · rfl
  split
  · rfl
  split <;> rfl

/-- Where no beacon has told of another count, none is adopted (R65). -/
theorem takeAdopted_none {s : State} (adopt : s.beam.adopt = none) : takeAdopted s = s := by
  have zero : countAhead s = 0 := by
    rw [countAhead, adopt]
    split <;> rfl
  rw [takeAdopted, if_pos zero]

theorem frameStart_answers {s : State} {x : Beam} (on : scanOn s = true) (runs : beamState s ≠ bmOff)
    (starts : beamFrameStart s = { s with beam := x }) : Answers .frameStart s fun t => t.beam = x := by
  let start (s : State) : State := if beamState s = bmOff then s else d96Frame (compareEpochs (beamFrameStart s))
  have run : start s = d96Frame (compareEpochs { s with beam := x }) := by
    rw [← starts]
    exact if_neg runs
  exact ⟨_, (whenScan_on on start).trans (congrArg _ run), (d96Frame_beam _).trans (compareEpochs_beam _)⟩

/-- A frame start whose count a shift has not taken yet. -/
theorem beamFrameStart_next {s : State} (runs : beamState s ≠ bmOff) (adopt : s.beam.adopt = none) (begun : s.beam.begun = true) :
    beamFrameStart s = { s with beam := { s.beam with
      frame := s.beam.frame + 1, line := 0, frac := 0, rem := 0, sub := 0, fired := Vector.replicate 4 false } } := by
  rw [beamFrameStart, if_neg runs, if_pos begun]
  exact takeAdopted_none adopt

/-- A frame start that a shift has carried the counter over already. -/
theorem beamFrameStart_taken {s : State} (runs : beamState s ≠ bmOff) (adopt : s.beam.adopt = none)
    (begun : s.beam.begun = false) : beamFrameStart s = { s with beam := { s.beam with begun := true } } := by
  rw [beamFrameStart, if_neg runs, if_neg (by rw [begun]; exact Bool.false_ne_true)]
  exact takeAdopted_none adopt

/-- Settles O40: a frame start and a watermark, each by what it leaves of the beam. -/
theorem beamCrossings : Obligations.BeamCrossings := by
  unfold Obligations.BeamCrossings
  intro s n f on
  refine ⟨fun runs adopt begun => ?_, fun runs adopt begun => frameStart_answers on runs (beamFrameStart_taken runs adopt begun),
    watermarkFire_answers on⟩
  obtain ⟨t, run, beam⟩ := frameStart_answers on runs (beamFrameStart_next runs adopt begun)
  exact ⟨t, run, by rw [beam], by rw [beam], by rw [beam], by rw [beam]⟩

end Sys2Proof.Machine
end

section
/-! SUPPORT. Flips: what one line's flip instant leaves, and what the instants of several lines leave together (R80, R86, R90, R91,
R269, R279). -/

namespace Sys2Proof.Machine

theorem toList_getD_setIfInBounds {α : Type} {n : Nat} (v : Vector α n) (i j : Nat) (x d : α) :
    (v.setIfInBounds i x).toList.getD j d = if i = j ∧ j < n then x else v.toList.getD j d := by
  simp only [List.getD, Vector.toList_setIfInBounds, List.getElem?_set, Vector.length_toList]
  split
  · subst_vars
    split <;> simp_all
  · simp_all

/-! ### One line -/

/-- What a line that misses its instant leaves: its late mark with LATELINE, the banks, the other lines and CURFEED as they were
(R86). -/
theorem missFlip_leaves (s : State) (l : Nat) (frame : Word) (feed : Nat) :
    ∃ n, (missFlip s l frame feed).drive =
        { s.drive with late := (l, frame, feed) :: s.drive.late, lateEvents := n, latePass := some (frame, feed) } ∧
      getF (missFlip s l frame feed) SC_BEAMSTAT_LATELINE = 1 ∧
      getF (missFlip s l frame feed) SC_FEEDSTAT_CURFEED = getF s SC_FEEDSTAT_CURFEED := by
  let u : State := { s with drive := { s.drive with
    late := (l, frame, feed) :: s.drive.late, lateEvents := s.drive.lateEvents + 1, latePass := some (frame, feed) } }
  let v := setF u SC_BEAMSTAT_LATELINE 1
  let w := if s.drive.latePass != some (frame, feed) then raiseEvent (countF v SC_FEEDSTAT_LATEPASS 1) 62 SC_FEEDSTAT_LATEEV else v
  have counted : Reported [SC_FEEDSTAT] v w ∧ getF w SC_FEEDSTAT_CURFEED = getF v SC_FEEDSTAT_CURFEED := by
    show Reported [SC_FEEDSTAT] v (if _ then _ else _) ∧ getF (if _ then _ else _) _ = _
    split
    · refine ⟨((Reported.refl _ v).countF (by decide) 1).raiseEvent rfl (by decide), ?_⟩
      rw [getF_raiseEvent_ne _ rfl (by decide) (by decide) (by decide), getF_countF_ne _ _ _ _ (by decide) (by decide) (by decide)]
    · exact ⟨Reported.refl _ v, rfl⟩
  obtain ⟨feedReport, curfeed⟩ := counted
  have walk : Reported [SC_TRSTAT] w (missFlip s l frame feed) := by
    show Reported [SC_TRSTAT] w (if w.trestle.heldBack = true then raiseEvent w 58 SC_TRSTAT_WALKLATE else w)
    split
    · exact (Reported.refl _ w).raiseEvent rfl (by decide)
    · exact Reported.refl _ w
  refine ⟨s.drive.lateEvents + 1, ?_, ?_, ?_⟩
  · rw [walk.view (·.drive) fun _ _ _ _ _ => rfl, feedReport.view (·.drive) fun _ _ _ _ _ => rfl]
    rfl
  · rw [walk.getF (by decide), feedReport.getF (by decide), getF_setF_same _ _ _ (by decide)]
    rfl
  · rw [walk.getF (by decide), curfeed, getF_setF_ne _ _ _ _ (by decide) (by decide) (by decide)]
    rfl

/-- The state once a line's instant for a pass is noted (R80). -/
def noteInstant (s : State) (l : Nat) (frame : Word) (feed : Nat) : State :=
  { s with drive := { s.drive with flippedFor := s.drive.flippedFor.setIfInBounds l (some (frame, feed)) } }

theorem flipLine_first {s : State} {l : Nat} {frame : Word} {feed : Nat} (first : flippedAlready s l frame feed = false) :
    flipLine s frame feed l =
      if s.drive.ready.contains l then
        flipTo { s with drive := { (noteInstant s l frame feed).drive with ready := s.drive.ready.filter (· != l) } } l feed
      else missFlip (noteInstant s l frame feed) l frame feed := by
  unfold flipLine
  rw [first, if_neg Bool.false_ne_true]
  rfl

theorem frontBank_congr {s t : State} (h : t.drive.front = s.drive.front) (k : Nat) : frontBank t k = frontBank s k := by
  unfold frontBank
  rw [h]

/-- The instant of one line says nothing of another. -/
theorem flippedAlready_noted {s t : State} {l k : Nat} {frame : Word} {feed : Nat}
    (noted : t.drive.flippedFor = (noteInstant s l frame feed).drive.flippedFor) (other : k ≠ l) :
    flippedAlready t k frame feed = flippedAlready s k frame feed := by
  unfold flippedAlready
  rw [noted, noteInstant]
  dsimp only
  rw [toList_getD_setIfInBounds, if_neg fun e => other e.1.symm]

/-- The flip of a line that is complete: its bank alone turns, it is ready no more, and its pass is front (R86, R279). -/
theorem flipLine_ready {s : State} {l : Nat} {frame : Word} {feed : Nat} (first : flippedAlready s l frame feed = false)
    (ready : l ∈ s.drive.ready) :
    let t := flipLine s frame feed l
    (∀ k < 512, frontBank t k = if k = l then !frontBank s k else frontBank s k) ∧
      (∀ k, k ≠ l → (k ∈ t.drive.ready ↔ k ∈ s.drive.ready)) ∧ t.drive.late = s.drive.late ∧
      (∀ k, k ≠ l → flippedAlready t k frame feed = flippedAlready s k frame feed) ∧
      getF t SC_BEAMSTAT_LATELINE = getF s SC_BEAMSTAT_LATELINE ∧ (feed < 4 → getF t SC_FEEDSTAT_CURFEED = feed) := by
  have there : s.drive.ready.contains l = true := List.contains_iff_mem.mpr ready
  intro t
  have flips : t = _ := (flipLine_first first).trans (if_pos there)
  rw [flips]
  refine ⟨fun k small => ?_, fun k other => ?_, rfl, fun k other => flippedAlready_noted rfl other,
    getF_setF_ne _ _ _ _ (by decide) (by decide) (by decide), fun small => ?_⟩
  · show (s.drive.front.setIfInBounds l (!frontBank s l)).toList.getD k false = _
    rw [toList_getD_setIfInBounds]
    by_cases e : l = k
    · rw [if_pos ⟨e, small⟩, if_pos e.symm, e]
    · rw [if_neg fun h => e h.1, if_neg (Ne.symm e)]
      rfl
  · show k ∈ s.drive.ready.filter (· != l) ↔ _
    rw [List.mem_filter, bne_iff_ne]
    exact and_iff_left other
  · exact (getF_setF_same _ _ _ (by decide)).trans (Nat.mod_eq_of_lt small)

/-- A line that is not complete at its instant keeps its bank and is late (R86). -/
theorem flipLine_late {s : State} {l : Nat} {frame : Word} {feed : Nat} (first : flippedAlready s l frame feed = false)
    (late : l ∉ s.drive.ready) :
    let t := flipLine s frame feed l
    (∀ k, frontBank t k = frontBank s k) ∧ t.drive.ready = s.drive.ready ∧
      t.drive.late = (l, frame, feed) :: s.drive.late ∧
      (∀ k, k ≠ l → flippedAlready t k frame feed = flippedAlready s k frame feed) ∧
      getF t SC_BEAMSTAT_LATELINE = 1 ∧ getF t SC_FEEDSTAT_CURFEED = getF s SC_FEEDSTAT_CURFEED := by
  have missing : ¬ s.drive.ready.contains l = true := fun h => late (List.contains_iff_mem.mp h)
  obtain ⟨n, drive, lateline, curfeed⟩ := missFlip_leaves (noteInstant s l frame feed) l frame feed
  intro t
  have flips : t = missFlip (noteInstant s l frame feed) l frame feed := (flipLine_first first).trans (if_neg missing)
  rw [flips]
  exact ⟨frontBank_congr (by rw [drive]; rfl), by rw [drive]; rfl, by rw [drive]; rfl,
    fun k other => flippedAlready_noted (by rw [drive]) other, lateline, curfeed⟩

/-! ### Several lines -/

/-- From `s` to `t` the instants of the lines `lines` have come for a pass: those that were complete have flipped, the others are
late, and nothing is known of any other line. -/
structure Flipped (s t : State) (frame : Word) (pass : Nat) (lines : Nat → Prop) : Prop where
  turned : ∀ k < 512, lines k → k ∈ s.drive.ready → frontBank t k = !frontBank s k
  kept : ∀ k < 512, ¬ (lines k ∧ k ∈ s.drive.ready) → frontBank t k = frontBank s k
  feed : ∀ k, lines k → k ∈ s.drive.ready → getF t SC_FEEDSTAT_CURFEED = pass
  late : ∀ k, lines k → k ∉ s.drive.ready → (k, frame, pass) ∈ t.drive.late ∧ getF t SC_BEAMSTAT_LATELINE = 1
  ready : ∀ k, ¬ lines k → (k ∈ t.drive.ready ↔ k ∈ s.drive.ready)
  first : ∀ k, ¬ lines k → flippedAlready t k frame pass = flippedAlready s k frame pass

/-- A move of the beam brings no instant. -/
theorem Flipped.none (s : State) (b : Beam) (frame : Word) (pass : Nat) :
    Flipped s { s with beam := b } frame pass fun _ => False where
  turned _ _ h := h.elim
  kept _ _ _ := rfl
  feed _ h := h.elim
  late _ h := h.elim
  ready _ _ := Iff.rfl
  first _ _ := rfl

/-- One more line's instant. -/
theorem Flipped.line {s t : State} {frame : Word} {pass l : Nat} {lines : Nat → Prop} (h : Flipped s t frame pass lines)
    (small : pass < 4) (new : ¬ lines l) (fresh : flippedAlready s l frame pass = false) :
    Flipped s (flipLine t frame pass l) frame pass fun k => lines k ∨ k = l := by
  have first : flippedAlready t l frame pass = false := (h.first l new).trans fresh
  have split : ∀ k, ¬ (lines k ∨ k = l) → ¬ lines k ∧ k ≠ l := fun k => not_or.mp
  by_cases complete : l ∈ t.drive.ready
  · obtain ⟨front, ready, late, marks, lateline, feed⟩ := flipLine_ready first complete
    have was : l ∈ s.drive.ready := (h.ready l new).mp complete
    refine ⟨fun k k512 at' ok => ?_, fun k k512 not' => ?_, fun _ _ _ => feed small, fun k at' no => ?_, fun k out => ?_,
      fun k out => ?_⟩
    · rw [front k k512]
      by_cases e : k = l
      · rw [if_pos e, h.kept k k512 fun both => new (e ▸ both.1)]
      · rw [if_neg e, h.turned k k512 (at'.resolve_right e) ok]
    · have e : k ≠ l := fun e => not' ⟨.inr e, e ▸ was⟩
      rw [front k k512, if_neg e, h.kept k k512 fun both => not' ⟨.inl both.1, both.2⟩]
    · rcases at' with at' | rfl
      · rw [late, lateline]
        exact h.late k at' no
      · exact absurd was no
    · exact (ready k (split k out).2).trans (h.ready k (split k out).1)
    · exact (marks k (split k out).2).trans (h.first k (split k out).1)
  · obtain ⟨front, ready, late, marks, lateline, feed⟩ := flipLine_late first complete
    have was : l ∉ s.drive.ready := fun ok => complete ((h.ready l new).mpr ok)
    have own : ∀ k, lines k ∨ k = l → k ∈ s.drive.ready → lines k := fun k at' ok =>
      at'.resolve_right fun e => was (e ▸ ok)
    refine ⟨fun k k512 at' ok => ?_, fun k k512 not' => ?_, fun k at' ok => ?_, fun k at' no => ⟨?_, lateline⟩, fun k out => ?_,
      fun k out => ?_⟩
    · rw [front, h.turned k k512 (own k at' ok) ok]
    · rw [front, h.kept k k512 fun both => not' ⟨.inl both.1, both.2⟩]
    · rw [feed, h.feed k (own k at' ok) ok]
    · rw [late]
      rcases at' with at' | rfl
      · exact List.mem_cons_of_mem _ (h.late k at' no).1
      · exact List.mem_cons_self
    · rw [ready]
      exact h.ready k (split k out).1
    · exact (marks k (split k out).2).trans (h.first k (split k out).1)

theorem Flipped.congr {s t : State} {frame : Word} {pass : Nat} {lines others : Nat → Prop} (h : Flipped s t frame pass lines)
    (same : ∀ k, others k ↔ lines k) : Flipped s t frame pass others := by
  have e : others = lines := funext fun k => propext (same k)
  rwa [e]

/-- The instants of the first `n` lines, each the first time it comes. -/
theorem Flipped.below {s : State} (b : Beam) {frame : Word} {pass : Nat} (small : pass < 4) :
    ∀ n, (∀ k < n, flippedAlready s k frame pass = false) →
      Flipped s ((List.range n).foldl (fun s l => flipLine s frame pass l) { s with beam := b }) frame pass (· < n)
  | 0, _ => (Flipped.none s b frame pass).congr fun k => by simp
  | n + 1, fresh => by
    have before := Flipped.below b small n fun k hk => fresh k (Nat.lt_succ_of_lt hk)
    rw [List.range_succ, List.foldl_append]
    exact (before.line small (Nat.lt_irrefl n) (fresh n (Nat.lt_succ_self n))).congr fun k => by omega

/-- GLOBAL flips every line (R91, R269). -/
theorem flipAll_flipped {s : State} {a : Area} {frame : Word} {pass : Nat} {fracs : Int} (small : pass < 4)
    (fresh : ∀ k < a.h, flippedAlready s k frame pass = false) :
    Flipped s (flipAll (beamAdvanceTo s frame fracs) a frame pass) frame pass (· < a.h) := by
  obtain ⟨b, moved⟩ := beamAdvanceTo_beamOnly s frame fracs
  rw [moved]
  exact Flipped.below b small a.h fresh

/-- ROLLING flips one line (R90). -/
theorem lineFlip_flipped {s : State} {frame : Word} {l : Nat} {fracs : Int} (fresh : flippedAlready s l frame 0 = false) :
    Flipped s (flipLine (beamAdvanceTo s frame fracs) frame 0 l) frame 0 (· = l) := by
  obtain ⟨b, moved⟩ := beamAdvanceTo_beamOnly s frame fracs
  rw [moved]
  exact ((Flipped.none s b frame 0).line (by decide) id fresh).congr fun k => by simp

/-- Settles O42: the command flips the lines of its mode, and `Flipped` says what that leaves. -/
theorem flips : Obligations.Flips := by
  unfold Obligations.Flips
  intro s a frame l feed on area runs
  have reads : ∀ {t : State} {pass : Nat} {lines : Nat → Prop}, Flipped s t frame pass lines → ∀ k < 512,
      (lines k ∧ k ∈ s.drive.ready → frontBank t k = !frontBank s k ∧ getF t SC_FEEDSTAT_CURFEED = pass) ∧
        (¬ (lines k ∧ k ∈ s.drive.ready) → frontBank t k = frontBank s k) ∧
        (lines k ∧ k ∉ s.drive.ready → (k, frame, pass) ∈ t.drive.late ∧ getF t SC_BEAMSTAT_LATELINE = 1) :=
    fun h k small => ⟨fun both => ⟨h.turned k small both.1 both.2, h.feed k both.1 both.2⟩, h.kept k small,
      fun both => h.late k both.1 both.2⟩
  refine ⟨fun rolling inside fresh => ?_, fun global single fresh => ?_, fun global several inside fresh => ?_⟩
  · have run : lineFlip s frame l.toNat = flipLine (beamAdvanceTo s frame ((a.y0 + l.toNat) * 256 : Nat)) frame 0 l.toNat := by
      rw [lineFlip, area]
      exact if_neg (by simp [runs, rolling, inside])
    exact ⟨_, (whenScan_on on fun s => lineFlip s frame l.toNat).trans (congrArg _ run), reads (lineFlip_flipped fresh)⟩
  · have run : globalFlip s frame = flipAll (beamAdvanceTo s frame (flipFracs s .applied 0)) a frame 0 := by
      rw [globalFlip, area]
      exact if_neg (by simp [runs, global, single])
    exact ⟨_, (whenScan_on on fun s => globalFlip s frame).trans (congrArg _ run), reads (flipAll_flipped (by decide) fresh)⟩
  · have run : feedFlip s frame feed.toNat =
        flipAll (beamAdvanceTo s frame (flipFracs s .applied feed.toNat)) a frame feed.toNat := by
      rw [feedFlip, area]
      exact if_neg (by simp [runs, global, Nat.not_lt.mpr several, Nat.not_le.mpr inside])
    exact ⟨_, (whenScan_on on fun s => feedFlip s frame feed.toNat).trans (congrArg _ run),
      reads (flipAll_flipped feed.isLt fresh)⟩

end Sys2Proof.Machine
end

section
/-! SUPPORT. What tracks the beam: the house reference of an anchor, and beacons sent and received (R61, R62, R66, R69, R71, R74,
R75). -/

namespace Sys2Proof.Machine

/-! ### The house reference -/

/-- An anchor on its own reference, to which no frame count is being given. -/
structure OwnReference (s : State) : Prop where
  anchor : anchorRole s ≠ 0
  own : s.beam.followsOther = false
  free : s.beam.frameSet = none
  period : framePeriod s ≠ 0

theorem takeFrameSet_none {s : State} (free : s.beam.frameSet = none) : takeFrameSet s = s := by
  unfold takeFrameSet
  rw [free]

theorem enterLocked_shows (s : State) : beamState (enterLocked s) = bmLocked ∧ getF (enterLocked s) SC_BEAMSTAT_LOCKEV = 1 := by
  have locked : beamState (setF s SC_BEAMSTAT_STATE bmLocked) = bmLocked := getF_setF_same s SC_BEAMSTAT_STATE bmLocked (by decide)
  unfold enterLocked
  dsimp only
  split
  · obtain ⟨state, event⟩ := beamEvent_shows (composesFromHere _) (f := SC_BEAMSTAT_LOCKEV) rfl (by decide) (by decide)
    exact ⟨state.trans locked, event⟩
  · obtain ⟨state, event⟩ := beamEvent_shows _ (f := SC_BEAMSTAT_LOCKEV) rfl (by decide) (by decide)
    exact ⟨state.trans locked, event⟩

theorem beamMove_goodRun (s : State) (n : Int) : (beamMove s n).beam.goodRun = s.beam.goodRun := by
  unfold beamMove
  dsimp only
  split
  · rfl
  split
  · rfl
  split <;> rfl

theorem beamShift_goodRun (s : State) (d : Int) : (beamShift s d).beam.goodRun = s.beam.goodRun := beamMove_goodRun _ _

theorem notePhase_state (s : State) (e : Int) : beamState (notePhase s e) = beamState s :=
  getF_setF_ne s _ _ _ (by decide) (by decide) (by decide)

theorem notePhase_shows (s : State) (e : Int) :
    getF (notePhase s e) SC_BEAMERR_PHERR = unsignedOf 32 (clampInt (-2147483647) 2147483647 e) := by
  refine (getF_setF_same s SC_BEAMERR_PHERR _ (by decide)).trans (Nat.mod_eq_of_lt ?_)
  have small : unsignedOf 32 (clampInt (-2147483647) 2147483647 e) < 2 ^ 32 := by
    unfold unsignedOf
    omega
  exact small

theorem slewBy_state (s : State) (e : Int) : beamState (slewBy s e) = beamState s := rfl

/-- What a pulse teaches a counter that runs: the frequency, where its period is good (R62, R74). -/
def pulseLearned (s : State) (p : Nat) : State := if periodGood s p then learnReference s p else s

theorem pulseLearned_eq (s : State) (p : Nat) :
    pulseLearned s p = { s with beam := { s.beam with period := if periodGood s p then p * 65536 else s.beam.period } } := by
  unfold pulseLearned
  split <;> rfl

/-- A frame pulse of a locked anchor is slewed out. -/
theorem framePulse_slews {s : State} {p : Nat} (ref : OwnReference s) (locked : beamState s = bmLocked) :
    framePulse s p = slewBy (notePhase (pulseLearned s p) (pulseError s)) (pulseError s) := by
  obtain ⟨anchor, own, free, period⟩ := ref
  have unset : takeFrameSet (pulseLearned s p) = pulseLearned s p := takeFrameSet_none (by rw [pulseLearned_eq]; exact free)
  have error : pulseError (pulseLearned s p) = pulseError s := by rw [pulseLearned_eq]; rfl
  have state : beamState (slewBy (notePhase (pulseLearned s p) (pulseError s)) (pulseError s)) = bmLocked := by
    rw [slewBy_state, notePhase_state, pulseLearned_eq]
    exact locked
  unfold framePulse
  rw [if_neg (by simp [anchor, period, locked, bmLocked, bmOff]), own]
  dsimp only
  rw [if_neg (by decide), if_neg (by rw [locked]; decide), ← pulseLearned, unset, error, state]
  exact if_neg (by decide)

/-- What a frame pulse leaves in a locked anchor (R61, R62, R74, R75). -/
theorem framePulse_locked {s : State} {p : Nat} (ref : OwnReference s) (locked : beamState s = bmLocked) :
    (framePulse s p).beam.slew = pulseError s ∧
      getF (framePulse s p) SC_BEAMERR_PHERR = unsignedOf 32 (clampInt (-2147483647) 2147483647 (pulseError s)) ∧
      beamState (framePulse s p) = bmLocked ∧
      (framePulse s p).beam.period = if periodGood s p then p * 65536 else s.beam.period := by
  rw [framePulse_slews ref locked]
  refine ⟨rfl, notePhase_shows _ _, ?_, ?_⟩
  · rw [slewBy_state, notePhase_state, pulseLearned_eq]
    exact locked
  · rw [pulseLearned_eq]
    rfl

theorem framePulse_acquire {s : State} {p : Nat} (ref : OwnReference s) (acquire : beamState s = bmAcquire) :
    framePulse s p = acquirePulse s p := by
  obtain ⟨anchor, own, free, period⟩ := ref
  unfold framePulse
  simp [anchor, period, own, acquire]

/-- A pulse of a bad period does not lock (R62). -/
theorem framePulse_refused {s : State} {p : Nat} (ref : OwnReference s) (acquire : beamState s = bmAcquire)
    (bad : periodGood s p = false) :
    beamState (framePulse s p) = bmAcquire ∧ getF (framePulse s p) SC_BEAMSTAT_REFMIS = 1 ∧ (framePulse s p).beam.goodRun = 0 := by
  have refused : framePulse s p = setF { s with beam := { s.beam with goodRun := 0 } } SC_BEAMSTAT_REFMIS 1 := by
    rw [framePulse_acquire ref acquire, acquirePulse, bad, takeFrameSet_none ref.free]
    rfl
  rw [refused]
  exact ⟨(getF_setF_ne _ _ _ _ (by decide) (by decide) (by decide)).trans acquire, getF_setF_same _ _ _ (by decide), rfl⟩

/-- The fifth good pulse locks (R74). -/
theorem framePulse_locks {s : State} {p : Nat} (ref : OwnReference s) (acquire : beamState s = bmAcquire)
    (good : periodGood s p = true) (fourth : s.beam.goodRun = 4) (near : (pulseError s).natAbs ≤ 320) :
    beamState (framePulse s p) = bmLocked ∧ getF (framePulse s p) SC_BEAMSTAT_LOCKEV = 1 := by
  let u := beamShift (notePhase (learnReference s p) (pulseError s)) (pulseError s)
  have run : u.beam.goodRun = 4 := (beamShift_goodRun _ _).trans fourth
  have unset : takeFrameSet (learnReference s p) = learnReference s p := takeFrameSet_none ref.free
  have error : pulseError (learnReference s p) = pulseError s := rfl
  have locks : framePulse s p = enterLocked { u with beam := { u.beam with goodRun := u.beam.goodRun + 1 } } := by
    rw [framePulse_acquire ref acquire]
    simp only [acquirePulse, good, Bool.not_true, Bool.false_eq_true, if_false, fourth, OfNat.ofNat_ne_zero, unset, error, near,
      if_true]
    show countGood u 5 = _
    rw [countGood]
    exact if_pos (by dsimp only; omega)
  rw [locks]
  exact enterLocked_shows _

/-- An edge of the line clock aligns the counter, or is ignored (R61). -/
theorem lineClockEdge_own {s : State} (ref : OwnReference s) (clock : getF s SC_BEAMCTL_REFLC = 1) (runs : beamRuns s = true) :
    lineClockEdge s =
      let e := nearest (-(beamUnits s : Nat)) (256 * framePeriod s)
      if 640 * 1024 * frameLines s < e.natAbs * 25 then setF s SC_BEAMSTAT_REFMIS 1 else beamMove s e := by
  obtain ⟨anchor, own, -, period⟩ := ref
  unfold lineClockEdge
  rw [if_neg]
  simp [anchor, own, period, runs, flag, clock]

/-! ### Beacons -/

theorem originate_quiet (s : State) (p : Packet) (slot : Option (BitVec 14)) : Quiet s (originate s p slot).1 :=
  (Quiet.refl s).routePacket _ _ _

/-- An anchor's beacon takes the next number (R66, R67). -/
theorem beaconSend_numbered {s : State} {st corr : Nat} (ref : OwnReference s) (state : beaconState s = some st)
    (line : s.beam.line % 256 = 0) (up : bridgeUp s = true) : (beaconSend s corr).beam.bseq = s.beam.bseq + 1 := by
  have sends : ∃ p, beaconSend s corr = (originate { s with beam := { s.beam with bseq := s.beam.bseq + 1 } } p).1 := by
    unfold beaconSend
    rw [state]
    refine ⟨_, if_neg ?_⟩
    simp [ref.anchor, ref.own, line, up]
  obtain ⟨p, sends⟩ := sends
  rw [sends, (originate_quiet _ p none).view (·.beam) fun _ => rfl]

/-- A beacon that is refused is counted (R71). -/
theorem beaconReceive_refused {s : State} {arrival res : Nat} {x : Item} {rest : List (Nat × Item)}
    (oldest : s.weave.beacons = (arrival, x) :: rest) (refused : beaconRefused s arrival x.pkt.payload res = true) :
    beaconReceive s res = countF { s with weave := { s.weave with beacons := rest } } SC_BEACNT_DISCARD 1 := by
  unfold beaconReceive
  rw [oldest]
  exact if_pos refused

/-- A beacon for the beam block alone goes to it with its stamp (R69). -/
theorem beaconReceive_accepted {s : State} {arrival res g : Nat} {x : Item} {rest : List (Nat × Item)}
    (oldest : s.weave.beacons = (arrival, x) :: rest) (accepted : beaconRefused s arrival x.pkt.payload res = false)
    (group : groupEntry s (natBits x.pkt.dest.toNat 7 0) = some (g, [7])) :
    beaconReceive s res = issueToScan { s with weave := { s.weave with beacons := rest } }
      (.beacon (beaconFix s x.pkt.payload (getF s (WV_PORTDLY_DELAY arrival)) x.stamp)) := by
  let u : State := { s with weave := { s.weave with beacons := rest } }
  have same : groupEntry u (natBits x.pkt.dest.toNat 7 0) = some (g, [7]) := group
  have onward : [7].filter (fun p => p != arrival && p != 7) = [] := by simp
  unfold beaconReceive
  rw [oldest]
  refine (if_neg (by rw [Bool.not_eq_true]; exact accepted)).trans ?_
  by_cases single : x.pkt.dkind != 1
  · exact if_pos single
  · refine (if_neg single).trans ?_
    rw [same]
    dsimp only
    rw [onward]
    rfl

/-! ### The beam block takes a beacon -/

theorem hearBeacon_beam (s : State) (b : BeaconFix) :
    ∃ p q, hearBeacon s b = { s with beam := { s.beam with heardPrimary := p, heardSecondary := q } } := by
  unfold hearBeacon
  dsimp only
  split
  · exact ⟨_, s.beam.heardSecondary, rfl⟩
  · exact ⟨s.beam.heardPrimary, _, rfl⟩

theorem learnPeriod_leaves (s : State) (b : BeaconFix) :
    (learnPeriod s b).beam.slew = s.beam.slew ∧ (∀ k, regWord (learnPeriod s b) k = regWord s k) ∧
      bystanders (learnPeriod s b) = bystanders s := by
  unfold learnPeriod
  split
  · exact ⟨rfl, fun _ => rfl, rfl⟩
  · exact ⟨rfl, fun _ => rfl, rfl⟩

theorem noteSource_regWord (s : State) (anchor hops state : Nat) {k : Nat} (other : k ≠ SC_BEAMSTAT) :
    regWord (noteSource s anchor hops state) k = regWord s k := by
  unfold noteSource
  dsimp only
  rw [regWord_setF_ne' rfl other]
  split
  · rw [regWord_setF_ne' rfl other, regWord_setF_ne' rfl other, regWord_setF_ne' rfl other]
  · rw [regWord_setF_ne' rfl other, regWord_setF_ne' rfl other]

theorem noteSource_state (s : State) (anchor hops state : Nat) : beamState (noteSource s anchor hops state) = beamState s := by
  unfold beamState noteSource
  dsimp only
  rw [getF_setF_ne _ _ _ _ (by decide) (by decide) (by decide)]
  split
  · rw [getF_setF_ne _ _ _ _ (by decide) (by decide) (by decide), getF_setF_ne _ _ _ _ (by decide) (by decide) (by decide),
      getF_setF_ne _ _ _ _ (by decide) (by decide) (by decide)]
  · rw [getF_setF_ne _ _ _ _ (by decide) (by decide) (by decide), getF_setF_ne _ _ _ _ (by decide) (by decide) (by decide)]

theorem noteSource_bystanders (s : State) (anchor hops state : Nat) :
    bystanders (noteSource s anchor hops state) = bystanders s := by
  unfold noteSource
  dsimp only
  split <;> rfl

/-- The phase error sees the counter, its format and its period (R69). -/
theorem beaconError_congr {s t : State} {b : BeaconFix} {p q : Option Heard}
    (beam : t.beam = { s.beam with heardPrimary := p, heardSecondary := q }) (now' : t.now = s.now)
    (format : regWord t SC_BEAMFMT = regWord s SC_BEAMFMT) (period : regWord t SC_BEAMPER = regWord s SC_BEAMPER) :
    beaconError t b = beaconError s b := by
  have lines : frameLines t = frameLines s := by
    unfold frameLines activeLines blankLines
    rw [getF_congr (f := SC_BEAMFMT_ACTIVE) format, getF_congr (f := SC_BEAMFMT_BLANK) format]
  unfold beaconError sinceStamp beamTime frameTime runPeriod beamFracs framePeriod
  rw [lines, beam, now', period]

theorem isCandidate_of_slews {s : State} (slews : getF s SC_BEAMCTL_STEPTHR = 0) (e : Int) : isCandidate s e = false := by
  unfold isCandidate
  dsimp only
  rw [slews]
  rfl

/-- Where no error is a step candidate, an accepted one is slewed out, and the candidates held are outliers (R75, R76). -/
theorem trackBeacon_slews {s : State} (slews : getF s SC_BEAMCTL_STEPTHR = 0) (e : Int) :
    trackBeacon s e = slewBy (countOutliers { s with beam := { s.beam with candidates := [] } } s.beam.candidates.length) e := by
  unfold trackBeacon
  rw [isCandidate_of_slews slews]
  rfl

theorem countOutliers_regWord (s : State) (n : Nat) {k : Nat} (other : k ≠ SC_BEACNT) :
    regWord (countOutliers s n) k = regWord s k := regWord_setF_ne s SC_BEACNT_OUTLIER _ k other

theorem countOutliers_accept (s : State) (n : Nat) :
    getF (countOutliers s n) SC_BEACNT_ACCEPT = getF s SC_BEACNT_ACCEPT :=
  getF_countF_ne s _ _ _ (by decide) (by decide) (by decide)

/-- A beacon used: its anchor and its error shown, its count taken. -/
def beaconNoted (s : State) (b : BeaconFix) : State :=
  adoptCount (notePhase (noteSource s b.anchor b.hops b.state) (beaconError s b).1) (beaconError s b).2

theorem beaconNoted_regWord (s : State) (b : BeaconFix) {k : Nat} (stat : k ≠ SC_BEAMSTAT) (err : k ≠ SC_BEAMERR) :
    regWord (beaconNoted s b) k = regWord s k := by
  unfold beaconNoted notePhase
  exact (regWord_setF_ne _ SC_BEAMERR_PHERR _ k err).trans (noteSource_regWord s _ _ _ stat)

theorem beaconNoted_state (s : State) (b : BeaconFix) : beamState (beaconNoted s b) = beamState s :=
  (notePhase_state _ _).trans (noteSource_state _ _ _ _)

theorem beaconNoted_bystanders (s : State) (b : BeaconFix) : bystanders (beaconNoted s b) = bystanders s :=
  noteSource_bystanders s b.anchor b.hops b.state

/-- What a beacon of the followed anchor does in LOCKED, where no error is a step candidate (R69, R75, R76). -/
theorem useBeacon_slews {s : State} {b : BeaconFix} (locked : beamState s = bmLocked) (slews : getF s SC_BEAMCTL_STEPTHR = 0) :
    useBeacon s b = learnPeriod (trackBeacon (beaconNoted s b) (beaconError s b).1) b := by
  have apart : SC_BEAMCTL ≠ SC_BEAMSTAT ∧ SC_BEAMCTL ≠ SC_BEAMERR := by decide
  have still : getF (beaconNoted s b) SC_BEAMCTL_STEPTHR = 0 :=
    (getF_congr (beaconNoted_regWord s b apart.1 apart.2)).trans slews
  have state : beamState (trackBeacon (beaconNoted s b) (beaconError s b).1) = bmLocked := by
    rw [trackBeacon_slews still, slewBy_state, beamState, getF_congr (countOutliers_regWord _ _ (by decide))]
    exact (beaconNoted_state s b).trans locked
  have acquires : beamState (notePhase (noteSource s b.anchor b.hops b.state) (beaconError s b).1) ≠ bmAcquire := by
    rw [notePhase_state, noteSource_state, locked]
    decide
  have candidate : isCandidate (notePhase (noteSource s b.anchor b.hops b.state) (beaconError s b).1) (beaconError s b).1 = false :=
    isCandidate_of_slews still _
  unfold useBeacon
  dsimp only
  rw [if_neg acquires, candidate, ← beaconNoted, state, if_neg (by decide), if_neg (by decide)]

theorem useBeacon_locked {s : State} {b : BeaconFix} (locked : beamState s = bmLocked) (slews : getF s SC_BEAMCTL_STEPTHR = 0) :
    (useBeacon s b).beam.slew = (beaconError s b).1 ∧ getF (useBeacon s b) SC_BEACNT_ACCEPT = getF s SC_BEACNT_ACCEPT ∧
      bystanders (useBeacon s b) = bystanders s := by
  have apart : SC_BEAMCTL ≠ SC_BEAMSTAT ∧ SC_BEAMCTL ≠ SC_BEAMERR := by decide
  have still : getF (beaconNoted s b) SC_BEAMCTL_STEPTHR = 0 :=
    (getF_congr (beaconNoted_regWord s b apart.1 apart.2)).trans slews
  rw [useBeacon_slews locked slews, trackBeacon_slews still]
  obtain ⟨slew, regs, same⟩ := learnPeriod_leaves (slewBy (countOutliers
    { beaconNoted s b with beam := { (beaconNoted s b).beam with candidates := [] } } (beaconNoted s b).beam.candidates.length)
    (beaconError s b).1) b
  refine ⟨slew, ?_, same.trans (beaconNoted_bystanders s b)⟩
  rw [getF_congr (regs _)]
  refine (countOutliers_accept _ _).trans ?_
  exact getF_congr (beaconNoted_regWord s b (by decide) (by decide))

theorem chooseAnchor_followed {s : State} {b : BeaconFix} (source : s.beam.source = some b.anchor) : chooseAnchor s b = s := by
  unfold chooseAnchor
  rw [source]
  exact if_pos (by simp)

/-- A locked follower uses the beacons of its anchor (R72). -/
theorem acceptBeacon_uses {s : State} {b : BeaconFix} (locked : beamState s = bmLocked) (period : framePeriod s ≠ 0)
    (follower : anchorRole s = 0) (source : s.beam.source = some b.anchor) :
    acceptBeacon s b = useBeacon (hearBeacon (countWrapF s SC_BEACNT_ACCEPT 1) b) b := by
  have followed : (hearBeacon (countWrapF s SC_BEACNT_ACCEPT 1) b).beam.source = some b.anchor := by
    obtain ⟨p, q, hears⟩ := hearBeacon_beam (countWrapF s SC_BEACNT_ACCEPT 1) b
    rw [hears]
    exact source
  unfold acceptBeacon
  rw [if_neg (by rw [locked]; simp [period, bmLocked, bmOff]), follower]
  dsimp only
  rw [if_neg (by simp), if_neg (by simp), if_neg (by simp), chooseAnchor_followed followed, if_pos followed]

/-- … and counts them (R72, R98). -/
theorem acceptBeacon_locked {s : State} {b : BeaconFix} (locked : beamState s = bmLocked) (period : framePeriod s ≠ 0)
    (follower : anchorRole s = 0) (source : s.beam.source = some b.anchor) (slews : getF s SC_BEAMCTL_STEPTHR = 0) :
    (acceptBeacon s b).beam.slew = (beaconError s b).1 ∧
      getF (acceptBeacon s b) SC_BEACNT_ACCEPT = (getF s SC_BEACNT_ACCEPT + 1) % 65536 ∧
      bystanders (acceptBeacon s b) = bystanders s := by
  obtain ⟨p, q, hears⟩ := hearBeacon_beam (countWrapF s SC_BEACNT_ACCEPT 1) b
  have word : ∀ k, k ≠ SC_BEACNT → regWord (hearBeacon (countWrapF s SC_BEACNT_ACCEPT 1) b) k = regWord s k := fun k other => by
    rw [hears]
    exact regWord_setF_ne s SC_BEACNT_ACCEPT _ k other
  have error : beaconError (hearBeacon (countWrapF s SC_BEACNT_ACCEPT 1) b) b = beaconError s b :=
    beaconError_congr (p := p) (q := q) (by rw [hears]; rfl) (by rw [hears]; rfl) (word _ (by decide)) (word _ (by decide))
  obtain ⟨slew, accept, same⟩ := useBeacon_locked (s := hearBeacon (countWrapF s SC_BEACNT_ACCEPT 1) b) (b := b)
    ((getF_congr (word _ (by decide))).trans locked) ((getF_congr (word _ (by decide))).trans slews)
  rw [acceptBeacon_uses locked period follower source]
  refine ⟨slew.trans (congrArg Prod.fst error), accept.trans ?_, same.trans (by rw [hears]; rfl)⟩
  rw [hears]
  exact getF_setF_same s SC_BEACNT_ACCEPT _ (by decide)

/-- The oldest message at the scan die, a beacon of the followed anchor, applies (R41, R45). -/
theorem applyAtScan_beacon {s : State} {b : BeaconFix} {later : List Msg} (arrived : s.bridge.toScan.arrived = .beacon b :: later)
    (free : ∀ m ∈ s.bridge.toScan.arrived, waitsBehind s m = false) (idle : NothingWaits s) (locked : beamState s = bmLocked)
    (period : framePeriod s ≠ 0) (follower : anchorRole s = 0) (source : s.beam.source = some b.anchor)
    (slews : getF s SC_BEAMCTL_STEPTHR = 0) :
    (applyAtScan s).beam.slew = (beaconError s b).1 ∧
      getF (applyAtScan s) SC_BEACNT_ACCEPT = (getF s SC_BEACNT_ACCEPT + 1) % 65536 := by
  rw [arrived] at free
  let u := setArrived (setArrived s (.beacon b :: later)) later
  have taken : BridgeOnly s u := (setArrived_only _ _).trans (setArrived_only _ _)
  have own : sourceWaits (setArrived s (.beacon b :: later)) (.beacon b) = false :=
    (waitsBehind_congr (setArrived_comp _ _) (.beacon b)).trans (List.forall_mem_cons.mp free).1
  have apply : canApply (setArrived s (.beacon b :: later)) (.beacon b) = true := by simp [canApply, isPosted, own]
  obtain ⟨slew, accept, same⟩ := acceptBeacon_locked (s := u) (b := b) ((taken.getF _).trans locked)
    (by rw [framePeriod, taken.regWord]; exact period)
    (by rw [anchorRole, taken.getF]; exact follower)
    ((taken.view (·.beam.source) fun _ _ => rfl).trans source) ((taken.getF _).trans slews)
  have error : beaconError u b = beaconError s b :=
    beaconError_congr (taken.view (·.beam) fun _ _ => rfl) (taken.view (·.now) fun _ _ => rfl) (taken.regWord _) (taken.regWord _)
  have applies : applyAtScan s = acceptBeacon u b := by
    rw [applyAtScan_head arrived free apply]
    exact pumpAll_idle (idle.congr (same.trans taken.bystanders))
  rw [applies]
  exact ⟨slew.trans (congrArg Prod.fst error), by rw [accept, taken.getF]⟩

/-- Settles O39: each clause by its pulse, its edge or its beacon. -/
theorem beamReference : Obligations.BeamReference := by
  unfold Obligations.BeamReference
  intro s period corr res arrival x rest b later st g on ticks e d far fix
  refine ⟨fun anchor own free => ?_, fun oldest => ⟨fun refused => ?_, fun accepted group => ?_⟩,
    fun arrived unheld idle locked follower source slews => ?_⟩
  · have ref : OwnReference s := ⟨anchor, own, free, ticks⟩
    have pulse := whenScan_on on fun s => framePulse s period.toNat
    refine ⟨fun locked => ⟨_, pulse, framePulse_locked ref locked⟩, fun acquire bad => ⟨_, pulse, framePulse_refused ref acquire bad⟩,
      fun acquire good fourth near => ⟨_, pulse, framePulse_locks ref acquire good fourth near⟩,
      fun clock runs => ⟨fun beyond => ?_, fun near => ?_⟩, fun state line up =>
        ⟨_, whenScan_on on fun s => beaconSend s corr.toNat, beaconSend_numbered ref state line up⟩⟩
    · exact (whenScan_on on lineClockEdge).trans (congrArg _ ((lineClockEdge_own ref clock runs).trans (if_pos beyond)))
    · exact (whenScan_on on lineClockEdge).trans (congrArg _ ((lineClockEdge_own ref clock runs).trans (if_neg near)))
  · refine ⟨_, (whenScan_on on fun s => beaconReceive s res.toNat).trans (congrArg _ (beaconReceive_refused oldest refused)), rfl, ?_⟩
    rw [Nat.min_comm]
    exact getF_countF_same _ _ _ (by decide)
  · exact (whenScan_on on fun s => beaconReceive s res.toNat).trans (congrArg _ (beaconReceive_accepted oldest accepted group))
  · exact ⟨_, whenScan_on on applyAtScan, applyAtScan_beacon arrived unheld idle locked ticks follower source slews⟩

end Sys2Proof.Machine
end

section
/-! SUPPORT. The canvas: the frame store, its front banks, and where composition stands in its pass. Reads of DRAM and of SRAM,
writes to DRAM with what the sorter and the commits make of them, and fetches ahead leave it (R127, R135, R207, R224). -/

namespace Sys2Proof.Machine

/-- What composition draws on, and where it stands. -/
structure Canvas where
  composing : Option (Word × Nat)
  linesDone : List (Nat × Nat)
  shown : EgressShown
  concealed : Nat
  store : SMap (BitVec 16)
  front : Vector Bool 512

/-- The canvas of a state. -/
def canvas (s : State) : Canvas :=
  { composing := s.comp.composing, linesDone := s.comp.linesDone, shown := s.comp.shown, concealed := s.comp.concealed,
    store := s.drive.store, front := s.drive.front }

theorem canvas_foldl {α : Type} {f : State → α → State} (hf : ∀ t x, canvas (f t x) = canvas t) (l : List α) (s : State) :
    canvas (l.foldl f s) = canvas s := by
  induction l generalizing s with
  | nil => rfl
  | cons x l ih => exact (ih (f s x)).trans (hf s x)

theorem canvas_ite {c : Prop} [Decidable c] {s t u : State} (yes : canvas t = canvas s) (no : canvas u = canvas s) :
    canvas (if c then t else u) = canvas s := by
  split
  · exact yes
  · exact no

/-! ### Reports -/

theorem canvas_setF (s : State) (f : Fld) (v : Nat) : canvas (setF s f v) = canvas s := rfl

theorem canvas_sendToHouse (s : State) (m : Msg) : canvas (sendToHouse s m) = canvas s :=
  (sendToHouse_only s m).view canvas fun _ _ => rfl

theorem canvas_raiseBits (s : State) {n : Nat} (scan : isScanSource n = true) (f : Fld) (bits : Nat) :
    canvas (raiseBits s n f bits) = canvas s :=
  (Reported.raiseBits_orF s scan f bits).view canvas fun _ _ _ _ _ => rfl

theorem canvas_raiseEvent (s : State) {n : Nat} (scan : isScanSource n = true) (f : Fld) :
    canvas (raiseEvent s n f) = canvas s := canvas_raiseBits s scan f 1

theorem canvas_recordScan (s : State) (cls : RecClass) (code p0 p1 p2 p3 : Nat) :
    canvas (recordScan s cls code p0 p1 p2 p3) = canvas s :=
  ((Reported.refl [] s).recordScan cls code p0 p1 p2 p3).view canvas fun _ _ _ _ _ => rfl

theorem canvas_perfCount (s : State) (event k : Nat) : canvas (perfCount s event k) = canvas s := by
  refine canvas_foldl (fun t n => ?_) _ s
  unfold perfAdd
  split
  · dsimp only
    split <;> rfl
  · rfl

/-! ### Reads -/

theorem canvas_noteScanUE (s : State) (addr macroNo req : Nat) : canvas (noteScanUE s addr macroNo req) = canvas s := by
  unfold noteScanUE
  dsimp only
  split
  · exact canvas_raiseEvent _ rfl _
  · exact (canvas_recordScan _ _ _ _ _ _ _).trans (canvas_raiseEvent _ rfl _)

theorem canvas_noteScanCE (s : State) : canvas (noteScanCE s) = canvas s := canvas_raiseEvent _ rfl _

theorem canvas_readScanUnit (s : State) (c : CodeState) (macroNo key req : Nat) :
    canvas (readScanUnit s c macroNo key req) = canvas s := by
  unfold readScanUnit
  cases c with
  | good => rfl
  | single =>
    dsimp only
    split
    · exact (canvas_recordScan _ _ _ _ _ _ _).trans (canvas_noteScanCE s)
    · exact canvas_noteScanCE s
  | bad => exact canvas_noteScanUE s _ _ _

theorem canvas_touchUnit (s : State) (u req : Nat) : canvas (touchUnit s u req) = canvas s := by
  unfold touchUnit
  split
  · rfl
  dsimp only
  split
  · exact (canvas_noteScanCE _).trans (canvas_perfCount s _ _)
  · split
    · exact (canvas_noteScanUE _ _ _ _).trans (canvas_perfCount s _ _)
    · exact canvas_perfCount s _ _

theorem canvas_touchUnits (s : State) (us : List Nat) (req : Nat) : canvas (touchUnits s us req) = canvas s :=
  canvas_foldl (fun t u => canvas_touchUnit t u req) us s

theorem canvas_fetchUnit (s : State) (n u req : Nat) : canvas (fetchUnit s n u req) = canvas s := by
  unfold fetchUnit
  dsimp only
  split
  · exact canvas_touchUnit s u req
  · exact (canvas_perfCount _ _ _).trans (canvas_touchUnit s u req)

theorem canvas_readHeld (s : State) (n req : Nat) (h : CacheUnit) : canvas (readHeld s n req h) = canvas s :=
  canvas_foldl (fun t _ => canvas_readScanUnit t _ _ _ _) h.code s

theorem canvas_prefetchUnit (s : State) (n req u : Nat) : canvas (prefetchUnit s n req u) = canvas s := by
  unfold prefetchUnit
  split
  · rfl
  · exact canvas_fetchUnit s n u req

theorem canvas_agentRead (s : State) (n req u : Nat) : canvas (agentRead s n req u) = canvas s := by
  unfold agentRead
  split
  · exact canvas_readHeld s n req _
  · exact canvas_fetchUnit s n u req

theorem canvas_cacheRead (s : State) (n req u : Nat) : canvas (cacheRead s n req u) = canvas s := by
  unfold cacheRead
  split
  · exact canvas_readHeld s n req _
  · refine (canvas_fetchUnit _ n u req).trans ?_
    split <;> rfl

/-! ### Fetches ahead -/

theorem canvas_fetchScrolls (s : State) (a : Area) (st k l : Nat) : canvas (fetchScrolls s a st k l) = canvas s := by
  unfold fetchScrolls
  refine canvas_foldl (fun t u => ?_) _ s
  refine Eq.trans (b := canvas (List.foldl _ t _)) rfl (canvas_foldl (fun t' x => ?_) _ t)
  dsimp only
  split
  · exact (canvas_raiseEvent _ rfl _).trans (canvas_agentRead t' _ _ _)
  · exact canvas_agentRead t' _ _ _

theorem canvas_fetchLine (s : State) (a : Area) (st k l : Nat) : canvas (fetchLine s a st k l) = canvas s := by
  unfold fetchLine
  split
  · rfl
  · exact (canvas_foldl (fun t u => canvas_prefetchUnit t _ _ u) _ _).trans
      ((canvas_foldl (fun t u => canvas_prefetchUnit t _ _ u) _ _).trans (canvas_fetchScrolls s a st k l))

theorem canvas_fetchRecords (s : State) (a : Area) (st k l : Nat) : canvas (fetchRecords s a st k l) = canvas s := by
  unfold fetchRecords
  split
  · rfl
  · dsimp only
    split
    · exact canvas_touchUnits s _ _
    · exact canvas_touchUnits s _ _

theorem canvas_fetchFirst (s : State) (a : Area) (st : Nat) : canvas (fetchFirst s a st) = canvas s :=
  canvas_foldl (fun t k => (canvas_foldl (fun t l => canvas_fetchRecords t a st k l) _ _).trans
    (canvas_foldl (fun t l => canvas_fetchLine t a st k l) _ t)) _ s

/-! ### Writes to DRAM -/

theorem canvas_setDramBytes (s : State) (a : Nat) (bs : List Byte) : canvas (setDramBytes s a bs) = canvas s := by
  induction bs generalizing s a with
  | nil => rfl
  | cons b bs ih => exact ih (setDramByte s a b) (a + 1)

theorem canvas_writeUnit (s : State) (req a : Nat) (bs : List Byte) : canvas (writeUnit s req a bs) = canvas s := by
  have counted := canvas_perfCount s 0x02 1
  unfold writeUnit
  dsimp only
  split
  · exact (canvas_setDramBytes _ a bs).trans counted
  split
  · exact (canvas_setDramBytes _ a bs).trans ((canvas_noteScanUE _ _ _ _).trans counted)
  · refine (canvas_setDramBytes _ a bs).trans ?_
    split
    · exact (canvas_setDramBytes _ _ _).trans counted
    · exact (canvas_touchUnit _ _ _).trans counted

theorem canvas_writeExtent (s : State) (req a : Nat) (bs : List Byte) : canvas (writeExtent s req a bs) = canvas s := by
  have fueled : ∀ fuel t a bs, canvas (writeExtentFuel t req fuel a bs) = canvas t := fun fuel => by
    induction fuel with
    | zero => exact fun _ _ _ => rfl
    | succ fuel ih =>
      intro t a bs
      unfold writeExtentFuel
      split
      · rfl
      · exact (ih _ _ _).trans (canvas_writeUnit t req a _)
  exact fueled _ s a bs

theorem canvas_noteGuard (s : State) (writer a : Nat) (us : List Nat) : canvas (noteGuard s writer a us) = canvas s := by
  unfold noteGuard
  split
  · rfl
  · exact (canvas_recordScan _ _ _ _ _ _ _).trans (canvas_raiseEvent _ rfl _)

theorem canvas_applyPart (s : State) (w : Writer) (p : Nat × List Byte) : canvas (applyPart s w p) = canvas s := by
  refine (canvas_writeExtent _ _ _ _).trans ?_
  split
  · exact canvas_noteGuard s _ _ _
  · rfl

theorem canvas_dramWrite (s : State) (w : Writer) (credit : Option Src) (a : Nat) (bs : List Byte) :
    canvas (dramWrite s w credit a bs) = canvas s := by
  unfold dramWrite
  split
  · rfl
  · exact (canvas_foldl (fun t p => canvas_applyPart t w p) _ _).trans (canvas_ite rfl rfl)

/-! ### The sorter and the commits -/

theorem canvas_noteBinding (s : State) (n : Nat) (o : Option Obj) : canvas (noteBinding s n o) = canvas s := by
  unfold noteBinding
  split
  · split <;> rfl
  · rfl

theorem canvas_badEntry (s : State) : canvas (badEntry s) = canvas s := canvas_raiseEvent _ rfl _

theorem canvas_evaluateEntry (s : State) (n : Nat) : canvas (evaluateEntry s n) = canvas s := by
  have read := fun u => canvas_touchUnit s u 0x53
  unfold evaluateEntry
  dsimp only
  split
  · exact (canvas_recordScan _ _ _ _ _ _ _).trans ((canvas_badEntry _).trans ((canvas_noteBinding _ _ _).trans (read _)))
  split
  · exact (canvas_noteBinding _ _ _).trans (read _)
  split
  · exact (canvas_badEntry _).trans ((canvas_noteBinding _ _ _).trans (read _))
  · exact (canvas_noteBinding _ _ _).trans (read _)

theorem canvas_countOpen (s : State) (src : Src) : canvas (countOpen s src) = canvas s := by
  unfold countOpen
  split
  · split <;> rfl
  · split <;> rfl

theorem canvas_dropCommit (s : State) (c : Commit) : canvas (dropCommit s c) = canvas s := by
  unfold dropCommit
  dsimp only
  split <;> rfl

theorem canvas_reportRegisters (s : State) (c : Commit) (reason : Nat) (f : Fail) :
    canvas (reportRegisters s c reason f) = canvas s := by
  have raised : ∀ t {n} g m f bits, isScanSource n = true → canvas (raiseBits (setF t g m) n f bits) = canvas t :=
    fun t _ g m f bits scan => (canvas_raiseBits (setF t g m) scan f bits).trans (canvas_setF t g m)
  have result : ∀ f₁ n₁ f₂ n₂ f₃ n₃ f₄ n₄ a w,
      canvas (setRegWord (setF (setF (setF (setF s f₁ n₁) f₂ n₂) f₃ n₃) f₄ n₄) a w) = canvas s := fun _ _ _ _ _ _ _ _ _ _ => rfl
  have tallied : ∀ t a r, canvas { t with comp := { t.comp with accepted := a, refused := r } } = canvas t := fun _ _ _ => rfl
  have counted := fun a r => (tallied _ a r).trans (result (SC_CMRES_REASON c.stream.toNat) reason (SC_CMRES_SOURCE c.stream.toNat)
    (srcId c.src) (SC_CMRES_TFRAME c.stream.toNat) c.tframe.toNat (SC_CMEPR_EPOCH c.stream.toNat) c.epoch.toNat
    (SC_CMFAIL c.stream.toNat) (BitVec.ofNat 32 f.word))
  unfold reportRegisters
  dsimp only
  exact canvas_ite ((raised _ _ _ _ _ rfl).trans (canvas_ite (counted _ _) (counted _ _)))
    ((raised _ _ _ _ _ rfl).trans (canvas_ite (counted _ _) (counted _ _)))

theorem canvas_sendResult (s : State) (c : Commit) (reason : Nat) : canvas (sendResult s c reason) = canvas s := by
  unfold sendResult sendOrHold
  split
  · rfl
  split
  · rfl
  · exact canvas_sendToHouse s _

theorem canvas_refuseCommit (s : State) (c : Commit) (reason : Reason) (f : Fail) :
    canvas (refuseCommit s c reason f) = canvas s := by
  have reported := (canvas_sendResult _ c reason.code).trans
    ((canvas_reportRegisters (dropCommit s c) c reason.code f).trans (canvas_dropCommit s c))
  unfold refuseCommit
  dsimp only
  refine Eq.trans (b := canvas (if _ then _ else _)) rfl ?_
  split
  · exact reported
  · exact (canvas_recordScan _ _ _ _ _ _ _).trans reported

theorem canvas_creditWrite (s : State) (src : Src) : canvas (creditWrite s src) = canvas s := by
  unfold creditWrite
  split
  · rfl
  split
  · split
    · exact (canvas_countOpen _ _).trans (canvas_refuseCommit s _ _ _)
    · unfold creditCommit
      dsimp only
      split
      · exact canvas_refuseCommit _ _ _ _
      · rfl
  · exact canvas_countOpen s src

theorem canvas_objectEvaluate (s : State) : canvas (objectEvaluate s) = canvas s := by
  unfold objectEvaluate
  split
  · rfl
  · rfl
  · refine (canvas_foldl canvas_creditWrite _ _).trans ?_
    split
    · exact canvas_evaluateEntry _ _
    · rfl

theorem canvas_makeRoom (s : State) (a len fuel : Nat) : canvas (makeRoom s a len fuel) = canvas s := by
  induction fuel generalizing s with
  | zero => rfl
  | succ fuel ih =>
    unfold makeRoom
    split
    · exact (ih _).trans (canvas_objectEvaluate s)
    · rfl

end Sys2Proof.Machine
end

section
/-! SUPPORT. One line under composition: what it reads, what it draws and what it leaves, and the passes of a frame (R82, R150, R179,
R212, R224, R271, R385). -/

namespace Sys2Proof.Machine

/-! ### What a line reads -/

theorem canvas_readTable (s : State) (st l : Nat) : canvas (readTable s st l) = canvas s := by
  have noted : canvas (if sget s.trestle.tableCode .good (tableKey st l) = .bad then raiseEvent s 58 SC_TRSTAT_ECCEV else s) =
      canvas s := canvas_ite (canvas_raiseEvent s rfl _) rfl
  have read := (canvas_readScanUnit _ (sget s.trestle.tableCode .good (tableKey st l)) Config.tableMacro.toNat (tableKey st l)
    0x52).trans noted
  unfold readTable
  exact canvas_ite read read

theorem canvas_writeSideboard (v s : State) (a : Area) (st k l : Nat) : canvas (writeSideboard v s a st k l) = canvas s := by
  unfold writeSideboard
  exact canvas_ite rfl ((canvas_dramWrite _ _ _ _ _).trans (canvas_makeRoom s _ _ _))

theorem canvas_lineReads (s : State) (n : Nat) (d : Drawing) : canvas (lineReads s n d) = canvas s :=
  (canvas_touchUnits _ _ _).trans ((canvas_foldl (fun t u => canvas_cacheRead t _ _ u) _ _).trans
    (canvas_foldl (fun t u => canvas_cacheRead t _ _ u) _ s))

theorem canvas_readLineBuffer (s : State) (n k : Nat) : canvas (readLineBuffer s n k) = canvas s :=
  canvas_foldl (fun t _ => canvas_readScanUnit t _ _ _ _) (s.drive.lineCode.filter fun (e : Nat × CodeState) => e.1 / 256 = n) s

theorem canvas_takeRecords (s : State) (k l : Nat) : canvas (takeRecords s k l).1 = canvas s := by
  unfold takeRecords
  split <;> rfl

theorem canvas_bufferRecords (s : State) (k : Nat) (rs : List (Option (BitVec 112))) : canvas (bufferRecords s k rs) = canvas s :=
  canvas_foldl (fun _ e => by cases e.1 <;> rfl) _ s

theorem canvas_noteLate (s : State) (k : Nat) : canvas (noteLate s k) = canvas s :=
  (canvas_setF _ _ _).trans (canvas_raiseEvent _ rfl _)

theorem canvas_readRecord (s : State) (k x : Nat) : canvas (readRecord s k x) = canvas s := by
  have read := canvas_readScanUnit s (sget s.drive.recordCode .good x) (0x58 + k) x 0x51
  unfold readRecord
  exact canvas_ite read read

theorem canvas_readStore (s : State) (bank : Bool) (line col req : Nat) : canvas (readStore s bank line col req) = canvas s := by
  unfold readStore
  extract_lets m one t
  have read : ∀ u b, canvas (one u b) = canvas u := fun u b =>
    canvas_ite (canvas_readScanUnit u _ _ _ _) (canvas_readScanUnit u _ _ _ _)
  exact canvas_ite ((read _ _).trans (read s bank)) (read s bank)

theorem canvas_concealReads (s : State) (l : Nat) (px : List (Nat × Colour × Drawing)) (bad : List Bool) :
    canvas (concealReads s l px bad) = canvas s :=
  canvas_foldl (fun t _ => canvas_ite (canvas_readStore t _ _ _ _) rfl) _ s

/-! ### What a line draws -/

theorem storeKey_inj {b c : Bool} {l m x y ch dh : Nat} (hl : l < 512) (hm : m < 512) (hx : x < 1024) (hy : y < 1024) (hch : ch < 4)
    (hdh : dh < 4) (same : storeKey b l x ch = storeKey c m y dh) : b = c ∧ l = m ∧ x = y := by
  unfold storeKey at same
  have bank : b2n b = b2n c := by omega
  refine ⟨?_, by omega, by omega⟩
  revert bank
  cases b <;> cases c <;> decide

/-- From `s` to `t` only words of line `l` of region `k` in one bank are drawn, and concealed pixels counted. -/
structure Drawn (b : Bool) (k l : Nat) (s t : State) : Prop where
  composing : t.comp.composing = s.comp.composing
  linesDone : t.comp.linesDone = s.comp.linesDone
  front : t.drive.front = s.drive.front
  outside : ∀ bank line col ch, line < 512 → col < 1024 → ch < 4 → bank ≠ b ∨ line ≠ l ∨ col / 256 ≠ k →
    sget t.drive.store 0 (storeKey bank line col ch) = sget s.drive.store 0 (storeKey bank line col ch)

namespace Drawn

variable {b : Bool} {k l : Nat} {s₀ s t : State}

theorem refl (b : Bool) (k l : Nat) (s : State) : Drawn b k l s s := ⟨rfl, rfl, rfl, fun _ _ _ _ _ _ _ _ => rfl⟩

theorem trans {u : State} (h : Drawn b k l s t) (j : Drawn b k l t u) : Drawn b k l s u :=
  ⟨j.composing.trans h.composing, j.linesDone.trans h.linesDone, j.front.trans h.front,
    fun bank line col ch hl hc hch out => (j.outside bank line col ch hl hc hch out).trans (h.outside bank line col ch hl hc hch out)⟩

/-- What leaves the canvas draws nothing. -/
theorem still (h : Drawn b k l s₀ s) (same : canvas t = canvas s) : Drawn b k l s₀ t := by
  have store : t.drive.store = s.drive.store := congrArg Canvas.store same
  refine h.trans ⟨congrArg Canvas.composing same, congrArg Canvas.linesDone same, congrArg Canvas.front same, ?_⟩
  intro _ _ _ _ _ _ _ _
  rw [store]

theorem foldl {α : Type} {f : State → α → State} {xs : List α} (h : Drawn b k l s₀ s)
    (hf : ∀ x ∈ xs, ∀ t, Drawn b k l t (f t x)) : Drawn b k l s₀ (xs.foldl f s) := by
  induction xs generalizing s with
  | nil => exact h
  | cons x xs ih =>
    obtain ⟨head, tail⟩ := List.forall_mem_cons.mp hf
    exact ih (h.trans (head s)) tail

theorem bank (h : Drawn b k l s t) (line : Nat) : frontBank t line = frontBank s line := frontBank_congr h.front line

end Drawn

theorem putStore_drawn {l x : Nat} (s : State) (b : Bool) (ws : List Nat) (line : l < 512) (col : x < 1024) :
    Drawn b (x / 256) l s (putStore s b l x ws) := by
  refine Drawn.foldl ⟨rfl, rfl, rfl, fun _ _ _ _ _ _ _ _ => rfl⟩ fun ch mem t => ⟨rfl, rfl, rfl, ?_⟩
  intro bank line' col' ch' hl hc hch out
  refine sget_sput_ne _ _ _ _ _ _ fun same => ?_
  obtain ⟨hb, hl', hx⟩ := storeKey_inj hl line hc col hch (List.mem_range.mp mem) same
  subst hb hl' hx
  simp at out

theorem storeLine_drawn {k l : Nat} (s : State) {px : List (Nat × Colour × Drawing)} (bad : List Bool) (line : l < 512) (region : k < 4)
    (within : ∀ p ∈ px, p.1 / 256 = k) : Drawn (!frontBank s l) k l s (storeLine s l px bad) := by
  refine (Drawn.refl _ _ _ s).foldl fun p mem t => ?_
  have own : p.1.1 / 256 = k := within p.1 (List.of_mem_zip mem).1
  have drawn := putStore_drawn (l := l) (x := p.1.1) t (!frontBank s l)
    (if p.2 then (List.range 4).map fun ch => (storeWord t (frontBank s l) l p.1.1 ch).toNat
      else channelWords t (calibrate t p.1.1 (colourPipe t p.1.2.1))) line (by omega)
  rwa [own] at drawn

theorem storeLine_drawnAfter {k l : Nat} {s t : State} {px : List (Nat × Colour × Drawing)} (bad : List Bool) (line : l < 512)
    (region : k < 4) (within : ∀ p ∈ px, p.1 / 256 = k) (same : canvas t = canvas s) :
    Drawn (!frontBank s l) k l s (storeLine t l px bad) := by
  have before : Drawn (!frontBank s l) k l s t := (Drawn.refl _ _ _ s).still same
  have drawn := storeLine_drawn t bad line region within
  rw [before.bank] at drawn
  exact before.trans drawn

theorem linePixels_within (s : State) (a : Area) (st k l : Nat) : ∀ p ∈ linePixels s a st k l, p.1 / 256 = k := by
  have narrow : bandWidth s k ≤ 256 := by
    unfold bandWidth
    split
    · exact Nat.zero_le _
    · exact Nat.min_le_left _ _
  intro p mem
  obtain ⟨i, inBand, rfl⟩ := List.mem_map.mp mem
  have := List.mem_range.mp inBand
  dsimp only
  omega

theorem noteConcealed_drawn {b : Bool} {k l : Nat} {s₀ s : State} (h : Drawn b k l s₀ s) (n : Nat) :
    Drawn b k l s₀ (noteConcealed s n) := by
  unfold noteConcealed
  split
  · exact h
  · have counted : Drawn b k l s₀ { s with comp := { s.comp with concealed := s.comp.concealed + n } } :=
      h.trans ⟨rfl, rfl, rfl, fun _ _ _ _ _ _ _ _ => rfl⟩
    exact ((counted.still (canvas_setF _ _ _)).still (canvas_raiseEvent _ rfl _)).still (canvas_perfCount _ _ _)

/-! ### A cluster line -/

theorem lineComplete_keeps (s : State) (l : Nat) (frame : Word) (feed : Nat) :
    (lineComplete s l frame feed).comp = s.comp ∧ (lineComplete s l frame feed).drive.store = s.drive.store := by
  unfold lineComplete
  split
  · exact ⟨rfl, rfl⟩
  · exact ⟨rfl, rfl⟩

/-- What a cluster line that is due leaves: it is among the lines composed, and it has drawn in the back bank alone (R224). -/
structure LineDrawn (k l : Nat) (s t : State) : Prop where
  composing : t.comp.composing = s.comp.composing
  linesDone : t.comp.linesDone = (k, l) :: s.comp.linesDone
  outside : ∀ bank line col ch, line < 512 → col < 1024 → ch < 4 → bank = frontBank s l ∨ line ≠ l ∨ col / 256 ≠ k →
    sget t.drive.store 0 (storeKey bank line col ch) = sget s.drive.store 0 (storeKey bank line col ch)

theorem LineDrawn.still {k l : Nat} {s t u : State} (h : LineDrawn k l s t) (same : canvas u = canvas t) : LineDrawn k l s u := by
  have store : u.drive.store = t.drive.store := congrArg Canvas.store same
  exact ⟨(congrArg Canvas.composing same).trans h.composing, (congrArg Canvas.linesDone same).trans h.linesDone,
    fun bank line col ch hl hc hch out => by rw [store]; exact h.outside bank line col ch hl hc hch out⟩

/-- A line drawn is marked as composed, and may complete its module line. -/
theorem Drawn.marked {k l st : Nat} {frame : Word} {s t : State} (h : Drawn (!frontBank s l) k l s t) :
    let u : State := { t with comp := { t.comp with linesDone := (k, l) :: t.comp.linesDone } }
    LineDrawn k l s (if lineDone u l then lineComplete u l frame st else u) := by
  intro u
  have marked : LineDrawn k l s u := by
    refine ⟨h.composing, congrArg _ h.linesDone, fun bank line col ch hl hc hch out => h.outside bank line col ch hl hc hch ?_⟩
    refine out.imp_left fun front => ?_
    rw [front]
    exact Bool.self_ne_not _
  split
  · obtain ⟨comp, store⟩ := lineComplete_keeps u l frame st
    exact ⟨by rw [comp]; exact marked.composing, by rw [comp]; exact marked.linesDone,
      fun bank line col ch hl hc hch out => by rw [store]; exact marked.outside bank line col ch hl hc hch out⟩
  · exact marked

theorem composeLine_draws {s : State} {a : Area} {frame : Word} {st k l : Nat} (calLate : Bool) (line : l < 512) (region : k < 4)
    (area : s.area = some a) (composing : s.comp.composing = some (frame, st)) (awaited : lineAwaited s k l = true)
    (free : sideboardWaits s a st k l = false) : LineDrawn k l s (composeLine s k l calLate) := by
  unfold composeLine
  rw [area, composing]
  dsimp only
  rw [if_neg (by simp [awaited, free])]
  refine Drawn.marked ?_
  refine Drawn.still ?_ (canvas_perfCount _ _ _)
  refine noteConcealed_drawn ?_ _
  refine Drawn.still ?_ ((canvas_fetchRecords _ _ _ _ _).trans (canvas_fetchLine _ _ _ _ _))
  refine Drawn.still ?_ (canvas_ite (canvas_bufferRecords _ _ _) rfl)
  refine Drawn.still ?_ (canvas_concealReads _ _ _ _)
  refine storeLine_drawnAfter _ line region (linePixels_within s a st k l) ?_
  refine Eq.trans (b := canvas (if _ then _ else _)) rfl ?_
  refine (canvas_ite (canvas_foldl (fun t _ => canvas_readRecord t _ _) _ _) rfl).trans ?_
  have read : canvas (takeRecords (readLineBuffer (lineReads (writeSideboard (cacheView s (2 * k + l % 2))
      (if appFlag s SC_TRCTL_EN then readTable s st l else s) a st k l) (2 * k + l % 2)
      (pixelReads (linePixels s a st k l))) (2 * k + l % 2) k) k l).1 = canvas s :=
    (canvas_takeRecords _ _ _).trans ((canvas_readLineBuffer _ _ _).trans ((canvas_lineReads _ _ _).trans
      ((canvas_writeSideboard _ _ _ _ _ _).trans (canvas_ite (canvas_readTable s st l) rfl))))
  exact canvas_ite ((canvas_noteLate _ _).trans read) ((canvas_bufferRecords _ _ _).trans read)

/-! ### Signatures -/

theorem canvas_compareLine (s : State) (frame : BitVec 16) (same : Bool) : canvas (compareLine s frame same) = canvas s := by
  have kept : ∀ t, canvas t = canvas s → canvas (startCheck t) = canvas s := fun t h => by
    unfold startCheck
    exact canvas_ite h h
  unfold compareLine
  extract_lets _ t
  have begun : canvas t = canvas s := by
    unfold t
    split
    · exact canvas_ite rfl rfl
    · rfl
  split
  · exact canvas_ite (kept _ begun) begun
  · exact begun

theorem canvas_matchLines (s : State) (fuel : Nat) : canvas (matchLines s fuel) = canvas s := by
  induction fuel generalizing s with
  | zero => rfl
  | succ fuel ih =>
    unfold matchLines
    split
    · rfl
    · exact (ih _).trans (canvas_compareLine _ _ _)

theorem canvas_twinSend (s : State) (qid : BitVec 14) (payload : List Byte) : canvas (twinSend s qid payload) = canvas s := by
  unfold twinSend
  split
  · rfl
  · exact ((Quiet.refl _).enqueueOut 6 _).view canvas fun _ => rfl

theorem canvas_signLine (s : State) (frame : Word) (pass l : Nat) (bank : Bool) : canvas (signLine s frame pass l bank) = canvas s := by
  unfold signLine
  exact canvas_ite rfl (canvas_ite ((canvas_matchLines _ _).trans (canvas_twinSend s _ _)) (canvas_twinSend s _ _))

theorem composeAndSign_draws {s : State} {a : Area} {frame : Word} {st k l : Nat} (calLate : Bool) (line : l < 512) (region : k < 4)
    (area : s.area = some a) (composing : s.comp.composing = some (frame, st)) (awaited : lineAwaited s k l = true)
    (free : sideboardWaits s a st k l = false) : LineDrawn k l s (composeAndSign s k l calLate) := by
  have drawn := composeLine_draws calLate line region area composing awaited free
  unfold composeAndSign
  rw [composing]
  exact drawn.still (canvas_ite (canvas_signLine _ _ _ _ _) rfl)

end Sys2Proof.Machine
end

section
/-! SUPPORT. Passes begin and end (R82, R179, R212, R268, R271, R385), and what an obligation says of composition. -/

namespace Sys2Proof.Machine

/-! ### A pass begins -/

/-- What lets the pass of a feed begin (R82, R226, R268). -/
structure PassDue (s : State) (frame : Word) (feed : Nat) : Prop where
  runs : beamRuns s = true
  clear : s.drive.clearing = false
  idle : s.comp.composing = none
  known : feed < feeds s .applied
  inOrder : passInOrder s frame feed = true

/-- A pass is under composition, its first lines not yet fetched. -/
def passBegun (s : State) (frame : Word) (feed : Nat) : State :=
  { s with comp := { s.comp with composing := some (frame, feed), linesDone := [] }, trestle := { s.trestle with scrolls := [] },
           drive := { s.drive with calAhead := [] } }

/-- What a pass takes as it starts: its frame's state with feed 0 (R174, R232). -/
def passTakes (s : State) (feed : Nat) : State := setF (if feed = 0 then frameTakes s else s) SC_CALSTAT_LATEREG 0

/-- The state in which a pass is held back. -/
def passHeld (s : State) (feed : Nat) : State := { s with trestle := { s.trestle with composeHeld := some feed, heldBack := true } }

/-- A pass that is due begins if its walk is complete, and is held back if not (R212). -/
theorem composeStart_due {s : State} {a : Area} {frame : Word} {feed : Nat} (due : PassDue s frame feed) (area : s.area = some a) :
    composeStart s frame feed =
      let u := beamAdvanceTo s frame (composeFracs s a feed)
      if walkReady u feed frame then fetchFirst (passBegun (passTakes u feed) frame feed) a feed else passHeld u feed := by
  obtain ⟨runs, clear, idle, known, inOrder⟩ := due
  unfold composeStart
  rw [area]
  refine (if_neg (by simp [runs, clear, idle, known, inOrder])).trans ?_
  generalize beamAdvanceTo s frame (composeFracs s a feed) = u
  dsimp only
  cases walkReady u feed frame with
  | true => rfl
  | false => rfl

theorem composeStart_begins {s : State} {a : Area} {frame : Word} {feed : Nat} (due : PassDue s frame feed) (area : s.area = some a)
    (ready : walkReady s feed frame = true) :
    (composeStart s frame feed).comp.composing = some (frame, feed) ∧ (composeStart s frame feed).comp.linesDone = [] ∧
      (feed = 0 → (composeStart s frame feed).comp.shown = { active := flag s SC_EGSTAT_ACTIVE, entry := getF s SC_EGSTAT_ENTRY } ∧
        (composeStart s frame feed).comp.concealed = 0) := by
  obtain ⟨b, advances⟩ := beamAdvanceTo_beamOnly s frame (composeFracs s a feed)
  have walked : walkReady { s with beam := b } feed frame = true := ready
  rw [composeStart_due due area, advances, if_pos walked]
  have same := canvas_fetchFirst (passBegun (passTakes { s with beam := b } feed) frame feed) a feed
  refine ⟨congrArg Canvas.composing same, congrArg Canvas.linesDone same, ?_⟩
  rintro rfl
  exact ⟨congrArg Canvas.shown same, congrArg Canvas.concealed same⟩

theorem composeStart_heldBack {s : State} {a : Area} {frame : Word} {feed : Nat} (due : PassDue s frame feed) (area : s.area = some a)
    (waits : walkReady s feed frame = false) :
    (composeStart s frame feed).comp.composing = none ∧ (composeStart s frame feed).trestle.composeHeld = some feed := by
  obtain ⟨b, advances⟩ := beamAdvanceTo_beamOnly s frame (composeFracs s a feed)
  have held : ¬ walkReady { s with beam := b } feed frame = true := Bool.eq_false_iff.mp waits
  rw [composeStart_due due area, advances, if_neg held]
  exact ⟨due.idle, rfl⟩

/-! ### A pass ends -/

/-- The state in which a pass is over. -/
def passOver (s : State) : State :=
  { s with comp := { s.comp with composing := none }, trestle := { s.trestle with heldBack := false } }

theorem composeEnd_next {s : State} {frame : Word} {st : Nat} (composing : s.comp.composing = some (frame, st))
    (done : passDone s = true) (more : st + 1 < feeds s .applied) :
    composeEnd s = ({ passOver s with comp := { (passOver s).comp with nextPass := some (frame, st + 1) } }, false) := by
  unfold composeEnd
  rw [composing]
  dsimp only
  rw [if_neg (by simp [done])]
  exact if_pos more

/-- The state in which a frame is composed. -/
def frameOver (s : State) (frame : Word) : State :=
  { passOver s with comp := { (passOver s).comp with nextPass := none, lastComposed := some frame, lastRead := some frame } }

theorem sideboardFrame_leaves (s : State) :
    (sideboardFrame s).comp = { s.comp with sideboardRun := (sideboardFrame s).comp.sideboardRun } ∧
      ∀ k, k ≠ SC_SBSTAT → regWord (sideboardFrame s) k = regWord s k := by
  unfold sideboardFrame
  split
  · exact ⟨rfl, fun k other => (regWord_setF_ne _ SC_SBSTAT_VALEV _ k other).trans (regWord_setF_ne _ SC_SBSTAT_VALID _ k other)⟩
  · exact ⟨rfl, fun _ _ => rfl⟩

theorem concealmentRun_counts {s : State} (thr : getF s SC_ECCCTL_CTHR = 0) :
    concealmentRun s = countF (setF s SC_ECCCONC_LASTF (min s.comp.concealed 0xFFFF)) SC_ECCSTAT_CRUN 1 := by
  have zero : getF (setF s SC_ECCCONC_LASTF (min s.comp.concealed 0xFFFF)) SC_ECCCTL_CTHR = 0 :=
    (getF_setF_ne s _ _ _ (by decide) (by decide) (by decide)).trans thr
  unfold concealmentRun
  dsimp only
  rw [zero]
  exact if_pos (Nat.zero_le _)

/-- With CTHR = 0 no frame is a fatal fault (R385). -/
theorem concealmentFatal_calm {s : State} (thr : getF s SC_ECCCTL_CTHR = 0) : concealmentFatal (concealmentRun s) = false := by
  have still : getF (concealmentRun s) SC_ECCCTL_CTHR = 0 := by
    rw [concealmentRun_counts thr]
    exact (getF_countF_ne _ SC_ECCSTAT_CRUN _ _ (by decide) (by decide) (by decide)).trans
      ((getF_setF_ne s SC_ECCCONC_LASTF _ _ (by decide) (by decide) (by decide)).trans thr)
  unfold concealmentFatal
  rw [still]
  rfl

theorem sideboardFrame_threshold {s : State} {frame : Word} (thr : getF s SC_ECCCTL_CTHR = 0) :
    getF (sideboardFrame (frameOver s frame)) SC_ECCCTL_CTHR = 0 :=
  (getF_congr ((sideboardFrame_leaves (frameOver s frame)).2 _ (by decide))).trans thr

theorem composeEnd_frame {s : State} {frame : Word} {st : Nat} (composing : s.comp.composing = some (frame, st))
    (done : passDone s = true) (last : feeds s .applied ≤ st + 1) (thr : getF s SC_ECCCTL_CTHR = 0) :
    composeEnd s = (concealmentRun (sideboardFrame (frameOver s frame)), false) := by
  have calm := concealmentFatal_calm (sideboardFrame_threshold (frame := frame) thr)
  unfold composeEnd
  rw [composing]
  refine (if_neg (by simp [done])).trans ?_
  refine (if_neg (Nat.not_lt.mpr last)).trans ?_
  refine (if_neg (c := concealmentFatal (concealmentRun (sideboardFrame (frameOver s frame))) = true) ?_).trans rfl
  exact Bool.eq_false_iff.mp calm

/-- With CTHR = 0 a frame's end raises CRUN, and is no fatal fault (R179, R385). -/
theorem composeEnd_counts {s : State} {frame : Word} (thr : getF s SC_ECCCTL_CTHR = 0) :
    let t := concealmentRun (sideboardFrame (frameOver s frame))
    t.comp.composing = none ∧ t.comp.nextPass = none ∧ t.comp.lastComposed = some frame ∧
      getF t SC_ECCSTAT_CRUN = min (2 ^ SC_ECCSTAT_CRUN.width - 1) (getF s SC_ECCSTAT_CRUN + 1) ∧
      getF t SC_ECCSTAT_FATAL = getF s SC_ECCSTAT_FATAL := by
  obtain ⟨comp, regs⟩ := sideboardFrame_leaves (frameOver s frame)
  have field : ∀ f : Fld, f.addr ≠ SC_SBSTAT → f.fits → SC_ECCCONC_LASTF.apart f →
      getF (setF (sideboardFrame (frameOver s frame)) SC_ECCCONC_LASTF
        (min (sideboardFrame (frameOver s frame)).comp.concealed 0xFFFF)) f = getF s f := fun f other fits apart =>
    (getF_setF_ne _ _ _ _ (by decide) fits apart).trans (getF_congr (regs _ other))
  intro t
  have counts : t = _ := concealmentRun_counts (sideboardFrame_threshold thr)
  have same : t.comp = (sideboardFrame (frameOver s frame)).comp := by rw [counts]; rfl
  refine ⟨by rw [same, comp]; rfl, by rw [same, comp]; rfl, by rw [same, comp]; rfl, ?_, ?_⟩
  · rw [counts, getF_countF_same _ _ _ (by decide), field _ (by decide) (by decide) (by decide), Nat.min_comm]
    rfl
  · rw [counts, getF_countF_ne _ _ _ _ (by decide) (by decide) (by decide), field _ (by decide) (by decide) (by decide)]

theorem execComposeEnd_calm {s t : State} (on : scanOn s = true) (ends : composeEnd s = (t, false)) : exec .composeEnd s = .next t := by
  have answers : exec .composeEnd s =
      whenScan s fun s => if (composeEnd s).2 then fatalFault (composeEnd s).1 0 else (composeEnd s).1 := rfl
  rw [answers, whenScan_on on, ends]
  rfl

/-- Settles O41: a pass that is due begins, a line that is due is drawn, a pass that is done ends. -/
theorem composition : Obligations.Composition := by
  unfold Obligations.Composition
  intro s a frame feed region line late st on area
  refine ⟨fun runs clear idle known inOrder => ?_, fun awaited composing free => ?_,
    fun composing done => ⟨fun more => ?_, fun last thr => ?_⟩⟩
  · have due : PassDue s frame feed.toNat := ⟨runs, clear, idle, known, inOrder⟩
    have start := whenScan_on on fun s => composeStart s frame feed.toNat
    refine ⟨fun ready => ⟨_, start, ?_⟩, fun waits => ⟨_, start, composeStart_heldBack due area waits⟩⟩
    obtain ⟨begun, none', taken⟩ := composeStart_begins due area ready
    exact ⟨begun, none', fun first => taken (by rw [first]; rfl)⟩
  · obtain ⟨pass, lines, outside⟩ := composeAndSign_draws late line.isLt region.isLt area composing awaited free
    exact ⟨_, whenScan_on on fun s => composeAndSign s region.toNat line.toNat late, lines, pass.trans composing, outside⟩
  · exact ⟨_, execComposeEnd_calm on (composeEnd_next composing done more), rfl, rfl, rfl⟩
  · exact ⟨_, execComposeEnd_calm on (composeEnd_frame composing done last thr), composeEnd_counts thr⟩

end Sys2Proof.Machine
end

section
/-! SUPPORT. What reads, reports and credited writes of the scan die leave of scene memory: the sorter, the caches, DRAM and the
registers of R138 to R141 (R106, R127, R128, R177). -/

namespace Sys2Proof.Machine

/-- A register of scene memory (R138 to R141). -/
abbrev isSceneMemoryRegister (k : Nat) : Prop := 0x22F000 ≤ k ∧ k < 0x22F020

/-- From `s` to `t` the sorter, the caches, DRAM and the registers of scene memory stay. -/
structure LeavesScene (s t : State) : Prop where
  scene : t.scene = s.scene
  dram : t.dram = s.dram
  regs : ∀ k, isSceneMemoryRegister k → regWord t k = regWord s k

namespace LeavesScene

variable {s₀ s t u : State}

theorem refl (s : State) : LeavesScene s s := ⟨rfl, rfl, fun _ _ => rfl⟩

theorem trans (h : LeavesScene s t) (k : LeavesScene t u) : LeavesScene s u :=
  ⟨k.scene.trans h.scene, k.dram.trans h.dram, fun a own => (k.regs a own).trans (h.regs a own)⟩

theorem foldl {α : Type} {f : State → α → State} {l : List α} (hf : ∀ x ∈ l, ∀ u, LeavesScene u (f u x)) (s : State) :
    LeavesScene s (l.foldl f s) := by
  induction l generalizing s with
  | nil => exact refl s
  | cons x l ih =>
    obtain ⟨head, tail⟩ := List.forall_mem_cons.mp hf
    exact (head s).trans (ih tail (f s x))

theorem ite {c : Prop} [Decidable c] (yes : LeavesScene s t) (no : LeavesScene s u) : LeavesScene s (if c then t else u) := by
  split
  · exact yes
  · exact no

theorem getF (h : LeavesScene s t) {f : Fld} (own : isSceneMemoryRegister f.addr) : getF t f = getF s f := getF_congr (h.regs _ own)

theorem comp (h : LeavesScene s₀ s) (x : Composition) : LeavesScene s₀ { s with comp := x } := h.trans ⟨rfl, rfl, fun _ _ => rfl⟩

theorem setRegWord (h : LeavesScene s₀ s) {a : Nat} (away : ¬ isSceneMemoryRegister a) (w : Word) :
    LeavesScene s₀ (setRegWord s a w) :=
  h.trans ⟨rfl, rfl, fun _ own => regWord_setRegWord_ne _ _ _ _ fun e => away (e ▸ own)⟩

theorem setF (h : LeavesScene s₀ s) {f : Fld} (away : ¬ isSceneMemoryRegister f.addr) (v : Nat) : LeavesScene s₀ (setF s f v) :=
  h.setRegWord away _

theorem reported {as : List Nat} (h : LeavesScene s₀ s) (told : Reported as s t) (away : ∀ a ∈ as, ¬ isSceneMemoryRegister a) :
    LeavesScene s₀ t :=
  h.trans ⟨told.view (·.scene) fun _ _ _ _ _ => rfl, told.view (·.dram) fun _ _ _ _ _ => rfl,
    fun k own => told.regs k fun among => away k among own⟩

theorem recordScan (h : LeavesScene s₀ s) (cls : RecClass) (code p0 p1 p2 p3 : Nat) :
    LeavesScene s₀ (recordScan s cls code p0 p1 p2 p3) :=
  h.reported ((Reported.refl [] s).recordScan cls code p0 p1 p2 p3) (by simp)

theorem raiseBits (h : LeavesScene s₀ s) {n : Nat} (scan : isScanSource n = true) {f : Fld} (away : ¬ isSceneMemoryRegister f.addr)
    (bits : Nat) : LeavesScene s₀ (raiseBits s n f bits) :=
  (h.setF away _).reported (Reported.raiseBits_orF s scan f bits) (by simp)

theorem perfCount (h : LeavesScene s₀ s) (event k : Nat) : LeavesScene s₀ (perfCount s event k) := by
  refine h.trans (foldl (fun n hn t => ?_) s)
  have select : ∀ i < 4, ¬ isSceneMemoryRegister (SC_PERFSEL_OVF i).addr := by decide
  unfold perfAdd
  split
  · dsimp only
    split
    · exact ((refl t).setF (select n (List.mem_range.mp hn)) 1).trans ⟨rfl, rfl, fun _ _ => rfl⟩
    · exact ⟨rfl, rfl, fun _ _ => rfl⟩
  · exact refl t

theorem noteGuard (h : LeavesScene s₀ s) (writer a : Nat) (us : List Nat) : LeavesScene s₀ (noteGuard s writer a us) := by
  unfold Machine.noteGuard
  split
  · exact h
  · next g _ =>
    have shown := (((Reported.refl [SC_GUARDSTAT, SC_GUARDADDR] s).countF (f := SC_GUARDSTAT_VIOL) (by decide) 1).setF
      (f := SC_GUARDSTAT_WRITER) (by decide) writer).setF (f := SC_GUARDSTAT_WINDOW) (by decide) g
    have told := (shown.setF (f := SC_GUARDADDR_ADDR) (by decide) a).raiseEvent (n := 56) (f := SC_GUARDSTAT_VIOLEV) rfl (by decide)
    exact h.reported (told.recordScan _ _ _ _ _ _) (by decide)

/-! Commits: their counters, and the refusal that a write's credit can bring. -/

theorem dropCommit (h : LeavesScene s₀ s) (c : Commit) : LeavesScene s₀ (dropCommit s c) := by
  unfold Machine.dropCommit
  dsimp only
  split
  · exact h.comp _
  · exact h.trans ⟨rfl, rfl, fun _ _ => rfl⟩

theorem reportRegisters (h : LeavesScene s₀ s) (c : Commit) (reason : Nat) (f : Fail) :
    LeavesScene s₀ (reportRegisters s c reason f) := by
  have away : ∀ st < 4, ¬ isSceneMemoryRegister (SC_CMRES st) ∧ ¬ isSceneMemoryRegister (SC_CMEPR st) ∧
      ¬ isSceneMemoryRegister (SC_CMFAIL st) := by decide
  obtain ⟨res, epr, fail⟩ := away c.stream.toNat c.stream.isLt
  have result := ((((h.setF (f := SC_CMRES_REASON c.stream.toNat) res reason).setF (f := SC_CMRES_SOURCE c.stream.toNat) res
    (srcId c.src)).setF (f := SC_CMRES_TFRAME c.stream.toNat) res c.tframe.toNat).setF (f := SC_CMEPR_EPOCH c.stream.toNat) epr
    c.epoch.toNat).setRegWord fail (BitVec.ofNat 32 f.word)
  unfold Machine.reportRegisters
  dsimp only
  split
  · exact ((result.comp _).setF (f := SC_CMCNT_ACCEPTED) (by decide) _).raiseBits rfl (by decide) _
  · exact ((result.comp _).setF (f := SC_CMCNT_REFUSED) (by decide) _).raiseBits rfl (by decide) _

theorem sendResult (h : LeavesScene s₀ s) (c : Commit) (reason : Nat) : LeavesScene s₀ (sendResult s c reason) := by
  unfold Machine.sendResult sendOrHold
  split
  · exact h
  split
  · exact h.trans ⟨rfl, rfl, fun _ _ => rfl⟩
  · exact h.reported ((Reported.refl [] s).sendToHouse _) (by simp)

theorem refuseCommit (h : LeavesScene s₀ s) (c : Commit) (reason : Reason) (f : Fail) :
    LeavesScene s₀ (refuseCommit s c reason f) := by
  have told := ((h.dropCommit c).reportRegisters c reason.code f).sendResult c reason.code
  have released : ∀ {u} x src, LeavesScene s₀ u → LeavesScene s₀ (releaseBehind { u with comp := x } src) := fun x src k =>
    (k.comp x).trans ⟨rfl, rfl, fun _ _ => rfl⟩
  unfold Machine.refuseCommit
  refine released _ _ ?_
  split
  · exact told
  · exact told.recordScan _ _ _ _ _ _

theorem countOpen (h : LeavesScene s₀ s) (src : Src) : LeavesScene s₀ (countOpen s src) := by
  unfold Machine.countOpen
  split
  · split
    · exact h
    · exact h.comp _
  · split
    · exact h.comp _
    · exact h.comp _

theorem creditWrite (h : LeavesScene s₀ s) (src : Src) : LeavesScene s₀ (creditWrite s src) := by
  unfold Machine.creditWrite
  split
  · exact h
  split
  · split
    · exact (h.refuseCommit _ _ _).countOpen src
    · unfold creditCommit
      dsimp only
      split
      · exact (h.comp _).refuseCommit _ _ _
      · exact h.comp _
  · exact h.countOpen src

/-! A read of DRAM (R382, R383): an error it meets can change DRAM. -/

theorem noteScanCE (h : LeavesScene s₀ s) : LeavesScene s₀ (noteScanCE s) :=
  h.reported (((Reported.refl [SC_ECCCNT, SC_ECCSTAT] s).countF (f := SC_ECCCNT_CE) (by decide) 1).raiseEvent (n := 65)
    (f := SC_ECCSTAT_CEEV) rfl (by decide)) (by decide)

theorem withDram (h : LeavesScene s₀ s) (d : Dram) : LeavesScene { s₀ with dram := d } { s with dram := d } :=
  ⟨h.scene, rfl, h.regs⟩

theorem noteScanUE (h : LeavesScene s₀ s) (addr macroNo req : Nat) :
    ∃ d, LeavesScene { s₀ with dram := d } (noteScanUE s addr macroNo req) := by
  have noted := (((Reported.refl [SC_ECCCNT, SC_UEADDR, SC_UESRC, SC_ECCSTAT] s).countF (f := SC_ECCCNT_UE) (by decide) 1).setF
    (f := SC_UEADDR_ADDR) (by decide) addr).setF (f := SC_UESRC_MACRO) (by decide) macroNo
  have raised := (noted.setF (f := SC_UESRC_REQ) (by decide) req).raiseEvent (n := 65) (f := SC_ECCSTAT_UEEV) rfl (by decide)
  have told := h.reported raised (by decide)
  unfold Machine.noteScanUE
  dsimp only
  split
  · exact ⟨_, told.withDram _⟩
  · exact ⟨_, (told.withDram _).recordScan _ _ _ _ _ _⟩

end LeavesScene

/-- A read of a unit leaves all but DRAM, where it can correct a unit or note an error. -/
theorem touchUnit_leaves (s : State) (u req : Nat) : ∃ d, LeavesScene { s with dram := d } (touchUnit s u req) := by
  have counted := (LeavesScene.refl s).perfCount 0x01 1
  unfold touchUnit
  split
  · exact ⟨s.dram, .refl s⟩
  dsimp only
  split
  · exact ⟨_, (counted.withDram _).noteScanCE⟩
  · split
    · exact counted.noteScanUE _ _ _
    · exact ⟨_, counted.withDram _⟩

/-- A good unit is read without a report. -/
theorem touchUnit_good {s : State} {u : Nat} (good : unitState s u = .good) (req : Nat) : LeavesScene s (touchUnit s u req) := by
  have counted := (LeavesScene.refl s).perfCount 0x01 1
  have still : unitState (perfCount s 0x01 1) u = .good := by rw [unitState, counted.dram]; exact good
  have fine : unitBad (perfCount s 0x01 1) u = false := by simp [unitBad, still]
  unfold touchUnit
  split
  · exact .refl s
  · simp only [still, fine, Bool.false_eq_true, if_false]
    exact counted

end Sys2Proof.Machine
end

section
/-! SUPPORT. A write to DRAM over good units stores its bytes and no others (R102, R105, R106, R381). -/

namespace Sys2Proof.Machine

/-- From DRAM `d` to DRAM `e` bytes are stored from address `a` on, and nothing else is; the units' states stay. -/
structure DramStores (d e : Dram) (a : Nat) (bs : List Byte) : Prop where
  units : ∀ u, sget e.units .unwritten u = sget d.units .unwritten u
  inside : ∀ i < bs.length, sget e.bytes 0 (a + i) = bs.getD i 0
  outside : ∀ b, b < a ∨ a + bs.length ≤ b → sget e.bytes 0 b = sget d.bytes 0 b

namespace DramStores

theorem nil (d : Dram) (a : Nat) : DramStores d d a [] := ⟨fun _ => rfl, fun _ h => absurd h (Nat.not_lt_zero _), fun _ _ => rfl⟩

theorem append {d e f : Dram} {a : Nat} {xs ys : List Byte} (h : DramStores d e a xs) (k : DramStores e f (a + xs.length) ys) :
    DramStores d f a (xs ++ ys) where
  units u := (k.units u).trans (h.units u)
  inside i hi := by
    rw [List.length_append] at hi
    rcases Nat.lt_or_ge i xs.length with first | second
    · rw [k.outside _ (.inl (by omega)), h.inside i first, List.getD_append _ _ _ _ first]
    · have last := k.inside (i - xs.length) (by omega)
      rwa [Nat.add_assoc, Nat.add_sub_cancel' second, ← List.getD_append_right _ _ _ _ second] at last
  outside b away := by
    rw [List.length_append] at away
    rw [k.outside b (by omega), h.outside b (by omega)]

theorem setDramByte (s : State) (a : Nat) (x : Byte) : DramStores s.dram (setDramByte s a x).dram a [x] where
  units _ := rfl
  inside i hi := by
    obtain rfl : i = 0 := Nat.lt_one_iff.mp hi
    exact sget_sput_same s.dram.bytes 0 a x
  outside b away := sget_sput_ne s.dram.bytes 0 0 a b x (by simp only [List.length_singleton] at away; omega)

theorem setDramBytes (s : State) (a : Nat) (bs : List Byte) : DramStores s.dram (setDramBytes s a bs).dram a bs := by
  induction bs generalizing s a with
  | nil => exact nil s.dram a
  | cons x bs ih => exact (setDramByte s a x).append (ih (Machine.setDramByte s a x) (a + 1))

/-- Where nothing is stored, the address does not matter. -/
theorem of_no_bytes {d e : Dram} {a b : Nat} {bs : List Byte} (h : DramStores d e a bs) (same : b = a ∨ bs.length = 0) :
    DramStores d e b bs := by
  rcases same with rfl | empty
  · exact h
  · obtain rfl := List.eq_nil_of_length_eq_zero empty
    exact ⟨h.units, fun _ empty => absurd empty (Nat.not_lt_zero _), fun k _ => h.outside k (by rw [List.length_nil]; omega)⟩

/-- Marking a good unit good changes no state of a unit. -/
theorem setUnit {d : Dram} {s : State} {a u : Nat} {bs : List Byte} (h : DramStores d s.dram a bs)
    (good : sget d.units .unwritten u = .good) : DramStores d (setUnit s u .good).dram a bs where
  units v := by
    show sget (sput s.dram.units .unwritten u .good) .unwritten v = _
    by_cases own : v = u
    · rw [own, sget_sput_same, good]
    · rw [sget_sput_ne _ _ _ _ _ _ own, h.units v]
  inside := h.inside
  outside := h.outside

/-- A write within one good unit. -/
theorem writeUnit {s : State} {a : Nat} (good : unitState s (a / 64) = .good) (req : Nat) (bs : List Byte) :
    DramStores s.dram (writeUnit s req a bs).dram a bs := by
  have counted := (LeavesScene.refl s).perfCount 0x02 1
  have still : unitState (perfCount s 0x02 1) (a / 64) = .good := by rw [unitState, counted.dram]; exact good
  have fine : unitBad (perfCount s 0x02 1) (a / 64) = false := by simp [unitBad, still]
  have stores : ∀ {v}, LeavesScene s v →
      DramStores s.dram (Machine.setUnit (Machine.setDramBytes v a bs) (a / 64) .good).dram a bs :=
    fun {v} k => (k.dram ▸ setDramBytes v a bs : DramStores s.dram _ a bs).setUnit good
  unfold Machine.writeUnit
  simp only [still, fine, Bool.false_eq_true, if_false]
  split
  · exact stores counted
  · exact stores (counted.trans (touchUnit_good still req))

/-- A write over good units, unit by unit. -/
theorem writeExtentFuel (req : Nat) : ∀ {fuel : Nat} {s : State} {a : Nat} {bs : List Byte}, a % 64 + bs.length ≤ 64 * fuel →
    (∀ b, a ≤ b → b < a + bs.length → unitState s (b / 64) = .good) →
      DramStores s.dram (writeExtentFuel s req fuel a bs).dram a bs := by
  intro fuel
  induction fuel with
  | zero =>
    intro s a bs enough _
    obtain rfl : bs = [] := List.eq_nil_of_length_eq_zero (by omega)
    exact nil s.dram a
  | succ fuel ih =>
    intro s a bs enough good
    unfold Machine.writeExtentFuel
    split
    · next empty =>
      obtain rfl : bs = [] := List.isEmpty_iff.mp empty
      exact nil s.dram a
    · next more =>
      have pos : 0 < bs.length := List.length_pos_iff.mpr fun e => more (by rw [e]; rfl)
      dsimp only
      have first := writeUnit (s := s) (good a (Nat.le_refl a) (by omega)) req (bs.take (64 - a % 64))
      have rest := ih (s := Machine.writeUnit s req a (bs.take (64 - a % 64))) (a := a + (64 - a % 64))
        (bs := bs.drop (64 - a % 64)) (by rw [List.length_drop]; omega) fun b low high => by
          rw [List.length_drop] at high
          exact (first.units (b / 64)).trans (good b (by omega) (by omega))
      have whole := first.append (rest.of_no_bytes (by rw [List.length_take, List.length_drop]; omega))
      rwa [List.take_append_drop] at whole

end DramStores
end Sys2Proof.Machine
end

section
/-! SUPPORT. A scene write at the DRAM controller, the sorter's steps, and what an obligation says of scene memory (R105, R106,
R120, R127, R131, R136). -/

namespace Sys2Proof.Machine

/-! ### A DRAM write applies -/

theorem unitsOf_covers {a len b : Nat} (low : a ≤ b) (high : b < a + len) : b / 64 ∈ unitsOf a len := by
  have first := Nat.div_le_div_right (c := 64) low
  have last := Nat.div_le_div_right (c := 64) (Nat.le_sub_one_of_lt high)
  rw [unitsOf, if_neg (by omega)]
  exact List.mem_map.mpr ⟨b / 64 - a / 64, List.mem_range.mpr (by omega), by omega⟩

theorem writeExtent_stores {s v : State} {a : Nat} {bs : List Byte} (same : v.dram = s.dram)
    (good : ∀ u ∈ unitsOf a bs.length, unitState s u = .good) (req : Nat) :
    DramStores s.dram (writeExtent v req a bs).dram a bs := by
  rw [← same]
  refine DramStores.writeExtentFuel req (by omega) fun b low high => ?_
  rw [unitState, same]
  exact good _ (unitsOf_covers low high)

/-- The guard windows and the caches see a part of a write before it is stored, and leave DRAM. -/
theorem applyPart_stores {s : State} {a : Nat} {bs : List Byte} (good : ∀ u ∈ unitsOf a bs.length, unitState s u = .good)
    (w : Writer) : DramStores s.dram (applyPart s w (a, bs)).dram a bs := by
  have told : LeavesScene s (if w.guarded then noteGuard s w.req a (unitsOf a bs.length) else s) :=
    .ite ((LeavesScene.refl s).noteGuard _ _ _) (.refl s)
  exact writeExtent_stores (v := invalidateUnits _ (unitsOf a bs.length)) told.dram good w.req

/-- Below the top and with no protected copy a write goes to DRAM as one part. -/
theorem dramWrite_stores {s : State} {a : Nat} {bs : List Byte} (below : a + bs.length ≤ 0xF8000000) (free : egressBase s = 0)
    (good : ∀ u ∈ unitsOf a bs.length, unitState s u = .good) (w : Writer) (credit : Option Src) :
    DramStores s.dram (dramWrite s w credit a bs).dram a bs := by
  have top : dramTop + 1 = 0xF8000000 := rfl
  unfold dramWrite
  split
  · next beyond =>
    obtain rfl : bs = [] := List.eq_nil_of_length_eq_zero (by omega)
    exact .nil s.dram a
  · have whole : bs.take (dramTop + 1 - a) = bs := List.take_of_length_le (by omega)
    have one : (if w.hutch then [(a, bs)] else egressParts s a bs) = [(a, bs)] := by
      rw [egressParts, if_pos free, ite_self]
    simp only [whole, one, List.map_cons, List.map_nil, List.foldl_cons, List.foldl_nil, Nat.zero_add, Nat.lt_irrefl, if_false]
    exact applyPart_stores good w

theorem dramWrite_beyond {s : State} {a : Nat} (beyond : 0xF8000000 ≤ a) (w : Writer) (credit : Option Src) (bs : List Byte) :
    dramWrite s w credit a bs = countF s SC_SCENECNT_BADADDR 1 :=
  if_pos (Nat.lt_of_lt_of_le (by decide) beyond)

/-- Beside the write itself its source is credited. -/
theorem applyDramWrite_leaves (s : State) (src : Src) (a : Nat) (bs : List Byte) :
    ∃ w credit, LeavesScene (dramWrite s w credit a bs) (applyDramWrite s src a bs) := by
  refine ⟨{ req := srcId src, guarded := true, hutch := decide (src = .hutch) }, if isCommitSource src then some src else none,
    .ite ?_ (.refl _)⟩
  exact (LeavesScene.refl _).creditWrite src

theorem DramStores.dramByte_outside {s t : State} {a b : Nat} {bs : List Byte} (h : DramStores s.dram t.dram a bs)
    (away : b < a ∨ a + bs.length ≤ b) : dramByte t b = dramByte s b := by
  have same : unitState t (b / 64) = unitState s (b / 64) := h.units _
  rw [dramByte, dramByte, same, h.outside b away]

theorem DramStores.dramByte_inside {s t : State} {a i : Nat} {bs : List Byte} (h : DramStores s.dram t.dram a bs)
    (within : i < bs.length) (below : a + bs.length ≤ 0xF8000000) (good : unitState s ((a + i) / 64) = .good) :
    dramByte t (a + i) = bs.getD i 0 := by
  have same : unitState t ((a + i) / 64) = .good := (h.units _).trans good
  have reached : unitClosed ((a + i) / 64) = false := by
    have last : dramTop / 64 + 1 = 0xF8000000 / 64 := rfl
    simp only [unitClosed, decide_eq_false_iff_not]
    omega
  rw [dramByte, reached, same, h.inside i within]
  rfl

/-! ### The sorter -/

/-- Where the sorter stands: its queue, its rescan, and SCAN, which shows one. -/
def sorterPlace (s : State) : List SortEntry × Option Nat × Nat := (s.scene.queue, s.scene.rescan, getF s SC_OBJSTAT_SCAN)

theorem LeavesScene.sorterPlace {s t : State} (h : LeavesScene s t) : sorterPlace t = sorterPlace s := by
  rw [Machine.sorterPlace, h.scene, h.getF (by decide)]
  rfl

theorem sorterPlace_touchUnit (s : State) (u req : Nat) : sorterPlace (touchUnit s u req) = sorterPlace s := by
  obtain ⟨d, leaves⟩ := touchUnit_leaves s u req
  exact leaves.sorterPlace

theorem sorterPlace_noteBinding (s : State) (n : Nat) (o : Option Obj) : sorterPlace (noteBinding s n o) = sorterPlace s := by
  unfold noteBinding
  split
  · split <;> rfl
  · rfl

theorem sorterPlace_setF (s : State) {f : Fld} (fits : f.fits) (apart : f.apart SC_OBJSTAT_SCAN) (v : Nat) :
    sorterPlace (setF s f v) = sorterPlace s := by
  rw [sorterPlace, getF_setF_ne _ _ _ _ fits (by decide) apart]
  rfl

theorem sorterPlace_badEntry (s : State) : sorterPlace (badEntry s) = sorterPlace s := by
  have told := ((Reported.refl [SC_OBJEVQ, SC_OBJSTAT] s).countF (f := SC_OBJEVQ_BADENT) (by decide) 1).raiseEvent (n := 64)
    (f := SC_OBJSTAT_BADEV) rfl (by decide)
  have scan : getF (badEntry s) SC_OBJSTAT_SCAN = getF s SC_OBJSTAT_SCAN :=
    (getF_raiseEvent_ne _ rfl (by decide) (by decide) (by decide)).trans
      (getF_countF_ne s _ _ 1 (by decide) (by decide) (by decide))
  have same : (badEntry s).scene = s.scene := told.view (·.scene) fun _ _ _ _ _ => rfl
  rw [sorterPlace, same, scan]
  rfl

theorem sorterPlace_putShadow (s : State) (n : Nat) (o : Option Obj) : sorterPlace (putShadow s n o) = sorterPlace s := by
  unfold putShadow noteShadow
  dsimp only
  rw [sorterPlace_setF _ (by decide) (by decide), sorterPlace_setF _ (by decide) (by decide)]
  rfl

theorem sorterPlace_evaluateEntry (s : State) (n : Nat) : sorterPlace (evaluateEntry s n) = sorterPlace s := by
  have put : ∀ v o, sorterPlace v = sorterPlace s → sorterPlace (putShadow v n o) = sorterPlace s := fun v o k =>
    (sorterPlace_putShadow v n o).trans k
  have bound : ∀ u o, sorterPlace (noteBinding (touchUnit s u 0x53) n o) = sorterPlace s := fun u o =>
    (sorterPlace_noteBinding _ n o).trans (sorterPlace_touchUnit s u 0x53)
  unfold evaluateEntry
  dsimp only
  split
  · exact ((LeavesScene.refl _).recordScan _ _ _ _ _ _).sorterPlace.trans
      (put _ _ ((sorterPlace_badEntry _).trans (bound _ _)))
  split
  · exact put _ _ (bound _ _)
  split
  · exact put _ _ ((sorterPlace_badEntry _).trans (bound _ _))
  · exact put _ _ (bound _ _)

/-- The entry that the sorter takes off its queue. -/
def entryTaken (s : State) (es : List SortEntry) : State := noteQueue { s with scene := { s.scene with queue := es } }

/-- The evaluation of the entry at the head, before its writes are credited. -/
def headEvaluated (s : State) (e : SortEntry) (es : List SortEntry) : State :=
  if e.entry < objectCount s then evaluateEntry (entryTaken s es) e.entry else entryTaken s es

theorem entryTaken_getF (s : State) (es : List SortEntry) {f : Fld} (fits : f.fits) (apart : SC_OBJEVQ_QDEPTH.apart f) :
    getF (entryTaken s es) f = getF s f := getF_setF_ne _ _ _ _ (by decide) fits apart

/-- Without a rescan the head is evaluated and then credited. -/
theorem objectEvaluate_leaves {s : State} {e : SortEntry} {es : List SortEntry} (idle : s.scene.rescan = none)
    (waits : s.scene.queue = e :: es) : LeavesScene (headEvaluated s e es) (objectEvaluate s) := by
  have count : objectCount (entryTaken s es) = objectCount s := entryTaken_getF s es (by decide) (by decide)
  have evaluates : objectEvaluate s = e.credits.foldl creditWrite
      (if e.entry < objectCount (entryTaken s es) then evaluateEntry (entryTaken s es) e.entry else entryTaken s es) := by
    unfold objectEvaluate
    rw [idle, waits]
    rfl
  rw [evaluates, count]
  exact LeavesScene.foldl (fun src _ u => (LeavesScene.refl u).creditWrite src) _

theorem sorterPlace_objectEvaluate {s : State} {e : SortEntry} {es : List SortEntry} (idle : s.scene.rescan = none)
    (waits : s.scene.queue = e :: es) : sorterPlace (objectEvaluate s) = (es, none, getF s SC_OBJSTAT_SCAN) := by
  have taken : sorterPlace (entryTaken s es) = (es, none, getF s SC_OBJSTAT_SCAN) := by
    rw [sorterPlace, entryTaken_getF s es (by decide) (by decide), ← idle]
    rfl
  rw [(objectEvaluate_leaves idle waits).sorterPlace, ← taken, headEvaluated]
  split
  · exact sorterPlace_evaluateEntry _ _
  · rfl

theorem sorterPlace_drainSorter (es : List SortEntry) {s : State} (idle : s.scene.rescan = none) (waits : s.scene.queue = es) :
    sorterPlace (drainSorter s es.length) = ([], none, getF s SC_OBJSTAT_SCAN) := by
  induction es generalizing s with
  | nil => exact Prod.ext waits (Prod.ext idle rfl)
  | cons e es ih =>
    have taken := sorterPlace_objectEvaluate idle waits
    have scan : getF (objectEvaluate s) SC_OBJSTAT_SCAN = getF s SC_OBJSTAT_SCAN := congrArg (·.2.2) taken
    exact (ih (congrArg (·.2.1) taken) (congrArg (·.1) taken)).trans (by rw [scan])

/-- A rescan ends with every entry evaluated, and so is what waited (R131). -/
theorem sorterPlace_rescanDone {s : State} (runs : s.scene.rescan.isSome = true) : sorterPlace (rescanDone s) = ([], none, 0) := by
  have running : ¬ s.scene.rescan.isNone = true := by simpa [Option.isSome_iff_ne_none] using runs
  unfold rescanDone
  rw [if_neg running]
  dsimp only
  rw [sorterPlace_drainSorter _ rfl rfl, getF_setF_same _ _ _ (by decide)]
  rfl

/-- An entry in a good unit with EN = 0 leaves the shadow set (R120, R127). -/
theorem evaluateEntry_disabled {s : State} {n : Nat} (good : unitState s (objectBase s / 64 + n) = .good)
    (off : bitAt (dramNat s (objectBase s + 64 * n + 12) 4) 31 = false) : sfind (evaluateEntry s n).scene.shadow n = none := by
  have unit : (objectBase s + 64 * n) / 64 = objectBase s / 64 + n := Nat.add_mul_div_left _ _ (by decide)
  have fine : ¬ unitBad s ((objectBase s + 64 * n) / 64) = true := by simp [unitBad, unit, good]
  have disabled : (!bitAt (dramNat s (objectBase s + 64 * n + 4 * 3) 4) 31) = true := by rw [Bool.not_eq_true']; exact off
  unfold evaluateEntry
  dsimp only
  rw [if_neg fine, if_pos disabled]
  exact sfind_serase_same _ n

/-! ### The table's registers and the caches -/

/-- A write of a register of the table stores its fields and starts a rescan. -/
theorem tableWrite_rescans {s : State} (on : scanOn s = true) {a : Nat} {r : RegSpec} {idx : List Nat}
    (spec : regSpecAt a = some (r, idx)) (scan : isScanAddr a = true) (other : isSceneAddr a = false)
    (present : registerPresent s.variant r idx = true) (table : r.hook = .objTable) (src : Src) (w : Word) :
    ∃ u, rowWrite s src a w = .next (countOnce s (startRescan u)) := by
  have special : specialWrite s src r idx a w = none := by simp only [specialWrite, table]
  have early : r.hook ≠ .hsRsvwr := by rw [table]; decide
  rw [rowWrite_scan on scan other, regWrite_byFields spec scan present early special, table]
  exact ⟨_, rfl⟩

theorem objectTableWrite_rescans {s : State} (on : scanOn s = true) (src : Src) (ctl : Bool) (val : Word) :
    ∃ u, exec (.objectTableWrite src ctl val) s = .next (countOnce s (startRescan u)) := by
  cases ctl with
  | true => exact tableWrite_rescans on (a := SC_OBJCTL) (r := sceneRegs[1]) (idx := []) rfl rfl rfl rfl rfl src val
  | false => exact tableWrite_rescans on (a := SC_OBJBASE) (r := sceneRegs[0]) (idx := []) rfl rfl rfl rfl rfl src val

theorem countOnce_scene (a b : State) : (countOnce a b).scene = b.scene := by
  unfold countOnce
  dsimp only
  split <;> rfl

theorem startRescan_scan (s : State) : getF (startRescan s) SC_OBJSTAT_SCAN = 1 := getF_setF_same _ _ _ (by decide)

theorem bitWrite_scan {s : State} {f : Fld} (on : scanOn s = true) (scan : isScanAddr f.addr = true)
    (other : isSceneAddr f.addr = false) :
    bitWrite s f = .next (regWriteBits s .dresser f.addr (fieldMask f.hi f.lo) (fieldMask f.hi f.lo)) := by
  unfold bitWrite
  rw [if_pos scan, whenScan_on on, creditScene_other other]

/-- A write of INVAL = 1 invalidates the caches. -/
theorem patternCacheInvalidate_empties {s : State} (on : scanOn s = true) :
    ∃ b u, exec .patternCacheInvalidate s = .next (countOnce b (invalidateAll u)) := by
  have row : ClearRow SC_PCCTL_INVAL _ _ := ⟨rfl, by decide, fun _ _ => rfl, by decide⟩
  obtain ⟨b, v, -, -, -, write⟩ := row.writeRegister (s := s) (beforeWrite_other (by decide)) rfl
  rw [← row.writeBits rfl] at write
  have clear : (soleWord s SC_PCCTL_INVAL).getLsbD 1 = false := row.bit (by decide) 1 (by decide)
  have inval : (soleWord s SC_PCCTL_INVAL).getLsbD 0 = true := row.bit (by decide) 0 (by decide)
  have effect : afterScanWrite b v .dresser .pcCtl 0 (soleWord s SC_PCCTL_INVAL) = invalidateAll v := by
    simp only [afterScanWrite, clear, inval, if_true, Bool.false_eq_true, if_false]
  refine ⟨b, v, (bitWrite_scan (f := SC_PCCTL_INVAL) on rfl rfl).trans ?_⟩
  rw [write, ← effect]
  rfl

/-- Settles O43: a write by what it stores, the sorter by where it stands after each step, the rows by their register's write. -/
theorem sceneMemory : Obligations.SceneMemory := by
  unfold Obligations.SceneMemory
  intro s src addr val data ctl e es on
  obtain ⟨w, credit, leaves⟩ := applyDramWrite_leaves s src addr.toNat data
  have write : exec (.dramWriteApply src addr data) s =
      .next (if sorterFull s addr.toNat data.length then s else applyDramWrite s src addr.toNat data) :=
    whenScan_on on fun s => if sorterFull s addr.toNat data.length then s else applyDramWrite s src addr.toNat data
  refine ⟨fun room free below good => ?_, fun room beyond => ?_, fun full => ?_, fun idle waits => ?_, ?_, fun runs => ?_, ?_⟩
  · have stores : DramStores s.dram (applyDramWrite s src addr.toNat data).dram addr.toNat data := by
      rw [leaves.dram]
      exact dramWrite_stores below free good w credit
    exact ⟨_, write.trans (by rw [room]; rfl),
      fun i within => stores.dramByte_inside within below (good _ (unitsOf_covers (Nat.le_add_right _ _) (by omega))),
      fun b away => stores.dramByte_outside away⟩
  · rw [dramWrite_beyond beyond] at leaves
    refine ⟨_, write.trans (by rw [room]; rfl), ?_, leaves.dram⟩
    rw [leaves.getF (by decide), getF_countF_same _ _ _ (by decide), Nat.min_comm]
    rfl
  · rw [write, if_pos full]
  · refine ⟨_, whenScan_on on objectEvaluate, congrArg (·.1) (sorterPlace_objectEvaluate idle waits), fun known good off => ?_⟩
    have base : objectBase (entryTaken s es) = objectBase s :=
      congrArg (· * 4096) (entryTaken_getF s es (f := SC_OBJBASE_BASE) (by decide) (by decide))
    rw [(objectEvaluate_leaves idle waits).scene, headEvaluated, if_pos known]
    exact evaluateEntry_disabled (by rw [base]; exact good) (by rw [base]; exact off)
  · obtain ⟨u, run⟩ := objectTableWrite_rescans on src ctl val
    refine ⟨_, run, ?_, ?_, ?_⟩
    · rw [countOnce_scene]; rfl
    · rw [countOnce_scene]; rfl
    · rw [getF_congr (countOnce_regWord (by decide)), startRescan_scan]
  · have place := sorterPlace_rescanDone runs
    exact ⟨_, whenScan_on on rescanDone, congrArg (·.2.1) place, congrArg (·.1) place, congrArg (·.2.2) place⟩
  · obtain ⟨b, u, run⟩ := patternCacheInvalidate_empties on
    exact ⟨_, run, congrArg Scene.cache (countOnce_scene b (invalidateAll u))⟩

end Sys2Proof.Machine
end

section
/-! SUPPORT. Two commits that are accepted in one instant, with an entry in the immediate list (R125, R182, R221). SC_TRIMMCTL holds
STREAMS, which a commit applies, beside ACOUNT, the number of list entries applied: the first acceptance changes ACOUNT, and the
second applies the word as it then stands. -/

namespace Sys2Proof.Machine

namespace AcceptedTogether

/-- A commit of the dresser for frame 1, admitted. -/
def dresserCommit : Commit := Tests.heldCommit 1 0 0 .admitted

/-- That commit and one of core 0 for the same frame, with an entry in the immediate list; the beam is LOCKED. -/
def twoCommits : State :=
  { Tests.running with
    comp := { Tests.running.comp with commits := [dresserCommit, { dresserCommit with src := .core 0 }] },
    trestle := { Tests.running.trestle with immShadow := [{ w0 := 0, w1 := 0, w2 := 0, w3 := 0 }] } }

/-- A commit of any stream covers SC_TRIMMCTL, which no stream owns (R181). -/
theorem coveredBy_trimmctl (st : Nat) : coveredBy st SC_TRIMMCTL = true := by
  have scene : isSceneAddr SC_TRIMMCTL = true := by decide +kernel
  rw [coveredBy, scene]
  rfl

/-- The dresser's commit may be accepted: frame 0 is composed, and the beam is not FREE (R78, R179). -/
theorem twoCommits_ready : twoCommits.wf ∧ scanOn twoCommits = true ∧
    commitAt twoCommits .dresser .admitted = some dresserCommit ∧
    frameComposed twoCommits (targetFrame twoCommits dresserCommit.tframe - 1) = true ∧ beamState twoCommits = bmLocked := by
  and_intros <;> decide +kernel

/-- ACOUNT is 0 before the commits are accepted, and 1 in the word that the second applies. -/
theorem twoCommits_acount : regWord twoCommits SC_TRIMMCTL = 0 ∧
    Tests.after (exec (.commitAccept .dresser) twoCommits) (fun t => appF t SC_TRIMMCTL_ACOUNT = 1) = true := by
  and_intros <;> decide +kernel

end AcceptedTogether

open AcceptedTogether in
/-- Refutes O45: of two commits that are accepted in one instant, the second applies SC_TRIMMCTL with the ACOUNT that the first has
put there, and not as it stood before. -/
theorem not_commitsAndEgress : ¬ Obligations.CommitsAndEgress := by
  intro holds
  obtain ⟨wf, on, admitted, composed, locked⟩ := twoCommits_ready
  obtain ⟨before, after⟩ := twoCommits_acount
  obtain ⟨_, _, _, accepts, _⟩ := holds twoCommits .dresser 0 dresserCommit { fence := 0, frame := 0 } [] 0 on
  have running : ¬ (beamState twoCommits = bmFree ∧ getF twoCommits SC_BEAMCTL_FREEACT = 2) := fun free =>
    absurd (locked.symm.trans free.1) (by decide)
  obtain ⟨t, next, applied, _⟩ := (accepts wf admitted).2 ⟨composed, running⟩
  have covered : (twoCommits.comp.commits.filter fun x => x.stage = .admitted && x.tframe = dresserCommit.tframe).any
      (fun x => coveredBy x.stream.toNat SC_TRIMMCTL) = true :=
    List.any_eq_true.mpr ⟨dresserCommit, by decide +kernel, coveredBy_trimmctl _⟩
  have word : appliedWord t SC_TRIMMCTL = 0 := by rw [applied SC_TRIMMCTL, if_pos covered, before]
  have zero : appF t SC_TRIMMCTL_ACOUNT = 0 := by
    rw [appF, show SC_TRIMMCTL_ACOUNT.addr = SC_TRIMMCTL from rfl, word]
    rfl
  rw [next] at after
  exact absurd (zero.symm.trans (of_decide_eq_true after)) (by decide)

end Sys2Proof.Machine
end

section
/-! SUPPORT. The dictionary's entries with an effect of their own: a token that opens the debug state erases keys under which a
slice may be decoding, and what waited behind that slice may then be reported lost to its source (R427, R428, R521, R530). -/

namespace Sys2Proof.Machine

/-! ### What a free dresser answers, and what an idle port sends -/

/-- The first request of those that wait is answered in the state that its execution leaves (R501). -/
theorem dictStep_answers {u v t : State} {r : DictRequest} {rs : List DictRequest} {a : Answer} (queue : u.dresser.queue = r :: rs)
    (firmware : u.dresser.firmware = none) (reading : u.dresser.reading = none) (credits : stalledAtBridge u .dresser = false)
    (rest : v = { u with dresser := { u.dresser with queue := rs } }) (here : readAcross v r = none)
    (run : runRequest v r = (t, some a)) : dictStep u = some (t, some (r, a)) := by
  subst rest
  rw [dictStep, reading]
  show (if u.dresser.firmware.isSome || stalledAtBridge u .dresser then none else _) = _
  rw [if_neg (by simp [firmware, credits]), queue]
  simp only [here, run, Option.map_some]

/-- A request that a free dresser answers at once is answered in the state that its execution leaves, where nothing follows it. -/
theorem submit_answered {s t : State} {r : DictRequest} {a : Answer} (free : DresserFree s) (here : readAcross s r = none)
    (run : runRequest s r = (t, some a)) (last : dictStep (deliverAnswer t r a) = none) : submit s r = deliverAnswer t r a := by
  obtain ⟨queue, firmware, reading, credits⟩ := free
  have first : dictStep { s with dresser := { s.dresser with queue := [r] } } = some (t, some (r, a)) :=
    dictStep_answers rfl firmware reading credits (by rw [← queue]) here run
  simp only [submit, pumpAll, queue, List.nil_append, List.length_singleton, dictPump, first, last]

/-- A write of the bench port that passes its checks is what its entry makes of it (R499). -/
theorem runRequest_benchWrite {s t : State} {r : DictRequest} {e : Entry} {st : Nat} (route : r.route = .bench)
    (dictionary : isFirmwareIndex r.index = false) (checks : checkRequest s r = stOk) (entry : entryAt r.index r.sub = some e)
    (cmd : r.cmd = 2) (sound : r.poison = false) (write : writeEntry s (classCode r.cls) 0 e r.index r.sub r.data = (t, st)) :
    runRequest s r = (t, some { status := st, typ := answerType r.index r.sub, value := [] }) := by
  simp only [runRequest, route, wholeRequest, dictionary, executeEntry, checks, entry, cmd, sound, requesterMid, write,
    bne_self_eq_false, Bool.false_eq_true, if_false]

/-- A value that its checks let pass has the effect of its entry, where nothing is stored first (R499, R504). -/
theorem writeEntry_special {s : State} {e : Entry} {v : List Byte} {k : Special} (cls smid index sub : Nat)
    (value : checkValue s e v = stOk) (volatile : e.persistent = false) (body : e.body = .special k) :
    writeEntry s cls smid e index sub v = writeSpecial s false cls smid k v := by
  simp only [writeEntry, value, storeValue, volatile, setEntry, body, bne_self_eq_false, Bool.not_false, Bool.false_eq_true,
    if_false, if_true]

/-- A token that every check lets pass, for the customer's debug state, opens that state (R529, R530). -/
theorem unlockToken_opens {s : State} {tok n : List Byte} (len : tok.length = 129) (fresh : s.hutch.failedAt = none)
    (nonce : s.hutch.nonce = some n) (target : leAt tok 0 1 = 1) (closed : debugState s = 0) (calm : s.hutch.alarmed = false)
    (good : tokenGood (nonceExpiry s) n tok = true) : unlockToken s tok = (debugOpen (nonceExpiry s) 1, stOk) := by
  have closed' : debugState (nonceExpiry s) = 0 := closed
  have fresh' : (nonceExpiry s).hutch.failedAt = none := fresh
  have calm' : (nonceExpiry s).hutch.alarmed = false := calm
  simp [unlockToken, len, fresh', nonce, target, closed', calm', good]

/-- With no frame of a virtual channel in flight, its first item has a credit, however many buffers the neighbour has (R407). -/
theorem firstOn_unused {x : Port} {vc : BitVec 2} (p : Nat) (unused : vcCount x.used vc.toNat = 0) :
    x.firstOn p vc = x.queue.find? fun q => q.pkt.vc = vc := by
  simp [Port.firstOn, unused]

/-- An item of CTRL that enters the queue of an idle port that is UP leaves at once (R407, R419). -/
theorem enqueueOut_idle {s : State} {p : Nat} {q : Queued} (idle : portOf s p = .reset) (lt : p < 7) (ctrl : q.pkt.vc = 2)
    (carries : portUp s p = true) (small : frameBytes q.pkt ≤ 131072) :
    enqueueOut s p q = sendFrame (setPort (setPort s p { Port.reset with queue := [q] }) p .reset) p q := by
  have held : portOf (setPort s p { Port.reset with queue := [q] }) p = { Port.reset with queue := [q] } := by
    simp [portOf, setPort, lt]
  have carries' : portUp (setPort s p { Port.reset with queue := [q] }) p = true := carries
  have next : nextItem (setPort s p { Port.reset with queue := [q] }) p { Port.reset with queue := [q] } =
      some (q, { Port.reset with queue := [q] }) := by
    rw [nextItem, firstOn_unused p (vc := 3) rfl, firstOn_unused p (vc := 2) rfl]
    simp [ctrl]
  have room : ({ Port.reset with queue := [q] } : Port).room q = true := by
    simpa [Port.room, Port.reset] using small
  have taken : ([q] : List Queued).erase q = [] := by simp
  rw [enqueueOut, idle]
  show drainPort (setPort s p { Port.reset with queue := [q] }) p 1 = _
  simp only [drainPort, held, next, carries', room, taken, Bool.not_true, Bool.or_self, Bool.false_eq_true, if_false]
  rfl

/-- A packet of the module's own to NEAREST leaves through its own riser (R416). -/
theorem routePacket_nearest {s : State} {x : Item} {p : Nat} (slot : Option (BitVec 14)) (nearest : x.pkt.dkind = 3)
    (riser : upRiser s = some p) :
    routePacket s 7 x slot = (enqueueOut s p { pkt := x.pkt, copy := false, arrival := 7, out := slot }, true) := by
  simp [routePacket, nearest, riser]

/-! ### A loss that is reported when a slice is passed -/

/-- The head of a ring past the slots of a slice (R433). -/
def slotsFreed (s : State) (q : BitVec 14) (n : Nat) : State :=
  let d := drawerOf s q
  setDrawer s q { d with head := BitVec.ofNat 16 ((d.head.toNat + n) % d.slots.toNat) }

/-- What a loss of `k` numbers from NEXT on leaves, before it is reported (R427, R462). -/
def numbersLost (s : State) (q : BitVec 14) (k : Nat) : State :=
  let d := drawerOf s q
  let ns := seqRun d.next k
  let s := countF s WV_TWCNT_PATCHMISS (ns.filter fun n => d.asked.contains n).length
  let s := setDrawer s q { d with
    lost := min (d.lost + k) 0xFFFF, next := d.next + BitVec.ofNat 16 k, damaged := d.damaged || d.mode = drScene,
    lossSlots := if d.mode = drIn || d.mode = drVideo then d.lossSlots ++ ns else d.lossSlots,
    asked := d.asked.filter fun n => !ns.contains n, notFound := d.notFound.filter fun n => !ns.contains n }
  raiseEvent s 89 WV_STAT_LOSSEV

/-- The LOSS packet of `n` numbers from `first` on to NEAREST, as the module stamps it (R405, R427, R603). -/
def nearestLoss (s : State) (q : BitVec 14) (first : BitVec 16) (n : Nat) : Packet :=
  stampedAs s 1 false { makePacket 3 0 false 2 q first 5 0
    (leBytes 2 first.toNat ++ leBytes 2 (min n 0xFFFF) ++ leBytes 2 (getF s WV_ID_MID)) with
      hoplim := BitVec.ofNat 10 (getF s WV_CTL_HOPLIM) }

theorem passSlice_eq (s : State) (q : BitVec 14) (n : Nat) : passSlice s q n = (settle (slotsFreed s q n) q 64).1 := rfl

theorem declareLost_reports {s : State} {q : BitVec 14} (k : Nat) (reports : (drawerOf s q).lossReport = true) :
    declareLost s q k = sendLoss (numbersLost s q k) q (drawerOf s q).next k := if_pos reports

/-- What the partner could not supply is declared lost where nothing is held at NEXT and no loss slot waits (R462). -/
theorem settle_notFound {s : State} {q : BitVec 14} (fuel : Nat) (flushed : (drawerOf s q).lossSlots = [])
    (held : heldNext (drawerOf s q) = none) (missing : notFoundRun (drawerOf s q) ≠ 0) :
    settle s q (fuel + 1) = settle (declareLost s q (notFoundRun (drawerOf s q))) q fuel := by
  simp only [settle, flushed, List.length_nil, flushLoss, held, missing, if_false]

/-- A loss of a queue that no item was delivered from is reported NEAREST (R416, R427). -/
theorem sendLoss_nearest {s : State} {q : BitVec 14} {p : Nat} (first : BitVec 16) (n : Nat) (nobody : (drawerOf s q).last = none)
    (riser : upRiser s = some p) : sendLoss s q first n =
      enqueueOut s p { pkt := nearestLoss s q first n, copy := false, arrival := 7, out := none } := by
  simp only [sendLoss, nobody, Option.map_none, Option.getD_none, originate, originateAs]
  rw [routePacket_nearest none rfl riser]
  rfl

/-- Where one queue holds a whole slice, and its first chunk's key is among those cleared, the slice is discarded (R521). -/
theorem discardDecoding_one {s : State} {cleared : Nat → Bool} {q : Nat} {d : Drawer} {c : List Byte}
    (queues : s.weave.drawers = [(q, d)]) (video : (d.enabled && d.mode = drVideo) = true)
    (slice : (gatherSlice s d [] (ringCount d)).2 = some [some c]) (decoders : decoderCount s.variant ≠ 0)
    (keyed : (128 ≤ (c.getD 13 0).toNat && cleared ((c.getD 13 0).toNat % 32)) = true) :
    discardDecoding s cleared = passSlice (countF s WV_ENGCNT_VIDDROP 1) (BitVec.ofNat 14 q) 1 := by
  obtain ⟨n, hn⟩ := Nat.exists_eq_succ_of_ne_zero decoders
  simp only [discardDecoding, queues, List.filterMap_cons, List.filterMap_nil, video, if_true, slice, Option.map_some, hn,
    List.take_succ_cons, List.take_nil, List.foldl_cons, List.foldl_nil, List.any_cons, List.any_nil, Option.any_some, keyed,
    Bool.or_false, List.length_singleton]

/-! ### A token that comes while a slice is decoded -/

namespace TokenDuringSlice

/-- The queue of a slice: its one chunk stands at HEAD of a ring of two slots; the number at NEXT could not be supplied, and
waits for the other slot; losses are reported (R427, R428, R462). -/
def sliceQueue : Drawer :=
  { Drawer.off with enabled := true, mode := drVideo, lossReport := true, slots := 2, tail := 1, notFound := [0] }

/-- The module with that queue as QID 64: the chunk, DONE and of 16 bytes, is the last of its slice and encrypted under key
slot 0, which holds a key; riser 4 is UP; no customer hash is fused, and a nonce is out. -/
def tokenState : State :=
  let s := setF (setDrawer (storeWords Tests.up 0 [1, 16, 0, 0, 0, 0, 0, 0x80008000]) 64 sliceQueue) (WV_PORTSTAT_STATE 4) ptUp
  { s with hutch := { s.hutch with nonce := some [], decoders := s.hutch.decoders.setIfInBounds 0 (some []) } }

/-- A token for the customer's debug state. -/
def customerToken : List Byte := 1 :: List.replicate 128 0

/-- The write of that token by the bench port. -/
def tokenRequest : DictRequest := plainRequest .bench true 2 0x7002 2 customerToken

/-- That state once the nonce is spent and the slice is counted as discarded. -/
def discardedState : State := countF (nonceExpiry tokenState) WV_ENGCNT_VIDDROP 1

/-- That state once the slice's slot is free and the number at NEXT is declared lost. -/
def lostState : State := numbersLost (slotsFreed discardedState 64 1) 64 1

/-- That state once the LOSS packet has gone out on riser 4. -/
def reportedState : State :=
  let x : Queued := { pkt := nearestLoss lostState 64 0 1, copy := false, arrival := 7, out := none }
  sendFrame (setPort (setPort lostState 4 { Port.reset with queue := [x] }) 4 .reset) 4 x

/-- The loss is reported: nothing stands between the packet and the link. -/
theorem sendLoss_lostState : sendLoss lostState 64 0 1 = reportedState := by
  have nobody : (drawerOf lostState 64).last = none := by decide +kernel
  have riser : upRiser lostState = some 4 := by decide +kernel
  have idle : portOf lostState 4 = .reset := by decide +kernel
  have carries : portUp lostState 4 = true := by decide +kernel
  have small : frameBytes (nearestLoss lostState 64 0 1) ≤ 131072 := by decide +kernel
  rw [sendLoss_nearest 0 1 nobody riser, enqueueOut_idle idle (by decide) rfl carries small, reportedState]

/-- The slice is passed with its loss reported, and a loss slot in its place. -/
theorem passSlice_discardedState : passSlice discardedState 64 1 = (settle reportedState 64 63).1 := by
  have queue : drawerOf (slotsFreed discardedState 64 1) 64 = { sliceQueue with head := 1 } := by decide +kernel
  have missing : notFoundRun { sliceQueue with head := 1 } = 1 := by decide +kernel
  rw [passSlice_eq, settle_notFound 63 (by rw [queue]; rfl) (by rw [queue]; rfl) (by rw [queue, missing]; decide),
    declareLost_reports _ (by rw [queue]; rfl), queue, missing]
  exact congrArg (fun s => (settle s 64 63).1) sendLoss_lostState

/-- The slice is decoded under the key that is erased, and is discarded (R521). -/
theorem discardDecoding_tokenState : discardDecoding (nonceExpiry tokenState)
    (fun n => ((nonceExpiry tokenState).hutch.decoders.toList.getD n none).isSome) = (settle reportedState 64 63).1 := by
  have slice : (gatherSlice (nonceExpiry tokenState) sliceQueue [] (ringCount sliceQueue)).2 =
      some [some (List.replicate 13 0 ++ [0x80, 0, 0x80])] := by decide +kernel
  rw [← passSlice_discardedState]
  exact discardDecoding_one (by decide +kernel) rfl slice (by decide +kernel) (by decide +kernel)

/-- What the token's write leaves, but for its answer: the debug state is open. -/
def openedState : State := debugOpen (nonceExpiry tokenState) 1

/-- The answer to the token's write. -/
def tokenAnswer : Answer := { status := stOk, typ := answerType 0x7002 2, value := [] }

/-- Two things have left the module once the write is answered, the LOSS packet and the answer, and no request waits. -/
theorem openedState_answered : (deliverAnswer openedState tokenRequest tokenAnswer).sent.length = 2 ∧
    (deliverAnswer openedState tokenRequest tokenAnswer).dresser.queue = [] ∧
    (deliverAnswer openedState tokenRequest tokenAnswer).dresser.reading = none := by
  rw [openedState, debugOpen, if_pos rfl, eraseContent, discardDecoding_tokenState]
  decide +kernel

/-- The entry of the token (R529). -/
def tokenEntry : Entry := (sized tyBlob 129 byBench (.special .token)).hidden

theorem entryAt_token : entryAt 0x7002 2 = some tokenEntry := rfl

/-- The write passes every check, so the statement's hypotheses are met. -/
theorem tokenState_accepted : Accepted tokenState .bench true 0x7002 2 customerToken where
  house := by decide +kernel
  free := ⟨by decide +kernel, by decide +kernel, by decide +kernel, by decide +kernel⟩
  request := by decide +kernel
  value e entry := by
    obtain rfl : tokenEntry = e := Option.some.inj (entryAt_token.symm.trans entry)
    exact ⟨by decide +kernel, fun persistent => nomatch persistent⟩

/-- The token is good, and opens the debug state. -/
theorem runRequest_token : runRequest tokenState tokenRequest = (openedState, some tokenAnswer) := by
  have opens : unlockToken tokenState customerToken = (openedState, stOk) :=
    unlockToken_opens (n := []) rfl (by decide +kernel) (by decide +kernel) (by decide +kernel) (by decide +kernel)
      (by decide +kernel) (by decide +kernel)
  have value : checkValue tokenState tokenEntry customerToken = stOk := by decide +kernel
  have write : writeEntry tokenState (classCode .bench) 0 tokenEntry 0x7002 2 customerToken = (openedState, stOk) :=
    (writeEntry_special _ _ _ _ value rfl rfl).trans opens
  exact runRequest_benchWrite (r := tokenRequest) rfl (by decide) tokenState_accepted.request entryAt_token rfl rfl write

/-- The command's next state. -/
theorem exec_unlockToken : exec (.unlockToken .bench true ⟨customerToken, none⟩) tokenState =
    .next (deliverAnswer openedState tokenRequest tokenAnswer) := by
  obtain ⟨_, queue, reading⟩ := openedState_answered
  have last : dictStep (deliverAnswer openedState tokenRequest tokenAnswer) = none := by
    rw [dictStep, reading, queue]
    simp only [ite_self]
  have here : readAcross tokenState tokenRequest = none := rfl
  show Host.Outcome.next (if houseOn tokenState then submit tokenState tokenRequest else tokenState) = _
  rw [if_pos tokenState_accepted.house, submit_answered tokenState_accepted.free here runRequest_token last]

end TokenDuringSlice

open TokenDuringSlice in
/-- Refutes O55: a token that opens the debug state erases the content keys, and with them the slice that is being decoded under
one (R521). The slice's slots are then free, and what waited behind it may be declared lost to its source (R427, R428), whose LOSS
packet leaves the module before the answer: more than the answer follows. -/
theorem not_dictionaryEffects : ¬ Obligations.DictionaryEffects := by
  intro holds
  obtain ⟨_, _, _, _, _, _, _, _, _, _, _, _, _, _, _, _, _, _, _, tokens, _⟩ :=
    holds tokenState .bench true 0 0 0 customerToken 0 0 false 0
  have calm : tokenState.hutch.failedAt = none := by decide +kernel
  have notRecent : ¬ ∃ x, tokenState.hutch.failedAt = some x ∧ tokenState.now < x + 40000000 := by simp [calm]
  obtain ⟨_, nonced⟩ := tokens notRecent
  obtain ⟨_, targeted⟩ := nonced [] (by decide +kernel)
  obtain ⟨_, _, opens⟩ := targeted (.inl (by decide +kernel))
  obtain ⟨t, next, ⟨sent, _, _⟩, _⟩ := opens (by decide +kernel) (by decide +kernel) (by decide +kernel) tokenState_accepted
  obtain rfl : deliverAnswer openedState tokenRequest tokenAnswer = t := Host.Outcome.next.inj (exec_unlockToken.symm.trans next)
  have quiet : tokenState.sent = [] := by decide +kernel
  have one : (deliverAnswer openedState tokenRequest tokenAnswer).sent.length = 1 := by rw [sent, quiet]; rfl
  exact absurd (openedState_answered.1.symm.trans one) (by decide)

end Sys2Proof.Machine
end

section
/-! SUPPORT. A core that issues, and the traps and interrupts it takes (R218, R319 to R322, R335). -/

namespace Sys2Proof.Machine

/-- Outside a repeat the instruction stands at PC. -/
theorem IssuesAlone.fetched_pc {s : State} {n : Fin 4} {len : Nat} (h : IssuesAlone s n len) :
    fetchTrap s n.val (coreOf s n.val).pc len = (s, none) := by
  have fetched := h.fetched
  rwa [instrAddr, h.alone, if_neg Bool.false_ne_true] at fetched

/-- A core that issues does what its instruction does. -/
theorem issue_issues {s : State} {n : Fin 4} {len : Nat} (h : Issues s n len) (f : State → State) : issue s n.val f = f s := by
  have free := h.free
  simp only [issue, h.issues, free, h.passing, h.stepping, Bool.not_true, Bool.false_and, Bool.or_self, Bool.false_eq_true,
    if_false]

/-! ### Traps and interrupt entry -/

theorem execTrap_issues {s : State} {n : Fin 4} (k : BitVec 4) (h : IssuesAlone s n 1) :
    exec (.trap n k) s = .next (takeSoftTrap s n.val { vector := 16 + k.toNat } (coreOf s n.val).pc) := by
  change execTrap n k s = _
  rw [execTrap, h.alone, if_neg Bool.false_ne_true, issue_issues h.toIssues]
  simp only [h.fetched_pc]
  rfl

/-- An opcode whose trap is `t` takes it at its own address. -/
theorem execUndefinedOpcode_trap {s : State} {n : Fin 4} {op : BitVec 8} {t : Trap} (h : Issues s n 1)
    (traps : opcodeTrap s op = some t) :
    exec (.undefinedOpcode n op) s = .next (takeTrap s n.val t (coreOf s n.val).pc) := by
  change execUndefinedOpcode n op s = _
  rw [execUndefinedOpcode, traps]
  exact congrArg Host.Outcome.next (runInstr_issues h fun s _ => (s, .trap t))

theorem opcodeTrap_undefined (s : State) {op : BitVec 8} (below : op.toNat < 0xE0) (undefined : isDefined op = false) :
    opcodeTrap s op = some { vector := 1 } := by
  have other : ¬ 0xE0 ≤ op.toNat := by omega
  simp [opcodeTrap, other, undefined, trapOf]

theorem opcodeTrap_coprocessor {s : State} {op : BitVec 8} (low : 0xE0 ≤ op.toNat) (high : op.toNat ≤ 0xEF)
    (absent : hasRcop s.variant = false) : opcodeTrap s op = some { vector := 9 } := by
  simp [opcodeTrap, low, high, absent, trapOf]

/-- Nothing holds up the interrupt entry of a core that may issue (R322). -/
theorem interruptEntry_offered {s : State} {n src : Nat} (h : coreIssues s n = true) (offered : offerTo s n = some src) :
    interruptEntry s n = enter s n (64 + src) (coreOf s n).pc (some (src, getF s (HIC_SRCCFG_LEVEL src))) none := by
  simp only [coreIssues, Bool.and_eq_true, Bool.not_eq_true', Option.isNone_iff_eq_none] at h
  obtain ⟨⟨⟨⟨⟨⟨⟨clocked, runs⟩, unlocked⟩, -⟩, synced⟩, unstalled⟩, live⟩, credits⟩ := h
  simp [interruptEntry, clocked, runs, unlocked, synced, unstalled, live, credits, offered]

/-- Settles O27: TRAP N and the opcodes by how they issue, the interrupt by what is offered. -/
theorem trapsAndInterrupts : Obligations.TrapsAndInterrupts := by
  unfold Obligations.TrapsAndInterrupts
  intro s n k op src h
  exact ⟨execTrap_issues k h,
    fun below undefined => execUndefinedOpcode_trap h.toIssues (opcodeTrap_undefined s below undefined),
    fun low high absent => execUndefinedOpcode_trap h.toIssues (opcodeTrap_coprocessor low high absent),
    fun offered => congrArg Host.Outcome.next (interruptEntry_offered h.issues offered)⟩

end Sys2Proof.Machine
end

section
/-! SUPPORT. Accesses of the cores to the scan die: the checks that pass, and what waits for the bridge or is posted over it (R218,
R301, R308, R313, R334, R342, R352). -/

namespace Sys2Proof.Machine

/-! ### Addresses and operands -/

/-- A short address is its bank and its low bits (R308). -/
theorem shortAddress_short (s : State) (n : Fin 4) (bank : BitVec 2) (low : BitVec 16) :
    shortAddress (coreOf s n.val) bank low = short s n bank low := by
  have bk : (coreOf s n.val).bk.toList.getD bank.toNat 0 = (coreOf s n.val).bk[bank.toNat] := by
    rw [List.getD_eq_getElem _ _ (by simpa using bank.isLt), Vector.getElem_toList]
  unfold shortAddress short
  rw [bk]
  generalize (coreOf s n.val).bk[bank.toNat] = b
  apply BitVec.eq_of_toNat_eq
  have hb := b.isLt
  have hl := low.isLt
  rw [BitVec.toNat_or, BitVec.toNat_shiftLeft, BitVec.toNat_setWidth, BitVec.toNat_setWidth, BitVec.toNat_ofNat,
    Nat.mod_eq_of_lt (by omega), Nat.mod_eq_of_lt (by omega : low.toNat < _), Nat.shiftLeft_eq, Nat.mod_eq_of_lt (by omega),
    Nat.mod_eq_of_lt (by omega), Nat.mul_comm, Nat.two_pow_add_eq_or_of_lt hl]

/-- Where a pointer form accesses, and what it leaves of BASE (R334). -/
theorem fxAddress_pointed (p : BitVec 24) (mode : BitVec 2) (off : BitVec 18) :
    fxAddress p mode off = (pointed mode p off, if mode = 0 then none else some (p + off.signExtend 24)) := by
  unfold fxAddress pointed
  by_cases plain : mode = 0
  · subst plain; rfl
  · rw [if_neg plain, if_neg plain]
    by_cases post : mode = 1
    · rw [if_pos post, if_pos post]
    · rw [if_neg post, if_neg post]

/-- An operand of tag 1 to 7 passes (R302). -/
theorem tagTrap_anyTag {k : Nat} {w : Tagged} (low : 1 ≤ (tagOf w).toNat) (high : (tagOf w).toNat ≤ 7) :
    tagTrap k anyTag w = none := by
  have passes : ∀ t : BitVec 4, 1 ≤ t.toNat → t.toNat ≤ 7 → t ≠ tagUnset ∧ t ≠ tagPoison ∧ anyTag.contains t = true := by
    decide
  obtain ⟨set, sound, accepted⟩ := passes _ low high
  exact tagTrap_none set sound accepted

theorem tagTrap_int {k : Nat} {w : Tagged} {x : Word} (h : w = intWord x) : tagTrap k [tagInt] w = none := by
  subst h
  exact tagTrap_none (by simp) (by simp) (by simp)

theorem tagTrap_addr {k : Nat} {w : Tagged} {a : BitVec 24} (h : w = addrWord a) : tagTrap k [tagAddr] w = none := by
  subst h
  exact tagTrap_none (by simp) (by simp) (by simp)

/-- A field from bit 0 up is the word modulo a power of two. -/
theorem bitsOf_low (w : Word) {hi : Nat} (h : hi < 32) : bitsOf w hi 0 = w.toNat % 2 ^ (hi + 1) := by
  apply Nat.eq_of_testBit_eq
  intro i
  rw [bitsOf_testBit _ _ _ _ (Nat.zero_le hi) h, Nat.testBit_mod_two_pow]
  simp [BitVec.getLsbD]

theorem copAbsent_none {s : State} (present : hasRcop s.variant = true) : copAbsent s = none := by simp [copAbsent, present, trapIf]

theorem loadTrap_scanReg {s : State} {n : Nat} {a : BitVec 24} (place : placeOf n a = .scanReg) : loadTrap s n a = none := by
  rw [loadTrap, place]

theorem storeTrap_scanReg {s : State} {n : Nat} {a : BitVec 24} (place : placeOf n a = .scanReg) : storeTrap s n a = none := by
  rw [storeTrap, place]
  exact loadTrap_scanReg place

/-! ### Loads and stores of scan-die registers -/

/-- A load of a scan-die register waits for the bridge (R301, R313). -/
theorem loadFor_scanReg {s : State} {n : Fin 4} {a : BitVec 24} (place : placeOf n.val a = .scanReg) (c : Core) (whole : Bool)
    (u : LoadUse) :
    loadFor s n c a whole u = (s, .wait { target := .register a.toNat, addr := a.setWidth 32, use := u } 4) := by
  rw [loadFor, loadWord, place]

/-- A store to one that the bridge does not keep for its source is a posted write (R301). -/
theorem coreStore_scanReg {n : Fin 4} {a : BitVec 24} (place : placeOf n.val a = .scanReg) (unstaged : isStaged a.toNat = false)
    (s : State) (w : Tagged) : coreStore s n a w = issueToScan s (.regWrite (.core n) a.toNat (payload w)) := by
  rw [coreStore, place]
  exact if_neg (by simp [unstaged])

theorem shortLoad_scanReg {s : State} {n : Fin 4} {bank : BitVec 2} {low : BitVec 16}
    (place : placeOf n.val (short s n bank low) = .scanReg) (r : BitVec 4) (whole : Bool) :
    shortLoad n r bank low whole s (coreOf s n.val) =
      (s, .wait { target := .register (short s n bank low).toNat, addr := (short s n bank low).setWidth 32,
                  use := .register r false 0 0 } 4) := by
  rw [shortLoad, shortAddress_short, loadTrap_scanReg place]
  exact loadFor_scanReg place _ _ _

theorem pointerLoad_scanReg {s : State} {n : Fin 4} {base : BitVec 4} {mode : BitVec 2} {off : BitVec 18} {p : BitVec 24}
    (addr : reg s n base = addrWord p) (good : mode ≠ 3) (place : placeOf n.val (pointed mode p off) = .scanReg) (r : BitVec 4)
    (whole : Bool) :
    pointerLoad n r base mode off whole s (coreOf s n.val) =
      (s, .wait { target := .register (pointed mode p off).toNat, addr := (pointed mode p off).setWidth 32,
                  use := .register r (mode != 0) base (if mode = 0 then 0 else p + off.signExtend 24) } 4) := by
  have based : addrOf (regOf (coreOf s n.val) base) = p := (congrArg addrOf addr).trans (addrOf_addrWord p)
  have defined : modeBad mode = none := if_neg (by simpa using good)
  have update : (if mode = 0 then none else some (p + off.signExtend 24)).isSome = (mode != 0) := by
    split
    · next plain => rw [plain]; rfl
    · next moves => exact (bne_iff_ne.mpr moves).symm
  have value : (if mode = 0 then none else some (p + off.signExtend 24)).getD 0 =
      if mode = 0 then 0 else p + off.signExtend 24 := by
    split <;> rfl
  rw [pointerLoad, based, fxAddress_pointed, defined, tagTrap_addr (w := regOf (coreOf s n.val) base) addr, loadTrap_scanReg place,
    update, value]
  exact loadFor_scanReg place _ _ _

/-! ### Instructions that wait for the bridge, and posted writes -/

/-- An instruction that waits leaves the core stalled on a read that is sent over the bridge (R313). -/
theorem runInstr_waits {s : State} {n : Fin 4} {len k : Nat} {w : LoadWait} {body : CoreBody} (h : Issues s n len)
    (waits : body s (coreOf s n.val) = (s, .wait w k)) : runInstr s n len body = stallOn s n w k := by
  rw [runInstr_issues h, waits]
  rfl

/-- One that goes on takes its effect on the state in which the core has gone on. -/
theorem runInstr_goesOn {s : State} {n : Fin 4} {len : Nat} {c : Core} {f : State → State} {body : CoreBody} (h : Issues s n len)
    (next : body s (coreOf s n.val) = (s, .next c f)) : runInstr s n len body = f (goesOn s n len c) := by
  rw [runInstr_issues h, next]
  rfl

/-- Outside a repeat a control instruction runs as any other. -/
theorem runControl_alone {s : State} {n : Fin 4} {len : Nat} (h : IssuesAlone s n len) (body : CoreBody) :
    runControl s n len body = runInstr s n len body := by
  rw [runControl, h.alone, if_neg Bool.false_ne_true]

/-! ### Each access -/

theorem bnow_waits {s : State} {n : Fin 4} {rd : BitVec 4} (h : Issues s n 1) (toV : isPointer rd = false) :
    exec (.bnow n rd) s = .next (stallOn s n { target := .beamNow, addr := 0, use := .tagged rd tagBeam } 4) := by
  refine congrArg Host.Outcome.next (runInstr_waits h ?_)
  rw [destTrap_v toV]
  rfl

theorem trwalk_waits {s : State} {n : Fin 4} {rd : BitVec 4} (h : IssuesAlone s n 1) (rcop : hasRcop s.variant = true)
    (toV : isPointer rd = false) :
    exec (.trwalk n rd) s = .next (stallOn s n { target := .walkDone, addr := 0, use := .tagged rd tagBeam } 4) := by
  refine congrArg Host.Outcome.next ((runControl_alone h _).trans (runInstr_waits h.toIssues ?_))
  rw [copAbsent_none rcop, destTrap_v toV]
  rfl

theorem trget_waits {s : State} {n : Fin 4} {rd la unit : BitVec 4} {tgt : BitVec 3} {stream : BitVec 2} {l : Word}
    (h : IssuesAlone s n 1) (rcop : hasRcop s.variant = true) (toV : isPointer rd = false) (target : tgt.toNat ≤ 4)
    (layer : unit.toNat ≤ 14) (line : reg s n la = intWord l) :
    exec (.trget n rd la tgt unit stream) s = .next (stallOn s n
      { target := .override stream.toNat unit.toNat tgt.toNat (l.toNat % 512), addr := 0, use := .tagged rd tagInt } 4) := by
  have defined : rsvenc (5 ≤ tgt.toNat || unit = 15) = none := by
    have low : ¬ 5 ≤ tgt.toNat := by omega
    have named : unit ≠ 15 := by
      rintro rfl
      exact absurd layer (by decide)
    exact if_neg (by simpa [low] using named)
  have bits : bitsOf (payload (regOf (coreOf s n.val) la)) 8 0 = l.toNat % 512 := by
    rw [show regOf (coreOf s n.val) la = intWord l from line, payload_intWord]
    exact bitsOf_low l (by decide)
  refine congrArg Host.Outcome.next ((runControl_alone h _).trans (runInstr_waits h.toIssues ?_))
  rw [copAbsent_none rcop, defined, tagTrap_int (w := regOf (coreOf s n.val) la) line, destTrap_v toV, bits]
  rfl

theorem st_posts {s : State} {n : Fin 4} {r : BitVec 4} {bank : BitVec 2} {low : BitVec 16} (h : Issues s n 1)
    (least : 1 ≤ (tagOf (reg s n r)).toNat) (most : (tagOf (reg s n r)).toNat ≤ 7)
    (place : placeOf n.val (short s n bank low) = .scanReg) (unstaged : isStaged (short s n bank low).toNat = false) :
    exec (.st n r bank low) s = .next (issueToScan (goesOn s n 1 (coreOf s n.val))
      (.regWrite (.core n) (short s n bank low).toNat (payload (reg s n r)))) := by
  rw [← coreStore_scanReg place unstaged]
  refine congrArg Host.Outcome.next (runInstr_goesOn (f := fun s' => coreStore s' n (short s n bank low) (reg s n r)) h ?_)
  dsimp only
  rw [shortAddress_short, tagTrap_anyTag (w := regOf (coreOf s n.val) r) least most, storeTrap_scanReg place]
  rfl

theorem trclr_posts {s : State} {n : Fin 4} (h : IssuesAlone s n 1) (rcop : hasRcop s.variant = true) :
    exec (.trclr n) s = .next (issueToScan (goesOn s n 1 (coreOf s n.val)) (.immClear (.core n))) := by
  refine congrArg Host.Outcome.next ((runControl_alone h _).trans
    (runInstr_goesOn (f := fun s => issueToScan s (.immClear (.core n))) h.toIssues ?_))
  rw [copAbsent_none rcop]
  rfl

theorem trput_posts {s : State} {n : Fin 4} {ra : BitVec 4} {w0 w1 w2 w3 : Word} (h : IssuesAlone s n 1)
    (rcop : hasRcop s.variant = true) (quad : ra = 0 ∨ ra = 4) (word0 : reg s n ra = intWord w0)
    (word1 : reg s n (ra + 1) = intWord w1) (word2 : reg s n (ra + 2) = intWord w2) (word3 : reg s n (ra + 3) = intWord w3) :
    exec (.trput n ra) s =
      .next (issueToScan (goesOn s n 1 (coreOf s n.val)) (.immPut (.core n) w0 w1 w2 w3)) := by
  have defined : rsvenc (ra != 0 && ra != 4) = none := by obtain rfl | rfl := quad <;> rfl
  have words0 : regOf (coreOf s n.val) (ra + BitVec.ofNat 4 0) = intWord w0 := by rwa [BitVec.add_zero]
  have words1 : regOf (coreOf s n.val) (ra + BitVec.ofNat 4 1) = intWord w1 := word1
  have words2 : regOf (coreOf s n.val) (ra + BitVec.ofNat 4 2) = intWord w2 := word2
  have words3 : regOf (coreOf s n.val) (ra + BitVec.ofNat 4 3) = intWord w3 := word3
  refine congrArg Host.Outcome.next ((runControl_alone h _).trans
    (runInstr_goesOn (f := fun s => issueToScan s (.immPut (.core n) w0 w1 w2 w3)) h.toIssues ?_))
  simp only [copAbsent_none rcop, defined, List.range, List.range.loop, List.map, List.cons_append, List.nil_append,
    words0, words1, words2, words3, tagTrap_int rfl, payload_intWord, checked_none, checked_nil]

/-- Settles O22: each access by what its body ends in once its checks pass. -/
theorem scanAccesses : Obligations.ScanAccesses := by
  unfold Obligations.ScanAccesses
  intro s n r base rd la ra bank mode low off tgt unit stream p l w0 w1 w2 w3 h rcop toV least most shortPlace unstaged
    addr good place target layer line quad word0 word1 word2 word3
  exact ⟨congrArg Host.Outcome.next (runInstr_waits h.toIssues (shortLoad_scanReg shortPlace r false)),
    congrArg Host.Outcome.next (runInstr_waits h.toIssues (pointerLoad_scanReg addr good place r false)),
    bnow_waits h.toIssues toV, trget_waits h rcop toV target layer line, trwalk_waits h rcop toV,
    st_posts h.toIssues least most shortPlace unstaged, trclr_posts h rcop, trput_posts h rcop quad word0 word1 word2 word3⟩

end Sys2Proof.Machine
end

section
/-! SUPPORT. The walk of the trestle: its entries in the order of their lines, the walk that a due command starts, and the line
table that it becomes (R203 to R206, R211, R214, R217, R221). -/

namespace Sys2Proof.Machine

/-! ### Entries in the order of their lines -/

theorem insertByLine_perm (e : ListEntry) (l : List ListEntry) : (insertByLine e l).Perm (e :: l) := by
  induction l with
  | nil => rfl
  | cons x xs ih =>
    unfold insertByLine
    split
    · exact (ih.cons x).trans (.swap e x xs)
    · rfl

theorem insertByLine_ordered (e : ListEntry) {l : List ListEntry} (h : l.Pairwise fun x y => x.line ≤ y.line) :
    (insertByLine e l).Pairwise fun x y => x.line ≤ y.line := by
  induction h with
  | nil => exact List.pairwise_singleton _ e
  | @cons x xs head rest ih =>
    unfold insertByLine
    split
    · next above =>
      refine List.pairwise_cons.mpr ⟨fun y hy => ?_, ih⟩
      obtain rfl | hy := List.mem_cons.mp ((insertByLine_perm e xs).mem_iff.mp hy)
      · exact above
      · exact head y hy
    · next below =>
      have least : ∀ y ∈ x :: xs, e.line ≤ y.line := by
        rintro y (_ | ⟨_, hy⟩)
        · omega
        · have := head y hy
          omega
      exact List.pairwise_cons.mpr ⟨least, List.pairwise_cons.mpr ⟨head, rest⟩⟩

/-- Entries as a walk orders them. -/
def byLine (es : List ListEntry) : List ListEntry := es.foldl (fun l e => insertByLine e l) []

theorem byLine_perm (es : List ListEntry) : (byLine es).Perm es := by
  suffices ∀ l, (es.foldl (fun l e => insertByLine e l) l).Perm (es ++ l) by simpa [byLine] using this []
  induction es with
  | nil => exact fun l => .refl l
  | cons e es ih => exact fun l => (ih _).trans (((insertByLine_perm e l).append_left es).trans List.perm_middle)

theorem byLine_ordered (es : List ListEntry) : (byLine es).Pairwise fun x y => x.line ≤ y.line :=
  List.foldlRecOn es _ .nil fun _ h e _ => insertByLine_ordered e h

/-! ### A walk starts, and is done -/

/-- What a walk of a stream for a frame gathers. -/
def gatheredWalk (s : State) (st : Nat) (frame : Word) : Walk :=
  let rs := (streamLists s st).map (readList s st)
  { stream := st, frame, entries := byLine (rs.flatMap (·.kept)), read := (rs.map (·.read)).sum }

/-- A walk whose turn it is runs with what it has gathered. -/
theorem startWalk_due {s : State} {st : Nat} {frame : Word} (due : walkDue s st frame = true) :
    (startWalk s st frame).trestle.walking = some (gatheredWalk s st frame) := by
  unfold startWalk gatheredWalk
  rw [if_neg (by simp [due])]
  dsimp only
  rw [List.sum_eq_foldl, List.flatMap_def]
  rfl

theorem startWalk_notDue {s : State} {st : Nat} {frame : Word} (due : walkDue s st frame = false) : startWalk s st frame = s := by
  unfold startWalk
  rw [if_pos (by simp [due])]

/-- The trestle as a walk that is done leaves it. -/
theorem finishWalk_trestle {s : State} {w : Walk} (walking : s.trestle.walking = some w) :
    (finishWalk s).trestle = { s.trestle with
      walking := none, composeHeld := none, donePos := beamPos s, tables := s.trestle.tables.setIfInBounds w.stream (some w),
      valid := s.trestle.valid.setIfInBounds w.stream (some w.frame),
      tableCode := s.trestle.tableCode.filter fun e => e.1 / 512 != w.stream } := by
  unfold finishWalk
  rw [walking]
  rfl

/-- SC_TRWALK shows the walk that is done. -/
theorem finishWalk_shows {s : State} {w : Walk} (walking : s.trestle.walking = some w) :
    getF (finishWalk s) SC_TRWALK_FRAME = w.frame.toNat % 65536 ∧
      getF (finishWalk s) SC_TRWALK_ENTRIES = w.read % 2 ^ SC_TRWALK_ENTRIES.width := by
  unfold finishWalk
  rw [walking]
  refine ⟨?_, getF_setF_same _ _ _ (by decide)⟩
  rw [getF_setF_ne _ _ _ _ (by decide) (by decide) (by decide), getF_setF_same _ _ _ (by decide)]
  exact Nat.mod_mod _ _

/-- Settles O44: a walk by what it has gathered as it starts, its end by the trestle and SC_TRWALK as it leaves them. -/
theorem trestleWalks : Obligations.TrestleWalks := by
  unfold Obligations.TrestleWalks
  intro s st frame w on
  have walk : exec (.trestleWalk st frame) s = .next (startWalk s st.toNat frame) :=
    whenScan_on on fun s => startWalk s st.toNat frame
  refine ⟨fun due => ⟨_, walk, _, startWalk_due due, rfl, rfl, rfl, byLine_perm _, byLine_ordered _⟩,
    fun due => by rw [walk, startWalk_notDue due], fun walking known => ⟨_, whenScan_on on finishWalk, ?_⟩⟩
  dsimp only
  rw [finishWalk_trestle walking]
  refine ⟨rfl, ?_, ?_, rfl, finishWalk_shows walking⟩
  · exact (toList_getD_setIfInBounds _ _ _ _ _).trans (if_pos ⟨rfl, known⟩)
  · exact (toList_getD_setIfInBounds _ _ _ _ _).trans (if_pos ⟨rfl, known⟩)

end Sys2Proof.Machine
end

section
/-! SUPPORT. Refresh cycles and row slots: what reading the frame store leaves, the row that a slot takes, and the next one that
it reads (R236, R237, R239, R241, R266). -/

namespace Sys2Proof.Machine

/-! ### Reads of the frame store -/

/-- The registers that show errors of the scan die's memories (R382, R383). -/
abbrev scanErrorRegisters : List Nat := [SC_ECCCNT, SC_ECCSTAT, SC_UEADDR, SC_UESRC]

/-- From `s` to `t` the frame store is read: errors are corrected and reported, and the plane generators stay as they are. -/
structure StoreRead (s t : State) : Prop where
  drive : ∃ codes, t.drive = { s.drive with storeCode := codes }
  regs : ∀ k, k ∉ scanErrorRegisters → regWord t k = regWord s k

namespace StoreRead

variable {s₀ s t u : State}

theorem refl (s : State) : StoreRead s s := ⟨⟨_, rfl⟩, fun _ _ => rfl⟩

theorem trans (h : StoreRead s t) (k : StoreRead t u) : StoreRead s u := by
  obtain ⟨c, first⟩ := h.drive
  obtain ⟨d, second⟩ := k.drive
  exact ⟨⟨d, by rw [second, first]⟩, fun a out => (k.regs a out).trans (h.regs a out)⟩

theorem foldl {α : Type} {f : State → α → State} (hf : ∀ t x, StoreRead t (f t x)) (l : List α) (s : State) :
    StoreRead s (l.foldl f s) := by
  induction l generalizing s with
  | nil => exact refl s
  | cons x l ih => exact (hf s x).trans (ih (f s x))

theorem getF (h : StoreRead s t) {f : Fld} (other : f.addr ∉ scanErrorRegisters) : getF t f = getF s f :=
  getF_congr (h.regs _ other)

theorem reported (told : Reported scanErrorRegisters s t) : StoreRead s t :=
  ⟨⟨s.drive.storeCode, told.view (·.drive) fun _ _ _ _ _ => rfl⟩, told.regs⟩

theorem recordScan (h : StoreRead s₀ s) (cls : RecClass) (code p0 p1 p2 p3 : Nat) :
    StoreRead s₀ (recordScan s cls code p0 p1 p2 p3) :=
  h.trans (reported ((Reported.refl _ s).recordScan cls code p0 p1 p2 p3))

theorem dram (h : StoreRead s₀ s) (d : Dram) : StoreRead s₀ { s with dram := d } := h.trans ⟨⟨_, rfl⟩, fun _ _ => rfl⟩

theorem mem (h : StoreRead s₀ s) (m : Memory) : StoreRead s₀ { s with mem := m } := h.trans ⟨⟨_, rfl⟩, fun _ _ => rfl⟩

theorem noteScanUE (s : State) (addr macroNo req : Nat) : StoreRead s (noteScanUE s addr macroNo req) := by
  have noted := ((((Reported.refl scanErrorRegisters s).countF (f := SC_ECCCNT_UE) (by decide) 1).setF
    (f := SC_UEADDR_ADDR) (by decide) addr).setF (f := SC_UESRC_MACRO) (by decide) macroNo).setF (f := SC_UESRC_REQ)
    (by decide) req
  have told := reported (noted.raiseEvent (n := 65) (f := SC_ECCSTAT_UEEV) rfl (by decide))
  unfold Machine.noteScanUE
  dsimp only
  split
  · exact told
  · exact (told.dram _).recordScan _ _ _ _ _ _

theorem noteScanCE (s : State) : StoreRead s (noteScanCE s) :=
  reported (((Reported.refl scanErrorRegisters s).countF (f := SC_ECCCNT_CE) (by decide) 1).raiseEvent (n := 65)
    (f := SC_ECCSTAT_CEEV) rfl (by decide))

theorem readScanUnit (s : State) (c : CodeState) (macroNo key req : Nat) : StoreRead s (readScanUnit s c macroNo key req) := by
  unfold Machine.readScanUnit
  cases c with
  | good => exact refl s
  | single =>
    dsimp only
    split
    · exact ((noteScanCE s).mem _).recordScan _ _ _ _ _ _
    · exact (noteScanCE s).mem _
  | bad => exact noteScanUE s _ _ _

theorem readStore (s : State) (bank : Bool) (line col req : Nat) : StoreRead s (readStore s bank line col req) := by
  unfold Machine.readStore
  extract_lets m one t
  have read : ∀ u b, StoreRead u (one u b) := by
    intro u b
    have touched := readScanUnit u (storeCode u b line col)
      (m + Config.scanPlace m (storeUnit b line col) % 4) (storeUnit b line col) req
    show StoreRead u (if _ then _ else _)
    split
    · exact touched.trans ⟨⟨_, rfl⟩, fun _ _ => rfl⟩
    · exact touched
  split
  · exact (read s bank).trans (read t (!bank))
  · exact read s bank

theorem noteRow (s : State) (bank : Nat → Bool) (row : Nat) : StoreRead s (noteRow s bank row) := by
  unfold Machine.noteRow
  refine foldl (fun t p => ?_) _ s
  exact readStore t (bank p.1) p.1 p.2 0x54

end StoreRead

/-! ### A row slot -/

/-- The row that a slot takes: the one read before, or its own where that was another (R241, R257; log entry 113). -/
theorem slotRow_takes (s : State) (row : Nat) :
    ∃ bits codes, (slotRow s row).drive =
        { s.drive with
          rowImage := if s.drive.nextFor = some (s.drive.cycleFrame, s.drive.cycle, row) then s.drive.nextImage
            else readRow s (rowBank s s.drive.cycleBanks) row s.drive.gain s.drive.dbits s.drive.cycleFrame.toNat s.drive.cycle
          shifting := bits
          storeCode := codes } ∧
      ∀ k, k ∉ scanErrorRegisters → regWord (slotRow s row) k = regWord s k := by
  unfold slotRow
  dsimp only
  split
  · exact ⟨s.drive.shifting, s.drive.storeCode, rfl, fun _ _ => rfl⟩
  · have read := StoreRead.noteRow s (rowBank s s.drive.cycleBanks) row
    obtain ⟨codes, drive⟩ := read.drive
    exact ⟨_, codes, by rw [drive], fun k other => (regWord_with_drive _ _ k).trans (read.regs k other)⟩

/-- Stopped regions are dark, also one whose RUN bit has been set again (R249). -/
def stoppedDark (s : State) : State :=
  setF s SC_PGSTAT_ACTIVE (getF s SC_PGSTAT_ACTIVE &&& getF s SC_PGCTL_RUN &&& (15 ^^^ s.drive.stopping))

/-- The last row slot's start is the read instant of the next cycle (R241). -/
def nextBanksTaken (s : State) (row : Nat) : State :=
  if row + 1 = muxRows s then { s with drive := { s.drive with nextBanks := s.drive.front } } else s

/-- A row slot's start: its row taken, the next one read, then its dead time (R237, R239, R241). -/
theorem rowSlotStart_eq {s : State} {row : Nat} (filled : s.drive.clearing = false) (inside : row < muxRows s) :
    ∃ u v bank next image reader, u = nextBanksTaken (slotRow (stoppedDark s) row) row ∧ v = noteRow u bank next ∧
      (rowSlotStart s row).drive = { v.drive with
        row := row, plane := none, oeSteps := 0, rowOut := if getF v SC_PGTIME_RDEAD = 0 then row else u.drive.rowOut,
        nextImage := image, nextFor := reader, stopping := 0 } ∧
      ∀ k, regWord (rowSlotStart s row) k = regWord v k := by
  have starts : ∃ u v bank next image reader, u = nextBanksTaken (slotRow (stoppedDark s) row) row ∧
      v = noteRow u bank next ∧ rowSlotStart s row = { v with drive := { v.drive with
        row := row, plane := none, oeSteps := 0, rowOut := if getF v SC_PGTIME_RDEAD = 0 then row else u.drive.rowOut,
        nextImage := image, nextFor := reader, stopping := 0 } } := by
    unfold rowSlotStart
    rw [if_neg (by simp [filled, inside])]
    dsimp only
    generalize own : slotRow (setF _ _ _) row = x
    generalize banks : (if row + 1 = muxRows x then _ else x) = u
    exact ⟨u, _, _, _, _, _, by rw [← banks, ← own]; rfl, rfl, rfl⟩
  obtain ⟨u, v, bank, next, image, reader, taken, noted, starts⟩ := starts
  refine ⟨u, v, bank, next, image, reader, taken, noted, ?_, fun k => ?_⟩
  · rw [starts]
  · rw [starts]
    rfl

/-- The row that a slot takes, with the banks of the next cycle at the last one (R241). -/
theorem nextBanksTaken_shows (s : State) (row : Nat) :
    ∃ bits codes, (nextBanksTaken (slotRow (stoppedDark s) row) row).drive =
        { s.drive with
          rowImage := if s.drive.nextFor = some (s.drive.cycleFrame, s.drive.cycle, row) then s.drive.nextImage
            else readRow (stoppedDark s) (rowBank (stoppedDark s) s.drive.cycleBanks) row s.drive.gain s.drive.dbits
              s.drive.cycleFrame.toNat s.drive.cycle
          nextBanks := if row + 1 = muxRows s then s.drive.front else s.drive.nextBanks
          shifting := bits
          storeCode := codes } ∧
      ∀ k, k ∉ scanErrorRegisters →
        regWord (nextBanksTaken (slotRow (stoppedDark s) row) row) k = regWord (stoppedDark s) k := by
  obtain ⟨bits, codes, took, regs⟩ := slotRow_takes (stoppedDark s) row
  have slots : muxRows (slotRow (stoppedDark s) row) = muxRows s := by
    unfold muxRows
    rw [getF_congr (f := SC_PGCFG_MUXM1) (regs _ (by decide)), stoppedDark,
      getF_setF_ne _ _ _ _ (by decide) (by decide) (by decide)]
  refine ⟨bits, codes, ?_, fun k other => ?_⟩
  · unfold nextBanksTaken
    rw [slots]
    split
    · rw [took]
      rfl
    · rw [took]
      rfl
  · rw [← regs k other]
    unfold nextBanksTaken
    split <;> rfl

/-- A row slot starts with its dead time and OE inactive, shows the row that it takes, and stopped regions are dark (R237, R239,
R241, R249). -/
theorem rowSlotStart_shows {s : State} {row : Nat} (filled : s.drive.clearing = false) (inside : row < muxRows s) :
    let t := rowSlotStart s row
    t.drive.row = row ∧ t.drive.rowOut = (if getF s SC_PGTIME_RDEAD = 0 then row else s.drive.rowOut) ∧
      t.drive.plane = none ∧ t.drive.oeSteps = 0 ∧
      t.drive.rowImage = (if s.drive.nextFor = some (s.drive.cycleFrame, s.drive.cycle, row) then s.drive.nextImage
        else readRow (stoppedDark s) (rowBank (stoppedDark s) s.drive.cycleBanks) row s.drive.gain s.drive.dbits
          s.drive.cycleFrame.toNat s.drive.cycle) ∧
      t.drive.nextBanks = (if row + 1 = muxRows s then s.drive.front else s.drive.nextBanks) ∧
      t.drive.stopping = 0 ∧
      getF t SC_PGSTAT_ACTIVE = getF s SC_PGSTAT_ACTIVE &&& getF s SC_PGCTL_RUN &&& (15 ^^^ s.drive.stopping) := by
  obtain ⟨u, v, bank, next, image, reader, taken, noted, drive, regs⟩ := rowSlotStart_eq filled inside
  obtain ⟨bits, codes, took, takenRegs⟩ := nextBanksTaken_shows s row
  rw [← taken] at took takenRegs
  have read : StoreRead u v := noted ▸ StoreRead.noteRow u bank next
  obtain ⟨codes', readDrive⟩ := read.drive
  have field : ∀ f : Fld, f.addr ∉ scanErrorRegisters → getF v f = getF (stoppedDark s) f := fun f other =>
    (read.getF other).trans (getF_congr (takenRegs _ other))
  have dead : getF v SC_PGTIME_RDEAD = getF s SC_PGTIME_RDEAD :=
    (field _ (by decide)).trans (getF_setF_ne _ _ _ _ (by decide) (by decide) (by decide))
  have active : getF v SC_PGSTAT_ACTIVE = getF s SC_PGSTAT_ACTIVE &&& getF s SC_PGCTL_RUN &&& (15 ^^^ s.drive.stopping) := by
    have low := getF_lt s SC_PGSTAT_ACTIVE (by decide)
    rw [field _ (by decide), stoppedDark, getF_setF_same _ _ _ (by decide), Nat.and_assoc]
    exact Nat.mod_eq_of_lt (Nat.lt_of_le_of_lt Nat.and_le_left low)
  rw [dead, readDrive, took] at drive
  dsimp only
  rw [drive]
  exact ⟨rfl, rfl, rfl, rfl, rfl, rfl, rfl, (getF_congr (regs _)).trans active⟩

/-! ### A refresh cycle -/

/-- Which regions generate says nothing of the cycles' places. -/
theorem cycleLit_active (s : State) (v j : Nat) : cycleLit (setF s SC_PGSTAT_ACTIVE v) j = cycleLit s j := by
  have starts : ∀ i, cycleStart (setF s SC_PGSTAT_ACTIVE v) i = cycleStart s i := fun i => by
    unfold cycleStart frameFracs frameLines activeLines blankLines refreshes
    simp (disch := decide) only [getF_setF_ne]
  unfold cycleLit cycleInWindow
  simp only [starts]
  rfl

theorem emissionDark_active (s : State) (v : Nat) : emissionDark (setF s SC_PGSTAT_ACTIVE v) = emissionDark s := by
  unfold emissionDark runsDark freeDark beamState flag
  simp (disch := decide) only [getF_setF_ne]

/-- While the beam runs the regions set to run generate with the cycle, else none does (R249, R251). -/
def generating (s : State) : State := setF s SC_PGSTAT_ACTIVE (if beamRuns s then runMask s else 0)

theorem generating_active (s : State) :
    getF (generating s) SC_PGSTAT_ACTIVE = if beamRuns s then getF s SC_PGCTL_RUN else 0 := by
  have low := getF_lt s SC_PGCTL_RUN (by decide)
  rw [generating, getF_setF_same _ _ _ (by decide)]
  split
  · exact Nat.mod_eq_of_lt low
  · rfl

theorem refreshCycleStart_eq {s : State} (frame : Word) {j : Nat} (filled : s.drive.clearing = false) (inside : j < refreshes s) :
    ∃ b u, u = generating { s with beam := b } ∧ (refreshCycleStart s frame j).drive = { u.drive with
        cycleFrame := frame, cycle := j, row := 0, plane := none, lit := cycleLit u j, dark := emissionDark u,
        gain := getF u SC_PGGAIN_GAIN, dbits := getF u SC_PGGAIN_DBITS, cycleBanks := u.drive.nextBanks, stopping := 0 } ∧
      ∀ k, regWord (refreshCycleStart s frame j) k = regWord u k := by
  have moves : ∃ b, (if beamRuns s then beamAdvanceTo s frame (cycleStart s j : Nat) else s) = { s with beam := b } := by
    split
    · exact beamAdvanceTo_beamOnly s frame _
    · exact ⟨s.beam, rfl⟩
  obtain ⟨b, moved⟩ := moves
  unfold refreshCycleStart
  rw [if_neg (by simp [filled, inside]), moved]
  exact ⟨b, _, rfl, rfl, fun _ => rfl⟩

/-- A refresh cycle's start takes GAIN and DBITS, whether it is lit and the banks; while the beam runs the regions set to run
generate (R235, R236, R241, R249, R251, R266). -/
theorem refreshCycleStart_shows {s : State} (frame : Word) {j : Nat} (filled : s.drive.clearing = false)
    (inside : j < refreshes s) :
    let t := refreshCycleStart s frame j
    t.drive.cycleFrame = frame ∧ t.drive.cycle = j ∧ t.drive.row = 0 ∧ t.drive.plane = none ∧
      t.drive.cycleBanks = s.drive.nextBanks ∧ t.drive.lit = cycleLit s j ∧ t.drive.dark = emissionDark s ∧
      t.drive.gain = getF s SC_PGGAIN_GAIN ∧ t.drive.dbits = getF s SC_PGGAIN_DBITS ∧
      getF t SC_PGSTAT_ACTIVE = if beamRuns s then getF s SC_PGCTL_RUN else 0 := by
  obtain ⟨b, u, starts, drive, regs⟩ := refreshCycleStart_eq frame filled inside
  have active : getF u SC_PGSTAT_ACTIVE = if beamRuns s then getF s SC_PGCTL_RUN else 0 := starts ▸ generating_active _
  have lit : cycleLit u j = cycleLit s j := starts ▸ cycleLit_active _ _ j
  have dark : emissionDark u = emissionDark s := starts ▸ emissionDark_active _ _
  have taken : ∀ f : Fld, f.fits → SC_PGSTAT_ACTIVE.apart f → getF u f = getF s f := fun f fits apart =>
    starts ▸ getF_setF_ne _ _ _ _ (by decide) fits apart
  have banks : u.drive.nextBanks = s.drive.nextBanks := starts ▸ rfl
  rw [lit, dark, taken _ (by decide) (by decide), taken _ (by decide) (by decide), banks] at drive
  dsimp only
  rw [drive]
  exact ⟨rfl, rfl, rfl, rfl, rfl, rfl, rfl, rfl, rfl, (getF_congr (regs _)).trans active⟩

end Sys2Proof.Machine
end

section
/-! SUPPORT. The interlock of the harness: what its moves leave of the plane generators, a claim and a release, the plane slot
boundary, the writes of CLAIM, the level of OWN_B and the expiry of TARB (R238 to R240, R251, R253, R254, R263). -/

namespace Sys2Proof.Machine

/-! ### What the interlock's moves leave -/

/-- From `s` to `t` the interlock moves; the refresh cycle, its slots and the other registers stay. -/
structure InterlockMoves (s t : State) : Prop where
  drive : ∃ a r c w h, t.drive =
    { s.drive with ownA := a, releaseAtSlot := r, clearsClaim := c, withdrawn := w, withdrawnHigh := h }
  regs : ∀ k, k ≠ SC_OWNCTL → k ≠ SC_OWNSTAT → regWord t k = regWord s k

namespace InterlockMoves

variable {s₀ s t u : State}

theorem refl (s : State) : InterlockMoves s s := ⟨⟨_, _, _, _, _, rfl⟩, fun _ _ _ => rfl⟩

theorem trans (h : InterlockMoves s t) (k : InterlockMoves t u) : InterlockMoves s u := by
  obtain ⟨_, _, _, _, _, first⟩ := h.drive
  obtain ⟨a, r, c, w, b, second⟩ := k.drive
  exact ⟨⟨a, r, c, w, b, by rw [second, first]⟩, fun x ctl stat => (k.regs x ctl stat).trans (h.regs x ctl stat)⟩

theorem setF (h : InterlockMoves s₀ s) {f : Fld} (own : f.addr = SC_OWNCTL ∨ f.addr = SC_OWNSTAT) (v : Nat) :
    InterlockMoves s₀ (setF s f v) := by
  refine h.trans ⟨⟨_, _, _, _, _, rfl⟩, fun k ctl stat => regWord_setF_ne _ _ _ _ fun e => ?_⟩
  rcases own with own | own
  · exact ctl (e.trans own)
  · exact stat (e.trans own)

theorem getF (h : InterlockMoves s t) {f : Fld} (ctl : f.addr ≠ SC_OWNCTL) (stat : f.addr ≠ SC_OWNSTAT) :
    getF t f = getF s f :=
  getF_congr (h.regs _ ctl stat)

theorem twin (h : InterlockMoves s₀ s) (x : Twin) : InterlockMoves s₀ { s with twin := x } :=
  h.trans ⟨⟨_, _, _, _, _, rfl⟩, fun _ _ _ => rfl⟩

theorem claimHarness (h : InterlockMoves s₀ s) : InterlockMoves s₀ (claimHarness s) := by
  let v : State := { Machine.setF s SC_OWNSTAT_STATE ownWaiting with
    drive := { s.drive with withdrawn := none, withdrawnHigh := false } }
  have waits : InterlockMoves s₀ v := (h.setF (f := SC_OWNSTAT_STATE) (.inr rfl) ownWaiting).trans
    ⟨⟨_, _, _, _, _, rfl⟩, fun _ _ _ => rfl⟩
  unfold Machine.claimHarness
  dsimp only
  split
  · exact waits
  · exact (waits.setF (f := SC_OWNSTAT_STATE) (.inr rfl) ownClaiming).trans ⟨⟨_, _, _, _, _, rfl⟩, fun _ _ _ => rfl⟩

theorem claimDropped (h : InterlockMoves s₀ s) : InterlockMoves s₀ (claimDropped s) := by
  have down := (h.setF (f := SC_OWNSTAT_DRIVING) (.inr rfl) 0).setF (f := SC_OWNSTAT_STATE) (.inr rfl) ownReleased
  unfold Machine.claimDropped
  split
  · exact down.setF (.inl rfl) 0
  · exact down

theorem harnessIdle (h : InterlockMoves s₀ s) : InterlockMoves s₀ (harnessIdle s) :=
  h.trans ⟨⟨_, _, _, _, _, rfl⟩, fun _ _ _ => rfl⟩

theorem claimRearmed (h : InterlockMoves s₀ s) : InterlockMoves s₀ (claimRearmed s) := by
  unfold Machine.claimRearmed
  split
  · exact (h.twin _).setF (.inl rfl) 1
  · exact h

theorem released (h : InterlockMoves s₀ s) : InterlockMoves s₀ (released s) := by
  have again := h.claimDropped.harnessIdle.claimRearmed
  rw [released_eq]
  unfold releaseEnds
  dsimp only
  split
  · exact again.claimHarness
  · exact again

theorem slotBoundary (h : InterlockMoves s₀ s) : InterlockMoves s₀ (slotBoundary s) := by
  unfold Machine.slotBoundary driveIfHolding
  split
  · exact h.released
  split
  · exact h.setF (.inr rfl) 1
  · exact h

end InterlockMoves

/-! ### A claim and a release -/

/-- A claim waits while OWN_B is high and is made while it is low (R253). -/
theorem claimHarness_shows (s : State) :
    ownState (claimHarness s) = (if ownB s then ownWaiting else ownClaiming) ∧
      (claimHarness s).drive.ownA = (s.drive.ownA || !ownB s) ∧
      getF (claimHarness s) SC_OWNCTL_CLAIM = getF s SC_OWNCTL_CLAIM := by
  let waits : State := { setF s SC_OWNSTAT_STATE ownWaiting with
    drive := { s.drive with withdrawn := none, withdrawnHigh := false } }
  have partner : ownB waits = ownB s :=
    congrArg (· != 0) (getF_setF_ne s SC_OWNSTAT_STATE SC_OWNSTAT_PARTNER ownWaiting (by decide) (by decide) (by decide))
  have claim : getF waits SC_OWNCTL_CLAIM = getF s SC_OWNCTL_CLAIM :=
    getF_setF_ne s SC_OWNSTAT_STATE SC_OWNCTL_CLAIM ownWaiting (by decide) (by decide) (by decide)
  have claims : claimHarness s = if ownB s then waits else startClaim waits := by
    rw [← partner]
    rfl
  rw [claims]
  cases ownB s
  · exact ⟨getF_setF_same waits SC_OWNSTAT_STATE ownClaiming (by decide), (Bool.or_true _).symm,
      (getF_setF_ne waits SC_OWNSTAT_STATE SC_OWNCTL_CLAIM ownClaiming (by decide) (by decide) (by decide)).trans claim⟩
  · exact ⟨getF_setF_same s SC_OWNSTAT_STATE ownWaiting (by decide), (Bool.or_false _).symm, claim⟩

/-- The ports are tri-stated, and a boundary release clears CLAIM (R253, R456). -/
theorem claimDropped_shows (s : State) :
    ownState (claimDropped s) = ownReleased ∧ getF (claimDropped s) SC_OWNSTAT_DRIVING = 0 ∧
      getF (claimDropped s) SC_OWNCTL_CLAIM = (if s.drive.clearsClaim then 0 else getF s SC_OWNCTL_CLAIM) ∧
      (claimDropped s).twin = s.twin := by
  unfold claimDropped ownState
  dsimp only
  split
  · simp (disch := decide) only [getF_setF_ne, getF_setF_same, setF_twin]
    decide
  · simp (disch := decide) only [getF_setF_ne, getF_setF_same, setF_twin]
    exact ⟨by decide, by decide, trivial, trivial⟩

/-- A release whose CLAIM stays 0 leaves the harness alone (R253, R456). -/
theorem released_shows {s : State} (still : s.twin.rearm = false)
    (dropped : flag s SC_OWNCTL_CLAIM = false ∨ s.drive.clearsClaim = true) :
    ownState (released s) = ownReleased ∧ getF (released s) SC_OWNSTAT_DRIVING = 0 ∧ (released s).drive.ownA = false ∧
      (released s).drive.releaseAtSlot = false ∧ getF (released s) SC_OWNCTL_CLAIM = 0 := by
  obtain ⟨state, driving, claim, twin⟩ := claimDropped_shows s
  have zero : getF (claimDropped s) SC_OWNCTL_CLAIM = 0 := by
    rw [claim]
    split
    · rfl
    · next kept => simpa [flag] using dropped.resolve_right kept
  have calm : claimRearmed (harnessIdle (claimDropped s)) = harnessIdle (claimDropped s) :=
    if_neg (by simp [rearms, harnessIdle, twin, still])
  have rests : released s = harnessIdle (claimDropped s) := by
    have idle : getF (harnessIdle (claimDropped s)) SC_OWNCTL_CLAIM = 0 := zero
    rw [released_eq, releaseEnds, calm]
    exact if_neg (by simp [flag, idle])
  rw [rests]
  exact ⟨state, driving, rfl, rfl, zero⟩

/-! ### The plane slot boundary -/

theorem slotBoundary_releases {s : State} (waits : s.drive.releaseAtSlot = true) : slotBoundary s = released s := if_pos waits

theorem slotBoundary_drives {s : State} (calm : s.drive.releaseAtSlot = false) (holding : ownState s = ownHolding)
    (low : ownB s = false) : slotBoundary s = setF s SC_OWNSTAT_DRIVING 1 := by
  unfold slotBoundary driveIfHolding
  simp [calm, holding, low]

/-- A plane slot's start: its boundary, then LAT and OE (R238 to R240, R253, R266). -/
theorem planeSlotStart_eq {s : State} {n : Nat} (filled : s.drive.clearing = false) (inside : n < planeCount s) :
    ∃ bits, let u := slotBoundary s
      planeSlotStart s n = { u with drive := { u.drive with
        plane := some n, rowOut := u.drive.row, latched := u.drive.shifting, shifting := bits,
        oeSteps := if u.drive.lit && !u.drive.dark then
          oePulse (planeCount u) (getF u SC_PGTIME_LIT) (planeCount u - 1 - n) u.drive.cycleFrame.toNat u.drive.cycle
            (refreshes u)
          else 0 } } := by
  unfold planeSlotStart
  rw [if_neg (by simp [filled, inside])]
  exact ⟨_, rfl⟩

/-- A plane slot shows the row on the ROW outputs, latches what was shifted and gives OE its steps (R238 to R240, R266). -/
theorem planeSlotStart_shows {s : State} {n : Nat} (filled : s.drive.clearing = false) (inside : n < planeCount s) :
    let t := planeSlotStart s n
    t.drive.plane = some n ∧ t.drive.rowOut = s.drive.row ∧ t.drive.latched = s.drive.shifting ∧
      t.drive.oeSteps = (if s.drive.lit && !s.drive.dark then
        oePulse (planeCount s) (getF s SC_PGTIME_LIT) (planeCount s - 1 - n) s.drive.cycleFrame.toNat s.drive.cycle (refreshes s)
        else 0) ∧
      t.drive.ownA = (slotBoundary s).drive.ownA ∧ t.drive.releaseAtSlot = (slotBoundary s).drive.releaseAtSlot ∧
      ∀ f, getF t f = getF (slotBoundary s) f := by
  obtain ⟨bits, starts⟩ := planeSlotStart_eq filled inside
  have moves := (InterlockMoves.refl s).slotBoundary
  obtain ⟨a, r, c, w, h, drive⟩ := moves.drive
  have planes : planeCount (slotBoundary s) = planeCount s := by
    unfold planeCount
    rw [moves.getF (f := SC_PGCFG_PM1) (by decide) (by decide)]
  have cycles : refreshes (slotBoundary s) = refreshes s := moves.getF (f := SC_PGCFG_NREF) (by decide) (by decide)
  have lit : getF (slotBoundary s) SC_PGTIME_LIT = getF s SC_PGTIME_LIT := moves.getF (by decide) (by decide)
  dsimp only at starts ⊢
  rw [starts]
  refine ⟨rfl, ?_, ?_, ?_, rfl, rfl, fun _ => rfl⟩
  · rw [drive]
  · rw [drive]
  · rw [planes, cycles, lit, drive]

end Sys2Proof.Machine
end

section
/-! SUPPORT. Writes of CLAIM, the level of OWN_B and the expiry of TARB (R251, R253, R254, R263; log entry 113). -/

namespace Sys2Proof.Machine

/-! ### What a write counts -/

theorem Reported.countIf {as : List Nat} {s₀ s : State} (h : Reported as s₀ s) (own : HS_RSVWR ∈ as) (bad : Bool) :
    Reported as s₀ (countIf s bad) := by
  have counted := h.countF (f := HS_RSVWR_COUNT) own 1
  unfold Machine.countIf
  split
  · unfold countReserved
    dsimp only
    split
    · exact counted.setF own 1
    · exact counted
  · exact h

theorem countOnce_reported (s x : State) : Reported [HS_RSVWR] x (countOnce s x) := by
  unfold countOnce
  dsimp only
  split
  · exact ((Reported.refl _ x).setF (f := HS_RSVWR_COUNT) (by decide) _).setF (f := HS_RSVWR_SAT) (by decide) _
  · exact Reported.refl _ x

/-! ### Writes of CLAIM -/

theorem regSpecAt_ownCtl : ∃ r, regSpecAt SC_OWNCTL = some (r, []) ∧ r.presence = .always ∧ r.hook = .ownCtl ∧
    ∃ g ∈ r.fields, g.hi = 0 ∧ g.lo = 0 ∧ g.access = .rw ∧ g.allow = .any :=
  ⟨_, rfl, rfl, rfl, ⟨"CLAIM", 0, 0, .rw, 0, .any⟩, by decide, rfl, rfl, rfl, rfl⟩

/-- A write of SC_OWNCTL stores CLAIM as written, and then the interlock acts. -/
theorem claim_runs {s : State} (on : scanOn s = true) (src : Src) (val : Word) :
    ∃ x t, Reported [SC_OWNCTL, HS_RSVWR] s x ∧ flag x SC_OWNCTL_CLAIM = val.getLsbD 0 ∧
      exec (.claim src val) s = .next t ∧ Reported [HS_RSVWR] (claimWritten x) t := by
  obtain ⟨r, spec, presence, hook, g, among, hi, lo, access, allow⟩ := regSpecAt_ownCtl
  have special : specialWrite s src r [] SC_OWNCTL val = none := by simp only [specialWrite, hook]
  have write := regWrite_byFields (w := val) spec rfl (by simp [registerPresent, presence]) (by rw [hook]; decide) special
  have field := writeWord_field (v := s.variant) (regSpecAt_ok spec) (regWord s SC_OWNCTL) val g among
  simp only [hi, lo, fieldAfter, access, allow, allowed, if_true] at field
  dsimp only at write
  generalize writeWord s.variant r.fields (regWord s SC_OWNCTL) val = written at write field
  refine ⟨Machine.countIf (setRegWord s SC_OWNCTL written.1) written.2, _,
    ((Reported.refl _ s).setRegWord (by decide) _).countIf (by decide) _, ?_,
    rowWrite_scan (a := SC_OWNCTL) on rfl rfl, ?_⟩
  · have stored : getF (Machine.countIf (setRegWord s SC_OWNCTL written.1) written.2) SC_OWNCTL_CLAIM = bitsOf val 0 0 := by
      unfold getF
      rw [countIf_regWord (by decide), show SC_OWNCTL_CLAIM.addr = SC_OWNCTL from rfl, regWord_setRegWord_same]
      exact field
    rw [flag, stored, bitsOf_bit val (by decide)]
    cases val.getLsbD 0 <;> rfl
  · rw [write]
    simp only [afterScanWrite, hook]
    exact countOnce_reported _ _

/-- CLAIM written 1 in RELEASED (R253). -/
theorem claim_claims {s : State} (on : scanOn s = true) (src : Src) {val : Word} (fit : s.twin.failed = false)
    (claim : val.getLsbD 0 = true) (released : ownState s = ownReleased) :
    Answers (.claim src val) s fun t =>
      getF t SC_OWNCTL_CLAIM = 1 ∧ t.drive.ownA = (s.drive.ownA || !ownB s) ∧
      ownState t = if ownB s then ownWaiting else ownClaiming := by
  obtain ⟨x, t, stored, flagged, run, counted⟩ := claim_runs on src val
  rw [claim] at flagged
  have acts : claimWritten x = claimHarness x := by
    have state : ownState x = ownReleased := (stored.getF (by decide)).trans released
    have twin : x.twin = s.twin := stored.view (·.twin) fun _ _ _ _ _ => rfl
    unfold claimWritten
    simp [twin, fit, flagged, state]
  obtain ⟨state, ownA, kept⟩ := claimHarness_shows x
  have partner : ownB x = ownB s := congrArg (· != 0) (stored.getF (f := SC_OWNSTAT_PARTNER) (by decide))
  have drive : x.drive = s.drive := stored.view (·.drive) fun _ _ _ _ _ => rfl
  rw [acts] at counted
  rw [flag_eq_decide _ rfl (by decide), decide_eq_true_eq] at flagged
  refine ⟨t, run, ?_, ?_, ?_⟩
  · rw [counted.getF (by decide), kept, flagged]
  · rw [counted.view (·.drive) fun _ _ _ _ _ => rfl, ownA, drive, partner]
  · rw [ownState, counted.getF (by decide), ← partner]
    exact state

/-- A FAILED module ignores a write of 1 (R447). -/
theorem claim_failed {s : State} (on : scanOn s = true) (src : Src) {val : Word} (failed : s.twin.failed = true)
    (claim : val.getLsbD 0 = true) :
    Answers (.claim src val) s fun t => getF t SC_OWNCTL_CLAIM = 0 ∧ ownState t = ownState s ∧ t.drive = s.drive := by
  obtain ⟨x, t, stored, flagged, run, counted⟩ := claim_runs on src val
  rw [claim] at flagged
  have acts : claimWritten x = setF x SC_OWNCTL_CLAIM 0 := by
    have twin : x.twin = s.twin := stored.view (·.twin) fun _ _ _ _ _ => rfl
    unfold claimWritten
    simp [twin, failed, flagged]
  have told : Reported [SC_OWNCTL, HS_RSVWR] s (setF x SC_OWNCTL_CLAIM 0) := stored.setF (by decide) 0
  rw [acts] at counted
  refine ⟨t, run, ?_, ?_, ?_⟩
  · rw [counted.getF (by decide), getF_setF_same _ _ _ (by decide)]
    rfl
  · exact (counted.getF (f := SC_OWNSTAT_STATE) (by decide)).trans (told.getF (by decide))
  · exact (counted.view (·.drive) fun _ _ _ _ _ => rfl).trans (told.view (·.drive) fun _ _ _ _ _ => rfl)

/-- CLAIM written 0: the release waits for the plane slot boundary, or is done at once where none comes (R253; log entry 113). -/
theorem claim_releases {s : State} (on : scanOn s = true) (src : Src) {val : Word} (still : s.twin.rearm = false)
    (release : val.getLsbD 0 = false) :
    Answers (.claim src val) s fun t => getF t SC_OWNCTL_CLAIM = 0 ∧
      if flag s SC_OWNSTAT_DRIVING && anyRunning s && beamRuns s then t.drive.releaseAtSlot = true ∧ ownState t = ownState s
      else ownState t = ownReleased ∧ getF t SC_OWNSTAT_DRIVING = 0 ∧ t.drive.ownA = false := by
  obtain ⟨x, t, stored, flagged, run, counted⟩ := claim_runs on src val
  rw [release] at flagged
  have zero : getF x SC_OWNCTL_CLAIM = 0 := by simpa [flag] using flagged
  have twin : x.twin = s.twin := stored.view (·.twin) fun _ _ _ _ _ => rfl
  have boundary : (flag x SC_OWNSTAT_DRIVING && anyRunning x && beamRuns x) =
      (flag s SC_OWNSTAT_DRIVING && anyRunning s && beamRuns s) := by
    unfold flag anyRunning runMask beamRuns beamState
    rw [stored.getF (f := SC_OWNSTAT_DRIVING) (by decide), stored.getF (f := SC_PGSTAT_ACTIVE) (by decide),
      stored.getF (f := SC_PGCTL_RUN) (by decide), stored.getF (f := SC_BEAMSTAT_STATE) (by decide)]
  have acts : claimWritten x =
      if flag x SC_OWNSTAT_DRIVING && anyRunning x && beamRuns x then { x with drive := { x.drive with releaseAtSlot := true } }
      else released x := by
    unfold claimWritten
    rw [flagged]
    simp only [Bool.and_false, Bool.false_eq_true, if_false]
    rfl
  rw [acts, boundary] at counted
  by_cases waits : (flag s SC_OWNSTAT_DRIVING && anyRunning s && beamRuns s) = true
  · rw [if_pos waits] at counted
    refine ⟨t, run, (counted.getF (by decide)).trans zero, ?_⟩
    rw [if_pos waits, counted.view (·.drive) fun _ _ _ _ _ => rfl]
    exact ⟨rfl, (counted.getF (f := SC_OWNSTAT_STATE) (by decide)).trans (stored.getF (f := SC_OWNSTAT_STATE) (by decide))⟩
  · rw [if_neg waits] at counted
    obtain ⟨state, driving, ownA, -, claim⟩ := released_shows (s := x) (by rw [twin]; exact still) (.inl flagged)
    refine ⟨t, run, (counted.getF (by decide)).trans claim, ?_⟩
    rw [if_neg waits, counted.view (·.drive) fun _ _ _ _ _ => rfl]
    exact ⟨(counted.getF (f := SC_OWNSTAT_STATE) (by decide)).trans state, (counted.getF (by decide)).trans driving, ownA⟩

/-! ### OWN_B -/

/-- OWN_B's level shows in PARTNER; with no handover in hand the interlock alone answers it. -/
theorem ownBChange_level {s : State} (on : scanOn s = true) (still : s.twin.rearm = false) (high : Bool) :
    ∃ v, v = setF s SC_OWNSTAT_PARTNER (b2n high) ∧ getF v SC_OWNSTAT_PARTNER = b2n high ∧
      exec (.ownBChange high) s = .next (ownBChange s high) ∧ (if high then rearm v else v) = v ∧
      ∀ f, f.fits → SC_OWNSTAT_PARTNER.apart f → getF v f = getF s f := by
  refine ⟨_, rfl, ?_, ?_, ?_, fun f fits apart => getF_setF_ne _ _ _ _ (by decide) fits apart⟩
  · rw [getF_setF_same _ _ _ (by decide)]
    exact b2n_mod high
  · show Host.Outcome.next (if scanOn s then ownBChange s high else _) = _
    rw [if_pos on]
  · split
    · exact if_neg (by simp [rearms, still])
    · rfl

/-- A tie that the partner wins: back to WAITING, OWN_A low (R253). -/
theorem ownBChange_tie {s : State} (on : scanOn s = true) (still : s.twin.rearm = false) (claiming : ownState s = ownClaiming)
    (yields : getF s SC_OWNCTL_TIEWIN = 0) :
    Answers (.ownBChange true) s fun t =>
      ownState t = ownWaiting ∧ t.drive.ownA = false ∧ getF t SC_OWNSTAT_TIEEV = 1 ∧ getF t SC_OWNSTAT_PARTNER = 1 := by
  obtain ⟨v, level, partner, run, calm, kept⟩ := ownBChange_level on still true
  have state : ownState v = ownClaiming := (kept _ (by decide) (by decide)).trans claiming
  let told := raiseEvent v 61 SC_OWNSTAT_TIEEV
  have tiewin : flag told SC_OWNCTL_TIEWIN = false := by
    rw [flag, getF_raiseEvent_ne _ rfl (by decide) (by decide) (by decide), kept _ (by decide) (by decide), yields]
    rfl
  have acts : ∃ d, ownBChange s true = { setF told SC_OWNSTAT_STATE ownWaiting with drive := d } ∧ d.ownA = false := by
    unfold ownBChange
    dsimp only
    rw [← level, calm, state, if_neg (by decide), if_pos (by decide), tiewin]
    exact ⟨_, rfl, rfl⟩
  obtain ⟨d, acts, ownA⟩ := acts
  refine ⟨_, run.trans (congrArg _ acts), ?_, ownA, ?_, ?_⟩
  · rw [ownState, getF_with_drive, getF_setF_same _ _ _ (by decide)]
    rfl
  · rw [getF_with_drive, getF_setF_ne _ _ _ _ (by decide) (by decide) (by decide)]
    exact getF_raiseEvent_same v rfl rfl (by decide)
  · rw [getF_with_drive, getF_setF_ne _ _ _ _ (by decide) (by decide) (by decide),
      getF_raiseEvent_ne v rfl (by decide) (by decide) (by decide)]
    exact partner

/-- The partner claims a harness that is held: CONTESTED, and the ports are released (R254). -/
theorem ownBChange_dual {s : State} (on : scanOn s = true) (still : s.twin.rearm = false) (stays : s.drive.releaseAtSlot = false)
    (holding : ownState s = ownHolding) :
    Answers (.ownBChange true) s fun t => ownState t = ownContested ∧
      getF t SC_OWNSTAT_DRIVING = 0 ∧ getF t SC_OWNSTAT_DUALEV = 1 ∧ getF t SC_OWNSTAT_PARTNER = 1 := by
  obtain ⟨v, level, partner, run, calm, kept⟩ := ownBChange_level on still true
  have state : ownState v = ownHolding := (kept _ (by decide) (by decide)).trans holding
  let apart := setF (setF v SC_OWNSTAT_STATE ownContested) SC_OWNSTAT_DRIVING 0
  let told := raiseEvent apart 61 SC_OWNSTAT_DUALEV
  let noted := recordScan told .fault 0x4001 (regWord told SC_OWNSTAT).toNat 0 0 0
  have drive : noted.drive = s.drive := by
    have report := ((Reported.refl [SC_OWNSTAT] apart).raiseEvent (n := 61) (f := SC_OWNSTAT_DUALEV) rfl (by decide)).recordScan
      .fault 0x4001 (regWord told SC_OWNSTAT).toNat 0 0 0
    exact (report.view (·.drive) fun _ _ _ _ _ => rfl).trans (by rw [show apart.drive = v.drive from rfl, level]; rfl)
  have acts : ownBChange s true = noted := by
    unfold ownBChange
    dsimp only
    rw [← level, calm, state, if_neg (by decide), if_neg (by decide), if_pos (by decide)]
    exact if_neg (by rw [show (recordScan _ _ _ _ _ _ _).drive = noted.drive from rfl, drive, stays]; exact Bool.false_ne_true)
  have fields : ∀ f, f.fits → SC_OWNSTAT_DUALEV.apart f → getF noted f = getF apart f := fun f fits away =>
    (getF_congr (recordScan_regWord _ _ _ _ _ _ _ _)).trans (getF_raiseEvent_ne _ rfl (by decide) fits away)
  refine ⟨_, run.trans (congrArg _ acts), ?_, ?_, ?_, ?_⟩
  · exact (fields _ (by decide) (by decide)).trans ((getF_setF_ne _ _ _ _ (by decide) (by decide) (by decide)).trans
      (getF_setF_same v SC_OWNSTAT_STATE ownContested (by decide)))
  · exact (fields _ (by decide) (by decide)).trans (getF_setF_same _ _ _ (by decide))
  · exact (getF_congr (recordScan_regWord _ _ _ _ _ _ _ _)).trans (getF_raiseEvent_same _ rfl rfl (by decide))
  · exact (fields _ (by decide) (by decide)).trans ((getF_setF_ne _ _ _ _ (by decide) (by decide) (by decide)).trans
      ((getF_setF_ne _ _ _ _ (by decide) (by decide) (by decide)).trans partner))

/-- The partner lets go while the module waits: it claims (R253). -/
theorem ownBChange_free {s : State} (on : scanOn s = true) (still : s.twin.rearm = false) (waiting : ownState s = ownWaiting)
    (fresh : s.drive.withdrawn = none) :
    Answers (.ownBChange false) s fun t => ownState t = ownClaiming ∧ t.drive.ownA = true ∧ getF t SC_OWNSTAT_PARTNER = 0 := by
  obtain ⟨v, level, partner, run, calm, kept⟩ := ownBChange_level on still false
  have state : ownState v = ownWaiting := (kept _ (by decide) (by decide)).trans waiting
  have withdrawn : v.drive.withdrawn = none := by rw [level]; exact fresh
  have acts : ownBChange s false = startClaim v := by
    unfold ownBChange
    dsimp only
    rw [← level, calm, state, withdrawn]
    rfl
  exact ⟨_, run.trans (congrArg _ acts), getF_setF_same v SC_OWNSTAT_STATE ownClaiming (by decide), rfl,
    (getF_setF_ne v SC_OWNSTAT_STATE SC_OWNSTAT_PARTNER ownClaiming (by decide) (by decide) (by decide)).trans partner⟩

/-! ### TARB -/

theorem Quiet.reportItem {s₀ s : State} (h : Quiet s₀ s) (payload : List Byte) : Quiet s₀ (reportItem s payload) :=
  (h.weave _).routePacket _ _ _

theorem Quiet.sendReport {s₀ s : State} (h : Quiet s₀ s) (payload : List Byte) : Quiet s₀ (sendReport s payload) := by
  refine Quiet.reportItem ?_ payload
  unfold resetReport
  split
  · exact h
  · exact (h.weave _).reportItem _

/-- The report of a takeover reaches no register of the interlock (R458). -/
theorem takeoverDone_quiet (s : State) : Quiet s (takeoverDone s) := by
  unfold takeoverDone recordTwin
  split
  · exact Quiet.refl s
  · exact (((Quiet.refl s).raiseEvent rfl rfl).record _ _ _ _ _ _ _).sendReport _

/-- TARB expires with OWN_B low: the harness is held, and driven at once while the timing is held (R251, R253, R263). -/
theorem tarbExpiry_holds {s : State} (on : scanOn s = true) (calm : s.drive.releaseAtSlot = false)
    (claims : ownState s = ownClaiming ∨ ownState s = ownContested) (low : ownB s = false) :
    Answers .tarbExpiry s fun t => ownState t = ownHolding ∧ getF t SC_OWNSTAT_TAKEEV = 1 ∧
      getF t SC_OWNSTAT_DRIVING = if beamRuns s then getF s SC_OWNSTAT_DRIVING else 1 := by
  let v := setF s SC_OWNSTAT_STATE ownHolding
  let held := raiseEvent v 61 SC_OWNSTAT_TAKEEV
  have kept : ∀ f, f.fits → SC_OWNSTAT_STATE.apart f → SC_OWNSTAT_TAKEEV.apart f → getF held f = getF s f :=
    fun f fits first second => (getF_raiseEvent_ne _ rfl (by decide) fits second).trans
      (getF_setF_ne _ _ _ _ (by decide) fits first)
  have state : ownState held = ownHolding :=
    (getF_raiseEvent_ne _ rfl (by decide) (by decide) (by decide)).trans (getF_setF_same _ _ _ (by decide))
  have event : getF held SC_OWNSTAT_TAKEEV = 1 := getF_raiseEvent_same _ rfl rfl (by decide)
  have runs : beamRuns held = beamRuns s := by
    unfold beamRuns beamState
    rw [kept _ (by decide) (by decide) (by decide)]
  have partner : ownB held = false := by
    rw [ownB, flag, kept _ (by decide) (by decide) (by decide)]
    exact low
  have drive : held.drive = s.drive :=
    ((Reported.refl [SC_OWNSTAT] v).raiseEvent (n := 61) (f := SC_OWNSTAT_TAKEEV) rfl (by decide)).view (·.drive)
      fun _ _ _ _ _ => rfl
  have drives : driveIfHolding held = setF held SC_OWNSTAT_DRIVING 1 := if_pos (by simp [state, partner, drive, calm])
  let ends := if beamRuns s then held else setF held SC_OWNSTAT_DRIVING 1
  have acts : tarbExpiry s = (ends, true) := by
    unfold tarbExpiry
    rw [if_pos (by rcases claims with claims | claims <;> simp [claims, low, calm])]
    dsimp only
    rw [drives, runs]
  have shown : ownState ends = ownHolding ∧ getF ends SC_OWNSTAT_TAKEEV = 1 ∧
      getF ends SC_OWNSTAT_DRIVING = if beamRuns s then getF s SC_OWNSTAT_DRIVING else 1 := by
    unfold ends
    split
    · exact ⟨state, event, kept _ (by decide) (by decide) (by decide)⟩
    · exact ⟨(getF_setF_ne _ _ _ _ (by decide) (by decide) (by decide)).trans state,
        (getF_setF_ne _ _ _ _ (by decide) (by decide) (by decide)).trans event, getF_setF_same _ _ _ (by decide)⟩
  obtain ⟨state, event, driving⟩ := shown
  have same : ∀ f, f.addr = SC_OWNSTAT → getF (takeoverDone ends) f = getF ends f := fun f own =>
    getF_congr ((takeoverDone_quiet ends).regs _ (by rw [own]; rfl))
  let act (s : State) : State := if (tarbExpiry s).2 then takeoverDone (tarbExpiry s).1 else (tarbExpiry s).1
  have run : act s = takeoverDone ends := by
    show (if (tarbExpiry s).2 then _ else _) = _
    rw [acts]
    rfl
  exact ⟨_, (whenScan_on on act).trans (congrArg _ run), (same _ rfl).trans state, (same _ rfl).trans event,
    (same _ rfl).trans driving⟩

end Sys2Proof.Machine
end

section
/-! SUPPORT. RUN: what the checks of R249 read, which regions a write of RUN leaves set, and what it reports (R249). -/

namespace Sys2Proof.Machine

/-! ### The checks -/

/-- The checks read registers of the scan die, the area and the variant. -/
theorem runFailure_congr {s t : State} (regs : ∀ a, 0x200000 ≤ a → regWord t a = regWord s a)
    (variant : t.variant = s.variant) (area : t.area = s.area) (k : Nat) : runFailure t k = runFailure s k := by
  have field : ∀ f : Fld, 0x200000 ≤ f.addr → getF t f = getF s f := fun f far => getF_congr (regs _ far)
  have port : ∀ n, portFunc t n = portFunc s n ∧ getF t (SC_DPCFG_GROUP n) = getF s (SC_DPCFG_GROUP n) := fun n => by
    have far : 0x200000 ≤ SC_DPCFG n := by unfold SC_DPCFG; omega
    exact ⟨field (SC_DPCFG_FUNC n) far, field (SC_DPCFG_GROUP n) far⟩
  have lane : ∀ n, laneBits t n = laneBits s n := fun n => by
    have far : 0x200000 ≤ SC_LANEA n ∧ 0x200000 ≤ SC_LANEB n := by unfold SC_LANEA SC_LANEB; omega
    obtain ⟨a, b⟩ := far
    unfold laneBits laneChannels
    rw [field (SC_LANEA_LWM1 n) a, field (SC_LANEA_CHMASK n) a, field (SC_LANEB_LBLKM1 n) b, field (SC_LANEB_SKIP n) b]
  have ports : dataPorts t k = dataPorts s k := by
    unfold dataPorts
    simp only [port, variant]
  have groups : ∀ g fn, groupHas t k g fn = groupHas s k g fn := fun g fn => by
    unfold groupHas
    simp only [port, variant]
  have rate : ∀ x bound, rateExceeds t x bound = rateExceeds s x bound := fun x bound => by
    unfold rateExceeds framePeriod refreshes
    rw [regs _ (by decide), field _ (by decide)]
  have rows : muxRows t = muxRows s := congrArg (· + 1) (field SC_PGCFG_MUXM1 (by decide))
  have planes : planeCount t = planeCount s := congrArg (· + 1) (field SC_PGCFG_PM1 (by decide))
  have slots : rowSlots t = rowSlots s := by
    unfold rowSlots refreshes
    rw [rows, field _ (by decide)]
  have period : framePeriod t = framePeriod s := congrArg BitVec.toNat (regs SC_BEAMPER (by decide))
  have dead : getF t SC_PGTIME_RDEAD = getF s SC_PGTIME_RDEAD := field _ (by decide)
  have lit : getF t SC_PGTIME_LIT = getF s SC_PGTIME_LIT := field _ (by decide)
  have slot : planeSlot t = planeSlot s := by
    unfold planeSlot
    rw [period, dead, slots, planes]
  have use : regionsInUse t = regionsInUse s := by
    unfold regionsInUse
    rw [area, variant]
  unfold runFailure
  simp only [ports, rate, rows, planes, lane, slot, slots, period, dead, lit, port, groups, use]

/-- A check's code fits the field FAIL. -/
theorem runFailure_code {s : State} {k : Nat} {f : Nat × Option Nat} (fails : runFailure s k = some f) : f.1 < 8 := by
  have found : ∀ (c : Nat) (o : Option Nat), c < 8 → (o.map fun n => (c, some n)) = some f → f.1 < 8 := by
    rintro c o low e
    obtain ⟨n, -, rfl⟩ := Option.map_eq_some_iff.mp e
    exact low
  have checked : ∀ (c : Nat) (b : Bool), c < 8 → (if b then some (c, none) else none) = some f → f.1 < 8 := by
    rintro c b low e
    cases b <;> cases e
    exact low
  unfold runFailure at fails
  obtain ⟨x, among, rfl⟩ := List.exists_of_findSome?_eq_some fails
  simp only [List.mem_cons, List.not_mem_nil, or_false] at among
  rcases among with e | e | e | e | e | e | e
  · exact found _ _ (by decide) e.symm
  · exact found _ _ (by decide) e.symm
  · exact checked _ _ (by decide) e.symm
  · exact checked _ _ (by decide) e.symm
  · exact checked _ _ (by decide) e.symm
  · exact found _ _ (by decide) e.symm
  · exact checked _ _ (by decide) e.symm

/-! ### A write of RUN -/

/-- Regions asked for whose RUN bit stands, or that pass the checks (R249). -/
def runStays (s : State) (mask : Nat) : List Nat :=
  ((List.range (regionCount s.variant)).filter fun k => bitAt mask k).filter fun k =>
    bitAt (runMask s) k || (runFailure s k).isNone

/-- The failures of the regions asked for whose RUN bit does not stand (R249). -/
def runFails (s : State) (mask : Nat) : List (Nat × Option Nat) :=
  (((List.range (regionCount s.variant)).filter fun k => bitAt mask k).filter fun k => !bitAt (runMask s) k).filterMap fun k =>
    runFailure s k

theorem mem_runStays {s : State} {mask k : Nat} : k ∈ runStays s mask ↔
    (k < regionCount s.variant ∧ bitAt mask k = true) ∧ (bitAt (runMask s) k = true ∨ runFailure s k = none) := by
  simp only [runStays, List.mem_filter, List.mem_range, Bool.or_eq_true, Option.isNone_iff_eq_none]

theorem mem_runFails {s : State} {mask : Nat} {f : Nat × Option Nat} : f ∈ runFails s mask ↔
    ∃ k, ((k < regionCount s.variant ∧ bitAt mask k = true) ∧ bitAt (runMask s) k = false) ∧ runFailure s k = some f := by
  simp only [runFails, List.mem_filterMap, List.mem_filter, List.mem_range, Bool.not_eq_true']

/-- A write of RUN sets the bits of the regions that stay, and reports the first failure (R249). -/
theorem runWrite_eq (s : State) (mask : Nat) :
    ∃ d, let t := { setF s SC_PGCTL_RUN ((runStays s mask).map fun k => 2 ^ k).sum with drive := d }
      runWrite s mask = (runFails s mask).head?.elim t (reportRunFailure t) := by
  rw [List.sum_eq_foldl]
  unfold runWrite runFails
  dsimp only
  generalize List.filterMap _ _ = fails
  cases fails with
  | nil => exact ⟨_, rfl⟩
  | cons f fs => exact ⟨_, rfl⟩

/-- The bits of a sum of different powers of two. -/
theorem runStays_bit (s : State) (mask k : Nat) :
    bitAt ((runStays s mask).map fun k => 2 ^ k).sum k = decide (k ∈ runStays s mask) := by
  have rising : (runStays s mask).SortedLT := ((List.pairwise_lt_range.filter _).filter _).sortedLT
  rw [Bool.eq_iff_iff, bitAt, decide_eq_true_eq, ← Nat.mem_bitIndices, Nat.bitIndices_sum_map_two_pow rising]

/-- A failed check shows its code and its event, and leaves RUN (R249). -/
theorem reportRunFailure_shows (s : State) {f : Nat × Option Nat} (code : f.1 < 8) :
    getF (reportRunFailure s f) SC_PGSTAT_FAILEV = 1 ∧ getF (reportRunFailure s f) SC_PGSTAT_FAIL = f.1 ∧
      getF (reportRunFailure s f) SC_PGCTL_RUN = getF s SC_PGCTL_RUN := by
  unfold reportRunFailure
  dsimp only
  refine ⟨getF_raiseEvent_same _ rfl rfl (by decide), ?_, ?_⟩
  · rw [getF_raiseEvent_ne _ rfl (by decide) (by decide) (by decide)]
    have shown : getF (setF s SC_PGSTAT_FAIL f.1) SC_PGSTAT_FAIL = f.1 :=
      (getF_setF_same _ _ _ (by decide)).trans (Nat.mod_eq_of_lt code)
    cases f.2 with
    | none => exact shown
    | some n => exact (getF_setF_ne _ _ _ _ (by decide) (by decide) (by decide)).trans shown
  · rw [getF_raiseEvent_ne _ rfl (by decide) (by decide) (by decide)]
    have kept : getF (setF s SC_PGSTAT_FAIL f.1) SC_PGCTL_RUN = getF s SC_PGCTL_RUN :=
      getF_setF_ne _ _ _ _ (by decide) (by decide) (by decide)
    cases f.2 with
    | none => exact kept
    | some n => exact (getF_setF_ne _ _ _ _ (by decide) (by decide) (by decide)).trans kept

theorem runFails_code {s : State} {mask : Nat} {f : Nat × Option Nat} (fails : f ∈ runFails s mask) : f.1 < 8 := by
  obtain ⟨k, -, failed⟩ := mem_runFails.mp fails
  exact runFailure_code failed

/-- RUN after a write of it: the bits of the regions that stay. -/
theorem runWrite_bit (s : State) (mask : Nat) (k : Fin 4) :
    bitAt (getF (runWrite s mask) SC_PGCTL_RUN) k = decide (k.val ∈ runStays s mask) := by
  obtain ⟨d, writes⟩ := runWrite_eq s mask
  dsimp only at writes
  have run : getF (runWrite s mask) SC_PGCTL_RUN = ((runStays s mask).map fun k => 2 ^ k).sum % 2 ^ 4 := by
    refine Eq.trans ?_ (getF_setF_same s SC_PGCTL_RUN ((runStays s mask).map fun k => 2 ^ k).sum (by decide))
    rw [writes]
    cases fails : (runFails s mask).head? with
    | none => rfl
    | some f => exact (reportRunFailure_shows _ (runFails_code (List.mem_of_head? fails))).2.2
  have below : decide (k.val < 4) = true := decide_eq_true k.isLt
  rw [run, bitAt, Nat.testBit_mod_two_pow, below, Bool.true_and]
  exact runStays_bit s mask k

/-- A write of RUN with a failure reports one; where one region alone fails, its own. -/
theorem runWrite_reports {s : State} {mask : Nat} {f : Nat × Option Nat} (fails : f ∈ runFails s mask) :
    getF (runWrite s mask) SC_PGSTAT_FAILEV = 1 ∧
      ((∀ g ∈ runFails s mask, g = f) → getF (runWrite s mask) SC_PGSTAT_FAIL = f.1) := by
  obtain ⟨d, writes⟩ := runWrite_eq s mask
  dsimp only at writes
  rw [writes]
  cases first : (runFails s mask).head? with
  | none => rw [List.head?_eq_none_iff.mp first] at fails; cases fails
  | some g =>
    have among := List.mem_of_head? first
    obtain ⟨event, code, -⟩ := reportRunFailure_shows
      { setF s SC_PGCTL_RUN ((runStays s mask).map fun k => 2 ^ k).sum with drive := d } (runFails_code among)
    exact ⟨event, fun sole => code.trans (congrArg Prod.fst (sole g among))⟩

end Sys2Proof.Machine
end

section
/-! SUPPORT. Writes of SC_PGCTL, and what an obligation says of refresh, the plane generators and the interlock (R236 to R241,
R249, R250, R253, R254, R258, R263, R266). -/

namespace Sys2Proof.Machine

/-! ### Writes of SC_PGCTL -/

/-- A write of SC_PGCTL stores its fields itself; reserved bits are counted. -/
theorem pgCtl_runs {s : State} (on : scanOn s = true) (src : Src) (w : Word) :
    ∃ x t, Reported [HS_RSVWR] s x ∧ rowWrite s src SC_PGCTL w = .next t ∧ Reported [HS_RSVWR] (pgctlWrite x w) t := by
  have special : specialWrite s src driveRegs[0] [] SC_PGCTL w = some (pgctlWrite (countIf s (strayBits driveRegs[0] w)) w) := rfl
  have present : registerPresent s.variant driveRegs[0] [] = true := rfl
  have lock : breakLockSequence s src SC_PGCTL = s := rfl
  have early : beforeWrite s driveRegs[0] w = s := rfl
  have write : regWrite s src SC_PGCTL w = countOnce s (pgctlWrite (countIf s (strayBits driveRegs[0] w)) w) := by
    have answer : ¬ SC_PGCTL = HS_ODFWANS := by decide
    have go : ¬ SC_PGCTL = HS_ODCTL := by decide
    simp only [regWrite, answer, go, if_false, decide_false, Bool.false_and, Bool.false_eq_true, regWriteBase, regSpecAt_pgCtl,
      present, if_true, writeRegister, early, lock, ite_self, special]
  exact ⟨_, _, (Reported.refl _ s).countIf (by decide) _, (rowWrite_scan on rfl rfl).trans (congrArg _ write),
    countOnce_reported _ _⟩

/-- CH4 and ROWMODE as a write leaves them: they are written where nothing runs (R250). -/
def configured (s : State) (w : Word) : State :=
  if runMask s = 0 then setF (setF s SC_PGCTL_CH4 (bitsOf w 1 1)) SC_PGCTL_ROWMODE (bitsOf w 2 2) else s

/-- A write without CNTCLR that changes neither CH4 nor ROWMODE while a region runs goes on to RUN (R249, R250). -/
theorem pgctlWrite_configured {s : State} {w : Word} (noClear : bitsOf w 0 0 = 0)
    (same : runMask s ≠ 0 → bitsOf w 1 1 = getF s SC_PGCTL_CH4 ∧ bitsOf w 2 2 = getF s SC_PGCTL_ROWMODE) :
    pgctlWrite s w = runWrite (configured s w) (bitsOf w 11 8) := by
  unfold pgctlWrite configured
  rw [if_neg (by rw [noClear]; decide)]
  dsimp only
  by_cases idle : runMask s = 0
  · rw [if_pos idle, if_pos idle]
  · obtain ⟨ch4, mode⟩ := same idle
    rw [if_neg idle, if_neg idle, ch4, mode]
    simp

/-- Every write of SC_PGCTL ends with one of RUN. -/
theorem pgctlWrite_runWrite (s : State) (w : Word) : ∃ x, pgctlWrite s w = runWrite x (bitsOf w 11 8) := ⟨_, rfl⟩

theorem configured_runMask (s : State) (w : Word) : runMask (configured s w) = runMask s := by
  unfold configured
  split
  · exact (getF_setF_ne _ _ _ _ (by decide) (by decide) (by decide)).trans
      (getF_setF_ne s SC_PGCTL_CH4 SC_PGCTL_RUN (bitsOf w 1 1) (by decide) (by decide) (by decide))
  · rfl

theorem configured_variant (s : State) (w : Word) : (configured s w).variant = s.variant := by
  unfold configured
  split <;> rfl

/-- What a write counts changes no check. -/
theorem configured_runFailure {s x : State} (counted : Reported [HS_RSVWR] s x) (w : Word) (k : Nat) :
    runFailure (configured x w) k = runFailure (configured s w) k := by
  have word : ∀ a, 0x200000 ≤ a → regWord x a = regWord s a := fun a far =>
    counted.regs a fun own => by rw [List.mem_singleton.mp own] at far; exact absurd far (by decide)
  have run : runMask x = runMask s := counted.getF (by decide)
  have set : ∀ {u v : State} (f : Fld) (n : Nat), (∀ a, 0x200000 ≤ a → regWord u a = regWord v a) →
      ∀ a, 0x200000 ≤ a → regWord (setF u f n) a = regWord (setF v f n) a := by
    intro u v f n same a far
    by_cases own : a = f.addr
    · subst own
      unfold setF
      rw [regWord_setRegWord_same, regWord_setRegWord_same, same _ far]
    · rw [regWord_setF_ne _ _ _ _ own, regWord_setF_ne _ _ _ _ own, same _ far]
  refine runFailure_congr (fun a far => ?_) ?_ ?_ k
  · unfold configured
    rw [run]
    split
    · exact set _ _ (set _ _ word) a far
    · exact word a far
  · rw [configured_variant, configured_variant, counted.view (·.variant) fun _ _ _ _ _ => rfl]
  · have area : ∀ u, (configured u w).area = u.area := fun u => by
      unfold configured
      split <;> rfl
    rw [area, area, counted.view (·.area) fun _ _ _ _ _ => rfl]

/-! ### The word of RUN_START and RUN_STOP -/

/-- The word differs in the region's RUN bit alone. -/
theorem runWord_getLsbD (val : Word) (k : Fin 4) (run : Bool) (i : Nat) :
    (runWord val k run).getLsbD i = if i = 8 + k.val then run else val.getLsbD i := by
  have mask : (1#32 <<< (8 + k.val) : Word).getLsbD i = decide (i = 8 + k.val) := by
    have small := k.isLt
    rw [← BitVec.twoPow_eq, BitVec.getLsbD_twoPow, decide_eq_true (by omega), Bool.true_and]
    exact decide_eq_decide.mpr eq_comm
  have inside : decide (8 + k.val < 32) = true := decide_eq_true (by omega)
  cases run
  · show (val &&& ~~~ (1#32 <<< (8 + k.val))).getLsbD i = _
    rw [BitVec.getLsbD_and, BitVec.getLsbD_not, mask]
    split
    · next own => simp [own]
    · next other =>
      rw [decide_eq_false other, Bool.not_false, Bool.and_true]
      by_cases low : i < 32
      · simp [low]
      · simp [BitVec.getLsbD_of_ge val i (by omega)]
  · show (val ||| (1#32 <<< (8 + k.val))).getLsbD i = _
    rw [BitVec.getLsbD_or, mask]
    split
    · next own => simp [own]
    · next other => simp [other]

theorem runWord_low (val : Word) (k : Fin 4) (run : Bool) {i : Nat} (low : i < 8) :
    bitsOf (runWord val k run) i i = bitsOf val i i := by
  rw [bitsOf_bit (runWord val k run) (by omega), bitsOf_bit val (by omega), runWord_getLsbD,
    if_neg (show ¬ i = 8 + k.val by omega)]

theorem runWord_mask (val : Word) (k : Fin 4) (run : Bool) {j : Nat} (small : j < 4) :
    bitAt (bitsOf (runWord val k run) 11 8) j = if j = k.val then run else bitAt (bitsOf val 11 8) j := by
  unfold bitAt
  rw [bitsOf_testBit _ _ _ _ (by decide) (by decide), bitsOf_testBit _ _ _ _ (by decide) (by decide), runWord_getLsbD,
    decide_eq_true (by omega), Bool.true_and, Bool.true_and, Nat.add_comm 8 k.val]
  simp only [Nat.add_right_cancel_iff]

theorem regionCount_le (v : Variant) : regionCount v ≤ 4 := by cases v <;> decide

/-! ### RUN_START and RUN_STOP -/

section
variable {s : State} {k : Fin 4} {val : Word} (on : scanOn s = true) (src : Src) (noClear : bitsOf val 0 0 = 0)
  (same : runMask s ≠ 0 → bitsOf val 1 1 = getF s SC_PGCTL_CH4 ∧ bitsOf val 2 2 = getF s SC_PGCTL_ROWMODE)
include on noClear same

/-- A write that sets a region's RUN bit, CH4 and ROWMODE as they are while a region runs: RUN's write follows. -/
theorem runStart_runs :
    ∃ x t, exec (.runStart src k val) s = .next t ∧ Reported [HS_RSVWR] (runWrite x (bitsOf (runWord val k true) 11 8)) t ∧
      x.variant = s.variant ∧ runMask x = runMask s ∧ ∀ j, runFailure x j = runFailure (configured s val) j := by
  obtain ⟨x, t, counted, run, told⟩ := pgCtl_runs on src (runWord val k true)
  have kept : ∀ f : Fld, f.addr = SC_PGCTL → getF x f = getF s f := fun f own =>
    counted.getF (by rw [own]; decide)
  have word : ∀ u, configured u (runWord val k true) = configured u val := fun u => by
    unfold configured
    rw [runWord_low val k true (by decide), runWord_low val k true (by decide)]
  rw [pgctlWrite_configured (by rw [runWord_low val k true (by decide)]; exact noClear) (fun runs => by
    rw [runWord_low val k true (by decide), runWord_low val k true (by decide), kept _ rfl, kept _ rfl]
    exact same (by rwa [runMask, kept _ rfl] at runs)), word] at told
  refine ⟨configured x val, t, run, told, ?_, ?_, configured_runFailure counted val⟩
  · rw [configured_variant]
    exact counted.view (·.variant) fun _ _ _ _ _ => rfl
  · rw [configured_runMask]
    exact kept _ rfl

/-- A region that runs, or that passes the checks, is set to run (R249). -/
theorem runStart_starts (present : k.val < regionCount s.variant)
    (may : bitAt (runMask s) k = true ∨ runFailure (configured s val) k = none) :
    Answers (.runStart src k val) s fun t => bitAt (getF t SC_PGCTL_RUN) k = true := by
  obtain ⟨x, t, run, told, variant, mask, checks⟩ := runStart_runs (k := k) on src noClear same
  refine ⟨t, run, ?_⟩
  dsimp only
  rw [told.getF (by decide), runWrite_bit, decide_eq_true_eq, mem_runStays, variant, mask, checks,
    runWord_mask val k true k.isLt, if_pos rfl]
  exact ⟨⟨present, rfl⟩, may⟩

/-- A region that fails a check is not set to run, and is reported; asked for alone, with its own code (R249). -/
theorem runStart_fails {f : Nat × Option Nat} (present : k.val < regionCount s.variant)
    (stands : bitAt (runMask s) k = false) (fails : runFailure (configured s val) k = some f) :
    Answers (.runStart src k val) s fun t => bitAt (getF t SC_PGCTL_RUN) k = false ∧ getF t SC_PGSTAT_FAILEV = 1 ∧
      (bitsOf val 11 8 = 0 → getF t SC_PGSTAT_FAIL = f.1) := by
  obtain ⟨x, t, run, told, variant, mask, checks⟩ := runStart_runs (k := k) on src noClear same
  have own : f ∈ runFails x (bitsOf (runWord val k true) 11 8) := by
    rw [mem_runFails]
    refine ⟨k.val, ⟨⟨by rwa [variant], ?_⟩, by rwa [mask]⟩, by rw [checks, fails]⟩
    rw [runWord_mask val k true k.isLt, if_pos rfl]
  obtain ⟨event, code⟩ := runWrite_reports own
  refine ⟨t, run, ?_, (told.getF (by decide)).trans event, fun sole => (told.getF (by decide)).trans (code fun g other => ?_)⟩
  · rw [told.getF (by decide), runWrite_bit, decide_eq_false_iff_not, mem_runStays, mask, checks, stands, fails]
    simp
  · obtain ⟨j, ⟨⟨among, asked⟩, -⟩, failed⟩ := mem_runFails.mp other
    have small : j < 4 := Nat.lt_of_lt_of_le among (regionCount_le _)
    rw [runWord_mask val k true small, sole] at asked
    have here : j = k.val := by
      by_contra away
      rw [if_neg away] at asked
      simp [bitAt] at asked
    rw [here, checks, fails] at failed
    exact (Option.some.inj failed).symm

end

/-- RUN falls at once (R249). -/
theorem runStop_stops {s : State} (on : scanOn s = true) (src : Src) (k : Fin 4) (val : Word) :
    Answers (.runStop src k val) s fun t => bitAt (getF t SC_PGCTL_RUN) k = false := by
  obtain ⟨x, t, -, run, told⟩ := pgCtl_runs on src (runWord val k false)
  obtain ⟨y, writes⟩ := pgctlWrite_runWrite x (runWord val k false)
  rw [writes] at told
  refine ⟨t, run, ?_⟩
  dsimp only
  rw [told.getF (by decide), runWrite_bit, decide_eq_false_iff_not, mem_runStays, runWord_mask val k false k.isLt, if_pos rfl]
  simp

/-! ### The statement -/

/-- A plane slot's boundary carries out a release that waits, and drives a harness that is held (R253). -/
theorem planeSlotStart_boundary {s : State} {n : Nat} (filled : s.drive.clearing = false) (inside : n < planeCount s) :
    let t := planeSlotStart s n
    (s.drive.releaseAtSlot = true → s.twin.rearm = false → flag s SC_OWNCTL_CLAIM = false ∨ s.drive.clearsClaim = true →
      ownState t = ownReleased ∧ getF t SC_OWNSTAT_DRIVING = 0 ∧ t.drive.ownA = false ∧ t.drive.releaseAtSlot = false) ∧
    (s.drive.releaseAtSlot = false → ownState s = ownHolding → ownB s = false → getF t SC_OWNSTAT_DRIVING = 1) := by
  obtain ⟨-, -, -, -, ownA, waits, fields⟩ := planeSlotStart_shows filled inside
  refine ⟨fun release still dropped => ?_, fun calm holding low => ?_⟩
  · obtain ⟨state, driving, low, none', -⟩ := released_shows still dropped
    rw [slotBoundary_releases release] at ownA waits fields
    exact ⟨(fields _).trans state, (fields _).trans driving, ownA.trans low, waits.trans none'⟩
  · rw [slotBoundary_drives calm holding low] at fields
    exact (fields _).trans (getF_setF_same _ _ _ (by decide))

/-- Settles O46: the slots by what their starts leave, RUN by the regions that stay and fail, the interlock by its moves. -/
theorem refreshAndInterlock : Obligations.RefreshAndInterlock := by
  unfold Obligations.RefreshAndInterlock
  intro s src frame val cycle row n k f on
  refine ⟨fun filled inside => ?_, fun filled inside => ?_, fun filled inside => ?_, fun present noClear same => ⟨?_, ?_⟩,
    runStop_stops on src k val, claim_claims on src, fun still release _ => claim_releases on src still release,
    claim_failed on src, fun still calm => ⟨ownBChange_tie on still, ownBChange_dual on still calm, ownBChange_free on still,
      tarbExpiry_holds on calm⟩⟩
  · exact ⟨_, whenScan_on on fun s => refreshCycleStart s frame cycle.toNat, refreshCycleStart_shows frame filled inside⟩
  · exact ⟨_, whenScan_on on fun s => rowSlotStart s row.toNat, rowSlotStart_shows filled inside⟩
  · obtain ⟨plane, rowOut, latched, oe, -⟩ := planeSlotStart_shows filled inside
    exact ⟨_, whenScan_on on fun s => planeSlotStart s n.toNat, plane, rowOut, latched, oe,
      planeSlotStart_boundary filled inside⟩
  · exact runStart_starts on src noClear same present
  · exact runStart_fails on src noClear same present

end Sys2Proof.Machine
end

section
/-! SUPPORT. Operations of the block copier: how one ends with an error, what a write of CPY_CTL stores and what ABORT and GO then
do (R282, R284, R291, R294 to R296; log entry 17). -/

namespace Sys2Proof.Machine

theorem Reported.copier {as : List Nat} {s t : State} (h : Reported as s t) : t.copier = s.copier :=
  h.view (·.copier) fun _ _ _ _ _ => rfl

theorem Reported.mono {as bs : List Nat} {s t : State} (h : Reported as s t) (sub : as ⊆ bs) : Reported bs s t :=
  ⟨h.rest, fun k away => h.regs k fun own => away (sub own)⟩

/-! ### An operation ends with an error -/

/-- The copier is idle after an error: the code, its event, BUSY clear (R284, R294). -/
def CopyFailed (t : State) (err : Nat) : Prop :=
  t.copier = none ∧ getF t CPY_STAT_ERR = err ∧ getF t CPY_STAT_ERREV = 1 ∧ getF t CPY_STAT_BUSY = 0

theorem CopyFailed.reported {as : List Nat} {s t : State} {err : Nat} (h : CopyFailed s err) (told : Reported as s t)
    (away : CPY_STAT ∉ as) : CopyFailed t err := by
  obtain ⟨ended, code, event, idle⟩ := h
  exact ⟨told.copier.trans ended, (told.getF away).trans code, (told.getF away).trans event,
    (told.getF away).trans idle⟩

theorem copyFails_reported (s : State) (err : Nat) : Reported [CPY_STAT, CPY_CNT] { s with copier := none } (copyFails s err) :=
  ((((Reported.refl _ _).setF (f := CPY_STAT_BUSY) (by decide) 0).setF (f := CPY_STAT_ERR) (by decide) err).countF
    (f := CPY_CNT_ERRS) (by decide) 1).raiseEvent (n := 63) (f := CPY_STAT_ERREV) rfl (by decide)

theorem copyFails_dram (s : State) (err : Nat) : (copyFails s err).dram = s.dram :=
  (copyFails_reported s err).view (·.dram) fun _ _ _ _ _ => rfl

/-- A field of CPY_STAT apart from ERREV as the end with an error leaves it. -/
theorem copyFails_status (s : State) (err : Nat) {f : Fld} (own : f.addr = CPY_STAT) (fits : f.fits)
    (apart : CPY_STAT_ERREV.apart f) :
    getF (copyFails s err) f = getF (setF (setF { s with copier := none } CPY_STAT_BUSY 0) CPY_STAT_ERR err) f :=
  (getF_raiseEvent_ne _ rfl (by decide) fits apart).trans (getF_countF_ne _ _ _ 1 (by decide) fits (.inl (by rw [own]; decide)))

theorem copyFails_failed (s : State) {err : Nat} (code : err < 16) : CopyFailed (copyFails s err) err := by
  refine ⟨(copyFails_reported s err).copier, ?_, getF_raiseEvent_same _ rfl rfl (by decide), ?_⟩
  · rw [copyFails_status s err rfl (by decide) (by decide), getF_setF_same _ _ _ (by decide)]
    exact Nat.mod_eq_of_lt code
  · rw [copyFails_status s err rfl (by decide) (by decide), getF_setF_ne _ _ _ _ (by decide) (by decide) (by decide),
      getF_setF_same _ _ _ (by decide)]
    rfl

theorem copyFails_rowsDone (s : State) (err : Nat) : getF (copyFails s err) CPY_STAT_ROWSDONE = getF s CPY_STAT_ROWSDONE := by
  rw [copyFails_status s err rfl (by decide) (by decide), getF_setF_ne _ _ _ _ (by decide) (by decide) (by decide),
    getF_setF_ne _ _ _ _ (by decide) (by decide) (by decide), getF_with_copier]

/-! ### Writes of CPY_CTL -/

/-- A write of CPY_CTL stores its fields itself; reserved bits are counted. -/
theorem cpyCtl_runs {s : State} (on : scanOn s = true) (src : Src) (w : Word) :
    ∃ x t, Reported [HS_RSVWR] s x ∧ rowWrite s src CPY_CTL w = .next t ∧ Reported [HS_RSVWR] (copyCtlWrite x w) t := by
  have write : regWrite s src CPY_CTL w = countOnce s (copyCtlWrite (countIf s (strayBits copierRegs[0] w)) w) := rfl
  exact ⟨_, _, (Reported.refl _ s).countIf (by decide) _, (rowWrite_scan on rfl rfl).trans (congrArg _ write),
    countOnce_reported _ _⟩

/-- A field that shares no bit with the one set to ones reads as before. -/
theorem bitsOf_withOnes_apart (w : Word) {f : Fld} {hi lo : Nat} (apart : fieldMask f.hi f.lo &&& fieldMask hi lo = 0) :
    bitsOf (withOnes w f) hi lo = bitsOf w hi lo := by
  rw [bitsOf, withOnes, BitVec.and_or_distrib_right, apart]
  simp [bitsOf]

/-- A bit set to one reads one. -/
theorem bitsOf_withOnes_bit (w : Word) {f : Fld} (bit : f.hi = f.lo) (small : f.lo < 32) :
    bitsOf (withOnes w f) f.lo f.lo = 1 := by
  rw [bitsOf_bit _ small, withOnes, BitVec.getLsbD_or, fieldMask_getLsbD _ _ _ bit.ge (bit ▸ small), bit]
  simp

theorem withOnes_getLsbD_ne (w : Word) {f : Fld} (bit : f.hi = f.lo) (small : f.lo < 32) {i : Nat} (other : i ≠ f.lo) :
    (withOnes w f).getLsbD i = w.getLsbD i := by
  rw [withOnes, BitVec.getLsbD_or, fieldMask_getLsbD _ _ _ bit.ge (bit ▸ small)]
  have outside : ¬ (f.lo ≤ i ∧ i ≤ f.hi) := by omega
  simp [← Bool.decide_and, outside]

/-- A single-bit field that took a bit of a word is set as that bit is. -/
theorem bitsOf_flag (w : Word) {i : Nat} (small : i < 32) : (bitsOf w i i % 2 != 0) = w.getLsbD i := by
  rw [bitsOf_bit w small]
  cases w.getLsbD i <;> rfl

theorem bitsOf_clear (w : Word) {i : Nat} (small : i < 32) (clear : w.getLsbD i = false) : bitsOf w i i = 0 := by
  rw [bitsOf_bit w small, clear]
  rfl

/-- CNTCLR comes before all else that a write of CPY_CTL does (R296). -/
def copyCntCleared (s : State) (w : Word) : State := if bitsOf w 31 31 = 1 then setRegWord s CPY_CNT 0 else s

theorem copyCntCleared_reported (s : State) (w : Word) : Reported [CPY_CNT] s (copyCntCleared s w) := by
  unfold copyCntCleared
  split
  · exact (Reported.refl _ s).setRegWord (by decide) 0
  · exact .refl _ s

/-! While an operation runs a write of CPY_CTL can count, clear the counts and abort (R282, R294, R296). -/

theorem copyCtlWrite_busy {s : State} {o : CopyOp} (busy : s.copier = some o) (w : Word) :
    ∃ x, Reported [CPY_CNT] s x ∧ copyCtlWrite s w = if bitsOf w 1 1 = 1 then copyAbort x else x := by
  have cleared := copyCntCleared_reported s w
  have runs : copyBusy (copyCntCleared s w) = true := by
    rw [copyBusy, cleared.copier, busy]
    rfl
  unfold copyCtlWrite
  refine ⟨_, ?_, if_pos runs⟩
  split
  · exact cleared.countF (f := CPY_CNT_BUSYWR) (by decide) 1
  · exact cleared

/-- GO with neither ABORT nor CNTCLR only counts while an operation runs. -/
theorem copyCtlWrite_counts {s : State} {o : CopyOp} (busy : s.copier = some o) {w : Word} (go : bitsOf w 0 0 = 1)
    (noAbort : bitsOf w 1 1 = 0) (noClear : bitsOf w 31 31 = 0) : copyCtlWrite s w = countBusyWrite s := by
  simp [copyCtlWrite, copyBusy, busy, go, noAbort, noClear]

theorem rowReleased_reported {as : List Nat} {s t : State} (told : Reported as s t) (away : SC_BEAMFMT ∉ as) (o : CopyOp) :
    rowReleased t o = rowReleased s o := by
  have beam : t.beam = s.beam := told.view (·.beam) fun _ _ _ _ _ => rfl
  have fracs : frameFracs t = frameFracs s := by
    unfold frameFracs frameLines activeLines blankLines
    rw [told.getF (f := SC_BEAMFMT_ACTIVE) away, told.getF (f := SC_BEAMFMT_BLANK) away]
  unfold rowReleased beamReached fracsTo releaseFracs beamFracs
  rw [beam, fracs]

/-- ABORT does nothing once every segment is written (R295). -/
theorem copyAbort_last {s : State} {o : CopyOp} (busy : s.copier = some o) (last : o.segments ≤ o.g ∧ o.h ≤ o.k + 1) :
    copyAbort s = s := by
  simp [copyAbort, busy, last]

/-- Before that, an operation at work is marked (R294). -/
theorem copyAbort_marks {s : State} {o : CopyOp} (busy : s.copier = some o) (more : ¬ (o.segments ≤ o.g ∧ o.h ≤ o.k + 1))
    (released : rowReleased s o = true) : copyAbort s = { s with copier := some { o with abort := true } } := by
  simp [copyAbort, busy, more, released]

/-- One whose row waits for the beam ends at once (R294; log entry 17). -/
theorem copyAbort_ends {s : State} {o : CopyOp} (busy : s.copier = some o) (more : ¬ (o.segments ≤ o.g ∧ o.h ≤ o.k + 1))
    (waits : rowReleased s o = false) : copyAbort s = copyFails s 7 := by
  simp [copyAbort, busy, more, waits]

/-! While the copier is idle a write of CPY_CTL stores the operand fields, and GO without ABORT starts (R282, R284, R296). -/

/-- CPY_CTL and CPY_CNT as a write leaves them while the copier is idle. -/
def copyCtlStored (s : State) (w : Word) : State :=
  let directed :=
    setF (setF (setF (copyCntCleared s w) CPY_CTL_PACE (bitsOf w 11 11)) CPY_CTL_YDIR (bitsOf w 10 10)) CPY_CTL_XDIR
      (bitsOf w 9 9)
  setF (setF directed CPY_CTL_BPP (bitsOf w 8 7)) CPY_CTL_OP (bitsOf w 6 4)

theorem copyCtlStored_reported (s : State) (w : Word) : Reported [CPY_CTL, CPY_CNT] s (copyCtlStored s w) := by
  have cleared : Reported [CPY_CTL, CPY_CNT] s (copyCntCleared s w) := (copyCntCleared_reported s w).mono (by simp)
  exact ((((cleared.setF (by decide) _).setF (by decide) _).setF (by decide) _).setF (by decide) _).setF (by decide) _

theorem copyCtlWrite_idle {s : State} (idle : s.copier = none) (w : Word) :
    copyCtlWrite s w =
      if bitsOf w 0 0 = 1 ∧ bitsOf w 1 1 ≠ 1 then copyStart (copyCtlStored s w) else copyCtlStored s w := by
  have calm : ¬ copyBusy (copyCntCleared s w) = true := by
    rw [copyBusy, (copyCntCleared_reported s w).copier, idle]
    decide
  unfold copyCtlWrite
  refine (if_neg calm).trans (if_congr ?_ rfl rfl)
  simp

/-- The operands that a write of CPY_CTL gives GO: its own fields, and the other registers as they stand (R282, R297). -/
def copyWanted (s : State) (w : Word) : CopyOp :=
  { copyOperands s with op := bitsOf w 6 4, bpp := bitsOf w 8 7, xdir := w.getLsbD 9, ydir := w.getLsbD 10, pace := w.getLsbD 11 }

theorem copyOperands_reported {as : List Nat} {s t : State} (told : Reported as s t)
    (away : ∀ a ∈ as, a = CPY_CTL ∨ a < CPY_CTL ∨ CPY_WMARK < a) :
    copyOperands t = { copyOperands s with op := getF t CPY_CTL_OP, bpp := getF t CPY_CTL_BPP, xdir := flag t CPY_CTL_XDIR,
                                           ydir := flag t CPY_CTL_YDIR, pace := flag t CPY_CTL_PACE } := by
  have kept : ∀ f : Fld, CPY_CTL < f.addr → f.addr ≤ CPY_WMARK → getF t f = getF s f := fun f low high =>
    told.getF fun own => by have := away _ own; omega
  have beam : t.beam = s.beam := told.view (·.beam) fun _ _ _ _ _ => rfl
  unfold copyOperands
  rw [beam, kept CPY_SRCBASE_BASE, kept CPY_SRCPITCH_PITCH, kept CPY_DSTBASE_BASE, kept CPY_DSTPITCH_PITCH, kept CPY_SRCXY_X,
    kept CPY_SRCXY_Y, kept CPY_DSTXY_X, kept CPY_DSTXY_Y, kept CPY_SIZE_WM1, kept CPY_SIZE_HM1, kept CPY_FILL_VALUE,
    kept CPY_KEY_KEY, kept CPY_KEYMASK_MASK, kept CPY_PACE0_LINE0, kept CPY_PACE1_STEP, kept CPY_WMARK_ROW] <;> decide

theorem copyOperands_stored (s : State) (w : Word) : copyOperands (copyCtlStored s w) = copyWanted s w := by
  have op : getF (copyCtlStored s w) CPY_CTL_OP = bitsOf w 6 4 :=
    (getF_setF_same _ _ _ (by decide)).trans (Nat.mod_eq_of_lt (bitsOf_lt w 6 4 (by decide) (by decide)))
  have bpp : getF (copyCtlStored s w) CPY_CTL_BPP = bitsOf w 8 7 := by
    simp (disch := decide) only [copyCtlStored, getF_setF_ne, getF_setF_same]
    exact Nat.mod_eq_of_lt (bitsOf_lt w 8 7 (by decide) (by decide))
  have xdir : flag (copyCtlStored s w) CPY_CTL_XDIR = w.getLsbD 9 := by
    simp (disch := decide) only [flag, copyCtlStored, getF_setF_ne, getF_setF_same]
    exact bitsOf_flag w (by decide)
  have ydir : flag (copyCtlStored s w) CPY_CTL_YDIR = w.getLsbD 10 := by
    simp (disch := decide) only [flag, copyCtlStored, getF_setF_ne, getF_setF_same]
    exact bitsOf_flag w (by decide)
  have pace : flag (copyCtlStored s w) CPY_CTL_PACE = w.getLsbD 11 := by
    simp (disch := decide) only [flag, copyCtlStored, getF_setF_ne, getF_setF_same]
    exact bitsOf_flag w (by decide)
  rw [copyOperands_reported (copyCtlStored_reported s w) (by decide), op, bpp, xdir, ydir, pace, copyWanted]

theorem copyWanted_reported {as : List Nat} {s t : State} (told : Reported as s t)
    (away : ∀ a ∈ as, a = CPY_CTL ∨ a < CPY_CTL ∨ CPY_WMARK < a) (w : Word) : copyWanted t w = copyWanted s w := by
  rw [copyWanted, copyOperands_reported told away, copyWanted]

/-- The checks read the state of the beam and the operands alone. -/
theorem copyError_reported {as : List Nat} {s t : State} (told : Reported as s t) (away : SC_BEAMSTAT ∉ as) (o : CopyOp) :
    copyError t o = copyError s o := by
  have runs : beamRuns t = beamRuns s := by
    unfold beamRuns beamState
    rw [told.getF (f := SC_BEAMSTAT_STATE) away]
  unfold copyError
  rw [runs]

theorem copyError_code (s : State) (o : CopyOp) : copyError s o < 16 := by
  unfold copyError
  dsimp only
  split_ifs <;> decide

/-! ### GO -/

/-- CPY_STAT as GO leaves it before the checks are told (R284). -/
def copyStatCleared (s : State) : State := setF (setF s CPY_STAT_ROWSDONE 0) CPY_STAT_ERR 0

theorem copyStatCleared_reported (s : State) : Reported [CPY_STAT] s (copyStatCleared s) :=
  ((Reported.refl _ s).setF (by decide) 0).setF (by decide) 0

theorem copyStart_starts {s : State} (passes : copyError s (copyOperands s) = 0) :
    (copyStart s).copier = some (copyOperands s) ∧ getF (copyStart s) CPY_STAT_BUSY = 1 ∧ getF (copyStart s) CPY_STAT_ERR = 0 ∧
      getF (copyStart s) CPY_STAT_ROWSDONE = 0 := by
  have starts : copyStart s = setF { copyStatCleared s with copier := some (copyOperands s) } CPY_STAT_BUSY 1 := by
    have checked := (copyError_reported (copyStatCleared_reported s) (by decide) (copyOperands s)).trans passes
    exact if_neg fun fails => bne_iff_ne.mp fails checked
  rw [starts]
  refine ⟨rfl, getF_setF_same _ _ _ (by decide), ?_, ?_⟩
  · rw [getF_setF_ne _ _ _ _ (by decide) (by decide) (by decide), getF_with_copier]
    exact getF_setF_same _ _ _ (by decide)
  · rw [getF_setF_ne _ _ _ _ (by decide) (by decide) (by decide), getF_with_copier, copyStatCleared,
      getF_setF_ne _ _ _ _ (by decide) (by decide) (by decide)]
    exact getF_setF_same _ _ _ (by decide)

theorem copyStart_fails {s : State} (fails : copyError s (copyOperands s) ≠ 0) :
    CopyFailed (copyStart s) (copyError s (copyOperands s)) := by
  have checked := copyError_reported (copyStatCleared_reported s) (by decide) (copyOperands s)
  have refused : copyStart s = copyFails (copyStatCleared s) (copyError (copyStatCleared s) (copyOperands s)) :=
    if_pos (bne_iff_ne.mpr (checked ▸ fails))
  rw [refused, checked]
  exact copyFails_failed _ (copyError_code s _)

section
variable {s : State} {val : Word} (on : scanOn s = true) (src : Src)
include on

/-- GO on an idle copier starts with the operands that the write gives it. -/
theorem copyGo_idle (idle : s.copier = none) (noAbort : val.getLsbD 1 = false) :
    ∃ u t, copyOperands u = copyWanted s val ∧ copyError u (copyWanted s val) = copyError s (copyWanted s val) ∧
      exec (.copyGo src val) s = .next t ∧ Reported [HS_RSVWR] (copyStart u) t := by
  let w := withOnes val CPY_CTL_GO
  obtain ⟨x, t, counted, run, told⟩ := cpyCtl_runs on src w
  have free : x.copier = none := counted.copier.trans idle
  have go : bitsOf w 0 0 = 1 := bitsOf_withOnes_bit val (f := CPY_CTL_GO) rfl (by decide)
  have abort : bitsOf w 1 1 = 0 :=
    (bitsOf_withOnes_apart val (by decide)).trans (bitsOf_clear val (by decide) noAbort)
  have bit : ∀ i, i ≠ 0 → w.getLsbD i = val.getLsbD i := fun i other =>
    withOnes_getLsbD_ne val (f := CPY_CTL_GO) rfl (by decide) other
  have wanted : copyWanted s w = copyWanted s val := by
    unfold copyWanted
    rw [bitsOf_withOnes_apart val (by decide), bitsOf_withOnes_apart val (by decide), bit 9 (by decide), bit 10 (by decide),
      bit 11 (by decide)]
  rw [copyCtlWrite_idle free, if_pos ⟨go, by rw [abort]; decide⟩] at told
  refine ⟨copyCtlStored x w, t, ?_, ?_, run, told⟩
  · rw [copyOperands_stored, copyWanted_reported counted (by decide), wanted]
  · rw [copyError_reported (copyCtlStored_reported x w) (by decide), copyError_reported counted (by decide)]

theorem copyGo_starts (idle : s.copier = none) (noAbort : val.getLsbD 1 = false) (passes : copyError s (copyWanted s val) = 0) :
    Answers (.copyGo src val) s fun t => t.copier = some (copyWanted s val) ∧ getF t CPY_STAT_BUSY = 1 ∧
      getF t CPY_STAT_ERR = 0 ∧ getF t CPY_STAT_ROWSDONE = 0 := by
  obtain ⟨u, t, operands, checks, run, told⟩ := copyGo_idle on src idle noAbort
  obtain ⟨copier, busy, err, rows⟩ := copyStart_starts (s := u) (by rw [operands, checks, passes])
  exact ⟨t, run, told.copier.trans (operands ▸ copier), (told.getF (by decide)).trans busy,
    (told.getF (by decide)).trans err, (told.getF (by decide)).trans rows⟩

theorem copyGo_refused (idle : s.copier = none) (noAbort : val.getLsbD 1 = false) (fails : copyError s (copyWanted s val) ≠ 0) :
    Answers (.copyGo src val) s fun t => CopyFailed t (copyError s (copyWanted s val)) := by
  obtain ⟨u, t, operands, checks, run, told⟩ := copyGo_idle on src idle noAbort
  have failed := copyStart_fails (s := u) (by rwa [operands, checks])
  rw [operands, checks] at failed
  exact ⟨t, run, failed.reported told (by decide)⟩

theorem copyGo_counts {o : CopyOp} (busy : s.copier = some o) (noAbort : val.getLsbD 1 = false)
    (noClear : val.getLsbD 31 = false) :
    Answers (.copyGo src val) s fun t => t.copier = some o ∧ getF t CPY_CNT_BUSYWR = min 255 (getF s CPY_CNT_BUSYWR + 1) ∧
      regWord t CPY_STAT = regWord s CPY_STAT := by
  obtain ⟨x, t, counted, run, told⟩ := cpyCtl_runs on src (withOnes val CPY_CTL_GO)
  have runs : x.copier = some o := counted.copier.trans busy
  rw [copyCtlWrite_counts runs (bitsOf_withOnes_bit val (f := CPY_CTL_GO) rfl (by decide))
    ((bitsOf_withOnes_apart val (by decide)).trans (bitsOf_clear val (by decide) noAbort))
    ((bitsOf_withOnes_apart val (by decide)).trans (bitsOf_clear val (by decide) noClear))] at told
  refine ⟨t, run, told.copier.trans runs, ?_, ?_⟩
  · rw [told.getF (by decide), countBusyWrite, getF_countF_same _ _ _ (by decide), counted.getF (by decide), Nat.min_comm]
    rfl
  · rw [told.regs _ (by decide), countBusyWrite, countF, regWord_setF_ne _ _ _ _ (by decide), counted.regs _ (by decide)]

/-! ### ABORT -/

theorem copyAbort_idle (idle : s.copier = none) :
    Answers (.copyAbort src val) s fun t => t.copier = none ∧ regWord t CPY_STAT = regWord s CPY_STAT := by
  obtain ⟨x, t, counted, run, told⟩ := cpyCtl_runs on src (withOnes val CPY_CTL_ABORT)
  have free : x.copier = none := counted.copier.trans idle
  have abort := bitsOf_withOnes_bit val (f := CPY_CTL_ABORT) rfl (by decide)
  rw [copyCtlWrite_idle free, if_neg fun starts => starts.2 abort] at told
  have stored := copyCtlStored_reported x (withOnes val CPY_CTL_ABORT)
  refine ⟨t, run, ?_, ?_⟩
  · exact told.copier.trans (stored.copier.trans free)
  · rw [told.regs _ (by decide), stored.regs _ (by decide), counted.regs _ (by decide)]

/-- ABORT acts on an operation as it stands. -/
theorem copyAbort_acts {o : CopyOp} (busy : s.copier = some o) :
    ∃ x t, Reported [CPY_CNT, HS_RSVWR] s x ∧ x.copier = some o ∧ rowReleased x o = rowReleased s o ∧
      exec (.copyAbort src val) s = .next t ∧ Reported [HS_RSVWR] (copyAbort x) t := by
  obtain ⟨y, t, counted, run, told⟩ := cpyCtl_runs on src (withOnes val CPY_CTL_ABORT)
  obtain ⟨x, cleared, acts⟩ := copyCtlWrite_busy (counted.copier.trans busy)
    (withOnes val CPY_CTL_ABORT)
  have abort : bitsOf (withOnes val CPY_CTL_ABORT) 1 1 = 1 := bitsOf_withOnes_bit val (f := CPY_CTL_ABORT) rfl (by decide)
  rw [acts, if_pos abort] at told
  have stands : Reported [CPY_CNT, HS_RSVWR] s x := (counted.mono (by simp)).trans (cleared.mono (by simp))
  exact ⟨x, t, stands, stands.copier.trans busy, rowReleased_reported stands (by decide) o, run,
    told⟩

/-- Once every segment is written, ABORT leaves the operation to complete (R295). -/
theorem copyAbort_keeps {o : CopyOp} (busy : s.copier = some o) (last : o.segments ≤ o.g ∧ o.h ≤ o.k + 1) :
    Answers (.copyAbort src val) s fun t => t.copier = some o ∧ regWord t CPY_STAT = regWord s CPY_STAT := by
  obtain ⟨x, t, stands, runs, -, run, told⟩ := copyAbort_acts (val := val) on src busy
  rw [copyAbort_last runs last] at told
  exact ⟨t, run, told.copier.trans runs,
    (told.regs _ (by decide)).trans (stands.regs _ (by decide))⟩

/-- Before that it marks an operation at work, which ends with its segment (R294). -/
theorem copyAbort_asks {o : CopyOp} (busy : s.copier = some o) (more : ¬ (o.segments ≤ o.g ∧ o.h ≤ o.k + 1))
    (released : rowReleased s o = true) : Answers (.copyAbort src val) s fun t => t.copier = some { o with abort := true } := by
  obtain ⟨x, t, -, runs, rows, run, told⟩ := copyAbort_acts (val := val) on src busy
  rw [copyAbort_marks runs more (rows.trans released)] at told
  exact ⟨t, run, told.copier⟩

/-- An operation whose row waits for the beam it ends at once (R294; log entry 17). -/
theorem copyAbort_fails {o : CopyOp} (busy : s.copier = some o) (more : ¬ (o.segments ≤ o.g ∧ o.h ≤ o.k + 1))
    (waits : rowReleased s o = false) : Answers (.copyAbort src val) s fun t => CopyFailed t 7 := by
  obtain ⟨x, t, -, runs, rows, run, told⟩ := copyAbort_acts (val := val) on src busy
  rw [copyAbort_ends runs more (rows.trans waits)] at told
  exact ⟨t, run, (copyFails_failed x (by decide)).reported told (by decide)⟩

end

end Sys2Proof.Machine
end

section
/-! SUPPORT. The rows and segments of the block copier, and what an obligation says of it (R282 to R286, R290, R291, R294 to
R296). -/

namespace Sys2Proof.Machine

/-! ### A segment as one write -/

/-- Pixels that are all written make one run (R286). -/
theorem writeRuns_whole {len : Nat} {keep : List Byte → Bool} {ps : List (List Byte)} (all : ∀ p ∈ ps, keep p = true) (i : Nat) :
    writeRuns len keep i ps = if ps = [] then [] else [(i * len, ps.flatten)] := by
  induction ps generalizing i with
  | nil => rfl
  | cons p ps ih =>
    obtain ⟨kept, rest⟩ := List.forall_mem_cons.mp all
    rw [writeRuns]
    rw [ih rest]
    cases ps <;> simp [kept]

theorem length_flatten_uniform {ps : List (List Byte)} {n : Nat} (uniform : ∀ p ∈ ps, p.length = n) :
    ps.flatten.length = ps.length * n := by
  rw [List.length_flatten, List.sum_eq_card_nsmul (ps.map List.length) n (by simpa using uniform), List.length_map, smul_eq_mul]

/-- Byte `j` of element `i` of lists of one length, put end to end. -/
theorem getD_flatten_uniform {ps : List (List Byte)} {n i j : Nat} (uniform : ∀ p ∈ ps, p.length = n) (hi : i < ps.length)
    (hj : j < n) : ps.flatten.getD (i * n + j) 0 = (ps.getD i []).getD j 0 := by
  induction ps generalizing i with
  | nil => exact absurd hi (Nat.not_lt_zero _)
  | cons p ps ih =>
    obtain ⟨head, tail⟩ := List.forall_mem_cons.mp uniform
    rw [List.flatten_cons]
    cases i with
    | zero =>
      rw [List.getD_append _ _ _ _ (by omega)]
      simp
    | succ i =>
      have place : (i + 1) * n + j = p.length + (i * n + j) := by rw [head]; ring
      rw [place, List.getD_append_right _ _ _ _ (Nat.le_add_right _ _), Nat.add_sub_cancel_left,
        ih tail (Nat.lt_of_succ_lt_succ hi), List.getD_cons_succ]

/-- Elements of one length, stored end to end, read back one by one. -/
theorem DramStores.dramBytes_element {s t : State} {a n i : Nat} {ps : List (List Byte)}
    (h : DramStores s.dram t.dram a ps.flatten) (uniform : ∀ p ∈ ps, p.length = n) (below : a + ps.length * n ≤ 0xF8000000)
    (good : ∀ u ∈ unitsOf a (ps.length * n), unitState s u = .good) (hi : i < ps.length) :
    dramBytes t (a + i * n) n = ps.getD i [] := by
  have length := length_flatten_uniform uniform
  have element : (ps.getD i []).length = n := by
    rw [List.getD_eq_getElem _ _ hi]
    exact uniform _ (List.getElem_mem hi)
  refine List.ext_getElem (by rw [element, dramBytes, List.length_map, List.length_range]) fun j hj hj' => ?_
  have small : j < n := by rwa [element] at hj'
  have within : i * n + j < ps.length * n := by
    calc i * n + j < (i + 1) * n := by rw [Nat.add_mul, Nat.one_mul]; omega
      _ ≤ ps.length * n := Nat.mul_le_mul_right n hi
  have byte := h.dramByte_inside (i := i * n + j) (by omega) (by omega)
    (good _ (unitsOf_covers (Nat.le_add_right _ _) (by omega)))
  rw [getD_flatten_uniform uniform hi small, List.getD_eq_getElem _ _ hj', ← Nat.add_assoc] at byte
  simpa [dramBytes] using byte

theorem CopyOp.pixels_length {s : State} {o : CopyOp} {lo n : Nat} : ∀ p ∈ o.pixels s lo n, p.length = o.bytes := by
  intro p hp
  obtain ⟨i, -, rfl⟩ := List.mem_map.mp hp
  split <;> simp [dramBytes, leBytes]

theorem CopyOp.pixels_count (s : State) (o : CopyOp) (lo n : Nat) : (o.pixels s lo n).length = n := by simp [CopyOp.pixels]

/-- Pixel `i` of a segment: the source's, or the fill value's (R285, R286). -/
theorem CopyOp.pixels_getD (s : State) (o : CopyOp) {lo n i : Nat} (hi : i < n) : (o.pixels s lo n).getD i [] =
    if o.reads then dramBytes s (o.addr false o.row lo + i * o.bytes) o.bytes else leBytes o.bytes o.fill := by
  have place : o.addr false o.row (lo + i) = o.addr false o.row lo + i * o.bytes := by
    simp only [CopyOp.addr, Bool.false_eq_true, if_false]
    ring
  rw [List.getD_eq_getElem _ _ (by rwa [CopyOp.pixels_count])]
  simp [CopyOp.pixels, place]

/-- Without a key a segment is one write (R285, R286). -/
theorem copyWrites_stores {s v : State} {o : CopyOp} {lo n : Nat} (same : v.dram = s.dram) (base : egressBase v = egressBase s)
    (keyless : o.op ≠ 2) (free : egressBase s = 0) (below : o.addr true o.row lo + n * o.bytes ≤ 0xF8000000)
    (good : ∀ u ∈ unitsOf (o.addr true o.row lo) (n * o.bytes), unitState s u = .good) :
    DramStores s.dram (copyWrites v o lo n).dram (o.addr true o.row lo) (o.pixels s lo n).flatten := by
  have bytes : ∀ a len, dramBytes v a len = dramBytes s a len := fun a len => by
    unfold dramBytes dramByte unitState
    rw [same]
  have pixels : o.pixels v lo n = o.pixels s lo n := by
    unfold CopyOp.pixels
    simp only [bytes]
  have length : (o.pixels s lo n).flatten.length = n * o.bytes := by
    rw [length_flatten_uniform CopyOp.pixels_length, CopyOp.pixels_count]
  have whole := writeRuns_whole (len := o.bytes) (keep := o.keeps) (ps := o.pixels s lo n)
    (fun p _ => by simp [CopyOp.keeps, keyless]) 0
  unfold copyWrites
  dsimp only
  rw [pixels, whole]
  split
  · next none' =>
    rw [none', ← same]
    exact .nil _ _
  · rw [List.foldl_cons, List.foldl_nil, Nat.zero_mul, Nat.add_zero, ← same]
    refine dramWrite_stores (by rw [length]; exact below) (base.trans free) (fun u hu => ?_) _ _
    rw [length] at hu
    rw [unitState, same]
    exact good u hu

/-- After its segment an aborted operation ends, unless its row is complete (R290, R294). -/
theorem copyAfterSegment_eq (s : State) (o : CopyOp) : copyAfterSegment s o =
    if o.abort ∧ o.g + 1 ≠ o.segments then copyFails s 7 else { s with copier := some { o with g := o.g + 1 } } := by
  have ends : (o.abort && o.g + 1 != o.segments) = true ↔ o.abort ∧ o.g + 1 ≠ o.segments := by simp
  exact if_congr ends rfl rfl

theorem copyAfterSegment_shows (s : State) (o : CopyOp) :
    if o.abort ∧ o.g + 1 ≠ o.segments then CopyFailed (copyAfterSegment s o) 7
    else (copyAfterSegment s o).copier = some { o with g := o.g + 1 } := by
  rw [copyAfterSegment_eq]
  by_cases ends : o.abort ∧ o.g + 1 ≠ o.segments
  · rw [if_pos ends, if_pos ends]
    exact copyFails_failed s (by decide)
  · rw [if_neg ends, if_neg ends]

theorem copyAfterSegment_dram (s : State) (o : CopyOp) : (copyAfterSegment s o).dram = s.dram := by
  rw [copyAfterSegment_eq]
  split
  · exact copyFails_dram s 7
  · rfl

/-! ### The source of a segment -/

theorem perfCount_regWord (s : State) (event n : Nat) {k : Nat} (other : ∀ i < 4, k ≠ SC_PERFSEL i) :
    regWord (perfCount s event n) k = regWord s k := by
  refine List.foldlRecOn (motive := fun t => regWord t k = regWord s k) _ _ rfl fun t same i hi => ?_
  unfold perfAdd
  split
  · dsimp only
    split
    · exact (regWord_setF_ne t _ 1 k (other i (List.mem_range.mp hi))).trans same
    · exact same
  · exact same

/-- A read of a good unit only counts. -/
theorem touchUnit_counts {s : State} {u : Nat} (good : unitState s u = .good) (req : Nat) :
    touchUnit s u req = if unitClosed u then s else perfCount s 0x01 1 := by
  have still : unitState (perfCount s 0x01 1) u = .good := by
    rw [unitState, ((LeavesScene.refl s).perfCount 0x01 1).dram]
    exact good
  have fine : unitBad (perfCount s 0x01 1) u = false := by simp [unitBad, still]
  unfold touchUnit
  simp only [still, fine, Bool.false_eq_true, if_false]

/-- A read of good units leaves DRAM and the protected copy as they are. -/
theorem touchUnits_good {s : State} {us : List Nat} (good : ∀ u ∈ us, unitState s u = .good) (req : Nat) :
    (touchUnits s us req).dram = s.dram ∧ egressBase (touchUnits s us req) = egressBase s := by
  induction us generalizing s with
  | nil => exact ⟨rfl, rfl⟩
  | cons u us ih =>
    obtain ⟨head, tail⟩ := List.forall_mem_cons.mp good
    have dram := (touchUnit_good head req).dram
    have base : egressBase (touchUnit s u req) = egressBase s := by
      rw [touchUnit_counts head]
      split
      · rfl
      · exact congrArg (· * 0x100000) (getF_congr (perfCount_regWord s 0x01 1 (by decide)))
    obtain ⟨dram', base'⟩ := ih (s := touchUnit s u req) fun v hv => by
      rw [unitState, dram]
      exact tail v hv
    exact ⟨dram'.trans dram, base'.trans base⟩

section
variable {s : State} {o : CopyOp} (busy : s.copier = some o) (released : rowReleased s o = true) (more : o.g < o.segments)
  (room : sorterFull s (o.addr true o.row o.segment.1) (o.segment.2 * o.bytes) = false)
include busy released more room

/-- Where no source unit fails, the segment is written, and the operation goes on or ends (R286, R294). -/
theorem copySegment_writes
    (good : o.reads = true → ∀ u ∈ unitsOf (o.addr false o.row o.segment.1) (o.segment.2 * o.bytes), unitState s u = .good) :
    ∃ v, v.dram = s.dram ∧ egressBase v = egressBase s ∧ copySegment s =
      copyAfterSegment (copyWrites v { o with released := true } o.segment.1 o.segment.2) { o with released := true } := by
  unfold copySegment
  rw [busy]
  dsimp only
  rw [if_neg (by simp [released, more]), room, if_neg Bool.false_ne_true]
  by_cases reads : o.reads = true
  · have fine : (unitsOf (o.addr false o.row o.segment.1) (o.segment.2 * o.bytes)).find? (unitBad s) = none :=
      List.find?_eq_none.mpr fun u hu => by simp [unitBad, good reads u hu]
    obtain ⟨dram, base⟩ := touchUnits_good (good reads) 0x40
    rw [if_neg (by simpa [CopyOp.reads] using reads), fine]
    exact ⟨_, dram, base, rfl⟩
  · rw [if_pos (by simpa [CopyOp.reads] using reads)]
    exact ⟨s, rfl, rfl, rfl⟩

/-- A source unit that cannot be read ends the operation before the segment is written (R286, R294). -/
theorem copySegment_unreadable (reads : o.reads = true)
    (bad : (unitsOf (o.addr false o.row o.segment.1) (o.segment.2 * o.bytes)).any (unitBad s) = true) :
    CopyFailed (copySegment s) 6 := by
  obtain ⟨u, found⟩ := Option.isSome_iff_exists.mp (List.find?_isSome.mpr (List.any_eq_true.mp bad))
  have failed : ∀ v p, CopyFailed (recordScan (copyFails v 6) .warn 0x3003 p 2 0 0) 6 := fun v p =>
    (copyFails_failed v (by decide)).reported ((Reported.refl [] _).recordScan _ _ _ _ _ _) (by decide)
  unfold copySegment
  rw [busy]
  dsimp only
  rw [if_neg (by simp [released, more]), room, if_neg Bool.false_ne_true, if_neg (by simpa [CopyOp.reads] using reads), found]
  exact failed _ _

/-- A segment over good units is copied or filled whole, and nothing else is written (R285, R286, R294). -/
theorem copySegment_copies (keyless : o.op ≠ 2) (free : egressBase s = 0)
    (below : o.addr true o.row o.segment.1 + o.segment.2 * o.bytes ≤ 0xF8000000)
    (dests : ∀ u ∈ unitsOf (o.addr true o.row o.segment.1) (o.segment.2 * o.bytes), unitState s u = .good)
    (sources : o.reads = true → ∀ u ∈ unitsOf (o.addr false o.row o.segment.1) (o.segment.2 * o.bytes), unitState s u = .good) :
    let t := copySegment s
    (∀ i < o.segment.2, dramBytes t (o.addr true o.row o.segment.1 + i * o.bytes) o.bytes =
      if o.reads then dramBytes s (o.addr false o.row o.segment.1 + i * o.bytes) o.bytes else leBytes o.bytes o.fill) ∧
    (∀ b, b < o.addr true o.row o.segment.1 ∨ o.addr true o.row o.segment.1 + o.segment.2 * o.bytes ≤ b →
      dramByte t b = dramByte s b) ∧
    if o.abort ∧ o.g + 1 ≠ o.segments then CopyFailed t 7
    else t.copier = some { o with released := true, g := o.g + 1 } := by
  obtain ⟨v, dram, base, run⟩ := copySegment_writes busy released more room sources
  have count := CopyOp.pixels_count s o o.segment.1 o.segment.2
  have length : (o.pixels s o.segment.1 o.segment.2).flatten.length = o.segment.2 * o.bytes := by
    rw [length_flatten_uniform CopyOp.pixels_length, count]
  have stores : DramStores s.dram (copySegment s).dram (o.addr true o.row o.segment.1)
      (o.pixels s o.segment.1 o.segment.2).flatten := by
    rw [run, copyAfterSegment_dram]
    exact copyWrites_stores (o := { o with released := true }) dram base keyless free below dests
  refine ⟨fun i hi => ?_, fun b away => stores.dramByte_outside (by rwa [length]), ?_⟩
  · rw [stores.dramBytes_element CopyOp.pixels_length (by rwa [count]) (by rwa [count]) (by rwa [count]), o.pixels_getD s hi]
  · rw [run]
    exact copyAfterSegment_shows _ { o with released := true }

end

/-! ### Rows -/

/-- A paced row that is released waits for the beam no more (R291). -/
theorem copyRowRelease_releases {s : State} {o : CopyOp} (busy : s.copier = some o) (paced : o.pace = true) :
    (copyRowRelease s).copier = some { o with released := true } ∧ bitsOf (copyStatWord (copyRowRelease s)) 30 30 = 0 := by
  have run : (copyRowRelease s).copier = some { o with released := true } := by simp [copyRowRelease, busy, paced]
  refine ⟨run, ?_⟩
  rw [copyStatWord, run]
  dsimp only
  rw [bitsOf_putBits_same _ _ _ _ (by decide) (by decide)]
  simp [rowReleased, b2n]

theorem copyRowRelease_unpaced {s : State} {o : CopyOp} (busy : s.copier = some o) (free : o.pace = false) :
    copyRowRelease s = s := by simp [copyRowRelease, busy, free]

/-- A row that is done, counted, with its watermark's event (R290, R295). -/
def copyRowCounted (s : State) (o : CopyOp) : State :=
  let counted := setF s CPY_STAT_ROWSDONE (o.k + 1)
  if o.k + 1 = o.wmark then raiseEvent counted 63 CPY_STAT_WMEV else counted

theorem copyRowCounted_shows (s : State) (o : CopyOp) :
    Reported [CPY_STAT] s (copyRowCounted s o) ∧ getF (copyRowCounted s o) CPY_STAT_ROWSDONE = (o.k + 1) % 32768 := by
  have told : Reported [CPY_STAT] s (setF s CPY_STAT_ROWSDONE (o.k + 1)) := (Reported.refl _ s).setF (by decide) _
  have rows : getF (setF s CPY_STAT_ROWSDONE (o.k + 1)) CPY_STAT_ROWSDONE = (o.k + 1) % 32768 := getF_setF_same _ _ _ (by decide)
  unfold copyRowCounted
  dsimp only
  split
  · exact ⟨told.raiseEvent rfl (by decide), (getF_raiseEvent_ne _ rfl (by decide) (by decide) (by decide)).trans rows⟩
  · exact ⟨told, rows⟩

/-- The end of an operation that is done (R295). -/
def copyCompleted (s : State) : State :=
  raiseEvent (countWrapF (setF { s with copier := none } CPY_STAT_BUSY 0) CPY_CNT_OPS 1) 63 CPY_STAT_DONEEV

theorem copyCompleted_shows (s : State) :
    (copyCompleted s).copier = none ∧ getF (copyCompleted s) CPY_STAT_BUSY = 0 ∧ getF (copyCompleted s) CPY_STAT_DONEEV = 1 ∧
      getF (copyCompleted s) CPY_CNT_OPS = (getF s CPY_CNT_OPS + 1) % 65536 ∧
      getF (copyCompleted s) CPY_STAT_ROWSDONE = getF s CPY_STAT_ROWSDONE := by
  refine ⟨((Reported.refl [CPY_STAT] _).raiseEvent rfl (by decide)).copier, ?_,
    getF_raiseEvent_same _ rfl rfl (by decide), ?_, ?_⟩ <;>
  simp (disch := decide) only [copyCompleted, countWrapF, getF_raiseEvent_ne, getF_setF_ne, getF_setF_same, getF_with_copier] <;>
  rfl

theorem copyRowDone_eq {s : State} {o : CopyOp} (busy : s.copier = some o) (written : o.segments ≤ o.g) :
    copyRowDone s = if o.abort then copyFails (copyRowCounted s o) 7
      else if o.k + 1 = o.h then copyCompleted (copyRowCounted s o)
      else { copyRowCounted s o with copier := some { o with k := o.k + 1, g := 0, released := false } } := by
  unfold copyRowDone
  rw [busy]
  exact if_neg (Nat.not_lt.mpr written)

/-- The end of a row counts it; the operation then ends aborted, ends done, or goes on to its next row (R290, R294, R295). -/
theorem copyRowDone_counts {s : State} {o : CopyOp} (busy : s.copier = some o) (written : o.segments ≤ o.g) :
    getF (copyRowDone s) CPY_STAT_ROWSDONE = (o.k + 1) % 32768 ∧
      if o.abort then CopyFailed (copyRowDone s) 7
      else if o.k + 1 = o.h then
        (copyRowDone s).copier = none ∧ getF (copyRowDone s) CPY_STAT_BUSY = 0 ∧ getF (copyRowDone s) CPY_STAT_DONEEV = 1 ∧
          getF (copyRowDone s) CPY_CNT_OPS = (getF s CPY_CNT_OPS + 1) % 65536
      else (copyRowDone s).copier = some { o with k := o.k + 1, g := 0, released := false } := by
  obtain ⟨told, rows⟩ := copyRowCounted_shows s o
  rw [copyRowDone_eq busy written]
  by_cases abort : o.abort = true
  · rw [if_pos abort, if_pos abort]
    exact ⟨(copyFails_rowsDone _ 7).trans rows, copyFails_failed _ (by decide)⟩
  rw [if_neg abort, if_neg abort]
  by_cases last : o.k + 1 = o.h
  · obtain ⟨ended, idle, event, ops, kept⟩ := copyCompleted_shows (copyRowCounted s o)
    rw [told.getF (by decide)] at ops
    rw [if_pos last, if_pos last]
    exact ⟨kept.trans rows, ended, idle, event, ops⟩
  · rw [if_neg last, if_neg last]
    exact ⟨rows, rfl⟩

/-! ### The statement -/

/-- Settles O47: GO and ABORT by what their write of CPY_CTL does to the copier as it stands, a segment as one write over good
units, a row by the counts at its end. -/
theorem blockCopier : Obligations.BlockCopier := by
  unfold Obligations.BlockCopier
  intro s src val o on
  refine ⟨fun idle noAbort => ⟨copyGo_starts on src idle noAbort, copyGo_refused on src idle noAbort⟩, copyAbort_idle on src,
    fun busy => ⟨copyGo_counts on src busy,
      ⟨copyAbort_keeps on src busy, copyAbort_asks on src busy, copyAbort_fails on src busy⟩, fun free => ?_, fun paced => ?_,
      fun released more room => ⟨fun keyless free below dests sources => ?_, fun reads bad => ?_⟩, fun written => ?_⟩⟩
  · exact (whenScan_on on copyRowRelease).trans (congrArg _ (copyRowRelease_unpaced busy free))
  · exact ⟨_, whenScan_on on copyRowRelease, copyRowRelease_releases busy paced⟩
  · exact ⟨_, whenScan_on on copySegment, copySegment_copies busy released more room keyless free below dests sources⟩
  · exact ⟨_, whenScan_on on copySegment, copySegment_unreadable busy released more room reads bad⟩
  · exact ⟨_, whenScan_on on copyRowDone, copyRowDone_counts busy written⟩

end Sys2Proof.Machine
end

section
namespace Sys2Proof.Machine

/-- Settles O4: a command by `exec_kept` with the queue's rest, a TCXO period by `idleTick_kept`. -/
theorem stepKeepsCanonical : Obligations.StepKeepsCanonical := by
  unfold Obligations.StepKeepsCanonical
  intro s t canonical h
  unfold step at h
  split at h
  case h_1 =>
    cases h
    exact (idleTick_kept (Kept.refl s)).wf canonical
  case h_2 command rest _ => exact (exec_kept (Kept.refl { s with pending := rest }) command t h).wf canonical

end Sys2Proof.Machine
end

section
/-! SUPPORT. Cores: what one reads once it is set, its registers and banks, the results that a register takes, and the moves
between registers (R303, R305, R307, R336). -/

namespace Sys2Proof.Machine

/-! ### Cores and their registers -/

@[simp] theorem coreOf_setCore (s : State) (n : Fin 4) (c : Core) : coreOf (setCore s n.val c) n.val = c :=
  (toList_getD_setIfInBounds _ _ _ _ _).trans (if_pos ⟨rfl, n.isLt⟩)

theorem coreOf_setCore_ne {s : State} {n m : Nat} {c : Core} (h : n ≠ m) : coreOf (setCore s n c) m = coreOf s m :=
  (toList_getD_setIfInBounds _ _ _ _ _).trans (if_neg fun e => h e.1)

@[simp] theorem setCore_setCore (s : State) (n : Nat) (c d : Core) : setCore (setCore s n c) n d = setCore s n d := by
  have last : (s.cores.setIfInBounds n c).setIfInBounds n d = s.cores.setIfInBounds n d := by
    ext i hi
    simp only [Vector.getElem_setIfInBounds]
    split <;> rfl
  exact congrArg (fun cores => { s with cores := cores }) last

@[simp] theorem regOf_putReg_same (c : Core) (r : BitVec 4) (w : Tagged) : regOf (putReg c r w) r = w :=
  (toList_getD_setIfInBounds _ _ _ _ _).trans (if_pos ⟨rfl, r.isLt⟩)

theorem regOf_putReg_ne {c : Core} {r q : BitVec 4} {w : Tagged} (h : r ≠ q) : regOf (putReg c r w) q = regOf c q :=
  (toList_getD_setIfInBounds _ _ _ _ _).trans (if_neg fun e => h (BitVec.eq_of_toNat_eq e.1))

theorem bank_getD (c : Core) (k : BitVec 2) : c.bk.toList.getD k.toNat 0 = c.bk[k.toNat] := by
  rw [List.getD_eq_getElem _ _ (by simpa using k.isLt), Vector.getElem_toList]

theorem bank_set (c : Core) (k : BitVec 2) (b : BitVec 8) : c.bk.setIfInBounds k.toNat b = c.bk.set k.toNat b := by
  ext i hi
  rw [Vector.getElem_setIfInBounds, Vector.getElem_set]

/-! ### Results -/

theorem fits_v {r : BitVec 4} (h : isPointer r = false) (w : Tagged) : Fits r w := fun pointer => by
  rw [h] at pointer
  cases pointer

/-- A result that its register accepts is written (R307). -/
theorem writeResult_fits {r : BitVec 4} {w : Tagged} (h : Fits r w) (s : State) (c : Core) :
    writeResult s c r w = goOn s (putReg c r w) := by
  rw [writeResult, pointerTrap_fits h]
  rfl

/-- An instruction that ends in such a result does nothing else. -/
theorem runInstr_loads {s : State} {n : Fin 4} {len : Nat} {body : CoreBody} {r : BitVec 4} {w : Tagged} (h : Issues s n len)
    (ends : body s (coreOf s n.val) = writeResult s (coreOf s n.val) r w) (fits : Fits r w) :
    runInstr s n len body = loads s n len r w :=
  runInstr_goesOn (f := id) h (ends.trans (writeResult_fits fits _ _))

/-! ### Payloads of an address -/

theorem bitsOf_high_zero {w : Word} (h : w.toNat < 2 ^ 24) : bitsOf w 31 24 = 0 := by
  have narrow : w = (w.setWidth 24).setWidth 32 := by
    apply BitVec.eq_of_toNat_eq
    simp only [BitVec.toNat_setWidth]
    omega
  rw [narrow]
  exact bitsOf_address _

/-- A tag of 1 to 7, with a payload of 24 bits where it is ADDR or CODE, is one that LDC and RETAG take. -/
theorem retagBad_false {tag : BitVec 4} {w : Word} (low : 1 ≤ tag.toNat) (high : tag.toNat ≤ 7)
    (address : tag = tagAddr ∨ tag = tagCode → w.toNat < 2 ^ 24) : retagBad tag w = false := by
  have named : ¬ tag = 0#4 := by
    rintro rfl
    exact absurd low (by decide)
  have narrow : ((tag = tagAddr || tag = tagCode) && bitsOf w 31 24 != 0) = false := by
    by_cases h : tag = 3#4 ∨ tag = 4#4
    · simp [bitsOf_high_zero (address h)]
    · simp [h]
  have small : ¬ 8 ≤ tag.toNat := by omega
  rw [retagBad, narrow]
  simp [named, small]

/-! ### The moves -/

section
variable {s : State} {n : Fin 4} {rd vd ra ia : BitVec 4} {w : Tagged} {a : Word}

theorem movr_loads (h : Issues s n 1) (from' : reg s n ra = w) (fits : Fits rd w) :
    exec (.movr n rd ra) s = .next (loads s n 1 rd w) := by
  subst from'
  exact congrArg Host.Outcome.next (runInstr_loads h rfl fits)

theorem mov_loads (h : Issues s n 1) (low : 1 ≤ (tagOf w).toNat) (high : (tagOf w).toNat ≤ 7) (from' : reg s n ra = w)
    (fits : Fits rd w) : exec (.mov n rd ra) s = .next (loads s n 1 rd w) := by
  subst from'
  refine congrArg Host.Outcome.next (runInstr_loads h ?_ fits)
  rw [tagTrap_anyTag (w := regOf (coreOf s n.val) ra) low high]
  rfl

theorem ldc_loads {tag : BitVec 4} {ext : Word} (h : Issues s n 2) (low : 1 ≤ tag.toNat) (high : tag.toNat ≤ 7)
    (address : tag = tagAddr ∨ tag = tagCode → ext.toNat < 2 ^ 24) (fits : Fits rd (tagged tag ext)) :
    exec (.ldc n rd tag ext) s = .next (loads s n 2 rd (tagged tag ext)) := by
  refine congrArg Host.Outcome.next (runInstr_loads h ?_ fits)
  rw [retagBad_false low high address]
  rfl

theorem retag_loads {tag : BitVec 4} (h : Issues s n 1) (set : 1 ≤ (tagOf w).toNat) (sound : (tagOf w).toNat ≤ 7)
    (from' : reg s n ra = w) (low : 1 ≤ tag.toNat) (high : tag.toNat ≤ 7)
    (address : tag = tagAddr ∨ tag = tagCode → (payload w).toNat < 2 ^ 24) (fits : Fits rd (tagged tag (payload w))) :
    exec (.retag n rd ra tag) s = .next (loads s n 1 rd (tagged tag (payload w))) := by
  subst from'
  refine congrArg Host.Outcome.next (runInstr_loads h ?_ fits)
  dsimp only
  rw [retagBad_false (w := payload (regOf (coreOf s n.val) ra)) low high address,
    tagTrap_anyTag (w := regOf (coreOf s n.val) ra) set sound]
  rfl

theorem mfbk_loads (h : Issues s n 1) (toV : isPointer vd = false) (k : BitVec 2) :
    exec (.mfbk n vd k) s = .next (loads s n 1 vd (intWord ((coreOf s n.val).bk[k.toNat].setWidth 32))) := by
  refine congrArg Host.Outcome.next (runInstr_loads h ?_ (fits_v toV _))
  rw [bank_getD]

theorem mtrc_goesOn (h : Issues s n 1) (from' : reg s n ia = intWord a) :
    exec (.mtrc n ia) s = .next (goesOn s n 1 { coreOf s n.val with rc := a.setWidth 16 }) := by
  refine congrArg Host.Outcome.next (runInstr_goesOn (f := id) h ?_)
  dsimp only
  rw [show regOf (coreOf s n.val) ia = intWord a from from', tagTrap_int rfl, payload_intWord]
  rfl

theorem mtbk_goesOn (h : Issues s n 1) (from' : reg s n ia = intWord a) (k : BitVec 2) :
    exec (.mtbk n ia k) s =
      .next (goesOn s n 1 { coreOf s n.val with bk := (coreOf s n.val).bk.set k.toNat (a.setWidth 8) }) := by
  refine congrArg Host.Outcome.next (runInstr_goesOn (f := id) h ?_)
  dsimp only
  rw [show regOf (coreOf s n.val) ia = intWord a from from', tagTrap_int rfl, payload_intWord, bank_set]
  rfl

end

/-- Settles O18: each move ends in one result, or in one field of the core. -/
theorem registerMoves : Obligations.RegisterMoves := by
  unfold Obligations.RegisterMoves
  intro s n rd vd ra xa ia tag imm ext a k w x one two toV raw fitsRaw low high whole fitsWhole int tagLow tagHigh address fitsLdc
    fitsRetag
  have result (v : Word) := fits_v toV (intWord v)
  refine ⟨movr_loads one raw fitsRaw, mov_loads one low high whole fitsWhole, ?_,
    ldc_loads two tagLow tagHigh (fun t => (address t).1) fitsLdc,
    retag_loads one low high whole tagLow tagHigh (fun t => (address t).2) fitsRetag, ?_, ?_, mtrc_goesOn one int,
    mfbk_loads one toV k, mtbk_goesOn one int k⟩
  · exact congrArg Host.Outcome.next (runInstr_loads one rfl (result _))
  · subst raw
    exact congrArg Host.Outcome.next (runInstr_loads one rfl (result _))
  · exact congrArg Host.Outcome.next (runInstr_loads one rfl (result _))

end Sys2Proof.Machine
end

section
/-! SUPPORT. SRAM, and the loads and stores of house and local SRAM (R301, R303, R305, R308, R326, R334, R386). -/

namespace Sys2Proof.Machine

/-! ### Words of SRAM -/

/-- A core reaches house SRAM, memory 0, and its own local SRAM. -/
theorem placeOf_memory {n : Fin 4} {a : BitVec 24} {m x : Nat} (place : placeOf n.val a = .sram m x) : m ≤ 4 := by
  unfold placeOf at place
  dsimp only at place
  split_ifs at place <;> injection place with memory <;> omega

/-- A store to a word leaves every other one. -/
theorem sramCell_setCell {m : Nat} (memory : m ≤ 4) (s : State) (x k y : Nat) (c : SramCell) :
    sramCell (setCell s m x c) k y = if (k, y) = (m, x) then c else sramCell s k y := by
  have word {d : SramCell} (l : SMap SramCell) : sget (sput l d x c) d y = if y = x then c else sget l d y := by
    split
    · next same => rw [same, sget_sput_same]
    · next other => exact sget_sput_ne _ _ _ _ _ _ other
  unfold sramCell setCell
  by_cases house : m = 0 <;> by_cases same : k = 0
  · simp [house, same, word]
  · simp [house, same]
  · simp [house, same, Ne.symm house]
  · have local' : (m - 1 = k - 1 ∧ k - 1 < 4) ↔ k = m := by omega
    simp only [house, same, if_false, toList_getD_setIfInBounds, local', Prod.mk.injEq]
    by_cases there : k = m
    · simp [there, word]
    · simp [there]

/-- A page is marked once a word of it is stored (R386). -/
theorem pageMarked_markPage (s : State) (p : Nat) : pageMarked (markPage s p) p = true := by
  have bit : p % 32 < 32 := Nat.mod_lt _ (by decide)
  rw [pageMarked, markPage, regWord_setRegWord_same]
  simp [bit]

theorem regWord_setCell (s : State) (m x : Nat) (c : SramCell) (k : Nat) : regWord (setCell s m x c) k = regWord s k := by
  unfold setCell
  split <;> rfl

theorem sramStore_cell {m : Nat} (memory : m ≤ 4) (s : State) (x k y : Nat) (w : Tagged) :
    sramCell (sramStore s m x w) k y = if (k, y) = (m, x) then .good w else sramCell s k y := by
  rw [← sramCell_setCell memory]
  unfold sramStore
  dsimp only
  split <;> rfl

/-- A store changes one word of SRAM, and in house SRAM the map word of its page (R386). -/
theorem sramStore_frame (s : State) (m x : Nat) (w : Tagged) :
    (∀ b, mramByte (sramStore s m x w) b = mramByte s b) ∧ (sramStore s m x w).dram = s.dram ∧
      (sramStore s m x w).cores = s.cores ∧
      ∀ k, k ≠ HS_WMAP (x / 1024 / 32) → regWord (sramStore s m x w) k = regWord s k := by
  unfold sramStore
  by_cases house : m = 0
  · subst house
    exact ⟨fun _ => rfl, rfl, rfl, fun k other => regWord_setRegWord_ne _ _ _ _ other⟩
  · simp only [house, if_false, setCell]
    exact ⟨fun _ => rfl, trivial, trivial, fun _ _ => rfl⟩

/-- The word of a good cell is read as it is, in house SRAM where its page is marked (R387). -/
theorem sramLoad_good {s : State} {m x : Nat} {w : Tagged} (cell : sramCell s m x = .good w)
    (marked : m = 0 → pageMarked s (x / 1024) = true) : sramLoad s m x = (s, some w) := by
  have array : ¬ ((m = 0 && !pageMarked s (x / 1024)) = true) := by
    simpa using marked
  unfold sramLoad
  rw [if_neg array, cell]
  rfl

theorem sramStore_marks (s : State) {m x : Nat} {w : Tagged} (house : m = 0) :
    pageMarked (sramStore s m x w) (x / 1024) = true := by
  subst house
  exact pageMarked_markPage _ _

theorem storeTagged_sram {s : State} {n : Nat} {a : BitVec 24} {m x : Nat} (place : placeOf n a = .sram m x) (w : Tagged) :
    storeTagged s n a w = sramStore s m x w := by
  rw [storeTagged, place]

/-! ### Loads -/

section
variable {s : State} {n : Fin 4} {a : BitVec 24} {w : Tagged}

theorem Holds.loadTrap_none (h : Holds s n a w) : loadTrap s n.val a = none := by
  obtain ⟨m, x, place, -⟩ := h
  rw [loadTrap, place]

theorem Holds.loadWord (h : Holds s n a w) (whole : Bool) : loadWord s n a whole = (s, .word w) := by
  obtain ⟨m, x, place, load⟩ := h
  rw [Machine.loadWord, place]
  dsimp only
  rw [load]
  rfl

theorem Holds.loadFor (h : Holds s n a w) (c : Core) (whole : Bool) (u : LoadUse) :
    loadFor s n c a whole u = useWord s n c u w := by
  rw [Machine.loadFor, h.loadWord]

end

/-- BASE as a pointer form leaves it (R334). -/
theorem updateBase_based (c : Core) (mode : BitVec 2) (r : BitVec 4) (p : BitVec 24) (off : BitVec 18) :
    updateBase c r (if mode = 0 then none else some (p + off.signExtend 24)) = based c mode r p off := by
  unfold based
  split <;> rfl

section
variable {s : State} {n : Fin 4} {r base : BitVec 4} {bank mode : BitVec 2} {low : BitVec 16} {off : BitVec 18}
  {p sp : BitVec 24} {w : Tagged}

theorem shortLoad_sram (held : Holds s n (short s n bank low) w) (whole : Bool) :
    shortLoad n r bank low whole s (coreOf s n.val) = writeResult s (coreOf s n.val) r w := by
  rw [shortLoad, shortAddress_short, held.loadTrap_none]
  exact held.loadFor _ _ _

theorem pointerLoad_sram (addr : reg s n base = addrWord p) (good : mode ≠ 3) (held : Holds s n (pointed mode p off) w)
    (fits : Fits r w) (whole : Bool) :
    pointerLoad n r base mode off whole s (coreOf s n.val) =
      goOn s (putReg (based (coreOf s n.val) mode base p off) r w) := by
  have here : addrOf (regOf (coreOf s n.val) base) = p := (congrArg addrOf addr).trans (addrOf_addrWord p)
  have defined : modeBad mode = none := if_neg (by simpa using good)
  rw [pointerLoad, here, fxAddress_pointed, defined, tagTrap_addr (w := regOf (coreOf s n.val) base) addr, held.loadTrap_none,
    checked_none, checked_none, checked_none, checked_nil]
  refine (held.loadFor _ _ _).trans ((writeResult_fits fits _ _).trans ?_)
  rw [← updateBase_based]
  split <;> rfl

theorem pop_loads (h : Issues s n 1) (stack : reg s n rSP = addrWord sp) (held : Holds s n sp w) (fits : Fits r w) :
    exec (.pop n r) s =
      .next (goesOn s n 1 (putReg (putReg (coreOf s n.val) rSP (addrWord (sp + 1))) r w)) := by
  have here : addrOf (regOf (coreOf s n.val) rSP) = sp := (congrArg addrOf stack).trans (addrOf_addrWord sp)
  refine congrArg Host.Outcome.next (runInstr_goesOn (f := id) h ?_)
  dsimp only
  rw [here, tagTrap_addr (w := regOf (coreOf s n.val) rSP) stack, held.loadTrap_none, checked_none, checked_none, checked_nil,
    held.loadFor]
  refine (writeResult_fits fits _ _).trans ?_
  rw [here]
  rfl

end

/-- Settles O19: each load by what a word that is held ends in. -/
theorem loadsFromSram : Obligations.LoadsFromSram := by
  unfold Obligations.LoadsFromSram
  intro s n r base bank mode low off p sp u v w h heldShort fitsShort addr good heldPointed fitsPointed stack heldStack fitsStack
  have short (whole : Bool) := runInstr_loads h (shortLoad_sram heldShort whole) fitsShort
  have indexed (whole : Bool) := runInstr_goesOn (f := id) h (pointerLoad_sram addr good heldPointed fitsPointed whole)
  exact ⟨congrArg Host.Outcome.next (short false), congrArg Host.Outcome.next (short true),
    congrArg Host.Outcome.next (indexed false), congrArg Host.Outcome.next (indexed true), pop_loads h stack heldStack fitsStack⟩

/-! ### Stores -/

section
variable {s : State} {n : Fin 4} {base : BitVec 4} {a : BitVec 24}

theorem Storable.place (h : Storable s n base a) : ∃ m x, placeOf n.val a = .sram m x := by
  obtain ⟨tagged, -⟩ := h
  unfold isTaggedPlace at tagged
  split at tagged
  · next m x place => exact ⟨m, x, place⟩
  · cases tagged

theorem Storable.storeTrap_none (h : Storable s n base a) : storeTrap s n.val a = none := by
  obtain ⟨m, x, place⟩ := h.place
  rw [storeTrap, place]
  dsimp only
  rw [loadTrap, place]

theorem Storable.stackBad_false (h : Storable s n rSP a) : stackBad n.val (coreOf s n.val) a = false := by
  obtain ⟨tagged, least⟩ := h
  rw [stackBad, tagged, decide_eq_false (Nat.not_lt.mpr (least rfl))]
  rfl

theorem Storable.stackTrap_none (h : Storable s n base a) : stackTrap n.val (coreOf s n.val) base a = none := by
  rw [stackTrap]
  by_cases stack : base = rSP
  · subst stack
    rw [h.stackBad_false]
    rfl
  · rw [decide_eq_false stack]
    rfl

theorem Storable.rawStoreTrap_none (h : Storable s n base a) (k : Nat) (w : Tagged) : rawStoreTrap n.val k a w = none :=
  if_pos h.1

theorem Storable.coreStore (h : Storable s n base a) (t : State) (w : Tagged) : coreStore t n a w = storeTagged t n.val a w := by
  obtain ⟨m, x, place⟩ := h.place
  rw [Machine.coreStore, place, storeTagged_sram place]

/-- An instruction whose end stores at a word of tagged memory. -/
theorem runInstr_stores {len : Nat} {c : Core} {w : Tagged} {body : CoreBody} (h : Issues s n len) (to' : Storable s n base a)
    (ends : body s (coreOf s n.val) = (s, .next c fun t => Machine.coreStore t n a w)) :
    runInstr s n len body = storeTagged (goesOn s n len c) n.val a w :=
  (runInstr_goesOn h ends).trans (to'.coreStore _ _)

end

section
variable {s : State} {n : Fin 4} {r base : BitVec 4} {bank mode : BitVec 2} {low : BitVec 16} {off : BitVec 18}
  {p sp : BitVec 24}

theorem st_stores (h : Issues s n 1) (least : 1 ≤ (tagOf (reg s n r)).toNat) (most : (tagOf (reg s n r)).toNat ≤ 7)
    (to' : Storable s n 0 (short s n bank low)) :
    exec (.st n r bank low) s =
      .next (storeTagged (goesOn s n 1 (coreOf s n.val)) n.val (short s n bank low) (reg s n r)) := by
  refine congrArg Host.Outcome.next (runInstr_stores h to' ?_)
  dsimp only
  rw [shortAddress_short, tagTrap_anyTag (w := regOf (coreOf s n.val) r) least most, to'.storeTrap_none]
  rfl

theorem str_stores (h : Issues s n 1) (to' : Storable s n 0 (short s n bank low)) :
    exec (.str n r bank low) s =
      .next (storeTagged (goesOn s n 1 (coreOf s n.val)) n.val (short s n bank low) (reg s n r)) := by
  refine congrArg Host.Outcome.next (runInstr_stores h to' ?_)
  dsimp only
  rw [shortAddress_short, to'.rawStoreTrap_none, to'.storeTrap_none]
  rfl

/-- A store through a pointer ends in its store where the check of its word's tag passes, or is not made. -/
theorem pointerStore_sram {raw : Bool} (addr : reg s n base = addrWord p) (good : mode ≠ 3)
    (to' : Storable s n base (pointed mode p off)) (passes : raw = false → tagTrap 1 anyTag (reg s n r) = none) :
    pointerStore n r base mode off raw s (coreOf s n.val) =
      (s, .next (based (coreOf s n.val) mode base p off) fun t => coreStore t n (pointed mode p off) (reg s n r)) := by
  have here : addrOf (regOf (coreOf s n.val) base) = p := (congrArg addrOf addr).trans (addrOf_addrWord p)
  have defined : modeBad mode = none := if_neg (by simpa using good)
  have word : (if raw = true then rawStoreTrap n.val 1 (pointed mode p off) (regOf (coreOf s n.val) r)
      else tagTrap 1 anyTag (regOf (coreOf s n.val) r)) = none := by
    cases raw with
    | false => exact passes rfl
    | true => exact to'.rawStoreTrap_none _ _
  rw [pointerStore, here, fxAddress_pointed, defined, tagTrap_addr (w := regOf (coreOf s n.val) base) addr, word,
    to'.storeTrap_none, to'.stackTrap_none, updateBase_based]
  rfl

theorem push_stores (h : Issues s n 1) (stack : reg s n rSP = addrWord sp) (to' : Storable s n rSP (sp - 1)) :
    exec (.push n r) s = .next (storeTagged (goesOn s n 1 (putReg (coreOf s n.val) rSP (addrWord (sp - 1)))) n.val (sp - 1)
      (reg s n r)) := by
  have here : addrOf (regOf (coreOf s n.val) rSP) = sp := (congrArg addrOf stack).trans (addrOf_addrWord sp)
  refine congrArg Host.Outcome.next (runInstr_stores h to' ?_)
  dsimp only
  rw [here, tagTrap_addr (w := regOf (coreOf s n.val) rSP) stack, to'.storeTrap_none, to'.stackTrap_none]
  rfl

end

/-- Settles O20: what a store leaves by `sramStore_cell` and `sramStore_frame`, each instruction by the store its end makes. -/
theorem storesToSram : Obligations.StoresToSram := by
  unfold Obligations.StoresToSram
  refine ⟨fun s n a m x w place => ?_, ?_⟩
  · have memory := placeOf_memory place
    obtain ⟨bytes, dram, cores, regs⟩ := sramStore_frame s m x w
    have cell : sramCell (sramStore s m x w) m x = .good w := (sramStore_cell memory s x m x w).trans (if_pos rfl)
    rw [storeTagged_sram place]
    exact ⟨cell, sramLoad_good cell (sramStore_marks s),
      fun k y other => (sramStore_cell memory s x k y w).trans (if_neg other), bytes, dram, cores, regs, sramStore_marks s⟩
  · intro s n r x base bank mode low off p sp h least most toShort addr good toPointed stack toStack
    have indexed {q : BitVec 4} {raw : Bool} (passes : raw = false → tagTrap 1 anyTag (reg s n q) = none) :=
      runInstr_stores h toPointed (pointerStore_sram addr good toPointed passes)
    exact ⟨st_stores h least most toShort, str_stores h toShort, 
      congrArg Host.Outcome.next (indexed fun _ => tagTrap_anyTag least most),
      congrArg Host.Outcome.next (indexed fun raw => nomatch raw), push_stores h stack toStack⟩

end Sys2Proof.Machine
end

section
/-! SUPPORT. Operands that the integer rows refuse (R302, R307, R318, R319, R338). -/

namespace Sys2Proof.Machine

/-- The trap of operand `k`, whose tag is not the one wanted: at the vector of UNSET, of POISON or of another tag, with both tags
(R302, R318, R319). -/
def refusal (k : Nat) (want : BitVec 4) (w : Tagged) : Trap :=
  { vector := if tagOf w = 0 then 4 else if tagOf w = 15 then 5 else 3, opnd := k, want := want.toNat, seen := (tagOf w).toNat }

theorem tagTrap_refused {k : Nat} {want : BitVec 4} {w : Tagged} (other : tagOf w ≠ want) :
    tagTrap k [want] w = some (refusal k want w) := by
  unfold tagTrap refusal
  by_cases unset : tagOf w = 0
  · simp [unset]
  by_cases spoiled : tagOf w = 15
  · simp [spoiled]
  · have apart : ¬ [want].contains (tagOf w) = true := by simpa using other
    simp only [if_neg unset, if_neg spoiled, if_neg apart]
    rfl

/-- A result that is not ADDR cannot go to a P register or SP (R307). -/
theorem destTrap_int {rd : BitVec 4} (pointer : isPointer rd = true) :
    destTrap rd tagInt = some { vector := 3, opnd := 15, want := 3, seen := 1 } := by
  rw [destTrap, pointerTrap, pointer, tagTrap_refused (by simp)]
  simp [refusal]

theorem runInstr_traps {s : State} {n : Fin 4} {len : Nat} {t : Trap} {body : CoreBody} (h : Issues s n len)
    (traps : body s (coreOf s n.val) = (s, .trap t)) : runInstr s n len body = takeTrap s n.val t (coreOf s n.val).pc := by
  rw [runInstr_issues h, traps]
  rfl

/-! ### Instructions on two registers -/

section
variable {tagA tagB tagR rd ra rb : BitVec 4} {f : State → Core → Word → Word → State × Ending} {s : State} {c : Core}

theorem binOp_first (refused : tagOf (regOf c ra) ≠ tagA) :
    binOp tagA tagB tagR rd ra rb f s c = (s, .trap (refusal 0 tagA (regOf c ra))) := by
  rw [binOp, tagTrap_refused refused]
  rfl

theorem binOp_second (first : tagTrap 0 [tagA] (regOf c ra) = none) (refused : tagOf (regOf c rb) ≠ tagB) :
    binOp tagA tagB tagR rd ra rb f s c = (s, .trap (refusal 1 tagB (regOf c rb))) := by
  rw [binOp, first, tagTrap_refused refused]
  rfl

theorem binOp_dest {t : Trap} (first : tagTrap 0 [tagA] (regOf c ra) = none) (second : tagTrap 1 [tagB] (regOf c rb) = none)
    (refused : destTrap rd tagR = some t) : binOp tagA tagB tagR rd ra rb f s c = (s, .trap t) := by
  rw [binOp, first, second, refused]
  rfl

theorem binOp_accepts (first : tagTrap 0 [tagA] (regOf c ra) = none) (second : tagTrap 1 [tagB] (regOf c rb) = none)
    (accepts : destTrap rd tagR = none) :
    binOp tagA tagB tagR rd ra rb f s c = f s c (payload (regOf c ra)) (payload (regOf c rb)) := by
  rw [binOp, first, second, accepts]
  rfl

end

/-- Each integer row on two registers checks them as INT, and its result as INT, and does the rest only then. -/
theorem integerRow_binOp {row : Fin 4 → BitVec 4 → BitVec 4 → BitVec 4 → Instr}
    (integer : row ∈ [Instr.add, Instr.sub, Instr.and, Instr.or, Instr.xor, Instr.shl, Instr.shr, Instr.sar, Instr.mul, Instr.divs,
      Instr.divu]) (s : State) (n : Fin 4) (rd ra rb : BitVec 4) :
    ∃ f, exec (row n rd ra rb) s = .next (runInstr s n 1 (binOp tagInt tagInt tagInt rd ra rb f)) := by
  simp only [List.mem_cons, List.not_mem_nil, or_false] at integer
  rcases integer with rfl | rfl | rfl | rfl | rfl | rfl | rfl | rfl | rfl | rfl | rfl <;> exact ⟨_, rfl⟩

/-- A divisor of 0 (R338). -/
theorem divOp_zero {rd ra rb : BitVec 4} {f : Word → Word → Word} {g : Word → Word → Flags} {s : State} {c : Core}
    (first : tagTrap 0 [tagInt] (regOf c ra) = none) (zero : regOf c rb = intWord 0) (toV : isPointer rd = false) :
    divOp rd ra rb f g s c = (s, .trap { vector := 10 }) := by
  rw [divOp, binOp_accepts first (tagTrap_int zero) (destTrap_v toV _), zero, payload_intWord]
  rfl

/-- Settles O31: the rows share the checks of `binOp`, and a division adds its own. -/
theorem operandTraps : Obligations.OperandTraps := by
  unfold Obligations.OperandTraps
  intro s n rd ra rb row h integer
  obtain ⟨f, row'⟩ := integerRow_binOp integer s n rd ra rb
  have int {k : Nat} {r : BitVec 4} (tag : tagOf (reg s n r) = 1) : tagTrap k [tagInt] (regOf (coreOf s n.val) r) = none :=
    tagTrap_none (by simp [show tagOf (regOf (coreOf s n.val) r) = 1 from tag])
      (by simp [show tagOf (regOf (coreOf s n.val) r) = 1 from tag])
      (by simp [show tagOf (regOf (coreOf s n.val) r) = 1 from tag])
  have traps {t : Trap} (body : binOp tagInt tagInt tagInt rd ra rb f s (coreOf s n.val) = (s, .trap t)) :
      exec (row n rd ra rb) s = .next (takeTrap s n.val t (coreOf s n.val).pc) :=
    row'.trans (congrArg _ (runInstr_traps h body))
  refine ⟨fun refused => traps (binOp_first refused), fun x refused => traps (binOp_second (int x) refused),
    fun x y pointer => traps (binOp_dest (int x) (int y) (destTrap_int pointer)), fun x zero toV division => ?_⟩
  rcases division with rfl | rfl <;> exact congrArg _ (runInstr_traps h (divOp_zero (int x) zero toV))

end Sys2Proof.Machine
end

section
/-! SUPPORT. Branches, jumps, control registers and the instructions that wait (R316, R317, R336, R344, R346). -/

namespace Sys2Proof.Machine

/-- Outside a repeat a control instruction that goes on takes its effect on the state in which the core has gone on. -/
theorem runControl_goesOn {s : State} {n : Fin 4} {len : Nat} {c : Core} {f : State → State} {body : CoreBody}
    (h : IssuesAlone s n len) (next : body s (coreOf s n.val) = (s, .next c f)) : runControl s n len body = f (goesOn s n len c) :=
  (runControl_alone h body).trans (runInstr_goesOn h.toIssues next)

theorem runControl_jumps {s : State} {n : Fin 4} {len : Nat} {c : Core} {a : BitVec 24} {body : CoreBody}
    (h : IssuesAlone s n len) (jump : body s (coreOf s n.val) = (s, .jump c a)) :
    runControl s n len body = setCore s n.val { c with pc := a } := by
  rw [runControl_issues h, jump]
  rfl

/-! ### Jumps -/

/-- The conditions in the order of their numbers (R346). -/
theorem branchTaken_eq (sr : Word) {cond : BitVec 4} (defined : cond ≠ 15) :
    branchTaken sr cond = ([true, sr.getLsbD 10, !sr.getLsbD 10, sr.getLsbD 9 != sr.getLsbD 8, sr.getLsbD 9 == sr.getLsbD 8,
      !sr.getLsbD 10 && sr.getLsbD 9 == sr.getLsbD 8, sr.getLsbD 10 || sr.getLsbD 9 != sr.getLsbD 8, sr.getLsbD 11,
      !sr.getLsbD 11, sr.getLsbD 11 && !sr.getLsbD 10, !sr.getLsbD 11 || sr.getLsbD 10, sr.getLsbD 9, !sr.getLsbD 9,
      sr.getLsbD 8, !sr.getLsbD 8][cond.toNat]! : Bool) := by
  unfold branchTaken flagC flagZ flagN flagV
  generalize sr.getLsbD 11 = c, sr.getLsbD 10 = z, sr.getLsbD 9 = n, sr.getLsbD 8 = v
  revert cond c z n v
  decide

section
variable {s : State} {n : Fin 4} {ra vd cond : BitVec 4} {disp : BitVec 24} {ext a p w : Word}

theorem br_jumps (h : IssuesAlone s n 1) (defined : cond ≠ 15) : exec (.br n cond disp) s =
    .next (if branchTaken (coreOf s n.val).sr cond then setCore s n.val { coreOf s n.val with pc := (coreOf s n.val).pc + 1 + disp }
      else goesOn s n 1 (coreOf s n.val)) := by
  have passes : rsvenc (decide (cond = 0xF)) = none := if_neg (by simpa using defined)
  refine congrArg Host.Outcome.next ?_
  split
  · next taken =>
    refine runControl_jumps h ?_
    rw [passes, checked_none, checked_nil, if_pos taken]
  · next untaken =>
    refine runControl_goesOn (f := id) h ?_
    rw [passes, checked_none, checked_nil, if_neg untaken]
    rfl

theorem jmp_jumps (h : IssuesAlone s n 2) (address : ext.toNat < 2 ^ 24) :
    exec (.jmp n ext) s = .next (setCore s n.val { coreOf s n.val with pc := ext.setWidth 24 }) := by
  refine congrArg Host.Outcome.next (runControl_jumps h ?_)
  rw [bitsOf_high_zero address]
  rfl

theorem jmpr_jumps (h : IssuesAlone s n 1) (code : reg s n ra = tagged tagCode w) :
    exec (.jmpr n ra) s = .next (setCore s n.val { coreOf s n.val with pc := w.setWidth 24 }) := by
  refine congrArg Host.Outcome.next (runControl_jumps h ?_)
  rw [show regOf (coreOf s n.val) ra = tagged tagCode w from code, tagTrap_none (by simp) (by simp) (by simp), addrOf,
    payload_tagged]
  rfl

/-! ### Control registers -/

theorem mfc_loads (h : IssuesAlone s n 1) (toV : isPointer vd = false) (cr : BitVec 4) :
    exec (.mfc n vd cr) s = .next (loads s n 1 vd (controlWord (coreOf s n.val) n.val cr)) :=
  congrArg Host.Outcome.next ((runControl_alone h _).trans (runInstr_loads h.toIssues rfl (fits_v toV _)))

theorem mtc_puts {cr : BitVec 4} {c : Core} {count : Bool} (h : IssuesAlone s n 1)
    (accepts : tagTrap 0 (controlTags cr) (reg s n ra) = none)
    (puts : putControl (coreOf s n.val) cr (payload (reg s n ra)) = (c, count)) :
    exec (.mtc n ra cr) s = .next (if count then countReserved (goesOn s n 1 c) else goesOn s n 1 c) := by
  refine congrArg Host.Outcome.next
    (runControl_goesOn (f := fun s => if count then countReserved s else s) h ?_)
  dsimp only
  rw [show tagTrap 0 (controlTags cr) (regOf (coreOf s n.val) ra) = none from accepts,
    show putControl (coreOf s n.val) cr (payload (regOf (coreOf s n.val) ra)) = (c, count) from puts]
  rfl

/-- SR takes its RW fields and counts a reserved one written as nonzero (R316). -/
theorem mtc_sr (h : IssuesAlone s n 1) (int : reg s n ra = intWord a) : exec (.mtc n ra 0) s =
    .next (if a &&& 0x000070E0#32 = 0
      then goesOn s n 1 { coreOf s n.val with sr := ((coreOf s n.val).sr &&& 0xFFFFF0E0#32) ||| (a &&& 0x00000F1F#32) }
      else countReserved
        (goesOn s n 1 { coreOf s n.val with sr := ((coreOf s n.val).sr &&& 0xFFFFF0E0#32) ||| (a &&& 0x00000F1F#32) })) := by
  have puts : putControl (coreOf s n.val) 0 (payload (reg s n ra)) =
      ({ coreOf s n.val with sr := ((coreOf s n.val).sr &&& 0xFFFFF0E0#32) ||| (a &&& 0x00000F1F#32) },
        (a &&& 0x000070E0#32) != 0) := by
    rw [int, payload_intWord]
    rfl
  refine (mtc_puts h (tagTrap_int int) puts).trans (congrArg _ ?_)
  by_cases clear : a &&& 0x000070E0#32 = 0 <;> simp [clear]

theorem addr_payload (int : reg s n ra = tagged tagAddr p) : tagTrap 0 [tagAddr] (reg s n ra) = none ∧ payload (reg s n ra) = p := by
  rw [int]
  exact ⟨tagTrap_none (by simp) (by simp) (by simp), payload_tagged _ _⟩

end

/-- Settles O23: each instruction by what its body ends in. -/
theorem controlInstructions : Obligations.ControlInstructions := by
  unfold Obligations.ControlInstructions
  intro s n vd ia pa ca cond disp ext a p w h two toV defined address int pointer code
  dsimp only
  obtain ⟨addr, word⟩ := addr_payload pointer
  have tagged : tagTrap 0 anyTag (reg s n ia) = none := by
    rw [int]
    exact tagTrap_none (by simp) (by simp) (by simp [anyTag])
  rw [← branchTaken_eq _ defined]
  exact ⟨congrArg Host.Outcome.next ((runInstr_goesOn (f := id) h.toIssues rfl)), br_jumps h defined, jmp_jumps two address,
    jmpr_jumps h code, mfc_loads h toV 0, mfc_loads h toV 1, mfc_loads h toV 2, mfc_loads h toV 3, mfc_loads h toV 4,
    mfc_loads h toV 5, mtc_sr h int, mtc_puts (count := false) h addr (by rw [word]; rfl),
    mtc_puts (count := false) h addr (by rw [word]; rfl), mtc_puts (count := false) h tagged rfl,
    congrArg Host.Outcome.next (runControl_goesOn (f := fun s => waitFlush s n.val) h rfl),
    congrArg Host.Outcome.next (runControl_goesOn (f := id) h rfl)⟩

end Sys2Proof.Machine
end

section
/-! SUPPORT. REP (R316, R347, R348). -/

namespace Sys2Proof.Machine

/-! ### RPT and RA in SR -/

theorem setRepeat_getLsbD (sr : Word) (rpt ra i : Nat) : (setRepeat sr rpt ra).getLsbD i =
    if i = 15 then ra.testBit 0 else if 16 ≤ i ∧ i ≤ 31 then rpt.testBit (i - 16) else sr.getLsbD i := by
  rw [setRepeat, putBits_getLsbD _ _ _ _ _ (le_refl _) (by decide), putBits_getLsbD _ _ _ _ _ (by decide) (by decide)]
  by_cases flag : i = 15
  · subst flag
    rfl
  · rw [if_neg (by omega), if_neg flag]

/-- The bits of a word below bit `k`. -/
theorem lowBits_getLsbD (w : Word) {k : Nat} (hk : k ≤ 32) (i : Nat) :
    (w &&& BitVec.ofNat 32 (2 ^ k - 1)).getLsbD i = (decide (i < k) && w.getLsbD i) := by
  rw [BitVec.getLsbD_and, BitVec.getLsbD_ofNat, Nat.testBit_two_pow_sub_one]
  by_cases low : i < k
  · simp [low, show i < 32 by omega]
  · simp [low]

/-- A word of one bit. -/
theorem oneBit_getLsbD {k : Nat} (hk : k < 32) (i : Nat) : (BitVec.ofNat 32 (2 ^ k)).getLsbD i = decide (k = i) := by
  rw [BitVec.getLsbD_ofNat, Nat.testBit_two_pow]
  by_cases same : k = i
  · simp [same, show i < 32 by omega]
  · simp [same]

theorem belowRepeat_getLsbD (sr : Word) (i : Nat) : (sr &&& 0x00007FFF#32).getLsbD i = (decide (i < 15) && sr.getLsbD i) :=
  lowBits_getLsbD sr (k := 15) (by decide) i

theorem setRepeat_none (sr : Word) : setRepeat sr 0 0 = sr &&& 0x00007FFF#32 := by
  apply BitVec.eq_of_getLsbD_eq
  intro i word
  rw [setRepeat_getLsbD, belowRepeat_getLsbD]
  by_cases low : i < 15
  · rw [if_neg (by omega), if_neg (by omega), decide_eq_true low, Bool.true_and]
  · have repeats : ¬ i = 15 → 16 ≤ i ∧ i ≤ 31 := by omega
    rw [decide_eq_false low, Bool.false_and]
    split
    · rfl
    · next other => rw [if_pos (repeats other), Nat.zero_testBit]

theorem setRepeat_start (sr : Word) (rc : BitVec 16) : setRepeat sr rc.toNat 1 =
    (sr &&& 0x00007FFF#32) ||| (rc.setWidth 32 <<< 16) ||| 0x00008000#32 := by
  apply BitVec.eq_of_getLsbD_eq
  intro i word
  have flag : (0x00008000#32).getLsbD i = decide (15 = i) := oneBit_getLsbD (k := 15) (by decide) i
  rw [setRepeat_getLsbD, BitVec.getLsbD_or, BitVec.getLsbD_or, belowRepeat_getLsbD, flag, BitVec.getLsbD_shiftLeft,
    BitVec.getLsbD_setWidth]
  rcases Nat.lt_trichotomy i 15 with low | same | high
  · simp [low, low.ne, low.ne', show ¬ 16 ≤ i by omega, show i < 16 by omega]
  · subst same
    simp
  · simp [high.ne, high.ne', show ¬ i < 15 by omega, show 16 ≤ i by omega, show i ≤ 31 by omega, show ¬ i < 16 by omega,
      show i - 16 < 32 by omega, word, BitVec.getLsbD]

theorem setRepeat_next {sr : Word} (ra : sr.getLsbD 15 = true) (more : 1 ≤ (sr >>> 16).toNat) :
    setRepeat sr ((sr >>> 16).toNat - 1) 1 = sr - 0x00010000#32 := by
  have halves : sr.toNat = 2 ^ 16 * (sr >>> 16).toNat + sr.toNat % 2 ^ 16 := by
    rw [BitVec.toNat_ushiftRight, Nat.shiftRight_eq_div_pow]
    omega
  have less : (sr - 0x00010000#32).toNat = 2 ^ 16 * ((sr >>> 16).toNat - 1) + sr.toNat % 2 ^ 16 := by
    have bound := sr.isLt
    rw [BitVec.toNat_sub, show (0x00010000#32).toNat = 2 ^ 16 from rfl]
    omega
  have low : sr.toNat % 2 ^ 16 < 2 ^ 16 := Nat.mod_lt _ (by decide)
  have lower (j : Nat) (hj : j < 16) : (sr.toNat % 2 ^ 16).testBit j = sr.getLsbD j := by
    rw [Nat.testBit_mod_two_pow, decide_eq_true hj, Bool.true_and, BitVec.testBit_toNat]
  apply BitVec.eq_of_getLsbD_eq
  intro i word
  rw [setRepeat_getLsbD, ← BitVec.testBit_toNat (sr - 0x00010000#32), less, Nat.testBit_two_pow_mul_add _ low]
  rcases Nat.lt_trichotomy i 15 with below | same | above
  · rw [if_neg below.ne, if_neg (by omega), if_pos (by omega), lower i (by omega)]
  · subst same
    rw [if_pos rfl, if_pos (by decide), lower 15 (by decide), ra]
    rfl
  · rw [if_neg above.ne', if_pos (by omega), if_neg (by omega)]

/-! ### An iteration -/

theorem srRpt_eq (sr : Word) : srRpt sr = (sr >>> 16).toNat := by
  apply Nat.eq_of_testBit_eq
  intro i
  rw [srRpt, bitsOf_testBit _ _ _ _ (by decide) (by decide), ← BitVec.getLsbD, BitVec.getLsbD_ushiftRight, Nat.add_comm 16 i]
  by_cases word : i + 16 ≤ 31
  · simp [word]
  · simp [word, BitVec.getLsbD_of_ge sr (i + 16) (by omega)]

/-- RPT counts down by one, from 1 to 0. -/
theorem rpt_lowered {sr : Word} (more : 1 ≤ (sr >>> 16).toNat) : (srRpt sr + 0xFFFF) % 0x10000 = (sr >>> 16).toNat - 1 := by
  have bound : (sr >>> 16).toNat < 0x10000 := by
    rw [BitVec.toNat_ushiftRight, Nat.shiftRight_eq_div_pow]
    omega
  rw [srRpt_eq]
  omega

theorem advance_iterates {c : Core} {len : Nat} (repeats : c.repeating = true) (ra : c.sr.getLsbD 15 = true)
    (more : 2 ≤ (c.sr >>> 16).toNat) : advance c len = { c with sr := c.sr - 0x00010000#32 } := by
  rw [advance, if_pos repeats]
  dsimp only
  rw [rpt_lowered (by omega), if_neg (by omega), setRepeat_next ra (by omega)]

theorem advance_ends {c : Core} {len : Nat} (repeats : c.repeating = true) (last : (c.sr >>> 16).toNat = 1) :
    advance c len = { c with sr := c.sr &&& 0x00007FFF#32, pc := c.pc + 1 + BitVec.ofNat 24 len, repeating := false } := by
  rw [advance, if_pos repeats]
  dsimp only
  rw [rpt_lowered (by omega), if_pos (by omega), setRepeat_none]

/-! ### What REP does -/

/-- REP before an instruction that it may carry starts or goes on with the repeat. -/
theorem rep_starts {s : State} {n : Fin 4} {op : BitVec 8} (h : IssuesAlone s n 2) (defined : isDefined op = true)
    (noWait : ¬ (0x01 ≤ op.toNat ∧ op.toNat ≤ 0x07)) (low : ¬ 0x80 ≤ op.toNat) :
    exec (.rep n op) s = .next (setCore s n.val (startRepeat (coreOf s n.val) op)) := by
  have carried : repRefuses op = false := by
    have notCop : ¬ 0xE0 ≤ op.toNat := by omega
    simpa [repRefuses, low, notCop] using noWait
  have known : opcodeTrap s op = none := by
    have notCop : ¬ 0xE0 ≤ op.toNat := by omega
    simp [opcodeTrap, notCop, defined]
  change execRep n op s = _
  rw [execRep, h.alone, if_neg Bool.false_ne_true, issue_issues h.toIssues, carried, known]
  simp only [h.fetched_pc]
  rfl

theorem startRepeat_skips {c : Core} {op : BitVec 8} (fresh : c.sr.getLsbD 15 = false) (zero : c.rc = 0) :
    startRepeat c op = { c with sr := c.sr &&& 0x00007FFF#32, pc := c.pc + if op = 0x13 then 3 else 2 } := by
  have past : c.pc + 1 + BitVec.ofNat 24 (repLength op) = c.pc + if op = 0x13 then 3 else 2 := by
    rw [BitVec.add_assoc, repLength]
    split <;> rfl
  rw [startRepeat, if_neg (Bool.eq_false_iff.mp fresh), if_pos zero, setRepeat_none, past]

theorem startRepeat_loads {c : Core} {op : BitVec 8} (fresh : c.sr.getLsbD 15 = false) (count : c.rc ≠ 0) :
    startRepeat c op = { c with
      sr := (c.sr &&& 0x00007FFF#32) ||| (c.rc.setWidth 32 <<< 16) ||| 0x00008000#32, repeating := true } := by
  rw [startRepeat, if_neg (Bool.eq_false_iff.mp fresh), if_neg count, setRepeat_start]

/-- Settles O25: REP by what it makes of its core, an iteration by `advance`. -/
theorem repeats : Obligations.Repeats := by
  unfold Obligations.Repeats
  refine ⟨fun s n op h defined noWait low => ?_, fun c len repeating ra => ⟨advance_iterates repeating ra, advance_ends repeating⟩⟩
  rw [rep_starts h defined noWait low]
  refine ⟨fun fresh zero => ?_, fun fresh count => ?_, fun goes => ?_⟩
  · rw [startRepeat_skips fresh zero]
  · rw [startRepeat_loads fresh count]
  · rw [startRepeat, if_pos goes]

end Sys2Proof.Machine
end

section
/-! SUPPORT. Frames: what an entry pushes and where it goes, and what RETI takes back (R316, R318 to R323, R325, R361). -/

namespace Sys2Proof.Machine

/-! ### Stores and reads of a frame -/

theorem storeTagged_cores (s : State) (n : Nat) (a : BitVec 24) (w : Tagged) : (storeTagged s n a w).cores = s.cores := by
  unfold storeTagged
  split
  · exact (sramStore_frame _ _ _ _).2.2.1
  · rfl

theorem storeRun_cores (n : Nat) : ∀ (ws : List Tagged) (s : State) (a : BitVec 24), (storeRun s n a ws).cores = s.cores
  | [], _, _ => rfl
  | w :: ws, s, a => (storeRun_cores n ws _ _).trans (storeTagged_cores s n a w)

@[simp] theorem coreOf_storeRun (s : State) (n m : Nat) (a : BitVec 24) (ws : List Tagged) :
    coreOf (storeRun s n a ws) m = coreOf s m := by
  rw [coreOf, storeRun_cores, coreOf]

@[simp] theorem setCore_self (s : State) (n : Nat) : setCore s n (coreOf s n) = s := by
  have same : s.cores.setIfInBounds n (coreOf s n) = s.cores := by
    ext i hi
    rw [Vector.getElem_setIfInBounds]
    split
    · next here =>
      subst here
      rw [coreOf, List.getD_eq_getElem _ _ (by simpa using hi), Vector.getElem_toList]
    · rfl
  exact congrArg (fun cores => { s with cores := cores }) same

/-- A state whose core `n`, as `c`, has pushed the frame of `pc` below `sp` (R323). -/
def framed (s : State) (n : Fin 4) (c : Core) (pc sp : BitVec 24) : State :=
  setCore (storeRun (setCore s n.val c) n.val (sp - 12) (frameWords c pc)) n.val (putReg c rSP (addrWord (sp - 12)))

/-- A state whose core `n`, as `c` with SP below its frame, starts the handler at `a` (R323). -/
def handles (s : State) (n : Fin 4) (c : Core) (sp a : BitVec 24) (sr : Word) : State :=
  setCore s n.val { putReg c rSP (addrWord (sp - 12)) with pc := a, sr := sr, repeating := false, waiting := false }

@[simp] theorem coreOf_framed (s : State) (n : Fin 4) (c : Core) (pc sp : BitVec 24) :
    coreOf (framed s n c pc sp) n.val = putReg c rSP (addrWord (sp - 12)) := coreOf_setCore _ _ _

/-! ### The vector -/

@[simp] theorem addrOf_tagged (t : BitVec 4) (a : BitVec 24) : addrOf (tagged t (a.setWidth 32)) = a := by
  rw [addrOf, payload_tagged]
  simp

theorem readVector_code {u : State} {n v : Nat} {a : BitVec 24} (goes : fetchable n a = true)
    (holds : readRaw u n ((coreOf u n).vtab + BitVec.ofNat 24 v) = (u, some (tagged tagCode (a.setWidth 32)))) :
    readVector u n v = (u, some a) := by
  rw [readVector]
  simp only [holds, tagOf_tagged, payload_tagged, bitsOf_address, addrOf_tagged, goes]
  rfl

/-- The handler's SR (R323). -/
theorem handlerSr_level (sr : Word) {level : Nat} (h : level < 16) :
    handlerSr sr (some level) = (sr &&& 0x00000010#32) ||| BitVec.ofNat 32 level := by
  apply BitVec.eq_of_getLsbD_eq
  intro i word
  have priority : (sr &&& 0x0000001F#32).getLsbD i = (decide (i < 5) && sr.getLsbD i) :=
    lowBits_getLsbD sr (k := 5) (by decide) i
  have enabled : (0x00000010#32).getLsbD i = decide (4 = i) := oneBit_getLsbD (k := 4) (by decide) i
  rw [handlerSr, putBits_getLsbD _ _ _ _ _ (by decide) (by decide), priority, BitVec.getLsbD_or, BitVec.getLsbD_and, enabled,
    BitVec.getLsbD_ofNat]
  by_cases low : i ≤ 3
  · rw [if_pos ⟨Nat.zero_le i, low⟩]
    simp [word, show ¬ 4 = i by omega]
  · have above : level.testBit i = false := Nat.testBit_lt_two_pow (Nat.lt_of_lt_of_le h (Nat.pow_le_pow_right (n := 2) (by decide) (by omega : 4 ≤ i)))
    rw [if_neg fun e => low e.2, above, Bool.and_false, Bool.or_false, Bool.and_comm]
    congr 1
    simp
    omega

theorem enterVector_enters {u : State} {n v : Nat} {a : BitVec 24} {sr : Word} {request : Option (Nat × Nat)}
    {origin : Option (BitVec 24)} (vector : readVector u n v = (u, some a)) :
    enterVector u n v sr request origin = setCore (request.elim u fun r => acknowledge u r.1 n) n
      { coreOf u n with pc := a, sr := handlerSr sr (request.map (·.2)), repeating := false, waiting := false } := by
  unfold enterVector
  rw [vector]
  cases request <;> rfl

/-! ### Entry -/

section
variable {s : State} {n : Fin 4} {pc a sp : BitVec 24} {v : Nat} {request : Option (Nat × Nat)} {origin : Option (BitVec 24)}

/-- An entry whose frame may be stored pushes it. -/
theorem enter_pushes (stack : reg s n rSP = addrWord sp)
    (room : ∀ i < 12, Storable s n rSP (sp - 12 + BitVec.ofNat 24 i)) :
    enter s n.val v pc request origin =
      enterVector (framed s n (coreOf s n.val) pc sp) n.val v (coreOf s n.val).sr request origin := by
  have pointer : regOf (coreOf s n.val) rSP = addrWord sp := stack
  have valid : spValid (coreOf s n.val) = true := by
    rw [spValid, pointer, payload_addrWord, bitsOf_address]
    simp
  have free : ((List.range 12).any fun i => stackBad n.val (coreOf s n.val) (sp - 12 + BitVec.ofNat 24 i)) = false := by
    rw [List.any_eq_false]
    exact fun i hi => Bool.eq_false_iff.mp (room i (List.mem_range.mp hi)).stackBad_false
  unfold enter
  simp only [spOf, pointer, addrOf_addrWord, valid, free]
  rw [framed, setCore_self, coreOf_storeRun]
  rfl

theorem enter_enters (stack : reg s n rSP = addrWord sp) (room : ∀ i < 12, Storable s n rSP (sp - 12 + BitVec.ofNat 24 i))
    (goes : fetchable n.val a = true)
    (holds : readRaw (framed s n (coreOf s n.val) pc sp) n.val ((coreOf s n.val).vtab + BitVec.ofNat 24 v) =
      (framed s n (coreOf s n.val) pc sp, some (tagged tagCode (a.setWidth 32)))) :
    enter s n.val v pc request origin =
      handles (request.elim (framed s n (coreOf s n.val) pc sp) fun r => acknowledge (framed s n (coreOf s n.val) pc sp) r.1 n.val)
        n (coreOf s n.val) sp a (handlerSr (coreOf s n.val).sr (request.map (·.2))) := by
  have vector : readVector (framed s n (coreOf s n.val) pc sp) n.val v = (framed s n (coreOf s n.val) pc sp, some a) :=
    readVector_code goes (by rw [coreOf_framed]; exact holds)
  rw [enter_pushes stack room, enterVector_enters vector, coreOf_framed, handles]

/-- A trap with its cause in TCAUSE and TADDR enters as the core then stands. -/
theorem trapped_enters {d : Core} (same : d.regs = (coreOf s n.val).regs ∧ d.slim = (coreOf s n.val).slim)
    (stack : reg s n rSP = addrWord sp) (room : ∀ i < 12, Storable s n rSP (sp - 12 + BitVec.ofNat 24 i))
    (goes : fetchable n.val a = true)
    (holds : readRaw (framed s n d pc sp) n.val (d.vtab + BitVec.ofNat 24 v) =
      (framed s n d pc sp, some (tagged tagCode (a.setWidth 32)))) :
    enter (setCore s n.val d) n.val v pc none origin = handles (framed s n d pc sp) n d sp a (d.sr &&& 0x0000001F#32) := by
  have core : coreOf (setCore s n.val d) n.val = d := coreOf_setCore _ _ _
  have frame : framed (setCore s n.val d) n d pc sp = framed s n d pc sp := by rw [framed, setCore_setCore, framed]
  have stack' : reg (setCore s n.val d) n rSP = addrWord sp := by
    rw [reg, core, regOf, same.1]
    exact stack
  have room' : ∀ i < 12, Storable (setCore s n.val d) n rSP (sp - 12 + BitVec.ofNat 24 i) := fun i hi => by
    obtain ⟨place, least⟩ := room i hi
    exact ⟨place, fun e => by rw [core, same.2]; exact least e⟩
  have enters := enter_enters (v := v) (pc := pc) (request := none) (origin := origin) stack' room' goes
    (by rw [core, frame]; exact holds)
  rw [core, Option.elim_none, frame] at enters
  exact enters

end

/-- Settles O28: a trap enters with its cause set, an interrupt as the core stands. -/
theorem entryFrame : Obligations.EntryFrame := by
  unfold Obligations.EntryFrame
  intro s n t pc a sp v src level small stack room goes frame pushed entered holds c d
  have trapped (origin : Option (BitVec 24)) (vector : holds (pushed d) d t.vector) :
      enter (setCore s n.val d) n.val t.vector pc none origin = entered (pushed d) d (c.sr &&& 0x0000001F#32) :=
    trapped_enters (d := d) ⟨rfl, rfl⟩ stack room goes vector
  refine ⟨trapped none, fun vector => ?_, fun vector => ?_⟩
  · rw [takeSoftTrap, BitVec.sub_add_cancel]
    exact trapped _ vector
  · rw [enter_enters stack room goes vector, Option.map_some, Option.elim_some, handlerSr_level _ small]
    rfl

/-! ### RETI -/

theorem Holds.stackRead {s : State} {n : Fin 4} {a : BitVec 24} {w : Tagged} (h : Holds s n a w) : stackRead s n a = (s, w) := by
  rw [Machine.stackRead, h.loadWord]

/-- The words of memory from `a` up are those of a list. -/
def HoldsRun (s : State) (n : Fin 4) (a : BitVec 24) (ws : List Tagged) : Prop :=
  ∀ i < ws.length, Holds s n (a + BitVec.ofNat 24 i) (ws.getD i 0)

theorem HoldsRun.head {s : State} {n : Fin 4} {a : BitVec 24} {w : Tagged} {ws : List Tagged} (h : HoldsRun s n a (w :: ws)) :
    Holds s n a w := by
  have first := h 0 (by simp)
  rwa [show a + BitVec.ofNat 24 0 = a from BitVec.add_zero a] at first

theorem HoldsRun.tail {s : State} {n : Fin 4} {a : BitVec 24} {w : Tagged} {ws : List Tagged} (h : HoldsRun s n a (w :: ws)) :
    HoldsRun s n (a + 1) ws := fun i hi => by
  have later := h (i + 1) (by simpa using hi)
  rwa [show a + BitVec.ofNat 24 (i + 1) = a + 1 + BitVec.ofNat 24 i by
    rw [BitVec.add_assoc, Nat.add_comm, BitVec.ofNat_add]; rfl] at later

theorem HoldsRun.stackReads {s : State} {n : Fin 4} : ∀ {ws : List Tagged} {a : BitVec 24}, HoldsRun s n a ws →
    stackReads s n a ws.length = (s, ws)
  | [], _, _ => rfl
  | w :: ws, a, h => by
    rw [List.length_cons, Machine.stackReads]
    rw [h.head.stackRead, h.tail.stackReads]

theorem HoldsRun.loadRunTrap {s : State} {n : Fin 4} : ∀ {ws : List Tagged} {a : BitVec 24}, HoldsRun s n a ws →
    loadRunTrap s n.val a ws.length = none
  | [], _, _ => rfl
  | w :: ws, a, h => by
    rw [List.length_cons, Machine.loadRunTrap, h.head.loadTrap_none]
    exact h.tail.loadRunTrap

/-- RETI from a frame that can be read, with CODE and INT lowest, leaves as the frame says. -/
theorem reti_leaves {s : State} {n : Fin 4} {sp : BitVec 24} {pc sr : Word} {ws : List Tagged} (h : IssuesAlone s n 1)
    (stack : reg s n rSP = addrWord sp) (frame : HoldsRun s n sp (tagged tagCode pc :: intWord sr :: ws))
    (twelve : ws.length = 10) :
    exec (.reti n) s = .next (leaveFrame s n.val (tagged tagCode pc :: intWord sr :: ws)) := by
  have pointer : regOf (coreOf s n.val) rSP = addrWord sp := stack
  have length : (tagged tagCode pc :: intWord sr :: ws).length = 12 := by simp [twelve]
  have reads := frame.stackReads
  have may := frame.loadRunTrap
  rw [length] at reads may
  have code : tagTrap 1 [tagCode] (tagged tagCode pc) = none := tagTrap_none (by simp) (by simp) (by simp)
  change execReti n s = _
  rw [execReti, h.alone, if_neg Bool.false_ne_true, issue_issues h.toIssues]
  simp only [h.fetched_pc, pointer, addrOf_addrWord, tagTrap_addr rfl, firstTrap, may, Option.isSome_none, Bool.false_eq_true,
    if_false, reads, List.getD_cons_zero, List.getD_cons_succ, tagTrap_int rfl, code]

theorem banksOf_intWord (bk : Word) :
    banksOf (intWord bk) = #v[bk.setWidth 8, (bk >>> 8).setWidth 8, (bk >>> 16).setWidth 8, (bk >>> 24).setWidth 8] := by
  simp only [banksOf, payload_intWord, ← BitVec.ofNat_toNat, BitVec.toNat_ushiftRight]

section
variable (c : Core) (r : BitVec 4) (w : Tagged)

@[simp] theorem putReg_pc : (putReg c r w).pc = c.pc := rfl
@[simp] theorem putReg_sr : (putReg c r w).sr = c.sr := rfl
@[simp] theorem putReg_rc : (putReg c r w).rc = c.rc := rfl
@[simp] theorem putReg_bk : (putReg c r w).bk = c.bk := rfl
@[simp] theorem putReg_q : (putReg c r w).q = c.q := rfl
@[simp] theorem putReg_vtab : (putReg c r w).vtab = c.vtab := rfl
@[simp] theorem putReg_slim : (putReg c r w).slim = c.slim := rfl

end

/-- What RETI restores, register by register. -/
theorem restoreFrame_eq (c : Core) (w0 w1 w2 w3 w4 w5 w6 w7 w8 w9 wa wb : Tagged) :
    restoreFrame c [w0, w1, w2, w3, w4, w5, w6, w7, w8, w9, wa, wb] =
      putReg (putReg (putReg (putReg (putReg (putReg (putReg (putReg (putReg
        { c with sr := restoredSr w1, rc := (payload w2).setWidth 16, bk := banksOf w3, pc := addrOf w0 }
        0 w4) 1 w5) 2 w6) 3 w7) 8 w8) 9 w9) 10 wa) 11 wb) 15 (addrWord (addrOf (regOf c 15) + 12)) := by
  have stack : regOf (putReg (putReg (putReg (putReg (putReg (putReg (putReg (putReg
      { c with sr := restoredSr w1, rc := (payload w2).setWidth 16, bk := banksOf w3, pc := addrOf w0 }
      0 w4) 1 w5) 2 w6) 3 w7) 8 w8) 9 w9) 10 wa) 11 wb) 15 = regOf c 15 := by
    simp (disch := decide) only [regOf_putReg_ne]
    rfl
  rw [← stack]
  rfl

/-- Settles O29: the frame is read whole, and each register is the last word put in it. -/
theorem returnFromFrame : Obligations.ReturnFromFrame := by
  unfold Obligations.ReturnFromFrame
  intro s n sp pc sr rc bk w4 w5 w6 w7 w8 w9 wa wb h stack frame alone
  have pointer : addrOf (regOf (coreOf s n.val) 15) = sp := (congrArg addrOf stack).trans (addrOf_addrWord sp)
  have status : restoredSr (intWord sr) = sr &&& 0xFFFF8F1F#32 := by rw [restoredSr, payload_intWord]
  have run : HoldsRun s n sp
    [tagged tagCode (pc.setWidth 32), intWord sr, intWord rc, intWord bk, w4, w5, w6, w7, w8, w9, wa, wb] := frame
  refine ⟨restoreFrame (coreOf s n.val)
    [tagged tagCode (pc.setWidth 32), intWord sr, intWord rc, intWord bk, w4, w5, w6, w7, w8, w9, wa, wb],
    (reti_leaves h stack run rfl).trans ?_, ?_⟩
  · rw [leaveFrame, List.getD_cons_succ, List.getD_cons_zero, status, alone]
  · rw [restoreFrame_eq, pointer]
    simp (disch := decide) only [putReg_pc, putReg_sr, putReg_rc, putReg_bk, putReg_q, putReg_vtab, putReg_slim,
      regOf_putReg_ne, regOf_putReg_same, addrOf_tagged, status, payload_intWord, banksOf_intWord, true_and, and_true]
    intro r kept
    have apart : r ≠ 0 ∧ r ≠ 1 ∧ r ≠ 2 ∧ r ≠ 3 ∧ r ≠ 8 ∧ r ≠ 9 ∧ r ≠ 10 ∧ r ≠ 11 ∧ r ≠ 15 := by
      revert r
      decide
    obtain ⟨r0, r1, r2, r3, r8, r9, r10, r11, r15⟩ := apart
    simp only [regOf_putReg_ne r0.symm, regOf_putReg_ne r1.symm, regOf_putReg_ne r2.symm, regOf_putReg_ne r3.symm,
      regOf_putReg_ne r8.symm, regOf_putReg_ne r9.symm, regOf_putReg_ne r10.symm, regOf_putReg_ne r11.symm,
      regOf_putReg_ne r15.symm]
    rfl

end Sys2Proof.Machine
end

section
/-! SUPPORT. The answer to a core's read over the bridge (R38, R301, R304, R313). -/

namespace Sys2Proof.Machine

/-- An answer to a source's read of a target. -/
def answersRead (src : Src) (target : Target) : Msg → Bool
  | .readResponse x t _ _ => decide (x = src) && decide (t = target)
  | _ => false

theorem answersRead_iff {src : Src} {target : Target} {m : Msg} :
    answersRead src target m = true ↔ ∃ d f, m = .readResponse src target d f := by
  cases m <;> simp [answersRead]

/-- The oldest answer to a source's read of a target is taken, and leaves the receive buffer (R38). -/
theorem takeAnswer_oldest {s : State} {src : Src} {target : Target} {older newer : List Msg} {data : List Byte} {failed : Bool}
    (arrived : s.bridge.toHouse.arrived = older ++ .readResponse src target data failed :: newer)
    (none : ∀ d f, Msg.readResponse src target d f ∉ older) :
    takeAnswer s src target = some (setArrivedHouse s (older ++ newer), data, failed) := by
  have other : older.find? (answersRead src target) = .none :=
    List.find?_eq_none.mpr fun m hm hit => by
      obtain ⟨d, f, rfl⟩ := answersRead_iff.mp hit
      exact none d f hm
  have oldest : s.bridge.toHouse.arrived.find? (answersRead src target) = some (.readResponse src target data failed) := by
    rw [arrived, List.find?_append, other, Option.none_or,
      List.find?_cons_of_pos (answersRead_iff.mpr ⟨data, failed, rfl⟩)]
  have rest : s.bridge.toHouse.arrived.erase (.readResponse src target data failed) = older ++ newer := by
    rw [arrived, List.erase_append_right _ (none _ _), List.erase_cons_head]
  unfold takeAnswer
  dsimp only
  split
  · next found =>
    cases found.symm.trans oldest
    rw [rest]
  · next missing => exact absurd oldest (missing _ _ _ _)

/-- Settles O30: the answer is taken, and its word goes to the register by `useWord`. -/
theorem loadReturns : Obligations.LoadReturns := by
  unfold Obligations.LoadReturns
  intro s n r w b older newer data failed stalled use toV arrived none word
  have answer := takeAnswer_oldest arrived none
  refine congrArg Host.Outcome.next ?_
  rw [loadReturn, stalled]
  dsimp only
  rw [answer]
  dsimp only
  rw [use, useWord, if_neg Bool.false_ne_true, writeResult_fits (fits_v toV _)]
  exact setCore_setCore _ _ _ _

end Sys2Proof.Machine
end

section
/-! SUPPORT. Writes of house registers that act beyond their fields, and interrupt edges: pending bits, coalescing, forced edges and
wake latches (R12, R357, R358, R362, R364, R366). -/

namespace Sys2Proof.Machine

/-! ### A write of a house register by its fields -/

/-- The state in which a write by access code has stored its fields and counted what it must (R12 to R14). -/
def fieldsWritten (s : State) (r : RegSpec) (a : Nat) (w : Word) : State :=
  countIf (setRegWord s a (writeWord s.variant r.fields (regWord s a) w).1) (writeWord s.variant r.fields (regWord s a) w).2

theorem fieldsWritten_reported (s : State) (r : RegSpec) (a : Nat) (w : Word) :
    Reported [a, HS_RSVWR] s (fieldsWritten s r a w) :=
  ((Reported.refl _ s).setRegWord (List.mem_cons_self ..) _).countIf (by simp) _

theorem fieldsWritten_hic (s : State) (r : RegSpec) (a : Nat) (w : Word) : (fieldsWritten s r a w).hic = s.hic := by
  unfold fieldsWritten countIf countReserved
  dsimp only
  repeat' split
  all_goals rfl

theorem countOnce_hic (s x : State) : (countOnce s x).hic = x.hic := by
  unfold countOnce
  dsimp only
  split <;> rfl

/-- A field that takes any value holds what was written. -/
theorem fieldsWritten_field {s : State} {r : RegSpec} {idx : List Nat} {a : Nat} {w : Word} {f : Fld} {g : FieldSpec}
    (spec : regSpecAt a = some (r, idx)) (count : a ≠ HS_RSVWR) (own : f.addr = a) (among : g ∈ r.fields) (hi : g.hi = f.hi)
    (lo : g.lo = f.lo) (access : g.access = .rw) (allow : g.allow = .any) :
    getF (fieldsWritten s r a w) f = bitsOf w f.hi f.lo := by
  have field := writeWord_field (v := s.variant) (regSpecAt_ok spec) (regWord s a) w g among
  simp only [hi, lo, fieldAfter, access, allow, allowed, if_true] at field
  rw [getF, own, fieldsWritten, countIf_regWord count, regWord_setRegWord_same]
  exact field

/-- A write of a register below the dictionary's, the pads' and the scan die's, that goes field by field. -/
theorem rowWrite_house {s : State} {src : Src} {a : Nat} {w : Word} {r : RegSpec} {idx : List Nat} (on : houseOn s = true)
    (low : a < 0x104000) (spec : regSpecAt a = some (r, idx)) (present : registerPresent s.variant r idx = true)
    (early : r.hook ≠ .hsRsvwr) (special : specialWrite s src r idx a w = none) :
    rowWrite s src a w =
      .next (countOnce s (afterHouseWrite s (fieldsWritten s r a w) src r.hook (idx.headD 0) a w)) := by
  have house : isScanAddr a = false := by
    simp only [isScanAddr, decide_eq_false_iff_not]
    omega
  have pad : isPadBlock a = false := by
    simp only [isPadBlock, Bool.and_eq_false_iff, decide_eq_false_iff_not]
    omega
  have lock : breakLockSequence s src a = s := by rw [breakLockSequence, pad, if_neg Bool.false_ne_true]
  have fields : writeFields s r idx a w = fieldsWritten s r a w := writeFields_present present
  have answer : a ≠ HS_ODFWANS := by unfold HS_ODFWANS; omega
  have go : a ≠ HS_ODCTL := by unfold HS_ODCTL; omega
  rw [rowWrite, house, if_neg Bool.false_ne_true, whenHouse_on on]
  simp only [regWrite, answer, go, if_false, decide_false, Bool.false_and, Bool.false_eq_true, regWriteBase, spec, present,
    if_true, writeRegister, beforeWrite_other early, lock, ite_self, special, fields, house]

/-! ### Pending bits -/

theorem pend_ne_stat {k : Nat} (source : k < 256) : HIC_PEND (k / 32) ≠ HIC_STAT := by
  unfold HIC_PEND HIC_STAT
  omega

theorem setPending_hic (s : State) (k : Nat) : (setPending s k).hic = s.hic := by
  unfold setPending
  split <;> rfl

/-- An edge makes its source pending, or finds it so (R358). -/
theorem isPending_setPending (s : State) {k : Nat} (source : k < 256) : isPending (setPending s k) k = true := by
  have bit : k % 32 < 32 := Nat.mod_lt _ (by decide)
  cases pending : isPending s k
  · rw [setPending, pending, if_neg Bool.false_ne_true, isPending, regWord_setRegWord_same]
    simp [bit]
  · rw [setPending, pending, if_pos rfl, isPending, regWord_setF_ne' rfl (pend_ne_stat source), countF,
      regWord_setF_ne' rfl (pend_ne_stat source)]
    exact pending

theorem setPending_merges {s : State} {k : Nat} (source : k < 256) (pending : isPending s k = true) :
    getF (setPending s k) HIC_STAT_LASTMERGE = k ∧
      getF (setPending s k) HIC_STAT_MERGED = min 0xFFFF (getF s HIC_STAT_MERGED + 1) := by
  rw [setPending, if_pos pending, getF_setF_same _ _ _ (by decide), getF_setF_ne _ _ _ _ (by decide) (by decide) (by decide),
    getF_countF_same _ _ _ (by decide), Nat.min_comm]
  exact ⟨Nat.mod_eq_of_lt source, rfl⟩

theorem setPending_stat {s : State} {k : Nat} (source : k < 256) (idle : isPending s k = false) :
    regWord (setPending s k) HIC_STAT = regWord s HIC_STAT := by
  rw [setPending, idle, if_neg Bool.false_ne_true]
  exact regWord_setRegWord_ne _ _ _ _ (pend_ne_stat source).symm

/-! ### Edges that sources hold (R362, R365) -/

/-- A source holds its edges until their count or their time is reached. -/
abbrev Coalesces (s : State) (k : Nat) : Prop := 1 < coalesceCount s k ∨ getF s (HIC_SRCCFG_CTIME k) ≠ 0

/-- The state in which an edge has been taken from those that wait. -/
def edgeTaken (s : State) (k : Nat) : State := { s with hic := { s.hic with edges := s.hic.edges.erase k } }

/-- The state in which a source holds `count` edges. -/
def withHeld (s : State) (k count : Nat) : State := { s with hic := { s.hic with held := sput s.hic.held 0 k count } }

theorem heldEdges_withHeld (s : State) (k count : Nat) : heldEdges (withHeld s k count) k = count := sget_sput_same _ _ _ _

theorem takeEdge_none {s : State} {k : Nat} (none : k ∉ s.hic.edges) : takeEdge s k = s := by
  rw [takeEdge, if_neg (by simpa using none)]

theorem takeEdge_present {s : State} {k : Nat} (waits : k ∈ s.hic.edges) (present : sourcePresent s k = true) :
    takeEdge s k = if Coalesces s k then releaseReached (withHeld (edgeTaken s k) k (heldEdges s k + 1)) k
      else setPending (edgeTaken s k) k := by
  have there : sourcePresent (edgeTaken s k) k = true := present
  rw [takeEdge, if_pos (by simpa using waits)]
  change hicEdge (edgeTaken s k) k = _
  rw [hicEdge, there, Bool.not_true, if_neg Bool.false_ne_true]
  have asks : (decide (1 < coalesceCount (edgeTaken s k) k) || getF (edgeTaken s k) (HIC_SRCCFG_CTIME k) != 0) = true ↔
      Coalesces s k := by
    rw [Bool.or_eq_true, decide_eq_true_eq, bne_iff_ne]
    rfl
  by_cases holds : Coalesces s k
  · rw [if_pos holds, if_pos (asks.mpr holds)]
    rfl
  · rw [if_neg holds, if_neg (asks.not.mpr holds)]

theorem releaseEdges_releases {s : State} {k : Nat} (source : k < 256) (some' : heldEdges s k ≠ 0) :
    heldEdges (releaseEdges s k) k = 0 ∧ isPending (releaseEdges s k) k = true := by
  have releases : releaseEdges s k = setPending (withHeld s k 0) k := if_neg some'
  have hic : (setPending (withHeld s k 0) k).hic = (withHeld s k 0).hic := setPending_hic _ _
  rw [releases, heldEdges, hic]
  exact ⟨heldEdges_withHeld s k 0, isPending_setPending _ source⟩

theorem releaseReached_waits {s : State} {k : Nat} (below : heldEdges s k < coalesceCount s k)
    (time : getF s (HIC_SRCCFG_CUNIT k) = 0 ∨ getF s (HIC_SRCCFG_CTIME k) = 0) : releaseReached s k = s := by
  have lines : countsLines s k = false := by
    rw [countsLines, flag]
    rcases time with zero | zero <;> simp [zero]
  rw [releaseReached, lines, decide_eq_false (Nat.not_le.mpr below)]
  rfl

theorem releaseReached_releases {s : State} {k : Nat} (reached : coalesceCount s k ≤ heldEdges s k) :
    releaseReached s k = releaseEdges s k := by
  rw [releaseReached, decide_eq_true reached]
  rfl

/-! ### What an edge and a time do at a source -/

section
variable {s : State} {n : BitVec 8}

theorem sourceEdge_answers (on : houseOn s = true) : exec (.hicSourceEdge n) s = .next (takeEdge s n.toNat) := whenHouse_on on _

/-- Without coalescing an edge goes to the pending bit (R358). -/
theorem sourceEdge_pends (on : houseOn s = true) (waits : n.toNat ∈ s.hic.edges) (present : sourcePresent s n.toNat = true)
    (plain : ¬ Coalesces s n.toNat) :
    exec (.hicSourceEdge n) s = .next (setPending (edgeTaken s n.toNat) n.toNat) := by
  rw [sourceEdge_answers on, takeEdge_present waits present, if_neg plain]

/-- With coalescing it is held, and released where that reaches the count (R362). -/
theorem sourceEdge_holds (on : houseOn s = true) (waits : n.toNat ∈ s.hic.edges) (present : sourcePresent s n.toNat = true)
    (holds : Coalesces s n.toNat) : exec (.hicSourceEdge n) s =
      .next (releaseReached (withHeld (edgeTaken s n.toNat) n.toNat (heldEdges s n.toNat + 1)) n.toNat) := by
  rw [sourceEdge_answers on, takeEdge_present waits present, if_pos holds]

theorem sourceEdge_setsPending (on : houseOn s = true) (waits : n.toNat ∈ s.hic.edges) (present : sourcePresent s n.toNat = true)
    (plain : ¬ Coalesces s n.toNat) (idle : isPending s n.toNat = false) :
    Answers (.hicSourceEdge n) s fun t => isPending t n.toNat = true ∧ t.hic.edges = s.hic.edges.erase n.toNat ∧
      regWord t HIC_STAT = regWord s HIC_STAT :=
  ⟨_, sourceEdge_pends on waits present plain, isPending_setPending _ n.isLt,
    congrArg (·.edges) (setPending_hic (edgeTaken s n.toNat) n.toNat), setPending_stat (s := edgeTaken s n.toNat) n.isLt idle⟩

theorem sourceEdge_merges (on : houseOn s = true) (waits : n.toNat ∈ s.hic.edges) (present : sourcePresent s n.toNat = true)
    (plain : ¬ Coalesces s n.toNat) (pending : isPending s n.toNat = true) :
    Answers (.hicSourceEdge n) s fun t => isPending t n.toNat = true ∧ t.hic.edges = s.hic.edges.erase n.toNat ∧
      getF t HIC_STAT_LASTMERGE = n.toNat ∧ getF t HIC_STAT_MERGED = min 0xFFFF (getF s HIC_STAT_MERGED + 1) :=
  ⟨_, sourceEdge_pends on waits present plain, isPending_setPending _ n.isLt,
    congrArg (·.edges) (setPending_hic (edgeTaken s n.toNat) n.toNat), setPending_merges (s := edgeTaken s n.toNat) n.isLt pending⟩

/-- Below the count, and where no line count releases it, a coalesced edge is held (R362). -/
theorem sourceEdge_waits (on : houseOn s = true) (waits : n.toNat ∈ s.hic.edges) (present : sourcePresent s n.toNat = true)
    (holds : Coalesces s n.toNat) (below : heldEdges s n.toNat + 1 < coalesceCount s n.toNat)
    (time : getF s (HIC_SRCCFG_CUNIT n.toNat) = 0 ∨ getF s (HIC_SRCCFG_CTIME n.toNat) = 0) :
    Answers (.hicSourceEdge n) s fun t =>
      heldEdges t n.toNat = heldEdges s n.toNat + 1 ∧ isPending t n.toNat = isPending s n.toNat := by
  have held := heldEdges_withHeld (edgeTaken s n.toNat) n.toNat (heldEdges s n.toNat + 1)
  have stays := releaseReached_waits (s := withHeld (edgeTaken s n.toNat) n.toNat (heldEdges s n.toNat + 1))
    (held.trans_lt below) time
  exact ⟨_, (sourceEdge_holds on waits present holds).trans (congrArg _ stays), held, rfl⟩

/-- At the count the held edges are released (R362). -/
theorem sourceEdge_releases (on : houseOn s = true) (waits : n.toNat ∈ s.hic.edges) (present : sourcePresent s n.toNat = true)
    (holds : Coalesces s n.toNat) (reached : coalesceCount s n.toNat ≤ heldEdges s n.toNat + 1) :
    Answers (.hicSourceEdge n) s fun t => heldEdges t n.toNat = 0 ∧ isPending t n.toNat = true := by
  have held := heldEdges_withHeld (edgeTaken s n.toNat) n.toNat (heldEdges s n.toNat + 1)
  have releases := releaseReached_releases (s := withHeld (edgeTaken s n.toNat) n.toNat (heldEdges s n.toNat + 1))
    (reached.trans_eq held.symm)
  exact ⟨_, (sourceEdge_holds on waits present holds).trans (congrArg _ releases),
    releaseEdges_releases n.isLt (held.trans_ne (Nat.succ_ne_zero _))⟩

theorem coalesceTimeout_releases (on : houseOn s = true) (timed : getF s (HIC_SRCCFG_CTIME n.toNat) ≠ 0) :
    exec (.coalesceTimeout n) s = .next (releaseEdges s n.toNat) :=
  (whenHouse_on on fun s => coalesceTimeout s n.toNat).trans (congrArg _ (if_neg timed))

theorem coalesceTimeout_idle (on : houseOn s = true)
    (idle : getF s (HIC_SRCCFG_CTIME n.toNat) = 0 ∨ heldEdges s n.toNat = 0) : exec (.coalesceTimeout n) s = .next s := by
  refine (whenHouse_on on fun s => coalesceTimeout s n.toNat).trans (congrArg _ ?_)
  rw [coalesceTimeout]
  split
  · rfl
  · next timed => exact if_pos (idle.resolve_left timed)

end

/-! ### Forced edges -/

theorem hicForce_hic (w : Nat) (v : Word) : ∀ (bits : List Nat) (s : State),
    (bits.foldl (fun s b => if v.getLsbD b then { s with hic := { s.hic with edges := s.hic.edges ++ [32 * w + b] } } else s)
      s).hic.edges = s.hic.edges ++ (bits.filter fun b => v.getLsbD b).map fun b => 32 * w + b
  | [], s => by simp
  | b :: bits, s => by
    rw [List.foldl_cons, hicForce_hic w v bits]
    cases forced : v.getLsbD b <;> simp [forced]

theorem regSpecAt_hicForce (i : Fin 8) : ∃ r, regSpecAt (HIC_FORCE i.val) = some (r, [i.val]) ∧ r.presence = .always ∧
    r.hook = .hicForce := by
  fin_cases i <;> exact ⟨_, rfl, rfl, rfl⟩

/-- Each bit written as 1 is an edge on its source (R366). -/
theorem hicForce_edges {s : State} (on : houseOn s = true) (src : Src) (word : Fin 8) (val : Word) :
    Answers (.hicForce src word val) s fun t => t.hic.edges =
      s.hic.edges ++ ((List.range 32).filter fun b => val.getLsbD b).map fun b => 32 * word.val + b := by
  obtain ⟨r, spec, presence, hook⟩ := regSpecAt_hicForce word
  have low : HIC_FORCE word.val < 0x104000 := by
    have := word.isLt
    unfold HIC_FORCE
    omega
  have write := rowWrite_house (src := src) (w := val) on low spec (by simp [registerPresent, presence]) (by rw [hook]; decide)
    (by simp only [specialWrite, hook])
  refine ⟨_, write, ?_⟩
  dsimp only
  rw [countOnce_hic, hook]
  refine (hicForce_hic word.val val _ _).trans ?_
  rw [fieldsWritten_hic]

/-! ### Wake latches -/

/-- An enabled latch catches the edge of its source (R364). -/
theorem latchWake_latches (z : State) (w : Fin 32) (i : Nat) : bitAt (getF (latchWake z w.val) HIC_WAKELAT_LAT) i =
    (bitAt (getF z HIC_WAKELAT_LAT) i || (decide (i = w.val) && bitAt (getF z HIC_WAKEEN_EN) i)) := by
  have width : 2 ^ w.val < 2 ^ 32 := Nat.pow_lt_pow_right (by decide) w.isLt
  unfold latchWake
  by_cases same : i = w.val
  · subst same
    split
    · next enabled =>
      rw [getF_orF_same _ _ _ (by decide) width, enabled, bitAt, Nat.testBit_or, Nat.testBit_two_pow_self]
      simp
    · next off => simp [off]
  · have apart : (2 ^ w.val).testBit i = false := Nat.testBit_two_pow_of_ne (Ne.symm same)
    split
    · rw [getF_orF_same _ _ _ (by decide) width, bitAt, Nat.testBit_or, apart]
      simp [same, bitAt]
    · simp [same]

theorem wakeLatch_caught {z : State} {w : Fin 32} {rising : Bool}
    (caught : (z.power.island && z.hic.clocksStopped && wakeDefined z w.val rising) = true) :
    exec (.wakeLatch ⟨w, rising⟩) z = .next (latchWake z w.val) := congrArg Host.Outcome.next (if_pos caught)

theorem wakeLatch_missed {z : State} {w : Fin 32} {rising : Bool}
    (missed : (z.power.island && z.hic.clocksStopped && wakeDefined z w.val rising) = false) :
    exec (.wakeLatch ⟨w, rising⟩) z = .next z := congrArg Host.Outcome.next (if_neg (Bool.eq_false_iff.mp missed))

end Sys2Proof.Machine
end

section
/-! SUPPORT. Control of the cores: a write of HS_CORECTL resets the cores that it names and gives every RUN bit its value (R306,
R327, R329, R330). -/

namespace Sys2Proof.Machine

/-! ### Cores are reset -/

/-- A core's own copy of a register is none of the registers that the cores share. -/
theorem coreKey_ne {k n a : Nat} (shared : k < 0x1000000) : k ≠ coreKey n a := by
  unfold coreKey
  omega

/-- What sees none of a core's own copies is kept as they are reset. -/
theorem resetCopies_view {α : Type} (f : State → α) (n : Nat) (blind : ∀ u a, f (resetReg u (coreKey n a)) = f u) :
    ∀ (l : List Nat) (u : State), f (l.foldl (fun u i => resetReg u (coreKey n (HS_DWIN i))) u) = f u
  | [], _ => rfl
  | _ :: l, u => (resetCopies_view f n blind l _).trans (blind u _)

/-- Of the shared registers a reset of a core reaches LOCKED alone. -/
theorem resetCore_regWord (s : State) (n : Nat) {k : Nat} (shared : k < 0x1000000) : regWord (resetCore s n) k =
    regWord (setF s HS_CORESTAT_LOCKED (getF s HS_CORESTAT_LOCKED &&& (15 - 2 ^ n))) k := by
  have blind (u : State) (a : Nat) : regWord (resetReg u (coreKey n a)) k = regWord u k :=
    regWord_resetReg_ne _ _ _ (coreKey_ne shared)
  exact (resetCopies_view (regWord · k) n blind _ _).trans (blind _ _)

/-- Registers and cores are all that it reaches. -/
theorem resetCore_rest (s : State) (n : Nat) (r : SMap Word) (c : Vector Core 4) :
    { resetCore s n with regs := r, cores := c } = { s with regs := r, cores := c } :=
  resetCopies_view (fun u : State => { u with regs := r, cores := c }) n (fun _ _ => rfl) _ _

theorem coreOf_resetCore (s : State) (n m : Nat) : coreOf (resetCore s n) m = if n = m ∧ m < 4 then
    Core.reset (BitVec.ofNat 24 (getF s (HS_CORESTART_START n))) else coreOf s m :=
  (resetCopies_view (coreOf · m) n (fun _ _ => rfl) _ _).trans (toList_getD_setIfInBounds _ _ _ _ _)

/-- From `s` to `t` the cores that `gone` names have been reset: each stands at its START address out of lockup, the others stand
as before, and beside LOCKED the cores' own copies of registers alone change. -/
structure CoresReset (s t : State) (gone : Nat → Bool) : Prop where
  core : ∀ m < 4, coreOf t m = if gone m then Core.reset (BitVec.ofNat 24 (getF s (HS_CORESTART_START m))) else coreOf s m
  locked : ∀ m < 4, coreLocked t m = (coreLocked s m && !gone m)
  regs : ∀ k, k < 0x1000000 → k ≠ HS_CORESTAT → regWord t k = regWord s k
  rest : { t with regs := s.regs, cores := s.cores } = s

namespace CoresReset

variable {s t : State} {gone : Nat → Bool}

theorem refl (s : State) : CoresReset s s fun _ => false :=
  ⟨fun _ _ => rfl, fun _ _ => (Bool.and_true _).symm, fun _ _ _ => rfl, rfl⟩

/-- What sees neither registers nor cores is kept. -/
theorem view {α : Type} (h : CoresReset s t gone) (f : State → α)
    (blind : ∀ x r c, f { x with regs := r, cores := c } = f x) : f t = f s := by
  rw [← blind t s.regs s.cores, h.rest]

theorem getF (h : CoresReset s t gone) {f : Fld} (shared : f.addr < 0x1000000) (other : f.addr ≠ HS_CORESTAT) :
    getF t f = getF s f := getF_congr (h.regs _ shared other)

/-- LOCKED without the bit of a core. -/
theorem unlocked_testBit (mask : Nat) {n m : Nat} (hn : n < 4) (hm : m < 4) :
    (mask &&& (15 - 2 ^ n)).testBit m = (mask.testBit m && !decide (m = n)) := by
  have bits : ∀ n < 4, ∀ m < 4, (15 - 2 ^ n).testBit m = !decide (m = n) := by decide
  rw [Nat.testBit_and, bits n hn m hm]

theorem resetCore (h : CoresReset s t gone) {n : Nat} (hn : n < 4) :
    CoresReset s (resetCore t n) fun m => gone m || decide (m = n) := by
  have shared : HS_CORESTART n < 0x1000000 ∧ HS_CORESTART n ≠ HS_CORESTAT := by
    unfold HS_CORESTART HS_CORESTAT
    omega
  have start : Machine.getF t (HS_CORESTART_START n) = Machine.getF s (HS_CORESTART_START n) := h.getF shared.1 shared.2
  refine ⟨fun m hm => ?_, fun m hm => ?_, fun k shared other => ?_,
    (resetCore_rest t n _ _).trans h.rest⟩
  · rw [coreOf_resetCore, start]
    by_cases same : m = n
    · subst same
      simp [hm]
    · rw [if_neg fun e => same e.1.symm, h.core m hm]
      simp [same]
  · have own : Machine.getF (Machine.resetCore t n) HS_CORESTAT_LOCKED =
        Machine.getF t HS_CORESTAT_LOCKED &&& (15 - 2 ^ n) := by
      rw [Machine.getF, resetCore_regWord t n (by decide)]
      refine (getF_setF_same t HS_CORESTAT_LOCKED _ (by decide)).trans (Nat.mod_eq_of_lt ?_)
      exact Nat.lt_of_le_of_lt Nat.and_le_left (getF_lt t HS_CORESTAT_LOCKED (by decide))
    rw [coreLocked, own, bitAt, unlocked_testBit _ hn hm, Bool.not_or, ← Bool.and_assoc]
    exact congrArg (· && !decide (m = n)) (h.locked m hm)
  · rw [resetCore_regWord t n shared, regWord_setF_ne' rfl other, h.regs k shared other]

/-- The RESET bits of a word, one core after another. -/
theorem resets (s : State) (w : Word) : ∀ k ≤ 4,
    CoresReset s ((List.range k).foldl (fun s n => if w.getLsbD (8 + n) then Machine.resetCore s n else s) s)
      fun m => decide (m < k) && w.getLsbD (8 + m)
  | 0, _ => refl s
  | k + 1, hk => by
    have before := resets s w k (Nat.le_of_succ_le hk)
    rw [List.range_succ, List.foldl_append, List.foldl_cons, List.foldl_nil]
    split
    · next asked =>
      have named : (fun m => decide (m < k + 1) && w.getLsbD (8 + m)) =
          fun m => (decide (m < k) && w.getLsbD (8 + m)) || decide (m = k) := by
        funext m
        by_cases last : m = k
        · subst last
          simp [asked]
        · simp [last, show m < k + 1 ↔ m < k by omega]
      rw [named]
      exact before.resetCore (by omega)
    · next spared =>
      have named : (fun m => decide (m < k + 1) && w.getLsbD (8 + m)) = fun m => decide (m < k) && w.getLsbD (8 + m) := by
        funext m
        by_cases last : m = k
        · subst last
          simp [spared]
        · simp [show m < k + 1 ↔ m < k by omega]
      rw [named]
      exact before

end CoresReset

/-! ### What a write of HS_CORECTL leaves -/

theorem BridgeOnly.reported {s t : State} (h : BridgeOnly s t) (as : List Nat) : Reported as s t :=
  ⟨h.view (fun x => { x with regs := s.regs, hic := s.hic, recorder := s.recorder, bridge := s.bridge }) fun _ _ => rfl,
    fun k _ => h.regWord k⟩

/-- The report of "house locked" is a message over the bridge, or is counted as discarded (R51, R327). -/
theorem reportLocked_reported (s : State) : Reported [HS_BRERR] s (reportLocked s) := by
  unfold reportLocked issueToScan
  split
  · split
    · exact (Reported.refl _ s).countF (f := HS_BRERR_DROPPED) (List.mem_singleton_self _) 1
    · exact (sendToScan_only s _).reported _
  · exact Reported.refl _ s

theorem coreControl_resets (old s : State) (w : Word) :
    ∃ u, CoresReset s u (fun m => decide (m < 4) && w.getLsbD (8 + m)) ∧ Reported [HS_BRERR] u (coreControl old s w) := by
  refine ⟨_, CoresReset.resets s w 4 (Nat.le_refl 4), ?_⟩
  unfold coreControl
  dsimp only
  split
  · exact Reported.refl _ _
  · exact reportLocked_reported _

theorem regSpecAt_coreCtl : ∃ r, regSpecAt HS_CORECTL = some (r, []) ∧ r.presence = .always ∧ r.hook = .coreCtl ∧
    ∃ g ∈ r.fields, g.hi = 3 ∧ g.lo = 0 ∧ g.access = .rw ∧ g.allow = .any :=
  ⟨_, rfl, rfl, rfl, ⟨"RUN", 3, 0, .rw, 1, .any⟩, by decide, rfl, rfl, rfl, rfl⟩

/-- What a write of HS_CORECTL leaves of the cores (R329, R330). -/
structure Controlled (s t : State) (w : Word) : Prop where
  core : ∀ m < 4, coreOf t m =
    if w.getLsbD (8 + m) then Core.reset (BitVec.ofNat 24 (getF s (HS_CORESTART_START m))) else coreOf s m
  locked : ∀ m < 4, coreLocked t m = (coreLocked s m && !w.getLsbD (8 + m))
  run : getF t HS_CORECTL_RUN = bitsOf w 3 0
  clocked : coresClocked t = coresClocked s

theorem coreCtl_controls {s : State} (on : houseOn s = true) (src : Src) (w : Word) :
    ∃ t, rowWrite s src HS_CORECTL w = .next t ∧ Controlled s t w := by
  obtain ⟨r, spec, presence, hook, g, among, hi, lo, access, allow⟩ := regSpecAt_coreCtl
  have write := rowWrite_house (src := src) (w := w) on (by decide) spec (by simp [registerPresent, presence])
    (by rw [hook]; decide) (by simp only [specialWrite, hook])
  have stored := fieldsWritten_reported s r HS_CORECTL w
  have run : getF (fieldsWritten s r HS_CORECTL w) HS_CORECTL_RUN = bitsOf w 3 0 :=
    fieldsWritten_field spec (by decide) rfl among hi lo access allow
  simp only [hook, afterHouseWrite] at write
  generalize fieldsWritten s r HS_CORECTL w = x at write stored run
  obtain ⟨u, resets, told⟩ := coreControl_resets s x w
  have ends : Reported [HS_BRERR, HS_RSVWR] u (countOnce s (coreControl s x w)) :=
    (told.mono (by simp)).trans ((countOnce_reported s _).mono (by simp))
  refine ⟨_, write, fun m hm => ?_, fun m hm => ?_, ?_, ?_⟩
  · have start : getF x (HS_CORESTART_START m) = getF s (HS_CORESTART_START m) := by
      refine stored.getF ?_
      show HS_CORESTART m ∉ [HS_CORECTL, HS_RSVWR]
      unfold HS_CORESTART HS_CORECTL HS_RSVWR
      simp
      omega
    rw [ends.view (coreOf · m) fun _ _ _ _ _ => rfl, resets.core m hm, start,
      stored.view (coreOf · m) fun _ _ _ _ _ => rfl, decide_eq_true hm, Bool.true_and]
  · have locked : coreLocked x m = coreLocked s m := congrArg (bitAt · m) (stored.getF (by decide))
    refine (congrArg (bitAt · m) (ends.getF (f := HS_CORESTAT_LOCKED) (by decide))).trans ((resets.locked m hm).trans ?_)
    rw [locked, decide_eq_true hm, Bool.true_and]
  · rw [ends.getF (by decide), resets.getF (by decide) (by decide), run]
  · have power : ∀ {y z : State}, z.power = y.power → getF z HS_PWRSTAT_STATE = getF y HS_PWRSTAT_STATE →
        coresClocked z = coresClocked y := fun same state => by rw [coresClocked, same, state, coresClocked]
    exact (power (ends.view (·.power) fun _ _ _ _ _ => rfl) (ends.getF (by decide))).trans
      ((power (resets.view (·.power) fun _ _ _ => rfl) (resets.getF (by decide) (by decide))).trans
      (power (stored.view (·.power) fun _ _ _ _ _ => rfl) (stored.getF (by decide))))

/-! ### RUN and HALTED -/

theorem coreRun_testBit {t : State} {w : Word} (run : getF t HS_CORECTL_RUN = bitsOf w 3 0) (m : Fin 4) :
    coreRun t m.val = w.getLsbD m.val := by
  have low : m.val + 0 ≤ 3 := by omega
  rw [coreRun, run, bitAt, bitsOf_testBit _ _ _ _ (by decide) (by decide), decide_eq_true low]
  rfl

/-- HALTED as HS_CORESTAT reads, core by core (R329). -/
theorem coreStatWord_halted (t : State) (m : Fin 4) : (coreStatWord t).getLsbD (4 + m.val) = coreHalted t m.val := by
  have bits : ∀ (b0 b1 b2 b3 : Bool) (m : Fin 4),
      (0 + b2n b0 * 2 ^ 0 + b2n b1 * 2 ^ 1 + b2n b2 * 2 ^ 2 + b2n b3 * 2 ^ 3).testBit m.val = [b0, b1, b2, b3][m.val] := by
    decide
  rw [coreStatWord, putBits_getLsbD _ _ _ _ _ (by decide) (by decide), if_pos (by omega), Nat.add_sub_cancel_left]
  refine (bits (coreHalted t 0) (coreHalted t 1) (coreHalted t 2) (coreHalted t 3) m).trans ?_
  fin_cases m <;> rfl

/-! ### The two rows -/

/-- The word differs in the core's bit of the field alone. -/
theorem coreBit_getLsbD (val : Word) {f : Fld} {core : Fin 4} (room : f.lo ≤ 8) (on : Bool) (i : Nat) :
    (coreBit val f core on).getLsbD i = if i = f.lo + core.val then on else val.getLsbD i := by
  have inWord : f.lo + core.val < 32 := by omega
  have mask : (1#32 <<< (f.lo + core.val) : Word).getLsbD i = decide (f.lo + core.val = i) := by
    rw [← BitVec.twoPow_eq, BitVec.getLsbD_twoPow, decide_eq_true inWord, Bool.true_and]
  unfold coreBit
  dsimp only
  by_cases own : i = f.lo + core.val
  · subst own
    cases on
    · rw [if_neg Bool.false_ne_true, BitVec.getLsbD_and, BitVec.getLsbD_not, mask]
      simp
    · rw [if_pos rfl, BitVec.getLsbD_or, mask]
      simp
  · rw [decide_eq_false (Ne.symm own)] at mask
    rw [if_neg own]
    split
    · rw [BitVec.getLsbD_or, mask, Bool.or_false]
    · rw [BitVec.getLsbD_and, BitVec.getLsbD_not, mask]
      by_cases word : i < 32
      · simp [word]
      · simp [BitVec.getLsbD_of_ge val i (by omega)]

/-- A core that is reset stands at its START address out of lockup; one that no bit names stays (R306, R330). -/
theorem coreReset_resets {s : State} (on : houseOn s = true) (src : Src) (core : Fin 4) (val : Word) :
    Answers (.coreReset src core val) s fun t =>
      coreOf t core = Core.reset (BitVec.ofNat 24 (getF s (HS_CORESTART_START core))) ∧ coreLocked t core = false ∧
      getF t HS_CORECTL_RUN = bitsOf val 3 0 ∧
      ∀ m : Fin 4, m ≠ core → val.getLsbD (8 + m) = false → coreOf t m = coreOf s m ∧ coreLocked t m = coreLocked s m := by
  have bit := coreBit_getLsbD val (f := HS_CORECTL_RESET) (core := core) (by decide) true
  obtain ⟨t, run, cores, locked, runs, -⟩ := coreCtl_controls on src (coreBit val HS_CORECTL_RESET core true)
  have own : (coreBit val HS_CORECTL_RESET core true).getLsbD (8 + core.val) = true := (bit _).trans (if_pos rfl)
  refine ⟨t, run, ?_, ?_, ?_, fun m other spared => ?_⟩
  · rw [cores core.val core.isLt, if_pos own]
  · rw [locked core.val core.isLt, own]
    simp
  · rw [runs]
    refine bitsOf_eq (by decide) (by decide) fun i _ high => (bit i).trans (if_neg ?_)
    show ¬ i = 8 + core.val
    omega
  · have apart : ¬ 8 + m.val = 8 + core.val := fun e => other (Fin.ext (by omega))
    have kept : (coreBit val HS_CORECTL_RESET core true).getLsbD (8 + m.val) = false := ((bit _).trans (if_neg apart)).trans spared
    rw [cores m.val m.isLt, locked m.val m.isLt, kept]
    simp

/-- RUN follows the write, and HALTED once the core is at a boundary (R329). -/
theorem coreRun_follows {s : State} (on : houseOn s = true) (src : Src) (core : Fin 4) (run : Bool) (val : Word) :
    Answers (.coreRun src core run val) s fun t => coreRun t core = run ∧
      (∀ m : Fin 4, m ≠ core → coreRun t m = val.getLsbD m) ∧
      (run = true → coresClocked s = true → (coreOf s core).benchHalt = false → (coreStatWord t).getLsbD (4 + core) = false) ∧
      (run = false → (coreOf s core).stalled = none → (coreOf s core).syncing = false → coreStalled t core = false →
        (coreStatWord t).getLsbD (4 + core) = true) := by
  have bit := coreBit_getLsbD val (f := HS_CORECTL_RUN) (core := core) (by decide) run
  obtain ⟨t, answer, cores, -, runs, clocked⟩ := coreCtl_controls on src (coreBit val HS_CORECTL_RUN core run)
  have own : coreRun t core.val = run := (coreRun_testBit runs core).trans ((bit _).trans (if_pos (Nat.zero_add _).symm))
  have fresh : ∀ {α : Type} (f : Core → α) (x : α), (∀ a, f (Core.reset a) = x) → f (coreOf s core.val) = x →
      f (coreOf t core.val) = x := fun f x reset same => by
    rw [cores core.val core.isLt]
    split
    · exact reset _
    · exact same
  refine ⟨t, answer, own, fun m other => ?_, fun starts clock free => ?_, fun stops still synced unstalled => ?_⟩
  · refine (coreRun_testBit runs m).trans ((bit _).trans (if_neg fun e => other (Fin.ext ?_)))
    exact e.trans (Nat.zero_add _)
  · rw [coreStatWord_halted, coreHalted, own, clocked, clock, starts, fresh (·.benchHalt) false (fun _ => rfl) free]
    rfl
  · rw [coreStatWord_halted, coreHalted, own, stops, unstalled, fresh (·.stalled) none (fun _ => rfl) still,
      fresh (·.syncing) false (fun _ => rfl) synced]
    simp

end Sys2Proof.Machine
end

section
/-! SUPPORT. The timers and the event network, and what an obligation says of the cores' control, interrupts and timers (R367,
R372). -/

namespace Sys2Proof.Machine

/-! ### A trigger of the event network -/

/-- The channel takes a trigger on a pace that it has loaded (R372). -/
def paces (pace : Nat) (isIt : DmaCh → Bool) (c : DmaCh) : Bool := c.loaded && c.field 0 11 9 = pace && isIt c

/-- From `s` to `t` the channels that `hit` names have taken a trigger each: a credit, or one more lost where a channel holds 255;
other channels, and registers but the channels' status, stay. -/
structure Triggered (s t : State) (hit : Nat → Bool) : Prop where
  channel : ∀ m < 32, dmaCh t m =
    if hit m && decide ((dmaCh s m).credits < 255) then { dmaCh s m with credits := (dmaCh s m).credits + 1 } else dmaCh s m
  lost : ∀ m < 32, getF t (DMA_CHSTAT_LOSTTRIG m) = if hit m && !decide ((dmaCh s m).credits < 255) then
    min 255 (getF s (DMA_CHSTAT_LOSTTRIG m) + 1) else getF s (DMA_CHSTAT_LOSTTRIG m)
  regs : ∀ k, (∀ m < 32, k ≠ DMA_CHSTAT m) → regWord t k = regWord s k
  rest : { t with regs := s.regs, dma := s.dma } = s

namespace Triggered

variable {s t : State} {hit : Nat → Bool}

theorem refl (s : State) : Triggered s s fun _ => false := ⟨fun _ _ => rfl, fun _ _ => rfl, fun _ _ => rfl, rfl⟩

theorem view {α : Type} (h : Triggered s t hit) (f : State → α)
    (blind : ∀ x r d, f { x with regs := r, dma := d } = f x) : f t = f s := by
  rw [← blind t s.regs s.dma, h.rest]

/-- A channel takes its trigger. -/
def take (s : State) (n : Nat) : State :=
  if (dmaCh s n).credits < 255 then setDma s n { dmaCh s n with credits := (dmaCh s n).credits + 1 }
  else countF s (DMA_CHSTAT_LOSTTRIG n) 1

theorem status_ne {m n : Nat} (other : m ≠ n) : DMA_CHSTAT m ≠ DMA_CHSTAT n := by
  unfold DMA_CHSTAT
  omega

theorem takes (h : Triggered s t hit) {n : Nat} (hn : n < 32) (fresh : hit n = false) :
    Triggered s (take t n) fun m => hit m || decide (m = n) := by
  have channel : dmaCh t n = dmaCh s n := by
    rw [h.channel n hn, fresh]
    rfl
  have lost : getF t (DMA_CHSTAT_LOSTTRIG n) = getF s (DMA_CHSTAT_LOSTTRIG n) := by
    rw [h.lost n hn, fresh]
    rfl
  unfold take
  rw [channel]
  by_cases room : (dmaCh s n).credits < 255
  · rw [if_pos room]
    refine ⟨fun m hm => ?_, fun m hm => ?_, h.regs, h.rest⟩
    · refine (toList_getD_setIfInBounds _ _ _ _ _).trans ?_
      by_cases own : m = n
      · subst own
        simp [room, hm]
      · rw [if_neg fun e => own e.1.symm, decide_eq_false own, Bool.or_false]
        exact h.channel m hm
    · refine (h.lost m hm).trans ?_
      by_cases own : m = n
      · subst own
        simp [room, fresh]
      · simp [own]
  · rw [if_neg room]
    refine ⟨fun m hm => ?_, fun m hm => ?_, fun k other => ?_, h.rest⟩
    · refine (h.channel m hm).trans ?_
      by_cases own : m = n
      · subst own
        simp [room, fresh]
      · simp [own]
    · by_cases own : m = n
      · subst own
        have counted : getF (countF t (DMA_CHSTAT_LOSTTRIG m) 1) (DMA_CHSTAT_LOSTTRIG m) =
            min (getF t (DMA_CHSTAT_LOSTTRIG m) + 1) 255 :=
          getF_countF_same t (DMA_CHSTAT_LOSTTRIG m) 1 ⟨show 16 ≤ 23 by decide, show 23 < 32 by decide⟩
        rw [counted, lost, Nat.min_comm]
        simp [room]
      · have apart : getF (countF t (DMA_CHSTAT_LOSTTRIG n) 1) (DMA_CHSTAT_LOSTTRIG m) = getF t (DMA_CHSTAT_LOSTTRIG m) :=
          getF_congr (regWord_setF_ne' rfl (status_ne own))
        rw [apart, h.lost m hm]
        simp [own]
    · exact (regWord_setF_ne' rfl (other n hn)).trans (h.regs k other)

theorem dmaTrigger_takes (s : State) (pace : Nat) (isIt : DmaCh → Bool) : dmaTrigger s pace isIt =
    (List.range 32).foldl (fun s n => if paces pace isIt (dmaCh s n) then take s n else s) s := by
  unfold dmaTrigger
  congr

/-- Each channel takes a trigger on its pace, one channel after another (R372). -/
theorem channels (s : State) (pace : Nat) (isIt : DmaCh → Bool) : ∀ k ≤ 32,
    Triggered s ((List.range k).foldl (fun s n => if paces pace isIt (dmaCh s n) then take s n else s) s)
      fun m => decide (m < k) && paces pace isIt (dmaCh s m)
  | 0, _ => refl s
  | k + 1, hk => by
    have before := channels s pace isIt k (Nat.le_of_succ_le hk)
    have named : (fun m => decide (m < k + 1) && paces pace isIt (dmaCh s m)) = fun m =>
        (decide (m < k) && paces pace isIt (dmaCh s m)) || (decide (m = k) && paces pace isIt (dmaCh s k)) := by
      funext m
      by_cases last : m = k
      · subst last
        simp
      · simp [last, show m < k + 1 ↔ m < k by omega]
    have channel := before.channel k (by omega)
    simp only [Nat.lt_irrefl, decide_false, Bool.false_and, Bool.false_eq_true, if_false] at channel
    rw [List.range_succ, List.foldl_append, List.foldl_cons, List.foldl_nil, named, channel]
    cases paces pace isIt (dmaCh s k)
    · simpa using before
    · simpa using before.takes (by omega) (by simp)

end Triggered

theorem eventLine_triggers (s : State) (i : Fin 8) : Triggered s (eventLine s (32 + i.val))
    fun m => decide (m < 32) && paces 1 (fun c => c.field 0 14 12 = i.val) (dmaCh s m) := by
  have line : eventLine s (32 + i.val) = dmaTrigger s 1 fun c => c.field 0 14 12 = i.val := by
    rw [eventLine, if_neg (by omega), if_pos (by omega), Nat.add_sub_cancel_left]
  rw [line, Triggered.dmaTrigger_takes]
  exact Triggered.channels s 1 _ 32 (Nat.le_refl 32)

/-! ### Timers -/

theorem regSpecAt_tmrCtl (i : Fin 8) : ∃ r, regSpecAt (HS_TMRCTL i.val) = some (r, [i.val]) ∧ r.presence = .always ∧
    r.hook = .tmrCtl ∧ r.fields = [⟨"ONESHOT", 1, 1, .rw, 0, .any⟩, ⟨"EN", 0, 0, .rw, 0, .any⟩] := by
  fin_cases i <;> exact ⟨_, rfl, rfl, rfl, rfl⟩

theorem timers_setTimer (s : State) (i : Fin 8) (left : Nat) : (setTimer s i.val left).timers[i] = left :=
  Vector.getElem_setIfInBounds_self _

theorem flag_en (s : State) (i : Fin 8) : flag s (HS_TMRCTL_EN i.val) = decide (getF s (HS_TMRCTL_EN i.val) = 1) :=
  flag_eq_decide s rfl ⟨Nat.le_refl 0, show 0 < 32 by decide⟩

/-- A timer starts with its period as EN rises (R367). -/
theorem timerEnable_starts {s : State} (on : houseOn s = true) (src : Src) (i : Fin 8) (val : Word) :
    Answers (.timerEnable src i val) s fun t => getF t (HS_TMRCTL_EN i) = 1 ∧
      getF t (HS_TMRCTL_ONESHOT i) = bitsOf val 1 1 ∧
      t.timers[i] = if flag s (HS_TMRCTL_EN i) then s.timers[i] else getF s (HS_TMRPER_PER i) := by
  obtain ⟨r, spec, presence, hook, fields⟩ := regSpecAt_tmrCtl i
  have apart : HS_TMRCTL i.val < 0x104000 ∧ HS_TMRCTL i.val ≠ HS_RSVWR ∧ HS_TMRPER i.val ≠ HS_TMRCTL i.val ∧
      HS_TMRPER i.val ≠ HS_RSVWR := by
    unfold HS_TMRCTL HS_TMRPER HS_RSVWR
    omega
  obtain ⟨low, noCount, period, noCount'⟩ := apart
  have write := rowWrite_house (src := src) (w := withOnes val (HS_TMRCTL_EN i.val)) on low spec
    (by simp [registerPresent, presence]) (by rw [hook]; decide) (by simp only [specialWrite, hook])
  have stored := fieldsWritten_reported s r (HS_TMRCTL i.val) (withOnes val (HS_TMRCTL_EN i.val))
  have en : getF (fieldsWritten s r (HS_TMRCTL i.val) (withOnes val (HS_TMRCTL_EN i.val))) (HS_TMRCTL_EN i.val) = 1 :=
    (fieldsWritten_field (g := ⟨"EN", 0, 0, .rw, 0, .any⟩) spec noCount rfl (by simp [fields]) rfl rfl rfl rfl).trans
      (bitsOf_withOnes_bit val (f := HS_TMRCTL_EN i.val) rfl (by show 0 < 32; decide))
  have oneshot : getF (fieldsWritten s r (HS_TMRCTL i.val) (withOnes val (HS_TMRCTL_EN i.val))) (HS_TMRCTL_ONESHOT i.val) =
      bitsOf val 1 1 :=
    (fieldsWritten_field (g := ⟨"ONESHOT", 1, 1, .rw, 0, .any⟩) spec noCount rfl (by simp [fields]) rfl rfl rfl rfl).trans
      (bitsOf_withOnes_apart val (f := HS_TMRCTL_EN i.val) (by show fieldMask 0 0 &&& fieldMask 1 1 = 0; decide))
  simp only [hook, afterHouseWrite, List.headD_cons] at write
  generalize fieldsWritten s r (HS_TMRCTL i.val) (withOnes val (HS_TMRCTL_EN i.val)) = x at write stored en oneshot
  have starts : timerWritten x i.val (flag s (HS_TMRCTL_EN i.val)) =
      if flag s (HS_TMRCTL_EN i.val) then x else setTimer x i.val (getF s (HS_TMRPER_PER i.val)) := by
    rw [timerWritten, flag_en x, en, stored.getF (f := HS_TMRPER_PER i.val) (by simp [HS_TMRPER_PER, noCount'])]
    rfl
  have counted := countOnce_reported s (timerWritten x i.val (flag s (HS_TMRCTL_EN i.val)))
  have timers : x.timers = s.timers := stored.view (·.timers) fun _ _ _ _ _ => rfl
  have word : ∀ k, regWord (timerWritten x i.val (flag s (HS_TMRCTL_EN i.val))) k = regWord x k := fun k => by
    rw [starts]
    split <;> rfl
  refine ⟨_, write, ?_, ?_, ?_⟩
  · rw [countOnce_getF _ _ (f := HS_TMRCTL_EN i.val) noCount, getF_congr (word _), en]
  · rw [countOnce_getF _ _ (f := HS_TMRCTL_ONESHOT i.val) noCount, getF_congr (word _), oneshot]
  · rw [counted.view (·.timers) fun _ _ _ _ _ => rfl, starts]
    split
    · exact congrArg (fun left : Vector Nat 8 => left[i]) timers
    · exact timers_setTimer x i _

/-- The timer as an expiry leaves it: stopped, or with its period anew (R367). -/
def timerWrapped (s : State) (i : Nat) : State :=
  if flag s (HS_TMRCTL_ONESHOT i) then setTimer (setF s (HS_TMRCTL_EN i) 0) i 0 else setTimer s i (getF s (HS_TMRPER_PER i))

theorem timerWrapped_shows {s : State} {i : Fin 8} (on : flag s (HS_TMRCTL_EN i.val) = true) :
    if flag s (HS_TMRCTL_ONESHOT i.val) then
      getF (timerWrapped s i.val) (HS_TMRCTL_EN i.val) = 0 ∧ (timerWrapped s i.val).timers[i] = 0
    else getF (timerWrapped s i.val) (HS_TMRCTL_EN i.val) = 1 ∧
      (timerWrapped s i.val).timers[i] = getF s (HS_TMRPER_PER i.val) := by
  unfold timerWrapped
  split
  · exact ⟨getF_setF_same s _ 0 ⟨Nat.le_refl 0, show 0 < 32 by decide⟩, timers_setTimer _ i 0⟩
  · rw [flag_en, decide_eq_true_eq] at on
    exact ⟨on, timers_setTimer s i _⟩

/-- Of the registers it writes its timer's control alone. -/
theorem timerWrapped_regWord (s : State) (i : Nat) {k : Nat} (other : k ≠ HS_TMRCTL i) :
    regWord (timerWrapped s i) k = regWord s k := by
  unfold timerWrapped
  split
  · exact regWord_setF_ne' (f := HS_TMRCTL_EN i) rfl other
  · rfl

theorem timerWrapped_apart (s : State) (i : Nat) : (timerWrapped s i).hic = s.hic ∧ (timerWrapped s i).dma = s.dma := by
  unfold timerWrapped
  split <;> exact ⟨rfl, rfl⟩

/-- An expiry gives its edge after the triggers of its event line. -/
theorem timerExpiry_runs {s : State} (on : houseOn s = true) {i : Fin 8} (en : flag s (HS_TMRCTL_EN i.val) = true) :
    ∃ u, Triggered (timerWrapped s i.val) u
        (fun m => decide (m < 32) && paces 1 (fun c => c.field 0 14 12 = i.val) (dmaCh (timerWrapped s i.val) m)) ∧
      exec (.timerExpiry i) s = .next { u with hic := { u.hic with edges := u.hic.edges ++ [32 + i.val] } } := by
  refine ⟨_, eventLine_triggers _ i, (whenHouse_on on fun s => timerExpiry s i.val).trans (congrArg _ ?_)⟩
  have house : isScanSource (32 + i.val) = false := by
    simp only [isScanSource, Bool.and_eq_false_iff, decide_eq_false_iff_not]
    omega
  have awake : (192 ≤ 32 + i.val && 32 + i.val ≤ 223) = false := by
    simp only [Bool.and_eq_false_iff, decide_eq_false_iff_not]
    omega
  rw [timerExpiry, if_pos en]
  change pulse (eventLine (timerWrapped s i.val) (32 + i.val)) (32 + i.val) = _
  rw [pulse, house, awake]
  rfl

theorem timerExpiry_off {s : State} (on : houseOn s = true) {i : Fin 8} (off : flag s (HS_TMRCTL_EN i.val) = false) :
    exec (.timerExpiry i) s = .next s :=
  (whenHouse_on on fun s => timerExpiry s i.val).trans (congrArg _ (if_neg (Bool.eq_false_iff.mp off)))

/-- A timer that expires gives an edge, and a credit to a channel that paces on it; it stops or counts its period anew (R367,
R372). -/
theorem timerExpiry_expires {s : State} (on : houseOn s = true) (w : Fin 32) {i : Fin 8}
    (en : flag s (HS_TMRCTL_EN i.val) = true) :
    Answers (.timerExpiry i) s fun t => t.hic.edges = s.hic.edges ++ [32 + i.val] ∧
      (if flag s (HS_TMRCTL_ONESHOT i) then getF t (HS_TMRCTL_EN i) = 0 ∧ t.timers[i] = 0
       else getF t (HS_TMRCTL_EN i) = 1 ∧ t.timers[i] = getF s (HS_TMRPER_PER i)) ∧
      let ch := dmaCh s w
      ch.phase = .moving → ch.field 0 11 9 = 1 → ch.field 0 14 12 = i.val →
        if ch.credits < 255 then dmaCh t w = { ch with credits := ch.credits + 1 }
        else dmaCh t w = ch ∧ getF t (DMA_CHSTAT_LOSTTRIG w) = min 255 (getF s (DMA_CHSTAT_LOSTTRIG w) + 1) := by
  obtain ⟨u, triggered, run⟩ := timerExpiry_runs on en
  obtain ⟨hic, dma⟩ := timerWrapped_apart s i.val
  have channel : dmaCh (timerWrapped s i.val) w.val = dmaCh s w.val := by rw [dmaCh, dma, dmaCh]
  have control : ∀ m < 32, HS_TMRCTL i.val ≠ DMA_CHSTAT m := fun m hm => by
    unfold HS_TMRCTL DMA_CHSTAT
    omega
  have status : getF (timerWrapped s i.val) (DMA_CHSTAT_LOSTTRIG w.val) = getF s (DMA_CHSTAT_LOSTTRIG w.val) :=
    getF_congr (timerWrapped_regWord s i.val (control w.val w.isLt).symm)
  have enabled : getF u (HS_TMRCTL_EN i.val) = getF (timerWrapped s i.val) (HS_TMRCTL_EN i.val) :=
    getF_congr (triggered.regs _ control)
  have timers : u.timers = (timerWrapped s i.val).timers := triggered.view (·.timers) fun _ _ _ => rfl
  have edges : u.hic = s.hic := (triggered.view (·.hic) fun _ _ _ => rfl).trans hic
  refine ⟨_, run, ?_, ?_, fun moving paced timer => ?_⟩
  · rw [edges]
  · show if _ then getF u (HS_TMRCTL_EN i.val) = 0 ∧ u.timers[i] = 0
      else getF u (HS_TMRCTL_EN i.val) = 1 ∧ u.timers[i] = getF s (HS_TMRPER_PER i.val)
    rw [enabled, timers]
    exact timerWrapped_shows en
  · have hit : paces 1 (fun c => c.field 0 14 12 = i.val) (dmaCh s w.val) = true := by
      simp [paces, DmaCh.loaded, moving, paced, timer]
    have credited := triggered.channel w.val w.isLt
    have lost := triggered.lost w.val w.isLt
    rw [channel, hit, decide_eq_true w.isLt] at credited lost
    rw [status] at lost
    split
    · next room =>
      simp only [room, decide_true, Bool.and_self, if_true] at credited
      exact credited
    · next full =>
      simp only [full, decide_false, Bool.and_false, Bool.false_eq_true, Bool.not_false, Bool.and_self, if_true, if_false]
        at credited lost
      exact ⟨credited, lost⟩

/-- Settles O48: the write rules of HS_CORECTL, the cases of an edge at its source, a forced bit, a wake latch and a timer, each by
its own lemma. -/
theorem coresInterruptsTimers : Obligations.CoresInterruptsTimers := by
  unfold Obligations.CoresInterruptsTimers
  intro s src val core run n word w on
  refine ⟨coreReset_resets on src core val, coreRun_follows on src core run val,
    fun none => (sourceEdge_answers on).trans (congrArg _ (takeEdge_none none)),
    fun waits present => ⟨?pends, ?merges, ?held, ?released⟩, ?timed, coalesceTimeout_idle on, hicForce_edges on src word val,
    fun z rising => ⟨?caught, wakeLatch_missed⟩,
    fun i => ⟨timerEnable_starts on src i val, timerExpiry_off on, timerExpiry_expires on w⟩⟩
  case pends => exact sourceEdge_setsPending on waits present
  case merges => exact sourceEdge_merges on waits present
  case held => exact sourceEdge_waits on waits present
  case released => exact sourceEdge_releases on waits present
  case timed => exact fun held => ⟨_, coalesceTimeout_releases on held.1, releaseEdges_releases n.isLt held.2⟩
  case caught => exact fun caught => ⟨_, wakeLatch_caught caught, latchWake_latches z w⟩

end Sys2Proof.Machine
end

section
/-! SUPPORT. Operands and results of the arithmetic rows: what a row does once its operands carry the tags it takes (R302, R307,
R336 to R338), with the integer rows and the shifts. -/

namespace Sys2Proof.Machine

/-! ### Operands that are accepted -/

/-- A tag that an operand can be accepted with: neither UNSET nor POISON (R302). -/
abbrev Acceptable (t : BitVec 4) : Prop := t ≠ tagUnset ∧ t ≠ tagPoison

/-- An operand that carries an accepted tag passes its check. -/
theorem tagTrap_tagged {k : Nat} {t : BitVec 4} {l : List (BitVec 4)} {w : Tagged} {x : Word} (h : w = tagged t x)
    (accepted : l.contains t = true) (valid : Acceptable t := by decide) : tagTrap k l w = none := by
  subst h
  exact tagTrap_none (by rw [tagOf_tagged]; exact valid.1) (by rw [tagOf_tagged]; exact valid.2) (by rwa [tagOf_tagged])

/-- A tag is accepted where it is the one wanted. -/
theorem contains_own (t : BitVec 4) : [t].contains t = true := by simp

theorem withFlags_none (c : Core) : withFlags c {} = c := rfl

section
variable {s : State} {n : Fin 4} {len : Nat} {c : Core} {rd ra rb tagA tagB tagR tag : BitVec 4} {a b : Word}

theorem binOp_reads {f : State → Core → Word → Word → State × Ending} (first : regOf c ra = tagged tagA a)
    (second : regOf c rb = tagged tagB b) (accepts : destTrap rd tagR = none) (validA : Acceptable tagA := by decide)
    (validB : Acceptable tagB := by decide) : binOp tagA tagB tagR rd ra rb f s c = f s c a b := by
  rw [binOp_accepts (tagTrap_tagged first (contains_own _) validA) (tagTrap_tagged second (contains_own _) validB) accepts, first,
    second, payload_tagged, payload_tagged]

theorem unOp_reads {f : State → Core → Word → State × Ending} (first : regOf c ra = tagged tagA a)
    (accepts : destTrap rd tagR = none) (validA : Acceptable tagA := by decide) : unOp tagA tagR rd ra f s c = f s c a := by
  rw [unOp, tagTrap_tagged first (contains_own _) validA, accepts, first, payload_tagged]
  rfl

theorem cmpOp_reads {f : Word → Word → Flags} (first : regOf c ra = tagged tag a) (second : regOf c rb = tagged tag b)
    (valid : Acceptable tag := by decide) : cmpOp tag ra rb f s c = goOn s (withFlags c (f a b)) := by
  rw [cmpOp, tagTrap_tagged first (contains_own _) valid, tagTrap_tagged second (contains_own _) valid, first, second,
    payload_tagged, payload_tagged]
  rfl

/-- An instruction that ends in a result with flags does nothing else. -/
theorem runInstr_writes {body : CoreBody} {w : Word} {f : Flags} (h : Issues s n len)
    (ends : body s (coreOf s n.val) = resultOp s (coreOf s n.val) rd tag w f) :
    runInstr s n len body = writes s n len rd (tagged tag w) f :=
  runInstr_goesOn (f := id) h ends

/-- One that compares writes flags alone. -/
theorem cmpOp_flags {f : Word → Word → Flags} (h : Issues s n 1) (first : reg s n ra = tagged tag a)
    (second : reg s n rb = tagged tag b) (valid : Acceptable tag := by decide) :
    runInstr s n 1 (cmpOp tag ra rb f) = goesOn s n 1 (withFlags (coreOf s n.val) (f a b)) :=
  runInstr_goesOn (f := id) h (cmpOp_reads first second valid)

/-! ### Integer rows -/

theorem intOp_writes {f : Word → Word → Word} {g : Word → Word → Flags} (h : Issues s n 1) (toV : isPointer rd = false)
    (first : reg s n ra = intWord a) (second : reg s n rb = intWord b) :
    runInstr s n 1 (intOp rd ra rb f g) = writes s n 1 rd (intWord (f a b)) (g a b) :=
  runInstr_writes h (binOp_reads first second (destTrap_v toV _))

theorem immOp_writes {imm : BitVec 20} {f : Word → Word → Word} {g : Word → Word → Flags} (h : Issues s n 1)
    (toV : isPointer rd = false) (first : reg s n ra = intWord a) :
    runInstr s n 1 (immOp rd ra imm f g) =
      writes s n 1 rd (intWord (f a (imm.signExtend 32))) (g a (imm.signExtend 32)) :=
  runInstr_writes h (unOp_reads first (destTrap_v toV _))

end

/-- Settles O9: each row by what two INT operands give it. -/
theorem integerArithmetic : Obligations.IntegerArithmetic := by
  unfold Obligations.IntegerArithmetic
  intro s n rd ra rb a b h toV first second
  have row (f : Word → Word → Word) (g : Word → Word → Flags) :
      Host.Outcome.next (runInstr s n 1 (intOp rd ra rb f g)) = (.next (writes s n 1 rd (intWord (f a b)) (g a b)) : Out) :=
    congrArg Host.Outcome.next (intOp_writes h toV first second)
  exact ⟨row _ _, row _ _, row _ _, row _ _, row _ _, row _ _⟩

/-! ### Shifts -/

/-- The count of a shift by a register, and of one by an immediate (R338). -/
theorem shiftCount_word (b : Word) : shiftCount b = b.toNat % 32 := bitsOf_low b (by decide)

theorem shiftCount_imm (imm : BitVec 20) : shiftCount (imm.signExtend 32) = imm.toNat % 32 := by
  have bits : imm.toNat < 2 ^ 20 := imm.isLt
  rw [shiftCount_word, BitVec.toNat_signExtend, BitVec.toNat_setWidth]
  split <;> omega

theorem bne_zero_eq_decide_pos (k : Nat) : (k != 0) = decide (0 < k) := by
  cases k <;> rfl

section
variable {s : State} {n : Fin 4} {rd : BitVec 4} {a b : Word} {k : Nat}

theorem writes_shl (count : shiftCount b = k) : writes s n 1 rd (intWord (shlWord a b)) (flagsShl a b) =
    writes s n 1 rd (intWord (a <<< k))
      { n := some (a <<< k).msb, z := some (a <<< k == 0), v := some false,
        c := some (decide (0 < k) && a.getLsbD (32 - k)) } := by
  subst count
  rw [flagsShl, lastOutLeft, bne_zero_eq_decide_pos]
  rfl

theorem writes_shr (count : shiftCount b = k) : writes s n 1 rd (intWord (shrWord a b)) (flagsShr a b) =
    writes s n 1 rd (intWord (a >>> k))
      { n := some (a >>> k).msb, z := some (a >>> k == 0), v := some false,
        c := some (decide (0 < k) && a.getLsbD (k - 1)) } := by
  subst count
  rw [flagsShr, lastOutRight, bne_zero_eq_decide_pos]
  rfl

theorem writes_sar (count : shiftCount b = k) : writes s n 1 rd (intWord (sarWord a b)) (flagsSar a b) =
    writes s n 1 rd (intWord (a.sshiftRight k))
      { n := some (a.sshiftRight k).msb, z := some (a.sshiftRight k == 0), v := some false,
        c := some (decide (0 < k) && a.getLsbD (k - 1)) } := by
  subst count
  rw [flagsSar, lastOutRight, bne_zero_eq_decide_pos]
  rfl

end

/-- Settles O10: the forms differ in where the count comes from. -/
theorem shifts : Obligations.Shifts := by
  unfold Obligations.Shifts
  intro s n rd ra rb imm a b h toV first second
  have register (f : Word → Word → Word) (g : Word → Word → Flags) := intOp_writes (f := f) (g := g) h toV first second
  have immediate (f : Word → Word → Word) (g : Word → Word → Flags) := immOp_writes (imm := imm) (f := f) (g := g) h toV first
  exact ⟨congrArg Host.Outcome.next ((register _ _).trans (writes_shl (shiftCount_word b))),
    congrArg Host.Outcome.next ((immediate _ _).trans (writes_shl (shiftCount_imm imm))),
    congrArg Host.Outcome.next ((register _ _).trans (writes_shr (shiftCount_word b))),
    congrArg Host.Outcome.next ((immediate _ _).trans (writes_shr (shiftCount_imm imm))),
    congrArg Host.Outcome.next ((register _ _).trans (writes_sar (shiftCount_word b))),
    congrArg Host.Outcome.next ((immediate _ _).trans (writes_sar (shiftCount_imm imm)))⟩

end Sys2Proof.Machine
end

section
/-! SUPPORT. Immediate forms, addresses, comparisons and divisions (R334, R336 to R339). -/

namespace Sys2Proof.Machine

/-! ### Flags of a difference -/

theorem sub_beq_zero (a b : Word) : (a - b == 0) = (a == b) := by
  rw [Bool.eq_iff_iff, beq_iff_eq, beq_iff_eq]
  exact sub_eq_zero

/-- Z of a difference says that its operands are equal (R337). -/
theorem flagsSub_eq (a b : Word) : flagsSub a b =
    { n := some (a - b).msb, z := some (a == b), v := some (decide ((a - b).toInt ≠ a.toInt - b.toInt)),
      c := some (decide (b.toNat ≤ a.toNat)) } := by
  rw [← sub_beq_zero]
  rfl

/-- Of all negations that of the least integer alone overflows. -/
theorem neg_overflows (a : Word) : (0 - a).toInt ≠ (0 : Word).toInt - a.toInt ↔ a = 0x80000000#32 := by
  rw [show (0 : Word) - a = -a from BitVec.zero_sub a, show (0 : Word).toInt = 0 from rfl, Int.zero_sub]
  constructor
  · intro overflows
    by_contra other
    exact overflows (BitVec.toInt_neg_of_ne_intMin other)
  · rintro rfl
    decide

/-- The flags of a negation (R337). -/
theorem flagsSub_zero (a : Word) : flagsSub 0 a =
    { n := some (0 - a).msb, z := some (0 - a == 0), v := some (decide (a = 0x80000000#32)), c := some (decide (a = 0)) } := by
  have carry : a.toNat ≤ (0 : Word).toNat ↔ a = 0 := by
    rw [show (0 : Word).toNat = 0 from rfl, Nat.le_zero]
    exact ⟨fun h => BitVec.eq_of_toNat_eq h, fun h => by rw [h]; rfl⟩
  unfold flagsSub
  simp only [neg_overflows, carry]
  rfl

section
variable {s : State} {n : Fin 4} {rd ra rb : BitVec 4} {imm : BitVec 20} {off : BitVec 18} {a b : Word} {p q : BitVec 24}

/-! ### Immediate forms -/

theorem addi_int (h : Issues s n 1) (toV : isPointer rd = false) (first : regOf (coreOf s n.val) ra = intWord a) :
    exec (.addi n rd ra imm) s =
      .next (writes s n 1 rd (intWord (a + imm.signExtend 32)) (flagsAdd a (imm.signExtend 32))) := by
  refine congrArg Host.Outcome.next (runInstr_writes h ?_)
  dsimp only
  rw [tagTrap_tagged first rfl, first, tagOf_intWord, payload_intWord, destTrap_v toV]
  rfl

theorem neg_writes (h : Issues s n 1) (toV : isPointer rd = false) (first : regOf (coreOf s n.val) ra = intWord a) :
    exec (.neg n rd ra) s = .next (writes s n 1 rd (intWord (0 - a)) (flagsSub 0 a)) :=
  congrArg Host.Outcome.next (runInstr_writes h (unOp_reads first (destTrap_v toV _)))

theorem cmpi_flags (h : Issues s n 1) (first : regOf (coreOf s n.val) ra = intWord a) :
    exec (.cmpi n ra imm) s = .next (goesOn s n 1 (withFlags (coreOf s n.val) (flagsSub a (imm.signExtend 32)))) := by
  refine congrArg Host.Outcome.next (runInstr_goesOn (f := id) h ?_)
  rw [tagTrap_tagged first rfl, first, payload_intWord]
  rfl

/-! ### Addresses -/

theorem fits_addr (r : BitVec 4) (x : BitVec 24) : Fits r (addrWord x) := fun _ => ⟨x, rfl⟩

theorem addi_addr (h : Issues s n 1) (first : regOf (coreOf s n.val) ra = addrWord p) :
    exec (.addi n rd ra imm) s = .next (loads s n 1 rd (addrWord (p + imm.signExtend 24))) := by
  refine congrArg Host.Outcome.next (runInstr_loads h ?_ (fits_addr _ _))
  dsimp only
  rw [tagTrap_tagged first rfl, first, tagOf_addrWord, addrOf_addrWord]
  rfl

theorem adda_loads (h : Issues s n 1) (first : regOf (coreOf s n.val) ra = addrWord p)
    (second : regOf (coreOf s n.val) rb = intWord b) :
    exec (.adda n rd ra rb) s = .next (loads s n 1 rd (addrWord (p + b.setWidth 24))) := by
  refine congrArg Host.Outcome.next (runInstr_loads h ?_ (fits_addr _ _))
  rw [binOp_reads first second (destTrap_addr rd), BitVec.setWidth_setWidth_of_le _ (by decide), BitVec.setWidth_eq]

theorem lea_loads (h : Issues s n 1) (first : regOf (coreOf s n.val) ra = addrWord p) :
    exec (.lea n rd ra 0 off) s = .next (loads s n 1 rd (addrWord (p + off.signExtend 24))) := by
  refine congrArg Host.Outcome.next (runInstr_loads h ?_ (fits_addr _ _))
  rw [tagTrap_tagged first rfl, first, addrOf_addrWord]
  rfl

theorem suba_writes (h : Issues s n 1) (toV : isPointer rd = false) (first : regOf (coreOf s n.val) ra = addrWord p)
    (second : regOf (coreOf s n.val) rb = addrWord q) :
    exec (.suba n rd ra rb) s = .next (writes s n 1 rd (intWord (p.setWidth 32 - q.setWidth 32))
      (flagsSub (p.setWidth 32) (q.setWidth 32))) := by
  have back (x : BitVec 24) : (x.setWidth 32).setWidth 24 = x := by
    rw [BitVec.setWidth_setWidth_of_le _ (by decide), BitVec.setWidth_eq]
  refine congrArg Host.Outcome.next (runInstr_writes h ?_)
  rw [binOp_reads first second (destTrap_v toV _), back, back]

theorem cmpeq_flags {t : BitVec 4} {u v : Word} (h : Issues s n 1) (low : 1 ≤ t.toNat) (high : t.toNat ≤ 7)
    (first : regOf (coreOf s n.val) ra = tagged t u) (second : regOf (coreOf s n.val) rb = tagged t v) :
    exec (.cmpeq n ra rb) s = .next (goesOn s n 1 (withFlags (coreOf s n.val) { z := some (u == v) })) := by
  have valid : ∀ t : BitVec 4, 1 ≤ t.toNat → t.toNat ≤ 7 → Acceptable t := by decide
  refine congrArg Host.Outcome.next (runInstr_goesOn (f := id) h ?_)
  dsimp only
  rw [first, second, tagOf_tagged, tagTrap_anyTag (by rwa [tagOf_tagged]) (by rwa [tagOf_tagged]),
    tagTrap_tagged rfl (contains_own t) (valid t low high), payload_tagged, payload_tagged]
  rfl

/-! ### Division -/

theorem divOp_writes {f : Word → Word → Word} {g : Word → Word → Flags} (h : Issues s n 1) (toV : isPointer rd = false)
    (first : reg s n ra = intWord a) (second : reg s n rb = intWord b) (divisor : b ≠ 0) :
    runInstr s n 1 (divOp rd ra rb f g) = writes s n 1 rd (intWord (f a b)) (g a b) := by
  have passes : trapIf (b == 0) (trapOf trDivZero) = none := if_neg (by simpa using divisor)
  refine runInstr_writes h ((binOp_reads first second (destTrap_v toV _)).trans ?_)
  rw [passes]
  rfl

end

/-- The quotient of DIVS, which overflows for the least integer by −1 (R338). -/
theorem sdiv_eq (a b : Word) : a.sdiv b =
    if a = 0x80000000#32 ∧ b = 0xFFFFFFFF#32 then 0x80000000#32 else BitVec.ofInt 32 (a.toInt.tdiv b.toInt) := by
  split
  · next least =>
    obtain ⟨rfl, rfl⟩ := least
    decide
  · apply BitVec.eq_of_toInt_eq
    rw [BitVec.toInt_sdiv, BitVec.toInt_ofInt]

theorem udiv_eq (a b : Word) : a / b = BitVec.ofNat 32 (a.toNat / b.toNat) := by
  apply BitVec.eq_of_toNat_eq
  rw [BitVec.toNat_udiv, BitVec.toNat_ofNat, Nat.mod_eq_of_lt (Nat.lt_of_le_of_lt (Nat.div_le_self _ _) a.isLt)]

/-- Settles O11: the immediate forms by their operands' tag, the sums on addresses by a result that every register takes. -/
theorem immediatesAndAddresses : Obligations.ImmediatesAndAddresses := by
  unfold Obligations.ImmediatesAndAddresses
  intro s n rd pd ra rb pa imm off a b p h toV first second pointer
  exact ⟨addi_int h toV first, congrArg Host.Outcome.next (immOp_writes h toV first),
    congrArg Host.Outcome.next (immOp_writes h toV first), congrArg Host.Outcome.next (immOp_writes h toV first),
    flagsSub_zero a ▸ neg_writes h toV first,
    addi_addr h pointer, adda_loads h pointer second, lea_loads h pointer⟩

/-- Settles O12: each comparison writes the flags of `flagsSub_eq`, or Z alone. -/
theorem comparisons : Obligations.Comparisons := by
  unfold Obligations.Comparisons
  intro s n rd ra rb fa fb pa pb xa xb imm a b u v p q t h toV first second fixFirst fixSecond addrFirst addrSecond low high
    anyFirst anySecond
  dsimp only
  simp only [← flagsSub_eq]
  exact ⟨congrArg Host.Outcome.next (cmpOp_flags h first second), cmpi_flags h first,
    congrArg Host.Outcome.next (cmpOp_flags h fixFirst fixSecond), suba_writes h toV addrFirst addrSecond,
    cmpeq_flags h low high anyFirst anySecond⟩

/-- Settles O13: `divOp_writes` with the quotients of `sdiv_eq` and `udiv_eq`. -/
theorem division : Obligations.Division := by
  unfold Obligations.Division
  intro s n rd ra rb a b h toV first second divisor
  dsimp only
  rw [← sdiv_eq, ← udiv_eq]
  exact ⟨congrArg Host.Outcome.next (divOp_writes h toV first second divisor),
    congrArg Host.Outcome.next (divOp_writes h toV first second divisor)⟩

end Sys2Proof.Machine
end

section
/-! SUPPORT. Fixed-point results and the accumulators: rounding, saturation, and what a shifted accumulator gives (R336, R337, R340,
R343). -/

namespace Sys2Proof.Machine

/-! ### Saturation and rounding -/

/-- A value held within bounds is the bound that it passes, or itself. -/
theorem clampInt_eq {lo hi : Int} (h : lo ≤ hi) (i : Int) :
    clampInt lo hi i = if i < lo then lo else if hi < i then hi else i := by
  unfold clampInt
  split_ifs <;> omega

theorem saturateFix_eq (i : Int) : saturateFix i =
    if i < -(2 ^ 31) then 0x80000000#32 else if 2 ^ 31 - 1 < i then 0x7FFFFFFF#32 else BitVec.ofInt 32 i := by
  rw [saturateFix, clampInt_eq (by decide)]
  split_ifs <;> rfl

/-- FDIV divides by the size of its divisor, with the sign on the dividend (R340). -/
theorem fixQuotient_eq {x y : Int} (divisor : y ≠ 0) :
    fixQuotient x y = (2 * (x * 65536 * y.sign) + y * y.sign) / (2 * (y * y.sign)) := by
  have size : ((y.natAbs : Nat) : Int) = y * y.sign := (Int.mul_sign_self y).symm
  unfold fixQuotient roundDiv
  rw [Nat.cast_mul, size]
  rcases lt_or_gt_of_ne divisor with negative | positive
  · rw [if_pos negative, Int.sign_eq_neg_one_of_neg negative, Int.mul_neg_one, Int.mul_neg_one]
    rfl
  · rw [if_neg (by omega), Int.sign_eq_one_of_pos positive, Int.mul_one, Int.mul_one]
    rfl

/-- FTOI drops the 16 bits of the fraction (R340). -/
theorem sshiftRight_ofInt (x : Word) : x.sshiftRight 16 = BitVec.ofInt 32 (x.toInt / 65536) := by
  rw [BitVec.sshiftRight, Int.shiftRight_eq_div_pow]
  rfl

/-! ### Fixed-point rows -/

section
variable {s : State} {n : Fin 4} {rd ra rb : BitVec 4} {a x y : Word}

/-- A state whose core `n` has written a result of the fixed-point rows: `i` multiples of 2⁻¹⁶, saturated, with N, Z and V (R337,
R340). -/
def writesFix (s : State) (n : Fin 4) (rd : BitVec 4) (i : Int) : State :=
  writes s n 1 rd (tagged tagFix (saturateFix i)) (flagsNZV (saturateFix i) (beyondFix i))

theorem fixOp_writes {f : Int → Int → Int} (h : Issues s n 1) (toV : isPointer rd = false)
    (first : reg s n ra = tagged tagFix x) (second : reg s n rb = tagged tagFix y) :
    runInstr s n 1 (fixOp rd ra rb f) = writesFix s n rd (f x.toInt y.toInt) :=
  runInstr_writes h (binOp_reads first second (destTrap_v toV _))

theorem fdiv_writes (h : Issues s n 1) (toV : isPointer rd = false) (first : reg s n ra = tagged tagFix x)
    (second : reg s n rb = tagged tagFix y) (divisor : y ≠ 0) :
    exec (.fdiv n rd ra rb) s = .next (writesFix s n rd (fixQuotient x.toInt y.toInt)) := by
  have passes : trapIf (y == 0) (trapOf trDivZero) = none := if_neg (by simpa using divisor)
  refine congrArg Host.Outcome.next (runInstr_writes h ((binOp_reads first second (destTrap_v toV _)).trans ?_))
  rw [passes]
  rfl

theorem itof_writes (h : Issues s n 1) (toV : isPointer rd = false) (first : reg s n ra = intWord a) :
    exec (.itof n rd ra) s = .next (writesFix s n rd (a.toInt * 65536)) :=
  congrArg Host.Outcome.next (runInstr_writes h (unOp_reads first (destTrap_v toV _)))

theorem ftoi_writes (h : Issues s n 1) (toV : isPointer rd = false) (first : reg s n ra = tagged tagFix x) :
    exec (.ftoi n rd ra) s = .next (writes s n 1 rd (intWord (x.sshiftRight 16)) (flagsNZ (x.sshiftRight 16))) :=
  congrArg Host.Outcome.next (runInstr_writes h (unOp_reads first (destTrap_v toV _)))

end

/-- Settles O14: each row gives its exact result to `writesFix`. -/
theorem fixedPoint : Obligations.FixedPoint := by
  unfold Obligations.FixedPoint
  intro s n rd ra rb fa fb a x y h toV int first second
  dsimp only
  simp only [← saturateFix_eq, ← sshiftRight_ofInt]
  refine ⟨congrArg Host.Outcome.next (fixOp_writes h toV first second),
    congrArg Host.Outcome.next (fixOp_writes h toV first second),
    congrArg Host.Outcome.next (fixOp_writes h toV first second), fun divisor => ?_, itof_writes h toV int,
    ftoi_writes h toV first⟩
  have nonzero : y.toInt ≠ 0 := fun zero => divisor (BitVec.eq_of_toInt_eq zero)
  rw [← fixQuotient_eq nonzero]
  exact fdiv_writes h toV first second divisor

/-! ### Accumulators -/

theorem accOf_eq (c : Core) (q : Bool) : accOf c q = if q then c.q[1] else c.q[0] := by
  cases q <;> simp [accOf, b2n, List.getD]

theorem putAcc_eq (c : Core) (q : Bool) (v : BitVec 72) :
    putAcc c q v = { c with q := if q then #v[c.q[0], v] else #v[v, c.q[1]] } := by
  have pair : c.q.setIfInBounds (b2n q) v = if q then #v[c.q[0], v] else #v[v, c.q[1]] := by
    ext i hi
    cases q <;> interval_cases i <;> simp [b2n]
  rw [putAcc, pair]

/-- An INT goes to an accumulator with its sign, a FIX 16 bits further left (R343). -/
theorem signExtend_ofInt (w : Word) : w.signExtend 72 = BitVec.ofInt 72 w.toInt := rfl

theorem signExtend_shift (w : Word) : w.signExtend 72 <<< 16 = BitVec.ofInt 72 (w.toInt * 65536) := by
  rw [signExtend_ofInt, BitVec.shiftLeft_eq_mul_twoPow, BitVec.ofInt_mul]
  rfl

theorem saturateQ_eq (i : Int) : execMfq.saturateQ i =
    BitVec.ofInt 32 (if i < -(2 ^ 31) then -(2 ^ 31) else if 2 ^ 31 - 1 < i then 2 ^ 31 - 1 else i) := by
  rw [execMfq.saturateQ, clampInt_eq (by decide)]

section
variable {s : State} {n : Fin 4} {rd ra rb tag : BitVec 4} {q t : Bool} {shift : BitVec 5} {a b x : Word}

theorem macOp_puts (h : Issues s n 1) (first : regOf (coreOf s n.val) ra = tagged tag a)
    (second : regOf (coreOf s n.val) rb = tagged tag b) (valid : Acceptable tag := by decide) :
    runInstr s n 1 (macOp tag ra rb q) =
      goesOn s n 1 (putAcc (coreOf s n.val) q (accOf (coreOf s n.val) q + BitVec.ofInt 72 (a.toInt * b.toInt))) := by
  refine runInstr_goesOn (f := id) h ?_
  rw [macOp, tagTrap_tagged first (contains_own _) valid, tagTrap_tagged second (contains_own _) valid, first, second,
    payload_tagged, payload_tagged]
  rfl

theorem mtq_int (h : Issues s n 1) (first : regOf (coreOf s n.val) ra = intWord a) :
    exec (.mtq n ra q) s = .next (goesOn s n 1 (putAcc (coreOf s n.val) q (a.signExtend 72))) := by
  refine congrArg Host.Outcome.next (runInstr_goesOn (f := id) h ?_)
  dsimp only
  rw [tagTrap_tagged first rfl, first, tagOf_intWord, payload_intWord]
  rfl

theorem mtq_fix (h : Issues s n 1) (first : regOf (coreOf s n.val) ra = tagged tagFix x) :
    exec (.mtq n ra q) s = .next (goesOn s n 1 (putAcc (coreOf s n.val) q (x.signExtend 72 <<< 16))) := by
  refine congrArg Host.Outcome.next (runInstr_goesOn (f := id) h ?_)
  dsimp only
  rw [tagTrap_tagged first rfl, first, tagOf_tagged, payload_tagged]
  rfl

theorem mfq_writes (h : Issues s n 1) (toV : isPointer rd = false) :
    exec (.mfq n rd q shift t) s =
      .next (writes s n 1 rd
        (tagged (if t then tagFix else tagInt)
          (execMfq.saturateQ ((accOf (coreOf s n.val) q).toInt / 2 ^ shift.toNat)))
        { v := some (execMfq.beyondQ ((accOf (coreOf s n.val) q).toInt / 2 ^ shift.toNat)) }) := by
  refine congrArg Host.Outcome.next (runInstr_writes h ?_)
  dsimp only
  rw [destTrap_v toV, BitVec.toInt_sshiftRight, Int.shiftRight_eq_div_pow]
  rfl

end

/-- Settles O17: what each row puts in its accumulator, and `mfq_writes`. -/
theorem accumulators : Obligations.Accumulators := by
  unfold Obligations.Accumulators
  intro s n rd ra rb fa fb q t shift a b x y h toV first second fixFirst fixSecond
  dsimp only
  rw [← accOf_eq, ← saturateQ_eq, ← signExtend_shift]
  simp only [← putAcc_eq]
  exact ⟨congrArg Host.Outcome.next (macOp_puts h first second), congrArg Host.Outcome.next (macOp_puts h fixFirst fixSecond),
    mtq_int h first, mtq_fix h fixFirst, mfq_writes h toV, congrArg Host.Outcome.next (runInstr_goesOn (f := id) h rfl)⟩

end Sys2Proof.Machine
end

section
/-! SUPPORT. Pixels and beam positions as their fields (R109, R300, R336, R341, R342). -/

namespace Sys2Proof.Machine

/-- A field is its word, divided by the power of two of its lowest bit, modulo that of its width. -/
theorem bitsOf_div (w : Word) {hi lo : Nat} (h : lo ≤ hi) (h' : hi < 32) :
    bitsOf w hi lo = w.toNat / 2 ^ lo % 2 ^ (hi + 1 - lo) := by
  apply Nat.eq_of_testBit_eq
  intro i
  have inside : i < hi + 1 - lo ↔ i + lo ≤ hi := by omega
  rw [bitsOf_testBit _ _ _ _ h h', Nat.testBit_mod_two_pow, Nat.testBit_div_two_pow, BitVec.getLsbD, decide_eq_decide.mpr inside]

/-! ### Channels -/

theorem channel_eq (w : Word) {i : Nat} (h : i < 4) : channel w i = w.toNat / 2 ^ (8 * i) % 256 := by
  rw [channel, bitsOf_div w (by omega) (by omega), show 8 * i + 7 + 1 - 8 * i = 8 by omega]
  rfl

theorem channel_le (w : Word) {i : Nat} (h : i < 4) : channel w i ≤ 255 := by
  rw [channel_eq w h]
  omega

/-- A pixel made of four channels has them. -/
theorem channel_pixelOf {f : Nat → Nat} (bounds : ∀ i < 4, f i ≤ 255) {i : Nat} (h : i < 4) : channel (pixelOf f) i = f i := by
  have b := bounds 0 (by decide)
  have g := bounds 1 (by decide)
  have r := bounds 2 (by decide)
  have a := bounds 3 (by decide)
  have word : (pixelOf f).toNat = f 0 + f 1 * 2 ^ 8 + f 2 * 2 ^ 16 + f 3 * 2 ^ 24 := by
    rw [pixelOf, BitVec.toNat_ofNat]
    omega
  rw [channel_eq _ h, word]
  interval_cases i <;> omega

/-- Putting a byte in one channel leaves the others. -/
theorem channel_putBits (w : Word) (v : Nat) {k i : Nat} (hk : k < 4) (h : i < 4) :
    channel (putBits w (8 * k + 7) (8 * k) v) i = if i = k then v % 256 else channel w i := by
  unfold channel
  split
  · next same =>
    subst same
    rw [bitsOf_putBits_same _ _ _ _ (by omega) (by omega), show 8 * i + 7 + 1 - 8 * i = 8 by omega]
    rfl
  · exact bitsOf_putBits_ne _ _ _ _ _ _ (by omega) (by omega) (by omega) (by omega) (by omega)

theorem over255_le {m k : Nat} (h : m ≤ 255 * k) : over255 m ≤ k := by
  unfold over255
  omega

theorem channel_addPixels (a b : Word) {i : Nat} (h : i < 4) :
    channel (addPixels a b) i = min 255 (channel a i + channel b i) :=
  channel_pixelOf (fun _ _ => Nat.min_le_left _ _) h

theorem channel_mulPixels (a b : Word) {i : Nat} (h : i < 4) :
    channel (mulPixels a b) i = over255 (channel a i * channel b i) :=
  channel_pixelOf (fun _ hi => over255_le (Nat.mul_le_mul (channel_le a hi) (channel_le b hi))) h

/-- The weights of a blend add up to 255. -/
theorem blend_le {α x y : Nat} (hα : α ≤ 255) (hx : x ≤ 255) (hy : y ≤ 255) : α * x + (255 - α) * y ≤ 255 * 255 := by
  have first : α * x ≤ α * 255 := Nat.mul_le_mul_left _ hx
  have second : (255 - α) * y ≤ (255 - α) * 255 := Nat.mul_le_mul_left _ hy
  omega

theorem channel_overPixels (a b : Word) {i : Nat} (h : i < 4) : channel (overPixels a b) i =
    if i = 3 then channel a 3 + over255 (channel b 3 * (255 - channel a 3))
    else over255 (channel a 3 * channel a i + (255 - channel a 3) * channel b i) := by
  refine channel_pixelOf (fun i hi => ?_) h
  have α := channel_le a (i := 3) (by decide)
  split
  · have below : over255 (channel b 3 * (255 - channel a 3)) ≤ 255 - channel a 3 :=
      over255_le (Nat.mul_le_mul_right _ (channel_le b (by decide)))
    omega
  · exact over255_le (blend_le α (channel_le a hi) (channel_le b hi))

section
variable {s : State} {n : Fin 4} {rd ra rb : BitVec 4} {ch : BitVec 2} {a b x : Word}

/-- An instruction that ends in a result without flags does nothing else. -/
theorem runInstr_loadsTagged {body : CoreBody} {tag : BitVec 4} {w : Word} (h : Issues s n 1)
    (ends : body s (coreOf s n.val) = resultOp s (coreOf s n.val) rd tag w {}) :
    runInstr s n 1 body = loads s n 1 rd (tagged tag w) := by
  rw [runInstr_writes h ends, writes, withFlags_none, loads]

theorem pixelOp_loads {f : Word → Word → Word} (h : Issues s n 1) (toV : isPointer rd = false)
    (first : reg s n ra = tagged tagPixel a) (second : reg s n rb = tagged tagPixel b) :
    runInstr s n 1 (pixelOp rd ra rb f) = loads s n 1 rd (tagged tagPixel (f a b)) :=
  runInstr_loadsTagged h (binOp_reads first second (destTrap_v toV _))

theorem pins_loads (h : Issues s n 1) (toV : isPointer rd = false) (first : reg s n ra = tagged tagPixel a)
    (second : reg s n rb = intWord x) : exec (.pins n rd ra rb ch) s =
      .next (loads s n 1 rd (tagged tagPixel (putBits a (8 * ch.toNat + 7) (8 * ch.toNat) (bitsOf x 7 0)))) :=
  congrArg Host.Outcome.next (runInstr_loadsTagged h (binOp_reads first second (destTrap_v toV _)))

theorem pext_loads (h : Issues s n 1) (toV : isPointer rd = false) (first : reg s n ra = tagged tagPixel a) :
    exec (.pext n rd ra ch) s = .next (loads s n 1 rd (intWord (BitVec.ofNat 32 (channel a ch.toNat)))) :=
  congrArg Host.Outcome.next (runInstr_loadsTagged h (unOp_reads first (destTrap_v toV _)))

end

/-- Settles O15: each row gives a pixel whose channels are known. -/
theorem pixels : Obligations.Pixels := by
  unfold Obligations.Pixels
  intro s n rd ra rb ia ch a b x h toV first second int
  have row (f : Word → Word → Word) :
      Host.Outcome.next (runInstr s n 1 (pixelOp rd ra rb f)) = (.next (loads s n 1 rd (tagged tagPixel (f a b))) : Out) :=
    congrArg Host.Outcome.next (pixelOp_loads h toV first second)
  refine ⟨⟨_, row _, fun i hi => ?padd⟩, ⟨_, row _, fun i hi => ?pmul⟩, ⟨_, row _, fun i hi => ?pover⟩,
    ⟨_, pins_loads h toV first int, fun i hi => ?pins⟩, ?pext⟩
  case padd =>
    beta_reduce
    rw [← channel_eq _ hi, ← channel_eq _ hi, ← channel_eq _ hi]
    exact channel_addPixels a b hi
  case pmul =>
    beta_reduce
    rw [← channel_eq _ hi, ← channel_eq _ hi, ← channel_eq _ hi]
    exact channel_mulPixels a b hi
  case pover =>
    beta_reduce
    rw [← channel_eq _ hi, ← channel_eq _ hi, ← channel_eq _ hi, ← channel_eq _ (by decide), ← channel_eq _ (by decide)]
    exact channel_overPixels a b hi
  case pins =>
    beta_reduce
    have low : bitsOf x 7 0 % 256 = x.toNat % 256 :=
      (congrArg (· % 256) (bitsOf_low x (by decide))).trans (Nat.mod_mod _ _)
    rw [← channel_eq _ hi, ← channel_eq _ hi, channel_putBits _ _ ch.isLt hi, low]
  case pext =>
    beta_reduce
    rw [← channel_eq _ ch.isLt]
    exact pext_loads h toV first

/-! ### Fields of a beam position -/

theorem beamLine_eq (w : Word) : beamLine w = w.toNat / 65536 := by
  have bound := w.isLt
  rw [beamLine, bitsOf_div w (by decide) (by decide)]
  omega

theorem beamFrac_eq (w : Word) : beamFrac w = w.toNat / 256 % 256 := bitsOf_div w (by decide) (by decide)

theorem beamFrame_eq (w : Word) : beamFrame w = w.toNat % 256 := bitsOf_low w (by decide)

theorem beamSaturated_eq (i : Int) : beamSaturated i = BitVec.ofInt 32
    (if i < -(2 ^ 31 - 1) then -(2 ^ 31 - 1) else if 2 ^ 31 - 1 < i then 2 ^ 31 - 1 else i) := by
  rw [beamSaturated, clampInt_eq (by decide)]

/-- A position `m` fractions into frame `f`, as a BEAM word and whether its line is too far for one (R342). -/
def beamAt (m f : Int) : Word × Bool :=
  (BitVec.ofInt 32 (if 65536 ≤ m / 256 then 0xFFFF * 65536 + 0xFF * 256 + f else m / 256 * 65536 + m % 256 * 256 + f),
    decide (65536 ≤ m / 256))

theorem beamWord_beamAt (m : Nat) {f : Nat} (h : f < 256) :
    (if 65536 ≤ m / 256 then (BitVec.ofNat 32 (beamWord 0xFFFF 0xFF f), true)
      else (BitVec.ofNat 32 (beamWord (m / 256) m f), false)) = beamAt m f := by
  have line : (65536 : Int) ≤ (m : Int) / 256 ↔ 65536 ≤ m / 256 := by omega
  unfold beamAt beamWord
  simp only [line]
  split
  · next far =>
    have word : (0xFFFF * 65536 + 0xFF * 256 + (f : Int)) =
        ((0xFFFF % 65536 * 65536 + 0xFF % 256 * 256 + f % 256 : Nat) : Int) := by omega
    rw [word, BitVec.ofInt_natCast, decide_eq_true far]
  · next near =>
    have word : ((m : Int) / 256 * 65536 + (m : Int) % 256 * 256 + (f : Int)) =
        ((m / 256 % 65536 * 65536 + m % 256 * 256 + f % 256 : Nat) : Int) := by omega
    rw [word, BitVec.ofInt_natCast, decide_eq_false near]

/-- BADD's sum: the fractions within a frame of `tl` lines, and the frame byte that takes what they carry (R342). -/
theorem beamSum_eq {tl : Nat} (lines : 0 < tl) (a b : Word) :
    beamSum tl a b = beamAt (((beamLine a * 256 + beamFrac a : Nat) + b.toInt) % (tl * 256 : Nat))
      ((beamFrame a + ((beamLine a * 256 + beamFrac a : Nat) + b.toInt) / (tl * 256 : Nat)) % 256) := by
  unfold beamSum
  dsimp only
  generalize ((beamLine a * 256 + beamFrac a : Nat) + b.toInt) = total
  obtain ⟨m, position⟩ := Int.eq_ofNat_of_zero_le (Int.emod_nonneg total (b := (tl * 256 : Nat)) (by omega))
  obtain ⟨f, frame⟩ := Int.eq_ofNat_of_zero_le
    (Int.emod_nonneg (beamFrame a + total / (tl * 256 : Nat)) (b := 256) (by decide))
  rw [position, frame, Int.toNat_natCast, Int.toNat_natCast]
  exact beamWord_beamAt m (by omega)

section
variable {s : State} {n : Fin 4} {rd ra rb : BitVec 4} {a b x : Word}

theorem bdiff_writes (h : Issues s n 1) (toV : isPointer rd = false) (first : reg s n ra = tagged tagBeam a)
    (second : reg s n rb = tagged tagBeam b) : exec (.bdiff n rd ra rb) s =
      .next (writes s n 1 rd (intWord (beamSaturated (beamDifference (houseLines s) a b)))
        (flagsNZV (beamSaturated (beamDifference (houseLines s) a b)) (beamBeyond (beamDifference (houseLines s) a b)))) :=
  congrArg Host.Outcome.next (runInstr_writes h (binOp_reads first second (destTrap_v toV _)))

theorem badd_writes (h : Issues s n 1) (toV : isPointer rd = false) (first : reg s n ra = tagged tagBeam a)
    (second : reg s n rb = intWord x) : exec (.badd n rd ra rb) s =
      .next (writes s n 1 rd (tagged tagBeam (beamSum (houseLines s) a x).1) { v := some (beamSum (houseLines s) a x).2 }) :=
  congrArg Host.Outcome.next (runInstr_writes h (binOp_reads first second (destTrap_v toV _)))

end

/-- Settles O16: the difference by the fields of its operands, the sum by `beamSum_eq`. -/
theorem beamArithmetic : Obligations.BeamArithmetic := by
  unfold Obligations.BeamArithmetic
  intro s n rd ra rb ia a b x h toV first second int
  dsimp only
  simp only [← beamLine_eq, ← beamFrac_eq, ← beamFrame_eq, ← beamSaturated_eq]
  refine ⟨bdiff_writes h toV first second, congrArg Host.Outcome.next (cmpOp_flags h first second), ?_⟩
  rw [badd_writes h toV first int, beamSum_eq (tl := houseLines s) (Nat.succ_pos _), Nat.cast_add, Nat.cast_mul, Nat.cast_mul]
  rfl

end Sys2Proof.Machine
end

section
/-! SUPPORT. Exchanges with SRAM, and the ends of WAIT and SYNC (R344, R345). -/

namespace Sys2Proof.Machine

/-! ### Exchanges -/

theorem Holds.readRaw {s : State} {n : Fin 4} {a : BitVec 24} {w : Tagged} (h : Holds s n a w) :
    readRaw s n.val a = (s, some w) := by
  obtain ⟨m, x, place, load⟩ := h
  rw [Machine.readRaw, place]
  dsimp only
  rw [load]
  rfl

/-- A word that an exchange may name is one of tagged memory. -/
theorem Storable.placeTrap_none {s : State} {n : Fin 4} {base : BitVec 4} {a : BitVec 24} (h : Storable s n base a) (t : Trap) :
    trapIf (!isTaggedPlace n.val a) t = none := by
  rw [h.1]
  rfl

section
variable {s : State} {n : Fin 4} {r base rd ra rb da sa : BitVec 4} {mode : BitVec 2} {off : BitVec 18}
  {p a d f : BitVec 24} {u v w : Tagged}

theorem xchg_stores (h : Issues s n 1) (addr : regOf (coreOf s n.val) base = addrWord p) (good : mode ≠ 3)
    (to' : Storable s n base (pointed mode p off)) (held : Holds s n (pointed mode p off) u) (fits : Fits r u) :
    exec (.xchg n r base mode off) s =
      .next (storeTagged (goesOn s n 1 (putReg (based (coreOf s n.val) mode base p off) r u)) n.val (pointed mode p off)
        (reg s n r)) := by
  have defined : modeBad mode = none := if_neg (by simpa using good)
  refine congrArg Host.Outcome.next (runInstr_stores h to' ?_)
  dsimp only
  rw [addr, addrOf_addrWord, fxAddress_pointed, defined, tagTrap_addr rfl, to'.placeTrap_none, updateBase_based, held.readRaw,
    Option.getD_some, pointerTrap_fits fits, to'.stackTrap_none]
  rfl

section
variable (h : Issues s n 1) (addr : regOf (coreOf s n.val) ra = addrWord a) (to' : Storable s n ra a) (held : Holds s n a v)
  (fits : Fits rd v)
include h addr to' held fits

theorem cas_stores (equal : v = reg s n rd) : exec (.cas n rd ra rb) s =
    .next (storeTagged (goesOn s n 1 (putReg (withFlags (coreOf s n.val) { z := some true }) rd v)) n.val a (reg s n rb)) := by
  have same : decide (some v = some (regOf (coreOf s n.val) rd)) = true := decide_eq_true (congrArg some equal)
  refine congrArg Host.Outcome.next (runInstr_stores h to' ?_)
  dsimp only
  rw [addr, addrOf_addrWord, tagTrap_addr rfl, to'.placeTrap_none, held.readRaw, Option.getD_some, pointerTrap_fits fits, same,
    to'.stackTrap_none]
  rfl

theorem cas_keeps (other : v ≠ reg s n rd) : exec (.cas n rd ra rb) s =
    .next (goesOn s n 1 (putReg (withFlags (coreOf s n.val) { z := some false }) rd v)) := by
  have apart : decide (some v = some (regOf (coreOf s n.val) rd)) = false :=
    decide_eq_false fun same => other (Option.some.inj same)
  refine congrArg Host.Outcome.next (runInstr_goesOn (f := id) h ?_)
  dsimp only
  rw [addr, addrOf_addrWord, tagTrap_addr rfl, to'.placeTrap_none, held.readRaw, Option.getD_some, pointerTrap_fits fits, apart]
  rfl

end

/-- MOVM moves both addresses on before the word is stored (R345). -/
theorem movm_stores (h : Issues s n 1) (dest : regOf (coreOf s n.val) da = addrWord d)
    (source : regOf (coreOf s n.val) sa = addrWord f) (to' : Storable s n da d) (held : Holds s n f w) :
    exec (.movm n da sa) s =
      .next (storeTagged (goesOn s n 1 (putReg (putReg (coreOf s n.val) da (addrWord (d + 1))) sa (addrWord (f + 1)))) n.val d
        w) := by
  refine congrArg Host.Outcome.next (runInstr_stores h to' ?_)
  dsimp only
  rw [dest, source, addrOf_addrWord, addrOf_addrWord, tagTrap_addr rfl, tagTrap_addr rfl, held.loadTrap_none,
    to'.storeTrap_none, to'.stackTrap_none, checked_none, checked_none, checked_none, checked_none, checked_none, checked_nil,
    held.loadFor, useWord, dest, source, addrOf_addrWord, addrOf_addrWord]

end

/-- Settles O21: each exchange by the store its end makes. -/
theorem exchanges : Obligations.Exchanges := by
  unfold Obligations.Exchanges
  intro s n r base rd ra rb da sa mode off p a d f u v w h addr good toPointed heldPointed fitsPointed pointer toWord heldWord
    fitsWord dest source toDest heldSource
  exact ⟨xchg_stores h addr good toPointed heldPointed fitsPointed, cas_stores h pointer toWord heldWord fitsWord,
    cas_keeps h pointer toWord heldWord fitsWord, movm_stores h dest source toDest heldSource⟩

/-! ### The ends of WAIT and SYNC -/

/-- A request above IPL ends the WAIT of a core that runs (R344). -/
theorem waitWake_wakes {s : State} {n : Fin 4} (clocked : coresClocked s = true) (runs : coreRun s n.val = true)
    (unlocked : coreLocked s n.val = false) (live : (coreOf s n.val).benchHalt = false)
    (waits : (coreOf s n.val).waiting = true) (above : aboveIpl s n.val = true) :
    waitWake s n.val = if (coreOf s n.val).sr.getLsbD 4 then interruptEntry s n.val
      else setCore s n.val { coreOf s n.val with waiting := false } := by
  rw [waitWake]
  simp only [clocked, runs, unlocked, live, waits, above, Bool.not_true, Bool.or_self, Bool.false_eq_true, if_false]
  rfl

/-- Settles O24: a wake by `waitWake_wakes`, the end of SYNC by its two conditions. -/
theorem waitsEnd : Obligations.WaitsEnd := by
  unfold Obligations.WaitsEnd
  intro s n
  refine ⟨fun clocked runs unlocked live waits above => ?_, fun syncs quiet => ?_⟩
  · have wakes := waitWake_wakes clocked runs unlocked live waits above
    refine ⟨fun disabled => congrArg Host.Outcome.next ?_, fun enabled => congrArg Host.Outcome.next ?_⟩
    · rw [wakes, disabled, if_neg Bool.false_ne_true]
    · rw [wakes, enabled, if_pos rfl]
  · refine congrArg Host.Outcome.next ?_
    dsimp only
    rw [syncs, quiet, Bool.and_self, if_pos rfl]

end Sys2Proof.Machine
end

section
/-! SUPPORT. Call frames: what CALL and CALLR push, and what RET takes back (R326, R350, R351). -/

namespace Sys2Proof.Machine

/-! ### Pushes -/

/-- The registers that MASK names. -/
abbrev maskBits (mask : BitVec 16) : List Nat := (List.range 16).filter fun i => mask.getLsbD i

theorem maskRegs_eq (mask : BitVec 16) :
    maskRegs mask = (maskBits mask).map fun i => if i = 15 then none else some (BitVec.ofNat 4 i) := rfl

/-- The words of a call frame, with the bank word for bit 15 (R350). -/
theorem callWords_eq (c : Core) (mask : BitVec 16) (ret : BitVec 24) : callWords c mask ret =
    [tagged tagCode (ret.setWidth 32), intWord (mask.setWidth 32)] ++
      (maskBits mask).map fun i => if i = 15 then bankWord c else regOf c (BitVec.ofNat 4 i) := by
  rw [callWords, maskRegs_eq, List.map_map]
  congr 2
  funext i
  rw [Function.comp_apply]
  by_cases bank : i = 15
  · rw [if_pos bank, if_pos bank]
  · rw [if_neg bank, if_neg bank]

theorem callWords_length (c : Core) (mask : BitVec 16) (ret : BitVec 24) :
    (callWords c mask ret).length = (maskBits mask).length + 2 := by
  rw [callWords_eq, List.length_append, List.length_map, Nat.add_comm]
  rfl

section
variable {s : State} {n : Fin 4}

/-- Words that may all be stored are pushed without a trap (R319, R326). -/
theorem pushTrap_none {low : BitVec 24} {k : Nat} (room : ∀ i < k, Storable s n rSP (low + BitVec.ofNat 24 i)) :
    pushTrap s n.val (coreOf s n.val) low k = none := by
  have noAddr : ((List.range k).map fun i => low + BitVec.ofNat 24 i).findSome? (fun a => storeTrap s n.val a) = none := by
    rw [List.findSome?_map, List.findSome?_eq_none_iff]
    exact fun i hi => (room i (List.mem_range.mp hi)).storeTrap_none
  have noStack : ((List.range k).map fun i => low + BitVec.ofNat 24 i).findSome?
      (fun a => stackTrap n.val (coreOf s n.val) rSP a) = none := by
    rw [List.findSome?_map, List.findSome?_eq_none_iff]
    exact fun i hi => (room i (List.mem_range.mp hi)).stackTrap_none
  rw [pushTrap]
  simp only [noAddr, noStack]

/-- A call whose frame may be stored pushes it and jumps (R350). -/
theorem callTo_jumps {mask : BitVec 16} {sp ret a : BitVec 24} {k : Nat} (stack : regOf (coreOf s n.val) rSP = addrWord sp)
    (room : ∀ i < (maskBits mask).length + 2,
      Storable s n rSP (sp - BitVec.ofNat 24 ((maskBits mask).length + 2) + BitVec.ofNat 24 i)) :
    callTo s n (coreOf s n.val) mask ret a k =
      (storeRun s n.val (sp - BitVec.ofNat 24 ((maskBits mask).length + 2)) (callWords (coreOf s n.val) mask ret),
        .jump (putReg (coreOf s n.val) rSP (addrWord (sp - BitVec.ofNat 24 ((maskBits mask).length + 2)))) a) := by
  unfold callTo
  dsimp only
  rw [stack, addrOf_addrWord, callWords_length, tagTrap_addr rfl, pushTrap_none room]
  rfl

/-- The state in which core `n` has called `a` with a frame of the registers of MASK (R350). -/
def called (s : State) (n : Fin 4) (mask : BitVec 16) (sp ret a : BitVec 24) : State :=
  setCore (storeRun s n.val (sp - BitVec.ofNat 24 ((maskBits mask).length + 2)) (callWords (coreOf s n.val) mask ret)) n.val
    { putReg (coreOf s n.val) rSP (addrWord (sp - BitVec.ofNat 24 ((maskBits mask).length + 2))) with pc := a }

section
variable {mask : BitVec 16} {sp : BitVec 24} (stack : regOf (coreOf s n.val) rSP = addrWord sp)
  (room : ∀ i < (maskBits mask).length + 2,
    Storable s n rSP (sp - BitVec.ofNat 24 ((maskBits mask).length + 2) + BitVec.ofNat 24 i))
include stack room

theorem call_calls {ext : Word} (h : IssuesAlone s n 2) (address : ext.toNat < 2 ^ 24) :
    exec (.call n mask ext) s = .next (called s n mask sp ((coreOf s n.val).pc + 2) (ext.setWidth 24)) := by
  refine congrArg Host.Outcome.next ((runControl_issues h _).trans ?_)
  rw [bitsOf_high_zero address, callTo_jumps stack room]
  rfl

theorem callr_calls {rt : BitVec 4} {w : Word} (h : IssuesAlone s n 1) (target : regOf (coreOf s n.val) rt = tagged tagCode w) :
    exec (.callr n rt mask) s = .next (called s n mask sp ((coreOf s n.val).pc + 1) (w.setWidth 24)) := by
  refine congrArg Host.Outcome.next ((runControl_issues h _).trans ?_)
  have code : tagTrap 0 [tagCode] (tagged tagCode w) = none := tagTrap_none (by simp) (by simp) (by simp)
  rw [target, code, callTo_jumps stack room, addrOf, payload_tagged]
  rfl

end

/-! ### RET -/

theorem HoldsRun.nil (a : BitVec 24) : HoldsRun s n a [] := fun i hi => absurd hi (Nat.not_lt_zero i)

theorem HoldsRun.cons {a : BitVec 24} {w : Tagged} {ws : List Tagged} (first : Holds s n a w) (rest : HoldsRun s n (a + 1) ws) :
    HoldsRun s n a (w :: ws)
  | 0, _ => by rwa [show a + BitVec.ofNat 24 0 = a from BitVec.add_zero a]
  | i + 1, hi => by
    have later := rest i (by simpa using hi)
    rwa [show a + 1 + BitVec.ofNat 24 i = a + BitVec.ofNat 24 (i + 1) by
      rw [BitVec.add_assoc, Nat.add_comm i 1, BitVec.ofNat_add]; rfl] at later

/-- The mask of a frame as its word has it. -/
theorem maskBits_setWidth (m : Word) : maskBits (m.setWidth 16) = (List.range 16).filter fun i => m.getLsbD i := by
  refine List.filter_congr fun i hi => ?_
  rw [BitVec.getLsbD_setWidth, decide_eq_true (List.mem_range.mp hi), Bool.true_and]

theorem retTrap_none (k : Nat) (want : BitVec 4) (w : Word) : retTrap k want (tagged want w) = none := by
  rw [retTrap, tagOf_tagged, decide_eq_false (not_not_intro rfl)]
  rfl

/-- RET from a frame that can be read takes its registers back and jumps to its return address (R351). -/
theorem ret_returns {sp q : BitVec 24} {m : Word} {ws : List Tagged} (h : IssuesAlone s n 1)
    (stack : regOf (coreOf s n.val) rSP = addrWord sp)
    (head : HoldsRun s n sp [tagged tagCode (q.setWidth 32), intWord m]) (saved : HoldsRun s n (sp + 2) ws)
    (all : ws.length = (maskRegs (m.setWidth 16)).length) :
    exec (.ret n) s = .next (setCore s n.val
      { putReg (restoreCall (coreOf s n.val) (maskRegs (m.setWidth 16)) ws) rSP (addrWord (sp + 2 + BitVec.ofNat 24 ws.length))
        with pc := q }) := by
  have headReads : stackReads s n sp 2 = (s, [tagged tagCode (q.setWidth 32), intWord m]) := head.stackReads
  have int : retTrap 1 tagInt (intWord m) = none := retTrap_none _ _ _
  have headTrap : loadRunTrap s n.val sp 2 = none := head.loadRunTrap
  refine congrArg Host.Outcome.next (runControl_jumps h ?_)
  unfold retBody
  dsimp only
  rw [stack, addrOf_addrWord, tagTrap_addr rfl, headTrap, headReads]
  simp only [List.getD_cons_zero, List.getD_cons_succ, retTrap_none, int, payload_intWord, ← all, saved.loadRunTrap,
    saved.stackReads, checked_none, checked_nil, addrOf_tagged]

end

/-- Settles O26: the calls by what they push, RET by the words its frame holds. -/
theorem calls : Obligations.Calls := by
  unfold Obligations.Calls
  intro s n mask ext w rt sp q m ws one two address target stack
  dsimp only
  refine ⟨fun room => ?_, fun code maskWord all saved => ?_⟩
  · rw [← callWords_eq, ← callWords_eq]
    exact ⟨call_calls stack room two address, callr_calls stack room one target⟩
  · have head : HoldsRun s n sp [tagged tagCode (q.setWidth 32), intWord m] :=
      HoldsRun.cons code (HoldsRun.cons maskWord (HoldsRun.nil _))
    have regs := maskRegs_eq (m.setWidth 16)
    rw [maskBits_setWidth] at regs
    rw [← regs]
    exact ret_returns one stack head saved (by rw [regs, List.length_map, all])

end Sys2Proof.Machine
end

section
/-! SUPPORT. What a report of the house die leaves, the map of the pages of house SRAM, and words that a read corrects (R357, R382,
R386, R387, R396, R397, R579). -/

namespace Sys2Proof.Machine

/-! ### Reports of the house die -/

/-- The registers that a record can change as it enters the recorder's queue or is dropped (R579). -/
abbrev recordRegisters : List Nat := [HS_RECCNT, HS_RECSTAT]

/-- A source of the house die that wakes nothing (R356, R538). -/
abbrev isHouseSource (n : Nat) : Prop := isScanSource n = false ∧ ¬ (192 ≤ n ∧ n ≤ 223)

theorem pulse_house (s : State) {n : Nat} (house : isHouseSource n) :
    pulse s n = { s with hic := { s.hic with edges := s.hic.edges ++ [n] } } := by
  obtain ⟨scan, awake⟩ := house
  rw [pulse, if_neg (by rw [scan]; exact Bool.false_ne_true), if_neg (by simpa using awake)]

namespace Reported

variable {as : List Nat} {s₀ s : State}

theorem recorder (h : Reported as s₀ s) (x : Recorder) : Reported as s₀ { s with recorder := x } :=
  h.trans ⟨rfl, fun _ _ => rfl⟩

theorem pulseHouse (h : Reported as s₀ s) {n : Nat} (house : isHouseSource n) : Reported as s₀ (Machine.pulse s n) := by
  rw [pulse_house s house]
  exact h.trans ⟨rfl, fun _ _ => rfl⟩

/-- Beyond the event bits of a house source there is the edge at most. -/
theorem raiseEvent_orF {n : Nat} (house : isHouseSource n) (s : State) (f : Fld) :
    Reported [] (Machine.orF s f 1) (Machine.raiseEvent s n f) := by
  unfold Machine.raiseEvent Machine.raiseBits
  dsimp only
  split
  · exact (refl [] _).pulseHouse house
  · exact refl [] _

theorem raiseHouse (h : Reported as s₀ s) {n : Nat} {f : Fld} (house : isHouseSource n) (own : f.addr ∈ as) :
    Reported as s₀ (Machine.raiseEvent s n f) :=
  (h.orF own 1).trans ((raiseEvent_orF house s f).mono (List.nil_subset as))

theorem flushDrops (h : Reported as s₀ s) : Reported as s₀ (Machine.flushDrops s) := by
  unfold Machine.flushDrops
  split
  · exact h.recorder _
  · exact h

theorem dropRecord (h : Reported as s₀ s) (own : recordRegisters ⊆ as) : Reported as s₀ (Machine.dropRecord s) := by
  have counted := h.countF (f := HS_RECCNT_DROPPED) (own (by decide)) 1
  have raised := counted.raiseHouse (n := 70) (f := HS_RECSTAT_DROPEV) (by decide) (own (by decide))
  exact (raised.recorder _).flushDrops

theorem enqueueLimited (h : Reported as s₀ s) (own : recordRegisters ⊆ as) (r : Rec) (cause : Nat) :
    Reported as s₀ (Machine.enqueueLimited s r cause) := by
  have send : ∀ folded, Reported as s₀ (enqueueLimited.send cause s r folded) := by
    intro folded
    unfold enqueueLimited.send
    split
    · exact h.recorder _
    · exact h.dropRecord own
  unfold Machine.enqueueLimited
  dsimp only
  split
  · split
    · split
      · exact h.recorder _
      · exact h.dropRecord own
    · exact send _
  · exact send _

/-- A record of the house die reaches the recorder, and the two registers of a record that is dropped (R578, R579). -/
theorem record (h : Reported as s₀ s) (own : recordRegisters ⊆ as) (cls : RecClass) (code p0 p1 p2 p3 cause : Nat) :
    Reported as s₀ (Machine.record s cls code p0 p1 p2 p3 cause) := by
  unfold Machine.record enqueueRecord
  dsimp only
  split
  · exact h.enqueueLimited own _ _
  · split
    · exact h.flushDrops.recorder _
    · exact h.flushDrops.dropRecord own

/-- A correction is counted, and its address kept (R382, R397). -/
theorem noteHouseCE (s : State) (m a : Nat) : Reported [HS_CEADDR, HS_MEMSTAT] (Machine.countF s HS_CECNT_CE 1)
    (Machine.noteHouseCE s m a) :=
  ((refl _ (Machine.countF s HS_CECNT_CE 1)).setRegWord (a := HS_CEADDR) (by decide) _).raiseHouse (by decide) (by decide)

end Reported

/-- The bit of an event of a house source reads 1. -/
theorem getF_raiseHouse (s : State) {n : Nat} (house : isHouseSource n) {f : Fld} (bit : f.hi = f.lo) (fits : f.fits) :
    getF (raiseEvent s n f) f = 1 := by
  have one : f.hi + 1 - f.lo = 1 := by omega
  have low := getF_lt s f fits
  rw [(Reported.raiseEvent_orF house s f).getF List.not_mem_nil, getF_orF_same _ _ _ fits (by rw [one]; decide)]
  rw [one] at low
  interval_cases getF s f <;> rfl

/-! ### The map of pages -/

/-- Marking a page leaves the bit of every other page. -/
theorem pageMarked_markPage_iff (s : State) (p q : Nat) :
    pageMarked (markPage s q) p = (decide (p = q) || pageMarked s p) := by
  by_cases same : p = q
  · rw [same, pageMarked_markPage, decide_eq_true rfl, Bool.true_or]
  · rw [decide_eq_false same, Bool.false_or, pageMarked, markPage, pageMarked]
    by_cases word : p / 32 = q / 32
    · have apart : ¬ p % 32 = q % 32 := by omega
      have bit : (1#32 <<< (q % 32) : Word).getLsbD (p % 32) = false := by
        rw [← BitVec.twoPow_eq, BitVec.getLsbD_twoPow, decide_eq_false (Ne.symm apart), Bool.and_false]
      rw [word, regWord_setRegWord_same, BitVec.getLsbD_or, bit, Bool.or_false]
    · rw [regWord_setRegWord_ne _ _ _ _ (by unfold HS_WMAP; omega)]

theorem pageMarked_markPages (ps : List Nat) (s : State) (p : Nat) :
    pageMarked (ps.foldl markPage s) p = (decide (p ∈ ps) || pageMarked s p) := by
  induction ps generalizing s with
  | nil => simp
  | cons q ps ih => simp [ih, pageMarked_markPage_iff, Bool.or_left_comm, Bool.or_assoc]

theorem mem_markPages (ps : List Nat) (s : State) : (ps.foldl markPage s).mem = s.mem := by
  induction ps generalizing s with
  | nil => rfl
  | cons q ps ih => exact ih _

theorem sramCell_congr {s t : State} (same : t.mem = s.mem) (m x : Nat) : sramCell t m x = sramCell s m x := by
  rw [sramCell, same, sramCell]

theorem pageMarked_congr {s t : State} {p : Nat} (same : regWord t (HS_WMAP (p / 32)) = regWord s (HS_WMAP (p / 32))) :
    pageMarked t p = pageMarked s p := by
  rw [pageMarked, same, pageMarked]

/-! ### Reads that find no error, and reads that correct one -/

/-- The state that a read leaves where it corrected a word: the word is stored again, and the correction counted at its row too. -/
abbrev wordCorrected (s : State) (m a : Nat) (w : Tagged) : State := noteRow16 (noteHouseCE (setCell s m a (.good w)) m a) m a

/-- Counting a correction at its row writes a record at most (R396). -/
theorem noteRow16_reported (s : State) (m a : Nat) :
    ∃ n, Reported recordRegisters { s with mem := { s.mem with corrections := n } } (noteRow16 s m a) := by
  refine ⟨(countCorrection s (sramMacro m a) (Config.sramRow (sramMacro m a) a)).1.mem.corrections, ?_⟩
  unfold noteRow16
  dsimp only
  split
  · exact (Reported.refl _ _).record (List.Subset.refl _) _ _ _ _ _ _ _
  · exact Reported.refl _ _

/-- A correction leaves the word good, and counts (R382, R397). -/
theorem wordCorrected_good {m : Nat} (memory : m ≤ 4) (s : State) (a : Nat) (w : Tagged) :
    sramCell (wordCorrected s m a w) m a = .good w ∧
      getF (wordCorrected s m a w) HS_CECNT_CE = min 0xFFFF (getF s HS_CECNT_CE + 1) := by
  obtain ⟨n, row⟩ := noteRow16_reported (noteHouseCE (setCell s m a (.good w)) m a) m a
  have noted := Reported.noteHouseCE (setCell s m a (.good w)) m a
  have cell : ∀ x : State, ∀ l, sramCell { x with mem := { x.mem with corrections := l } } m a = sramCell x m a := fun _ _ => rfl
  constructor
  · rw [row.view (sramCell · m a) fun _ _ _ _ _ => rfl, cell, noted.view (sramCell · m a) fun _ _ _ _ _ => rfl]
    exact (sramCell_setCell memory s a m a _).trans (if_pos rfl)
  · rw [row.getF (by decide), getF_with_mem, noted.getF (by decide), getF_countF_same _ _ _ (by decide), Nat.min_comm,
      getF_congr (regWord_setCell s m a _ _)]
    rfl

/-- A read that leaves the state as it is: of an unmarked page, or of a word without an error. -/
theorem sramLoad_clean {s : State} {a : Nat} {w : Tagged} (load : sramLoad s 0 a = (s, some w)) :
    pageMarked s (a / 1024) = false ∧ w = 0 ∨
      pageMarked s (a / 1024) = true ∧ cellValue 0 a (sramCell s 0 a) = some (w, false) := by
  cases marked : pageMarked s (a / 1024)
  · rw [sramLoad, marked] at load
    exact .inl ⟨rfl, (Option.some.inj (congrArg Prod.snd load)).symm⟩
  · refine .inr ⟨rfl, ?_⟩
    rw [sramLoad, marked] at load
    simp only [decide_true, Bool.not_true, Bool.and_false, Bool.false_eq_true, if_false] at load
    cases value : cellValue 0 a (sramCell s 0 a) with
    | none =>
      rw [value] at load
      cases congrArg Prod.snd load
    | some v =>
      obtain ⟨v, corrected⟩ := v
      rw [value] at load
      cases corrected
      · have same : v = w := Option.some.inj (congrArg Prod.snd load)
        rw [same]
      · have good := (wordCorrected_good (Nat.zero_le 4) s a v).1
        have still : wordCorrected s 0 a v = s := congrArg Prod.fst load
        rw [still] at good
        rw [good] at value
        cases value

/-- Such a read gives the same word in any state with the same memory and map. -/
theorem sramLoad_steady {s t : State} {a : Nat} {w : Tagged} (load : sramLoad s 0 a = (s, some w)) (memory : t.mem = s.mem)
    (map : pageMarked t (a / 1024) = pageMarked s (a / 1024)) : sramLoad t 0 a = (t, some w) := by
  rcases sramLoad_clean load with ⟨unmarked, rfl⟩ | ⟨marked, value⟩
  · rw [sramLoad, map, unmarked]
    rfl
  · rw [sramLoad, map, marked, sramCell_congr memory, value]
    rfl

end Sys2Proof.Machine
end

section
/-! SUPPORT. The memory block of the house die: writes of its registers, the patrols, the initialiser and the written map (R386,
R388, R391, R392, R397; log entry 31). -/

namespace Sys2Proof.Machine

/-! ### Writes of the block's registers -/

/-- A register of the house die's memory block (R397). -/
abbrev isMemoryRegister (a : Nat) : Prop := 0x10C000 ≤ a ∧ a < 0x10D000

/-- A write of a register of the memory block: by its fields, where no operation stores or keeps them itself. -/
theorem rowWrite_memory {s : State} {src : Src} {a : Nat} {w : Word} {r : RegSpec} {idx : List Nat} (on : houseOn s = true)
    (own : isMemoryRegister a) (spec : regSpecAt a = some (r, idx)) (always : r.presence = .always) (early : r.hook ≠ .hsRsvwr) :
    rowWrite s src a w = .next (countOnce s ((specialWrite s src r idx a w).getD
      (afterHouseWrite s (fieldsWritten s r a w) src r.hook (idx.headD 0) a w))) := by
  obtain ⟨low, high⟩ := own
  have present : registerPresent s.variant r idx = true := by rw [registerPresent, always]
  have house : isScanAddr a = false := by
    simp only [isScanAddr, decide_eq_false_iff_not]
    omega
  have pad : isPadBlock a = false := by
    simp only [isPadBlock, Bool.and_eq_false_iff, decide_eq_false_iff_not]
    omega
  have lock : breakLockSequence s src a = s := by rw [breakLockSequence, pad, if_neg Bool.false_ne_true]
  have fields : writeFields s r idx a w = fieldsWritten s r a w := writeFields_present present
  have answer : a ≠ HS_ODFWANS := by unfold HS_ODFWANS; omega
  have go : a ≠ HS_ODCTL := by unfold HS_ODCTL; omega
  rw [rowWrite, house, if_neg Bool.false_ne_true, whenHouse_on on]
  simp only [regWrite, answer, go, if_false, decide_false, Bool.false_and, Bool.false_eq_true, regWriteBase, spec, present,
    if_true, writeRegister, beforeWrite_other early, lock, ite_self, fields, house]
  cases specialWrite s src r idx a w <;> rfl

/-- The bit that a command sets reads 1. -/
theorem withOnes_getLsbD_same (w : Word) {f : Fld} (bit : f.hi = f.lo) (small : f.lo < 32) : (withOnes w f).getLsbD f.lo = true := by
  rw [withOnes, BitVec.getLsbD_or, fieldMask_getLsbD _ _ _ bit.ge (bit ▸ small), bit]
  simp

/-- A write that is counted counts once, however many of its parts count it (R14). -/
theorem countOnce_counted {s x : State} (counted : min 0xFFFFFF (getF s HS_RSVWR_COUNT + 1) ≤ getF x HS_RSVWR_COUNT) :
    getF (countOnce s x) HS_RSVWR_COUNT = min 0xFFFFFF (getF s HS_RSVWR_COUNT + 1) := by
  have most : getF x HS_RSVWR_COUNT < 2 ^ 24 := getF_lt x HS_RSVWR_COUNT (by decide)
  unfold countOnce
  dsimp only
  split
  · next more =>
    have once : getF (setF x HS_RSVWR_COUNT (getF s HS_RSVWR_COUNT + 1)) HS_RSVWR_COUNT =
        (getF s HS_RSVWR_COUNT + 1) % 2 ^ 24 := getF_setF_same x HS_RSVWR_COUNT _ (by decide)
    rw [getF_setF_ne _ _ _ _ (by decide) (by decide) (by decide), once]
    omega
  · omega

/-! ### The patrols -/

/-- The house patrol goes on past the word that it reads, and notes the end of a pass (R391). -/
theorem houseScrub_goesOn {s : State} (on : flag s HS_MEMCTL_SCRUBEN = true) :
    (houseScrub s).mem.patrol =
        (if patrolFrom s 512 s.mem.patrol + 1 < 589824 then patrolFrom s 512 s.mem.patrol + 1 else 0) ∧
      (589824 ≤ patrolFrom s 512 s.mem.patrol + 1 → getF (houseScrub s) HS_MEMSTAT_PASSEV = 1) := by
  unfold houseScrub
  rw [on, Bool.not_true, if_neg Bool.false_ne_true]
  dsimp only
  split
  · next more => exact ⟨rfl, fun last => absurd more (Nat.not_lt.mpr last)⟩
  · refine ⟨?_, fun _ => getF_raiseHouse _ (by decide) rfl (by decide)⟩
    exact (Reported.raiseEvent_orF (by decide) _ _).view (·.mem.patrol) fun _ _ _ _ _ => rfl

/-- Where the patrol finds a wrong bit in a marked page it leaves the word corrected (R382, R391). -/
theorem houseScrub_corrects {s : State} (on : flag s HS_MEMCTL_SCRUBEN = true) {p : Nat}
    (place : patrolFrom s 512 s.mem.patrol = p) (house : p < 524288) (marked : pageMarked s (p / 1024) = true) {w : Tagged}
    (wrong : sramCell s 0 p = .single w) : sramCell (houseScrub s) 0 p = .good w ∧
      getF (houseScrub s) HS_CECNT_CE = min 0xFFFF (getF s HS_CECNT_CE + 1) := by
  have load : sramLoad s 0 p = (wordCorrected s 0 p w, some w) := by
    rw [sramLoad, marked, wrong]
    rfl
  have more : p + 1 < 589824 := by omega
  have good := wordCorrected_good (Nat.zero_le 4) s p w
  unfold houseScrub
  rw [on, Bool.not_true, if_neg Bool.false_ne_true, place]
  dsimp only
  rw [if_pos house, if_pos more, load]
  exact good

theorem mramScrub_corrects {s : State} {b : Nat} (wrong : blockState s b = .corrected) :
    blockState (touchBlock s b).1 b = .good := by
  unfold touchBlock
  rw [wrong]
  dsimp only
  rw [(Reported.noteHouseCE _ 5 (32 * b)).view (blockState · b) fun _ _ _ _ _ => rfl]
  exact sget_sput_same s.mem.blocks .good b .good

/-- The DRAM patrol stays within what requesters reach (R102, R392). -/
theorem scrubNext_open {s : State} {p place : Nat} (next : scrubNext s p = some place) :
    unitClosed (place % 2 ^ 32) = false := by
  have range {n : Nat} {r : Nat × Nat} (within : scrubRange s n = some r) : r.1 ≤ r.2 ∧ r.2 ≤ dramTop / 64 := by
    unfold scrubRange at within
    dsimp only at within
    split at within
    · next on =>
      simp only [Bool.and_eq_true, decide_eq_true_eq] at on
      rw [← Option.some.inj within]
      exact ⟨on.2, Nat.min_le_right _ _⟩
    · cases within
  have reach {n u : Nat} (low : u ≤ dramTop / 64) : unitClosed ((n * 2 ^ 32 + u) % 2 ^ 32) = false := by
    have below : u < 2 ^ 32 := Nat.lt_of_le_of_lt low (by decide)
    rw [Nat.mul_add_mod', Nat.mod_eq_of_lt below, unitClosed, decide_eq_false (Nat.not_lt.mpr low)]
  have after {n : Nat} (started : scrubNext.after s n = some place) : unitClosed (place % 2 ^ 32) = false := by
    unfold scrubNext.after at started
    obtain ⟨i, -, found⟩ := List.exists_of_findSome?_eq_some started
    obtain ⟨r, within, rfl⟩ := Option.map_eq_some_iff.mp found
    obtain ⟨rising, top⟩ := range within
    exact reach (rising.trans top)
  unfold scrubNext at next
  dsimp only at next
  split at next
  · next lo hi within =>
    obtain ⟨rising, top⟩ := range within
    split at next
    · rw [← Option.some.inj next]
      exact reach (rising.trans top)
    · split at next
      · next inside =>
        rw [← Option.some.inj next, unitClosed, decide_eq_false (Nat.not_lt.mpr (inside.trans top))]
      · exact after next
  · exact after next

/-- A read of a unit with a wrong bit leaves it good, and counts (R382). -/
theorem touchUnit_corrects {s : State} {u : Nat} (inReach : unitClosed u = false) (wrong : unitState s u = .single) (req : Nat) :
    unitState (touchUnit s u req) u = .good ∧
      getF (touchUnit s u req) SC_ECCCNT_CE = min 0xFFFF (getF s SC_ECCCNT_CE + 1) := by
  have still : unitState (perfCount s 0x01 1) u = .single := by
    rw [unitState, ((LeavesScene.refl s).perfCount 0x01 1).dram]
    exact wrong
  have touched : touchUnit s u req = noteScanCE (setUnit (perfCount s 0x01 1) u .good) := by
    rw [touchUnit, inReach, if_neg Bool.false_ne_true]
    dsimp only
    rw [still]
  rw [touched]
  constructor
  · rw [unitState, ((LeavesScene.refl _).noteScanCE).dram]
    exact sget_sput_same (perfCount s 0x01 1).dram.units .unwritten u .good
  · rw [noteScanCE, getF_raiseEvent_ne _ rfl (by decide) (by decide) (by decide), getF_countF_same _ _ _ (by decide),
      Nat.min_comm]
    refine congrArg (fun c => min 0xFFFF (c + 1)) (getF_congr ?_)
    exact (regWord_with_dram _ _ _).trans (perfCount_regWord s 0x01 1 (by decide))

/-! ### The initialiser -/

/-- The words of a run read as UNSET, the others as before (R388). -/
theorem sget_fillCells_run (m : SMap SramCell) (lo n x : Nat) (d : SramCell) :
    sget (fillCells m lo n) d x = if lo ≤ x ∧ x < lo + n then .good 0 else sget m d x := by
  have run : ∀ k ≤ n, sfind ((List.range k).map fun i => (lo + i, SramCell.good 0)) x =
      if lo ≤ x ∧ x < lo + k then some (.good 0) else none := by
    intro k
    induction k with
    | zero => exact fun _ => (if_neg (by omega)).symm
    | succ k ih =>
      intro more
      rw [List.range_succ, List.map_append, sfind_append, ih (by omega)]
      by_cases last : x = lo + k
      · simp [sfind, last]
      · by_cases before : lo ≤ x ∧ x < lo + k
        · rw [if_pos before, if_pos (by omega)]
          rfl
        · rw [if_neg before, if_neg (by omega)]
          simp [sfind, last]
  unfold sget fillCells
  rw [sfind_append, sfind_append, run n (Nat.le_refl n)]
  by_cases below : x < lo
  · rw [sfind_filter_pos m (fun k => decide (k < lo)) x (by simpa using below),
      sfind_filter_neg m (fun k => decide (lo + n ≤ k)) x (by simp; omega), if_neg (by omega), if_neg (by omega)]
    simp
  · rw [sfind_filter_neg m (fun k => decide (k < lo)) x (by simpa using below)]
    by_cases inside : lo ≤ x ∧ x < lo + n
    · simp [inside]
    · rw [if_neg inside, if_neg inside, sfind_filter_pos m (fun k => decide (lo + n ≤ k)) x (by simp; omega)]
      simp

/-- The words that are left of the pages are written, and every page of them is marked (R388). -/
theorem initWords_ends (s : State) (x : Nat) :
    if s.mem.initNext ≤ x ∧ x / 1024 ≤ s.mem.initPages.2.toNat
      then sramCell (initWords s 524288) 0 x = .good 0 ∧ pageMarked (initWords s 524288) (x / 1024) = true
      else sramCell (initWords s 524288) 0 x = sramCell s 0 x := by
  have pages : s.mem.initPages.2.toNat < 512 := s.mem.initPages.2.isLt
  have last : min (s.mem.initNext + 524288) (1024 * (s.mem.initPages.2.toNat + 1)) =
      1024 * (s.mem.initPages.2.toNat + 1) := by omega
  unfold initWords
  dsimp only
  rw [last]
  by_cases done : 1024 * (s.mem.initPages.2.toNat + 1) ≤ s.mem.initNext
  · rw [if_pos done, if_neg (by omega)]
  · have cell : ∀ y : State, sramCell y 0 x = sget y.mem.sram .unwritten x := fun _ => rfl
    rw [if_neg done, cell, cell, mem_markPages]
    dsimp only
    rw [sget_fillCells_run]
    by_cases own : s.mem.initNext ≤ x ∧ x / 1024 ≤ s.mem.initPages.2.toNat
    · rw [if_pos own, if_pos (by omega)]
      refine ⟨rfl, ?_⟩
      have page : x / 1024 ∈ (List.range 512).filter fun p => decide (s.mem.initNext < 1024 * (p + 1)) &&
          decide (1024 * (p + 1) ≤ 1024 * (s.mem.initPages.2.toNat + 1)) := by
        simp only [List.mem_filter, List.mem_range, Bool.and_eq_true, decide_eq_true_eq]
        omega
      rw [pageMarked_markPages, decide_eq_true page, Bool.true_or]
    · rw [if_neg own, if_neg (by omega)]

theorem regSpecAt_memInit : ∃ r, regSpecAt HS_MEMINIT = some (r, []) ∧ r.presence = .always ∧ r.hook = .memInit ∧
    r.fields = [⟨"GO", 24, 24, .wo, 0, .any⟩, ⟨"LAST", 17, 9, .rw, 0, .any⟩, ⟨"FIRST", 8, 0, .rw, 0, .any⟩] :=
  ⟨_, rfl, rfl, rfl, rfl⟩

/-- The word of MEMINIT asks for the pages that its operand names (R388). -/
theorem memInit_word (val : Word) : (withOnes val HS_MEMINIT_GO).getLsbD 24 = true ∧
    bitsOf (withOnes val HS_MEMINIT_GO) 8 0 = bitsOf val 8 0 ∧ bitsOf (withOnes val HS_MEMINIT_GO) 17 9 = bitsOf val 17 9 :=
  ⟨withOnes_getLsbD_same val rfl (by decide), bitsOf_withOnes_apart val (by decide), bitsOf_withOnes_apart val (by decide)⟩

/-- The initialiser starts on the pages it is given (R388). -/
theorem meminit_starts {s : State} (on : houseOn s = true) (src : Src) {val : Word} (idle : getF s HS_MEMSTAT_INITBUSY = 0)
    (order : bitsOf val 8 0 ≤ bitsOf val 17 9) : Answers (.meminit src val) s fun t =>
      getF t HS_MEMSTAT_INITBUSY = 1 ∧ getF t HS_MEMINIT_FIRST = bitsOf val 8 0 ∧ getF t HS_MEMINIT_LAST = bitsOf val 17 9 ∧
      t.mem.initPages = (BitVec.ofNat 9 (bitsOf val 8 0), BitVec.ofNat 9 (bitsOf val 17 9)) ∧
      t.mem.initNext = 1024 * bitsOf val 8 0 := by
  obtain ⟨r, spec, always, hook, fields⟩ := regSpecAt_memInit
  obtain ⟨go, first, last⟩ := memInit_word val
  have taken : meminitIgnored s (withOnes val HS_MEMINIT_GO) = false := by
    rw [meminitIgnored, flag, idle, first, last, decide_eq_false (Nat.not_lt.mpr order)]
    rfl
  have special : specialWrite s src r [] HS_MEMINIT (withOnes val HS_MEMINIT_GO) = none := by
    simp only [specialWrite, hook, taken, Bool.and_false, Bool.false_eq_true, if_false]
  have write := rowWrite_memory (src := src) (w := withOnes val HS_MEMINIT_GO) on (by decide) spec always
    (by rw [hook]; decide)
  rw [special, Option.getD_none, hook] at write
  simp only [afterHouseWrite, go, if_true] at write
  have firstPage : getF (fieldsWritten s r HS_MEMINIT (withOnes val HS_MEMINIT_GO)) HS_MEMINIT_FIRST = bitsOf val 8 0 :=
    (fieldsWritten_field (f := HS_MEMINIT_FIRST) (g := ⟨"FIRST", 8, 0, .rw, 0, .any⟩) spec (by decide) rfl (by simp [fields])
      rfl rfl rfl rfl).trans first
  have lastPage : getF (fieldsWritten s r HS_MEMINIT (withOnes val HS_MEMINIT_GO)) HS_MEMINIT_LAST = bitsOf val 17 9 :=
    (fieldsWritten_field (f := HS_MEMINIT_LAST) (g := ⟨"LAST", 17, 9, .rw, 0, .any⟩) spec (by decide) rfl (by simp [fields])
      rfl rfl rfl rfl).trans last
  generalize fieldsWritten s r HS_MEMINIT (withOnes val HS_MEMINIT_GO) = x at write firstPage lastPage
  have small : bitsOf val 8 0 < 2 ^ 9 := bitsOf_lt val 8 0 (by decide) (by decide)
  have counted := countOnce_reported s (meminitGo x)
  have memory : (countOnce s (meminitGo x)).mem = (meminitGo x).mem := counted.view (·.mem) fun _ _ _ _ _ => rfl
  refine ⟨_, write, ?_, ?_, ?_, ?_, ?_⟩
  · rw [counted.getF (by decide), meminitGo, getF_setF_same _ _ _ (by decide)]
    rfl
  · rw [counted.getF (by decide), meminitGo, getF_setF_ne _ _ _ _ (by decide) (by decide) (by decide)]
    exact firstPage
  · rw [counted.getF (by decide), meminitGo, getF_setF_ne _ _ _ _ (by decide) (by decide) (by decide)]
    exact lastPage
  · rw [memory, ← firstPage, ← lastPage]
    rfl
  · rw [memory, ← firstPage]
    show 1024 * (BitVec.ofNat 9 (getF x HS_MEMINIT_FIRST)).toNat = _
    rw [firstPage, BitVec.toNat_ofNat, Nat.mod_eq_of_lt small]

/-- While it is busy, or with its pages in the wrong order, the write is only counted (R388). -/
theorem meminit_ignored {s : State} (on : houseOn s = true) (src : Src) {val : Word}
    (bad : getF s HS_MEMSTAT_INITBUSY = 1 ∨ bitsOf val 17 9 < bitsOf val 8 0) : Answers (.meminit src val) s fun t =>
      t.mem = s.mem ∧ regWord t HS_MEMINIT = regWord s HS_MEMINIT ∧
      getF t HS_RSVWR_COUNT = min 0xFFFFFF (getF s HS_RSVWR_COUNT + 1) := by
  obtain ⟨r, spec, always, hook, -⟩ := regSpecAt_memInit
  obtain ⟨go, first, last⟩ := memInit_word val
  have ignored : meminitIgnored s (withOnes val HS_MEMINIT_GO) = true := by
    rw [meminitIgnored, first, last, flag, Bool.or_eq_true, decide_eq_true_eq, bne_iff_ne]
    exact bad.imp_left fun busy => by rw [busy]; decide
  have special : specialWrite s src r [] HS_MEMINIT (withOnes val HS_MEMINIT_GO) = some (countReserved s) := by
    simp only [specialWrite, hook, go, ignored, Bool.and_self, if_true]
  have write := rowWrite_memory (src := src) (w := withOnes val HS_MEMINIT_GO) on (by decide) spec always
    (by rw [hook]; decide)
  rw [special, Option.getD_some] at write
  have counted : Reported [HS_RSVWR] s (countOnce s (countReserved s)) :=
    ((Reported.refl _ s).countIf (by decide) true).trans (countOnce_reported _ _)
  exact ⟨_, write, counted.view (·.mem) fun _ _ _ _ _ => rfl, counted.regs _ (by decide),
    countOnce_counted (countReserved_count s).ge⟩

/-- At its end INITBUSY falls, with every word of its pages written (R388). -/
theorem meminitDone_ends {s : State} (on : houseOn s = true) (busy : getF s HS_MEMSTAT_INITBUSY = 1) :
    Answers .meminitDone s fun t => getF t HS_MEMSTAT_INITBUSY = 0 ∧
      ∀ x, if s.mem.initNext ≤ x ∧ x / 1024 ≤ s.mem.initPages.2.toNat
        then sramCell t 0 x = .good 0 ∧ pageMarked t (x / 1024) = true
        else sramCell t 0 x = sramCell s 0 x := by
  have ends : meminitDone s = setF (initWords s 524288) HS_MEMSTAT_INITBUSY 0 := by
    rw [meminitDone, flag, busy]
    rfl
  have stat : ∀ p, HS_WMAP (p / 32) ≠ HS_MEMSTAT := fun p => by
    unfold HS_WMAP HS_MEMSTAT
    omega
  have map : ∀ p, pageMarked (meminitDone s) p = pageMarked (initWords s 524288) p := fun p => by
    rw [ends]
    exact pageMarked_congr (regWord_setF_ne _ _ _ _ (stat p))
  have cell : ∀ x, sramCell (meminitDone s) 0 x = sramCell (initWords s 524288) 0 x := fun x => by
    rw [ends]
    exact sramCell_congr (setF_mem _ _ _) 0 x
  refine ⟨_, whenHouse_on on _, ?_, fun x => ?_⟩
  · rw [ends]
    exact getF_setF_same (initWords s 524288) HS_MEMSTAT_INITBUSY 0 (by decide)
  · rw [map, cell]
    exact initWords_ends s x

/-! ### The map -/

theorem regSpecAt_wmap (i : Fin 16) : ∃ r, regSpecAt (HS_WMAP i.val) = some (r, [i.val]) ∧ r.presence = .always ∧
    r.hook = .none ∧ r.fields = [⟨"MAP", 31, 0, .w1s, 0, .any⟩] := by
  fin_cases i <;> exact ⟨_, rfl, rfl, rfl, rfl⟩

/-- A write by W1S of a whole word sets bits, and is never counted (R12). -/
theorem writeWord_w1s (v : Variant) (old new : Word) :
    writeWord v [⟨"MAP", 31, 0, .w1s, 0, .any⟩] old new = (old ||| new, false) := by
  have mask : fieldMask 31 0 = BitVec.allOnes 32 := by decide
  have whole : ∀ w : Word, bitsOf w 31 0 = w.toNat := fun w => by
    rw [bitsOf, mask, BitVec.and_allOnes, BitVec.ushiftRight_zero]
  have word : putBits old 31 0 (old.toNat ||| new.toNat) = old ||| new := by
    rw [putBits, mask, BitVec.shiftLeft_zero, BitVec.and_allOnes, BitVec.not_allOnes, ← BitVec.toNat_or, BitVec.ofNat_toNat]
    simp
  have named : namedBits [⟨"MAP", 31, 0, .w1s, 0, .any⟩] = BitVec.allOnes 32 := by decide
  simp only [writeWord, List.foldl_cons, List.foldl_nil, writeField, whole, word, named, BitVec.not_allOnes]
  simp

/-- The map takes the bits written as 1 and gives none up (R386). -/
theorem wmapSet_sets {s : State} (on : houseOn s = true) (src : Src) (i : Fin 16) (val : Word) :
    Answers (.wmapSet src i val) s fun t => regWord t (HS_WMAP i) = regWord s (HS_WMAP i) ||| val ∧
      ∀ a, a ≠ HS_WMAP i → regWord t a = regWord s a := by
  obtain ⟨r, spec, always, hook, fields⟩ := regSpecAt_wmap i
  have own : isMemoryRegister (HS_WMAP i.val) := by
    unfold HS_WMAP
    omega
  have write := rowWrite_memory (src := src) (w := val) on own spec always (by rw [hook]; decide)
  have special : specialWrite s src r [i.val] (HS_WMAP i.val) val = none := by simp only [specialWrite, hook]
  have written : fieldsWritten s r (HS_WMAP i.val) val = setRegWord s (HS_WMAP i.val) (regWord s (HS_WMAP i.val) ||| val) := by
    rw [fieldsWritten, fields, writeWord_w1s]
    rfl
  have count : HS_RSVWR ≠ HS_WMAP i.val := by
    unfold HS_WMAP HS_RSVWR
    omega
  have once : countOnce s (setRegWord s (HS_WMAP i.val) (regWord s (HS_WMAP i.val) ||| val)) = _ :=
    countOnce_same ((getF_setRegWord_ne (f := HS_RSVWR_COUNT) count).trans_le (Nat.le_succ _))
  rw [special, Option.getD_none, hook, written] at write
  refine ⟨_, write, ?_, fun a other => ?_⟩
  · exact (congrArg (regWord · _) once).trans (regWord_setRegWord_same _ _ _)
  · exact (congrArg (regWord · _) once).trans (regWord_setRegWord_ne _ _ _ _ other)

end Sys2Proof.Machine
end

section
/-! SUPPORT. Channels of the DMA engine: how one halts, and what START and ABORT do (R370 to R372, R375 to R377; log entry 56). -/

namespace Sys2Proof.Machine

/-! ### Channels -/

theorem dmaCh_setDma_same (s : State) {n : Nat} (hn : n < 32) (c : DmaCh) : dmaCh (setDma s n c) n = c :=
  (toList_getD_setIfInBounds _ _ _ _ _).trans (if_pos ⟨rfl, hn⟩)

theorem getF_setDma (s : State) (n : Nat) (c : DmaCh) (f : Fld) : getF (setDma s n c) f = getF s f :=
  getF_congr rfl

theorem dmaCh_congr {s t : State} (same : t.dma = s.dma) (n : Nat) : dmaCh t n = dmaCh s n := by rw [dmaCh, same, dmaCh]

/-- From `s` to `t` registers at the addresses `as`, and channels beyond their registers, alone change. -/
structure EngineOnly (as : List Nat) (s t : State) : Prop where
  rest : { t with regs := s.regs, dma := s.dma } = s
  regs : ∀ k, k ∉ as → regWord t k = regWord s k

namespace EngineOnly

variable {as bs : List Nat} {s₀ s t u : State}

theorem refl (as : List Nat) (s : State) : EngineOnly as s s := ⟨rfl, fun _ _ => rfl⟩

theorem trans (h : EngineOnly as s t) (k : EngineOnly as t u) : EngineOnly as s u := by
  have both : { u with regs := s.regs, dma := s.dma } = { t with regs := s.regs, dma := s.dma } :=
    congrArg (fun x : State => { x with regs := s.regs, dma := s.dma }) k.rest
  exact ⟨both.trans h.rest, fun a ha => (k.regs a ha).trans (h.regs a ha)⟩

theorem mono (h : EngineOnly as s t) (more : as ⊆ bs) : EngineOnly bs s t :=
  ⟨h.rest, fun k away => h.regs k fun own => away (more own)⟩

/-- What sees neither registers nor channels is kept. -/
theorem view {α : Type} (h : EngineOnly as s t) (f : State → α) (blind : ∀ x r d, f { x with regs := r, dma := d } = f x) :
    f t = f s := by
  rw [← blind t s.regs s.dma, h.rest]

theorem getF (h : EngineOnly as s t) {f : Fld} (other : f.addr ∉ as) : getF t f = getF s f := getF_congr (h.regs _ other)

theorem setDma (h : EngineOnly as s₀ s) (n : Nat) (c : DmaCh) : EngineOnly as s₀ (setDma s n c) :=
  h.trans ⟨rfl, fun _ _ => rfl⟩

theorem setRegWord (h : EngineOnly as s₀ s) {a : Nat} (own : a ∈ as) (w : Word) : EngineOnly as s₀ (setRegWord s a w) :=
  h.trans ⟨rfl, fun _ other => regWord_setRegWord_ne _ _ _ _ fun e => other (e ▸ own)⟩

theorem setF (h : EngineOnly as s₀ s) {f : Fld} (own : f.addr ∈ as) (v : Nat) : EngineOnly as s₀ (setF s f v) :=
  h.setRegWord own _

theorem countIf (h : EngineOnly as s₀ s) (own : HS_RSVWR ∈ as) (bad : Bool) : EngineOnly as s₀ (countIf s bad) := by
  have counted := h.setF (f := HS_RSVWR_COUNT) own (satAdd HS_RSVWR_COUNT.width (Machine.getF s HS_RSVWR_COUNT) 1)
  unfold Machine.countIf
  split
  · unfold countReserved
    dsimp only
    split
    · exact counted.setF own 1
    · exact counted
  · exact h

/-- What is on its way over the bridge is seen in neither. -/
theorem dmaQuiet (h : EngineOnly as s t) (n : Nat) : dmaQuiet t n = dmaQuiet s n := h.view (Machine.dmaQuiet · n) fun _ _ _ => rfl

theorem bridgeDown (h : EngineOnly as s t) (away : HS_BRSTAT ∉ as) : bridgeDown t = bridgeDown s := by
  rw [Machine.bridgeDown, bridgeState, h.getF away, Machine.bridgeDown, bridgeState]

end EngineOnly

/-! ### The fields of a channel's status -/

/-- A field of DMA_CHnSTAT by its bits (R377). -/
abbrev statusBits (n hi lo : Nat) : Fld := ⟨DMA_CHSTAT n, hi, lo⟩

theorem getF_setF_status_same (s : State) (n hi lo v : Nat) (fits : lo ≤ hi ∧ hi < 32) :
    getF (setF s (statusBits n hi lo) v) (statusBits n hi lo) = v % 2 ^ (hi + 1 - lo) := getF_setF_same s _ v fits

theorem getF_setF_status_ne (s : State) (n hi lo hi' lo' v : Nat) (fits : lo ≤ hi ∧ hi < 32) (fits' : lo' ≤ hi' ∧ hi' < 32)
    (apart : hi < lo' ∨ hi' < lo) :
    getF (setF s (statusBits n hi lo) v) (statusBits n hi' lo') = getF s (statusBits n hi' lo') :=
  getF_setF_ne s (statusBits n hi lo) (statusBits n hi' lo') v fits fits' (.inr apart)

theorem getF_setF_beside_status (s : State) {g : Fld} {n : Nat} (other : DMA_CHSTAT n ≠ g.addr) (hi lo v : Nat) :
    getF (setF s g v) (statusBits n hi lo) = getF s (statusBits n hi lo) := getF_congr (regWord_setF_ne _ _ _ _ other)

/-! ### Halts -/

/-- Channel `n` has halted with a cause, and shows it (R375, R377). -/
def DmaHalted (t : State) (n cause : Nat) : Prop :=
  (dmaCh t n).phase = .idle ∧ getF t (DMA_CHSTAT_CAUSE n) = cause ∧ getF t (DMA_CHSTAT_HALTEV n) = 1 ∧
    getF t (DMA_CHSTAT_BUSY n) = 0

theorem DmaHalted.reported {s t : State} {n cause : Nat} {as : List Nat} (h : DmaHalted s n cause) (told : Reported as s t)
    (away : DMA_CHSTAT n ∉ as) : DmaHalted t n cause := by
  obtain ⟨idle, shown, event, done⟩ := h
  have channel : dmaCh t n = dmaCh s n := told.view (dmaCh · n) fun _ _ _ _ _ => rfl
  have field : ∀ hi lo, getF t (statusBits n hi lo) = getF s (statusBits n hi lo) := fun _ _ => told.getF away
  exact ⟨by rw [channel, idle], (field 27 24).trans shown, (field 28 28).trans event, (field 31 31).trans done⟩

theorem channel_isHouseSource {n : Nat} (hn : n < 32) : isHouseSource n := by
  constructor
  · simp only [isScanSource, Bool.and_eq_false_iff, decide_eq_false_iff_not]
    omega
  · omega

/-- The registers of channel `n` show a halt (R375). -/
abbrev dmaHaltShown (s : State) (n cause err : Nat) : State :=
  setF (setF (setF (setF s (DMA_CHSTAT_CAUSE n) cause) (DMA_CHERRADDR_ADDR n) err) (DMA_CHSTAT_HALTEV n) 1) (DMA_CHSTAT_BUSY n) 0

theorem dmaHaltShown_halted (s : State) {n cause : Nat} (hn : n < 32) (small : cause < 16) (err : Nat) {c : DmaCh}
    (idle : c.phase = .idle) : DmaHalted (setDma (dmaHaltShown s n cause err) n c) n cause := by
  have address : DMA_CHSTAT n ≠ DMA_CHERRADDR n := by
    unfold DMA_CHSTAT DMA_CHERRADDR
    omega
  unfold DmaHalted dmaHaltShown DMA_CHSTAT_CAUSE DMA_CHSTAT_HALTEV DMA_CHSTAT_BUSY
  refine ⟨by rw [dmaCh_setDma_same _ hn, idle], ?_, ?_, ?_⟩
  · simp (disch := decide) only [getF_setDma, getF_setF_status_ne]
    rw [getF_setF_beside_status (g := DMA_CHERRADDR_ADDR n) _ address, getF_setF_status_same _ n 27 24 cause (by decide)]
    exact Nat.mod_eq_of_lt small
  · simp (disch := decide) only [getF_setDma, getF_setF_status_ne, getF_setF_status_same]
    rfl
  · simp (disch := decide) only [getF_setDma, getF_setF_status_same]
    rfl

/-- A halt that is carried out shows its cause, whatever becomes of word 7 (R375). -/
theorem dmaHaltNow_halted (s : State) {n cause : Nat} (hn : n < 32) (small : cause < 16) (err : Nat) :
    DmaHalted (dmaHaltNow s n cause err) n cause := by
  have told : DMA_CHSTAT n ∉ recordRegisters := by
    have low : DMA_CHSTAT n < 0x104000 := by
      unfold DMA_CHSTAT
      omega
    intro own
    have high : ∀ a ∈ recordRegisters, 0x104000 ≤ a := by decide
    exact absurd (high _ own) (Nat.not_le.mpr low)
  unfold dmaHaltNow
  dsimp only
  generalize (if ((dmaCh s n).wb && !(dmaCh s n).desc.isEmpty) = true then dmaWriteback s n (haltStatus cause)
    else (s, true)) = r
  have shown := dmaHaltShown_halted (setF r.1 (DMA_CHSTAT_WBFAIL n) (b2n (!r.2))) hn small err
    (c := { dmaCh (dmaHaltShown (setF r.1 (DMA_CHSTAT_WBFAIL n) (b2n (!r.2))) n cause err) n with phase := .idle, asked := 0 }) rfl
  have pulsed := shown.reported ((Reported.refl [] _).pulseHouse (channel_isHouseSource hn)) List.not_mem_nil
  split
  · exact pulsed.reported ((Reported.refl _ _).record (List.Subset.refl _) _ _ _ _ _ _ _) told
  · exact pulsed

/-- Reads that are dropped put nothing on its way. -/
theorem dmaQuiet_dropReads {s : State} {n : Nat} (quiet : dmaQuiet s n = true) (src : Src) :
    dmaQuiet (dropReads s src) n = true := by
  have fewer {α : Type} {l l' : List α} (sub : l' ⊆ l) (p : α → Bool) (none : l.any p = false) : l'.any p = false := by
    rw [List.any_eq_false] at none ⊢
    exact fun x hx => none x (sub hx)
  have unaccepted (d : BridgeDir) (g : MsgPart → Bool) (a : List Msg) :
      { d with waiting := d.waiting.filter g, arrived := a }.unaccepted ⊆ d.unaccepted := by
    refine List.append_subset.mpr ⟨List.subset_append_left _ _, List.subset_append_of_subset_right _ (List.map_subset _ ?_)⟩
    intro p hp
    obtain ⟨waits, last⟩ := List.mem_filter.mp hp
    exact List.mem_filter.mpr ⟨List.mem_of_mem_filter waits, last⟩
  simp only [dmaQuiet, sourceQuiet, readsOut, BridgeDir.carries, Bool.and_eq_true, Bool.not_eq_true', Bool.or_eq_false_iff,
    List.any_append] at quiet ⊢
  obtain ⟨⟨⟨waiting, arrived⟩, behind⟩, ⟨toScan, there⟩, toHouse, here⟩ := quiet
  exact ⟨⟨⟨fewer (unaccepted _ _ _) _ waiting, fewer (List.filter_subset_self _) _ arrived⟩, behind⟩,
    ⟨fewer (unaccepted _ _ _) _ toScan, fewer (List.filter_subset_self _) _ there⟩,
    fewer (unaccepted _ _ _) _ toHouse, fewer (List.filter_subset_self _) _ here⟩

/-- A channel with nothing on its way halts at once (R375; log entry 56). -/
theorem dmaHalt_halted {s : State} {n cause : Nat} (hn : n < 32) (small : cause < 16) (quiet : dmaQuiet s n = true)
    (answered : cause = 7 → (dmaCh s n).asked = 0) (err : Nat) : DmaHalted (dmaHalt s n cause err) n cause := by
  have settles (x : State) (quiet : dmaQuiet x n = true) (answered : cause = 7 → (dmaCh x n).asked = 0) :
      DmaHalted (dmaSettleHalt (setDma x n { dmaCh x n with
        phase := .halting cause err, asked := if cause = 7 then (dmaCh x n).asked else 0 }) n) n cause := by
    have still : ∀ c, dmaQuiet (setDma x n c) n = true := fun _ => quiet
    have none : (if cause = 7 then (dmaCh x n).asked else 0) = 0 := by
      split
      · next abort => exact answered abort
      · rfl
    unfold dmaSettleHalt
    rw [dmaCh_setDma_same _ hn]
    dsimp only
    rw [still, none, if_pos (by rfl)]
    exact dmaHaltNow_halted _ hn small err
  unfold dmaHalt
  split
  · exact settles _ (dmaQuiet_dropReads quiet _) answered
  · exact settles _ quiet answered

/-- An ABORT waits for what is on its way (R375). -/
theorem dmaHalt_waits {s : State} {n : Nat} (hn : n < 32) (up : bridgeDown s = false)
    (busy : dmaQuiet s n = false ∨ (dmaCh s n).asked ≠ 0) (err : Nat) :
    dmaHalt s n 7 err = setDma s n { dmaCh s n with phase := .halting 7 err } := by
  have still : ∀ c, dmaQuiet (setDma s n c) n = dmaQuiet s n := fun _ => rfl
  have out : ¬ ((dmaQuiet s n && decide ((dmaCh s n).asked = 0)) = true) := by
    rw [Bool.and_eq_true, decide_eq_true_eq]
    rintro ⟨quiet, none⟩
    rcases busy with moves | asked
    · exact Bool.false_ne_true (moves.symm.trans quiet)
    · exact asked none
  unfold dmaHalt dmaSettleHalt
  simp only [up, Bool.false_eq_true, if_false, if_true, dmaCh_setDma_same _ hn, still, if_neg out]

/-! ### Writes of DMA_CHnCTL -/

theorem regSpecAt_dmaCtl (n : Fin 32) : ∃ r, regSpecAt (DMA_CHCTL n.val) = some (r, [n.val]) ∧ r.presence = .always ∧
    r.hook = .dmaCtl ∧ ∃ g ∈ r.fields, g.hi = 8 ∧ g.lo = 8 ∧ g.access = .rw ∧ g.allow = .any := by
  fin_cases n <;> exact ⟨_, rfl, rfl, rfl, ⟨"NSPACE", 8, 8, .rw, 0, .any⟩, by decide, rfl, rfl, rfl, rfl⟩

/-- The state in which a write of DMA_CHnCTL has stored its fields. -/
structure CtlStored (s x : State) (n : Nat) (w : Word) : Prop extends EngineOnly [DMA_CHCTL n, HS_RSVWR] s x where
  channels : x.dma = s.dma
  space : getF x (DMA_CHCTL_NSPACE n) = bitsOf w 8 8
  counts : getF s HS_RSVWR_COUNT ≤ getF x HS_RSVWR_COUNT

theorem dmaCtl_writes {s : State} (on : houseOn s = true) (src : Src) (n : Fin 32) (w : Word) :
    ∃ x, CtlStored s x n.val w ∧ rowWrite s src (DMA_CHCTL n.val) w = .next (countOnce s (dmaControl x n.val w)) := by
  obtain ⟨r, spec, always, hook, g, among, hi, lo, access, allow⟩ := regSpecAt_dmaCtl n
  have low : DMA_CHCTL n.val < 0x104000 := by
    unfold DMA_CHCTL
    omega
  have count : DMA_CHCTL n.val ≠ HS_RSVWR := by
    unfold DMA_CHCTL HS_RSVWR
    omega
  have write := rowWrite_house (src := src) (w := w) on low spec (by simp [registerPresent, always]) (by rw [hook]; decide)
    (by simp only [specialWrite, hook])
  simp only [hook, afterHouseWrite, List.headD_cons] at write
  refine ⟨_, ⟨?_, ?_, ?_, ?_⟩, write⟩
  · exact ((EngineOnly.refl _ s).setRegWord (List.mem_cons_self ..) _).countIf (by simp) _
  · exact (fieldsWritten_reported s r _ w).view (·.dma) fun _ _ _ _ _ => rfl
  · exact fieldsWritten_field (f := DMA_CHCTL_NSPACE n.val) spec count rfl among hi lo access allow
  · have most : getF s HS_RSVWR_COUNT < 2 ^ 24 := getF_lt s HS_RSVWR_COUNT (by decide)
    rw [fieldsWritten, countIf_count, getF_setRegWord_ne (f := HS_RSVWR_COUNT) count.symm]
    omega

theorem CtlStored.channel {s x : State} {n : Nat} {w : Word} (h : CtlStored s x n w) : dmaCh x n = dmaCh s n :=
  dmaCh_congr h.channels n

/-- The last count of a write reaches neither channels nor their status. -/
theorem countOnce_dmaCh (s x : State) (n : Nat) : dmaCh (countOnce s x) n = dmaCh x n :=
  (countOnce_reported s x).view (dmaCh · n) fun _ _ _ _ _ => rfl

theorem status_ne_count (n : Nat) : DMA_CHSTAT n ≠ HS_RSVWR := by
  unfold DMA_CHSTAT HS_RSVWR
  omega

theorem DmaHalted.countOnce {x : State} {n cause : Nat} (h : DmaHalted x n cause) (s : State) :
    DmaHalted (Machine.countOnce s x) n cause := h.reported (countOnce_reported s x) (by simpa using status_ne_count n)

/-! ### ABORT -/

section
variable {s : State} {n : Fin 32}

/-- A write of ABORT to a channel that runs; a START beside it is only counted (R375, R376). -/
theorem dmaAbort_halts (on : houseOn s = true) (src : Src) (val : Word) (runs : (dmaCh s n).phase ≠ .idle)
    (free : ∀ x y, (dmaCh s n).phase ≠ .halting x y) :
    ∃ x, EngineOnly [DMA_CHCTL n, HS_RSVWR] s x ∧ dmaCh x n = dmaCh s n ∧ exec (.dmaAbort src n val) s =
      .next (countOnce s (dmaHalt x n 7 (getF s (DMA_CHCUR_ADDR n)))) := by
  obtain ⟨x, stored, write⟩ := dmaCtl_writes on src n (withOnes val (DMA_CHCTL_ABORT n))
  have abort : (withOnes val (DMA_CHCTL_ABORT n)).getLsbD 1 = true :=
    withOnes_getLsbD_same val (f := DMA_CHCTL_ABORT n) rfl (show 1 < 32 by decide)
  have busy : dmaBusy x n = true := by
    rw [dmaBusy, stored.channel, bne_iff_ne]
    exact runs
  have current : DMA_CHCUR n ∉ [DMA_CHCTL n, HS_RSVWR] := by
    simp only [DMA_CHCUR, DMA_CHCTL, HS_RSVWR, List.mem_cons, List.not_mem_nil, or_false]
    omega
  have counted : EngineOnly [DMA_CHCTL n, HS_RSVWR] x (countIf x ((withOnes val (DMA_CHCTL_ABORT n)).getLsbD 0)) :=
    (EngineOnly.refl _ x).countIf (by simp) _
  have channel : dmaCh (countIf x ((withOnes val (DMA_CHCTL_ABORT n)).getLsbD 0)) n = dmaCh s n := by
    refine Eq.trans ?_ stored.channel
    exact ((Reported.refl [HS_RSVWR] x).countIf (by simp) _).view (dmaCh · n) fun _ _ _ _ _ => rfl
  have started : (if (withOnes val (DMA_CHCTL_ABORT n)).getLsbD 0 then dmaStart x n else x) =
      countIf x ((withOnes val (DMA_CHCTL_ABORT n)).getLsbD 0) := by
    rw [dmaStart, busy]
    rfl
  have aborts : ∀ y, dmaCh y n = dmaCh s n → dmaAbort y n = dmaHalt y n 7 (getF y (DMA_CHCUR_ADDR n)) := by
    intro y same
    rw [dmaAbort, same]
    split
    · next idle => exact absurd idle runs
    · next halting => exact absurd halting (free _ _)
    · rfl
  refine ⟨_, stored.toEngineOnly.trans counted, channel, write.trans ?_⟩
  rw [dmaControl, abort, busy]
  simp only [started, Bool.and_self, if_true]
  rw [aborts _ channel, (stored.toEngineOnly.trans counted).getF (f := DMA_CHCUR_ADDR n) current]

theorem dmaAbort_now (on : houseOn s = true) (src : Src) (val : Word) (runs : (dmaCh s n).phase ≠ .idle)
    (free : ∀ x y, (dmaCh s n).phase ≠ .halting x y) (quiet : dmaQuiet s n = true) (none : (dmaCh s n).asked = 0) :
    Answers (.dmaAbort src n val) s fun t => DmaHalted t n 7 := by
  obtain ⟨x, stored, channel, run⟩ := dmaAbort_halts on src val runs free
  have halted := dmaHalt_halted (cause := 7) n.isLt (by decide) ((stored.dmaQuiet n).trans quiet)
    (fun _ => (congrArg (·.asked) channel).trans none) (getF s (DMA_CHCUR_ADDR n))
  exact ⟨_, run, halted.countOnce s⟩

theorem dmaAbort_waits (on : houseOn s = true) (src : Src) (val : Word) (runs : (dmaCh s n).phase ≠ .idle)
    (free : ∀ x y, (dmaCh s n).phase ≠ .halting x y) (busy : dmaQuiet s n = false ∨ (dmaCh s n).asked ≠ 0)
    (up : bridgeDown s = false) : Answers (.dmaAbort src n val) s fun t =>
      dmaCh t n = { dmaCh s n with phase := .halting 7 (getF s (DMA_CHCUR_ADDR n)) } ∧
      getF t (DMA_CHSTAT_BUSY n) = getF s (DMA_CHSTAT_BUSY n) := by
  obtain ⟨x, stored, channel, run⟩ := dmaAbort_halts on src val runs free
  have bridge : HS_BRSTAT ∉ [DMA_CHCTL n, HS_RSVWR] := by
    simp only [HS_BRSTAT, DMA_CHCTL, HS_RSVWR, List.mem_cons, List.not_mem_nil, or_false]
    omega
  have status : DMA_CHSTAT n ∉ [DMA_CHCTL n, HS_RSVWR] := by
    simp only [DMA_CHSTAT, DMA_CHCTL, HS_RSVWR, List.mem_cons, List.not_mem_nil, or_false]
    omega
  have waits := dmaHalt_waits n.isLt ((stored.bridgeDown bridge).trans up) (by rwa [stored.dmaQuiet, channel])
    (getF s (DMA_CHCUR_ADDR n))
  refine ⟨_, run, ?_, ?_⟩
  · rw [countOnce_dmaCh, waits, dmaCh_setDma_same _ n.isLt, channel]
  · rw [countOnce_getF _ _ (f := DMA_CHSTAT_BUSY n) (status_ne_count n), waits]
    exact stored.getF (f := DMA_CHSTAT_BUSY n) status

end

/-! ### START -/

/-- The eight words of a descriptor in house SRAM are read in order (R370, R371). -/
theorem readDescWords_reads {s : State} {a : Nat} {ws : List Word}
    (reads : ∀ j < ws.length, ∃ w, sramLoad s 0 (a + j) = (s, some w) ∧ payload w = ws.getD j 0 ∧ 1 ≤ (tagOf w).toNat ∧
      (tagOf w).toNat ≤ 7) (post : List Word) :
    ∀ pre, ws = pre ++ post → readDescWords s a post.length pre = (s, ws, none) := by
  induction post with
  | nil => exact fun pre all => by rw [all, List.append_nil]; rfl
  | cons w post ih =>
    intro pre all
    obtain ⟨v, load, value, low, high⟩ := reads pre.length (by simp [all])
    have word : payload v = w := value.trans (by simp [all])
    have tag : ¬ ((decide (tagOf v = 0) || decide (8 ≤ (tagOf v).toNat)) = true) := by
      rw [Bool.or_eq_true, decide_eq_true_eq, decide_eq_true_eq]
      rintro (zero | above)
      · rw [zero] at low
        exact absurd low (by decide)
      · omega
    rw [List.length_cons, readDescWords]
    simp only [load]
    rw [if_neg tag, word]
    exact ih (pre ++ [w]) (by rw [all, List.append_assoc]; rfl)

/-- A channel with the words of a descriptor that it has read (R371, R372). -/
abbrev DmaCh.taking (c : DmaCh) (ws : List Word) (b : Beam) : DmaCh :=
  { c with phase := .moving, desc := ws, moved := 0, applied := 0, credits := 0, bursts := 0, f0 := b.frame, asked := 0,
           released := 0, stops := b.stops }

/-- A descriptor without a refused field or a bad end, paced by a beam only while that runs, sets its channel moving (R371,
R372). -/
theorem dmaAccept_moves {s : State} {n : Nat} {ws : List Word} (cur : Nat)
    (good : ((dmaCh s n).taking ws s.beam).refused n = none) (source : ((dmaCh s n).taking ws s.beam).endBad false = none)
    (dest : ((dmaCh s n).taking ws s.beam).endBad true = none)
    (beam : ((dmaCh s n).taking ws s.beam).field 0 11 9 = 2 → beamRuns s = true) :
    dmaAccept s n ws cur = setDma s n ((dmaCh s n).taking ws s.beam) := by
  have paced : ¬ ((decide (((dmaCh s n).taking ws s.beam).field 0 11 9 = 2) && !beamRuns s) = true) := by
    rw [Bool.and_eq_true, decide_eq_true_eq]
    rintro ⟨two, stopped⟩
    rw [beam two] at stopped
    cases stopped
  unfold dmaAccept
  simp only [good, source, dest]
  exact if_neg paced

/-- A refused field halts it with cause 1 (R371, R375). -/
theorem dmaAccept_refuses {s : State} {n : Nat} {ws : List Word} (cur : Nat)
    (bad : ((dmaCh s n).taking ws s.beam).refused n ≠ none) :
    ∃ err, dmaAccept s n ws cur = dmaHalt (setDma s n ((dmaCh s n).taking ws s.beam)) n 1 err := by
  obtain ⟨w, word⟩ := Option.ne_none_iff_exists'.mp bad
  unfold dmaAccept
  simp only [word]
  exact ⟨_, rfl⟩

/-- The state in which START has cleared the channel's status and turned it to its first descriptor, in house SRAM (R377). -/
def dmaTurned (s : State) (n : Nat) : State :=
  setDma (setF (setF (setF (setF (setF s (DMA_CHSTAT_CAUSE n) 0) (DMA_CHSTAT_DONES n) 0) (DMA_CHSTAT_LOSTTRIG n) 0)
    (DMA_CHSTAT_BUSY n) 1) (DMA_CHCUR_ADDR n) (getF s (DMA_CHDESC_ADDR n))) n
    { dmaCh s n with phase := .loading, desc := [], inDram := false, moved := 0, applied := 0 }

section
variable {s : State} {n : Nat}

theorem dmaTurned_engine (s : State) (n : Nat) : EngineOnly [DMA_CHSTAT n, DMA_CHCUR n] s (dmaTurned s n) := by
  have own : DMA_CHSTAT n ∈ [DMA_CHSTAT n, DMA_CHCUR n] := List.mem_cons_self ..
  refine EngineOnly.setDma (EngineOnly.setF ?_ (f := DMA_CHCUR_ADDR n) (by simp [DMA_CHCUR_ADDR]) _) n _
  exact ((((EngineOnly.refl _ s).setF (f := DMA_CHSTAT_CAUSE n) own _).setF (f := DMA_CHSTAT_DONES n) own _).setF
    (f := DMA_CHSTAT_LOSTTRIG n) own _).setF (f := DMA_CHSTAT_BUSY n) own _

/-- BUSY alone stands in the status of a channel that START has turned, and CUR names its descriptor. -/
theorem dmaTurned_shows (s : State) (n : Nat) : getF (dmaTurned s n) (DMA_CHSTAT_BUSY n) = 1 ∧
    getF (dmaTurned s n) (DMA_CHSTAT_CAUSE n) = 0 ∧ getF (dmaTurned s n) (DMA_CHSTAT_DONES n) = 0 ∧
    getF (dmaTurned s n) (DMA_CHCUR_ADDR n) = getF s (DMA_CHDESC_ADDR n) := by
  have current : DMA_CHSTAT n ≠ DMA_CHCUR n := by
    unfold DMA_CHSTAT DMA_CHCUR
    omega
  have beside (x : State) := getF_setF_beside_status x (g := DMA_CHCUR_ADDR n) current
  unfold dmaTurned DMA_CHSTAT_BUSY DMA_CHSTAT_CAUSE DMA_CHSTAT_DONES DMA_CHSTAT_LOSTTRIG
  simp (disch := decide) only [getF_setDma, beside, getF_setF_status_ne, getF_setF_status_same]
  refine ⟨rfl, rfl, rfl, ?_⟩
  have width : getF s (DMA_CHDESC_ADDR n) < 2 ^ 32 := getF_lt s (DMA_CHDESC_ADDR n) ⟨Nat.zero_le 31, show 31 < 32 by decide⟩
  exact (getF_setF_same _ (DMA_CHCUR_ADDR n) _ ⟨Nat.zero_le 31, show 31 < 32 by decide⟩).trans (Nat.mod_eq_of_lt width)

/-- START of an idle channel whose descriptors begin in house space loads the first one (R377). -/
theorem dmaStart_loads (idle : (dmaCh s n).phase = .idle) (free : dmaHeldByAudio s n = false)
    (house : getF s (DMA_CHCTL_NSPACE n) = 0) : dmaStart s n = dmaLoad (dmaTurned s n) n := by
  have control : DMA_CHCTL n ≠ DMA_CHSTAT n ∧ DMA_CHDESC n ≠ DMA_CHSTAT n := by
    unfold DMA_CHCTL DMA_CHSTAT DMA_CHDESC
    omega
  have space : flag (setF (setF (setF s (DMA_CHSTAT_CAUSE n) 0) (DMA_CHSTAT_DONES n) 0) (DMA_CHSTAT_LOSTTRIG n) 0)
      (DMA_CHCTL_NSPACE n) = false := by
    have kept (x : State) (g : Fld) (own : g.addr = DMA_CHSTAT n) (v : Nat) :
        getF (setF x g v) (DMA_CHCTL_NSPACE n) = getF x (DMA_CHCTL_NSPACE n) :=
      getF_congr (regWord_setF_ne' own control.1)
    rw [flag, kept _ _ rfl, kept _ _ rfl, kept _ _ rfl, house]
    rfl
  have first : getF (setF (setF (setF s (DMA_CHSTAT_CAUSE n) 0) (DMA_CHSTAT_DONES n) 0) (DMA_CHSTAT_LOSTTRIG n) 0)
      (DMA_CHDESC_ADDR n) = getF s (DMA_CHDESC_ADDR n) := by
    have kept (x : State) (g : Fld) (own : g.addr = DMA_CHSTAT n) (v : Nat) :
        getF (setF x g v) (DMA_CHDESC_ADDR n) = getF x (DMA_CHDESC_ADDR n) :=
      getF_congr (regWord_setF_ne' own control.2)
    rw [kept _ _ rfl, kept _ _ rfl, kept _ _ rfl]
  have stopped : dmaBusy s n = false := by
    rw [dmaBusy, idle]
    rfl
  unfold dmaStart
  rw [stopped, free, Bool.or_self, if_neg Bool.false_ne_true]
  dsimp only
  rw [space, first]
  rfl

/-- The words of a good descriptor in house SRAM are read, and then checked (R370, R371). -/
theorem dmaLoad_accepts {ws : List Word} {cur : Nat} (loading : (dmaCh s n).phase = .loading) (house : (dmaCh s n).inDram = false)
    (here : getF s (DMA_CHCUR_ADDR n) = cur) (aligned : cur % 8 = 0) (low : cur < 0x80000) (eight : ws.length = 8)
    (reads : ∀ j < 8, ∃ w, sramLoad s 0 (cur + j) = (s, some w) ∧ payload w = ws.getD j 0 ∧ 1 ≤ (tagOf w).toNat ∧
      (tagOf w).toNat ≤ 7) : dmaLoad s n = dmaAccept s n ws cur := by
  have read : readDescWords s cur 8 [] = (s, ws, none) := by
    have all := readDescWords_reads (s := s) (a := cur) (ws := ws) (by rw [eight]; exact reads) ws [] rfl
    rwa [eight] at all
  have place : ¬ ((cur % 8 != 0 || decide (0x80000 ≤ cur)) = true) := by
    simp only [Bool.or_eq_true, bne_iff_ne, decide_eq_true_eq]
    omega
  unfold dmaLoad
  simp only [loading, house, here, read, if_neg place, bne_self_eq_false, Bool.false_eq_true, if_false]

end

/-- START by `val` finds channel `n` idle, with a descriptor `ws` in house SRAM that can be read (R370, R377). -/
structure Startable (s : State) (n : Nat) (val : Word) (ws : List Word) : Prop where
  idle : (dmaCh s n).phase = .idle
  free : dmaHeldByAudio s n = false
  house : val.getLsbD 8 = false
  aligned : getF s (DMA_CHDESC_ADDR n) % 8 = 0
  low : getF s (DMA_CHDESC_ADDR n) < 0x80000
  eight : ws.length = 8
  reads : ∀ j < 8, ∃ w, sramLoad s 0 (getF s (DMA_CHDESC_ADDR n) + j) = (s, some w) ∧ payload w = ws.getD j 0 ∧
    1 ≤ (tagOf w).toNat ∧ (tagOf w).toNat ≤ 7

section
variable {s : State} {n : Fin 32} {ws : List Word} {val : Word}

/-- START of an idle channel reads its descriptor and checks it. -/
theorem dmaStart_checks (on : houseOn s = true) (src : Src) (ready : Startable s n val ws) :
    ∃ x, EngineOnly [DMA_CHCTL n, HS_RSVWR, DMA_CHSTAT n, DMA_CHCUR n] s x ∧
      dmaCh x n = { dmaCh s n with phase := .loading, desc := [], inDram := false, moved := 0, applied := 0 } ∧
      getF x (DMA_CHSTAT_BUSY n) = 1 ∧ getF x (DMA_CHSTAT_CAUSE n) = 0 ∧ getF x (DMA_CHSTAT_DONES n) = 0 ∧
      getF x (DMA_CHCUR_ADDR n) = getF s (DMA_CHDESC_ADDR n) ∧ exec (.dmaStart src n val) s =
        .next (countOnce s (dmaAccept x n ws (getF s (DMA_CHDESC_ADDR n)))) := by
  obtain ⟨idle, free, house, aligned, low, eight, reads⟩ := ready
  obtain ⟨x, stored, write⟩ := dmaCtl_writes on src n (withOnes val (DMA_CHCTL_START n))
  have start : (withOnes val (DMA_CHCTL_START n)).getLsbD 0 = true :=
    withOnes_getLsbD_same val (f := DMA_CHCTL_START n) rfl (show 0 < 32 by decide)
  have space : getF x (DMA_CHCTL_NSPACE n) = 0 := by
    refine stored.space.trans (bitsOf_clear _ (by decide) ?_)
    exact (withOnes_getLsbD_ne val (f := DMA_CHCTL_START n) rfl (show 0 < 32 by decide) (show 8 ≠ 0 by decide)).trans house
  have stopped : (dmaCh x n).phase = .idle := (congrArg (·.phase) stored.channel).trans idle
  have away : AU_CTL ∉ [DMA_CHCTL n, HS_RSVWR] ∧ DMA_CHDESC n ∉ [DMA_CHCTL n, HS_RSVWR] := by
    simp only [AU_CTL, DMA_CHDESC, DMA_CHCTL, HS_RSVWR, List.mem_cons, List.not_mem_nil, or_false]
    omega
  have audio : dmaHeldByAudio x n = false := by
    have same : audioOn x = audioOn s := by
      rw [audioOn, stored.view (·.variant) fun _ _ _ => rfl, flag, stored.toEngineOnly.getF (f := AU_CTL_EN) away.1, audioOn, flag]
    rw [dmaHeldByAudio, same]
    exact free
  have first : getF x (DMA_CHDESC_ADDR n) = getF s (DMA_CHDESC_ADDR n) := stored.toEngineOnly.getF (f := DMA_CHDESC_ADDR n) away.2
  obtain ⟨busy, cause, dones, current⟩ := dmaTurned_shows x n
  have engine : EngineOnly [DMA_CHCTL n, HS_RSVWR, DMA_CHSTAT n, DMA_CHCUR n] s (dmaTurned x n) :=
    (stored.toEngineOnly.mono (by simp)).trans ((dmaTurned_engine x n).mono (by simp))
  have channel : dmaCh (dmaTurned x n) n =
      { dmaCh s n with phase := .loading, desc := [], inDram := false, moved := 0, applied := 0 } := by
    rw [dmaTurned, dmaCh_setDma_same _ n.isLt, stored.channel]
  have map : ∀ p, pageMarked (dmaTurned x n) p = pageMarked s p := fun p => by
    refine pageMarked_congr (engine.regs _ ?_)
    simp only [HS_WMAP, DMA_CHCTL, HS_RSVWR, DMA_CHSTAT, DMA_CHCUR, List.mem_cons, List.not_mem_nil, or_false]
    omega
  have accepts : dmaLoad (dmaTurned x n) n = dmaAccept (dmaTurned x n) n ws (getF s (DMA_CHDESC_ADDR n)) := by
    refine dmaLoad_accepts (by rw [channel]) (by rw [channel]) (current.trans first) aligned low eight fun j hj => ?_
    obtain ⟨w, load, word⟩ := reads j hj
    exact ⟨w, sramLoad_steady load (engine.view (·.mem) fun _ _ _ => rfl) (map _), word⟩
  refine ⟨_, engine, channel, busy, cause, dones, current.trans first, write.trans ?_⟩
  have unstarted : dmaBusy x n = false := by
    rw [dmaBusy, stopped]
    rfl
  rw [dmaControl, start, unstarted]
  simp only [Bool.and_false, Bool.false_eq_true, if_false, if_true]
  rw [dmaStart_loads stopped audio space, accepts]

end

end Sys2Proof.Machine
end

section
/-! SUPPORT. Descriptors: what START, completions and bursts of house SRAM leave (R369, R371 to R377). -/

namespace Sys2Proof.Machine

/-! ### What START leaves -/

section
variable {s : State} {n : Fin 32} {ws : List Word} {val : Word}

/-- A descriptor that is accepted sets the channel moving, with its status clear but for BUSY (R371, R372, R377). -/
theorem dmaStart_moves (on : houseOn s = true) (src : Src) (ready : Startable s n val ws) {c : DmaCh}
    (taken : c = { (dmaCh s n).taking ws s.beam with inDram := false }) (good : c.refused n = none) (source : c.endBad false = none)
    (dest : c.endBad true = none) (beam : c.field 0 11 9 = 2 → beamRuns s = true) : Answers (.dmaStart src n val) s fun t =>
      dmaCh t n = c ∧ getF t (DMA_CHSTAT_BUSY n) = 1 ∧ getF t (DMA_CHSTAT_CAUSE n) = 0 ∧ getF t (DMA_CHSTAT_DONES n) = 0 ∧
      getF t (DMA_CHCUR_ADDR n) = getF s (DMA_CHDESC_ADDR n) := by
  obtain ⟨x, engine, channel, busy, cause, dones, current, run⟩ := dmaStart_checks on src ready
  have taking : (dmaCh x n).taking ws x.beam = c := by
    rw [channel, engine.view (·.beam) fun _ _ _ => rfl, taken]
  have away : SC_BEAMSTAT ∉ [DMA_CHCTL n, HS_RSVWR, DMA_CHSTAT n, DMA_CHCUR n] := by
    simp only [SC_BEAMSTAT, DMA_CHCTL, HS_RSVWR, DMA_CHSTAT, DMA_CHCUR, List.mem_cons, List.not_mem_nil, or_false]
    omega
  have runs : beamRuns x = beamRuns s := by
    rw [beamRuns, beamState, engine.getF (f := SC_BEAMSTAT_STATE) away, beamRuns, beamState]
  have accepted := dmaAccept_moves (s := x) (n := n) (ws := ws) (getF s (DMA_CHDESC_ADDR n)) (by rwa [taking]) (by rwa [taking])
    (by rwa [taking]) (by rwa [taking, runs])
  have currentCount : DMA_CHCUR n ≠ HS_RSVWR := by
    unfold DMA_CHCUR HS_RSVWR
    omega
  rw [taking] at accepted
  rw [accepted] at run
  refine ⟨_, run, ?_, ?_, ?_, ?_, ?_⟩
  · rw [countOnce_dmaCh, dmaCh_setDma_same _ n.isLt]
  · exact (countOnce_getF _ _ (f := DMA_CHSTAT_BUSY n) (status_ne_count n)).trans ((getF_setDma _ _ _ _).trans busy)
  · exact (countOnce_getF _ _ (f := DMA_CHSTAT_CAUSE n) (status_ne_count n)).trans ((getF_setDma _ _ _ _).trans cause)
  · exact (countOnce_getF _ _ (f := DMA_CHSTAT_DONES n) (status_ne_count n)).trans ((getF_setDma _ _ _ _).trans dones)
  · exact (countOnce_getF _ _ (f := DMA_CHCUR_ADDR n) currentCount).trans ((getF_setDma _ _ _ _).trans current)

/-- One with a refused field halts it (R371, R375). -/
theorem dmaStart_refuses (on : houseOn s = true) (src : Src) (ready : Startable s n val ws) {c : DmaCh}
    (taken : c = { (dmaCh s n).taking ws s.beam with inDram := false }) (bad : c.refused n ≠ none) (quiet : dmaQuiet s n = true) :
    Answers (.dmaStart src n val) s fun t => DmaHalted t n 1 := by
  obtain ⟨x, engine, channel, -, -, -, -, run⟩ := dmaStart_checks on src ready
  have taking : (dmaCh x n).taking ws x.beam = c := by
    rw [channel, engine.view (·.beam) fun _ _ _ => rfl, taken]
  obtain ⟨err, refused⟩ := dmaAccept_refuses (s := x) (n := n) (ws := ws) (getF s (DMA_CHDESC_ADDR n)) (by rwa [taking])
  have still := ((engine.setDma n ((dmaCh x n).taking ws x.beam)).dmaQuiet n).trans quiet
  have halted := dmaHalt_halted (cause := 1) n.isLt (by decide) still (fun abort => absurd abort (by decide)) err
  rw [refused] at run
  exact ⟨_, run, halted.countOnce s⟩

/-- While the channel runs START is only counted (R376). -/
theorem dmaStart_busy (on : houseOn s = true) (src : Src) (runs : (dmaCh s n).phase ≠ .idle) (noAbort : val.getLsbD 1 = false) :
    Answers (.dmaStart src n val) s fun t => dmaCh t n = dmaCh s n ∧
      getF t HS_RSVWR_COUNT = min 0xFFFFFF (getF s HS_RSVWR_COUNT + 1) := by
  obtain ⟨x, stored, write⟩ := dmaCtl_writes on src n (withOnes val (DMA_CHCTL_START n))
  have abort : (withOnes val (DMA_CHCTL_START n)).getLsbD 1 = false :=
    (withOnes_getLsbD_ne val (f := DMA_CHCTL_START n) rfl (show 0 < 32 by decide) (show 1 ≠ 0 by decide)).trans noAbort
  have busy : dmaBusy x n = true := by
    rw [dmaBusy, stored.channel, bne_iff_ne]
    exact runs
  have ignored : dmaControl x n (withOnes val (DMA_CHCTL_START n)) = countReserved x := by
    have start : (withOnes val (DMA_CHCTL_START n)).getLsbD 0 = true :=
      withOnes_getLsbD_same val (f := DMA_CHCTL_START n) rfl (show 0 < 32 by decide)
    rw [dmaControl, start, abort, dmaStart, busy]
    rfl
  have counts := stored.counts
  refine ⟨_, write, ?_, countOnce_counted ?_⟩
  · rw [countOnce_dmaCh, ignored, ← stored.channel]
    exact ((Reported.refl [HS_RSVWR] x).countIf (by simp) true).view (dmaCh · n) fun _ _ _ _ _ => rfl
  · rw [ignored, countReserved_count]
    omega

end

/-! ### Completions -/

/-- A trigger of the event network reaches no field but counts of lost triggers (R372). -/
theorem getF_dmaTrigger (s : State) (pace : Nat) (isIt : DmaCh → Bool) {f : Fld} (fits : f.fits)
    (apart : ∀ m < 32, (DMA_CHSTAT_LOSTTRIG m).apart f) : getF (dmaTrigger s pace isIt) f = getF s f := by
  rw [Triggered.dmaTrigger_takes]
  refine List.foldlRecOn (motive := fun t => getF t f = getF s f) _ _ rfl fun t same m hm => ?_
  split
  · unfold Triggered.take
    split
    · exact (getF_setDma _ _ _ _).trans same
    · refine (getF_countF_ne t (DMA_CHSTAT_LOSTTRIG m) f 1 ?_ fits (apart m (List.mem_range.mp hm))).trans same
      exact ⟨show 16 ≤ 23 by decide, show 23 < 32 by decide⟩
  · exact same

/-- The event line of a completion changes neither DONES nor the edges that wait. -/
theorem eventLine_completion (s : State) {n : Nat} (hn : n < 32) :
    getF (eventLine s n) (DMA_CHSTAT_DONES n) = getF s (DMA_CHSTAT_DONES n) ∧ (eventLine s n).hic = s.hic := by
  rw [eventLine, if_pos hn]
  constructor
  · exact getF_dmaTrigger s 3 _ ⟨Nat.zero_le 15, show 15 < 32 by decide⟩ fun _ _ => .inr (.inr (show 15 < 16 by decide))
  · rw [Triggered.dmaTrigger_takes]
    exact (Triggered.channels s 3 _ 32 (Nat.le_refl 32)).view (·.hic) fun _ _ _ => rfl

/-- The last descriptor of a chain ends it: one more in DONES, and its edge where it asks for one (R374). -/
theorem dmaFinish_ends {s : State} {n : Nat} (hn : n < 32) (last : (dmaCh s n).field 0 23 23 = 1) :
    (dmaCh (dmaFinish s n) n).phase = .idle ∧ getF (dmaFinish s n) (DMA_CHSTAT_BUSY n) = 0 ∧
      getF (dmaFinish s n) (DMA_CHSTAT_DONES n) = (getF s (DMA_CHSTAT_DONES n) + 1) % 65536 ∧
      (dmaFinish s n).hic.edges = s.hic.edges ++ if (dmaCh s n).field 0 20 20 = 1 then [n] else [] := by
  have counted : getF (countWrapF s (DMA_CHSTAT_DONES n) 1) (DMA_CHSTAT_DONES n) = (getF s (DMA_CHSTAT_DONES n) + 1) % 65536 :=
    getF_setF_status_same s n 15 0 _ (by decide)
  have told (x : State) (asks : Prop) [Decidable asks] :
      getF (if asks then eventLine x n else x) (DMA_CHSTAT_DONES n) = getF x (DMA_CHSTAT_DONES n) ∧
        (if asks then eventLine x n else x).hic = x.hic := by
    split
    · exact eventLine_completion x hn
    · exact ⟨rfl, rfl⟩
  have edge (x : State) (asks : Prop) [Decidable asks] :
      getF (if asks then pulse x n else x) (DMA_CHSTAT_DONES n) = getF x (DMA_CHSTAT_DONES n) ∧
        (if asks then pulse x n else x).hic.edges = x.hic.edges ++ if asks then [n] else [] := by
    split
    · rw [pulse_house x (channel_isHouseSource hn)]
      exact ⟨getF_with_hic x _ _, rfl⟩
    · exact ⟨rfl, (List.append_nil _).symm⟩
  unfold dmaFinish
  dsimp only
  rw [if_pos last]
  obtain ⟨toldDones, toldEdges⟩ := told (countWrapF s (DMA_CHSTAT_DONES n) 1) ((dmaCh s n).field 0 21 21 = 1)
  generalize (if (dmaCh s n).field 0 21 21 = 1 then eventLine (countWrapF s (DMA_CHSTAT_DONES n) 1) n
    else countWrapF s (DMA_CHSTAT_DONES n) 1) = x at toldDones toldEdges ⊢
  obtain ⟨edgeDones, edges⟩ := edge x ((dmaCh s n).field 0 20 20 = 1)
  generalize (if (dmaCh s n).field 0 20 20 = 1 then pulse x n else x) = y at edgeDones edges ⊢
  refine ⟨congrArg (·.phase) (dmaCh_setDma_same y hn _), getF_setF_status_same _ n 31 31 0 (by decide), ?_, ?_⟩
  · refine (getF_setF_status_ne _ n 31 31 15 0 0 (by decide) (by decide) (by decide)).trans ?_
    exact (getF_setDma y n _ _).trans (edgeDones.trans (toldDones.trans counted))
  · refine edges.trans ?_
    rw [toldEdges]
    rfl

section
variable {s : State} {n : Fin 32}

/-- Elements whose writes are lost halt the channel (R374, R375). -/
theorem dmaComplete_halts (on : houseOn s = true) (applying : (dmaCh s n).phase = .applying) (quiet : dmaQuiet s n = true)
    (lost : (dmaCh s n).applied < (dmaCh s n).count) : Answers (.dmaComplete n) s fun t => DmaHalted t n 6 := by
  have runs : dmaComplete s n = dmaHalt s n 6 ((dmaCh s n).element true (dmaCh s n).applied) := by
    rw [dmaComplete]
    simp only [applying, quiet, lost, Bool.not_true, Bool.false_eq_true, if_false, if_true]
  refine ⟨_, (whenHouse_on on fun s => dmaComplete s n).trans (congrArg _ runs), ?_⟩
  exact dmaHalt_halted n.isLt (by decide) quiet (fun abort => absurd abort (by decide)) _

/-- With every write applied the channel goes on from its descriptor (R374). -/
theorem dmaComplete_finishes (on : houseOn s = true) (done : (dmaCh s n).phase = .written ∨ ((dmaCh s n).phase = .applying ∧
      dmaQuiet s n = true ∧ (dmaCh s n).count ≤ (dmaCh s n).applied ∧ (dmaCh s n).wb = false)) :
    exec (.dmaComplete n) s = .next (dmaFinish s n) := by
  refine (whenHouse_on on fun s => dmaComplete s n).trans (congrArg _ ?_)
  rw [dmaComplete]
  rcases done with written | ⟨applying, quiet, all, plain⟩
  · simp only [written]
  · simp only [applying, quiet, Nat.not_lt.mpr all, dmaWriteDone, plain, Bool.not_true, Bool.not_false, Bool.false_eq_true,
      if_false, if_true]

end

/-! ### A burst of house SRAM -/

/-- A word that a channel may take from house SRAM: any where it moves raw words, else one with a tag of data (R369, R375). -/
abbrev DmaCh.takes (c : DmaCh) (w : Tagged) : Prop :=
  c.field 0 8 8 = 1 ∨ (1 ≤ (tagOf w).toNat ∧ (tagOf w).toNat ≤ 7)

/-- The word that it writes for it (R369). -/
abbrev DmaCh.gives (c : DmaCh) (w : Tagged) : Tagged :=
  if c.field 0 8 8 = 1 then w else intWord (swapWord (c.field 0 7 6) (payload w))

theorem DmaCh.takes_gives {c d : DmaCh} {w : Tagged} (same : d.desc = c.desc) : d.takes (c.gives w) := by
  unfold DmaCh.takes DmaCh.gives DmaCh.field
  rw [same]
  split
  · next raw => exact .inl raw
  · exact .inr (by rw [tagOf_intWord]; decide)

/-- Element `i` of channel `c` can be moved within house SRAM: its source is marked and good (R368, R369). -/
structure Movable (s : State) (c : DmaCh) (i : Nat) : Prop where
  source : c.element false i < 0x80000
  dest : c.element true i < 0x80000
  marked : pageMarked s (c.element false i / 1024) = true
  good : ∃ w, sramCell s 0 (c.element false i) = .good w ∧ c.takes w

/-- Channel `n` runs and moves words of house SRAM to house SRAM. -/
structure WithinHouse (s : State) (n : Nat) : Prop where
  moving : (dmaCh s n).phase = .moving
  source : (dmaCh s n).field 0 1 0 = 0
  dest : (dmaCh s n).field 0 3 2 = 0

/-- A channel with `k` more elements moved and applied. -/
abbrev DmaCh.advanced (c : DmaCh) (k : Nat) : DmaCh := { c with moved := c.moved + k, applied := c.applied + k }

/-- From `s` to `t` channel `n` has moved its next element, which was `w` (R369, R375). -/
structure ElementMoved (s t : State) (n : Nat) (w : Tagged) : Prop where
  channel : dmaCh t n = (dmaCh s n).advanced 1
  last : t.dmaLast = s.dmaLast
  marks : ∀ p, pageMarked s p = true → pageMarked t p = true
  cell : ∀ x, sramCell t 0 x =
    if x = (dmaCh s n).element true (dmaCh s n).moved then .good ((dmaCh s n).gives w) else sramCell s 0 x

section
variable {s : State} {n : Nat}

theorem DmaCh.element_zero_le (c : DmaCh) (dst : Bool) (i : Nat) : c.element dst 0 ≤ c.element dst i := by
  unfold DmaCh.element
  by_cases fixed : (if dst then c.field 0 5 5 else c.field 0 4 4) = 1
  · rw [if_pos fixed, if_pos fixed]
  · rw [if_neg fixed, if_neg fixed]
    exact Nat.add_le_add_left (Nat.mul_le_mul_right _ (Nat.zero_le i)) _

theorem dmaRange_house {a : Nat} (low : a < 0x80000) : dmaRange a = some 0 := if_pos low

/-- A word of house SRAM is read as it stands, or as an INT word (R369). -/
theorem dmaReadElement_house {i : Nat} (free : Movable s (dmaCh s n) i) {w : Tagged}
    (held : sramCell s 0 ((dmaCh s n).element false i) = .good w) :
    dmaReadElement s n i = (s, .ok (if (dmaCh s n).field 0 8 8 = 1 then w else intWord (payload w))) := by
  obtain ⟨source, -, marked, v, good, takes⟩ := free
  have word : v = w := SramCell.good.inj (good.symm.trans held)
  rw [word] at takes
  have load := sramLoad_good held fun _ => marked
  unfold dmaReadElement
  simp only [dmaRange_house source, load, if_true]
  split
  · rfl
  · next plain =>
    obtain ⟨low, high⟩ := takes.resolve_left plain
    have tag : ¬ ((decide (tagOf w = 0) || decide (8 ≤ (tagOf w).toNat)) = true) := by
      rw [Bool.or_eq_true, decide_eq_true_eq, decide_eq_true_eq]
      rintro (zero | above)
      · rw [zero] at low
        exact absurd low (by decide)
      · omega
    rw [if_neg tag]

/-- A word for house SRAM is stored at its place, and counted as applied (R369). -/
theorem dmaWriteElement_house {i : Nat} (inHouse : (dmaCh s n).field 0 3 2 = 0) (low : (dmaCh s n).element true i < 0x80000)
    (w : Tagged) : dmaWriteElement s n i w =
      (dmaCountApplied (sramStore s 0 ((dmaCh s n).element true i) ((dmaCh s n).gives w)) n, true) := by
  have space : ¬ (dmaCh s n).field 0 3 2 = 1 := fun dram => absurd (inHouse.symm.trans dram) (by decide)
  unfold dmaWriteElement
  dsimp only
  rw [if_neg space, dmaRange_house low, if_neg (by decide), if_pos rfl]

/-- A word that is read is given as it would be from its cell. -/
theorem DmaCh.gives_read (c : DmaCh) (w : Tagged) : c.gives (if c.field 0 8 8 = 1 then w else intWord (payload w)) = c.gives w := by
  unfold DmaCh.gives
  split
  · rfl
  · rw [payload_intWord]

/-- The state after the next element of channel `n` was moved within house SRAM, where its source held `w`. -/
def elementStored (s : State) (n : Nat) (w : Tagged) : State :=
  dmaCountApplied (sramStore (setDma s n { dmaCh s n with moved := (dmaCh s n).moved + 1 }) 0
    ((dmaCh s n).element true (dmaCh s n).moved) ((dmaCh s n).gives w)) n

theorem elementStored_moved (hn : n < 32) (w : Tagged) : ElementMoved s (elementStored s n w) n w := by
  have channel (a : Nat) (v : Tagged) (c : DmaCh) : dmaCh (sramStore (setDma s n c) 0 a v) n = c := dmaCh_setDma_same s hn c
  refine ⟨?_, rfl, fun p marked => ?_, fun x => ?_⟩
  · rw [elementStored, dmaCountApplied, dmaCh_setDma_same _ hn, channel]
  · refine (pageMarked_markPage_iff _ p _).trans ?_
    rw [Bool.or_eq_true]
    exact .inr marked
  · refine (sramStore_cell (Nat.zero_le 4) _ _ 0 x _).trans ?_
    simp only [Prod.mk.injEq, true_and]
    rfl

/-- One more element of a run within house SRAM moves. -/
theorem dmaMove_element (hn : n < 32) (within : WithinHouse s n) (free : Movable s (dmaCh s n) (dmaCh s n).moved) :
    ∃ w, sramCell s 0 ((dmaCh s n).element false (dmaCh s n).moved) = .good w ∧
      ∀ k, dmaMove s n (k + 1) = dmaMove (elementStored s n w) n k := by
  obtain ⟨moving, -, inHouse⟩ := within
  obtain ⟨w, held, -⟩ := free.good
  have read := dmaReadElement_house free held
  have given := (dmaCh s n).gives_read w
  generalize (if (dmaCh s n).field 0 8 8 = 1 then w else intWord (payload w)) = v at read given
  have channel := dmaCh_setDma_same s hn { dmaCh s n with moved := (dmaCh s n).moved + 1 }
  have written := dmaWriteElement_house (s := setDma s n { dmaCh s n with moved := (dmaCh s n).moved + 1 })
    (i := (dmaCh s n).moved) (by rw [channel]; exact inHouse) (by rw [channel]; exact free.dest) v
  rw [channel] at written
  have stored : dmaPutElement s n (.ok v) = elementStored s n w := by
    rw [elementStored, ← given, dmaPutElement]
    simp only [written, if_true]
    rfl
  refine ⟨w, held, fun k => ?_⟩
  rw [dmaMove, moving, if_neg (by decide), read]
  exact congrArg (dmaMove · n k) stored

/-- What `k` elements of a run within house SRAM leave: where no destination is a source or another destination, each destination
holds what its source gave (R369, R373). -/
structure RunMoved (s t : State) (n k : Nat) : Prop where
  channel : dmaCh t n = (dmaCh s n).advanced k
  last : t.dmaLast = s.dmaLast
  others : ∀ x, (∀ j < k, (dmaCh s n).element true ((dmaCh s n).moved + j) ≠ x) → sramCell t 0 x = sramCell s 0 x
  words : (∀ i j, i < k → j < k →
      (dmaCh s n).element false ((dmaCh s n).moved + i) ≠ (dmaCh s n).element true ((dmaCh s n).moved + j)) →
    (∀ i j, i < j → j < k →
      (dmaCh s n).element true ((dmaCh s n).moved + i) ≠ (dmaCh s n).element true ((dmaCh s n).moved + j)) →
    ∀ j < k, ∀ w, sramCell s 0 ((dmaCh s n).element false ((dmaCh s n).moved + j)) = .good w →
      sramCell t 0 ((dmaCh s n).element true ((dmaCh s n).moved + j)) = .good ((dmaCh s n).gives w)

theorem RunMoved.refl (s : State) (n : Nat) : RunMoved s s n 0 :=
  ⟨rfl, rfl, fun _ _ => rfl, fun _ _ _ none => absurd none (Nat.not_lt_zero _)⟩

theorem ElementMoved.movable {t : State} {w : Tagged} (h : ElementMoved s t n w) {j : Nat} (free : Movable s (dmaCh s n) j) :
    Movable t (dmaCh t n) j := by
  obtain ⟨source, dest, marked, v, held, takes⟩ := free
  rw [h.channel]
  refine ⟨source, dest, h.marks _ marked, ?_⟩
  by_cases own : (dmaCh s n).element false j = (dmaCh s n).element true (dmaCh s n).moved
  · exact ⟨_, (h.cell _).trans (if_pos own), DmaCh.takes_gives rfl⟩
  · exact ⟨v, (h.cell _).trans ((if_neg own).trans held), takes⟩

/-- An element and the run after it are a run. -/
theorem ElementMoved.run {t u : State} {w : Tagged} {k : Nat} (h : ElementMoved s t n w)
    (first : sramCell s 0 ((dmaCh s n).element false (dmaCh s n).moved) = .good w) (rest : RunMoved t u n k) :
    RunMoved s u n (k + 1) := by
  obtain ⟨channel, last, others, words⟩ := rest
  rw [h.channel] at channel others words
  have place (dst : Bool) (j : Nat) : ((dmaCh s n).advanced 1).element dst (((dmaCh s n).advanced 1).moved + j) =
      (dmaCh s n).element dst ((dmaCh s n).moved + (j + 1)) := by
    show (dmaCh s n).element dst ((dmaCh s n).moved + 1 + j) = _
    rw [Nat.add_assoc, Nat.add_comm 1 j]
  simp only [place] at others words
  refine ⟨?_, last.trans h.last, fun x apart => ?_, fun crossed distinct j hj v held => ?_⟩
  · rw [channel]
    simp only [DmaCh.advanced, Nat.add_assoc, Nat.add_comm 1 k]
  · have own : ¬ x = (dmaCh s n).element true (dmaCh s n).moved := fun e => apart 0 (Nat.succ_pos k) e.symm
    exact (others x fun j hj => apart (j + 1) (Nat.succ_lt_succ hj)).trans ((h.cell x).trans (if_neg own))
  · cases j with
    | zero =>
      have same : w = v := SramCell.good.inj (first.symm.trans held)
      refine (others _ fun j hj => (distinct 0 (j + 1) (Nat.succ_pos j) (Nat.succ_lt_succ hj)).symm).trans ?_
      exact (h.cell _).trans ((if_pos rfl).trans (by rw [same]))
    | succ j =>
      have own : ¬ (dmaCh s n).element false ((dmaCh s n).moved + (j + 1)) = (dmaCh s n).element true (dmaCh s n).moved :=
        crossed (j + 1) 0 hj (Nat.succ_pos k)
      exact words (fun a b ha hb => crossed (a + 1) (b + 1) (Nat.succ_lt_succ ha) (Nat.succ_lt_succ hb))
        (fun a b less hb => distinct (a + 1) (b + 1) (Nat.succ_lt_succ less) (Nat.succ_lt_succ hb)) j (Nat.lt_of_succ_lt_succ hj) v
        ((h.cell _).trans ((if_neg own).trans held))

/-- The elements of a run within house SRAM move in order (R369, R373). -/
theorem dmaMove_moves (hn : n < 32) (k : Nat) : ∀ s, WithinHouse s n →
    (∀ j < k, Movable s (dmaCh s n) ((dmaCh s n).moved + j)) → RunMoved s (dmaMove s n k) n k := by
  induction k with
  | zero => exact fun s _ _ => RunMoved.refl s n
  | succ k ih =>
    intro s within free
    obtain ⟨w, held, more⟩ := dmaMove_element hn within (free 0 (Nat.succ_pos k))
    have moved := elementStored_moved (s := s) hn w
    rw [more]
    refine moved.run held (ih _ ?_ fun j hj => ?_)
    · obtain ⟨moving, source, dest⟩ := within
      exact ⟨by rw [moved.channel]; exact moving, by rw [moved.channel]; exact source, by rw [moved.channel]; exact dest⟩
    · have next : (dmaCh (elementStored s n w) n).moved + j = (dmaCh s n).moved + (j + 1) := by
        rw [moved.channel]
        show (dmaCh s n).moved + 1 + j = _
        omega
      rw [next]
      exact moved.movable (free (j + 1) (Nat.succ_lt_succ hj))

end

/-! ### The engine's choice -/

/-- With no burst's reads out no channel waits for any (R373). -/
theorem dmaEngaged_none {s : State} (free : dmaEngaged s = false) {n : Nat} (hn : n < 32) : (dmaCh s n).asked = 0 := by
  have size : n < s.dma.toList.length := by rwa [Vector.length_toList]
  have one : dmaCh s n = s.dma.toList[n] := by rw [dmaCh, List.getD_eq_getElem _ _ size]
  have all : s.dma.toList.any (fun c => c.asked != 0) = false := by
    rw [Vector.any_toList]
    exact free
  rw [one]
  simpa using List.any_eq_false.mp all _ (List.getElem_mem size)

/-- The channel that the engine chooses has a descriptor to move. -/
theorem dmaChoice_moving {s : State} {n : Nat} (choice : dmaChoice s = some n) : (dmaCh s n).phase = .moving := by
  obtain ⟨prio, -, found⟩ := List.exists_of_findSome?_eq_some choice
  have ready := List.find?_some found
  simp only [dmaReady, Bool.and_eq_true, decide_eq_true_eq] at ready
  exact ready.1.1.1.1

/-- A channel with the burst counted that it is about to move (R372). -/
abbrev DmaCh.bursting (c : DmaCh) : DmaCh :=
  { c with bursts := c.bursts + 1, credits := if c.field 0 11 9 = 1 || c.field 0 11 9 = 3 then c.credits - 1 else c.credits }

/-- The state in which the engine serves a channel (R373). -/
def dmaServed (s : State) (n : Nat) : State :=
  { setDma s n (dmaCh s n).bursting with dmaLast := s.dmaLast.setIfInBounds (getF s (DMA_CHCTL_PRIO n)) n }

/-- The elements of the burst that comes next (R372). -/
abbrev DmaCh.burst (c : DmaCh) : Nat := min (c.field 3 31 24 + 1) (c.count - c.moved)

section
variable {s : State} {n : Nat}

theorem dmaServed_channel (s : State) (hn : n < 32) : dmaCh (dmaServed s n) n = (dmaCh s n).bursting :=
  dmaCh_setDma_same s hn _

theorem dmaBurst_serves {u : State} (settled : (List.range 32).foldl dmaSettle s = u) (free : dmaEngaged u = false)
    (choice : dmaChoice u = some n) :
    dmaBurst s = dmaBurstEnd (if (dmaCh u n).bridged then dmaAsk (dmaServed u n) n (dmaCh u n).burst
      else dmaMove (dmaServed u n) n (dmaCh u n).burst) n := by
  unfold dmaBurst
  simp only [settled, free, choice, Bool.false_eq_true, if_false]
  rfl

/-- A burst within house SRAM moves its elements, also where none is left and its descriptor names a source that is not. -/
theorem dmaBurst_runs (hn : n < 32) (free : dmaEngaged s = false) (choice : dmaChoice s = some n)
    (source : (dmaCh s n).field 0 1 0 = 0) (dest : (dmaCh s n).field 0 3 2 = 0)
    (movable : ∀ j < (dmaCh s n).burst, Movable s (dmaCh s n) ((dmaCh s n).moved + j)) :
    RunMoved (dmaServed s n) (if (dmaCh s n).bridged then dmaAsk (dmaServed s n) n (dmaCh s n).burst
      else dmaMove (dmaServed s n) n (dmaCh s n).burst) n (dmaCh s n).burst := by
  have channel := dmaServed_channel s hn
  split
  · next bridged =>
    have none : (dmaCh s n).burst = 0 := by
      refine Nat.eq_zero_of_not_pos fun some' => ?_
      have low := (movable 0 some').source
      have base : (dmaCh s n).element false 0 < 0x80000 :=
        Nat.lt_of_le_of_lt (DmaCh.element_zero_le _ _ _) low
      rw [DmaCh.bridged, source, dmaRange_house base] at bridged
      exact absurd bridged (by decide)
    have asked := dmaEngaged_none free hn
    rw [none]
    refine ⟨?_, rfl, fun _ _ => rfl, fun _ _ _ no => absurd no (Nat.not_lt_zero _)⟩
    refine (dmaCh_setDma_same (dmaServed s n) hn _).trans ?_
    rw [channel]
    show DmaCh.mk _ _ _ _ _ _ _ _ 0 _ _ _ = DmaCh.mk _ _ _ _ _ _ _ _ _ _ _ _
    rw [asked]
    rfl
  · refine dmaMove_moves hn _ _ ⟨?_, ?_, ?_⟩ fun j hj => ?_
    · rw [channel]
      exact dmaChoice_moving choice
    · rw [channel]
      exact source
    · rw [channel]
      exact dest
    · rw [channel]
      obtain ⟨low, high, marked, good⟩ := movable j hj
      exact ⟨low, high, marked, good⟩

/-- The descriptor's last element ends its moves (R374). -/
theorem dmaBurstEnd_phase (hn : n < 32) (moving : (dmaCh s n).phase = .moving) (asked : (dmaCh s n).asked = 0) :
    dmaCh (dmaBurstEnd s n) n =
        { dmaCh s n with phase := if (dmaCh s n).count ≤ (dmaCh s n).moved then .applying else .moving } ∧
      (dmaBurstEnd s n).dmaLast = s.dmaLast ∧ ∀ x, sramCell (dmaBurstEnd s n) 0 x = sramCell s 0 x := by
  have ends : (decide ((dmaCh s n).phase = .moving) && decide ((dmaCh s n).asked = 0) &&
      decide ((dmaCh s n).count ≤ (dmaCh s n).moved)) = decide ((dmaCh s n).count ≤ (dmaCh s n).moved) := by
    rw [decide_eq_true moving, decide_eq_true asked]
    rfl
  unfold dmaBurstEnd
  dsimp only
  rw [ends]
  by_cases all : (dmaCh s n).count ≤ (dmaCh s n).moved
  · rw [decide_eq_true all, if_pos rfl, if_pos all]
    exact ⟨dmaCh_setDma_same s hn _, rfl, fun _ => rfl⟩
  · rw [decide_eq_false all, if_neg Bool.false_ne_true, if_neg all, ← moving]
    exact ⟨rfl, rfl, fun _ => rfl⟩

/-- A burst within house SRAM: its channel served, its elements moved in order, its descriptor ended with its last (R372 to R374). -/
theorem dmaBurst_moves (hn : n < 32) {u : State} (settled : (List.range 32).foldl dmaSettle s = u)
    (free : dmaEngaged u = false) (choice : dmaChoice u = some n) (source : (dmaCh u n).field 0 1 0 = 0)
    (dest : (dmaCh u n).field 0 3 2 = 0)
    (movable : ∀ j < (dmaCh u n).burst, Movable u (dmaCh u n) ((dmaCh u n).moved + j)) :
    ∃ t, RunMoved (dmaServed u n) t n (dmaCh u n).burst ∧ (dmaBurst s).dmaLast = t.dmaLast ∧
      (∀ x, sramCell (dmaBurst s) 0 x = sramCell t 0 x) ∧ dmaCh (dmaBurst s) n =
        { (dmaCh u n).bursting.advanced (dmaCh u n).burst with
          phase := if (dmaCh u n).count ≤ (dmaCh u n).moved + (dmaCh u n).burst then .applying else .moving } := by
  have run := dmaBurst_runs hn free choice source dest movable
  rw [dmaBurst_serves settled free choice]
  generalize (if (dmaCh u n).bridged then dmaAsk (dmaServed u n) n (dmaCh u n).burst
    else dmaMove (dmaServed u n) n (dmaCh u n).burst) = t at run ⊢
  have channel := run.channel
  rw [dmaServed_channel u hn] at channel
  obtain ⟨ended, last, cells⟩ := dmaBurstEnd_phase (s := t) hn (by rw [channel]; exact dmaChoice_moving choice)
    (by rw [channel]; exact dmaEngaged_none free hn)
  refine ⟨t, run, last, cells, ?_⟩
  rw [ended, channel]
  rfl

/-- The channel served is the last of its priority (R373). -/
theorem dmaServed_last (s : State) (n : Nat) : (dmaServed s n).dmaLast.toList.getD (getF s (DMA_CHCTL_PRIO n)) 31 = n := by
  have prio : getF s (DMA_CHCTL_PRIO n) < 4 := getF_lt s (DMA_CHCTL_PRIO n) ⟨show 4 ≤ 5 by decide, show 5 < 32 by decide⟩
  exact (toList_getD_setIfInBounds _ _ _ _ _).trans (if_pos ⟨rfl, prio⟩)

/-- The engine rests while reads of a burst are out, or no channel can move (R373). -/
theorem dmaBurst_rests {u : State} (settled : (List.range 32).foldl dmaSettle s = u)
    (none : dmaEngaged u = true ∨ dmaChoice u = none) : dmaBurst s = u := by
  unfold dmaBurst
  rw [settled]
  dsimp only
  split
  · rfl
  · next free => rw [none.resolve_left free]

end

end Sys2Proof.Machine
end

section
/-! The DMA engine and the memory block (R369 to R377, R386, R388, R391, R392). -/

namespace Sys2Proof.Machine

/-- The patrol of DRAM goes on past the unit that it reads, and leaves that corrected (R392). -/
theorem dramScrub_goesOn {s : State} {place : Nat} (on : flag s SC_ECCCTL_DSCRUBEN = true)
    (next : scrubNext s s.dram.scrubUnit = some place) : (dramScrub s).dram.scrubUnit = place + 1 ∧
      (unitState s (place % 2 ^ 32) = .single → unitState (dramScrub s) (place % 2 ^ 32) = .good ∧
        getF (dramScrub s) SC_ECCCNT_CE = min 0xFFFF (getF s SC_ECCCNT_CE + 1)) := by
  unfold dramScrub
  rw [on, Bool.not_true, if_neg Bool.false_ne_true, next]
  exact ⟨rfl, fun wrong => touchUnit_corrects (scrubNext_open next) wrong 0x56⟩

/-- A flag of one bit is set where it reads 1. -/
theorem flag_of_one {s : State} {f : Fld} (one : getF s f = 1) : flag s f = true := by rw [flag, one]; rfl

/-- Settles O49: START, the halts and ABORT by what a write of the channel's control register does, a burst by induction on its
elements, and the memory block by its own operations. -/
theorem dmaAndMemory : Obligations.DmaAndMemory := by
  unfold Obligations.DmaAndMemory
  intro s src n val ws i place on c cur loaded halted u b k at_
  have settled : (List.range 32).foldl dmaSettle s = u := rfl
  clear_value u
  refine ⟨?start, dmaStart_busy on src, ?rest, ?burst, dmaComplete_halts on, ?finish, ?abort, ?scrubOff, ?scrubOn, ?dram, ?mram,
    meminit_starts on src, meminit_ignored on src, meminitDone_ends on, wmapSet_sets on src i val⟩
  case start =>
    intro idle free house aligned low eight reads
    have ready : Startable s n val ws := ⟨idle, free, house, aligned, low, eight, reads⟩
    exact ⟨dmaStart_moves on src ready rfl, dmaStart_refuses on src ready rfl⟩
  case rest =>
    intro none
    exact (whenHouse_on on dmaBurst).trans (congrArg _ (dmaBurst_rests settled none))
  case burst =>
    intro free choice source dest movable
    obtain ⟨t, run, last, cells, channel⟩ := dmaBurst_moves n.isLt settled free choice source dest fun j hj =>
      have ⟨low, high, marked, good⟩ := movable j hj
      ⟨low, high, marked, good⟩
    refine ⟨_, whenHouse_on on dmaBurst, ?_, ?_, ?_, ?_, ?_, fun crossed distinct j hj w held => ?_⟩
    · rw [last, run.last]
      exact dmaServed_last u n
    · rw [channel]
    · rw [channel]
    · rw [channel]
    · rw [channel]
    · have words := run.words
      rw [dmaServed_channel u n.isLt] at words
      exact (cells _).trans (words crossed distinct j hj w held)
  case finish =>
    intro done last
    exact ⟨_, dmaComplete_finishes on done, dmaFinish_ends n.isLt last⟩
  case abort =>
    exact fun runs free => ⟨dmaAbort_now on src val runs free, dmaAbort_waits on src val runs free⟩
  case scrubOff =>
    intro off
    refine (whenHouse_on on houseScrub).trans (congrArg _ ?_)
    rw [houseScrub, flag, off]
    rfl
  case scrubOn =>
    intro scrub
    obtain ⟨next, pass⟩ := houseScrub_goesOn (flag_of_one scrub)
    exact ⟨_, whenHouse_on on houseScrub, next, pass, fun w house marked => houseScrub_corrects (flag_of_one scrub) rfl house marked⟩
  case dram =>
    exact fun up scrub next => ⟨_, whenScan_on up dramScrub, dramScrub_goesOn (flag_of_one scrub) next⟩
  case mram =>
    exact ⟨_, whenHouse_on on mramScrub, rfl, mramScrub_corrects⟩

end Sys2Proof.Machine
end
